-- ==== Sys2Proof/Word.lean ====
section
/-!
DEFINITION. The word types of the block: bytes, 32-bit register words, 64-bit raw time.
-/

namespace Sys2Proof

/-- One byte. -/
abbrev Byte := BitVec 8

/-- One 32-bit register word (R361). -/
abbrev Reg32 := BitVec 32

/-- A raw time in units of 2^-16 ns (R115). -/
abbrev Raw := BitVec 64

/-- `n` zero bytes. -/
def zeroBytes (n : Nat) : List Byte := List.replicate n 0

end Sys2Proof
end

