-- ==== Sys2Proof/Syntax.lean ====
section
/-!
DEFINITION. The commands of the block: one constructor of `Instr` per row of spec/opcode_table.json, with the row's
operands, and the plain-data types of the larger operands.
-/

namespace Sys2Proof

/-- One DMA descriptor of a bulk list (Table 14-8), as it stands in host memory. -/
structure Desc where
  addr : BitVec 64 := 0
  len : Nat := 0
  toHost : Bool := false
  chain : Bool := false
  last : Bool := false
  next : BitVec 64 := 0
  deriving DecidableEq, Repr

/-- What host memory holds for a bulk command (R377): the lists of the chain in order, each with its address, and the
bytes that lie in the buffers of a transfer towards the device. -/
structure BulkMem where
  lists : List (BitVec 64 × List Desc) := []
  data : List Byte := []
  deriving DecidableEq, Repr

/-- A command packet as its sender writes it (Table 15-1) with the length written to MBX_SEND. `op` is the opcode in
bytes 4-5; a CMD_ constructor fixes it. -/
structure Packet where
  chan : Nat := 1
  magic : BitVec 16 := 0x7A5C#16
  version : Byte := 1
  flags : Byte := 0
  op : Nat := 0
  tag : BitVec 16 := 0
  plen : Nat := 0
  target : BitVec 32 := 0
  counter : BitVec 64 := 0
  reserved : BitVec 64 := 0
  params : List Byte := []
  trailer : List Byte := []
  sendLen : Nat := 32
  bulk : BulkMem := {}
  deriving DecidableEq, Repr

/-- One image stage as the ROM reads it (R69 to R74): its number, its bytes with the signature block, whether that block verifies under
ECDSA P-384 and under ML-DSA-87, the size of its image in bytes, the firmware release it carries, and for a read of the flash whether the
flash answers and which copies of the image directory pass their check. -/
structure BootImage where
  stage : Nat := 0
  bytes : List Byte := []
  ecdsaOk : Bool := true
  mldsaOk : Bool := true
  size : Nat := 0
  release : BitVec 32 := 0
  answers : Bool := true
  dirOk : Bool := true
  copyOk : Bool := true
  deriving DecidableEq, Repr

/-- The four sensor readings of a tile in °C (R56). -/
structure Readings where
  s0 : Int := 25
  s1 : Int := 25
  s2 : Int := 25
  s3 : Int := 25
  deriving DecidableEq, Repr

/-- A delimiter match (R148): its offset from the expected start in line bits, its Hamming distance, whether the burst
header check passed and, in a discovery or ranging window, the line bits of the burst. -/
structure BurstFound where
  offset : Int := 0
  hamming : Nat := 0
  hdrOk : Bool := true
  onu : Nat := 0
  bits : Nat := 0
  deriving DecidableEq, Repr

/-- One status report decoded in a burst (R203), in bytes. -/
structure ReportInfo where
  aid : Nat := 0
  bytes : Nat := 0
  deriving DecidableEq, Repr

/-- Use of one grant (R204): bytes that did not carry idle frames. -/
structure UsedInfo where
  aid : Nat := 0
  bytes : Nat := 0
  deriving DecidableEq, Repr

/-- What decoding one accepted burst yields (R151): FEC and BIP results, reports, use of the grants, bytes lost after a
failed GEM header, and the encrypted frames' key indices. -/
structure BurstInfo where
  tid : Nat := 0
  frame : Nat := 0
  codewords : Nat := 0
  corrected : Nat := 0
  uncorrectable : Nat := 0
  bitsCorrected : Nat := 0
  bipBlocks : Nat := 0
  bipErr : Nat := 0
  lostBytes : Nat := 0
  reports : List ReportInfo := []
  used : List UsedInfo := []
  keyIndices : List Nat := []
  gemBytes : Nat := 0
  gemFrames : Nat := 0
  deriving DecidableEq, Repr

/-- An Encryption_Key or Key_Report message (R334): slot (key index less one on X and F), fragment number and count, the
key field of the fragment and whether the check of the standard passes. -/
structure KeyMsg where
  slot : Nat := 0
  frag : Nat := 0
  frags : Nat := 1
  key : List Byte := []
  ok : Bool := true
  deriving DecidableEq, Repr

/-- A received SAToP packet (R158): sequence, L and R bits, payload, and whether it carries an RTP header. -/
structure SatopPacket where
  seq : Nat := 0
  lBit : Bool := false
  rBit : Bool := false
  rtp : Bool := false
  cw : Bool := true
  psn : Nat := 0
  pw : BitVec 32 := 0
  payload : List Byte := []
  deriving DecidableEq, Repr

/-- Where a frame enters the classifier (Table 10-2 code 0x01). -/
structure Ingress where
  pipe : Nat := 0
  channel : Bool := false
  handle : Nat := 0
  gem : Nat := 0
  tid : Nat := 0
  aid : Nat := 0
  deriving DecidableEq, Repr

/-- A table change that arrives from a home tile (R274). -/
structure TableUpdate where
  table : Nat := 0
  key : List Byte := []
  act : List Byte := []
  okind : Nat := 0
  owner : Nat := 0
  stamp : Raw := 0
  tileFrom : Nat := 0
  deriving DecidableEq, Repr

/-- A word or two that the host writes, and the W1C bits of it that hardware events set in the cycle of the write (R11). -/
structure HostWrite where
  value : BitVec 64 := 0
  evt : BitVec 64 := 0
  deriving DecidableEq, Repr

/-- The straps as they stand at the release of a package cold reset (R61). -/
structure Straps where
  bootSrc : BitVec 2 := 0
  refSel : Bool := false
  deriving DecidableEq, Repr

/-- A feed that has qualified, and the straps, which are sampled where that releases a cold reset (R45, R49, R61). -/
structure FeedGood where
  feedB : Bool := false
  straps : Straps := {}
  deriving DecidableEq, Repr

/-- An input that is stuck: 0 RESET_N, 1 EXT_QUENCH_N, 2 to 5 PROT_REQ_N; and the straps, sampled where a stuck RESET_N lets the package
boot (R58, R61). -/
structure StuckInput where
  input : Nat := 0
  straps : Straps := {}
  deriving DecidableEq, Repr

/-- The images of a host load: whether its descriptor list is valid and aligned, and the stages read (R70). -/
structure HostLoad where
  listOk : Bool := true
  images : List BootImage := []
  deriving DecidableEq, Repr

/-- The images that a tile received, and the die-link delays out to it and back, in raw units, with which its time unit is aligned (R75,
R131). -/
structure TileLoad where
  images : List (List Byte) := []
  out : Nat := 0
  back : Nat := 0
  deriving DecidableEq, Repr

/-- One direction of a lane (R101): the receiver or the transmitter. -/
structure LaneSide where
  lane : Nat := 0
  rx : Bool := false
  deriving DecidableEq, Repr

/-- A frame on its way into a queue (R285 to R294): requester port, the tile that sends it, queue, colour 0 green 1 yellow 2 red, owner
count and last owner. -/
structure EnqueueReq where
  port : Nat := 0
  src : Nat := 0
  queue : Nat := 0
  frame : List Byte := []
  color : Nat := 0
  sdom : Nat := 0
  count : Nat := 1
  last : Nat := 0
  deriving DecidableEq, Repr

/-- A frame received on an uplink sub-port (R313): addresses, EtherType, SecTAG fields where present, the verdict of the
ICV, and the frame as the classifier sees it after decryption. -/
structure UplinkFrame where
  sub : Nat := 0
  src : Nat := 0
  etherType : Nat := 0x0800
  secTag : Bool := false
  badTag : Bool := false
  sci : Option Nat := none
  es : Bool := false
  scb : Bool := false
  enc : Bool := true
  an : Nat := 0
  pn : Nat := 1
  icvOk : Bool := true
  frame : List Byte := []
  deriving DecidableEq, Repr

/-- A received MKPDU (R326, R327) as the MKA firmware reads it. -/
structure Mkpdu where
  sci : Nat := 0
  prio : Nat := 16
  icvOk : Bool := true
  mn : Nat := 1
  serverAn : Option Nat := none
  wrapped : List Byte := []
  rxSas : List Nat := []
  txSas : List Nat := []
  allPeersReceive : Bool := false
  low : Nat := 1
  ssci : Nat := 0
  salt : List Byte := []
  deriving DecidableEq, Repr

/-- Upstream PLOAM messages (Table 7-3); other: one that the table does not list. -/
inductive PloamUp where
  | serialNumber | password | encryptionKey | acknowledge | sleepRequest | dyingGasp | remoteError | physicalError | other
  deriving DecidableEq, Repr

/-- A PLOAM message of a channel. -/
structure PloamAt where
  ch : Nat := 0
  msg : PloamUp := .other
  deriving DecidableEq, Repr

/-- PTP message kinds of Table 5-3. -/
inductive PtpKind where
  | announce | sync | followUp | delayReq | delayResp
  deriving DecidableEq, Repr

/-- A received PTP frame (R126, R127): kind, domain, whether the best-master algorithm of the profile makes the port a
slave of its sender, whether a Sync leaves its time to a Follow_Up, and the time error it gives in units of 100 ps. -/
structure PtpFrame where
  kind : PtpKind := .sync
  domain : Nat := 24
  best : Bool := true
  twoStep : Bool := false
  err : Int := 0
  deriving DecidableEq, Repr

/-- The header of a system message (Table 16-1) and the system port it arrived on. -/
structure SysHdr where
  port : Nat := 0
  src : Nat := 0
  dst : Nat := 0xFFFF
  seq : Nat := 0
  root : Nat := 0xFFFF
  hops : Nat := 0xFF
  up : Bool := false
  down : Bool := false
  deriving DecidableEq, Repr

/-- What a HELLO carries (Table 16-2), as the firmware reads it: join state, lowest detached ID, root path sum, whether the
sender's member list holds both IDs, and of the sender's subtree the members and the largest root path sum. -/
structure HelloBody where
  attached : Bool := false
  low : Nat := 0xFFFF
  sum : Nat := 0
  bothListed : Bool := true
  belowMembers : List Nat := []
  deepest : Nat := 0
  deriving DecidableEq, Repr

/-- A broadcast body (Table 16-2): kind 1 position batch, 2 alarm, 3 host message. -/
structure BroadcastBody where
  kind : Nat := 3
  records : List (Nat × List Byte) := []
  body : List Byte := []
  deriving DecidableEq, Repr

/-- What a barrier message carries (Table 16-2, R410): barrier number, participants (none for every member), arrivals and
the release instant. -/
structure BarrierBody where
  n : Nat := 0
  parts : Option (List Nat) := none
  arrived : List Nat := []
  timeoutMs : Nat := 1000
  release : Int := 0
  deriving DecidableEq, Repr

/-- The fixed part of a LEASE payload (Table 17-3). -/
structure LeaseMsg where
  group : Nat := 0
  sideB : Bool := false
  holds : Bool := false
  ready : Bool := false
  request : Bool := false
  force : Nat := 0
  lockout : Bool := false
  number : Nat := 0
  frame : Nat := 0
  phase : Int := 0
  sync : Nat := 0
  cmdSec : Nat := 0
  deriving DecidableEq, Repr

/-- One SYNC record (R431): a terminal's or an allocation's identifiers. -/
inductive SyncRec where
  | term (serial : List Byte) (state onu : Nat) (eqd : Int) (keyIndex : Nat)
  | alloc (aid allocId phase : Nat)
  deriving DecidableEq, Repr

/-- What a retiring tagged instruction reports (Table 20-5). -/
structure SampleRec where
  routine : Nat := 0
  pc : BitVec 32 := 0
  cycles : List Nat := []
  conflict : Bool := false
  deriving DecidableEq, Repr

/-- The commands of the block. -/
inductive Instr where
  /-- CMD_SYS_INFO (R503): Returns the variant, firmware release, tile states, command-ready time, the sender's masks and the hallmark. -/
  | cmdSysInfo (p : Packet)
  /-- CMD_SYS_SENDER (R394): Sets a channel's capability and domain masks and binds or unbinds its SENDER slot. -/
  | cmdSysSender (p : Packet)
  /-- CMD_SYS_REMOTE (R400): Binds or unbinds a remote manager to a mailbox channel 32-47 over an in-band management VLAN. -/
  | cmdSysRemote (p : Packet)
  /-- CMD_SYS_WARM_RESET (R400): Replies ST_OK and then starts a package warm reset. -/
  | cmdSysWarmReset (p : Packet)
  /-- CMD_SYS_TILE_RESET (R400): Starts a tile reset and replies ST_ACCEPTED, or starts a package warm reset when it names tile 0. -/
  | cmdSysTileReset (p : Packet)
  /-- CMD_SYS_FUNC_RESET (R500): Performs a function reset of a tree, channel, uplink sub-port or system port and replies when it completes. -/
  | cmdSysFuncReset (p : Packet)
  /-- CMD_SYS_COUNTER (R390): Returns the consumed critical-packet counter of a channel. -/
  | cmdSysCounter (p : Packet)
  /-- CMD_SYS_ECHO (R400): Returns its parameters unchanged. -/
  | cmdSysEcho (p : Packet)
  /-- CMD_SYS_UPLINK (R400): Enables or disables an uplink sub-port or sets its mode, draining its queues on a disable. -/
  | cmdSysUplink (p : Packet)
  /-- CMD_TREE_ENABLE (R141): Enables all three channels of a tree, or queues the enable with ST_PENDING while the tree drains. -/
  | cmdTreeEnable (p : Packet)
  /-- CMD_TREE_DISABLE (R142): Disables all three channels of a tree and cancels any queued enables. -/
  | cmdTreeDisable (p : Packet)
  /-- CMD_CHAN_ENABLE (R143): Enables a channel into ENABLING, or queues the enable with ST_PENDING while the channel drains. -/
  | cmdChanEnable (p : Packet)
  /-- CMD_CHAN_DISABLE (R142): Schedules a channel disable two frames ahead and cancels any queued enables. -/
  | cmdChanDisable (p : Packet)
  /-- CMD_CHAN_CONFIG (R139): Sets the upstream rate of a DISABLED channel. -/
  | cmdChanConfig (p : Packet)
  /-- CMD_CIRCUIT_CREATE (R157): Binds a legacy circuit to a terminal, circuit port, FIXED AID and pseudowire after capacity checks. -/
  | cmdCircuitCreate (p : Packet)
  /-- CMD_CIRCUIT_DELETE (R157): Removes a legacy circuit at a frame boundary. -/
  | cmdCircuitDelete (p : Packet)
  /-- CMD_OMCI_SEND (R160): Queues an outbound OMCI message to a terminal, optionally computing its integrity trailer. -/
  | cmdOmciSend (p : Packet)
  /-- CMD_PM_READ (R166): Reads performance-monitoring bins of a terminal or tree. -/
  | cmdPmRead (p : Packet)
  /-- CMD_PM_CONFIG (R166): Sets the bin thresholds that raise notices. -/
  | cmdPmConfig (p : Packet)
  /-- CMD_TERM_CREATE (R170): Creates a terminal with its channel, serial, credentials, map entry and upstream FEC setting. -/
  | cmdTermCreate (p : Packet)
  /-- CMD_TERM_DELETE (R186): Deletes a terminal, deactivating and re-enabling it as its state requires, and deletes its allocations. -/
  | cmdTermDelete (p : Packet)
  /-- CMD_TERM_MAP (R170): Changes a terminal's expected distance and tolerance for later windows. -/
  | cmdTermMap (p : Packet)
  /-- CMD_RNG_CHAN_CONFIG (R169): Sets the reach of a DISABLED channel. -/
  | cmdRngChanConfig (p : Packet)
  /-- CMD_TERM_RERANGE (R184): Forces a terminal through the reacquire path. -/
  | cmdTermRerange (p : Packet)
  /-- CMD_TERM_POWER (R192): Permits a power-saving mode and low-power interval for a terminal, or makes a wake request. -/
  | cmdTermPower (p : Packet)
  /-- CMD_TERM_TXCTRL (R186): Disables a terminal's transmitter or enables it, ending a hold-off or releasing an isolated rogue. -/
  | cmdTermTxctrl (p : Packet)
  /-- CMD_TERM_STATUS (R194): Reads a terminal's state and ranging data. -/
  | cmdTermStatus (p : Packet)
  /-- CMD_ALLOC_CREATE (R197): Creates an allocation after parameter checks and admission. -/
  | cmdAllocCreate (p : Packet)
  /-- CMD_ALLOC_MODIFY (R197): Changes an allocation's rates, weight, burst cap, report mode, period or latency class after checks and admission. -/
  | cmdAllocModify (p : Packet)
  /-- CMD_ALLOC_DELETE (R217): Makes an AID pending and withdraws its Alloc-ID at the effect frame. -/
  | cmdAllocDelete (p : Packet)
  /-- CMD_ALLOC_STATUS (R222): Reads an allocation's parameters, Alloc-ID, phase, demand, follow-me values and counters. -/
  | cmdAllocStatus (p : Packet)
  /-- CMD_DOM_CONFIG (R200): Sets a domain's weight on one or every channel and its priority. -/
  | cmdDomConfig (p : Packet)
  /-- CMD_TDOM_CONFIG (R201): Sets a terminal's weight within a domain. -/
  | cmdTdomConfig (p : Packet)
  /-- CMD_GS_STATUS (R222): Reads a channel's guaranteed load, plan counts and engine assignment. -/
  | cmdGsStatus (p : Packet)
  /-- CMD_FM_ROUTE (R225): Creates, changes or deletes a route and its links. -/
  | cmdFmRoute (p : Packet)
  /-- CMD_FM_CELL (R226): Creates, changes or deletes a coverage cell. -/
  | cmdFmCell (p : Packet)
  /-- CMD_FM_PROFILE (R227): Sets a train or floor profile. -/
  | cmdFmProfile (p : Packet)
  /-- CMD_FM_TRAIN_BIND (R228): Binds a system train ID to a train slot and profile. -/
  | cmdFmTrainBind (p : Packet)
  /-- CMD_FM_TRAIN_CLEAR (R239): Frees a train slot, releasing its cell parts and floor holds at once. -/
  | cmdFmTrainClear (p : Packet)
  /-- CMD_FM_POSITION (R232): Submits 1 to 112 position reports to admission, decimation and the checks, replying one reason byte each. -/
  | cmdFmPosition (p : Packet)
  /-- CMD_FM_EVENT (R246): Creates, changes or deletes a position event. -/
  | cmdFmEvent (p : Packet)
  /-- CMD_FM_SOURCE (R230): Binds a telegram source to a crucible slot and UDP port and enables or disables it. -/
  | cmdFmSource (p : Packet)
  /-- CMD_FM_STATUS (R502): Reads a train's state, band and engaged cells, or a cell's engagements and clips. -/
  | cmdFmStatus (p : Packet)
  /-- CMD_TABLE_INSERT (R267): Inserts or replaces table entries in order, atomically on every tile of the tile set. -/
  | cmdTableInsert (p : Packet)
  /-- CMD_TABLE_DELETE (R281): Deletes table entries by key. -/
  | cmdTableDelete (p : Packet)
  /-- CMD_TABLE_LOOKUP (R281): Returns table entries by key from the home tile. -/
  | cmdTableLookup (p : Packet)
  /-- CMD_TABLE_SEARCH (R282): Opens a cursor over entries matching a masked value and returns up to 56. -/
  | cmdTableSearch (p : Packet)
  /-- CMD_TABLE_NEXT (R282): Returns up to 56 further matches for an open cursor. -/
  | cmdTableNext (p : Packet)
  /-- CMD_TABLE_FLUSH_PORT (R276): Starts deletion of learned entries by owner and replies ST_ACCEPTED. -/
  | cmdTableFlushPort (p : Packet)
  /-- CMD_TABLE_CONFIG (R264): Creates, changes the ageing of, or destroys an exact-match table. -/
  | cmdTableConfig (p : Packet)
  /-- CMD_TABLE_STATUS (R281): Reads a table's entries, overflow use and counters. -/
  | cmdTableStatus (p : Packet)
  /-- CMD_KEY_PROFILE (R255): Sets a key profile. -/
  | cmdKeyProfile (p : Packet)
  /-- CMD_LOOKUP_LIST (R256): Sets a lookup list. -/
  | cmdLookupList (p : Packet)
  /-- CMD_SPREAD_GROUP (R277): Sets a spread group's members, indirection table, field set and key. -/
  | cmdSpreadGroup (p : Packet)
  /-- CMD_MIRROR_SESSION (R263): Sets a mirror session's target and truncation. -/
  | cmdMirrorSession (p : Packet)
  /-- CMD_CLS_PORT (R254): Binds an ingress to a lookup list, mirror session and default SDOM. -/
  | cmdClsPort (p : Packet)
  /-- CMD_QUEUE_CREATE (R292): Creates a queue and any hierarchy nodes above it. -/
  | cmdQueueCreate (p : Packet)
  /-- CMD_QUEUE_MODIFY (R309): Changes a queue's limits, strictness, weight and launch settings. -/
  | cmdQueueModify (p : Packet)
  /-- CMD_QUEUE_DELETE (R310): Deletes a queue, discarding its frames at the effect frame. -/
  | cmdQueueDelete (p : Packet)
  /-- CMD_NODE_CONFIG (R295): Sets a hierarchy node's weight. -/
  | cmdNodeConfig (p : Packet)
  /-- CMD_SHAPER_SET (R300): Attaches, changes or detaches a shaper, applying its reset policy at the effect frame. -/
  | cmdShaperSet (p : Packet)
  /-- CMD_METER_SET (R302): Creates, changes or deletes a meter, filling its buckets on a change. -/
  | cmdMeterSet (p : Packet)
  /-- CMD_GATE_SET (R307): Sets or clears a sub-port's gate schedule. -/
  | cmdGateSet (p : Packet)
  /-- CMD_QUEUE_INJECT (R310): Enqueues 1 to 64 sender frames, with launch times for mode 2 queues. -/
  | cmdQueueInject (p : Packet)
  /-- CMD_QM_STATUS (R309): Reads a queue's occupancy, a bucket's levels or a node's children. -/
  | cmdQmStatus (p : Packet)
  /-- CMD_MSEC_SECY (R337): Creates, changes or deletes a SecY. -/
  | cmdMsecSecy (p : Packet)
  /-- CMD_MSEC_SC (R312): Creates or deletes a secure channel and binds queue groups to SecYs. -/
  | cmdMsecSc (p : Packet)
  /-- CMD_MSEC_MKA (R327): Binds a SecY to a CAK slot and starts or stops MKA. -/
  | cmdMsecMka (p : Packet)
  /-- CMD_MSEC_SA_INSTALL (R317): Installs a static SA into a slot, or queues the install behind a retiring slot. -/
  | cmdMsecSaInstall (p : Packet)
  /-- CMD_MSEC_SA_DISABLE (R320): Moves an SA slot to RETIRING and cancels any queued install. -/
  | cmdMsecSaDisable (p : Packet)
  /-- CMD_MSEC_TX_SWITCH (R321): Switches a transmit SC to its READY SA. -/
  | cmdMsecTxSwitch (p : Packet)
  /-- CMD_MSEC_TRANSIT (R329): Sets a transit path to cut-through or store-and-forward. -/
  | cmdMsecTransit (p : Packet)
  /-- CMD_MSEC_BYPASS (R315): Sets a SecY's extra uncontrolled EtherTypes. -/
  | cmdMsecBypass (p : Packet)
  /-- CMD_MSEC_STATUS (R337): Reads SA states, next PNs, key generations and MKA peers. -/
  | cmdMsecStatus (p : Packet)
  /-- CMD_PON_MSK (R335): Checks a terminal's authentication result and derives its MSK, OMCI integrity key and KEK. -/
  | cmdPonMsk (p : Packet)
  /-- CMD_PON_KEY_CFG (R336): Sets pon_rekey_s per channel or terminal. -/
  | cmdPonKeyCfg (p : Packet)
  /-- CMD_PON_KEY_ROLL (R336): Forces a PON key renewal for a terminal. -/
  | cmdPonKeyRoll (p : Packet)
  /-- CMD_PON_KEY_STATUS (R337): Reads a terminal's key slot states and indices. -/
  | cmdPonKeyStatus (p : Packet)
  /-- CMD_CRU_INFO (R353): Returns device ID, state, scheme, hallmark, transport public key and attestation. -/
  | cmdCruInfo (p : Packet)
  /-- CMD_CRU_CHALLENGE (R352): Issues a fresh token challenge. -/
  | cmdCruChallenge (p : Packet)
  /-- CMD_CRU_LIFECYCLE (R351): Verifies a token, persists a transition word, zeroises secrets, changes state and warm-resets. -/
  | cmdCruLifecycle (p : Packet)
  /-- CMD_CRU_SLOT_WRITE (R345): Unwraps, checks, seals and swaps in a new persistent slot key. -/
  | cmdCruSlotWrite (p : Packet)
  /-- CMD_CRU_SLOT_ERASE (R346): Zeroises both copies of a persistent slot and makes it EMPTY. -/
  | cmdCruSlotErase (p : Packet)
  /-- CMD_CRU_SLOT_STATUS (R503): Reads the kind, state, generation and bindings of persistent slots. -/
  | cmdCruSlotStatus (p : Packet)
  /-- CMD_CRU_FW_STAGE (R354): Writes a release image by bulk DMA into the staging slot and verifies it. -/
  | cmdCruFwStage (p : Packet)
  /-- CMD_CRU_FW_ACTIVATE (R354): Makes the staged slot first in the directory and warm-resets now or later. -/
  | cmdCruFwActivate (p : Packet)
  /-- CMD_TIME_PTP_PORT (R126): Configures a PTP port. -/
  | cmdTimePtpPort (p : Packet)
  /-- CMD_TIME_PHY_LATENCY (R127): Sets a sub-port's PHY latency for timestamp correction. -/
  | cmdTimePhyLatency (p : Packet)
  /-- CMD_TIME_TOD (R137): Reads a channel's superframe and network-time pair. -/
  | cmdTimeTod (p : Packet)
  /-- CMD_TIME_STEP (R118): Steps network time if the servo rule allows it. -/
  | cmdTimeStep (p : Packet)
  /-- CMD_TIME_STATUS (R126): Reads servo state, source and errors. -/
  | cmdTimeStatus (p : Packet)
  /-- CMD_JOIN_CONFIG (R404): Sets system ID, system port roles, member list and peer channel bindings, detaching the device. -/
  | cmdJoinConfig (p : Packet)
  /-- CMD_JOIN_STATUS (R404): Reads the system tree and link delays. -/
  | cmdJoinStatus (p : Packet)
  /-- CMD_JOIN_BARRIER (R410): Enters a barrier, holding an enclosed command, and sends its arrival upward. -/
  | cmdJoinBarrier (p : Packet)
  /-- CMD_JOIN_SNAPSHOT (R412): Requests a system-wide counter snapshot at an instant. -/
  | cmdJoinSnapshot (p : Packet)
  /-- CMD_JOIN_BROADCAST (R416): Broadcasts a host message to every member's channel 0. -/
  | cmdJoinBroadcast (p : Packet)
  /-- CMD_JOIN_GROUP_RESET (R413): Sends a coordinated function reset of a protection group's trees. -/
  | cmdJoinGroupReset (p : Packet)
  /-- CMD_PROT_GROUP (R418): Creates, changes or deletes a protection group. -/
  | cmdProtGroup (p : Packet)
  /-- CMD_PROT_FORCE (R434): Forces a switch, locks it out or clears force and lockout. -/
  | cmdProtForce (p : Packet)
  /-- CMD_PROT_STATUS (R439): Reads group state, lease holder, delta, mismatch runs and causes. -/
  | cmdProtStatus (p : Packet)
  /-- CMD_FLT_ACK (R446): Acknowledges every fault up to a sequence number, running latched recovery actions. -/
  | cmdFltAck (p : Packet)
  /-- CMD_FLT_QUENCH_RELEASE (R448): Acknowledges every F4 and starts a package warm reset if no F4 condition remains. -/
  | cmdFltQuenchRelease (p : Packet)
  /-- CMD_FLT_CONFIG (R452): Writes quiet periods, anneal limits and the FAULT_N class. -/
  | cmdFltConfig (p : Packet)
  /-- CMD_FLT_LOG (R503): Reads fault records from the volatile or eMRAM ring. -/
  | cmdFltLog (p : Packet)
  /-- CMD_ASSAY_START (R460): Starts or aborts assay on named tiles, via a warm reset when tile 0 is named. -/
  | cmdAssayStart (p : Packet)
  /-- CMD_ASSAY_CONFIG (R458): Writes the power-up assay mode and pattern set to eMRAM. -/
  | cmdAssayConfig (p : Packet)
  /-- CMD_ASSAY_RESULT (R460): Reads assay results. -/
  | cmdAssayResult (p : Packet)
  /-- CMD_CNT_READ (R463): Reads counters with their addresses, optionally from a snapshot. -/
  | cmdCntRead (p : Packet)
  /-- CMD_CNT_WRITE (R467): Sets counters to given values in one cycle. -/
  | cmdCntWrite (p : Packet)
  /-- CMD_CNT_THRESHOLD (R468): Arms an overflow threshold and sets the event ring. -/
  | cmdCntThreshold (p : Packet)
  /-- CMD_CNT_WINDOW (R472): Sets bandwidth window lengths for an object and direction. -/
  | cmdCntWindow (p : Packet)
  /-- CMD_CNT_SAMPLE (R474): Configures engine sampling and its ring. -/
  | cmdCntSample (p : Packet)
  /-- FRAGMENT_RX (R398): A non-final command fragment is taken and added to its assembly. -/
  | fragmentRx (p : Packet)
  /-- FRAGMENT_TIMEOUT (R398): An assembly fails with ST_TIMEOUT after 1 s without a further fragment. -/
  | fragmentTimeout (ch : Nat)
  /-- TILE_FORWARD_TIMEOUT (R396): An owning tile fails to answer a forwarded command within 200 ms and the command fails everywhere. -/
  | tileForwardTimeout (p : Packet)
  /-- TILE_FORWARD_DONE (R26): Every owning tile has completed a forwarded command and the single reply is sent. -/
  | tileForwardDone (p : Packet)
  /-- AUTH_REFUSAL_END (R392): The 1 s refusal of a channel's critical packets after 16 authentication failures ends. -/
  | authRefusalEnd (ch : Nat)
  /-- MBX_SEND_WRITE (R369): A write of MBX_SEND stamps the sender ID, sets send_full and rings the receiver's doorbell. -/
  | mbxSendWrite (p : Packet)
  /-- MBX_TAKE_READ (R370): A read of MBX_TAKE returns the length, clears recv_full and rings the sender's doorbell. -/
  | mbxTakeRead (ch : Nat)
  /-- INBAND_MESSAGE_RX (R400): A management frame from a bound remote manager enters its channel's send area or is dropped if full. -/
  | inbandMessageRx (sub vlan mac : Nat) (p : Packet)
  /-- MBX_DELIVERY_TIMEOUT (R372): A receive area stays full for MBX_TIMEOUT, raising one F1 and counting further timeouts. -/
  | mbxDeliveryTimeout (ch : Nat)
  /-- LCK_LOCK_READ (R375): A read of a lock acquires it if free or returns busy and the owner. -/
  | lckLockRead (lock master : Nat)
  /-- LCK_LOCK_WRITE (R376): A write of the owner's ID releases a lock; any other write is latched in LCK_STATUS. -/
  | lckLockWrite (lock master : Nat) (value : BitVec 32)
  /-- LCK_BREAK_WRITE (R376): A write through alias 0 frees a lock held by a host master. -/
  | lckBreakWrite (als : Nat) (value : BitVec 32)
  /-- DMA_TRANSFER_DONE (R378): A bulk transfer completes its last write-back and its command replies. -/
  | dmaTransferDone
  /-- DMA_HOST_READ_TIMEOUT (R378): A host read not completed within 10 ms ends the transfer with ST_TIMEOUT. -/
  | dmaHostReadTimeout (desc : Nat)
  /-- DMA_HOST_ERROR (R378): A completer abort, unsupported request or poisoned completion ends a transfer with ST_BAD_PARAM. -/
  | dmaHostError (desc : Nat)
  /-- CXL_LINK_DOWN (R365): A link-down or hot reset empties host channels, releases host locks, aborts host pages and bulk transfers. -/
  | cxlLinkDown
  /-- MEM_WRITE_DROP (R363): A write to the device-memory region completes with no effect and is counted. -/
  | memWriteDrop (addr : Nat) (value : BitVec 64)
  /-- READ_STATUS (R380): A board management READ_STATUS returns the status block captured at the fall of BMS_CS_N. -/
  | readStatus (start n : Nat)
  /-- READ_ID (R379): A board management READ_ID returns GLB_ID. -/
  | readId
  /-- RESET_REQ (R380): A valid board management RESET_REQ starts a package warm reset at the rise of BMS_CS_N. -/
  | resetReq (b1 b2 : Byte)
  /-- BMS_UNKNOWN_COMMAND (R379): An unknown SPI command byte drives BMS_MISO low and has no effect. -/
  | bmsUnknownCommand (b : Byte)
  /-- REG_WRITE (R9): A write to a register field without behaviour of its own updates it per its access type and is shadowed if in a tile window. -/
  | regWrite (addr width : Nat) (write : HostWrite)
  /-- TIME_RAW_LO_READ (R480): A read of TIME_RAW_LO captures the high word of the raw counter. -/
  | timeRawLoRead
  /-- TIME_NOW_FRAC_READ (R480): A read of TIME_NOW_FRAC captures network time and frame number. -/
  | timeNowFracRead
  /-- TIME_STATUS_READ (R480): A read of TIME_STATUS clears pps_rejected. -/
  | timeStatusRead
  /-- PWR_DISC_STATUS_READ (R480): A read of PWR_DISC_STATUS clears short_pulses. -/
  | pwrDiscStatusRead
  /-- PWR_TILE_TEMP_READ (R480): A read of PWR_TILE_TEMP clears peak_c. -/
  | pwrTileTempRead (tile : Nat)
  /-- BPM_MIN_FREE_READ (R480): A read of BPM_MIN_FREE returns and restarts the minimum free count. -/
  | bpmMinFreeRead (tile : Nat)
  /-- CNT_LOST_READ (R480): A read of CNT_LOST clears the lost-record counts. -/
  | cntLostRead
  /-- TIME_RATE_WRITE (R118): A write of TIME_RATE sets the rate with host_servo set, or is ignored and sets step_refused. -/
  | timeRateWrite (value : BitVec 32)
  /-- TIME_STEP_GO (R118): A write of go to TIME_STEP_NS applies or refuses a step of network time. -/
  | timeStepGo (value : BitVec 32)
  /-- FEED_MODE_WRITE (R43): A write of PWR_FEED_CFG mode changes the feed mode, moving the load if required. -/
  | feedModeWrite (value : BitVec 32)
  /-- RST_BOOT_DESC_GO (R70): A write of RST_BOOT_DESC_LO with go starts the host image load in WAIT_HOST. -/
  | rstBootDescGo (value : BitVec 32)
  /-- HOST_IMAGE_LOADED (R70): The host image load ends and is verified, or fails and returns to WAIT_HOST. -/
  | hostImageLoaded (load : HostLoad)
  /-- MSEC_PN_WMX_LO_WRITE (R481): A write of MSEC_PN_WMX_LO applies the whole XPN watermark. -/
  | msecPnWmxLoWrite (value : BitVec 32)
  /-- LANE_SLIP_WRITE (R96): A write of LANE_SLIP shifts the receive block boundary by one bit under manual lock. -/
  | laneSlipWrite (tile lane : Nat)
  /-- LANE_RETRAIN (R92): A write of retrain restarts the lane at D1 and clears failed_gens. -/
  | laneRetrain (tile lane : Nat)
  /-- INSERT (R283): A TAC_CMD INSERT inserts the window's entry and returns its position. -/
  | insert (table : Nat) (noEvict : Bool)
  /-- DELETE (R283): A TAC_CMD DELETE removes the window's key. -/
  | delete (table : Nat)
  /-- LOOKUP (R283): A TAC_CMD LOOKUP reads the entry for the window's key. -/
  | lookup (table : Nat)
  /-- READ_INDEX (R283): A TAC_CMD READ_INDEX reads the slot named by TAC_INDEX. -/
  | readIndex (table : Nat)
  /-- WRITE_INDEX (R283): A TAC_CMD WRITE_INDEX writes action and metadata to the key held in the named slot on every tile. -/
  | writeIndex (table : Nat)
  /-- TAC_OP_DONE (R283): A table-access operation completes, clearing busy and writing TAC_STATUS. -/
  | tacOpDone
  /-- CHECK_PAGE_GO (R356): A write of go starts a check-engine chunk, suspending a lower-priority page at its next block boundary. -/
  | checkPageGo (page : Nat) (value : BitVec 32)
  /-- CHECK_PAGE_ABORT (R358): A write of abort ends a page's message at the next block boundary with error ABORTED. -/
  | checkPageAbort (page : Nat)
  /-- CHECK_CHUNK_DONE (R356): A check-engine chunk ends, giving WAIT_DATA, a tag, a match result or an error, and the next page resumes. -/
  | checkChunkDone (page : Nat)
  /-- FEED_QUALIFIED (R45): A feed in range for 10 ms becomes GOOD, powering the always-on domain if it was the first. -/
  | feedQualified (feed : FeedGood)
  /-- FEED_UNDER_VOLTAGE (R45): A feed below its under-voltage threshold for 50 µs stops being GOOD. -/
  | feedUnderVoltage (feedB : Bool) (mv : Nat)
  /-- FEED_OVER_VOLTAGE (R45): A feed above its over-voltage threshold stops being GOOD and is disconnected. -/
  | feedOverVoltage (feedB : Bool) (mv : Nat)
  /-- FEED_REVERSED (R46): A reverse-polarity feed reads REVERSED. -/
  | feedReversed (feedB : Bool)
  /-- AON_DOMAIN_DROP (R53): The always-on domain drops after power-fail warning and the package is UNPOWERED. -/
  | aonDomainDrop
  /-- RAIL_EXCURSION (R52): A rail out of range for 5 µs is a rail fault, isolating a tile or raising F4. -/
  | railExcursion (tile rail : Nat) (overV : Bool)
  /-- RAIL_IN_RANGE (R51): A ramping rail reaches range and the next rail of the tile is enabled. -/
  | railInRange (tile rail : Nat)
  /-- RAIL_RAMP_TIMEOUT (R51): A rail not in range 2 ms after enable is a rail fault. -/
  | railRampTimeout (tile rail : Nat)
  /-- TILE_RAMP_START (R51): The next tile's rail ramp starts 1 ms after the previous tile. -/
  | tileRampStart (tile : Nat)
  /-- THERMAL_SENSOR_READ (R56): A sensor reading sets or clears the tile's thermal level and its reaction. -/
  | thermalSensorRead (tile : Nat) (r : Readings)
  /-- THERMAL_ISOLATE (R56): 118 °C held for 1 ms disables lasers, switches off rails and isolates the tile. -/
  | thermalIsolate (tile : Nat)
  /-- THERMAL_TRIP (R56): The 125 °C comparator switches off the tile's rails. -/
  | thermalTrip (tile : Nat)
  /-- POWER_CAP_EXCEEDED (R55): Measured power above the cap for one second raises an F0. -/
  | powerCapExceeded (watts : Nat)
  /-- ASSAY_HEADROOM_START (R55): A deferred tile assay starts when the power estimate leaves headroom. -/
  | assayHeadroomStart (tile : Nat)
  /-- RESET_N_ASSERT (R66): An accepted RESET_N assertion returns the package to AON. -/
  | resetNAssert
  /-- RESET_N_RELEASE (R63): Release of RESET_N starts a package cold reset, samples straps and enters RAMP. -/
  | resetNRelease (bootSrc : BitVec 2) (refSel : Bool)
  /-- EXT_QUENCH_ASSERT (R447): An accepted EXT_QUENCH_N assertion raises an F4 and quenches the package. -/
  | extQuenchAssert
  /-- EXT_QUENCH_RELEASE (R447): Deassertion of EXT_QUENCH_N ends its F4 condition. -/
  | extQuenchRelease
  /-- PROT_REQ_ASSERT (R435): An accepted PROT_REQ_N assertion raises switch cause 6 or makes a standby NOT_READY. -/
  | protReqAssert (n : Nat)
  /-- PROT_REQ_RELEASE (R435): Deassertion of PROT_REQ_N withdraws its request. -/
  | protReqRelease (n : Nat)
  /-- DISCRETE_SHORT_PULSE (R58): A filtered pulse shorter than its minimum width is ignored and counted. -/
  | discreteShortPulse (input : Nat)
  /-- STUCK_TIMEOUT (R58): An input asserted beyond its stuck timeout raises an F2 and is ignored. -/
  | stuckTimeout (pin : StuckInput)
  /-- WARM_RESET_START (R63): A package warm reset resets every tile, mailbox, network time and volatile key. -/
  | warmResetStart
  /-- IMAGE_STAGE_VERIFIED (R71): A boot stage is read and verified, or its slot is rejected. -/
  | imageStageVerified (image : BootImage)
  /-- MEMINIT_DONE (R72): Memory test and initialisation of all tiles completes, isolating failing tiles. -/
  | meminitDone (failed : List Nat)
  /-- TILE_IMAGE_LOADED (R75): A tile's images are sent and checked against the measurement log. -/
  | tileImageLoaded (tile : Nat) (load : TileLoad)
  /-- COMMAND_READY (R72): The interpreter starts, FAULT_N is released and ALIVE starts. -/
  | commandReady
  /-- TILE_RESET (R77): A tile is quiesced, reset, reloaded, aligned, replayed and brought to RUN. -/
  | tileReset (tile : Nat)
  /-- DIE_LINK_TRAINED (R76): A die link completes training and a new link key is agreed. -/
  | dieLinkTrained (a b : Nat)
  /-- DIE_LINK_TRAIN_TIMEOUT (R76): A die link not trained within 2 ms is declared failed. -/
  | dieLinkTrainTimeout (a b : Nat)
  /-- DIE_LINK_LOCK_LOSS (R15): A die link loses lock, raising F3 and rerouting traffic. -/
  | dieLinkLockLoss (a b : Nat)
  /-- LOCKSTEP_DISAGREE (R17): A lockstep pair disagrees and is isolated, its tasks moving to the other pair. -/
  | lockstepDisagree (tile pair : Nat)
  /-- WATCHDOG_EXPIRY (R449): A control-core watchdog expires and is treated as a lockstep disagreement. -/
  | watchdogExpiry (tile pair : Nat)
  /-- ENGINE_ISOLATE (R19): An isolated engine's task moves to a spare within one frame. -/
  | engineIsolate (engine : Nat)
  /-- BLOCK_RECEIVED (R87): A Derbex block is received and checked, discarded if its header or CRC is invalid. -/
  | blockReceived (tile lane : Nat) (header : BitVec 2) (payload : BitVec 64)
  /-- BLOCK_LOCK_ACQUIRED (R96): 64 consecutive valid headers declare block lock. -/
  | blockLockAcquired (tile lane : Nat)
  /-- BLOCK_LOCK_LOST (R96): 16 invalid headers in 64 lose block lock. -/
  | blockLockLost (tile lane : Nat)
  /-- RELOCK_TIMEOUT (R98): Failure to relock within 1 ms restarts the lane at D1. -/
  | relockTimeout (tile lane : Nat)
  /-- ABIL (R93): A received ABIL block drives generation requests, acks and nacks. -/
  | abil (tile lane : Nat) (payload : BitVec 64)
  /-- GEN_STEP_SWITCH (R93): After 256 IDLE blocks following an ack, both ends switch rate. -/
  | genStepSwitch (tile lane : Nat)
  /-- GEN_STEP_CONFIRM (R94): A step is confirmed at the new generation. -/
  | genStepConfirm (tile lane : Nat)
  /-- GEN_STEP_TIMEOUT (R94): An unconfirmed step returns to the previous generation after 2 ms. -/
  | genStepTimeout (tile lane : Nat)
  /-- LOOP (R100): A received LOOP block starts, refuses or ends a far-end loop. -/
  | loop (tile lane : Nat) (payload : BitVec 64)
  /-- LULL (R101): A received LULL block sets partner_lull. -/
  | lull (tile lane : Nat) (payload : BitVec 64)
  /-- LULL_ENTER (R101): A transmitter enters lull after sending 8 LULL blocks. -/
  | lullEnter (tile : Nat) (side : LaneSide)
  /-- LULL_WAKE (R101): A lane direction wakes from lull on energy or request. -/
  | lullWake (tile : Nat) (side : LaneSide)
  /-- FS (R105): A received lane-frame start is taken, with its frame number inferred on CRC failure. -/
  | fs (tile lane : Nat) (payload : BitVec 64)
  /-- FRAME_SYNC_LOSS (R105): Two frames without a recognised FS lose frame sync. -/
  | frameSyncLoss (tile lane : Nat)
  /-- SD_REPORT (R109): A received signal-detect report records energy, including the dark-window summary. -/
  | sdReport (tile lane : Nat) (payload : BitVec 64)
  /-- PHY_STATUS (R108): A received PHY status reports lasers, faults and the host in force. -/
  | phyStatus (tile lane : Nat) (payload : BitVec 64)
  /-- FRAME_BOUNDARY (R133): A frame begins: FS and LASER sent, downstream frames built, plan builds started. -/
  | frameBoundary
  /-- PLAN_COMMIT (R215): A grant engine hands a full plan to the assembler. -/
  | planCommit (ch : Nat)
  /-- PLAN_COMMIT_DEADLINE (R218): At the commit deadline the assembler builds the map, bursts and envelopes, from the standing plan if needed. -/
  | planCommitDeadline (ch : Nat)
  /-- SECOND_BOUNDARY (R135): A network-time second closes: re-anchor, PPS_OUT, PM seconds and bin closing. -/
  | secondBoundary
  /-- BIN_FINAL (R165): A closed bin becomes final 10 s after closing. -/
  | binFinal
  /-- FAST_SES_INTERVAL (R167): A 1 ms interval judges fast SES and raises or withdraws a switch request. -/
  | fastSesInterval
  /-- CHANNEL_DRAIN_END (R142): At the end of drain_ms the channel becomes DISABLED and queued enables proceed. -/
  | channelDrainEnd (ch : Nat)
  /-- BURST_FOUND (R148): A delimiter match with a passing header is accepted as the burst. -/
  | burstFound (ch : Nat) (b : BurstFound)
  /-- BURST_WINDOW_CLOSE (R148): A search window closes without a burst and the burst is missed. -/
  | burstWindowClose (ch : Nat)
  /-- BURST_DECODED (R151): An accepted burst is FEC-decoded, descrambled, decrypted and delineated. -/
  | burstDecoded (ch : Nat) (b : BurstInfo)
  /-- SERIAL_NUMBER_ONU (R181): A serial-number response moves a matching ABSENT terminal to RANGING or is reported unknown. -/
  | serialNumberOnu (ch : Nat) (serial : List Byte) (offsetNs : Int)
  /-- PASSWORD (R181): A ranging response is checked and the terminal is ranged or deactivated. -/
  | password (tid : Nat) (cred : List Byte) (rtt : Int)
  /-- ENCRYPTION_KEY (R334): A received Encryption_Key or Key_Report key field goes to the crucible. -/
  | encryptionKey (tid : Nat) (k : KeyMsg)
  /-- ACKNOWLEDGE (R336): A terminal's Acknowledge lets the downstream key index change. -/
  | acknowledge (tid : Nat)
  /-- SLEEP_REQUEST (R192): A Sleep_Request moves the terminal to LOW_POWER when sleep is allowed. -/
  | sleepRequest (tid : Nat) (awake : Bool)
  /-- DYING_GASP (R191): A Dying_Gasp moves the terminal to ABSENT without counting a loss. -/
  | dyingGasp (tid : Nat)
  /-- PLOAM_UNEXPECTED (R191): An unlisted PLOAM message is discarded and counted. -/
  | ploamUnexpected (p : PloamAt)
  /-- OMCI_FRAME_RX (R160): An OMCI frame is checked and relayed to the host. -/
  | omciFrameRx (tid : Nat) (msg trailer : List Byte)
  /-- CIRCUIT_CONTAINER_RX (R155): A circuit container is checked and its bits reassembled. -/
  | circuitContainerRx (circuit : Nat) (bytes : List Byte)
  /-- SATOP_PACKET_RX (R159): A SAToP packet enters its circuit's jitter buffer. -/
  | satopPacketRx (circuit : Nat) (pkt : SatopPacket)
  /-- RANGING_WINDOWS_EXHAUSTED (R181): Four ranging windows pass without response and the terminal returns to ABSENT. -/
  | rangingWindowsExhausted (tid : Nat)
  /-- REACQUIRE_TIMEOUT (R184): No burst within reacq_ms deactivates the terminal. -/
  | reacquireTimeout (tid : Nat)
  /-- HOLD_OFF_END (R185): A hold-off period ends, re-enabling the serial and returning the terminal to ABSENT. -/
  | holdOffEnd (tid : Nat)
  /-- DISC_MAP_PERIOD_START (R175): A map-guided discovery period starts and groups absent terminals into windows. -/
  | discMapPeriodStart (ch : Nat)
  /-- DISC_BROAD_PERIOD_START (R175): A broad discovery window is opened for the period. -/
  | discBroadPeriodStart (ch : Nat)
  /-- DARK_PERIOD_START (R187): A dark-window period starts and places its window at random. -/
  | darkPeriodStart (ch : Nat)
  /-- DARK_WINDOW_VOID (R187): No dark-window summary within 20 µs voids the window. -/
  | darkWindowVoid (ch : Nat)
  /-- HUNT_SETTLE_EXPIRY (R189): After settle_frames a hunt step opens its dark window. -/
  | huntSettleExpiry (ch : Nat)
  /-- POSITION_TELEGRAM_RX (R230): A position telegram is CMAC-checked and its records fed to the filter. -/
  | positionTelegramRx (port : Nat) (payload : List Byte)
  /-- HELD_REPORT_RELEASE (R231): A held report is processed once 10 ms have passed. -/
  | heldReportRelease (trn : Nat)
  /-- REMOTE_REPORT_RX (R249): A report broadcast by another device is checked and taken. -/
  | remoteReportRx (record : List Byte) (profile : Nat)
  /-- BAND_PUBLISH (R236): A train's band is recomputed and published at each accepted report and millisecond. -/
  | bandPublish
  /-- TRAIN_STALE (R243): t_stale_ms without a report makes a train STALE. -/
  | trainStale (trn : Nat)
  /-- TRAIN_LOST (R244): t_lost_s without a report makes a train LOST and parks its parts under floor holds. -/
  | trainLost (trn : Nat)
  /-- FLOOR_HOLD_END (R244): A floor hold ends after lost_hold_s. -/
  | floorHoldEnd (trn : Nat)
  /-- PRE_ENGAGE_HOLD_END (R246): A pre-engaged cell never overlapped is released after hold_s. -/
  | preEngageHoldEnd (trn cell : Nat)
  /-- FRAME_CLASSIFY (R257): A frame is parsed, looked up, merged, metered and forwarded. -/
  | frameClassify (i : Ingress) (frame : List Byte)
  /-- SECOND_PASS (R259): A recirculated frame takes a second-pass slot and is classified again. -/
  | secondPass (tile pipe : Nat)
  /-- LEARN_APPLY (R270): A queued learn is inserted by the home tile. -/
  | learnApply (tile : Nat)
  /-- TABLE_UPDATE_RX (R274): A table change from the home tile is applied on another tile of the set. -/
  | tableUpdateRx (tile : Nat) (u : TableUpdate)
  /-- AGEING_SWEEP (R272): Each age tick advances the epoch, deletes aged entries and moves overflow entries. -/
  | ageingSweep (table : Nat)
  /-- CURSOR_TIMEOUT (R282): A cursor closes after 10 s without TABLE_NEXT. -/
  | cursorTimeout (cursor : Nat)
  /-- FLUSH_PORT_DONE (R276): A port flush finishes on every tile and its completion is sent. -/
  | flushPortDone
  /-- SUBPORT_DOWN (R278): A sub-port goes down, repointing spread entries and flushing its entries. -/
  | subportDown (sub : Nat)
  /-- SUBPORT_UP (R278): A sub-port comes up and its spread entries are restored. -/
  | subportUp (sub : Nat)
  /-- FRAME_ENQUEUE (R294): A frame reaches its egress tile and is admitted to its queue with pool cells, or dropped. -/
  | frameEnqueue (q : EnqueueReq)
  /-- FRAME_RELEASE (R290): A holder releases a frame by head pointer, returning cells at count zero or refusing a bad release. -/
  | frameRelease (tile : Nat) (ptr : BitVec 32) (party : Nat)
  /-- FRAME_DEQUEUE (R295): A transmitter takes the next frame chosen by the hierarchy and its shapers. -/
  | frameDequeue (sub : Bool) (node : Nat)
  /-- SHAPER_REFILL (R296): Shaper buckets are refilled every 128 ns. -/
  | shaperRefill
  /-- LAUNCH_TIME_REACHED (R304): A launch queue's head frame reaches its time and starts or is dropped as late. -/
  | launchTimeReached (queue : Nat)
  /-- GATE_BOUNDARY (R307): A gate schedule entry boundary opens or closes class gates. -/
  | gateBoundary (sub : Nat)
  /-- UPLINK_FRAME_RX (R313): An uplink frame is matched to its SecY and SA and validated. -/
  | uplinkFrameRx (f : UplinkFrame)
  /-- SA_RETIRE_END (R316): A RETIRING SA's drain or rx_retire_ms ends and its slot is zeroised. -/
  | saRetireEnd (sa : Nat)
  /-- PN_BOUND_RAISE (R319): The crucible raises a transmit SA's PN bound on request. -/
  | pnBoundRaise (sa : Nat)
  /-- RX_PN_REPORT (R319): Each millisecond the key receiver reports the highest validated PN. -/
  | rxPnReport (sa : Nat)
  /-- TRANSIT_VERDICT (R331): The ingress ICV verdict reaches a cut-through egress, poisoning the tail on failure. -/
  | transitVerdict (sa queue : Nat) (ok : Bool) (pn : Nat) (head tail : List Byte)
  /-- MKPDU_RX (R327): A received MKPDU is checked and drives MKA, including SAK unwrap. -/
  | mkpduRx (secy : Nat) (m : Mkpdu)
  /-- MKA_HELLO_TX (R326): MKA sends its periodic MKPDU. -/
  | mkaHelloTx (secy : Nat)
  /-- MKA_PEER_EXPIRE (R328): A peer's life timer expires, disabling SAs when it was the last. -/
  | mkaPeerExpire (secy sci : Nat)
  /-- PON_REKEY_TIMER (R336): A terminal's PON key renewal falls due. -/
  | ponRekeyTimer (tid : Nat)
  /-- PON_KEY_RETRY (R336): An unanswered key request is repeated after 1 s. -/
  | ponKeyRetry (tid : Nat)
  /-- PON_OLD_KEY_ZEROISE (R336): The old PON key slot is zeroised after its delay. -/
  | ponOldKeyZeroise (tid : Nat)
  /-- KEY_LOAD_ACK (R348): A key receiver acknowledges a LOAD, repeated or faulted on mismatch. -/
  | keyLoadAck (slot : Nat) (ack : BitVec 32)
  /-- ENTROPY_HEALTH_FAIL (R341): A noise-source health-test failure raises F2. -/
  | entropyHealthFail
  /-- CHALLENGE_EXPIRY (R352): A token challenge expires after 60 s. -/
  | challengeExpiry
  /-- TOKEN_LOCKOUT_END (R352): The 1 h token lockout ends. -/
  | tokenLockoutEnd
  /-- REFCLK_LOSS (R123): Loss of the selected reference switches the time clock to the other. -/
  | refclkLoss (refB : Bool)
  /-- REFCLK_DISAGREE (R122): Two references differing by over 100 ppm for 1 s raise F0. -/
  | refclkDisagree (ppm : Nat)
  /-- REFCLK_HOLDOVER_EXPIRY (R123): Neither reference returning within 10 ms is an F4. -/
  | refclkHoldoverExpiry
  /-- PPS_IN_EDGE (R130): A PPS_IN edge is timestamped and accepted or rejected. -/
  | ppsInEdge
  /-- PPS_SOURCE_LOSS (R124): Three seconds without an accepted edge lose the PPS source. -/
  | ppsSourceLoss
  /-- PTP_FRAME_RX (R127): A PTP frame is timestamped and fed to the port. -/
  | ptpFrameRx (sub : Nat) (f : PtpFrame)
  /-- PTP_MESSAGE_TX (R126): A PTP port sends Sync, Delay_Req or Announce at its rate. -/
  | ptpMessageTx (sub : Nat) (kind : PtpKind)
  /-- PTP_SOURCE_TIMEOUT (R124): Announce or Sync timeout loses the PTP source. -/
  | ptpSourceTimeout (sub : Nat)
  /-- SERVO_LOCKED (R125): Error within ±50 ns for 16 s enters LOCKED. -/
  | servoLocked
  /-- HOLDOVER_ALARM (R125): holdover_alarm_s in HOLDOVER raises F2. -/
  | holdoverAlarm
  /-- TILE_TIME_CHECK (R131): Every 10 ms the lead tile compares and corrects each tile's time. -/
  | tileTimeCheck (tile : Nat) (err16 : Int)
  /-- TILE_TIME_ISOLATE (R132): Tile time error over 50 ns for 1 s isolates the tile. -/
  | tileTimeIsolate (tile : Nat)
  /-- HELLO (R405): A received HELLO updates join state and parent choice. -/
  | hello (m : SysHdr) (h : HelloBody)
  /-- HELLO_TX (R403): A HELLO is sent every 100 µs on each system link. -/
  | helloTx (port : Nat)
  /-- HELLO_MISS (R414): Three missed HELLOs from the parent detach the device. -/
  | helloMiss (port : Nat)
  /-- DELAY_REQ (R406): A DELAY_REQ is stamped and answered. -/
  | delayReq (m : SysHdr) (t1 : BitVec 64)
  /-- DELAY_RESP (R406): A DELAY_RESP completes a link delay exchange. -/
  | delayResp (m : SysHdr) (t1 t2 t3 : BitVec 64)
  /-- DELAY_MEASURE_TICK (R406): A link delay is measured again each second. -/
  | delayMeasureTick (port : Nat)
  /-- ATTACH (R405): An ATTACH makes the link CHILD and is acknowledged. -/
  | attach (m : SysHdr)
  /-- ATTACH_ACK (R405): An ATTACH_ACK makes the device ATTACHED. -/
  | attachAck (m : SysHdr)
  /-- DETACH (R414): A DETACH detaches the subtree. -/
  | detach (m : SysHdr)
  /-- REGION_ROOT_TIMEOUT (R414): 2 ms without an attached neighbour makes the lowest detached device a root. -/
  | regionRootTimeout
  /-- TIME (R407): A parent TIME message disciplines network time as source SYS. -/
  | time (m : SysHdr) (departNs : Int)
  /-- TIME_MSG_TX (R407): A parent sends TIME 16 times per second. -/
  | timeMsgTx (port : Nat)
  /-- OP_TIME (R408): An OP_TIME message updates T_op. -/
  | opTime (m : SysHdr) (tOp : Nat) (members : Nat)
  /-- BROADCAST (R409): A broadcast is delivered once and forwarded. -/
  | broadcast (m : SysHdr) (b : BroadcastBody)
  /-- POSITION_BATCH_FLUSH (R409): Batched accepted reports are broadcast after at most 1 ms. -/
  | positionBatchFlush
  /-- BARRIER_ARRIVE (R410): A barrier arrival is merged and passed upward, and the root releases when complete. -/
  | barrierArrive (m : SysHdr) (b : BarrierBody)
  /-- BARRIER_RELEASE (R410): A barrier release sets the execution instant. -/
  | barrierRelease (m : SysHdr) (b : BarrierBody)
  /-- BARRIER_EXECUTE (R410): At the first frame boundary after T_rel the enclosed command runs and completes. -/
  | barrierExecute (n : Nat)
  /-- BARRIER_ABORT (R411): A barrier abort discards enclosed commands and completes entrants. -/
  | barrierAbort (m : SysHdr) (n : Nat) (status : Nat)
  /-- BARRIER_TIMEOUT (R411): A barrier's timeout expires at the root and it aborts. -/
  | barrierTimeout (n : Nat)
  /-- SNAPSHOT_REQ (R412): A snapshot request schedules a capture at T. -/
  | snapshotReq (m : SysHdr) (id : Nat) (at_ : Int)
  /-- SNAPSHOT_INSTANT (R471): At a snapshot instant every counter memory is copied. -/
  | snapshotInstant (id : Nat)
  /-- SNAPSHOT_WRITE_DONE (R471): A snapshot copy is written to its area and the generation made even. -/
  | snapshotWriteDone
  /-- SNAPSHOT_DONE (R412): SNAPSHOT_DONE from every member completes the snapshot command. -/
  | snapshotDone (m : SysHdr) (id : Nat)
  /-- SNAPSHOT_TIMEOUT (R412): A snapshot not done by T + T_op + 100 ms completes with ST_TIMEOUT. -/
  | snapshotTimeout (id : Nat)
  /-- GROUP_RESET (R413): A GROUP_RESET message schedules a group reset. -/
  | groupReset (m : SysHdr) (group : Nat) (at_ : Int)
  /-- GROUP_RESET_INSTANT (R438): At T the group's trees are reset and both units release the lease. -/
  | groupResetInstant (group : Nat)
  /-- GROUP_RESET_DONE (R413): GROUP_RESET_DONE from every member completes the group reset. -/
  | groupResetDone (m : SysHdr) (group : Nat)
  /-- COMMAND (R416): A peer COMMAND enters its bound channel or is discarded. -/
  | command (m : SysHdr) (p : Packet)
  /-- REPLY (R416): A REPLY message is routed to its destination. -/
  | reply (m : SysHdr) (body : List Byte)
  /-- LEASE_RENEW_TICK (R424): Every 5 ms a unit sends RENEW on both paths. -/
  | leaseRenewTick (tree : Nat)
  /-- RENEW (R424): A received RENEW updates partner state, force and lockout. -/
  | renew (tree : Nat) (inband : Bool) (l : LeaseMsg)
  /-- RELEASE (R428): A received RELEASE lets the standby take the lease. -/
  | release (tree : Nat) (inband : Bool) (l : LeaseMsg)
  /-- HANDOVER (R428): A received HANDOVER makes the standby take a higher lease. -/
  | handover (tree : Nat) (inband : Bool) (l : LeaseMsg)
  /-- DIGEST (R436): A received DIGEST is compared with the unit's own safety digest. -/
  | digest (tree : Nat) (l : LeaseMsg) (g x f : Option (BitVec 64))
  /-- DIGEST_COMPARE_GAP (R436): A partner digest missing after 4 frames is counted. -/
  | digestCompareGap (tree k frame : Nat)
  /-- SYNC (R431): A received SYNC record updates the standby's identifiers. -/
  | sync (tree : Nat) (l : LeaseMsg) (recs : List SyncRec)
  /-- LEASE_FAILURE_TIMEOUT (R426): Both paths silent for 20 ms plus guard_ms: the standby takes the lease or the active enters PARTNER_LOST. -/
  | leaseFailureTimeout (tree : Nat)
  /-- QUIET_PERIOD_EXPIRY (R445): A fault's quiet period ends and it anneals or latches at its limit. -/
  | quietPeriodExpiry (seq : Nat)
  /-- ASSAY_SCAN_DONE (R456): An assay run ends, reports and leaves through the exit reset. -/
  | assayScanDone (tile : Nat) (patterns : Nat) (sig golden : BitVec 128) (reason : Nat)
  /-- ASSAY_THERMAL_WAIT_EXPIRY (R459): A hot tile waits 10 s and boots without assay. -/
  | assayThermalWaitExpiry (tile : Nat)
  /-- BANDWIDTH_WINDOW_CLOSE (R472): A bandwidth window ends and its record is written. -/
  | bandwidthWindowClose (key : Nat)
  /-- SAMPLE_INTERVAL_EXPIRY (R474): An engine's sample interval ends and the next instruction is tagged. -/
  | sampleIntervalExpiry (engine : Nat)
  /-- SAMPLE_RETIRE (R475): A tagged instruction retires and its sample record is written. -/
  | sampleRetire (engine : Nat) (r : SampleRec)
  /-- FEED_IN_RANGE (R45): A feed that was OFF, UNDER, OVER or REVERSED comes into its operating range and starts its 10 ms qualification (QUALIFYING). -/
  | feedInRange (feedB : Bool) (mv : Nat)
  /-- REFCLK_RETURN (R123): A lost reference clock shows edges within tolerance again and becomes good, ending the PLL holdover if both were lost. -/
  | refclkReturn (refB : Bool)
  /-- CXL_LINK_UP (R365): The CXL link trains again after a link-down or hot reset, and the messages kept for channel 0 are delivered. -/
  | cxlLinkUp (cxl : Bool)
  /-- UPLINK_DRAIN_END (R400): Ten milliseconds after a sub-port disable, its remaining queued frames are discarded and counted, and enables queued with ST_PENDING proceed. -/
  | uplinkDrainEnd (sub : Nat)
  /-- ENTROPY_HEALTH_RESTORED (R341): The noise source passes its continuous health tests again, so random draws succeed, entropy_ok sets and the F2 condition ends. -/
  | entropyHealthRestored
  /-- MSI_X_ENABLE (R508): The host enables MSI-X or unmasks a vector, and each vector left pending is sent. -/
  | msiXEnable
  deriving DecidableEq, Repr

end Sys2Proof
end

