-- ==== Sys2Proof/Config.lean ====
section
/-!
DEFINITION. What an implementation fixes and the free values of the model. Every `opaque` constant here has no body:
nothing can be proved of its value, so a claim holds whatever it is (logs 8, 13, 16).
-/

namespace Sys2Proof.Config

/-- Fused device ID (R353, CRU_DEVICE_ID_LO and CRU_DEVICE_ID_HI: reset "fused"). -/
opaque deviceId : BitVec 64

/-- Byte `n` of the fused vendor anchor (Table 13-1). -/
opaque vendorAnchorByte : Nat → Byte

/-- The `n`-th number drawn or left open: entropy (R341), dark-window instants (R187), table seeds (R264), random victims
(R267), LFSR seeds (R474). -/
opaque freeNat : Nat → Nat

/-- The `n`-th byte drawn (R341). -/
opaque freeByte : Nat → Byte

/-- Payload bytes of a downstream frame of the standard of channel kind k beside a map of so many entries and so many PLOAM messages (R144). -/
opaque dsPayload : Nat → Nat → Nat → Nat

/-- Bytes of a frame that the standard of channel kind k lets stand as a first fragment, from the bytes of the frame and the room (R145). -/
opaque dsFragment : Nat → Nat → Nat → Nat

/-- Whether the standard of channel kind k requires a burst of a terminal in a power-saving mode with a low-power interval in frames, so many
frames after it entered LOW_POWER: its aware intervals (R192). -/
opaque awareBurst : Nat → Nat → Nat → Nat → Bool

/-- Nominal terminal response time in ns of the standard of channel kind k (R171). -/
opaque responseNs : Nat → Nat

/-- Lowest data Alloc-ID of the standard of channel kind k (R199). -/
opaque allocIdLow : Nat → Nat

/-- Bytes of the smallest grant that the standard of kind k permits with a status report (R205). -/
opaque pollBytes : Nat → Nat

/-- Rate asked by the servo for a filtered error and the rate in force, in 2^-16 ppb; the model bounds its change to 1 ppm
per second (R125). -/
opaque servoRate : Int → Int → Int

/-- Filtered time error after a measurement, from the error held and the one measured (R125). -/
opaque servoFilter : Int → Int → Int

/-- Shared secret Z of R345 from the scheme (true ML-KEM-1024), the private key of the transport key pair and the transport
part. -/
opaque sharedSecret : Bool → List Byte → List Byte → List Byte

/-- Transport public key of a private key under a scheme (R353). -/
opaque transportPublic : Bool → List Byte → List Byte

/-- Whether the signature of a release image verifies under a scheme (R354). -/
opaque imageVerifies : Bool → List Byte → Bool

/-- MSK, OMCI integrity key, KEK and OLT authentication result of G.9807.1 from the PSK, both challenges and the serial
number (R335), and the terminal's authentication result it must match. -/
opaque ponMsk : List Byte → List Byte → List Byte → List Byte
opaque ponOmciKey : List Byte → List Byte
opaque ponKek : List Byte → List Byte
opaque ponOltResult : List Byte → List Byte → List Byte → List Byte → List Byte
opaque ponOnuResult : List Byte → List Byte → List Byte → List Byte → List Byte

/-- AES-128 decryption of a Key_Report field under the terminal's KEK as G.9807.1 defines it (R334). -/
opaque ponKeyUnwrap : List Byte → List Byte → List Byte

/-- OMCI message integrity check of G.988 under a key, or the CRC-32 of G.988 on G (R161). -/
opaque omciMic : List Byte → List Byte → List Byte
opaque omciCrc : List Byte → List Byte

/-- MKA ICK and KEK of IEEE 802.1X-2020 from a CAK and a CKN (R327). -/
opaque mkaIck : List Byte → List Byte → List Byte
opaque mkaKek : List Byte → List Byte → List Byte

/-- Reference instant of the standard of kind k, in ns after the first bit of a superframe at the optical interface (R137). -/
opaque todRefNs : Nat → Int

/-- Opcode of the notification that a NOTIFY position event raises (R246): Table 15-12 lists none. -/
opaque fmNotifyOp : Nat

/-- Estimate of package power in W from the feed currents and the enabled functions (R55). -/
opaque powerEstimate : List Nat → Nat

/-- Digest of a member list as HELLO carries it (Table 16-2). -/
opaque memberDigest : List Nat → Nat

/-- Next state of the 32-bit LFSR of an engine (R474). -/
opaque lfsrNext : Nat → Nat

end Sys2Proof.Config
end

