-- ==== Sys2Proof/Machine/State.lean ====
section
/-!
DEFINITION. The state of the block as plain data: every register, table, buffer, counter, mode and pin the spec gives the package,
and the queue of commands. Each field cites the chapter and rule that names it; default values are the reset values.
-/

namespace Sys2Proof.Machine

/-- Why a meaning stops with a fault. No meaning of this model does: every row of the table has an effect. -/
inductive Fault where
  /-- Raised by nothing; safe. The type needs an inhabitant for the interface only. -/
  | never
  deriving DecidableEq, Repr

/-- Why a meaning refuses. -/
inductive Refusal where
  /-- Raised by an arm of `exec` whose row has no meaning yet; safe. -/
  | notModelled (mnemonic : String)
  deriving DecidableEq, Repr

/-- The variants (R1). -/
inductive Variant where
  | thz2 | thz4 | thz8
  deriving DecidableEq, Repr, Inhabited

/-- Feed states (Table 2-8). -/
inductive FeedState where
  | off | under | qualifying | good | overV | reversed
  deriving DecidableEq, Repr, Inhabited

/-- The feeds that carry the load (R43). -/
inductive Carry where
  | none | a | b | both
  deriving DecidableEq, Repr, Inhabited

/-- Package power states (Table 2-5); halted: OPERATING has been left by power-fail warning or an F4, for which the table has no name (log 67). -/
inductive PState where
  | unpowered | aon | ramp | boot | operating | halted
  deriving DecidableEq, Repr, Inhabited

/-- Boot stages (Table 3-6). -/
inductive BootStage where
  | rom | links | load | waitHost | meminit | tiles | ready | failed
  deriving DecidableEq, Repr, Inhabited

/-- Tile states (Table 1-8); absent tiles are computed from the variant. -/
inductive TileState where
  | boot | run | reset | assay | isolated
  deriving DecidableEq, Repr, Inhabited

/-- Negotiation states of a lane (LANE_STATUS.neg_state). -/
inductive NegState where
  | down | locking | abil | step | up
  deriving DecidableEq, Repr, Inhabited

/-- Time states (Table 5-2). -/
inductive TimeSt where
  | freerun | acquiring | locked | holdover
  deriving DecidableEq, Repr, Inhabited

/-- Kinds of quiet window (R173, R187). -/
inductive WinKind where
  | ranging | map | broad | dark
  deriving DecidableEq, Repr, Inhabited

/-- Phases of a rogue hunt (R189). -/
inductive HuntPhase where
  | candidate | halve | serial | last
  deriving DecidableEq, Repr, Inhabited

/-- Channel states (Table 6-2). -/
inductive ChanState where
  | disabled | enabling | enabled | draining
  deriving DecidableEq, Repr, Inhabited

/-- rogue_state (RNG_CHAN_STATUS). -/
inductive RogueState where
  | normal | hunt | unknown
  deriving DecidableEq, Repr, Inhabited

/-- Terminal states (Table 7-2). -/
inductive TermState where
  | absent | ranging | inService | lowPower | reacquire | heldOff | isolated | disabled
  deriving DecidableEq, Repr, Inhabited

/-- Train states (Table 9-5). -/
inductive TrainState where
  | free | bound | tracking | stale | lost
  deriving DecidableEq, Repr, Inhabited

/-- Frame colours (R294). -/
inductive Color where
  | green | yellow | red
  deriving DecidableEq, Repr, Inhabited

/-- validateFrames (Table 12-1). -/
inductive Validate where
  | disabled | check | strict
  deriving DecidableEq, Repr, Inhabited

/-- SA states (Table 12-3). -/
inductive SaState where
  | empty | ready | tx | retiring | exhausted
  deriving DecidableEq, Repr, Inhabited

/-- Life-cycle states (Table 13-5). -/
inductive Life where
  | blank | provisioned | field | returned | scrapped
  deriving DecidableEq, Repr, Inhabited

/-- Check-engine page states (CHK_PAGE_STATUS). -/
inductive ChkState where
  | idle | queued | running | suspended | waitData | done | error
  deriving DecidableEq, Repr, Inhabited

/-- What a pending completion waits for (R397). -/
inductive JobKind where
  | other | chanEnable | treeEnable | uplinkEnable | saInstall | tileReset | flushPort | barrier | snapshot | cntSnapshot | groupReset | assay | bulk
  deriving DecidableEq, Repr, Inhabited

/-- Roles of a system port (SYS_PORT_STATUS). -/
inductive PortRole where
  | down | parent | child | standby | refused
  deriving DecidableEq, Repr, Inhabited

/-- Join states (SYS_STATUS). -/
inductive JoinSt where
  | alone | detached | attached | root
  deriving DecidableEq, Repr, Inhabited

/-- Group states (Table 17-2). -/
inductive GroupSt where
  | unpaired | active | standby | notReady | partnerLost
  deriving DecidableEq, Repr, Inhabited

/-- Downstream PLOAM messages (Table 7-3). -/
inductive PloamMsg where
  | burstProfile | assignOnuId | rangingTime | deactivate | disableSn | enableSn | requestCred | assignAlloc | deallocAlloc | encryptedPort | requestKey | keySwitch | keyControl | sleepAllow | systemProfile | channelProfile | ponId | berInterval | extBurst
  deriving DecidableEq, Repr, Inhabited

/-- The counters of Tables 4-10, 6-7, 7-4, 8-6, 9-7, 10-6, 11-5, 12-7, 15-11, 16-3 and 17-6 and of R363, R369 and R372. -/
inductive Cnt where
  | invalidHdr | lockLoss | slips | cbCrcErr | cbUnknown | fsMiss | stepFail | sdReports
  | burstsGranted | burstMissed | delimInexact | hdrCheckFail | fecCw | fecCorrected | fecUncorrectable | fecBits
  | bipErr | delinLost | oversizeDrop | planMiss | drainDiscard | contLost | contMisrouted | resync
  | justVoteFail | justPosUp | justNegUp | justPosDown | justNegDown | aisRxUp | aisRxDown | pwLost
  | jbUnderrun | jbOverrun | pwRtpDrop | protRequests | rngWindows | discMapWindows | discBroadWindows | darkWindows
  | windowsDeferred | darkVoid | snReceived | discCollision | snMisplaced | ranged | rngFail | authFail
  | outOfReach | mapMismatch | eqdUpdates | reacquire | flapHoldoffs | rogueDetect | rogueIsolated | rogueReleased
  | ploamUnexpected | wakeRefused | grantedBytes | grants | domGrantedBytes | domGrants | polls | assuredShort
  | plansFull | plansStanding | overheadBytes | unusedBytes | splitBursts | admissionRefused | reportsIn | reportsAccepted
  | rejectedReason | telegramAuthFail | telegramReplay | telegramFormat | remoteReceived | remoteOffroute | engagements | releases
  | fmUnmatched | fmClipBytes | fmClipDom | eventsFired | trainsLost | lookups | hits | learned
  | learnDrop | moves | staticViolation | aged | evicted | truncated | extLimit | tooManyTags
  | tooManyLabels | noForward | domMismatch | popAbsent | recirc | recircSecond | recircDrop | mirrorDrop
  | spreadDead | enqFrames | enqBytes | deqFrames | deqBytes | dropTailGreen | dropTailYellow | dropTailRed
  | poolEmpty | poolEmptyTile | reserveRefused | tooLong | dropDeleted | noQueue | badPtr | overRelease
  | greenFrames | yellowFrames | redFrames | greenBytes | yellowBytes | redBytes | redDrop | lateDrop
  | gateWaits | gateOversize | outProtected | outEncrypted | outOctets | txNoSa | txExhaustedDrop | txPoisoned
  | inOk | inInvalid | inNotValid | inLate | inDelayed | inUnchecked | inNotUsingSa | inUnusedSa
  | inUntagged | inNoTag | inBadTag | inUnknownSci | inNoSci | transitPoisoned | transitSfFallback | mkaRx
  | mkaTx | mkaIcvFail | mkaUnwrapFail | rekeyRequests | ponNoKey | ponKeyFail | ponBadKeyIndex | ponKeySwitches
  | cmdTaken | cmdCritical | cmdAuthFail | cmdReplay | cmdNotPermitted | cmdRateRefused | cmdPending | fragAbandoned
  | mbxInbandDrop | mbxTimeouts | memWriteDrop | msgTx | msgRx | msgCrcErr | msgUnknown | msgRefused
  | depthRefused | reforms | bcastTx | bcastRx | bcastDup | bcastLost | barrierDone | barrierAbort
  | snapshotLate | peerUnbound | switches | takeoversFailure | handovers | renewRxSys | renewRxInband | digestMismatch
  | compareGap | requestsRefused | yields
  deriving DecidableEq, Repr, Inhabited

/-- Index of a counter name, the high part of its key in `CntState.vals`. -/
def Cnt.idx : Cnt → Nat
  | .invalidHdr => 0
  | .lockLoss => 1
  | .slips => 2
  | .cbCrcErr => 3
  | .cbUnknown => 4
  | .fsMiss => 5
  | .stepFail => 6
  | .sdReports => 7
  | .burstsGranted => 8
  | .burstMissed => 9
  | .delimInexact => 10
  | .hdrCheckFail => 11
  | .fecCw => 12
  | .fecCorrected => 13
  | .fecUncorrectable => 14
  | .fecBits => 15
  | .bipErr => 16
  | .delinLost => 17
  | .oversizeDrop => 18
  | .planMiss => 19
  | .drainDiscard => 20
  | .contLost => 21
  | .contMisrouted => 22
  | .resync => 23
  | .justVoteFail => 24
  | .justPosUp => 25
  | .justNegUp => 26
  | .justPosDown => 27
  | .justNegDown => 28
  | .aisRxUp => 29
  | .aisRxDown => 30
  | .pwLost => 31
  | .jbUnderrun => 32
  | .jbOverrun => 33
  | .pwRtpDrop => 34
  | .protRequests => 35
  | .rngWindows => 36
  | .discMapWindows => 37
  | .discBroadWindows => 38
  | .darkWindows => 39
  | .windowsDeferred => 40
  | .darkVoid => 41
  | .snReceived => 42
  | .discCollision => 43
  | .snMisplaced => 44
  | .ranged => 45
  | .rngFail => 46
  | .authFail => 47
  | .outOfReach => 48
  | .mapMismatch => 49
  | .eqdUpdates => 50
  | .reacquire => 51
  | .flapHoldoffs => 52
  | .rogueDetect => 53
  | .rogueIsolated => 54
  | .rogueReleased => 55
  | .ploamUnexpected => 56
  | .wakeRefused => 57
  | .grantedBytes => 58
  | .grants => 59
  | .domGrantedBytes => 60
  | .domGrants => 61
  | .polls => 62
  | .assuredShort => 63
  | .plansFull => 64
  | .plansStanding => 65
  | .overheadBytes => 66
  | .unusedBytes => 67
  | .splitBursts => 68
  | .admissionRefused => 69
  | .reportsIn => 70
  | .reportsAccepted => 71
  | .rejectedReason => 72
  | .telegramAuthFail => 73
  | .telegramReplay => 74
  | .telegramFormat => 75
  | .remoteReceived => 76
  | .remoteOffroute => 77
  | .engagements => 78
  | .releases => 79
  | .fmUnmatched => 80
  | .fmClipBytes => 81
  | .fmClipDom => 82
  | .eventsFired => 83
  | .trainsLost => 84
  | .lookups => 85
  | .hits => 86
  | .learned => 87
  | .learnDrop => 88
  | .moves => 89
  | .staticViolation => 90
  | .aged => 91
  | .evicted => 92
  | .truncated => 93
  | .extLimit => 94
  | .tooManyTags => 95
  | .tooManyLabels => 96
  | .noForward => 97
  | .domMismatch => 98
  | .popAbsent => 99
  | .recirc => 100
  | .recircSecond => 101
  | .recircDrop => 102
  | .mirrorDrop => 103
  | .spreadDead => 104
  | .enqFrames => 105
  | .enqBytes => 106
  | .deqFrames => 107
  | .deqBytes => 108
  | .dropTailGreen => 109
  | .dropTailYellow => 110
  | .dropTailRed => 111
  | .poolEmpty => 112
  | .poolEmptyTile => 113
  | .reserveRefused => 114
  | .tooLong => 115
  | .dropDeleted => 116
  | .noQueue => 117
  | .badPtr => 118
  | .overRelease => 119
  | .greenFrames => 120
  | .yellowFrames => 121
  | .redFrames => 122
  | .greenBytes => 123
  | .yellowBytes => 124
  | .redBytes => 125
  | .redDrop => 126
  | .lateDrop => 127
  | .gateWaits => 128
  | .gateOversize => 129
  | .outProtected => 130
  | .outEncrypted => 131
  | .outOctets => 132
  | .txNoSa => 133
  | .txExhaustedDrop => 134
  | .txPoisoned => 135
  | .inOk => 136
  | .inInvalid => 137
  | .inNotValid => 138
  | .inLate => 139
  | .inDelayed => 140
  | .inUnchecked => 141
  | .inNotUsingSa => 142
  | .inUnusedSa => 143
  | .inUntagged => 144
  | .inNoTag => 145
  | .inBadTag => 146
  | .inUnknownSci => 147
  | .inNoSci => 148
  | .transitPoisoned => 149
  | .transitSfFallback => 150
  | .mkaRx => 151
  | .mkaTx => 152
  | .mkaIcvFail => 153
  | .mkaUnwrapFail => 154
  | .rekeyRequests => 155
  | .ponNoKey => 156
  | .ponKeyFail => 157
  | .ponBadKeyIndex => 158
  | .ponKeySwitches => 159
  | .cmdTaken => 160
  | .cmdCritical => 161
  | .cmdAuthFail => 162
  | .cmdReplay => 163
  | .cmdNotPermitted => 164
  | .cmdRateRefused => 165
  | .cmdPending => 166
  | .fragAbandoned => 167
  | .mbxInbandDrop => 168
  | .mbxTimeouts => 169
  | .memWriteDrop => 170
  | .msgTx => 171
  | .msgRx => 172
  | .msgCrcErr => 173
  | .msgUnknown => 174
  | .msgRefused => 175
  | .depthRefused => 176
  | .reforms => 177
  | .bcastTx => 178
  | .bcastRx => 179
  | .bcastDup => 180
  | .bcastLost => 181
  | .barrierDone => 182
  | .barrierAbort => 183
  | .snapshotLate => 184
  | .peerUnbound => 185
  | .switches => 186
  | .takeoversFailure => 187
  | .handovers => 188
  | .renewRxSys => 189
  | .renewRxInband => 190
  | .digestMismatch => 191
  | .compareGap => 192
  | .requestsRefused => 193
  | .yields => 194

/-- What the block hands to the outside: its lines, links, host memory, host vectors and remote senders. -/
inductive Output where
  /-- A reply, completion or notification sent to the sender of a channel 32-63 (R371). -/
  | msg (chan : Nat) (bytes : List Byte)
  /-- An MSI-X vector (R366). -/
  | vector (n : Nat)
  /-- A downstream PLOAM message (Table 7-3) in the header of a frame. -/
  | ploam (ch frame tid : Nat) (m : PloamMsg) (arg : Int)
  /-- A control block on a Derbex lane: block type byte, payload before the CRC (R90), and its block of the lane frame where that is fixed
  (R102, R110). -/
  | block (tile lane : Nat) (typ : Nat) (payload : BitVec 64) (at_ : Option Nat := none)
  /-- IDLE blocks in a row (R93). -/
  | idles (tile lane n : Nat)
  /-- A block returned in a far-end loop (R100): header as written, payload as scrambled again. -/
  | looped (tile lane : Nat) (header : BitVec 2) (payload : BitVec 64)
  /-- The header of a downstream frame (R144): channel, frame, its superframe counter, its bandwidth map as (AID, start, bytes). -/
  | dsFrame (ch frame super : Nat) (map : List (Nat × Nat × Nat))
  /-- The grant in a frame's map that the answers to a quiet window follow (R174): channel, frame, terminal (65 535 for any), ns into the frame. -/
  | winGrant (ch frame tid : Nat) (ns : Int)
  /-- A GEM or XGEM frame in a downstream frame, or a fragment of one (R144, R145): channel, frame, terminal, key slot it is encrypted with (R140,
  none on a multicast port), queue, first byte of the queue's frame, bytes, and whether it is the last fragment. -/
  | gem (ch frame tid : Nat) (key : Option Nat) (queue from_ bytes : Nat) (last : Bool)
  /-- Idle frames of the standard in the unused payload of a downstream frame (R145). -/
  | dsIdle (ch frame bytes : Nat)
  /-- The frame of a terminal's circuit containers in a downstream frame (R156, Table 6-3): terminal, circuit port, key slot, bytes. -/
  | containers (tid port key : Nat) (bytes : List Byte)
  /-- A downstream OMCI message. -/
  | omci (tid : Nat) (bytes : List Byte)
  /-- A SAToP packet on an uplink (R158): circuit, packet network (Table 6-5) and pseudowire, then the control word's sequence, L and R bits,
  payload bits. -/
  | satop (circuit psn : Nat) (pw : BitVec 32) (seq : Nat) (l r : Bool) (bits : List Bool)
  /-- A frame sent on an uplink sub-port: SA used (none when uncontrolled or unprotected) and its PN. -/
  | frame (sub : Nat) (sa : Option Nat) (pn : Nat) (bytes : List Byte)
  /-- A transit frame whose tail is poisoned (R331). -/
  | poisoned (sub : Nat)
  /-- Continuous Local Fault on a sub-port (R447, R77). -/
  | localFault (sub : Nat)
  /-- A system message (Table 16-1): system port, type (Table 16-2), destination, sequence, and its source, flags, root and hop count followed by the values of its payload. -/
  | sys (port typ dst seq : Nat) (vals : List Int)
  /-- A system message whose payload holds bytes: a broadcast, a reply. -/
  | sysBytes (port typ dst seq : Nat) (bytes : List Byte)
  /-- A LEASE message (Table 17-3): tree, in-band path, kind, payload. -/
  | lease (tree : Nat) (inband : Bool) (kind : Nat) (m : LeaseMsg)
  /-- A DIGEST or SYNC payload beside its LEASE message. -/
  | sync (tree : Nat) (recs : List SyncRec)
  /-- Safety digests of a frame (R436). -/
  | digest (tree frame : Nat) (ds : List (Nat × Nat))
  /-- A write to host memory (R378, R469). -/
  | dma (addr : BitVec 64) (bytes : List Byte)
  /-- A PTP message sent (R126) and the timestamp it carries, in units of 100 ps (R127). -/
  | ptp (sub : Nat) (kind : PtpKind) (seq : Nat) (stamp : BitVec 64)
  /-- An MKPDU sent (R326): SecY, message number, distributed SAK wrapped under the KEK. -/
  | mkpdu (secy mn : Nat) (wrapped : List Byte)
  /-- A private key bus operation to the cipher array of a tile (R348): 0 LOAD, 1 ZEROISE, 2 ZEROISE_TILE. -/
  | keyBus (op tile slot : Nat)
  /-- The one edge of PPS_OUT (R129). -/
  | pps
  deriving DecidableEq, Repr


/-- One PTP port (Table 5-3). -/
structure PtpPort where
  /-- port configured and running (05 R126). -/
  enabled : Bool := false
  /-- PTP domain number 24-43 (05 R126). -/
  domain : Nat := 24
  /-- 0 T-TSC, 1 T-BC, 2 T-GM (05 R126). -/
  clockType : Nat := 0
  /-- two-step transmit (05 R126). -/
  twoStep : Bool := false
  /-- port in slave state (05 R124). -/
  slave : Bool := false
  /-- sequence of the next message sent (05 R126). -/
  seqTx : Nat := 0
  /-- raw instant of the last Announce (05 R124). -/
  lastAnnounce : BitVec 64 := 0
  /-- raw instant of the last Sync (05 R124). -/
  lastSync : BitVec 64 := 0
  /-- corrected receive timestamp, units of 100 ps of the tile's network time mod 2^64 (05 R127). -/
  rxStamp : BitVec 64 := 0
  /-- corrected transmit timestamp of the last event message, as rxStamp (05 R127). -/
  txStamp : BitVec 64 := 0
  deriving DecidableEq, Repr

/-- Fixed latency of an uplink PHY (R127). -/
structure PhyLat where
  /-- receive latency, ns (05 R127). -/
  rxNs : Nat := 0
  /-- transmit latency, ns (05 R127). -/
  txNs : Nat := 0
  deriving DecidableEq, Repr

/-- The time unit and the servo (chapter 05). -/
structure TimeState where
  /-- the lead tile's raw counter, units of 2^-16 ns (05 R115). -/
  raw : BitVec 64 := 0
  /-- raw units since the last package reset, which the status block counts in seconds without the raw counter's wrap (14 R380). -/
  up : Nat := 0
  /-- position of the time clock in its group of five cycles (05 R115). -/
  cyc : Nat := 0
  /-- anchor raw value raw_a (05 R116). -/
  rawA : BitVec 64 := 0
  /-- offset, seconds (05 R116). -/
  offS : Nat := 0
  /-- offset, nanoseconds 0-999999999 (05 R116). -/
  offNs : Nat := 0
  /-- fraction of a nanosecond carried in the offset, 2^-16 ns (05 R117). -/
  offFrac : Nat := 0
  /-- signed rate in force, 2^-16 ppb (05 R116). -/
  rate : BitVec 32 := 0
  /-- whole frames k of the frame error (05 R134). -/
  frK : Int := 0
  /-- phase of the frame error at slewFrom, 2^-16 ns (05 R134). -/
  frPhi : Int := 0
  /-- raw instant at which the present slew began (05 R134). -/
  slewFrom : BitVec 64 := 0
  /-- last frame whose boundary was processed (05 R133). -/
  lastFrame : Option Nat := none
  /-- last 1 ms interval that was closed, counted in eight frames (06 R167). -/
  lastIv : Option Nat := none
  /-- largest network-time second already reached (05 R135). -/
  topSecond : Nat := 0
  /-- time state, Table 5-2 (05 R125). -/
  st : TimeSt := .freerun
  /-- source in use, Table 5-1 (05 R124). -/
  source : Nat := 0
  /-- reference in use: false REFCLK_A, true REFCLK_B (05 R122). -/
  useB : Bool := false
  /-- REFCLK_A not lost (05 R122). -/
  goodA : Bool := false
  /-- REFCLK_B not lost (05 R122). -/
  goodB : Bool := false
  /-- raw instant at which both references were lost (05 R123). -/
  bothLostAt : Option (BitVec 64) := none
  /-- W1C step_refused of TIME_STATUS (05 R118). -/
  stepRefused : Bool := false
  /-- W1C stepped of TIME_STATUS (05 R118). -/
  stepped : Bool := false
  /-- RC pps_rejected of TIME_STATUS (05 R130). -/
  ppsRejected : Nat := 0
  /-- sub-port in slave state (05 TIME_STATUS). -/
  ptpPort : Nat := 255
  /-- source PTP valid (05 R124). -/
  ptpOk : Bool := false
  /-- source SYS valid (05 R124). -/
  sysOk : Bool := false
  /-- source PPS valid (05 R124). -/
  ppsOk : Bool := false
  /-- filtered time error of the source in use, 100 ps (05 R125). -/
  err : Int := 0
  /-- the one servo step of this ACQUIRING was made (05 R125). -/
  acqStepped : Bool := false
  /-- raw instant since which the filtered error has stayed within 50 ns (05 R125). -/
  goodSince : Option (BitVec 64) := none
  /-- raw instant of the servo's last change of rate (05 R125). -/
  rateAt : BitVec 64 := 0
  /-- the host has set the time of day since the package reset (05 R126). -/
  todSet : Bool := false
  /-- raw instant HOLDOVER was entered (05 R125). -/
  holdoverAt : Option (BitVec 64) := none
  /-- rates of the last 60 seconds, newest first (the HOLDOVER mean) (05 R125). -/
  rateHist : List Int := []
  /-- raw instant of the last accepted PPS_IN edge (05 R130). -/
  ppsLast : Option (BitVec 64) := none
  /-- raw instant at which the PPS_OUT pulse ends; PPS_OUT is high until then (05 R129). -/
  ppsOutEnd : BitVec 64 := 0
  /-- captured raw bits 63:32 (05 TIME_RAW_HI). -/
  capRawHi : BitVec 32 := 0
  /-- captured nanoseconds (05 TIME_NOW_NS). -/
  capNs : BitVec 32 := 0
  /-- captured seconds 31:0 (05 TIME_NOW_S_LO). -/
  capSLo : BitVec 32 := 0
  /-- captured seconds 47:32 (05 TIME_NOW_S_HI). -/
  capSHi : BitVec 32 := 0
  /-- captured frame number 31:0 (05 TIME_FRAME_LO). -/
  capFLo : BitVec 32 := 0
  /-- captured frame number 47:32 (05 TIME_FRAME_HI). -/
  capFHi : BitVec 32 := 0
  /-- PTP ports by sub-port (05 R126). -/
  ptp : List (Nat × PtpPort) := []
  /-- PHY latency per sub-port (05 R127). -/
  phyLat : List (Nat × PhyLat) := []
  deriving DecidableEq, Repr

/-- One board feed (R45, Table 2-8). -/
structure Feed where
  /-- feed state (02 R62). -/
  st : FeedState := .good
  /-- voltage in mV (02 PWR_FEED_VOLT). -/
  mv : Nat := 12000
  /-- current in units of 10 mA (02 PWR_FEED_CURR). -/
  cur : Nat := 0
  deriving DecidableEq, Repr

/-- One filtered discrete input (R58). -/
structure Pin where
  /-- filtered level, true means asserted (02 R58). -/
  asserted : Bool := false
  /-- stuck: ignored until seen deasserted (02 R58). -/
  ignored : Bool := false
  /-- raw instant of the assertion (02 R58). -/
  since : BitVec 64 := 0
  deriving DecidableEq, Repr

/-- Feeds, power states, discretes (chapter 02). -/
structure PowerState where
  /-- feed VIN_A (02 R42). -/
  feedA : Feed := {}
  /-- feed VIN_B (02 R42). -/
  feedB : Feed := {}
  /-- feed that carries the load (02 R43). -/
  carry : Carry := .both
  /-- changeovers since cold reset (02 R44). -/
  changeovers : Nat := 0
  /-- power-fail warning in force (02 R49). -/
  pfw : Bool := false
  /-- W1C pfw_seen (02 PWR_FEED_STATUS). -/
  pfwSeen : Bool := false
  /-- package power state (02 R53). -/
  pstate : PState := .ramp
  /-- est_w, estimated package power (02 PWR_PKG_CAP). -/
  estW : Nat := 0
  /-- RC short_pulses (02 R58). -/
  shortPulses : Nat := 0
  /-- W1C reset_stuck (02 PWR_DISC_STATUS). -/
  resetStuck : Bool := false
  /-- W1C ext_quench_stuck (02 PWR_DISC_STATUS). -/
  quenchStuck : Bool := false
  /-- W1C prot_req_stuck (02 PWR_DISC_STATUS). -/
  protStuck : BitVec 4 := 0
  /-- RESET_N (02 R58). -/
  pinReset : Pin := {}
  /-- EXT_QUENCH_N (02 R58). -/
  pinQuench : Pin := {}
  /-- PROT_REQ_N[n] (02 R58). -/
  pinProt : List (Nat × Pin) := []
  /-- VAON and VAONIO in range (02 R51). -/
  aonRailsOk : Bool := true
  /-- tiles whose assay waits for headroom (02 R55). -/
  assayQueue : List Nat := []
  deriving DecidableEq, Repr

/-- Reset, boot and hallmark (chapter 03). -/
structure RstState where
  /-- RST_CAUSE, always-on (03 RST_CAUSE). -/
  cause : BitVec 32 := 1
  /-- boot stage (03 R85). -/
  stage : BootStage := .rom
  /-- last boot error, Table 3-7 (03 R85). -/
  error : Nat := 0
  /-- BOOT_SRC as sampled (03 R68). -/
  strap : Nat := 0
  /-- REFCLK_SEL as sampled (02 R61). -/
  refSel : Bool := false
  /-- source that booted (03 RST_BOOT_STATUS). -/
  source : Nat := 3
  /-- stages extended into the hallmark (03 RST_BOOT_STATUS). -/
  stages : Nat := 0
  /-- running SHA-384 hallmark (03 R74). -/
  hallmark : List (BitVec 8) := zeroBytes 48
  /-- measurement log, m of each stage (03 R74). -/
  mlog : List (List (BitVec 8)) := []
  /-- slot being read: 0 A, 1 B, 2 host (03 R68). -/
  slotTry : Nat := 0
  /-- slots rejected in this boot (03 R71). -/
  slotBad : List Nat := []
  /-- slot named first in the flash image directory (03 R68). -/
  firstSlot : Nat := 0
  /-- slot named first in the copy of the directory (03 R69). -/
  copySlot : Nat := 0
  /-- raw instant the package reset began (15 R503). -/
  resetAt : BitVec 64 := 0
  /-- time taken to command-ready, us (15 R503). -/
  readyUs : Nat := 0
  /-- firmware release number (15 R503). -/
  fwRelease : BitVec 32 := 0
  /-- the boot in progress is of a warm reset (03 R63). -/
  warmBoot : Bool := false
  /-- the reset in progress is the assay-exit warm reset (19 R454). -/
  assayExit : Bool := false
  /-- a host image load is in progress (03 R70). -/
  loadGo : Bool := false
  /-- raw instant XSPI_RST_N was released; none while it is low (22 R494). -/
  xspiAt : Option (BitVec 64) := none
  /-- die links by 8*low tile + high tile: trained (01 R13). -/
  links : List (Nat × Bool) := []
  deriving DecidableEq, Repr

/-- A queued outbound OMCI message (R160). -/
structure OmciMsg where
  /-- terminal (06 R160). -/
  tid : Nat := 0
  /-- message, trailer included where the device computes it (06 R160). -/
  bytes : List (BitVec 8) := []
  deriving DecidableEq, Repr

/-- One tile die. -/
structure Tile where
  /-- tile state, Table 1-8 (01 R37). -/
  st : TileState := .boot
  /-- rail_ok (02 PWR_TILE_RAIL). -/
  railOk : BitVec 6 := 0
  /-- W1C rail_fault (02 PWR_TILE_RAIL). -/
  railFault : BitVec 6 := 0
  /-- rail enabled and not yet in range (02 R51). -/
  ramping : Option Nat := none
  /-- thermal level (02 R56). -/
  level : Nat := 0
  /-- hottest sensor now (02 PWR_TILE_TEMP). -/
  nowC : Int := -128
  /-- RC highest reading since last read (02 PWR_TILE_TEMP). -/
  peakC : Int := -128
  /-- index of the hottest sensor (18 R504). -/
  hot : Nat := 0
  /-- tile resets since the last package reset (03 RST_TILE_LOG). -/
  resets : Nat := 0
  /-- cause of the last tile reset (03 RST_TILE_LOG). -/
  lastCause : Nat := 0
  /-- W1C overflow per crossing group (03 R79). -/
  cdcOvf : BitVec 9 := 0
  /-- crossings awaiting their handshake (03 R83). -/
  cdcResync : BitVec 9 := 0
  /-- events not yet taken, by 16 x crossing group + lane or sub-port (03 R79). -/
  cdcHeld : List (Nat × Nat) := []
  /-- time unit aligned (05 R131). -/
  aligned : Bool := false
  /-- last measured error, 2^-4 ns (05 R131). -/
  timeErr : Int := 0
  /-- raw instant since which the error exceeds 50 ns (05 R132). -/
  timeErrAt : Option (BitVec 64) := none
  /-- private correction of the tile's time, 2^-16 ns (05 R131). -/
  corr : Int := 0
  /-- the tile's raw counter less the lead tile's; one time clock drives both (05 R115). -/
  rawDiff : BitVec 64 := 0
  /-- lockstep pairs isolated (01 R17). -/
  pairBad : BitVec 2 := 0
  /-- local engines isolated (01 R19). -/
  engBad : List Nat := []
  /-- engine whose task moved to a spare (01 R19). -/
  engMove : List (Nat × Nat) := []
  /-- uplinks of the tile transmit local fault (18 R447). -/
  uplinkFault : Bool := false
  /-- cause of the tile reset in progress (03 RST_TILE_LOG). -/
  resetCause : Nat := 0
  /-- pattern set to run before RUN (anneal by assay) (19 R457). -/
  assayAfter : Option Nat := none
  /-- outbound OMCI messages (06 R160). -/
  omciQ : List OmciMsg := []
  /-- margin_us (08 GS_TILE_STATUS). -/
  marginUs : Nat := 0
  /-- smallest margin of the current second, us (08 GS_TILE_STATUS). -/
  marginCur : Option Nat := none
  deriving DecidableEq, Repr

/-- One Derbex lane (chapter 04). -/
structure Lane where
  /-- current generation (04 LANE_STATUS). -/
  gen : Nat := 0
  /-- generations advertised by the partner (04 LANE_STATUS). -/
  partnerGens : BitVec 4 := 0
  /-- generations whose step failed (04 LANE_STATUS). -/
  failedGens : BitVec 4 := 0
  /-- block lock held (04 LANE_STATUS). -/
  locked : Bool := false
  /-- FS recognised (04 LANE_STATUS). -/
  frameSync : Bool := false
  /-- TX in lull (04 LANE_STATUS). -/
  txLull : Bool := true
  /-- RX in lull (04 LANE_STATUS). -/
  rxLull : Bool := true
  /-- partner signalled LULL (04 LANE_STATUS). -/
  partnerLull : Bool := false
  /-- this end returns the partner's blocks (04 LANE_STATUS). -/
  farLoop : Bool := false
  /-- energy on the RX line (04 LANE_STATUS). -/
  sd : Bool := false
  /-- neg_state (04 LANE_STATUS). -/
  neg : NegState := .down
  /-- block-boundary offset 0-65 (04 LANE_STATUS). -/
  slipPos : Nat := 0
  /-- consecutive valid headers (04 R96). -/
  hdrRun : Nat := 0
  /-- invalid headers among the last 64 blocks, newest in bit 0 (04 R96). -/
  hdrHist : BitVec 64 := 0
  /-- a slip waits for the next block boundary (04 R96). -/
  slipPend : Bool := false
  /-- an FS was recognised since the last frame boundary (04 R105). -/
  fsGot : Bool := false
  /-- blocks received since the last ABIL was sent (04 R93). -/
  abilAge : Nat := 0
  /-- control blocks sent in a near-end loop and not yet back (04 R99). -/
  loopQ : List (BitVec 64) := []
  /-- on a system lane: bytes of the message being received, none until a control block (16 R403). -/
  msgBuf : Option (List (BitVec 8)) := none
  /-- PRBS31 of the TEST blocks sent (04 R91). -/
  prbs : BitVec 31 := 0
  /-- transmit scrambler state (04 R89). -/
  txScr : BitVec 58 := 0
  /-- receive descrambler state (04 R89). -/
  rxScr : BitVec 58 := 0
  /-- own nonce (04 R93). -/
  nonce : BitVec 8 := 0
  /-- generation requested and not yet acknowledged (04 R93). -/
  reqGen : Option Nat := none
  /-- generation being stepped to (04 R93). -/
  stepTo : Option Nat := none
  /-- generation held before the step (04 R94). -/
  stepFrom : Nat := 0
  /-- ABIL with ack naming the new generation received (04 R94). -/
  ackSeen : Bool := false
  /-- raw end of the relock search (04 R98). -/
  relockAt : Option (BitVec 64) := none
  /-- raw end of the 2 ms confirmation time (04 R94). -/
  stepEnd : BitVec 64 := 0
  /-- consecutive frames without FS (04 R105). -/
  fsMiss : Nat := 0
  /-- frame number of the last FS taken (04 R105). -/
  rxFrame : BitVec 16 := 0
  /-- byte 3 of the last FS taken (04 R105). -/
  rxByte3 : BitVec 8 := 0
  /-- byte 4 of the last FS taken (04 R105). -/
  rxByte4 : BitVec 8 := 0
  /-- lasers lit, PHY_STATUS (04 R108). -/
  phyLit : BitVec 3 := 0
  /-- laser fault bits, PHY_STATUS (04 R108). -/
  phyFault : BitVec 3 := 0
  /-- dual-host bit, PHY_STATUS (04 R108). -/
  phyDual : Bool := false
  /-- other host in force, PHY_STATUS (04 R108). -/
  phyOther : Bool := false
  /-- PHY temperature (04 R108). -/
  phyTemp : BitVec 8 := 0
  /-- low byte of the number in force at the PHY (04 R108). -/
  phyNum : BitVec 8 := 0
  /-- consecutive frames with the laser fault clear (06 R162). -/
  lsfClear : Nat := 0
  /-- payload of the LASER block of the last lane frame, before its CRC (04 R110). -/
  laser : BitVec 64 := 0
  /-- payload of the last FS block sent, before its CRC (04 R104). -/
  fsSent : BitVec 64 := 0
  /-- last LOOP request sent (byte 1), 0 none (04 R100). -/
  loopWait : Nat := 0
  /-- role in force of a bonded lane 8-9, taken at a function reset (04 LANE_CFG). -/
  role : Nat := 1
  /-- on a system or test lane: the own nonce is the higher one (04 R93). -/
  leader : Bool := false
  /-- signal detect of G, X and F by the last SD_REPORT of each (04 R109). -/
  chSd : BitVec 3 := 0
  /-- energy code of the last SD_REPORT of G, X and F (04 R108). -/
  chEnergy : List Nat := [0, 0, 0]
  /-- late blocks mod 256, PHY_STATUS (04 R108). -/
  phyLate : BitVec 8 := 0
  /-- CRC errors mod 256, PHY_STATUS (04 R108). -/
  phyCrc : BitVec 8 := 0
  deriving DecidableEq, Repr

/-- One uplink sub-port (R113, R400). -/
structure SubPort where
  /-- enabled (15 R400). -/
  enabled : Bool := false
  /-- line up (10 R278). -/
  up : Bool := false
  /-- default queues created (11 R293). -/
  everEnabled : Bool := false
  /-- raw end of the drain after a disable (15 R400). -/
  drainEnd : Option (BitVec 64) := none
  /-- mode in force, taken at the enable (active of LANE_UPL_MODE) (15 R400). -/
  mode : Nat := 0
  /-- raw end of the frame in progress (11 R305). -/
  busyUntil : BitVec 64 := 0
  deriving DecidableEq, Repr

/-- One performance bin (R165). -/
structure PmBin where
  /-- network second at which the bin opened (06 R165). -/
  key : Nat := 0
  /-- errored seconds (06 R165). -/
  es : Nat := 0
  /-- severely errored seconds (06 R165). -/
  ses : Nat := 0
  /-- unavailable seconds (06 R165). -/
  uas : Nat := 0
  /-- errored blocks (06 R165). -/
  errB : Nat := 0
  /-- blocks (06 R165). -/
  blocks : Nat := 0
  /-- suspect mark (06 R166). -/
  suspect : Bool := false
  /-- network second at which the bin closed (21 R483). -/
  closeSec : Nat := 0
  /-- raw instant at which the bin closed (06 R165). -/
  closedAt : Option (BitVec 64) := none
  /-- final (false while open or provisional) (06 R165). -/
  final : Bool := false
  deriving DecidableEq, Repr

/-- One past second of the availability rule (R164). -/
structure PmSec where
  /-- errored (06 R163). -/
  es : Bool := false
  /-- severely errored (06 R163). -/
  ses : Bool := false
  /-- opening second of the 15-minute bin holding the second (06 R165). -/
  key15 : Nat := 0
  /-- opening second of the 24-hour bin holding the second (06 R165). -/
  key24 : Nat := 0
  deriving DecidableEq, Repr

/-- Line quality of one terminal or one tree (R162-R166). -/
structure PmObj where
  /-- errored blocks of the current second (06 R162). -/
  curErr : Nat := 0
  /-- blocks of the current second (06 R162). -/
  curBlocks : Nat := 0
  /-- a defect of the scope was present in the current second (06 R163). -/
  curDefect : Bool := false
  /-- in unavailable time (06 R164). -/
  unavail : Bool := false
  /-- run of seconds not yet decided, newest first (06 R164). -/
  pend : List PmSec := []
  /-- current 15-minute bin (06 R165). -/
  cur15 : PmBin := {}
  /-- last 32 closed 15-minute bins, newest first (06 R165). -/
  old15 : List PmBin := []
  /-- current 24-hour bin (06 R165). -/
  cur24 : PmBin := {}
  /-- last closed 24-hour bin (06 R165). -/
  old24 : List PmBin := []
  /-- thresholds ES, SES, UAS, errored blocks of the 15-minute bin, 0 off (20 R483). -/
  thr15 : List Nat := []
  /-- thresholds of the 24-hour bin, 0 off (20 R483). -/
  thr24 : List Nat := []
  deriving DecidableEq, Repr

/-- One tree port: protection request and defects (chapter 06). -/
structure Tree where
  /-- LOSt defect (06 R162). -/
  lost : Bool := false
  /-- LFS defect (06 R162). -/
  lfs : Bool := false
  /-- LSF defect (06 R162). -/
  lsf : Bool := false
  /-- consecutive frames with bursts granted and none accepted (06 R162). -/
  noBurstRun : Nat := 0
  /-- errored blocks of the current 1 ms interval (06 R167). -/
  ivErr : Nat := 0
  /-- blocks of the current 1 ms interval (06 R167). -/
  ivBlocks : Nat := 0
  /-- a tree defect was present within the current 1 ms interval (06 R167). -/
  ivDefect : Bool := false
  /-- fast SES condition of the last interval (06 R167). -/
  fastSes : Bool := false
  /-- consecutive intervals with the condition (06 R167). -/
  fastRun : Nat := 0
  /-- consecutive intervals without the condition (06 R167). -/
  clearRun : Nat := 0
  /-- switch request raised (06 R167). -/
  protReq : Bool := false
  /-- ns by which takeovers have moved the upstream reference (17 R432). -/
  upRef : Int := 0
  /-- line quality of the tree (06 R165). -/
  pm : PmObj := {}
  deriving DecidableEq, Repr

/-- One quiet window of a frame (R176). -/
structure WinReq where
  /-- ranging, map-guided, broad or dark (07 R173). -/
  kind : WinKind := .ranging
  /-- terminal of a ranging window (07 R173). -/
  tid : Nat := 0
  /-- terminals of a map-guided group (07 R175). -/
  members : List Nat := []
  /-- first frame byte of the window (07 R174). -/
  startB : Nat := 0
  /-- frame bytes taken (07 R173). -/
  lenB : Nat := 0
  /-- width in ns (07 R173). -/
  lenNs : Nat := 0
  /-- times deferred in a row (07 R177). -/
  deferred : Nat := 0
  /-- frame bytes of the whole window, more than its part where it spans frames (07 R178). -/
  fullB : Nat := 0
  /-- the rest of a broad window that began in an earlier frame (07 R178). -/
  cont : Bool := false
  deriving DecidableEq, Repr

/-- One grant of a frame plan (R207). -/
structure GrantRec where
  /-- allocation (08 R207). -/
  aid : Nat := 0
  /-- bytes granted (08 R207). -/
  bytes : Nat := 0
  /-- a poll grant (08 R205). -/
  poll : Bool := false
  /-- carries a status report (08 R207). -/
  report : Bool := false
  /-- belongs to the safety part (08 R214). -/
  safety : Bool := false
  deriving DecidableEq, Repr

/-- One burst of a frame plan (R209-R213). -/
structure PlanBurst where
  /-- terminal (08 R212). -/
  tid : Nat := 0
  /-- first frame byte, guard included (08 R212). -/
  startB : Nat := 0
  /-- line bytes (08 R211). -/
  lenB : Nat := 0
  /-- carries a safety allocation (08 R212). -/
  safety : Bool := false
  /-- second part of a split burst (08 R213). -/
  second : Bool := false
  /-- grants in burst order (08 R212). -/
  grants : List GrantRec := []
  deriving DecidableEq, Repr

/-- The frame plan of one channel for one frame (chapter 08). -/
structure Plan where
  /-- upstream frame (08 R215). -/
  frame : Nat := 0
  /-- full plan (false: built from the standing plan) (08 R218). -/
  full : Bool := false
  /-- full plan handed to the assembler in time (08 R215). -/
  committed : Bool := false
  /-- bursts in order (08 R212). -/
  bursts : List PlanBurst := []
  /-- windows of the frame (08 R176). -/
  wins : List WinReq := []
  /-- frame bytes left ungranted (08 R223). -/
  unused : Nat := 0
  /-- burst overhead, status reports and parity granted (08 R223). -/
  overB : Nat := 0
  /-- bursts split around windows (08 R213). -/
  splits : Nat := 0
  /-- safety part: AID and granted bytes, ascending AID (08 R214). -/
  safe : List (Nat × Nat) := []
  /-- bytes of ASSURED demand left unserved, per allocation (08 R207). -/
  short : List (Nat × Nat) := []
  /-- demand of each allocation served (08 Table 8-5). -/
  demands : List (Nat × Nat) := []
  /-- remainders the plan leaves (08 R198). -/
  rems : List (Nat × Nat) := []
  /-- a change of FIXED or safety allocations falls due in the frame (08 R219). -/
  changed : Bool := false
  /-- the assembler has built the map, bursts and envelopes (08 R215). -/
  done : Bool := false
  deriving DecidableEq, Repr

/-- A rogue hunt in progress (R188, R189). -/
structure Hunt where
  /-- hunt_mode the hunt started with (07 R189). -/
  serial : Bool := false
  /-- candidates not yet tested (07 R189). -/
  cands : List Nat := []
  /-- the set, ascending TID (07 R189). -/
  pool : List Nat := []
  /-- terminals disabled by the current step (07 R189). -/
  off : List Nat := []
  /-- what the current step tests (07 R189). -/
  phase : HuntPhase := .candidate
  /-- frame in which the step's dark window opens, once its messages have left (07 R188). -/
  darkFrame : Option Nat := none
  /-- the step's dark window is open (07 R188). -/
  darkOpen : Bool := false
  deriving DecidableEq, Repr

/-- An open delimiter window (R147-R150). -/
structure BurstWin where
  /-- granted terminal (65 535 in a discovery window) (06 R147). -/
  tid : Nat := 0
  /-- expected start S, line bits from the frame start (06 R147). -/
  expect : Nat := 0
  /-- half-window W in force for this window (06 R147). -/
  half : Nat := 0
  /-- delimiter length D (06 R147). -/
  dlen : Nat := 0
  /-- max_hamming in force for this window (06 R148). -/
  maxHam : Nat := 0
  /-- ranging or discovery window, none for a granted burst (07 R179). -/
  kind : Option WinKind := none
  /-- terminals that a discovery window covers (07 R179). -/
  members : List Nat := []
  /-- line bits from S to the last allocated bit of a granted burst; line bits of a ranging or discovery window (06 R149). -/
  lenBits : Nat := 0
  /-- upstream frame of the window (06 R147). -/
  frame : Nat := 0
  /-- grants of the burst (08 R212). -/
  grants : List GrantRec := []
  /-- offset of the last match whose header check failed (06 R148). -/
  seen : Option Int := none
  deriving DecidableEq, Repr

/-- A downstream PLOAM message waiting for the framer (R191). -/
structure Ploam where
  /-- message, Table 7-3 (07 R191). -/
  msg : PloamMsg := .sleepAllow
  /-- terminal addressed (07 R191). -/
  tid : Nat := 0
  /-- value carried (ONU-ID, delay, 0 or 1) (07 R191). -/
  arg : Int := 0
  deriving DecidableEq, Repr

/-- One tree channel, handle 4 x tree + k (chapters 06 to 08). -/
structure Chan where
  /-- channel state, Table 6-2 (06 R141). -/
  st : ChanState := .disabled
  /-- upstream rate code of TREE_CHAN_STATUS (06 R139). -/
  upRate : Nat := 0
  /-- build frame from which an accepted disable takes effect (06 R142). -/
  disableAt : Option Nat := none
  /-- frame of the enable (06 R141). -/
  enableAt : Nat := 0
  /-- raw end of the drain (06 R142). -/
  drainEnd : BitVec 64 := 0
  /-- LASER enable bit of the channel (04 R110). -/
  lit : Bool := false
  /-- frame at which the next map-guided period starts (07 R175). -/
  mapNext : Option Nat := none
  /-- frame at which the next broad period starts (07 R175). -/
  broadNext : Option Nat := none
  /-- frame at which the next dark-window period starts (07 R175). -/
  darkNext : Option Nat := none
  /-- first frame after enable at which the channel carried frames (period origin) (07 R175). -/
  carryFrom : Option Nat := none
  /-- reach_min_m (07 R169). -/
  reachMin : Nat := 0
  /-- reach_max_m (07 R169). -/
  reachMax : Nat := 20000
  /-- Teqd in units of 16 ns (07 R171). -/
  teqd : Nat := 0
  /-- channel constant in thousandths of a ns (07 R172). -/
  calConst : Option Int := none
  /-- rogue_state (07 R188). -/
  rogue : RogueState := .normal
  /-- energy code of the last dark-window report (07 RNG_CHAN_STATUS). -/
  lastEnergy : Nat := 0
  /-- frame drawn for the dark window of this period (07 R187). -/
  darkFrame : Option Nat := none
  /-- offset in ns drawn for the dark window (07 R187). -/
  darkOfs : Nat := 0
  /-- a dark window is open or awaits its report (07 R187). -/
  darkOpen : Bool := false
  /-- raw end of the last dark window (07 R187). -/
  darkEnd : BitVec 64 := 0
  /-- the dark window open or due is the confirming one (07 R188). -/
  darkConfirm : Bool := false
  /-- consecutive void dark windows (07 R187). -/
  darkVoidRun : Nat := 0
  /-- consecutive dark windows without energy in UNKNOWN (07 R190). -/
  darkCleanRun : Nat := 0
  /-- hunt in progress (07 R189). -/
  hunt : Option Hunt := none
  /-- map-guided groups of the current period, not yet opened (07 R175). -/
  groups : List WinReq := []
  /-- frames between the openings of two groups (07 R175). -/
  groupGap : Nat := 0
  /-- frame of the next group (07 R175). -/
  groupNext : Nat := 0
  /-- windows submitted and not yet placed (deferred ones first) (07 R176). -/
  winReq : List WinReq := []
  /-- serials reported in the last 60 s with the raw instant (07 R182). -/
  unknownSn : List (List (BitVec 8) × BitVec 64) := []
  /-- answers to windows still to be granted: frame, terminal, ns into the frame (07 R174). -/
  winGrants : List (Nat × Nat × Int) := []
  /-- plans built for frames not yet past (08 R215). -/
  plans : List Plan := []
  /-- the standing plan is valid (08 R219). -/
  standingValid : Bool := false
  /-- consecutive standing plans, saturating at 255 (08 GS_CHAN_STATUS). -/
  standingRun : Nat := 0
  /-- the F2 fault of R220 is held up (08 R220). -/
  standingFlt : Bool := false
  /-- consecutive frames with a full plan, while the fault is up (08 R220). -/
  fullRun : Nat := 0
  /-- rotation count of the surplus rounds, one more each frame (08 R208). -/
  rot : Nat := 0
  /-- rotation count of burst placement (08 R212). -/
  tidRot : Nat := 0
  /-- delimiter window open (06 R147). -/
  win : Option BurstWin := none
  /-- windows planned and not yet open (06 R149). -/
  winQ : List BurstWin := []
  /-- line bit, counted from frame 0, before which no window opens (06 R149). -/
  winNotBefore : Nat := 0
  /-- bursts accepted and not yet decoded: terminal and frame (06 R151). -/
  accepted : List (Nat × Nat) := []
  /-- payload bytes still free in the downstream frame being built (06 R145). -/
  dsRoom : Nat := 0
  /-- frame broken off at the frame boundary: queue, terminal, bytes sent, bytes left (06 R145). -/
  dsRest : Option (Nat × Nat × Nat × Nat) := none
  /-- PLOAM messages waiting for a header (07 R188). -/
  ploamQ : List Ploam := []
  /-- first-pass lookup list (10 R254). -/
  lookup : Option Nat := none
  /-- ingress mirror session (10 R254). -/
  mirror : Nat := 0
  deriving DecidableEq, Repr

/-- One terminal (chapter 07). -/
structure Terminal where
  /-- channel handle (07 R170). -/
  ch : Nat := 0
  /-- serial number (07 R170). -/
  serial : List (BitVec 8) := []
  /-- password (10 bytes) or registration ID (36 bytes) (07 R170). -/
  cred : List (BitVec 8) := []
  /-- expected fibre distance d, m (07 R170). -/
  dist : Nat := 0
  /-- tolerance t, m (07 R170). -/
  tol : Nat := 0
  /-- upstream FEC (06 R139). -/
  fec : Bool := false
  /-- terminal state, Table 7-2 (07 R180). -/
  st : TermState := .absent
  /-- ONU-ID held (07 R180). -/
  onu : Option Nat := none
  /-- equalisation delay in thousandths of a ns (07 R171). -/
  eqd : Int := 0
  /-- measured round-trip time in thousandths of a ns (07 R171). -/
  rtt : Int := 0
  /-- equalisation uncertainty, line bits (07 R184). -/
  uncert : Nat := 8
  /-- offsets kept, newest first, at most 64 (07 R184). -/
  offs : List Int := []
  /-- first frame whose bursts are kept (07 R184). -/
  histFrom : Nat := 0
  /-- correction sent and not yet in force (07 R184). -/
  eqdPend : Option Int := none
  /-- first build frame that may grant the allocations (07 R181). -/
  sendFrom : Option Nat := none
  /-- ranging windows left of the four (07 R181). -/
  rngLeft : Nat := 0
  /-- first build frame that may hold a ranging window (07 R181). -/
  rngFrom : Option Nat := none
  /-- raw end of REACQUIRE (07 R184). -/
  reacqEnd : BitVec 64 := 0
  /-- raw instants of the last losses of registration (07 R185). -/
  losses : List (BitVec 64) := []
  /-- next hold-off period in s (07 R185). -/
  holdS : Nat := 1
  /-- held off since the period last returned to 1 s (07 R185). -/
  everHeld : Bool := false
  /-- raw end of the hold-off (07 R185). -/
  holdEnd : BitVec 64 := 0
  /-- raw instant since which it is in service without a break (07 R185). -/
  svcSince : Option (BitVec 64) := none
  /-- consecutive granted bursts missed (06 R162). -/
  missRun : Nat := 0
  /-- consecutive header check failures (06 R162). -/
  hdrRun : Nat := 0
  /-- LOSi defect (06 R162). -/
  losi : Bool := false
  /-- LOFi defect (06 R162). -/
  lofi : Bool := false
  /-- raw instants of the LOFi, burst_missed and hdr_check_fail events of the last second (07 R189). -/
  events : List (BitVec 64) := []
  /-- frame in which it entered LOW_POWER (07 R192). -/
  sleptAt : Nat := 0
  /-- power-saving mode permitted (07 R192). -/
  mode : Nat := 0
  /-- low-power interval, frames (07 R192). -/
  interval : Nat := 8
  /-- Sleep_Allow ON was the last sent (07 R192). -/
  allowOn : Bool := false
  /-- frame that carried the Sleep_Allow OFF of a wake under way (07 R193). -/
  wakeFrame : Option Nat := none
  /-- a wake request waits for the next frame (07 R193). -/
  wakeReq : Bool := false
  /-- frame of the last wake request that met the terminal IN_SERVICE (07 R193). -/
  wokeAt : Option Nat := none
  /-- last frame in which a downstream queue of the terminal held a frame (07 R192). -/
  lastDsFrame : Nat := 0
  /-- effect frame of an accepted delete (08 R217). -/
  delAt : Option Nat := none
  /-- line quality of the terminal (06 R165). -/
  pm : PmObj := {}
  /-- OMCC port (its ONU-ID by the standards) (06 R160). -/
  omccPort : Nat := 0
  /-- crucible slot of the MSK given by CMD_PON_MSK (12 R338). -/
  msk : Option Nat := none
  /-- upstream key index the active unit last reported by SYNC (17 R431). -/
  syncKey : Nat := 0
  deriving DecidableEq, Repr

/-- One legacy circuit (R152-R159). -/
structure Circuit where
  /-- terminal (06 R157). -/
  tid : Nat := 0
  /-- circuit port (06 R157). -/
  port : Nat := 0
  /-- upstream allocation (06 R157). -/
  aid : Nat := 0
  /-- pseudowire label or port (06 R157). -/
  pw : BitVec 32 := 0
  /-- SAToP payload bytes (06 R158). -/
  payload : Nat := 256
  /-- jitter buffer depth, ms (06 R158). -/
  jbMs : Nat := 4
  /-- sequence of the last container, none while restarting (06 R155). -/
  rxSeq : Option Nat := none
  /-- sequence of the next container sent (06 R152). -/
  txSeq : Nat := 0
  /-- packet network: 0 and 1 MPLS with one or two labels, 2 and 3 UDP over IPv4 or IPv6 (06 Table 6-5). -/
  psn : Nat := 0
  /-- upstream bits gathered for the next SAToP packet, none where the container was lost or carried AIS (06 R159). -/
  upBits : List (Option Bool) := []
  /-- jitter buffer, none for a bit without valid input (06 R159). -/
  jb : List (Option Bool) := []
  /-- play in progress (false while refilling to T) (06 R159). -/
  jbPlay : Bool := false
  /-- SAToP sequence sent (06 R158). -/
  pwSeqTx : Nat := 0
  /-- SAToP sequence last received (06 R158). -/
  pwSeqRx : Option Nat := none
  /-- pseudowire in packet loss (R bit) (06 R158). -/
  pwLoss : Bool := false
  /-- effect frame of an accepted delete (06 R157). -/
  delAt : Option Nat := none
  deriving DecidableEq, Repr

/-- Parameters of Table 8-1. -/
structure AllocParams where
  /-- service domain (08 R196). -/
  sdom : Nat := 0
  /-- 0 FIXED, 1 ASSURED, 2 NONASSURED, 3 BEST (08 R196). -/
  typ : Nat := 0
  /-- fixed_rate (08 R196). -/
  fixed : Nat := 0
  /-- assured_rate (08 R196). -/
  assured : Nat := 0
  /-- peak_rate (08 R196). -/
  peak : Nat := 0
  /-- weight (08 R196). -/
  weight : Nat := 16
  /-- burst_cap (08 R196). -/
  cap : Nat := 0
  /-- report_mode (08 R196). -/
  nonStatus : Bool := false
  /-- period (08 R196). -/
  period : Nat := 1
  /-- latency_class (08 R196). -/
  cls : Nat := 2
  /-- safety (08 R196). -/
  safety : Bool := false
  /-- follow_me (08 R196). -/
  fm : Bool := false
  deriving DecidableEq, Repr

/-- One allocation (chapter 08). -/
structure Alloc where
  /-- terminal (08 R196). -/
  tid : Nat := 0
  /-- parameters in force (08 R196). -/
  p : AllocParams := {}
  /-- accepted changes: effect build frame, parameters, phase (08 R216). -/
  next : List (Nat × AllocParams × Nat) := []
  /-- phase (08 R198). -/
  phase : Nat := 0
  /-- Alloc-ID (08 R199). -/
  allocId : Nat := 0
  /-- first build frame that sees the allocation (08 R216). -/
  startAt : Nat := 0
  /-- effect build frame of an accepted delete (08 R217). -/
  delAt : Option Nat := none
  /-- remainder carried to the next service (08 R198). -/
  rem : Nat := 0
  /-- last report: frame and bytes (08 R203). -/
  report : Option (Nat × Nat) := none
  /-- frames and bytes granted since the report frame (08 R203). -/
  grants : List (Nat × Nat) := []
  /-- consecutive services granted without a report decoded (08 R203). -/
  noReport : Nat := 0
  /-- bytes of the last grant (08 R204). -/
  lastGrant : Nat := 0
  /-- bytes of the last grant whose burst was decoded, and those of them that it used (08 R204). -/
  used : Option (Nat × Nat) := none
  /-- frame of the last grant (08 R205). -/
  lastFrame : Nat := 0
  /-- owed a poll grant (08 R205). -/
  owed : Bool := true
  /-- fm_assured (08 R206). -/
  fmA : Nat := 0
  /-- fm_peak (08 R206). -/
  fmP : Nat := 0
  /-- last demand (08 Table 8-5). -/
  lastDemand : Nat := 0
  deriving DecidableEq, Repr

/-- One link of a route (R225). -/
structure FmLink where
  /-- end of this route: false low, true high (09 R225). -/
  high : Bool := false
  /-- linked route (09 R225). -/
  route : Nat := 0
  /-- entry direction: false forward, true reverse (09 R225). -/
  rev : Bool := false
  /-- entry chainage, cm (09 R225). -/
  atT : Nat := 0
  deriving DecidableEq, Repr

/-- One route (R225). -/
structure FmRoute where
  /-- length_cm (09 R225). -/
  len : Nat := 0
  /-- links (09 R225). -/
  links : List FmLink := []
  deriving DecidableEq, Repr

/-- One coverage cell (R226). -/
structure FmCell where
  /-- route (09 R226). -/
  route : Nat := 0
  /-- start_cm (09 R226). -/
  lo : Nat := 0
  /-- end_cm (09 R226). -/
  hi : Nat := 0
  /-- floor profile (09 R226). -/
  floor : Nat := 0
  /-- terminals (09 R226). -/
  tids : List Nat := []
  deriving DecidableEq, Repr

/-- One entry of a train profile (R227). -/
structure FmEntry where
  /-- domain (09 R227). -/
  sdom : Nat := 0
  /-- up_assured (09 R227). -/
  upA : Nat := 0
  /-- up_peak (09 R227). -/
  upP : Nat := 0
  /-- down_assured (09 R227). -/
  dnA : Nat := 0
  /-- down_peak (09 R227). -/
  dnP : Nat := 0
  deriving DecidableEq, Repr

/-- One train profile (R227). -/
structure FmProfile where
  /-- v_max (09 R227). -/
  vMax : Nat := 5556
  /-- v_rev (09 R227). -/
  vRev : Nat := 200
  /-- lead_time_ms (09 R227). -/
  lead : Nat := 4000
  /-- entries (09 R227). -/
  entries : List FmEntry := []
  deriving DecidableEq, Repr

/-- A position report (Table 9-2). -/
structure FmReport where
  /-- system train ID (09 R229). -/
  train : Nat := 0
  /-- direction (09 R229). -/
  dir : Nat := 0
  /-- reposition (09 R229). -/
  repos : Bool := false
  /-- route (09 R229). -/
  route : Nat := 0
  /-- accuracy, cm (09 R229). -/
  acc : Nat := 0
  /-- chainage, cm (09 R229). -/
  c : Nat := 0
  /-- speed, cm/s (09 R229). -/
  speed : Nat := 0
  /-- timestamp nanoseconds (09 R229). -/
  ns : Nat := 0
  /-- timestamp seconds (09 R229). -/
  sec : Nat := 0
  deriving DecidableEq, Repr

/-- One interval of a drift band (R235, R237). -/
structure FmBandIv where
  /-- route (09 R237). -/
  route : Nat := 0
  /-- low edge, cm (09 R235). -/
  lo : Int := 0
  /-- high edge, cm (09 R235). -/
  hi : Int := 0
  deriving DecidableEq, Repr

/-- One train slot (R228, R243). -/
structure FmTrain where
  /-- system train ID (09 R228). -/
  train : Nat := 0
  /-- profile in force (09 R228). -/
  profile : Nat := 0
  /-- profile of a later bind, in force from the next band publication (09 R228). -/
  profNext : Option Nat := none
  /-- state, Table 9-5 (09 R243). -/
  st : TrainState := .free
  /-- last accepted report (09 R234). -/
  last : Option FmReport := none
  /-- raw instant of its acceptance (09 R243). -/
  lastAt : BitVec 64 := 0
  /-- raw instant at which a report was last processed (09 R231). -/
  procAt : Option (BitVec 64) := none
  /-- held report (09 R231). -/
  held : Option FmReport := none
  /-- newest report kept by the lead tile (09 R248). -/
  kept : Option FmReport := none
  /-- raw instant of the loss (09 R244). -/
  lostAt : BitVec 64 := 0
  /-- published band (09 R237). -/
  band : List FmBandIv := []
  /-- head edges of the previous publication: route and position (09 R246). -/
  headPrev : List (Nat × Int) := []
  /-- events fired and not yet armed again (09 R246). -/
  fired : List Nat := []
  /-- cell parts engaged: 8 x cell + tile, and the raw instant of engagement (09 R238). -/
  engaged : List (Nat × BitVec 64) := []
  /-- cell parts under floor hold (09 R244). -/
  floor : List Nat := []
  /-- pre-engaged parts and the raw end of hold_s (09 R246). -/
  pre : List (Nat × BitVec 64) := []
  /-- terminals that a wake request of its events found unavailable (07 R193). -/
  unavail : List Nat := []
  /-- next report is the first of the slot or the first after LOST (09 R233). -/
  firstRep : Bool := true
  deriving DecidableEq, Repr

/-- One position event (R246). -/
structure FmEvent where
  /-- route (09 R246). -/
  route : Nat := 0
  /-- chainage point, cm (09 R246). -/
  c : Nat := 0
  /-- direction filter: 0 either, 1 forward, 2 reverse (09 R246). -/
  dir : Nat := 0
  /-- 0 WAKE, 1 PRE_ENGAGE, 2 NOTIFY (09 R246). -/
  act : Nat := 0
  /-- TID, cell or tag (09 R246). -/
  arg : Nat := 0
  /-- hold_s (09 R246). -/
  hold : Nat := 60
  deriving DecidableEq, Repr

/-- One telegram source (R230). -/
structure FmSource where
  /-- erases of the slot when it was bound (13 R346). -/
  slotW : Nat := 0
  /-- enabled (09 R230). -/
  enabled : Bool := false
  /-- crucible slot bound (09 R230). -/
  slot : Nat := 0
  /-- UDP port (09 R230). -/
  port : Nat := 0
  /-- last sequence accepted since the package reset, if any (09 R230). -/
  seq : Option Nat := none
  deriving DecidableEq, Repr

/-- Follow-me values of one evaluation (R240 to R245). -/
structure FmVals where
  /-- frame from which they are in force (09 R241). -/
  atT : Nat := 0
  /-- allocation, fm_assured, fm_peak (09 R240). -/
  allocs : List (Nat × Nat × Nat) := []
  /-- node, committed and peak bytes per frame (09 R242). -/
  nodes : List (Nat × Nat × Nat) := []
  /-- allocation, train, cell, bytes per frame withheld (09 R245). -/
  clips : List (Nat × Nat × Nat × Nat) := []
  deriving DecidableEq, Repr

/-- The follow-me unit (chapter 09). -/
structure FmState where
  /-- routes (09 R225). -/
  routes : List (Nat × FmRoute) := []
  /-- coverage cells (09 R226). -/
  cells : List (Nat × FmCell) := []
  /-- profiles that differ from the default (09 R227). -/
  profiles : List (Nat × FmProfile) := []
  /-- train slots not FREE (09 R228). -/
  trains : List (Nat × FmTrain) := []
  /-- position events (09 R246). -/
  events : List (Nat × FmEvent) := []
  /-- values evaluated and not yet in force (09 R241). -/
  vals : List FmVals := []
  /-- accepted cell changes: effect frame, cell, new value (09 R250). -/
  cellNext : List (Nat × Nat × Option FmCell) := []
  /-- accepted profile changes (09 R250). -/
  profNext : List (Nat × Nat × FmProfile) := []
  /-- accepted event changes (09 R250). -/
  evNext : List (Nat × Nat × Option FmEvent) := []
  /-- telegram sources (09 R230). -/
  sources : List (Nat × FmSource) := []
  /-- admission counter (09 R231). -/
  adm : Nat := 2000
  /-- raw instant of its last refill (09 R231). -/
  admAt : BitVec 64 := 0
  /-- second after the last OVERLOAD rejection, 0 none (09 FM_STATUS). -/
  overSec : Nat := 0
  /-- second after the last NO_SLOT rejection, 0 none (09 FM_STATUS). -/
  noSlotSec : Nat := 0
  /-- contributions reduced: allocation, train, cell, bytes per frame (09 R245). -/
  clips : List (Nat × Nat × Nat × Nat) := []
  /-- rates in force: node, committed and peak bytes per frame (09 R242). -/
  nodes : List (Nat × Nat × Nat) := []
  /-- FM_CFG as the last band publication found it (09 FM_CFG). -/
  cfg : BitVec 32 := 0x001E07D0#32
  /-- FM_BAND_CFG as the last band publication found it (09 FM_BAND_CFG). -/
  bandCfg : BitVec 32 := 0x138807D0#32
  /-- FM_LOST_CFG as the last band publication found it (09 FM_LOST_CFG). -/
  lostCfg : BitVec 32 := 0x8000012C#32
  /-- raw instant of the last clip notification per 1024 x cell + train (09 R245). -/
  clipTold : List (Nat × BitVec 64) := []
  deriving DecidableEq, Repr

/-- One table entry (R260). -/
structure TEntry where
  /-- key, 32 bytes (10 R260). -/
  key : List (BitVec 8) := []
  /-- action, 24 bytes (10 R260). -/
  act : List (BitVec 8) := []
  /-- age stamp (10 R261). -/
  stamp : Nat := 0
  /-- static (10 R261). -/
  static : Bool := false
  /-- learned (10 R261). -/
  learned : Bool := false
  /-- owner kind: 0 none, 1 tree, 2 uplink sub-port, 3 terminal (10 R261). -/
  okind : Nat := 0
  /-- owner handle (10 R261). -/
  owner : Nat := 0
  /-- raw instant of the last learn of the entry (10 R274). -/
  seq : BitVec 64 := 0
  /-- tiles whose copy lost the learned entry at a reset, one bit each (01 R25). -/
  off : Nat := 0
  deriving DecidableEq, Repr

/-- One exact-match table (R264), the copy of its home tiles. -/
structure Table where
  /-- tile set, bit t for tile t (10 R264). -/
  tiles : Nat := 0
  /-- log2 of the buckets (10 R264). -/
  n : Nat := 4
  /-- seed in use (10 R264). -/
  seed : BitVec 32 := 0
  /-- owner SDOM or 0xFFFF (10 R264). -/
  owner : Nat := 65535
  /-- epoch (10 R272). -/
  epoch : Nat := 0
  /-- entries by 4 x bucket + slot (10 R267). -/
  slots : List (Nat × TEntry) := []
  /-- raw instant of the last epoch tick (10 R272). -/
  sweepAt : BitVec 64 := 0
  /-- CLS_TABLE_AGE as the last tick found it (10 CLS_TABLE_AGE). -/
  cfg : BitVec 32 := 0x07D0960C#32
  /-- keys that the host changed in the frame named with them (10 R275). -/
  hostKeys : List (List (BitVec 8) × Nat) := []
  deriving DecidableEq, Repr

/-- One key profile (R255). -/
structure KeyProfile where
  /-- table (10 R255). -/
  table : Nat := 0
  /-- extractors: field, key offset, field offset, length, mask (10 R255). -/
  exts : List (Nat × Nat × Nat × Nat × Nat) := []
  /-- learn flag (10 R255). -/
  learn : Bool := false
  /-- learn template (10 R255). -/
  tmpl : List (BitVec 8) := []
  deriving DecidableEq, Repr

/-- One lookup list (R256). -/
structure LookupList where
  /-- key profiles in order (10 R256). -/
  profiles : List Nat := []
  /-- default action (10 R256). -/
  dflt : List (BitVec 8) := []
  deriving DecidableEq, Repr

/-- One spread group (R277). -/
structure SpreadGroup where
  /-- members: kind (0 sub-port, 1 exception queue) and handle (10 R277). -/
  members : List (Nat × Nat) := []
  /-- indirection table as configured (10 R277). -/
  indir : List Nat := []
  /-- indirection table in force (10 R278). -/
  live : List Nat := []
  /-- field set, bits in the order of R277 (10 R277). -/
  fields : Nat := 0
  /-- Toeplitz key (10 R277). -/
  key : List (BitVec 8) := []
  deriving DecidableEq, Repr

/-- One mirror session (R263). -/
structure Mirror where
  /-- forward kind QUEUE, UPLINK or EXCEPTION (10 R263). -/
  kind : Nat := 0
  /-- forward target (10 R263). -/
  target : Nat := 0
  /-- truncation length, 0 whole (10 R263). -/
  trunc : Nat := 0
  deriving DecidableEq, Repr

/-- First-pass binding of an uplink sub-port (R254). -/
structure PortBind where
  /-- lookup list (10 R254). -/
  lookup : Option Nat := none
  /-- mirror session (10 R254). -/
  mirror : Nat := 0
  /-- default SDOM (10 R254). -/
  sdom : Nat := 0
  deriving DecidableEq, Repr

/-- A learn waiting in a tile's queue (R270). -/
structure Learn where
  /-- table (10 R270). -/
  table : Nat := 0
  /-- key (10 R270). -/
  key : List (BitVec 8) := []
  /-- action from the learn template (10 R270). -/
  act : List (BitVec 8) := []
  /-- owner kind (10 R270). -/
  okind : Nat := 0
  /-- owner (10 R270). -/
  owner : Nat := 0
  /-- raw instant of the learn (10 R274). -/
  atT : BitVec 64 := 0
  deriving DecidableEq, Repr

/-- An open search cursor (R282). -/
structure Cursor where
  /-- table (10 R282). -/
  table : Nat := 0
  /-- next position of the walk (10 R282). -/
  pos : Nat := 0
  /-- value (10 R281). -/
  value : List (BitVec 8) := []
  /-- mask (10 R281). -/
  mask : List (BitVec 8) := []
  /-- raw instant of the last reply (10 R282). -/
  lastAt : BitVec 64 := 0
  deriving DecidableEq, Repr

/-- A frame waiting for its second pass (R259). -/
structure Waiting where
  /-- ingress kind of the first pass (10 R253). -/
  ingKind : Nat := 0
  /-- ingress handle of the first pass (10 R253). -/
  ing : Nat := 0
  /-- GEM or XGEM port (10 R253). -/
  gem : Nat := 0
  /-- TID (10 R253). -/
  tid : Nat := 0
  /-- AID of the burst (10 R253). -/
  aid : Nat := 0
  /-- lookup list of the second pass (10 R259). -/
  list : Nat := 0
  /-- SDOM decided by the first pass (10 R259). -/
  sdom : Nat := 0
  /-- frame with the first pass's tag edits (10 R259). -/
  frame : List (BitVec 8) := []
  /-- action merged by the first pass (10 R259). -/
  acts : List (BitVec 8) := []
  /-- first-pass hit map (10 R253). -/
  hits : Nat := 0
  deriving DecidableEq, Repr

/-- Classifier of one tile (chapter 10). -/
structure ClsTile where
  /-- overflow store: position, table, entry (10 R266). -/
  overflow : List (Nat × Nat × TEntry) := []
  /-- learn queue (10 R270). -/
  learns : List Learn := []
  /-- frames waiting for a second pass in pipe 0 (10 R259). -/
  recirc0 : List Waiting := []
  /-- frames waiting for a second pass in pipe 1 (10 R259). -/
  recirc1 : List Waiting := []
  /-- exception queues: queue 0-15, head pointer and frame, oldest first (10 R260). -/
  excQ : List (Nat × Nat × List (BitVec 8)) := []
  deriving DecidableEq, Repr

/-- Table-access window (R283). -/
structure Tac where
  /-- busy (10 TAC_STATUS). -/
  busy : Bool := false
  /-- W1C collision (10 TAC_STATUS). -/
  collision : Bool := false
  /-- found (10 TAC_STATUS). -/
  found : Bool := false
  /-- replaced (10 TAC_STATUS). -/
  replaced : Bool := false
  /-- evicted (10 TAC_STATUS). -/
  evicted : Bool := false
  /-- result (10 TAC_STATUS). -/
  result : Nat := 0
  /-- TAC_INDEX (10 TAC_INDEX). -/
  index : BitVec 32 := 0
  /-- TAC_KEY0-7 (10 TAC_KEY). -/
  key : List (BitVec 8) := zeroBytes 32
  /-- TAC_ACT0-5 (10 TAC_ACT). -/
  act : List (BitVec 8) := zeroBytes 24
  /-- TAC_META0-1 (10 TAC_META). -/
  metad : List (BitVec 8) := zeroBytes 8
  deriving DecidableEq, Repr

/-- A frame held in a queue (R285, R294, R303). -/
structure QFrame where
  /-- head pointer (11 R285). -/
  ptr : Nat := 0
  /-- frame (11 R285). -/
  bytes : List (BitVec 8) := []
  /-- length in bytes (11 R285). -/
  len : Nat := 0
  /-- colour (11 R294). -/
  color : Color := .green
  /-- raw target of its launch time (R119) (11 R303). -/
  launch : Option (BitVec 64) := none
  deriving DecidableEq, Repr

/-- One shaper (R296). -/
structure Shaper where
  /-- packet mode (11 R299). -/
  pkt : Bool := false
  /-- cir, kb/s or packets/s (11 R296). -/
  cir : Nat := 0
  /-- pir (11 R296). -/
  pir : Nat := 0
  /-- cbs (11 R296). -/
  cbs : Nat := 64
  /-- pbs (11 R296). -/
  pbs : Nat := 64
  /-- overhead, -64 to +63 (11 R298). -/
  overhead : Int := 0
  /-- reset_policy: false ZERO, true FULL (11 R300). -/
  full : Bool := false
  /-- committed level, in 2^-16 units (11 R297). -/
  cLvl : Int := 0
  /-- peak level, in 2^-16 units (11 R297). -/
  pLvl : Int := 0
  /-- kb/s added to cir by follow-me (09 R242). -/
  fmC : Nat := 0
  /-- kb/s added to pir by follow-me (09 R242). -/
  fmP : Nat := 0
  /-- raw instant of the last refill (11 R296). -/
  atT : BitVec 64 := 0
  /-- tile whose 24 576 it comes from (11 R296). -/
  tile : Nat := 0
  deriving DecidableEq, Repr

/-- A shaper setting waiting for its frame boundary (R300). -/
structure ShaperCfg where
  /-- effect frame (11 R309). -/
  atT : Nat := 0
  /-- queue or node key (11 R296). -/
  target : Nat := 0
  /-- detach (11 R296). -/
  detach : Bool := false
  /-- new setting (11 R296). -/
  cfg : Shaper := {}
  deriving DecidableEq, Repr

/-- One queue (R292). -/
structure Queue where
  /-- downstream queue (11 R292). -/
  down : Bool := true
  /-- TID of a downstream queue (11 R293). -/
  tid : Nat := 0
  /-- SDOM of a downstream queue (11 R293). -/
  sdom : Nat := 0
  /-- sub-port of an uplink-side queue (11 R293). -/
  subport : Nat := 0
  /-- group of an uplink-side queue (11 R293). -/
  group : Nat := 0
  /-- class (11 R292). -/
  cls : Nat := 0
  /-- max_cells (11 R292). -/
  maxCells : Nat := 1024
  /-- yellow_pct (11 R292). -/
  yellow : Nat := 50
  /-- red_pct (11 R292). -/
  red : Nat := 25
  /-- strict (11 R292). -/
  strict : Bool := false
  /-- weight (11 R292). -/
  weight : Nat := 16
  /-- priv (11 R292). -/
  priv : Bool := false
  /-- launch mode (11 R292). -/
  launch : Nat := 0
  /-- launch_offset_ns (11 R292). -/
  launchOfs : Nat := 0
  /-- late_tolerance_ns (11 R292). -/
  lateTol : Nat := 10000
  /-- gated (11 R292). -/
  gated : Bool := false
  /-- frames, oldest first (11 R294). -/
  frames : List QFrame := []
  /-- deficit of its round robin (11 R295). -/
  deficit : Int := 0
  /-- effect frame of its creation (11 R309). -/
  startAt : Nat := 0
  /-- effect frame of an accepted delete (11 R310). -/
  delAt : Option Nat := none
  /-- accepted modifies: effect frame and parameters (11 R309). -/
  next : List (Nat × List Nat) := []
  deriving DecidableEq, Repr

/-- One node of a hierarchy (R293). -/
structure Node where
  /-- weight (11 R295). -/
  weight : Nat := 16
  /-- deficit of its round robin at its parent (11 R295). -/
  deficit : Int := 0
  /-- accepted CMD_NODE_CONFIG: effect frame and weight (11 R309). -/
  next : List (Nat × Nat) := []
  /-- child served last at stage 2 (11 R295). -/
  rrC : Nat := 0
  /-- child served last at stage 3 (11 R295). -/
  rrP : Nat := 0
  deriving DecidableEq, Repr

/-- One meter (R301). -/
structure Meter where
  /-- packet mode (11 R299). -/
  pkt : Bool := false
  /-- cir (11 R301). -/
  cir : Nat := 0
  /-- pir (11 R301). -/
  pir : Nat := 0
  /-- cbs (11 R301). -/
  cbs : Nat := 64
  /-- pbs (11 R301). -/
  pbs : Nat := 64
  /-- overhead (11 R301). -/
  overhead : Int := 0
  /-- colour-aware (11 R301). -/
  aware : Bool := false
  /-- red action: false DROP, true MARK (11 R302). -/
  mark : Bool := false
  /-- mark_dei (11 R302). -/
  dei : Bool := false
  /-- committed level, 2^-16 units (11 R301). -/
  cLvl : Int := 0
  /-- peak level, 2^-16 units (11 R301). -/
  pLvl : Int := 0
  /-- raw instant of the last refill (11 R301). -/
  atT : BitVec 64 := 0
  /-- tile whose 32 768 it comes from (11 R301). -/
  tile : Nat := 0
  deriving DecidableEq, Repr

/-- Gate schedule of a sub-port (R307). -/
structure Gate where
  /-- cycle, ns (11 R307). -/
  cycle : Nat := 10000
  /-- raw target of the base time, moved on to the start of the cycle in force (11 R307, 05 R119). -/
  anchor : BitVec 64 := 0
  /-- durations in ns and open masks (11 R307). -/
  entries : List (Nat × Nat) := []
  deriving DecidableEq, Repr

/-- Ownership of one stored frame (R290). -/
structure PoolFrame where
  /-- cell numbers, head first (the link memory) (11 R285). -/
  cells : List Nat := []
  /-- owner count (11 R290). -/
  count : Nat := 1
  /-- last owner, Table 11-2 (11 R290). -/
  last : Nat := 0
  /-- the last owner has not released yet (11 R290). -/
  lastHeld : Bool := true
  deriving DecidableEq, Repr

/-- Buffer pool of one tile (chapter 11). -/
structure Pool where
  /-- cells pushed back, head of the free list first (11 R286). -/
  freed : List Nat := []
  /-- first cell never taken since the list was built; cells from here on end the free list (11 R286). -/
  fresh : Nat := 0
  /-- frames stored, by head pointer (11 R290). -/
  frames : List (Nat × PoolFrame) := []
  /-- RC fewest free cells (11 BPM_MIN_FREE). -/
  minFree : Nat := 262144
  /-- W1C valid (11 BPM_BAD_INFO). -/
  badValid : Bool := false
  /-- first refused pointer (11 BPM_BAD_PTR). -/
  badPtr : BitVec 32 := 0
  /-- releasing party (11 BPM_BAD_INFO). -/
  badParty : Nat := 0
  /-- reason (11 BPM_BAD_INFO). -/
  badReason : Nat := 0
  deriving DecidableEq, Repr

/-- One SecY (R312-R315). -/
structure SecY where
  /-- sub-port (12 R312). -/
  subport : Nat := 0
  /-- SecY index of the sub-port, 0-15 (12 R312). -/
  index : Nat := 0
  /-- peer MAC address of a virtual port (12 R312). -/
  peer : Nat := 0
  /-- validateFrames (12 R314). -/
  validate : Validate := .strict
  /-- replayProtect (12 R314). -/
  replay : Bool := true
  /-- replayWindow (12 R314). -/
  window : Nat := 0
  /-- protectFrames (12 R314). -/
  protect : Bool := true
  /-- confidentiality (12 R314). -/
  conf : Bool := true
  /-- confidentialityOffset (12 R314). -/
  offset : Nat := 0
  /-- SCI in SecTAG (12 R314). -/
  sciAlways : Bool := true
  /-- suite, 0-3 in the order of Table 12-2 (12 R314). -/
  suite : Nat := 0
  /-- further uncontrolled EtherTypes (12 R315). -/
  extra : List Nat := []
  /-- CAK slot bound (12 R327). -/
  cak : Option Nat := none
  /-- erases of the slot when it was bound (13 R343). -/
  cakGen : Nat := 0
  /-- CKN (12 R326). -/
  ckn : List (BitVec 8) := []
  /-- key server priority (12 R326). -/
  prio : Nat := 16
  /-- MKA running (12 R327). -/
  mka : Bool := false
  /-- derived ICK held by the crucible (12 R327). -/
  ick : Option (List (BitVec 8)) := none
  /-- derived KEK held by the crucible (12 R327). -/
  kek : Option (List (BitVec 8)) := none
  /-- live peers: SCI and raw instant of the last MKPDU accepted (12 R326). -/
  peers : List (Nat × BitVec 64) := []
  /-- key server priorities of the live peers, by SCI (12 R326). -/
  prios : List (Nat × Nat) := []
  /-- message number of the last MKPDU sent (12 R326). -/
  mn : Nat := 0
  /-- this SecY is key server (12 R326). -/
  server : Bool := false
  deriving DecidableEq, Repr

/-- One secure channel (R312). -/
structure SecChan where
  /-- SecY (12 R312). -/
  secy : Nat := 0
  /-- transmit SC (12 R312). -/
  tx : Bool := false
  /-- SCI (12 R312). -/
  sci : Nat := 0
  /-- rekey request raised for the generation in force (12 R323). -/
  asked : Bool := false
  deriving DecidableEq, Repr

/-- A queued install (R317). -/
structure Install where
  /-- job awaiting completion, 0 when MKA queued it (12 R317). -/
  job : Nat := 0
  /-- AN (12 R317). -/
  an : Nat := 0
  /-- key (12 R317). -/
  key : List (BitVec 8) := []
  /-- lowest acceptable PN of a receive SA (12 R317). -/
  pn : Nat := 0
  /-- persistent slot (12 R317). -/
  src : Option Nat := none
  /-- SSCI (12 R317). -/
  ssci : Nat := 0
  /-- salt (12 R317). -/
  salt : List (BitVec 8) := []
  deriving DecidableEq, Repr

/-- One SA slot (R316-R319). -/
structure SaSlot where
  /-- state, Table 12-3 (12 R316). -/
  st : SaState := .empty
  /-- AN (12 R317). -/
  an : Nat := 0
  /-- key, master copy in the crucible (12 R317). -/
  key : List (BitVec 8) := []
  /-- working copy present in the cipher array (13 R349). -/
  loaded : Bool := false
  /-- key generation (12 R318). -/
  gen : Nat := 0
  /-- transmit: next PN (12 R318). -/
  pn : Nat := 1
  /-- transmit: PN bound (12 R319). -/
  bound : Nat := 0
  /-- receive: lowest acceptable PN (12 R317). -/
  low : Nat := 1
  /-- receive: highest PN validated, as reported to the crucible (12 R319). -/
  top : Nat := 0
  /-- receive: highest PN validated (12 R319). -/
  best : Nat := 0
  /-- persistent slot it was installed from (12 R317). -/
  src : Option Nat := none
  /-- write generation of that slot at the install (12 R319). -/
  srcGen : Nat := 0
  /-- SSCI (12 R317). -/
  ssci : Nat := 0
  /-- salt (12 R317). -/
  salt : List (BitVec 8) := []
  /-- raw end of RETIRING (12 R322). -/
  retireEnd : BitVec 64 := 0
  /-- install count, larger is newer (12 R322). -/
  newer : Nat := 0
  /-- install queued behind RETIRING (12 R317). -/
  queued : Option Install := none
  /-- F2 fault of an EXHAUSTED SA is up (12 R324). -/
  flt : Bool := false
  deriving DecidableEq, Repr

/-- PON keys of one terminal (R333-R336). -/
structure PonKey where
  /-- slot 0 (12 R333). -/
  key0 : Option (List (BitVec 8)) := none
  /-- slot 1 (12 R333). -/
  key1 : Option (List (BitVec 8)) := none
  /-- working copies present (13 R349). -/
  loaded : Bool := true
  /-- slot in use downstream (12 R336). -/
  use : Option Nat := none
  /-- slot written and waiting for the switch (12 R336). -/
  pendSlot : Option Nat := none
  /-- frame of the switch (G: superframe; X, F: after Acknowledge) (12 R336). -/
  switchAt : Option Nat := none
  /-- raw instant at which the old slot is zeroised (X, F) (12 R336). -/
  zeroAt : Option (BitVec 64) := none
  /-- frame at which the old slot is zeroised (G) (12 R336). -/
  zeroFrame : Option Nat := none
  /-- old slot awaiting zeroisation (12 R336). -/
  oldSlot : Option Nat := none
  /-- requests sent in the exchange in progress, 0 none (12 R336). -/
  req : Nat := 0
  /-- raw instant of the last request (12 R336). -/
  reqAt : BitVec 64 := 0
  /-- key fragments received (12 R334). -/
  frags : List (Nat × List (BitVec 8)) := []
  /-- frame of the first fragment (12 R334). -/
  fragFrame : Nat := 0
  /-- raw instant of the next renewal (12 R336). -/
  nextRoll : BitVec 64 := 0
  /-- pon_rekey_s set for the terminal (12 R336). -/
  rekeyS : Option Nat := none
  /-- MSK (12 R335). -/
  mskKey : Option (List (BitVec 8)) := none
  /-- OMCI integrity key (12 R335). -/
  omciKey : Option (List (BitVec 8)) := none
  /-- KEK (12 R335). -/
  kek : Option (List (BitVec 8)) := none
  /-- persistent slot named by CMD_PON_MSK (12 R335). -/
  mskSlot : Nat := 0
  deriving DecidableEq, Repr

/-- MACsec objects (chapter 12). -/
structure MsecState where
  /-- SecYs by handle (12 R312). -/
  secys : List (Nat × SecY) := []
  /-- SCs by handle (12 R312). -/
  scs : List (Nat × SecChan) := []
  /-- SA slots not EMPTY or with a generation, by handle (12 R316). -/
  sas : List (Nat × SaSlot) := []
  /-- SecY index of the uplink-side groups, by 64 x sub-port + group (12 R313). -/
  groupSecy : List (Nat × Nat) := []
  /-- transit paths by 128 x ingress + egress: true SAF (12 R329). -/
  transit : List (Nat × Bool) := []
  /-- XPN watermark in force (last write of MSEC_PN_WMX_LO) (12 R323). -/
  wmx : BitVec 64 := 0xFFFFFFFF00000000#64
  /-- installs made, orders SAs by age (12 R322). -/
  installs : Nat := 0
  /-- pon_rekey_s per channel where set (12 R336). -/
  ponRekey : List (Nat × Nat) := []
  deriving DecidableEq, Repr

/-- One persistent slot (R344, R345). -/
structure PSlot where
  /-- kind, Table 13-3 (13 R344). -/
  kind : Nat := 0
  /-- key, unsealed in this boot (13 R345). -/
  key : List (BitVec 8) := []
  /-- generation of the last write since the last transition (13 R345). -/
  gen : Nat := 0
  /-- written since the last transition (13 R345). -/
  written : Bool := false
  /-- key wrapped under the seal key, as the eMRAM holds it (13 R342). -/
  sealed : List (BitVec 8) := []
  /-- STALE (13 R343). -/
  stale : Bool := false
  /-- erases made of the slot; a binding remembers the count (13 R346). -/
  wcount : Nat := 0
  /-- recorded PN bound (12 R319). -/
  pnBound : Option Nat := none
  deriving DecidableEq, Repr

/-- The crucible (chapter 13). -/
structure CrucibleState where
  /-- life-cycle state (13 R350). -/
  life : Life := .blank
  /-- image scheme: true ML-DSA-87 (13 CRU_STATE). -/
  scheme : Bool := false
  /-- root secret (13 R339). -/
  root : Option (List (BitVec 8)) := none
  /-- crucible ready in this boot (13 CRU_STATE). -/
  ready : Bool := false
  /-- health tests passing (13 R341). -/
  entropyOk : Bool := true
  /-- transition word pending (13 R351). -/
  transition : Option Life := none
  /-- debug opened by a vendor token (13 R352). -/
  jtag : Bool := false
  /-- consecutive token failures (13 R352). -/
  tokenFails : Nat := 0
  /-- raw end of the 1 h refusal of challenges (13 R352). -/
  lockEnd : Option (BitVec 64) := none
  /-- challenge outstanding and its raw end (13 R352). -/
  challenge : Option (List (BitVec 8) × BitVec 64) := none
  /-- owner anchor (13 R339). -/
  anchor : List (BitVec 8) := zeroBytes 32
  /-- persistent slots not EMPTY or once written (13 R344). -/
  slots : List (Nat × PSlot) := []
  /-- slot staged and verified since the last package reset (13 R354). -/
  staged : Option Nat := none
  /-- slot first in the directory (03 R68). -/
  flashFirst : Nat := 0
  /-- slot first in the copy of the directory (03 R69). -/
  flashCopy : Nat := 0
  /-- free-value index of the link key of each tile (13 R349). -/
  linkKeys : List (Nat × Nat) := []
  /-- consecutive mismatches of a LOAD per volatile slot (13 R348). -/
  loadFails : List (Nat × Nat) := []
  deriving DecidableEq, Repr

/-- One check-engine page (R355-R358). -/
structure ChkPage where
  /-- state (13 CHK_PAGE_STATUS). -/
  st : ChkState := .idle
  /-- match (13 CHK_PAGE_STATUS). -/
  mtch : Bool := false
  /-- W1C collision (13 CHK_PAGE_STATUS). -/
  collision : Bool := false
  /-- error (13 CHK_PAGE_STATUS). -/
  error : Nat := 0
  /-- message bytes processed (13 CHK_PAGE_STATUS). -/
  bytes : Nat := 0
  /-- last (13 CHK_PAGE_CTRL). -/
  last : Bool := false
  /-- verify (13 CHK_PAGE_CTRL). -/
  verify : Bool := false
  /-- prio (13 CHK_PAGE_CTRL). -/
  prio : Nat := 0
  /-- tag_len (13 CHK_PAGE_CTRL). -/
  tagLen : Nat := 16
  /-- slot (13 CHK_PAGE_CTRL). -/
  slot : Nat := 0
  /-- len (13 CHK_PAGE_LEN). -/
  len : Nat := 0
  /-- tag registers (13 CHK_PAGE_MAC). -/
  mac : List (BitVec 8) := zeroBytes 16
  /-- data area (13 CHK_PAGE_DATA). -/
  data : List (BitVec 8) := zeroBytes 3840
  /-- key taken at the first chunk (13 R356). -/
  key : Option (List (BitVec 8)) := none
  /-- message bytes started so far (the chaining state) (13 R357). -/
  msg : List (BitVec 8) := []
  /-- bytes of the message processed when the page last got or left the engine (13 R357). -/
  doneLen : Nat := 0
  /-- raw instant at which the engine took the page's present run (13 R357). -/
  since : BitVec 64 := 0
  /-- order in which the chunk was started (13 R357). -/
  order : Nat := 0
  deriving DecidableEq, Repr

/-- Permissions and counter of one channel (chapter 15), channel 1-63. -/
structure Sender where
  /-- capability mask (15 R393). -/
  caps : BitVec 16 := 0
  /-- domain mask (15 R393). -/
  doms : BitVec 256 := 0
  /-- SENDER slot bound (15 R394). -/
  slot : Option Nat := none
  /-- erases of the slot when it was bound (13 R346). -/
  slotW : Nat := 0
  /-- journal ring, newest first: counter, write sequence, valid (15 R391). -/
  ring : List (Nat × Nat × Bool) := []
  /-- write sequence (15 R391). -/
  seq : Nat := 0
  /-- highest counter consumed (15 R389). -/
  consumed : Nat := 0
  /-- raw instants of the critical packets of the last second (15 R392). -/
  rate : List (BitVec 64) := []
  /-- consecutive ST_AUTH_FAIL (15 R392). -/
  authRun : Nat := 0
  /-- raw end of the 1 s refusal (15 R392). -/
  refuseEnd : Option (BitVec 64) := none
  /-- remote manager: sub-port, VLAN ID, MAC address (15 R400). -/
  remote : Option (Nat × Nat × Nat) := none
  deriving DecidableEq, Repr

/-- A message handed to a sender. -/
structure Msg where
  /-- channel (14 R371). -/
  chan : Nat := 0
  /-- reply, completion or notification, trailer included (15 R384). -/
  bytes : List (BitVec 8) := []
  deriving DecidableEq, Repr

/-- A fragment assembly in progress (R398). -/
structure Assembly where
  /-- opcode (15 R398). -/
  op : Nat := 0
  /-- tag (15 R398). -/
  tag : Nat := 0
  /-- target handle (15 R398). -/
  target : Nat := 0
  /-- critical flag (15 R398). -/
  crit : Bool := false
  /-- parameters joined so far (15 R398). -/
  params : List (BitVec 8) := []
  /-- fragments taken (15 R398). -/
  count : Nat := 0
  /-- counter of the last fragment (15 R398). -/
  lastCtr : Nat := 0
  /-- flags of the last fragment (15 R382). -/
  flags : BitVec 8 := 0
  /-- key under which the last fragment of a critical assembly verified (15 R386). -/
  key : List (BitVec 8) := []
  /-- raw instant of the last fragment (15 R398). -/
  atT : BitVec 64 := 0
  deriving DecidableEq, Repr

/-- One mailbox channel (chapter 14). -/
structure MboxChan where
  /-- message in the send area (14 R369). -/
  send : Option Packet := none
  /-- words of the send area that are not zero, by word index (14 R368). -/
  area : List (Nat × BitVec 32) := []
  /-- message in the receive area not yet taken (14 R370). -/
  recv : Option Msg := none
  /-- contents the area keeps after a take (14 R370). -/
  recvOld : List (BitVec 8) := []
  /-- undelivered messages behind the area (14 R371). -/
  queue : List Msg := []
  /-- W1C collision (14 MBX_STATUS). -/
  collision : Bool := false
  /-- W1C bad_len (14 MBX_STATUS). -/
  badLen : Bool := false
  /-- W1C notify_lost (channel 0) (14 MBX_STATUS). -/
  notifyLost : Bool := false
  /-- irq_on_free (14 MBX_CFG). -/
  irqFree : Bool := false
  /-- irq_on_recv (14 MBX_CFG). -/
  irqRecv : Bool := true
  /-- raw instant the message in the area was placed or last timed out (14 R372). -/
  placedAt : BitVec 64 := 0
  /-- the F1 of the present stall was raised (14 R372). -/
  stall : Bool := false
  /-- fragment assembly (15 R398). -/
  asm : Option Assembly := none
  deriving DecidableEq, Repr

/-- A command that returned ST_ACCEPTED or ST_PENDING (R395, R397). -/
structure Job where
  /-- job number (15 R397). -/
  id : Nat := 0
  /-- channel (15 R397). -/
  chan : Nat := 0
  /-- the command, for its completion (15 R385). -/
  pkt : Packet := {}
  /-- its trailer verified (15 R386). -/
  trailed : Bool := false
  /-- key of the trailer (15 R386). -/
  key : List (BitVec 8) := []
  /-- what it waits for (15 R397). -/
  kind : JobKind := .other
  /-- object it waits for (15 R397). -/
  obj : Nat := 0
  deriving DecidableEq, Repr

/-- A bulk transfer in progress (R377, R378). -/
structure Bulk where
  /-- the command that carries it (14 R378). -/
  job : Packet := {}
  /-- channel (14 R378). -/
  chan : Nat := 0
  /-- its trailer verified (15 R386). -/
  trailed : Bool := false
  /-- key of the trailer (15 R386). -/
  key : List (BitVec 8) := []
  /-- capabilities it was taken with (15 R394). -/
  caps : BitVec 16 := 0
  /-- domains it was taken with (15 R394). -/
  doms : BitVec 256 := 0
  deriving DecidableEq, Repr

/-- Host attachment (chapter 14). -/
structure HostState where
  /-- CXL link up (14 R365). -/
  linkUp : Bool := true
  /-- CXL alternate protocol negotiated (device memory present) (14 R360). -/
  cxl : Bool := true
  /-- W1C GLB_IRQ_CAUSE (14 GLB_IRQ_CAUSE). -/
  irq : BitVec 5 := 0
  /-- MSI-X vectors touched: masked, pending (14 R366). -/
  msix : List (Nat × Bool × Bool) := []
  /-- MSI-X enabled by the host (14 R366). -/
  msixOn : Bool := false
  /-- mailbox channels (14 R367). -/
  mbox : List (Nat × MboxChan) := []
  /-- locks held: lock and owner (14 R374). -/
  locks : List (Nat × Nat) := []
  /-- W1C bad_release (14 LCK_STATUS). -/
  lckBad : Bool := false
  /-- lock of the first ignored write (14 LCK_STATUS). -/
  lckNum : Nat := 0
  /-- writer of the first ignored write (14 LCK_STATUS). -/
  lckWriter : Nat := 0
  /-- notifications since the last package reset (15 R385). -/
  notifSeq : Nat := 0
  /-- generations of the performance, snapshot A, snapshot B and window areas (14 R364). -/
  gens : List Nat := [0, 0, 0, 0]
  /-- frame number and network time (ns) of each area's last update (14 R363). -/
  areaAt : List (Nat × Nat × Int) := []
  /-- channel the interpreter's rotation starts at (14 R371). -/
  rrNext : Nat := 1
  /-- commands awaiting completion (15 R397). -/
  jobs : List Job := []
  /-- number of the next job (15 R397). -/
  jobNo : Nat := 1
  /-- bulk transfer in progress (14 R378). -/
  bulk : Option Bulk := none
  /-- a channel was bound since the last transition (15 R387). -/
  boundOnce : Bool := false
  deriving DecidableEq, Repr

/-- One system port (chapter 16). -/
structure SysPort where
  /-- enabled for joining (16 R404). -/
  en : Bool := false
  /-- asymmetry correction, ns (16 R406). -/
  asym : Int := 0
  /-- role (16 SYS_PORT_STATUS). -/
  role : PortRole := .down
  /-- partner's system ID (16 SYS_PORT_STATUS). -/
  partner : Nat := 0
  /-- held link delay, ns (16 SYS_PORT_STATUS). -/
  delay : Nat := 0
  /-- exchanges of the bring-up measurement, ns (16 R406). -/
  delays : List Int := []
  /-- later measurements averaged (16 R406). -/
  avg : List Int := []
  /-- departure stamp of the DELAY_REQ awaiting its answer (16 R406). -/
  t1 : Option (BitVec 64) := none
  /-- partner ATTACHED or ROOT by its last HELLO (16 Table 16-2). -/
  pJoined : Bool := false
  /-- root known by the partner (16 Table 16-1). -/
  pRoot : Nat := 65535
  /-- partner's hop count (16 Table 16-1). -/
  pHops : Nat := 255
  /-- partner's root path sum, ns (16 R405). -/
  pSum : Nat := 0
  /-- lowest detached ID known by the partner (16 R414). -/
  pLow : Nat := 65535
  /-- raw instant of the last HELLO (16 R414). -/
  helloAt : BitVec 64 := 0
  /-- consecutive HELLOs missed (16 R414). -/
  miss : Nat := 0
  /-- ATTACH sent and not yet acknowledged (16 R405). -/
  asked : Bool := false
  /-- the delay has been measured since the bring-up (16 R406). -/
  measured : Bool := false
  /-- largest root path sum in the partner's subtree, ns (16 R408). -/
  pDeep : Nat := 0
  deriving DecidableEq, Repr

/-- One barrier number open on the device (R410, R411). -/
structure Barrier where
  /-- job of the entrant, 0 when none entered here (16 R410). -/
  job : Nat := 0
  /-- enclosed command (16 R410). -/
  pkt : Option Packet := none
  /-- capabilities it was taken with (15 R394). -/
  caps : BitVec 16 := 0
  /-- domains it was taken with (15 R394). -/
  doms : BitVec 256 := 0
  /-- its trailer verified (15 R386). -/
  trailed : Bool := false
  /-- key of its trailer (15 R386). -/
  key : List (BitVec 8) := []
  /-- participants, none for every member (16 R410). -/
  set : Option (List Nat) := none
  /-- timeout (16 R410). -/
  timeoutMs : Nat := 1000
  /-- arrivals of the subtree (16 R410). -/
  arrived : List Nat := []
  /-- raw instant of the first arrival (16 R411). -/
  firstAt : BitVec 64 := 0
  /-- T_rel, network-time ns (16 R410). -/
  release : Option Int := none
  /-- raw target of T_rel (05 R119). -/
  raw : BitVec 64 := 0
  deriving DecidableEq, Repr

/-- A snapshot this device requested or has to take (R412, R471). -/
structure SnapJob where
  /-- snapshot ID (16 R412). -/
  id : Nat := 0
  /-- instant T, network-time ns (16 R412). -/
  atT : Int := 0
  /-- job awaiting completion, 0 none (16 R412). -/
  job : Nat := 0
  /-- members whose SNAPSHOT_DONE arrived (16 R412). -/
  done : List Nat := []
  /-- raw instant T + T_op + 100 ms (16 R412). -/
  deadline : BitVec 64 := 0
  /-- taken for CMD_JOIN_SNAPSHOT (20 Table 20-3). -/
  join : Bool := false
  /-- periodic (20 Table 20-3). -/
  periodic : Bool := false
  /-- late mark (16 R412). -/
  late : Bool := false
  /-- raw target of the instant (05 R119). -/
  raw : BitVec 64 := 0
  /-- the capture was made or is queued (16 R412). -/
  taken : Bool := false
  deriving DecidableEq, Repr

/-- A group reset under way (R413). -/
structure GroupReset where
  /-- protection group (16 R413). -/
  group : Nat := 0
  /-- instant T, network-time ns (16 R413). -/
  atT : Int := 0
  /-- job awaiting completion, 0 none (16 R413). -/
  job : Nat := 0
  /-- member devices that reported done (16 R413). -/
  done : List Nat := []
  /-- applied here (16 R413). -/
  applied : Bool := false
  /-- raw target of the instant (05 R119). -/
  raw : BitVec 64 := 0
  /-- system ID of the device that asked (16 R413). -/
  from_ : Nat := 0
  deriving DecidableEq, Repr

/-- The joined system (chapter 16). -/
structure JoinState where
  /-- own system ID (16 SYS_STATUS). -/
  ownId : Nat := 0
  /-- member list (16 R404). -/
  members : Option (List Nat) := none
  /-- state (16 SYS_STATUS). -/
  st : JoinSt := .alone
  /-- own hop count (16 SYS_STATUS). -/
  depth : Nat := 0
  /-- parent port (16 SYS_STATUS). -/
  parent : Nat := 0
  /-- root system ID (16 SYS_STATUS). -/
  root : Nat := 0
  /-- own root path sum, ns (16 R405). -/
  sum : Nat := 0
  /-- lowest detached ID known (16 R414). -/
  low : Nat := 65535
  /-- raw instant since which no attached neighbour was seen (16 R414). -/
  detachedAt : BitVec 64 := 0
  /-- T_op, ns (16 SYS_OP_TIME_NS). -/
  tOp : Nat := 2000
  /-- members joined (16 SYS_OP_TIME). -/
  nMembers : Nat := 0
  /-- members joined below each child port (16 R408). -/
  below : List (Nat × List Nat) := []
  /-- system ports (16 SYS_PORT_STATUS). -/
  ports : List (Nat × SysPort) := []
  /-- peer system ID of channels 48-63 (16 R416). -/
  peers : List (Nat × Nat) := []
  /-- open barriers (16 R410). -/
  barriers : List (Nat × Barrier) := []
  /-- snapshots to take or awaiting their reports (16 R412). -/
  snaps : List SnapJob := []
  /-- group resets under way (16 R413). -/
  resets : List GroupReset := []
  /-- own broadcast sequence (16 R409). -/
  bcastSeq : Nat := 0
  /-- (source, sequence) pairs delivered (16 R409). -/
  seen : List (Nat × Nat) := []
  /-- accepted reports of the batch being gathered (16 R409). -/
  batch : List FmReport := []
  /-- raw instant of its first report (16 R409). -/
  batchAt : BitVec 64 := 0
  /-- next snapshot ID given as root (16 R412). -/
  snapNo : Nat := 1
  /-- departure instants of own broadcasts of the last T_op, or cut off by a re-formation (16 R409). -/
  inflight : List (BitVec 64) := []
  /-- sequence of the last message sent, per type (16 Table 16-1). -/
  seqs : List (Nat × Nat) := []
  /-- depth_refused was counted since the device was detached (16 R405). -/
  depthNoted : Bool := false
  deriving DecidableEq, Repr

/-- One protection group (R418-R438). -/
structure Group where
  /-- group_id (17 R418). -/
  gid : Nat := 0
  /-- side: true B (17 R418). -/
  sideB : Bool := false
  /-- PAIRED TILES (17 R418). -/
  tiles : Bool := false
  /-- partner system ID (17 R418). -/
  pSys : Nat := 0
  /-- partner tree (17 R418). -/
  pTree : Nat := 0
  /-- DUAL optics (17 R418). -/
  dual : Bool := false
  /-- CLAIM mode (17 R418). -/
  claim : Bool := false
  /-- claim number (17 R418). -/
  claimNo : Nat := 0
  /-- in-band sub-port (17 R418). -/
  inSub : Option Nat := none
  /-- in-band VLAN (17 R418). -/
  inVlan : Nat := 0
  /-- partner MAC (17 R418). -/
  inMac : Nat := 0
  /-- path_offset_ns (17 R418). -/
  pathOfs : Int := 0
  /-- pin_mask (17 R418). -/
  pins : BitVec 4 := 0
  /-- state, Table 17-2 (17 R420). -/
  st : GroupSt := .unpaired
  /-- lease number held or last held (17 R423). -/
  number : Nat := 0
  /-- raw instant of the last LEASE on the system link (17 R426). -/
  rxSys : Option (BitVec 64) := none
  /-- raw instant of the last LEASE in-band (17 R426). -/
  rxIn : Option (BitVec 64) := none
  /-- partner's frame number less ours at its last heartbeat, modulo 2^48 (17 R422). -/
  pFrame : Nat := 0
  /-- partner's frame phase at its last heartbeat (17 R422). -/
  pPhase : Int := 0
  /-- partner ready (17 R424). -/
  pReady : Bool := false
  /-- partner holds the lease (17 R424). -/
  pHolds : Bool := false
  /-- sequence of the partner's last SYNC (17 R431). -/
  pSyncSent : Nat := 0
  /-- sequence of the last SYNC sent or applied (17 R431). -/
  syncSeq : Nat := 0
  /-- force state: 0 none, 1 side A, 2 side B (17 R434). -/
  force : Nat := 0
  /-- lockout (17 R434). -/
  lockout : Bool := false
  /-- network second of the force or lockout in force (17 R424). -/
  cmdSec : Nat := 0
  /-- cause 5 or 6 raised (17 PROT_GROUP_STATUS). -/
  request : Bool := false
  /-- cause 5 raised (17 R436). -/
  digReq : Bool := false
  /-- raw end of the hold-off (17 R434). -/
  holdEnd : Option (BitVec 64) := none
  /-- mismatch runs of G, X and F (17 R436). -/
  runs : List Nat := [0, 0, 0]
  /-- own digests awaiting comparison: frame, k, digest (17 R436). -/
  digOwn : List (Nat × Nat × Nat) := []
  /-- partner digests awaiting comparison (17 R436). -/
  digPeer : List (Nat × Nat × Nat) := []
  /-- measured offset, ns (17 R432). -/
  delta : Option Int := none
  /-- offsets of the safety bursts of the last 64 frames (17 R432). -/
  deltas : List Int := []
  /-- HANDOVER sent, lease not yet yielded (17 R428). -/
  handover : Bool := false
  /-- kept dark by a group reset (17 R438). -/
  darkHold : Bool := false
  /-- other host in force (17 R427). -/
  yielded : Bool := false
  /-- raw instant of the group's creation (17 R426). -/
  born : BitVec 64 := 0
  /-- raw instant since which a SYNC that the active has reported is not applied (17 R431). -/
  syncLag : Option (BitVec 64) := none
  /-- SYNC records as the active unit last sent them (17 R431). -/
  sent : List SyncRec := []
  deriving DecidableEq, Repr

/-- One fault record (R441, Table 18-2). -/
structure FltRec where
  /-- sequence number (18 R441). -/
  seq : Nat := 0
  /-- network seconds at raising (18 R441). -/
  sec : Nat := 0
  /-- network nanoseconds at raising (18 R441). -/
  ns : Nat := 0
  /-- class as recorded (18 R441). -/
  cls : Nat := 0
  /-- class of the source (18 R442). -/
  base : Nat := 0
  /-- escalated (18 R444). -/
  esc : Bool := false
  /-- acknowledged (18 R446). -/
  acked : Bool := false
  /-- annealed (18 R445). -/
  annealed : Bool := false
  /-- latched by an anneal limit (18 R445). -/
  latched : Bool := false
  /-- tile (18 R441). -/
  tile : Nat := 255
  /-- block code (18 R442). -/
  block : Nat := 0
  /-- event code (18 R442). -/
  event : Nat := 0
  /-- instance (18 R504). -/
  inst : Nat := 4294967295
  /-- detail (18 R504). -/
  detail : BitVec 32 := 0
  /-- condition still holds (18 R445). -/
  cond : Bool := false
  /-- raw end of the quiet period running (18 R445). -/
  quietEnd : Option (BitVec 64) := none
  /-- the fault isolated its tile (18 R445). -/
  isolated : Bool := false
  deriving DecidableEq, Repr

/-- The fault collector (chapter 18). -/
structure FaultState where
  /-- sequence number of the newest record (18 R441). -/
  seq : Nat := 0
  /-- volatile ring, newest first (18 R441). -/
  ring : List FltRec := []
  /-- eMRAM ring, newest first (18 R441). -/
  emram : List FltRec := []
  /-- always-on instants of the eMRAM writes of the last 3 600 s (18 R441). -/
  emramAt : List (BitVec 64) := []
  /-- unacknowledged faults of F0 to F4 (registers saturate at 0xFF) (18 R443). -/
  unack : List Nat := [0, 0, 0, 0, 0]
  /-- first fault latched (18 R443). -/
  first : Option FltRec := none
  /-- overflow (18 R443). -/
  overflow : Bool := false
  /-- quench holds (18 R447). -/
  quench : Bool := false
  /-- EXT_QUENCH_N among its causes (18 FLT_STATUS). -/
  extQuench : Bool := false
  /-- recovery counters F0 to F4, always-on (18 R445). -/
  recov : List Nat := [0, 0, 0, 0, 0]
  /-- tile and always-on instant of the F3 anneals of the last 3 600 s (18 R445). -/
  f3At : List (Nat × BitVec 64) := []
  /-- always-on instants of the F4 anneals of the last 3 600 s (18 R445). -/
  f4At : List (BitVec 64) := []
  /-- always-on time, 2^-16 ns, not restarted by a package reset (18 R445). -/
  aon : BitVec 64 := 0
  deriving DecidableEq, Repr

/-- Assay of one tile (chapter 19). -/
structure AssayTile where
  /-- done (19 ASY_RESULT). -/
  done : Bool := false
  /-- complete (19 ASY_RESULT). -/
  complete : Bool := false
  /-- pass (19 ASY_RESULT). -/
  pass : Bool := false
  /-- running (19 ASY_RESULT). -/
  running : Bool := false
  /-- reason (19 ASY_RESULT). -/
  reason : Nat := 0
  /-- source (19 ASY_RESULT). -/
  source : Nat := 0
  /-- set (19 ASY_RESULT). -/
  set : Nat := 0
  /-- patterns applied (19 ASY_RESULT). -/
  patterns : Nat := 0
  /-- signature (19 ASY_SIG). -/
  sig : BitVec 128 := 0
  /-- waits for its thermal level to clear (19 R459). -/
  waits : Bool := false
  /-- an abort waits for the next pattern boundary (19 R460). -/
  abort : Bool := false
  /-- raw time at which its scan, or its wait of R459, began (19 R453). -/
  since : Raw := 0
  deriving DecidableEq, Repr

/-- Assay (chapter 19). -/
structure AssayState where
  /-- pattern set, eMRAM (19 ASY_CFG). -/
  set : Nat := 1
  /-- boot_mode, eMRAM (19 ASY_CFG). -/
  boot : Nat := 1
  /-- lead_forced (19 ASY_CFG). -/
  forced : Bool := false
  /-- one-shot record: tile mask, eMRAM (19 ASY_CFG). -/
  oneShot : Option Nat := none
  /-- results and signatures, always-on (19 ASY_RESULT). -/
  tiles : List (Nat × AssayTile) := []
  /-- tiles that run assay in this boot and have not reported (19 R454). -/
  bootRun : List Nat := []
  /-- the lead tile ran: an assay-exit warm reset is due (19 R454). -/
  exitPend : Bool := false
  deriving DecidableEq, Repr

/-- An armed overflow threshold (R468). -/
structure Threshold where
  /-- P (20 R468). -/
  period : Nat := 1
  /-- MSI-X vector (20 R468). -/
  vec : Nat := 64
  deriving DecidableEq, Repr

/-- An event or sample ring in host memory (R469, R474). -/
structure Ring where
  /-- base address (20 R469). -/
  base : BitVec 64 := 0
  /-- log2 of the records, 0 not set (20 R469). -/
  r : Nat := 0
  /-- producer index (20 R469). -/
  prod : BitVec 32 := 0
  deriving DecidableEq, Repr

/-- One bandwidth window (R472, R473). -/
structure Window where
  /-- L (20 R472). -/
  lenMs : Nat := 0
  /-- generation of the record (20 R473). -/
  gen : Nat := 0
  /-- index of the newest closed window (20 Table 20-4). -/
  index : Nat := 0
  /-- network time of its end, ns (20 Table 20-4). -/
  endNs : Int := 0
  /-- largest byte count since configuration (20 Table 20-4). -/
  max : Nat := 0
  /-- bytes of the open window (20 R472). -/
  bytes : Nat := 0
  /-- frames of the open window (20 R473). -/
  frames : Nat := 0
  /-- the open window is suspect (20 R472). -/
  suspect : Bool := false
  /-- last 64 closed windows, newest first (20 Table 20-4). -/
  hist : List (Nat × Nat × Bool) := []
  deriving DecidableEq, Repr

/-- Sampling of one engine (R474). -/
structure Sampling where
  /-- k, 0 off (20 R474). -/
  k : Nat := 0
  /-- LFSR (20 R474). -/
  lfsr : Nat := 0
  /-- instructions left of the interval (20 R474). -/
  left : Nat := 0
  /-- a tag is in flight (20 R474). -/
  tag : Bool := false
  /-- an interval ended while the tag was in flight (20 R474). -/
  deferred : Bool := false
  /-- the tag in flight was deferred (20 R474). -/
  curDef : Bool := false
  deriving DecidableEq, Repr

/-- One snapshot area (Table 20-3). -/
structure SnapArea where
  /-- snapshot ID (20 Table 20-3). -/
  id : Nat := 0
  /-- instant, network-time ns (20 Table 20-3). -/
  atT : Int := 0
  /-- late (20 Table 20-3). -/
  late : Bool := false
  /-- join (20 Table 20-3). -/
  join : Bool := false
  /-- periodic (20 Table 20-3). -/
  periodic : Bool := false
  /-- tiles captured (20 Table 20-3). -/
  mask : Nat := 0
  /-- counters copied (20 R471). -/
  vals : List (Nat × BitVec 64) := []
  /-- record of the current second of each object of R483 (20 Table 20-3). -/
  pm : List (Nat × List (BitVec 8)) := []
  deriving DecidableEq, Repr

/-- Counters and sampling (chapter 20). -/
structure CntState where
  /-- counters that are not zero, by 2^40 x name index (Cnt.idx) + object; rule counters (R465) under name index 255, by 2 x (65 536 x tile + index), the bytes counter one higher (20 R461). -/
  vals : List (Nat × BitVec 64) := []
  /-- armed thresholds (20 R468). -/
  thr : List (Nat × Threshold) := []
  /-- event ring (20 R469). -/
  evt : Ring := {}
  /-- sample ring (20 R474). -/
  smp : Ring := {}
  /-- counters written, each with the raw time of the write and the value that it would hold without it (20 R470). -/
  wrote : List (Nat × (Raw × Nat)) := []
  /-- RC evt_lost (20 CNT_LOST). -/
  evtLost : Nat := 0
  /-- RC smp_lost (20 CNT_LOST). -/
  smpLost : Nat := 0
  /-- windows by 2 x (object + 65 536 x kind) + direction (20 R472). -/
  wins : List (Nat × Window) := []
  /-- engines sampled (20 R474). -/
  samp : List (Nat × Sampling) := []
  /-- snapshot area A (20 R471). -/
  areaA : SnapArea := {}
  /-- snapshot area B (20 R471). -/
  areaB : SnapArea := {}
  /-- area that holds the newest complete snapshot: 0 none, 1 A, 2 B (21 R482). -/
  newest : Nat := 0
  /-- copy being written (20 R471). -/
  writing : Option SnapArea := none
  /-- instants that fell while a copy was being written (20 R471). -/
  queued : List SnapJob := []
  /-- local counter slot of each object: 2^40 x kind + handle, and slot (20 R463). -/
  slots : List (Nat × Nat) := []
  deriving DecidableEq, Repr

/-- One Thrumoz package: everything but the queue of commands. -/
structure Dev where
  /-- variant (00 R1). -/
  variant : Variant := .thz4
  /-- time unit (05). -/
  time : TimeState := {}
  /-- power (02). -/
  pwr : PowerState := {}
  /-- reset, boot, hallmark (03). -/
  rst : RstState := {}
  /-- tiles that differ from the reset tile (01). -/
  tiles : List (Nat × Tile) := []
  /-- lanes by 16 x tile + lane (04). -/
  lanes : List (Nat × Lane) := []
  /-- uplink sub-ports (15 R400). -/
  subs : List (Nat × SubPort) := []
  /-- trees (06). -/
  trees : List (Nat × Tree) := []
  /-- tree channels (06). -/
  chans : List (Nat × Chan) := []
  /-- terminals by TID (07). -/
  terms : List (Nat × Terminal) := []
  /-- circuits (06). -/
  circuits : List (Nat × Circuit) := []
  /-- allocations by AID (08). -/
  allocs : List (Nat × Alloc) := []
  /-- domain weights that differ, by 256 x channel + domain (08 R200). -/
  domW : List (Nat × Nat) := []
  /-- domain priorities that differ (08 R200). -/
  domPrio : List (Nat × Nat) := []
  /-- terminal weights that differ, by 256 x TID + domain (08 R201). -/
  tdomW : List (Nat × Nat) := []
  /-- accepted weight changes: effect build frame, kind (0 domain, 1 priority, 2 terminal), key, value (08 R216). -/
  domNext : List (Nat × Nat × Nat × Nat) := []
  /-- follow-me unit (09). -/
  fm : FmState := {}
  /-- tables (10 R264). -/
  tables : List (Nat × Table) := []
  /-- key profiles (10 R255). -/
  profiles : List (Nat × KeyProfile) := []
  /-- lookup lists (10 R256). -/
  lookups : List (Nat × LookupList) := []
  /-- spread groups (10 R277). -/
  spreads : List (Nat × SpreadGroup) := []
  /-- mirror sessions (10 R263). -/
  mirrors : List (Nat × Mirror) := []
  /-- sub-port bindings (10 R254). -/
  binds : List (Nat × PortBind) := []
  /-- classifiers by tile (10). -/
  cls : List (Nat × ClsTile) := []
  /-- open cursors (10 R282). -/
  cursors : List (Nat × Cursor) := []
  /-- table-access window (10 R283). -/
  tac : Tac := {}
  /-- what TAC_OP_DONE will show of the operation in progress (10 R283). -/
  tacDone : Tac := {}
  /-- queues (11 R292). -/
  queues : List (Nat × Queue) := []
  /-- hierarchy nodes that exist, by node key (11 R293). -/
  nodes : List (Nat × Node) := []
  /-- shapers by queue or node key (11 R296). -/
  shapers : List (Nat × Shaper) := []
  /-- shaper settings waiting for their frame boundary (11 R300). -/
  shaperNext : List ShaperCfg := []
  /-- meters (11 R301). -/
  meters : List (Nat × Meter) := []
  /-- meter settings waiting for their frame boundary (11 R302). -/
  meterNext : List (Nat × Nat × Option Meter) := []
  /-- gate schedules by sub-port (11 R307). -/
  gates : List (Nat × Gate) := []
  /-- schedules waiting for a cycle boundary, by its raw instant (11 R307). -/
  gateNext : List (Nat × Option Gate × BitVec 64) := []
  /-- buffer pools by tile (11 R285). -/
  pools : List (Nat × Pool) := []
  /-- MACsec (12). -/
  msec : MsecState := {}
  /-- PON keys by TID (12 R333). -/
  pon : List (Nat × PonKey) := []
  /-- crucible (13). -/
  cru : CrucibleState := {}
  /-- check-engine pages (13 R355). -/
  chk : List (Nat × ChkPage) := []
  /-- order number of the next chunk started (13 R357). -/
  chkNo : Nat := 1
  /-- host attachment (14). -/
  host : HostState := {}
  /-- channels' permissions and counters (eMRAM) (15 R393). -/
  senders : List (Nat × Sender) := []
  /-- joined system (16). -/
  join : JoinState := {}
  /-- protection groups by tree (17 R418). -/
  groups : List (Nat × Group) := []
  /-- highest lease number sent or received since the last package reset, by tree (17 R423). -/
  leaseSeen : List (Nat × Nat) := []
  /-- fault collector (18). -/
  flt : FaultState := {}
  /-- assay (19). -/
  asy : AssayState := {}
  /-- counters (20). -/
  cnt : CntState := {}
  /-- RW register words last written, by BAR0 address (others hold the reset value of the register list below) (21 R476). -/
  regs : List (Nat × BitVec 32) := []
  /-- value the last register, lock or SPI read returned (model's own). -/
  lastRead : Nat := 0
  /-- what the block has handed to its lines, links, host memory and senders, newest first (model's own). -/
  out : List Output := []
  /-- counter that indexes the free values (model's own). -/
  freeCtr : Nat := 0
  deriving DecidableEq, Repr

/-- The block. -/
structure State where
  /-- the package (-). -/
  dev : Dev := {}
  /-- commands waiting, first in first out (model's own). -/
  pending : List Instr := []
  deriving DecidableEq, Repr

/-- The machine right after reset: RESET_N has just been released after a cold start (logs 1, 2, 7). -/
def State.reset : State := {}

end Sys2Proof.Machine
end

