-- ==== Sys2Proof/Machine/Ops.lean ====
section
/-!
DEFINITION. The operations every family shares: sparse maps, byte order, the variant's ranges, tiles, registers as
written, time, counters, outputs and vectors, notifications, faults and quench.
-/

namespace Sys2Proof.Machine

/-! ## Sparse maps: lists with strictly rising keys -/

/-- The value at a key. -/
def mget {α : Type} (m : List (Nat × α)) (k : Nat) : Option α := m.lookup k

/-- The value at a key, or the value an unlisted key has. -/
def mgetD {α : Type} (m : List (Nat × α)) (k : Nat) (dflt : α) : α := (m.lookup k).getD dflt

/-- Sets the value at a key, keeping the keys strictly rising. -/
def mput {α : Type} : List (Nat × α) → Nat → α → List (Nat × α)
  | [], k, v => [(k, v)]
  | (j, w) :: m, k, v =>
    if k < j then (k, v) :: (j, w) :: m
    else if k = j then (k, v) :: m
    else (j, w) :: mput m k v

/-- Removes a key. -/
def mdel {α : Type} (m : List (Nat × α)) (k : Nat) : List (Nat × α) := m.filter (fun e => e.1 != k)

/-- Sets a value, or removes the key where the value is the one an unlisted key has. -/
def mputD {α : Type} [DecidableEq α] (m : List (Nat × α)) (k : Nat) (v dflt : α) : List (Nat × α) :=
  if v = dflt then mdel m k else mput m k v

/-- Changes the value at a key that is listed. -/
def mmod {α : Type} (m : List (Nat × α)) (k : Nat) (f : α → α) : List (Nat × α) :=
  m.map (fun e => if e.1 = k then (e.1, f e.2) else e)

/-- Whether a key is listed. -/
def mhas {α : Type} (m : List (Nat × α)) (k : Nat) : Bool := (m.lookup k).isSome

/-- The canonical form of a sparse map: keys strictly rising. -/
def mwf {α : Type} : List (Nat × α) → Bool
  | [] => true
  | [_] => true
  | a :: b :: m => a.1 < b.1 && mwf (b :: m)

/-- Lowest number from `lo` that `used` does not hold, trying `n` numbers. -/
def lowestFree (used : List Nat) (lo : Nat) : Nat → Option Nat
  | 0 => none
  | n + 1 => if used.contains lo then lowestFree used (lo + 1) n else some lo

/-! ## Bytes -/

/-- `n` bytes of a number, least significant first. -/
def leBytes (n v : Nat) : List Byte := (List.range n).map (fun i => BitVec.ofNat 8 (v / 2 ^ (8 * i)))

/-- `n` bytes of a number, most significant first. -/
def beBytes (n v : Nat) : List Byte := (leBytes n v).reverse

/-- The number little-endian bytes spell. -/
def leNat : List Byte → Nat
  | [] => 0
  | b :: bs => b.toNat + 256 * leNat bs

/-- The number big-endian bytes spell. -/
def beNat (bs : List Byte) : Nat := leNat bs.reverse

/-- `n` bytes at an offset, zeros past the end. -/
def bytesAt (bs : List Byte) (ofs n : Nat) : List Byte := (List.range n).map (fun i => bs.getD (ofs + i) 0)

/-- Little-endian number of `n` bytes at an offset. -/
def natAt (bs : List Byte) (ofs n : Nat) : Nat := leNat (bytesAt bs ofs n)

/-- Two's-complement value of a `w`-bit number. -/
def signedOf (w v : Nat) : Int := if v % 2 ^ w < 2 ^ (w - 1) then (v % 2 ^ w : Nat) else ((v % 2 ^ w : Nat) : Int) - (2 ^ w : Nat)

/-- The low `w` bits of an integer as a number. -/
def lowBits (w : Nat) (v : Int) : Nat := (v % (2 ^ w : Nat)).toNat

/-- Bit `i` of a number. -/
def bitN (v i : Nat) : Bool := v.testBit i

/-- A number's bits `hi` down to `lo`. -/
def fieldN (v hi lo : Nat) : Nat := v / 2 ^ lo % 2 ^ (hi - lo + 1)

/-- 1 for true, 0 for false. -/
def b2n (b : Bool) : Nat := if b then 1 else 0

/-- A value limited to a range. -/
def clampN (lo hi v : Nat) : Nat := max lo (min hi v)

/-- Ceiling of a quotient. -/
def ceilDiv (a b : Nat) : Nat := (a + b - 1) / b

/-- Adds an element to the end of a list unless it is there. -/
def addUniq (l : List Nat) (x : Nat) : List Nat := if l.contains x then l else l ++ [x]

/-- Inserts a number into a strictly rising list. -/
def insSorted : List Nat → Nat → List Nat
  | [], x => [x]
  | y :: ys, x => if x < y then x :: y :: ys else if x = y then y :: ys else y :: insSorted ys x

/-- Stable insertion sort of numbers by a key. -/
def insBy {α : Type} (key : α → Nat) (x : α) : List α → List α
  | [] => [x]
  | y :: ys => if key x ≤ key y then x :: y :: ys else y :: insBy key x ys

/-- Stable sort by ascending key. -/
def sortBy {α : Type} (key : α → Nat) (l : List α) : List α := l.foldr (insBy key) []

/-! ## Variant and handles (R1, R6, Table 0-4) -/

/-- Tile count of a variant. -/
def Variant.tiles : Variant → Nat
  | .thz2 => 2 | .thz4 => 4 | .thz8 => 8

/-- Largest package power of Table 0-1 in W. -/
def Variant.maxW : Variant → Nat
  | .thz2 => 85 | .thz4 => 160 | .thz8 => 300

/-- Typical package power of Table 0-1 in W. -/
def Variant.typW : Variant → Nat
  | .thz2 => 68 | .thz4 => 125 | .thz8 => 230

def Dev.nTiles (d : Dev) : Nat := d.variant.tiles
def Dev.nTrees (d : Dev) : Nat := 8 * d.nTiles
def Dev.nTerms (d : Dev) : Nat := 2048 * d.nTiles
def Dev.nAllocs (d : Dev) : Nat := 8192 * d.nTiles
def Dev.nUplinks (d : Dev) : Nat := 2 * d.nTiles
def Dev.nSubs (d : Dev) : Nat := 8 * d.nTiles
def Dev.nEngines (d : Dev) : Nat := 32 * d.nTiles
def Dev.nCircuits (d : Dev) : Nat := 512 * d.nTiles

/-- Every tile of the variant. -/
def Dev.tileList (d : Dev) : List Nat := List.range d.nTiles

/-- Whether a number is a channel handle of the variant (R6, R7). -/
def Dev.chanOk (d : Dev) (ch : Nat) : Bool := ch / 4 < d.nTrees && ch % 4 < 3

/-- Every channel handle of the variant. -/
def Dev.chanList (d : Dev) : List Nat := (List.range (4 * d.nTrees)).filter (fun c => c % 4 < 3)

/-- Channel handles of a tree. -/
def treeChans (t : Nat) : List Nat := [4 * t, 4 * t + 1, 4 * t + 2]

/-- Tile of a tree, of a channel, of a sub-port (Table 1-4). -/
def tileOfTree (t : Nat) : Nat := t / 8
def tileOfChan (c : Nat) : Nat := c / 32
def tileOfSub (p : Nat) : Nat := p / 8

/-- Tile and lane number of a system port: R3; the system-capable lanes are lanes 8 and 9. -/
def Dev.sysPortTile (d : Dev) (p : Nat) : Nat := if d.variant = .thz2 then p / 2 else p
def Dev.sysPortLane (d : Dev) (p : Nat) : Nat := if d.variant = .thz2 then 8 + p % 2 else 8

/-! ## Objects that always exist -/

def Dev.tile (d : Dev) (t : Nat) : Tile := mgetD d.tiles t {}
def Dev.setTile (d : Dev) (t : Nat) (x : Tile) : Dev := { d with tiles := mput d.tiles t x }
def Dev.updTile (d : Dev) (t : Nat) (f : Tile → Tile) : Dev := d.setTile t (f (d.tile t))
def laneKey (tile lane : Nat) : Nat := 16 * tile + lane
def Dev.lane (d : Dev) (tile lane : Nat) : Lane := mgetD d.lanes (laneKey tile lane) {}
def Dev.setLane (d : Dev) (tile lane : Nat) (x : Lane) : Dev := { d with lanes := mput d.lanes (laneKey tile lane) x }
def Dev.updLane (d : Dev) (tile lane : Nat) (f : Lane → Lane) : Dev := d.setLane tile lane (f (d.lane tile lane))
def Dev.sub (d : Dev) (p : Nat) : SubPort := mgetD d.subs p {}
def Dev.setSub (d : Dev) (p : Nat) (x : SubPort) : Dev := { d with subs := mput d.subs p x }
def Dev.updSub (d : Dev) (p : Nat) (f : SubPort → SubPort) : Dev := d.setSub p (f (d.sub p))
def Dev.tree (d : Dev) (t : Nat) : Tree := mgetD d.trees t {}
def Dev.setTree (d : Dev) (t : Nat) (x : Tree) : Dev := { d with trees := mput d.trees t x }
def Dev.updTree (d : Dev) (t : Nat) (f : Tree → Tree) : Dev := d.setTree t (f (d.tree t))
def Dev.chan (d : Dev) (c : Nat) : Chan := mgetD d.chans c {}
def Dev.setChan (d : Dev) (c : Nat) (x : Chan) : Dev := { d with chans := mput d.chans c x }
def Dev.updChan (d : Dev) (c : Nat) (f : Chan → Chan) : Dev := d.setChan c (f (d.chan c))
def Dev.updTerm (d : Dev) (t : Nat) (f : Terminal → Terminal) : Dev := { d with terms := mmod d.terms t f }
def Dev.updAlloc (d : Dev) (a : Nat) (f : Alloc → Alloc) : Dev := { d with allocs := mmod d.allocs a f }
def Dev.mbox (d : Dev) (c : Nat) : MboxChan := mgetD d.host.mbox c {}
def Dev.setMbox (d : Dev) (c : Nat) (x : MboxChan) : Dev := { d with host := { d.host with mbox := mput d.host.mbox c x } }
def Dev.updMbox (d : Dev) (c : Nat) (f : MboxChan → MboxChan) : Dev := d.setMbox c (f (d.mbox c))
def Dev.sender (d : Dev) (c : Nat) : Sender := mgetD d.senders c {}
def Dev.setSender (d : Dev) (c : Nat) (x : Sender) : Dev := { d with senders := mput d.senders c x }
def Dev.updSender (d : Dev) (c : Nat) (f : Sender → Sender) : Dev := d.setSender c (f (d.sender c))
def Dev.clsTile (d : Dev) (t : Nat) : ClsTile := mgetD d.cls t {}
def Dev.updCls (d : Dev) (t : Nat) (f : ClsTile → ClsTile) : Dev := { d with cls := mput d.cls t (f (d.clsTile t)) }
def Dev.pool (d : Dev) (t : Nat) : Pool := mgetD d.pools t {}
def Dev.setPool (d : Dev) (t : Nat) (x : Pool) : Dev := { d with pools := mput d.pools t x }
def Dev.chkPage (d : Dev) (p : Nat) : ChkPage :=
  mgetD d.chk p { prio := if p = 0 then 3 else if p = 1 || p = 2 then 2 else 0 }
def Dev.setChk (d : Dev) (p : Nat) (x : ChkPage) : Dev := { d with chk := mput d.chk p x }
def Dev.pslot (d : Dev) (n : Nat) : PSlot := mgetD d.cru.slots n {}
def Dev.setPslot (d : Dev) (n : Nat) (x : PSlot) : Dev := { d with cru := { d.cru with slots := mput d.cru.slots n x } }
def Dev.ponKey (d : Dev) (t : Nat) : PonKey := mgetD d.pon t {}
def Dev.setPon (d : Dev) (t : Nat) (x : PonKey) : Dev := { d with pon := mput d.pon t x }
def Dev.sa (d : Dev) (n : Nat) : SaSlot := mgetD d.msec.sas n {}
def Dev.setSa (d : Dev) (n : Nat) (x : SaSlot) : Dev := { d with msec := { d.msec with sas := mput d.msec.sas n x } }
def Dev.sysPort (d : Dev) (p : Nat) : SysPort := mgetD d.join.ports p {}
def Dev.setSysPort (d : Dev) (p : Nat) (x : SysPort) : Dev := { d with join := { d.join with ports := mput d.join.ports p x } }
def Dev.asyTile (d : Dev) (t : Nat) : AssayTile := mgetD d.asy.tiles t {}
def Dev.setAsyTile (d : Dev) (t : Nat) (x : AssayTile) : Dev := { d with asy := { d.asy with tiles := mput d.asy.tiles t x } }
def Dev.fmTrain (d : Dev) (t : Nat) : FmTrain := mgetD d.fm.trains t {}
def Dev.setTrain (d : Dev) (t : Nat) (x : FmTrain) : Dev := { d with fm := { d.fm with trains := mput d.fm.trains t x } }
def Dev.updGroup (d : Dev) (t : Nat) (f : Group → Group) : Dev := { d with groups := mmod d.groups t f }

/-- Whether a tile of the variant is in RUN with its clocks (R29, R49). -/
def Dev.tileRun (d : Dev) (t : Nat) : Bool := t < d.nTiles && (d.tile t).st = .run && !d.pwr.pfw

/-! ## Outputs and free values -/

/-- Hands something to the outside. -/
def Dev.emit (d : Dev) (o : Output) : Dev := { d with out := o :: d.out }

/-- Index of a fresh free value, and the state in which it is used up (log 8). -/
def Dev.fresh (d : Dev) : Nat × Dev := (d.freeCtr, { d with freeCtr := d.freeCtr + 1 })

/-- `n` fresh random bytes (R341). -/
def Dev.freshBytes (d : Dev) (n : Nat) : List Byte × Dev :=
  ((List.range n).map (fun i => Config.freeByte (d.freeCtr + i)), { d with freeCtr := d.freeCtr + n })

/-! ## Register words as written -/

/-- Reset value of the RW registers by BAR0 address; `v` gives the variant's power cap. -/
def regReset (v : Variant) (a : Nat) : Reg32 :=
  if a < 0x100000 then
    if 0x600 ≤ a && a < 0x700 then 0x07D0960C#32
    else if a = 0x110 then BitVec.ofNat 32 v.maxW
    else if a = 0x124 then 0x0E100000#32
    else if a = 0x280 then 0x0E1#32
    else if a = 0x324 then 0x4003841B#32
    else if a = 0x33C then 0x00064000#32
    else if a = 0x400 then 0x001E07D0#32
    else if a = 0x404 then 0x138807D0#32
    else if a = 0x408 then 0x8000012C#32
    else if a = 0x500 then 0x91000005#32
    else if a = 0x700 then 0xC0000000#32
    else if a = 0x708 then 0xFFFFFFFF#32
    else if a = 0x70C then 0x03E80000#32
    else if a = 0x900 then 100#32
    else if a = 0xB00 then 0x2000000A#32
    else if a = 0xC20 then 0x00A42200#32
    else 0#32
  else
    let w := a % 0x100000
    if 0x2000 ≤ w && w < 0x2280 then (if w % 0x40 = 0 then 0x00040000#32 else 0#32)
    else if 0x4000 ≤ w && w < 0x4200 then
      (if w % 0x40 = 0x1C then 0x000A0032#32 else if 0x10 ≤ w % 0x40 && w % 0x40 < 0x1C then 0x00030040#32 else 0#32)
    else if 0x5000 ≤ w && w < 0x5400 then
      (if w % 0x20 = 0 then 0x00A0FA64#32 else if w % 0x20 = 4 then 0x03E81428#32 else 0#32)
    else if w = 0x5400 then 0x0C8403E8#32
    else if 0x6000 ≤ w && w < 0x6200 then (if w % 0x10 = 0 then 10#32 else 0#32)
    else if w = 0x6400 then 0x0000325A#32
    else if w = 0x9008 then 2048#32
    else 0#32

/-- Word of an RW register as last written. -/
def Dev.reg (d : Dev) (a : Nat) : Nat := (mgetD d.regs a (regReset d.variant a)).toNat

/-- Writes the word of an RW register. -/
def Dev.setReg (d : Dev) (a : Nat) (v : Nat) : Dev := { d with regs := mput d.regs a (BitVec.ofNat 32 v) }

/-- Base address of a tile window (R477). -/
def tileWin (t : Nat) : Nat := 0x100000 * (t + 1)

/-- Address of channel-indexed tile registers: slot (local tree x 4 + k). -/
def chanRegA (base stride ch : Nat) : Nat := tileWin (tileOfChan ch) + base + (ch % 32) * stride

/-- A field value with 0 meaning off and a lower limit otherwise. -/
def offOrMin (lo hi v : Nat) : Nat := if v = 0 then 0 else clampN lo hi v

def Dev.quietS (d : Dev) : Nat := clampN 1 3600 (fieldN (d.reg 0xC20) 31 20)
def Dev.f3Limit (d : Dev) : Nat := fieldN (d.reg 0xC20) 19 16
def Dev.f4Limit (d : Dev) : Nat := fieldN (d.reg 0xC20) 15 12
def Dev.faultNClass (d : Dev) : Nat := min 4 (fieldN (d.reg 0xC20) 10 8)
def Dev.powerCap (d : Dev) : Nat := max d.variant.typW (fieldN (d.reg 0x110) 15 0)
def Dev.quenchStuckS (d : Dev) : Nat := max 10 (fieldN (d.reg 0x124) 31 16)
def Dev.hostServo (d : Dev) : Bool := bitN (d.reg 0x324) 31
def Dev.ppsOutMode (d : Dev) : Nat := fieldN (d.reg 0x324) 30 29
def Dev.refclkCfg (d : Dev) : Nat := fieldN (d.reg 0x324) 28 27
def Dev.holdoverAlarmS (d : Dev) : Nat := max 1 (fieldN (d.reg 0x324) 21 6)
def Dev.timePrio (d : Dev) : List Nat := [fieldN (d.reg 0x324) 5 4, fieldN (d.reg 0x324) 3 2, fieldN (d.reg 0x324) 1 0]
def Dev.ppsWidthUs (d : Dev) : Nat := clampN 1 500000 (fieldN (d.reg 0x33C) 30 12)
def Dev.ppsInDelay (d : Dev) : Nat := fieldN (d.reg 0x33C) 11 0
def Dev.winMin (d : Dev) (ch : Nat) : Nat :=
  clampN 16 1024 (fieldN (d.reg (tileWin (tileOfChan ch) + 0x4010 + (ch / 4 % 8) * 0x40 + (ch % 4) * 4)) 10 0)
def Dev.maxHamCfg (d : Dev) (ch : Nat) : Nat :=
  fieldN (d.reg (tileWin (tileOfChan ch) + 0x4010 + (ch / 4 % 8) * 0x40 + (ch % 4) * 4)) 19 16
def Dev.treeCtrl (d : Dev) (t : Nat) : Nat := d.reg (tileWin (tileOfTree t) + 0x401C + (t % 8) * 0x40)
def Dev.drainMs (d : Dev) (t : Nat) : Nat := min 1000 (fieldN (d.treeCtrl t) 25 16)
def Dev.protHoldMs (d : Dev) (t : Nat) : Nat := offOrMin 10 1000 (fieldN (d.treeCtrl t) 9 0)
def Dev.discCfg (d : Dev) (ch : Nat) : Nat := d.reg (chanRegA 0x5000 0x20 ch)
def Dev.discBroadS (d : Dev) (ch : Nat) : Nat := min 3600 (fieldN (d.discCfg ch) 31 20)
def Dev.discMapMs (d : Dev) (ch : Nat) : Nat := offOrMin 10 4095 (fieldN (d.discCfg ch) 19 8)
def Dev.discMapMaxUs (d : Dev) (ch : Nat) : Nat := max 64 (fieldN (d.discCfg ch) 7 0)
def Dev.darkCfg (d : Dev) (ch : Nat) : Nat := d.reg (chanRegA 0x5004 0x20 ch)
def Dev.darkMs (d : Dev) (ch : Nat) : Nat := offOrMin 100 65535 (fieldN (d.darkCfg ch) 31 16)
def Dev.darkLenUs (d : Dev) (ch : Nat) : Nat := clampN 2 125 (fieldN (d.darkCfg ch) 15 9)
def Dev.huntSerial (d : Dev) (ch : Nat) : Bool := bitN (d.darkCfg ch) 8
def Dev.rogueCode (d : Dev) (ch : Nat) : Nat := fieldN (d.darkCfg ch) 7 0
def Dev.rngTileCfg (d : Dev) (t : Nat) : Nat := d.reg (tileWin t + 0x5400)
def Dev.reacqMs (d : Dev) (t : Nat) : Nat := max 10 (fieldN (d.rngTileCfg t) 31 20)
def Dev.settleFrames (d : Dev) (t : Nat) : Nat := max 1 (fieldN (d.rngTileCfg t) 19 16)
def Dev.respMarginNs (d : Dev) (t : Nat) : Nat := min 8000 (fieldN (d.rngTileCfg t) 15 0)
def Dev.shedLast (d : Dev) (ch : Nat) : Bool := bitN (d.reg (chanRegA 0x6000 0x10 ch)) 15
def Dev.winReservePct (d : Dev) (ch : Nat) : Nat := clampN 2 50 (fieldN (d.reg (chanRegA 0x6000 0x10 ch)) 6 0)
def Dev.nsrUp (d : Dev) (t : Nat) : Nat := clampN 51 100 (fieldN (d.reg (tileWin t + 0x6400)) 6 0)
def Dev.nsrDown (d : Dev) (t : Nat) : Nat := min (d.nsrUp t - 1) (max 1 (fieldN (d.reg (tileWin t + 0x6400)) 14 8))
/-! FM_CFG, FM_BAND_CFG and FM_LOST_CFG take effect from the next band publication (chapter 09). -/

def Dev.tLostS (d : Dev) : Nat := clampN 5 3600 (fieldN d.fm.cfg.toNat 31 16)
def Dev.tStaleMs (d : Dev) : Nat := min (d.tLostS * 1000 - 1) (max 100 (fieldN d.fm.cfg.toNat 15 0))
def Dev.hysteresisCm (d : Dev) : Nat := fieldN d.fm.bandCfg.toNat 31 16
def Dev.dwellMs (d : Dev) : Nat := min 60000 (fieldN d.fm.bandCfg.toNat 15 0)
def Dev.autoBind (d : Dev) : Bool := bitN d.fm.lostCfg.toNat 31
def Dev.defaultProfile (d : Dev) : Nat := fieldN d.fm.lostCfg.toNat 21 16
def Dev.lostHoldS (d : Dev) : Nat := fieldN d.fm.lostCfg.toNat 15 0
def Dev.tpidExtra (d : Dev) : Nat := fieldN (d.reg 0x500) 31 16
def Dev.ipv6ExtMax (d : Dev) : Nat := fieldN (d.reg 0x500) 2 1
def Dev.mplsIpGuess (d : Dev) : Bool := bitN (d.reg 0x500) 0
/-- CLS_TABLE_AGE of a table as its last tick found it: a write applies from the next tick. -/
def Dev.ageCfg (d : Dev) (t : Nat) : Nat := (mgetD d.tables t {}).cfg.toNat
def Dev.ageTickMs (d : Dev) (t : Nat) : Nat := fieldN (d.ageCfg t) 31 16
def Dev.ageLimit (d : Dev) (t : Nat) : Nat := max 1 (fieldN (d.ageCfg t) 15 8)
def Dev.ageGuard (d : Dev) (t : Nat) : Bool := bitN (d.ageCfg t) 3
def Dev.flushOnDown (d : Dev) (t : Nat) : Bool := bitN (d.ageCfg t) 2
def Dev.refreshAny (d : Dev) (t : Nat) : Bool := bitN (d.ageCfg t) 1
def Dev.victimRandom (d : Dev) (t : Nat) : Bool := bitN (d.ageCfg t) 0
def Dev.reserveCells (d : Dev) (t : Nat) : Nat := min 65536 (fieldN (d.reg (tileWin t + 0x9008)) 18 0)
def Dev.wm32 (d : Dev) : Nat := max 0x10000000 (d.reg 0x700)
def Dev.rxRetireMs (d : Dev) : Nat := clampN 10 6000 (fieldN (d.reg 0x70C) 31 16)
def Dev.mboxTimeoutMs (d : Dev) : Nat := clampN 10 10000 (fieldN (d.reg 0x900) 15 0)
def Dev.guardMs (d : Dev) : Nat := clampN 2 10 (fieldN (d.reg 0xB00) 31 28)
def Dev.protHoldS (d : Dev) : Nat := clampN 1 3600 (fieldN (d.reg 0xB00) 11 0)
def Dev.snapPeriodS (d : Dev) : Nat := min 3600 (fieldN (d.reg 0x1000) 31 20)
def Dev.laneCfg (d : Dev) (t l : Nat) : Nat := d.reg (tileWin t + 0x2000 + l * 0x40)
def Dev.laneLoop (d : Dev) (t l : Nat) : Nat := fieldN (d.laneCfg t l) 23 22
def Dev.laneAllowFar (d : Dev) (t l : Nat) : Bool := bitN (d.laneCfg t l) 21
def Dev.laneManual (d : Dev) (t l : Nat) : Bool := bitN (d.laneCfg t l) 20
def Dev.laneMaxGen (d : Dev) (t l : Nat) : Nat :=
  let g := fieldN (d.laneCfg t l) 19 16
  if 1 ≤ g && g ≤ 4 then g else 4
def Dev.uplMode (d : Dev) (u : Nat) : Nat := fieldN (d.reg (tileWin (u / 2) + 0x2400 + (u % 2) * 4)) 3 0

/-! ## Time (R115 to R121, R133 to R135) -/

/-- Raw units in one nanosecond, microsecond, millisecond, second. -/
def rawNs (n : Nat) : Raw := BitVec.ofNat 64 (n * 65536)
def rawUs (n : Nat) : Raw := rawNs (n * 1000)
def rawMs (n : Nat) : Raw := rawNs (n * 1000000)
def rawS (n : Nat) : Raw := rawNs (n * 1000000000)

/-- Raw time now. -/
def Dev.now (d : Dev) : Raw := d.time.raw

/-- Whether a raw instant is reached (R119): signed(now - t) >= 0. -/
def reached (now t : Raw) : Bool := 0 ≤ (now - t).toInt

/-- Advances raw time and always-on time by a number of units. -/
def Dev.tickBy (d : Dev) (u : Raw) : Dev :=
  { d with time := { d.time with raw := d.time.raw + u, up := d.time.up + u.toNat }, flt := { d.flt with aon := d.flt.aon + u } }

/-- Brings raw time forward to an instant that is not reached yet; the clock never runs backwards (log 4). -/
def Dev.advanceTo (d : Dev) (t : Raw) : Dev := if reached d.now t then d else d.tickBy (t - d.now)

/-- One cycle of the time clock (R115): 209,716 units on the first of five cycles, 209,715 on the others. -/
def Dev.clockCycle (d : Dev) : Dev :=
  let u : Raw := if d.time.cyc = 0 then 209716 else 209715
  let d := d.tickBy u
  { d with time := { d.time with cyc := (d.time.cyc + 1) % 5 } }

/-- One second in raw units, as an integer. -/
def secU : Int := 65536000000000

/-- One frame of 125 us in raw units. -/
def frameU : Int := 8192000000

/-- Network time (R116) in units of 2^-16 ns, rounded down, at a raw instant. -/
def Dev.netUAt (d : Dev) (raw : Raw) : Int :=
  let du := (raw - d.time.rawA).toInt
  ((d.time.offS : Int) * 1000000000 + d.time.offNs) * 65536 + d.time.offFrac + du
    + (du * d.time.rate.toInt) / 65536000000000

/-- Network time now in units of 2^-16 ns. -/
def Dev.netU (d : Dev) : Int := d.netUAt d.now

/-- Network time now in ns. -/
def Dev.netNs (d : Dev) : Int := d.netU / 65536

/-- Whole seconds and nanoseconds of network time. -/
def Dev.netSec (d : Dev) : Nat := (d.netNs / 1000000000).toNat % 2 ^ 48
def Dev.netSubNs (d : Dev) : Nat := (d.netNs % 1000000000).toNat

/-- Raw target of a network time in units of 2^-16 ns (R119), rounded down. -/
def Dev.rawOfU (d : Dev) (tU : Int) : Raw :=
  let off := ((d.time.offS : Int) * 1000000000 + d.time.offNs) * 65536 + d.time.offFrac
  d.time.rawA + BitVec.ofInt 64 ((tU - off) * 65536000000000 / (65536000000000 + d.time.rate.toInt))

/-- Raw target of a network time in ns. -/
def Dev.rawOfNs (d : Dev) (t : Int) : Raw := d.rawOfU (t * 65536)

/-- The first raw instant at which network time has reached `tU`: the target of R119, one unit later where rounding down
left it short. -/
def Dev.rawReach (d : Dev) (tU : Int) : Raw :=
  let t := d.rawOfU tU
  if tU ≤ d.netUAt t then t else if tU ≤ d.netUAt (t + 1) then t + 1 else t + 2

/-- Sets the offset to a network time in units of 2^-16 ns and the anchor to now (R117). DESIGN CHOICE (log 9): a step below the epoch
leaves second 0, for the offset holds no negative seconds. -/
def Dev.anchorAt (d : Dev) (u : Int) : Dev :=
  let ns := u / 65536
  { d with time := { d.time with
      rawA := d.now, offS := (ns / 1000000000).toNat % 2 ^ 48, offNs := (ns % 1000000000).toNat,
      offFrac := (u % 65536).toNat } }

/-- Re-anchors without a step (R117). -/
def Dev.reanchor (d : Dev) : Dev := d.anchorAt d.netU

/-- Phase of the frame error now, in raw units: it shrinks by 10 ppm of the time since the slew began (R134). -/
def Dev.phiU (d : Dev) : Int :=
  let p := d.time.frPhi
  let moved := (d.now - d.time.slewFrom).toNat / 100000
  if 0 ≤ p then max 0 (p - moved) else min 0 (p + moved)

/-- A tile's raw counter, and network time as that tile has it: the package offset and rate on its own counter, with its private correction
(R115, R131). -/
def Dev.tileRaw (d : Dev) (t : Nat) : Raw := d.now + (d.tile t).rawDiff
def Dev.tileNetU (d : Dev) (t : Nat) : Int := d.netUAt (d.tileRaw t) + (d.tile t).corr

/-- Whether an instant lies in the present cycle of the time clock. -/
def Dev.thisCycle (d : Dev) (t : Raw) : Bool := decide ((d.now - t).toNat < 209715)

/-- The frame clock in raw units (R133, R134). -/
def Dev.frameClockU (d : Dev) : Int := d.netU + d.time.frK * frameU + d.phiU

/-- Frame number without the 48-bit wrap. -/
def Dev.frameI (d : Dev) : Int := d.frameClockU / frameU

/-- The frame number now (R133), 48 bits. -/
def Dev.frame (d : Dev) : Nat := lowBits 48 d.frameI

/-- The build frame from which a change accepted now is seen: the first build that starts at least two frames after
acceptance (R216). Builds start at frame boundaries; on a boundary itself the instant counts. -/
def Dev.effFrame (d : Dev) : Nat :=
  if d.frameClockU % frameU < 209716 then lowBits 48 (d.frameI + 2) else lowBits 48 (d.frameI + 3)

/-- Whether frame `f` is at or after frame `g`, modulo 2^48. -/
def frameGe (f g : Nat) : Bool := (f + 2 ^ 48 - g) % 2 ^ 48 < 2 ^ 47

/-! ## Interrupts (R366, R508) -/

/-- Sends an MSI-X vector, or sets its pending bit while MSI-X is off or the vector is masked (R366). -/
def Dev.vector (d : Dev) (n : Nat) : Dev :=
  let (masked, _) := mgetD d.host.msix n (false, false)
  if d.host.msixOn && !masked then d.emit (.vector n)
  else { d with host := { d.host with msix := mput d.host.msix n (masked, true) } }

/-- Sets a bit of GLB_IRQ_CAUSE; a rise sends vector 0. -/
def Dev.irq (d : Dev) (bit : Nat) : Dev :=
  if d.host.irq.getLsbD bit then d
  else Dev.vector { d with host := { d.host with irq := d.host.irq ||| (1#5 <<< bit) } } 0

/-- Changes a tile's state; a change raises the tile-state interrupt (R37). -/
def Dev.tileTo (d : Dev) (t : Nat) (st : TileState) : Dev :=
  if (d.tile t).st = st then d else (d.updTile t (fun x => { x with st := st })).irq 1

/-! ## What lies on a tile -/

/-- Terminals, allocations of a channel. -/
def Dev.termsOf (d : Dev) (ch : Nat) : List (Nat × Terminal) := d.terms.filter (fun e => e.2.ch = ch)
def Dev.tileOfTerm (d : Dev) (tid : Nat) : Nat := match mget d.terms tid with | some t => tileOfChan t.ch | none => 0
def Dev.tileOfAlloc (d : Dev) (aid : Nat) : Nat := match mget d.allocs aid with | some a => d.tileOfTerm a.tid | none => 0
def Dev.chanOfAlloc (d : Dev) (aid : Nat) : Nat :=
  match mget d.allocs aid with
  | some a => (match mget d.terms a.tid with | some t => t.ch | none => 0)
  | none => 0
def Dev.chanOfTerm (d : Dev) (tid : Nat) : Nat := match mget d.terms tid with | some t => t.ch | none => 0
def Dev.tileOfQueue (d : Dev) (q : Nat) : Nat :=
  match mget d.queues q with
  | some x => if x.down then d.tileOfTerm x.tid else tileOfSub x.subport
  | none => 0
def Dev.tileOfSecy (d : Dev) (y : Nat) : Nat := match mget d.msec.secys y with | some x => tileOfSub x.subport | none => 0
def Dev.tileOfSc (d : Dev) (c : Nat) : Nat := match mget d.msec.scs c with | some x => d.tileOfSecy x.secy | none => 0
/-- Tile of an SA: that of its secure channel (R312). -/
def Dev.tileOfSa (d : Dev) (n : Nat) : Nat := d.tileOfSc (n / 2)

/-- Object number of a sub-port in a counter that channels have too. -/
def subObj (p : Nat) : Nat := 2 ^ 20 + 2 ^ 19 + p

/-- What a counter counts for (log 21). `pkg` stands for the package and for objects that every tile holds. -/
inductive CntObj where
  | pkg
  | tile (t : Nat)
  | chan (c : Nat)
  | tree (t : Nat)
  | sub (p : Nat)
  | term (tid : Nat)
  | alloc (aid : Nat)
  | circuit (c : Nat)
  | queue (q : Nat)
  | meter (m : Nat)
  | secy (y : Nat)
  | sc (c : Nat)
  | sa (n : Nat)
  deriving DecidableEq, Repr

/-- The object of a counter, from the two parts of its key. -/
def cntObj (c o : Nat) : CntObj :=
  let ct : CntObj := if 2 ^ 20 ≤ o then .term (o - 2 ^ 20) else .chan o
  if c = 255 then .tile (o / 131072)
  else if c ≤ 7 then .tile (o / 16)
  else if c = 20 && subObj 0 ≤ o then .sub (o - subObj 0)
  else if c ≤ 20 then ct
  else if c ≤ 34 then .circuit o
  else if c = 35 then .tree o
  else if c ≤ 57 then ct
  else if c ≤ 59 || c = 62 then .alloc o
  else if c ≤ 61 then .chan (o / 256)
  else if c = 63 then (if 2 ^ 20 ≤ o then .chan (o - 2 ^ 20) else .alloc o)
  else if c ≤ 69 then .chan o
  else if c ≤ 84 then .pkg
  else if c ≤ 86 then .tile (o / 64)
  else if c ≤ 91 then .pkg
  else if c ≤ 102 then .tile o
  else if c ≤ 104 then .pkg
  else if c ≤ 112 then .queue o
  else if c ≤ 119 then .tile o
  else if c ≤ 126 then .meter o
  else if c ≤ 129 then .queue o
  else if c ≤ 132 || (136 ≤ c && c ≤ 141) || c = 149 then .sa o
  else if c ≤ 135 || c = 142 || c = 143 then .sc o
  else if c ≤ 148 || (151 ≤ c && c ≤ 155) then .secy o
  else if c = 150 then .sub (o / 128)
  else if c ≤ 159 then ct
  else if 186 ≤ c && c ≤ 194 && o < 2 ^ 20 then .tree o
  else if c = 191 || c = 192 then .chan (o - 2 ^ 20)
  else .pkg

/-- Tile that keeps a counter (R463): the owning tile of its object; the lead tile for package counters (log 21). -/
def Dev.objTile (d : Dev) : CntObj → Nat
  | .pkg => 0
  | .tile t => t
  | .chan c => tileOfChan c
  | .tree t => tileOfTree t
  | .sub p => tileOfSub p
  | .term t => d.tileOfTerm t
  | .alloc a => d.tileOfAlloc a
  | .circuit c => (match mget d.circuits c with | some x => d.tileOfTerm x.tid | none => 0)
  | .queue q => d.tileOfQueue q
  | .meter m => (match mget d.meters m with | some x => x.tile | none => 0)
  | .secy y => d.tileOfSecy y
  | .sc c => d.tileOfSc c
  | .sa n => d.tileOfSa n

def Dev.cntTile (d : Dev) (key : Nat) : Nat := d.objTile (cntObj (key / 2 ^ 40) (key % 2 ^ 40))

/-- Key of a rule counter of a tile (R465): frames, and bytes one higher. -/
def ruleKey (tile index : Nat) (bytes : Bool) : Nat := 255 * 2 ^ 40 + 2 * (65536 * tile + index) + b2n bytes

/-- Kind of slot that holds a counter in Table 20-1, its object and its place there: 1 queue, 2 allocation, 3 terminal. -/
def slotKind (c o : Nat) : Option (Nat × Nat × Nat) :=
  if 105 ≤ c && c ≤ 108 then some (1, o, c - 105)
  else if c = Cnt.grants.idx then some (2, o, 0)
  else if c = Cnt.grantedBytes.idx then some (2, o, 1)
  else if 2 ^ 20 ≤ o then
    (if c = Cnt.burstsGranted.idx then some (3, o - 2 ^ 20, 0)
     else if c = Cnt.burstMissed.idx then some (3, o - 2 ^ 20, 1)
     else if c = Cnt.hdrCheckFail.idx then some (3, o - 2 ^ 20, 2)
     else if c = Cnt.fecUncorrectable.idx then some (3, o - 2 ^ 20, 3)
     else none)
  else none

/-- Tile of an object that has a local slot: 1 queue, 2 allocation, 3 terminal. -/
def Dev.slotTile (d : Dev) (k h : Nat) : Nat := d.objTile (if k = 1 then .queue h else if k = 2 then .alloc h else .term h)

/-- Gives a new object its local slot on its tile (R463): the lowest free one; those of uplink-side queues begin at 16,384. -/
def Dev.giveSlot (d : Dev) (k h : Nat) : Dev :=
  let used := (d.cnt.slots.filter (fun e => e.1 / 2 ^ 40 = k && d.slotTile k (e.1 % 2 ^ 40) = d.slotTile k h)).map (fun e => e.2)
  match lowestFree used (if k = 1 && (mget d.queues h).any (fun q => !q.down) then 16384 else 0) 16384 with
  | some s => { d with cnt := { d.cnt with slots := mput d.cnt.slots (2 ^ 40 * k + h) s } }
  | none => d

/-- Takes the slot of an object that leaves. -/
def Dev.freeSlot (d : Dev) (k h : Nat) : Dev := { d with cnt := { d.cnt with slots := mdel d.cnt.slots (2 ^ 40 * k + h) } }

/-- Place of a counter of an SA in Table 20-1. -/
def saPlace (c : Nat) : Option Nat :=
  if c = Cnt.outProtected.idx || c = Cnt.inOk.idx then some 0
  else if c = Cnt.outEncrypted.idx || c = Cnt.inInvalid.idx then some 1
  else if c = Cnt.outOctets.idx || c = Cnt.inNotValid.idx then some 2
  else if c = Cnt.inLate.idx then some 3
  else none

/-- Number of a counter within its tile (R463): Table 20-1 for the visible ones, the model's own above (log 21). -/
def Dev.cntNum (d : Dev) (key : Nat) : Nat :=
  let c := key / 2 ^ 40
  let o := key % 2 ^ 40
  if c = 255 then o % 131072
  else match slotKind c o with
    | some (k, h, i) =>
      let s := mgetD d.cnt.slots (2 ^ 40 * k + h) (2 ^ 20)
      if k = 1 then 131072 + 4 * s + i else if k = 2 then 212992 + 2 * s + i else 233472 + 4 * s + i
    | none => match saPlace c with
      | some i => 229376 + 4 * (o % 1024) + i
      | none => (c + 1) * 2 ^ 21 + o % 2 ^ 21

/-- An aligned 64-bit read of BAR2 at an offset (R464, R466): a counter of Table 20-1; zero for any other access, for a page that
CNT_USER_EN does not enable and for an absent tile. Writes of BAR2 have no effect, and no row names them. -/
def Dev.bar2Read (d : Dev) (ofs width : Nat) : BitVec 64 :=
  let page := ofs / 4096
  let tile := page / 512
  let n := page % 512 * 512 + ofs % 4096 / 8
  if width ≠ 8 || ofs % 8 ≠ 0 || d.nTiles ≤ tile || !(d.reg (0x1100 + 4 * (page / 32))).testBit (page % 32) then 0#64
  else ((d.cnt.vals.find? (fun e => d.cntTile e.1 = tile && d.cntNum e.1 = n)).map (fun e => e.2)).getD 0#64

/-- Counter address (R463). -/
def Dev.cntAddr (d : Dev) (key : Nat) : Nat := d.cntTile key % 8 * 2 ^ 29 + d.cntNum key % 2 ^ 29

/-! ## Counters (R461, R468 to R470) -/

/-- Key of a counter in `CntState.vals`. -/
def cntKey (c : Cnt) (obj : Nat) : Nat := c.idx * 2 ^ 40 + obj

/-- Value of a counter. -/
def Dev.cntVal (d : Dev) (c : Cnt) (obj : Nat) : Nat := (mgetD d.cnt.vals (cntKey c obj) 0).toNat

/-- Writes one 32-byte record to a ring in host memory (R469); answers whether it was dropped. -/
def ringPut (r : Ring) (cons : Nat) (rec : List Byte) : Option (Ring × List Output) :=
  if r.r = 0 || 2 ^ r.r ≤ (r.prod - BitVec.ofNat 32 cons).toNat then none
  else some ({ r with prod := r.prod + 1 },
    [.dma r.base (leBytes 4 (r.prod.toNat + 1)),
     .dma (r.base + BitVec.ofNat 64 (64 + r.prod.toNat % 2 ^ r.r * 32)) rec])

/-- An overflow event (R468, R469): one record and its vector, or a dropped record. -/
def Dev.overflowEvent (d : Dev) (key : Nat) (t : Threshold) (crossed : Nat) (wrap sameWrite : Bool) (v : Nat) : Dev :=
  let rec_ := leBytes 4 (d.cntAddr key) ++ leBytes 2 t.vec ++ leBytes 2 (b2n wrap + 2 * b2n sameWrite)
    ++ leBytes 4 (min crossed 0xFFFFFFFF) ++ zeroBytes 4 ++ leBytes 8 v ++ leBytes 8 d.now.toNat
  match ringPut d.cnt.evt (d.reg 0x1004) rec_ with
  | some (r, os) => Dev.vector { d with cnt := { d.cnt with evt := r }, out := os.reverse ++ d.out } t.vec
  | none => { d with cnt := { d.cnt with evtLost := min 0xFFFF (d.cnt.evtLost + 1) } }

/-- The overflow event that an increment of a counter from `v` by `n` brings where a threshold is armed on it (R468). -/
def Dev.crossEvent (d : Dev) (key v n : Nat) (sameWrite : Bool) : Dev :=
  match mget d.cnt.thr key with
  | none => d
  | some t =>
    let k := (v + n) / t.period - v / t.period
    if 2 ^ 64 ≤ v + n then d.overflowEvent key t (max 1 k) true sameWrite ((v + n) % 2 ^ 64)
    else if 0 < k then d.overflowEvent key t k false sameWrite (v + n)
    else d

/-- Value that a counter written in this very cycle would hold without the write (R470); a cycle is an instant of raw time (log 47). -/
def Dev.wroteNow (d : Dev) (key : Nat) : Option Nat :=
  match mget d.cnt.wrote key with
  | some (t, v) => if t = d.now then some v else none
  | none => none

/-- Adds to a counter modulo 2^64 and delivers the overflow event of an armed threshold. An increment in the cycle of a write to the counter is
lost, its event is not (R470). -/
def Dev.addKey (d : Dev) (key n : Nat) : Dev :=
  match d.wroteNow key with
  | some v => Dev.crossEvent { d with cnt := { d.cnt with wrote := mput d.cnt.wrote key (d.now, (v + n) % 2 ^ 64) } } key v n true
  | none =>
    let v := (mgetD d.cnt.vals key 0).toNat
    Dev.crossEvent { d with cnt := { d.cnt with vals := mputD d.cnt.vals key (BitVec.ofNat 64 (v + n)) 0 } } key v n false

/-- Adds `n` to counter `c` of an object. -/
def Dev.count (d : Dev) (c : Cnt) (obj : Nat) (n : Nat := 1) : Dev := d.addKey (cntKey c obj) n

/-- Adds `n` to a counter kept per channel and per terminal. Terminal objects are numbered from 2^20. -/
def termObj (tid : Nat) : Nat := 2 ^ 20 + tid
def Dev.countCT (d : Dev) (c : Cnt) (ch tid : Nat) (n : Nat := 1) : Dev := (d.count c ch n).count c (termObj tid) n

/-- Key of a bandwidth window: kind 0 sub-port, 1 channel, 2 terminal; direction 0 receive or upstream, 1 transmit or downstream. -/
def winKey (kind obj dir : Nat) : Nat := 2 * (obj + 65536 * kind) + dir

/-- Adds bytes and frames to the open bandwidth window of an object and direction (R472). -/
def Dev.winAdd (d : Dev) (kind obj dir bytes frames : Nat) : Dev :=
  { d with cnt := { d.cnt with wins := mmod d.cnt.wins (winKey kind obj dir) (fun w => if w.lenMs = 0 then w else { w with bytes := w.bytes + bytes, frames := w.frames + frames }) } }

/-! ## Messages to senders (R371, R384, R385) -/

/-- Places the next queued message in an empty receive area of a host channel and rings the doorbell (R366, R371). -/
def Dev.deliver (d : Dev) (ch : Nat) : Dev :=
  let m := d.mbox ch
  match m.recv, m.queue with
  | none, x :: xs =>
    if d.host.linkUp then
      let d := d.setMbox ch { m with recv := some x, recvOld := x.bytes, queue := xs, placedAt := d.now, stall := false }
      if m.irqRecv then d.vector (ch + 1) else d
    else d
  | _, _ => d

/-- Queues a message for a channel: channels 32-63 are sent at once over their own path; channel 0 holds 256 messages and
drops further notifications; channels 1-31 hold what the interpreter lets them hold (R371). -/
def Dev.sendTo (d : Dev) (ch : Nat) (bytes : List Byte) : Dev :=
  if 32 ≤ ch then d.emit (.msg ch bytes)
  else
    let m := d.mbox ch
    let held := m.queue.length + (if m.recv.isSome then 1 else 0)
    if ch = 0 && 256 ≤ held then d.setMbox 0 { m with notifyLost := true }
    else (d.setMbox ch { m with queue := m.queue ++ [{ chan := ch, bytes := bytes }] }).deliver ch

/-- The 32-byte header of Table 15-1 as a reply, completion or notification carries it (R384). -/
def replyHeader (flags op tag sender plen target counter status ofs tile applied : Nat) : List Byte :=
  leBytes 2 0x7A5C ++ leBytes 1 1 ++ leBytes 1 flags ++ leBytes 2 op ++ leBytes 2 tag ++ leBytes 2 sender
    ++ leBytes 2 plen ++ leBytes 4 target ++ leBytes 8 counter ++ leBytes 2 status ++ leBytes 2 ofs ++ leBytes 1 tile
    ++ leBytes 1 0 ++ leBytes 2 applied

/-- Raises a notification (R385, R506): channel 0, sequence number one higher with each since the last package reset. -/
def Dev.notify (d : Dev) (op target : Nat) (body : List Byte) : Dev :=
  let n := d.host.notifSeq + 1
  let d := { d with host := { d.host with notifSeq := n } }
  d.sendTo 0 (replyHeader 0x20 op 0 0 body.length target n 0 0xFFFF 0xFF 0 ++ body)

/-! ## Faults (chapter 18) -/

/-- A fault record as Table 18-2 lays it out. -/
def FltRec.bytes (r : FltRec) : List Byte :=
  leBytes 4 r.seq ++ leBytes 6 r.sec ++ leBytes 4 r.ns
    ++ leBytes 1 (r.cls + 8 * b2n r.esc + 16 * b2n r.acked + 32 * b2n r.annealed + 64 * b2n r.latched)
    ++ leBytes 1 r.tile ++ leBytes 1 r.block ++ leBytes 1 r.event ++ zeroBytes 2 ++ leBytes 4 r.inst
    ++ leBytes 4 r.detail.toNat ++ zeroBytes 4

/-- Element of a list of numbers, 0 past its end. -/
def nth (l : List Nat) (i : Nat) : Nat := l.getD i 0

/-- Byte at an offset of a byte list, zero behind its end. -/
def byteAt (bs : List Byte) (i : Nat) : Byte := bs.getD i 0

/-- Adds to one element. -/
def addNth (l : List Nat) (i n : Nat) : List Nat := l.set i (l.getD i 0 + n)

/-- Subtracts from one element. -/
def subNth (l : List Nat) (i n : Nat) : List Nat := l.set i (l.getD i 0 - n)

/-- Whether any fault is unacknowledged (R443). -/
def FaultState.anyUnack (f : FaultState) : Bool := f.unack.any (fun n => 0 < n)

/-- Whether two records are the same event on the same instance (R445). -/
def FltRec.same (r : FltRec) (block event tile inst : Nat) : Bool :=
  r.block = block && r.event = event && r.tile = tile && r.inst = inst

/-- Instants of the last 3,600 s of always-on time. -/
def lastHour (now : Raw) (l : List Raw) : List Raw := l.filter (fun t => (now - t).toNat < (rawS 3600).toNat)

/-- Writes a record to the eMRAM ring unless 60 were written in the last 3,600 s (R441). -/
def FaultState.toEmram (f : FaultState) (r : FltRec) : FaultState :=
  let w := lastHour f.aon f.emramAt
  if 60 ≤ w.length then { f with emramAt := w }
  else { f with emram := (r :: f.emram).take 64, emramAt := f.aon :: w }

/-- The LEASE payload of a group (Table 17-3). -/
def Dev.leaseMsg (d : Dev) (g : Group) (ready : Bool) : LeaseMsg :=
  { group := g.gid, sideB := g.sideB, holds := g.st = .active || g.st = .partnerLost, ready := ready, request := g.request, force := g.force,
    lockout := g.lockout, number := g.number, frame := d.frame, phase := d.phiU / 65536, sync := g.syncSeq, cmdSec := g.cmdSec }

/-- Whether a group's paths are up: the joined system or the die links, and the in-band sub-port or the die links (R424). -/
def Dev.sysPathUp (d : Dev) (g : Group) : Bool := g.tiles || d.join.st = .attached || d.join.st = .root
def Dev.inPathUp (d : Dev) (g : Group) : Bool := g.tiles || g.inSub.any (fun p => d.tileRun (tileOfSub p) && (d.sub p).enabled && (d.sub p).up)

/-- Sends a LEASE message of a kind on both paths of a group in LEASE mode (R424, R428): 0 RENEW, 1 RELEASE, 2 HANDOVER. -/
def Dev.leaseSend (d : Dev) (tree kind : Nat) (ready : Bool := false) : Dev :=
  match mget d.groups tree with
  | none => d
  | some g =>
    if g.claim then d
    else
      let m := d.leaseMsg g ready
      let d := if d.sysPathUp g then d.emit (.lease tree false kind m) else d
      if d.inPathUp g && !(d.flt.quench && kind ≠ 1) then d.emit (.lease tree true kind m) else d

/-- Whether a tree belongs to a group whose unit does not light it: STANDBY or NOT_READY. -/
def Dev.standbyTree (d : Dev) (t : Nat) : Bool :=
  match mget d.groups t with | some g => g.st = .standby || g.st = .notReady | none => false

/-- Trees whose terminals a tile mirrors (R419): their PAIRED TILES partner lies on it. -/
def Dev.mirroredOn (d : Dev) (t : Nat) : List Nat :=
  (d.groups.filter (fun e => e.2.tiles && tileOfTree e.2.pTree = t && tileOfTree e.1 ≠ t)).map (fun e => e.1)

/-- Terminals and allocations that count against a tile's limits, mirrors included (R20, R419). -/
def Dev.termsCount (d : Dev) (t : Nat) : Nat :=
  (d.terms.filter (fun e => tileOfChan e.2.ch = t || (d.mirroredOn t).contains (e.2.ch / 4))).length
def Dev.allocsCount (d : Dev) (t : Nat) : Nat :=
  (d.allocs.filter (fun e => match mget d.terms e.2.tid with
    | some x => tileOfChan x.ch = t || (d.mirroredOn t).contains (x.ch / 4)
    | none => false)).length

/-- Tiles on which a terminal of a channel takes a place: its own and its mirror's. -/
def Dev.placesOf (d : Dev) (ch : Nat) : List Nat :=
  tileOfChan ch :: (match mget d.groups (ch / 4) with | some g => if g.tiles then [tileOfTree g.pTree] else [] | none => [])

/-- A group's leases and claims are withdrawn at quench: RELEASE on both paths for a group in LEASE mode (Table 18-5). -/
def Dev.releaseAll (d : Dev) : Dev :=
  d.groups.foldl (fun d (t, _) =>
    (d.leaseSend t 1).updGroup t (fun g => if g.st = .unpaired then g else { g with st := .notReady, handover := false })) d

/-- Sets the fault collector. -/
def Dev.setFlt (d : Dev) (f : FaultState) : Dev := { d with flt := f }

/-- Every enabled sub-port transmits Local Fault. -/
def Dev.localFaults (d : Dev) : Dev := (List.range d.nSubs).foldl (fun d p => if (d.sub p).enabled then d.emit (.localFault p) else d) d

/-- OPERATING is left at power-fail warning and at an F4 (Table 2-5). -/
def PState.leave (p : PState) : PState := if p = .operating then .halted else p

/-- Body of a LASER: enables, mode, lease or claim number, validity (Table 4-8). -/
def laserBody (mask : Nat) (claim : Bool) (number validity : Nat) : Nat :=
  mask + 16 * b2n claim + 256 * number + 2 ^ 24 * validity

/-- The LASER of a tree with no enable and validity 0: it keeps the number of the tree's group. -/
def Dev.laserDark (d : Dev) (tree : Nat) : Nat :=
  match mget d.groups tree with
  | none => laserBody 0 false 0 0
  | some g => laserBody 0 g.claim (if g.claim then g.claimNo else g.number) 0

/-- The next C position of a tree lane that is UP with a lane frame carries the disabling LASER (R111). -/
def Dev.laserOff (d : Dev) (tree : Nat) : Dev :=
  let t := tileOfTree tree
  let l := tree % 8
  let x := d.lane t l
  if x.neg = .up && 2 ≤ x.gen && !x.txLull && d.laneLoop t l = 0 && !x.farLoop then
    d.emit (.block t l 0x84 (BitVec.ofNat 64 (d.laserDark tree)))
  else d

/-- Quench (R447, Table 18-5): leases released, every sub-port transmits Local Fault, GLB_IRQ_CAUSE, notification; the package leaves
OPERATING (Table 2-5). Every tree lane gets its LASER disable at once and, as FAULT_N and ALIVE do, follows the quench flag from then on. -/
def Dev.quenchNow (d : Dev) (r : FltRec) : Dev :=
  if d.flt.quench then d
  else
    let d : Dev := { d with
      flt := { d.flt with quench := true }
      pwr := { d.pwr with pstate := d.pwr.pstate.leave } }
    let d := (List.range d.nTrees).foldl (fun d t => d.laserOff t) d.releaseAll
    (d.localFaults.irq 3).notify 0x8D82 r.inst r.bytes

/-- The record of a fault (R440 to R445, Table 18-2): the next sequence number, the class one higher where a fault of the class is
unacknowledged, latched where the limit of its class is 0, and the quiet period of an event whose condition has ended. -/
def Dev.faultRec (d : Dev) (block event cls tile inst detail : Nat) (cond isolated : Bool) : FltRec :=
  let esc := 1 ≤ cls && cls ≤ 3 && 0 < nth d.flt.unack cls
  let rc := if esc then cls + 1 else cls
  let holds := cond && 2 ≤ cls
  let latch := (rc = 3 && d.f3Limit = 0) || (rc = 4 && d.f4Limit = 0)
  { seq := (d.flt.seq + 1) % 2 ^ 32, sec := d.netSec, ns := d.netSubNs, cls := rc, base := cls, esc := esc,
    latched := latch, tile := tile, block := block, event := event, inst := inst % 2 ^ 32,
    detail := BitVec.ofNat 32 detail, cond := holds, isolated := isolated,
    quietEnd := if holds || latch then none else some (d.now + rawS d.quietS) }

/-- Enters a record (R441, R443, R445): an earlier record of the same event and instance runs its quiet period anew; the first-fault latch
and the counts follow, and a record of class F3 or F4, or a latched one, goes to the eMRAM ring while `mram` says that a write may start. -/
def FaultState.enter (f : FaultState) (r : FltRec) (qe : Raw) (mram : Bool) : FaultState :=
  let old := f.ring.map (fun x =>
    if x.same r.block r.event r.tile r.inst && x.quietEnd.isSome then
      { x with quietEnd := if r.cond && r.quietEnd.isNone then none else some qe, cond := r.cond } else x)
  let g := { f with
    seq := r.seq, ring := (r :: old).take 1024, unack := addNth f.unack r.cls 1,
    first := if f.anyUnack then f.first else some r,
    overflow := f.overflow || f.anyUnack }
  if mram && (3 ≤ r.cls || r.latched) then g.toEmram r else g

/-- Records a fault: entered, notified, latched faults notified again, and quench for a fault recorded F4. Under power-fail warning no eMRAM
write starts (R49). -/
def Dev.recordFault (d : Dev) (r : FltRec) : Dev :=
  let d := (d.setFlt (d.flt.enter r (d.now + rawS d.quietS) (!d.pwr.pfw))).notify 0x8D80 r.inst r.bytes
  let d := if r.latched then d.notify 0x8D83 r.inst r.bytes else d
  if r.cls = 4 then d.quenchNow r else d

/-- Raises a fault (R440 to R445). `cond` says whether the condition of the source holds after the raising. -/
def Dev.raise (d : Dev) (block event cls tile inst detail : Nat) (cond : Bool) (isolated : Bool := false) : Dev :=
  d.recordFault (d.faultRec block event cls tile inst detail cond isolated)

/-- Raises an assay fault of a tile (R457): its condition lasts until a later run, yet the tile's F3 anneal is what makes that run, so the
quiet period of a record of class F3 runs from its raising (log 66). -/
def Dev.raiseAssay (d : Dev) (event cls tile detail : Nat) : Dev :=
  let r := d.faultRec 0x10 event cls tile tile detail true (tile ≠ 0)
  d.recordFault (if r.cls = 3 && !r.latched then { r with quietEnd := some (d.now + rawS d.quietS) } else r)

/-- The condition of a source ends: the quiet period of its recorded faults begins (R445). -/
def Dev.endCond (d : Dev) (block event tile inst : Nat) : Dev :=
  let qe : Raw := d.now + rawS d.quietS
  { d with flt := { d.flt with ring := d.flt.ring.map (fun x =>
      if x.same block event tile (inst % 2 ^ 32) && x.cond then
        { x with cond := false, quietEnd := if x.latched || x.annealed then none else some qe } else x) } }

/-- Whether the condition of an event is recorded as holding. -/
def Dev.condHolds (d : Dev) (block event tile inst : Nat) : Bool :=
  d.flt.ring.any (fun x => x.same block event tile (inst % 2 ^ 32) && x.cond)

/-- A tile is taken out of service (R509, Table 1-8). What its state loses is dropped by the tile reset that returns it. -/
def Dev.isolateTile (d : Dev) (t : Nat) : Dev := if t < d.nTiles then d.tileTo t .isolated else d

/-! ## Readiness and pins -/

/-- Command-ready: the boot has completed, and the lead tile runs with its clocks (R72, R49, Table 2-5). -/
def Dev.ready (d : Dev) : Bool := d.rst.stage = .ready && d.tileRun 0

/-- Whether command-ready has been reached since the last reset (R450). -/
def Dev.booted (d : Dev) : Bool := d.rst.stage = .ready

/-- Whether FAULT_N is asserted (R54, R450). -/
def Dev.faultN (d : Dev) : Bool :=
  !d.booted || d.flt.quench || (List.range 5).any (fun c => d.faultNClass ≤ c && 0 < nth d.flt.unack c)

/-- Whether ALIVE toggles (R450). -/
def Dev.alive (d : Dev) : Bool := d.booted && !d.flt.quench

/-- Level of XSPI_RST_N (R494): low throughout a package reset. -/
def Dev.xspiRstN (d : Dev) : Bool := d.rst.xspiAt.isSome

/-- Whether some channel counts as enabled for the frame error (R134). -/
def Dev.anyEnabled (d : Dev) : Bool := d.chans.any (fun c => c.2.st != .disabled)

/-- Splits a frame error in raw units into whole frames and a phase (R134) and starts the slew. -/
def Dev.setFrameError (d : Dev) (e : Int) : Dev :=
  let k := (e + frameU / 2) / frameU
  { d with time := { d.time with frK := k, frPhi := e - k * frameU, slewFrom := d.now } }

/-- The frame error now, in raw units. -/
def Dev.frameErrorU (d : Dev) : Int := d.time.frK * frameU + d.phiU

/-- A slew that has ended leaves no phase behind. -/
def Dev.slewDone (d : Dev) : Dev := if d.phiU = 0 then { d with time := { d.time with frPhi := 0 } } else d

/-! ## Lanes (R3, R86, R92, R101) -/

/-- Whether a lane of a tile is bonded out (R86, Table 4-1). -/
def Dev.laneBonded (d : Dev) (t l : Nat) : Bool :=
  t < d.nTiles && (l < 8 || (if d.variant = .thz2 then t < 2 && l < 10 else t < 4 && l = 8))

/-- System port of a lane 8 or 9. -/
def Dev.portOfLane (d : Dev) (t l : Nat) : Nat := if d.variant = .thz2 then 2 * t + (l - 8) else t

/-- Role of a lane in force: 0 tree, 1 system, 2 test, 3 unused (LANE_CFG). -/
def Dev.laneRole (d : Dev) (t l : Nat) : Nat := if l < 8 then 0 else if d.laneBonded t l then (d.lane t l).role else 3

/-- Role that LANE_CFG holds for a bonded lane 8 or 9; 0b00 cannot be written there. -/
def Dev.laneRoleCfg (d : Dev) (t l : Nat) : Nat := let r := fieldN (d.laneCfg t l) 25 24; if r = 0 then 1 else r

/-! ## Gated clocks and the crossings towards them (R54, R79, R82) -/

/-- Whether the clock of a channel's framer and cipher lanes runs, of a sub-port's MAC and cipher pipeline, of a work engine (R54). -/
def Dev.framerOn (d : Dev) (ch : Nat) : Bool := d.tileRun (tileOfChan ch) && (d.chan ch).st ≠ .disabled
def Dev.macOn (d : Dev) (p : Nat) : Bool := d.tileRun (tileOfSub p) && ((d.sub p).enabled || (d.sub p).drainEnd.isSome)
def Dev.engineOn (d : Dev) (e : Nat) : Bool :=
  let x := d.tile (e / 32)
  d.tileRun (e / 32) && !x.engBad.contains (e % 32) && (e % 32 < 30 || x.engMove.any (fun m => m.2 = e % 32))

/-- Whether an uplink lane of a tile is in lull: no sub-port of its uplink uses it (R54). -/
def Dev.uplinkLull (d : Dev) (t l : Nat) : Bool :=
  !((List.range 4).any (fun k => d.macOn (8 * t + k) && (l < 4 || (d.sub (8 * t + k)).mode = 3)
    || (4 ≤ l && d.macOn (8 * t + 4 + k))))

/-- Crossing of a group: its lane or sub-port within the tile. -/
def crossKey (group k : Nat) : Nat := 16 * group + k

/-- An event for a destination whose clock is stopped is held (R82); the count that reaches 2^31 stays there, sets the group's overflow bit
and raises its F1 (R79). -/
def Dev.crossHold (d : Dev) (t group k : Nat) : Dev :=
  let n := mgetD (d.tile t).cdcHeld (crossKey group k) 0
  if 2 ^ 31 ≤ n then d
  else
    let d := d.updTile t (fun x => { x with cdcHeld := mput x.cdcHeld (crossKey group k) (n + 1) })
    if n + 1 < 2 ^ 31 then d
    else (d.updTile t (fun x => { x with cdcOvf := x.cdcOvf ||| (1#9 <<< group) })).raise 0x03 0x01 1 t t group false

/-- The clock returns: the destination takes what the crossing held (R82). -/
def Dev.crossTake (d : Dev) (t group k : Nat) : Dev :=
  if mhas (d.tile t).cdcHeld (crossKey group k) then d.updTile t (fun x => { x with cdcHeld := mdel x.cdcHeld (crossKey group k) }) else d

/-- Whether a lane is bonded, in use and its tile runs. -/
def Dev.laneLive (d : Dev) (t l : Nat) : Bool := d.laneBonded t l && d.tileRun t && d.laneRole t l ≠ 3


/-! ## System messages (R402, R403) -/

/-- Whether a system port is usable for joining: enabled, its lane in role system and UP (R402). -/
def Dev.portUsable (d : Dev) (p : Nat) : Bool :=
  let t := d.sysPortTile p
  let l := d.sysPortLane p
  p < 4 && (d.sysPort p).en && d.laneLive t l && d.laneRole t l = 1 && (d.lane t l).neg = .up

/-- The four system ports (R3). -/
def sysPorts : List Nat := [0, 1, 2, 3]

def Dev.updSysPort (d : Dev) (p : Nat) (f : SysPort → SysPort) : Dev := d.setSysPort p (f (d.sysPort p))

/-- Whether the device is joined: ATTACHED or ROOT. -/
def Dev.joined (d : Dev) : Bool := d.join.st = .attached || d.join.st = .root

/-- Flags byte of a system message (Table 16-1). -/
def sysFlags (up down : Bool) : Int := ((b2n up + 2 * b2n down : Nat) : Int)

/-- Root and hop count as this device gives them: 0xFFFF and 0xFF while it is not joined. -/
def Dev.rootSent (d : Dev) : Int := if d.joined then (d.join.root : Int) else 0xFFFF
def Dev.hopsSent (d : Dev) : Int := if d.joined then (d.join.depth : Int) else 0xFF

/-- Sequence of the next own message of a type. -/
def Dev.nextSeq (d : Dev) (typ : Nat) : Nat × Dev :=
  let n := (mgetD d.join.seqs typ 0 + 1) % 2 ^ 32
  (n, { d with join := { d.join with seqs := mput d.join.seqs typ n } })

/-- Puts a system message on those of the ports that are usable. -/
def Dev.sysPut (d : Dev) (ps : List Nat) (typ dst seq : Nat) (vals : List Int) : Dev :=
  (ps.filter d.portUsable).foldl (fun d p => (d.emit (.sys p typ dst seq vals)).count .msgTx p) d

/-- Sends one own message on some ports. -/
def Dev.sysSend (d : Dev) (ps : List Nat) (typ dst : Nat) (up down : Bool) (vals : List Int) : Dev :=
  let (n, d) := d.nextSeq typ
  d.sysPut ps typ dst n ([(d.join.ownId : Int), sysFlags up down, d.rootSent, d.hopsSent] ++ vals)

/-- Passes a received message on: source and sequence are the sender's. -/
def Dev.sysPass (d : Dev) (ps : List Nat) (typ : Nat) (m : SysHdr) (vals : List Int) : Dev :=
  d.sysPut ps typ m.dst m.seq ([(m.src : Int), sysFlags m.up m.down, d.rootSent, d.hopsSent] ++ vals)

/-- Ports in a role. -/
def Dev.portsIn (d : Dev) (r : PortRole) : List Nat := sysPorts.filter (fun p => (d.sysPort p).role = r)
def Dev.children (d : Dev) : List Nat := d.portsIn .child
def Dev.parents (d : Dev) : List Nat := d.portsIn .parent

/-- Every tree link: the parent and the children (R409). -/
def Dev.treeLinks (d : Dev) : List Nat := d.parents ++ d.children

/-- Takes a message of another device: counted, and used on a usable link only. -/
def Dev.sysIn (d : Dev) (m : SysHdr) (k : Dev → Dev) : Dev :=
  if !d.ready || !d.portUsable m.port then d else k (d.count .msgRx m.port)

/-- The same for a message that only a tree link carries. -/
def Dev.treeIn (d : Dev) (m : SysHdr) (k : Dev → Dev) : Dev :=
  d.sysIn m fun d => if d.joined && d.treeLinks.contains m.port then k d else d

/-- Puts a message whose payload is bytes on those of the ports that are usable. -/
def Dev.sysBytesTo (d : Dev) (ps : List Nat) (typ dst seq : Nat) (bytes : List Byte) : Dev :=
  (ps.filter d.portUsable).foldl (fun d p => (d.emit (.sysBytes p typ dst seq bytes)).count .msgTx p) d

/-- The link towards a member: the child whose subtree holds it, else the parent (R416). -/
def Dev.routeTo (d : Dev) (id : Nat) : List Nat :=
  match d.join.below.find? (fun e => e.2.contains id) with
  | some e => [e.1]
  | none => d.parents

end Sys2Proof.Machine
end

