-- ==== Sys2Proof/Machine/Crypto.lean ====
section
/-!
DEFINITION. The standard algorithms the manual names and does not restate (log 12, PRESUMED from the standards): AES
(FIPS 197), AES-256-CMAC (SP 800-38B), AES key wrap (RFC 3394), SHA-384 (FIPS 180-4), the counter-mode KDF of
SP 800-108, CRC-8 of R90, CRC-32C of R265, CRC-64 of R436 and the Toeplitz hash of R277.
-/

namespace Sys2Proof.Machine

/-- Part 0 of `aesSbox`. -/
def aesSbox0 : List Byte :=
  [0x63#8, 0x7c#8, 0x77#8, 0x7b#8, 0xf2#8, 0x6b#8, 0x6f#8, 0xc5#8, 0x30#8, 0x01#8, 0x67#8, 0x2b#8, 0xfe#8, 0xd7#8, 0xab#8, 0x76#8,
   0xca#8, 0x82#8, 0xc9#8, 0x7d#8, 0xfa#8, 0x59#8, 0x47#8, 0xf0#8, 0xad#8, 0xd4#8, 0xa2#8, 0xaf#8, 0x9c#8, 0xa4#8, 0x72#8, 0xc0#8,
   0xb7#8, 0xfd#8, 0x93#8, 0x26#8, 0x36#8, 0x3f#8, 0xf7#8, 0xcc#8, 0x34#8, 0xa5#8, 0xe5#8, 0xf1#8, 0x71#8, 0xd8#8, 0x31#8, 0x15#8,
   0x04#8, 0xc7#8, 0x23#8, 0xc3#8, 0x18#8, 0x96#8, 0x05#8, 0x9a#8, 0x07#8, 0x12#8, 0x80#8, 0xe2#8, 0xeb#8, 0x27#8, 0xb2#8, 0x75#8]

/-- Part 1 of `aesSbox`. -/
def aesSbox1 : List Byte :=
  [0x09#8, 0x83#8, 0x2c#8, 0x1a#8, 0x1b#8, 0x6e#8, 0x5a#8, 0xa0#8, 0x52#8, 0x3b#8, 0xd6#8, 0xb3#8, 0x29#8, 0xe3#8, 0x2f#8, 0x84#8,
   0x53#8, 0xd1#8, 0x00#8, 0xed#8, 0x20#8, 0xfc#8, 0xb1#8, 0x5b#8, 0x6a#8, 0xcb#8, 0xbe#8, 0x39#8, 0x4a#8, 0x4c#8, 0x58#8, 0xcf#8,
   0xd0#8, 0xef#8, 0xaa#8, 0xfb#8, 0x43#8, 0x4d#8, 0x33#8, 0x85#8, 0x45#8, 0xf9#8, 0x02#8, 0x7f#8, 0x50#8, 0x3c#8, 0x9f#8, 0xa8#8,
   0x51#8, 0xa3#8, 0x40#8, 0x8f#8, 0x92#8, 0x9d#8, 0x38#8, 0xf5#8, 0xbc#8, 0xb6#8, 0xda#8, 0x21#8, 0x10#8, 0xff#8, 0xf3#8, 0xd2#8]

/-- Part 2 of `aesSbox`. -/
def aesSbox2 : List Byte :=
  [0xcd#8, 0x0c#8, 0x13#8, 0xec#8, 0x5f#8, 0x97#8, 0x44#8, 0x17#8, 0xc4#8, 0xa7#8, 0x7e#8, 0x3d#8, 0x64#8, 0x5d#8, 0x19#8, 0x73#8,
   0x60#8, 0x81#8, 0x4f#8, 0xdc#8, 0x22#8, 0x2a#8, 0x90#8, 0x88#8, 0x46#8, 0xee#8, 0xb8#8, 0x14#8, 0xde#8, 0x5e#8, 0x0b#8, 0xdb#8,
   0xe0#8, 0x32#8, 0x3a#8, 0x0a#8, 0x49#8, 0x06#8, 0x24#8, 0x5c#8, 0xc2#8, 0xd3#8, 0xac#8, 0x62#8, 0x91#8, 0x95#8, 0xe4#8, 0x79#8,
   0xe7#8, 0xc8#8, 0x37#8, 0x6d#8, 0x8d#8, 0xd5#8, 0x4e#8, 0xa9#8, 0x6c#8, 0x56#8, 0xf4#8, 0xea#8, 0x65#8, 0x7a#8, 0xae#8, 0x08#8]

/-- Part 3 of `aesSbox`. -/
def aesSbox3 : List Byte :=
  [0xba#8, 0x78#8, 0x25#8, 0x2e#8, 0x1c#8, 0xa6#8, 0xb4#8, 0xc6#8, 0xe8#8, 0xdd#8, 0x74#8, 0x1f#8, 0x4b#8, 0xbd#8, 0x8b#8, 0x8a#8,
   0x70#8, 0x3e#8, 0xb5#8, 0x66#8, 0x48#8, 0x03#8, 0xf6#8, 0x0e#8, 0x61#8, 0x35#8, 0x57#8, 0xb9#8, 0x86#8, 0xc1#8, 0x1d#8, 0x9e#8,
   0xe1#8, 0xf8#8, 0x98#8, 0x11#8, 0x69#8, 0xd9#8, 0x8e#8, 0x94#8, 0x9b#8, 0x1e#8, 0x87#8, 0xe9#8, 0xce#8, 0x55#8, 0x28#8, 0xdf#8,
   0x8c#8, 0xa1#8, 0x89#8, 0x0d#8, 0xbf#8, 0xe6#8, 0x42#8, 0x68#8, 0x41#8, 0x99#8, 0x2d#8, 0x0f#8, 0xb0#8, 0x54#8, 0xbb#8, 0x16#8]

/-- The AES S-box (FIPS 197). -/
def aesSbox : List Byte := aesSbox0 ++ aesSbox1 ++ aesSbox2 ++ aesSbox3

/-- Part 0 of `aesInvSbox`. -/
def aesInvSbox0 : List Byte :=
  [0x52#8, 0x09#8, 0x6a#8, 0xd5#8, 0x30#8, 0x36#8, 0xa5#8, 0x38#8, 0xbf#8, 0x40#8, 0xa3#8, 0x9e#8, 0x81#8, 0xf3#8, 0xd7#8, 0xfb#8,
   0x7c#8, 0xe3#8, 0x39#8, 0x82#8, 0x9b#8, 0x2f#8, 0xff#8, 0x87#8, 0x34#8, 0x8e#8, 0x43#8, 0x44#8, 0xc4#8, 0xde#8, 0xe9#8, 0xcb#8,
   0x54#8, 0x7b#8, 0x94#8, 0x32#8, 0xa6#8, 0xc2#8, 0x23#8, 0x3d#8, 0xee#8, 0x4c#8, 0x95#8, 0x0b#8, 0x42#8, 0xfa#8, 0xc3#8, 0x4e#8,
   0x08#8, 0x2e#8, 0xa1#8, 0x66#8, 0x28#8, 0xd9#8, 0x24#8, 0xb2#8, 0x76#8, 0x5b#8, 0xa2#8, 0x49#8, 0x6d#8, 0x8b#8, 0xd1#8, 0x25#8]

/-- Part 1 of `aesInvSbox`. -/
def aesInvSbox1 : List Byte :=
  [0x72#8, 0xf8#8, 0xf6#8, 0x64#8, 0x86#8, 0x68#8, 0x98#8, 0x16#8, 0xd4#8, 0xa4#8, 0x5c#8, 0xcc#8, 0x5d#8, 0x65#8, 0xb6#8, 0x92#8,
   0x6c#8, 0x70#8, 0x48#8, 0x50#8, 0xfd#8, 0xed#8, 0xb9#8, 0xda#8, 0x5e#8, 0x15#8, 0x46#8, 0x57#8, 0xa7#8, 0x8d#8, 0x9d#8, 0x84#8,
   0x90#8, 0xd8#8, 0xab#8, 0x00#8, 0x8c#8, 0xbc#8, 0xd3#8, 0x0a#8, 0xf7#8, 0xe4#8, 0x58#8, 0x05#8, 0xb8#8, 0xb3#8, 0x45#8, 0x06#8,
   0xd0#8, 0x2c#8, 0x1e#8, 0x8f#8, 0xca#8, 0x3f#8, 0x0f#8, 0x02#8, 0xc1#8, 0xaf#8, 0xbd#8, 0x03#8, 0x01#8, 0x13#8, 0x8a#8, 0x6b#8]

/-- Part 2 of `aesInvSbox`. -/
def aesInvSbox2 : List Byte :=
  [0x3a#8, 0x91#8, 0x11#8, 0x41#8, 0x4f#8, 0x67#8, 0xdc#8, 0xea#8, 0x97#8, 0xf2#8, 0xcf#8, 0xce#8, 0xf0#8, 0xb4#8, 0xe6#8, 0x73#8,
   0x96#8, 0xac#8, 0x74#8, 0x22#8, 0xe7#8, 0xad#8, 0x35#8, 0x85#8, 0xe2#8, 0xf9#8, 0x37#8, 0xe8#8, 0x1c#8, 0x75#8, 0xdf#8, 0x6e#8,
   0x47#8, 0xf1#8, 0x1a#8, 0x71#8, 0x1d#8, 0x29#8, 0xc5#8, 0x89#8, 0x6f#8, 0xb7#8, 0x62#8, 0x0e#8, 0xaa#8, 0x18#8, 0xbe#8, 0x1b#8,
   0xfc#8, 0x56#8, 0x3e#8, 0x4b#8, 0xc6#8, 0xd2#8, 0x79#8, 0x20#8, 0x9a#8, 0xdb#8, 0xc0#8, 0xfe#8, 0x78#8, 0xcd#8, 0x5a#8, 0xf4#8]

/-- Part 3 of `aesInvSbox`. -/
def aesInvSbox3 : List Byte :=
  [0x1f#8, 0xdd#8, 0xa8#8, 0x33#8, 0x88#8, 0x07#8, 0xc7#8, 0x31#8, 0xb1#8, 0x12#8, 0x10#8, 0x59#8, 0x27#8, 0x80#8, 0xec#8, 0x5f#8,
   0x60#8, 0x51#8, 0x7f#8, 0xa9#8, 0x19#8, 0xb5#8, 0x4a#8, 0x0d#8, 0x2d#8, 0xe5#8, 0x7a#8, 0x9f#8, 0x93#8, 0xc9#8, 0x9c#8, 0xef#8,
   0xa0#8, 0xe0#8, 0x3b#8, 0x4d#8, 0xae#8, 0x2a#8, 0xf5#8, 0xb0#8, 0xc8#8, 0xeb#8, 0xbb#8, 0x3c#8, 0x83#8, 0x53#8, 0x99#8, 0x61#8,
   0x17#8, 0x2b#8, 0x04#8, 0x7e#8, 0xba#8, 0x77#8, 0xd6#8, 0x26#8, 0xe1#8, 0x69#8, 0x14#8, 0x63#8, 0x55#8, 0x21#8, 0x0c#8, 0x7d#8]

/-- The inverse AES S-box (FIPS 197). -/
def aesInvSbox : List Byte := aesInvSbox0 ++ aesInvSbox1 ++ aesInvSbox2 ++ aesInvSbox3

/-- Multiplication by x in GF(2^8). -/
def xtime (b : Byte) : Byte := (b <<< 1) ^^^ (if b.msb then 0x1B else 0)

/-- Bytewise exclusive or. -/
def xorB (a b : List Byte) : List Byte := List.zipWith (· ^^^ ·) a b

def subB (b : Byte) : Byte := aesSbox.getD b.toNat 0
def invSubB (b : Byte) : Byte := aesInvSbox.getD b.toNat 0

/-- The four bytes of key-schedule word `i`, from the words before it. -/
def aesNextWord (nk i : Nat) (w : List (List Byte)) (rcon : Byte) : List Byte :=
  let prev := w.getD (i - 1) []
  let t :=
    if i % nk = 0 then
      match prev with
      | [a, b, c, e] => [subB b ^^^ rcon, subB c, subB e, subB a]
      | _ => prev
    else if 6 < nk && i % nk = 4 then prev.map subB
    else prev
  xorB (w.getD (i - nk) []) t

/-- The key schedule as 16-byte round keys. -/
def aesKeys (key : List Byte) : List (List Byte) :=
  let nk := key.length / 4
  let nr := nk + 6
  let w0 := (List.range nk).map (fun i => bytesAt key (4 * i) 4)
  let (w, _) := (List.range (4 * (nr + 1) - nk)).foldl
    (fun (w, rc) j =>
      let i := nk + j
      (w ++ [aesNextWord nk i w rc], if i % nk = 0 then xtime rc else rc)) (w0, (1 : Byte))
  (List.range (nr + 1)).map (fun r => ((w.drop (4 * r)).take 4).flatten)

def shiftRows (s : List Byte) : List Byte :=
  (List.range 16).map (fun i => s.getD ((i + 4 * (i % 4)) % 16) 0)
def invShiftRows (s : List Byte) : List Byte :=
  (List.range 16).map (fun i => s.getD ((i + 16 - 4 * (i % 4)) % 16) 0)

def mixCol : List Byte → List Byte
  | [a, b, c, e] =>
    let t := a ^^^ b ^^^ c ^^^ e
    [a ^^^ t ^^^ xtime (a ^^^ b), b ^^^ t ^^^ xtime (b ^^^ c), c ^^^ t ^^^ xtime (c ^^^ e), e ^^^ t ^^^ xtime (e ^^^ a)]
  | l => l

def invMixCol : List Byte → List Byte
  | [a, b, c, e] =>
    let u := xtime (xtime (a ^^^ c))
    let v := xtime (xtime (b ^^^ e))
    mixCol [a ^^^ u, b ^^^ v, c ^^^ u, e ^^^ v]
  | l => l

def mapCols (f : List Byte → List Byte) (s : List Byte) : List Byte :=
  ((List.range 4).map (fun c => f (bytesAt s (4 * c) 4))).flatten

/-- AES encryption of one block under expanded keys. -/
def aesEncK (ks : List (List Byte)) (block : List Byte) : List Byte :=
  match ks with
  | [] => block
  | k0 :: rest =>
    let n := rest.length
    (rest.zipIdx).foldl (fun s (k, i) =>
      let s := shiftRows (s.map subB)
      xorB (if i + 1 = n then s else mapCols mixCol s) k) (xorB block k0)

/-- AES decryption of one block under expanded keys. -/
def aesDecK (ks : List (List Byte)) (block : List Byte) : List Byte :=
  match ks.reverse with
  | [] => block
  | kn :: rest =>
    let n := rest.length
    (rest.zipIdx).foldl (fun s (k, i) =>
      let s := xorB ((invShiftRows s).map invSubB) k
      if i + 1 = n then s else mapCols invMixCol s) (xorB block kn)

/-- Doubling in GF(2^128) for the CMAC subkeys. -/
def dbl128 (b : List Byte) : List Byte :=
  let v := beNat b
  let w := (v * 2) % 2 ^ 128
  beBytes 16 (if v < 2 ^ 127 then w else w ^^^ 0x87)

/-- Splits a message into blocks of 16 bytes; the last may be short. -/
def blocks16 (n : Nat) (m : List Byte) : List (List Byte) :=
  match n with
  | 0 => []
  | n + 1 => if m.length ≤ 16 then [m] else m.take 16 :: blocks16 n (m.drop 16)

/-- AES-CMAC (SP 800-38B) of a message under a 128- or 256-bit key. -/
def cmac (key msg : List Byte) : List Byte :=
  let ks := aesKeys key
  let k1 := dbl128 (aesEncK ks (zeroBytes 16))
  let bs := blocks16 (msg.length + 1) msg
  let lastB := bs.getLastD []
  let lastX :=
    if lastB.length = 16 then xorB lastB k1
    else xorB (lastB ++ (0x80#8 :: zeroBytes (15 - lastB.length))) (dbl128 k1)
  let c := bs.dropLast.foldl (fun c b => aesEncK ks (xorB c b)) (zeroBytes 16)
  aesEncK ks (xorB c lastX)

/-- One pass of the key-wrap ladder: A and the registers after step `t`. -/
def wrapStep (ks : List (List Byte)) (n : Nat) (ar : List Byte × List (List Byte)) (t : Nat) : List Byte × List (List Byte) :=
  let i := (t - 1) % n
  let b := aesEncK ks (ar.1 ++ ar.2.getD i [])
  (xorB (b.take 8) (beBytes 8 t), ar.2.set i (b.drop 8))

/-- AES key wrap of RFC 3394. -/
def keyWrap (kek key : List Byte) : List Byte :=
  let ks := aesKeys kek
  let n := key.length / 8
  let r0 := (List.range n).map (fun i => bytesAt key (8 * i) 8)
  let (a, r) := (List.range (6 * n)).foldl (fun ar t => wrapStep ks n ar (t + 1)) (List.replicate 8 0xA6#8, r0)
  a ++ r.flatten

/-- One inverse step of the key-wrap ladder. -/
def unwrapStep (ks : List (List Byte)) (n : Nat) (ar : List Byte × List (List Byte)) (t : Nat) : List Byte × List (List Byte) :=
  let i := (t - 1) % n
  let b := aesDecK ks (xorB ar.1 (beBytes 8 t) ++ ar.2.getD i [])
  (b.take 8, ar.2.set i (b.drop 8))

/-- AES key unwrap of RFC 3394: none where the integrity check fails. -/
def keyUnwrap (kek w : List Byte) : Option (List Byte) :=
  let ks := aesKeys kek
  let n := w.length / 8 - 1
  let r0 := (List.range n).map (fun i => bytesAt w (8 * (i + 1)) 8)
  let (a, r) := (List.range (6 * n)).foldl (fun ar t => unwrapStep ks n ar (6 * n - t)) (w.take 8, r0)
  if a = List.replicate 8 0xA6#8 ∧ w.length % 8 = 0 ∧ 2 ≤ n then some r.flatten else none

/-- Part 0 of `shaK`. -/
def shaK0 : List (BitVec 64) :=
  [0x428a2f98d728ae22#64, 0x7137449123ef65cd#64, 0xb5c0fbcfec4d3b2f#64, 0xe9b5dba58189dbbc#64,
   0x3956c25bf348b538#64, 0x59f111f1b605d019#64, 0x923f82a4af194f9b#64, 0xab1c5ed5da6d8118#64,
   0xd807aa98a3030242#64, 0x12835b0145706fbe#64, 0x243185be4ee4b28c#64, 0x550c7dc3d5ffb4e2#64,
   0x72be5d74f27b896f#64, 0x80deb1fe3b1696b1#64, 0x9bdc06a725c71235#64, 0xc19bf174cf692694#64,
   0xe49b69c19ef14ad2#64, 0xefbe4786384f25e3#64, 0x0fc19dc68b8cd5b5#64, 0x240ca1cc77ac9c65#64,
   0x2de92c6f592b0275#64, 0x4a7484aa6ea6e483#64, 0x5cb0a9dcbd41fbd4#64, 0x76f988da831153b5#64,
   0x983e5152ee66dfab#64, 0xa831c66d2db43210#64, 0xb00327c898fb213f#64, 0xbf597fc7beef0ee4#64,
   0xc6e00bf33da88fc2#64, 0xd5a79147930aa725#64, 0x06ca6351e003826f#64, 0x142929670a0e6e70#64,
   0x27b70a8546d22ffc#64, 0x2e1b21385c26c926#64, 0x4d2c6dfc5ac42aed#64, 0x53380d139d95b3df#64,
   0x650a73548baf63de#64, 0x766a0abb3c77b2a8#64, 0x81c2c92e47edaee6#64, 0x92722c851482353b#64,
   0xa2bfe8a14cf10364#64, 0xa81a664bbc423001#64, 0xc24b8b70d0f89791#64, 0xc76c51a30654be30#64,
   0xd192e819d6ef5218#64, 0xd69906245565a910#64, 0xf40e35855771202a#64, 0x106aa07032bbd1b8#64,
   0x19a4c116b8d2d0c8#64, 0x1e376c085141ab53#64, 0x2748774cdf8eeb99#64, 0x34b0bcb5e19b48a8#64,
   0x391c0cb3c5c95a63#64, 0x4ed8aa4ae3418acb#64, 0x5b9cca4f7763e373#64, 0x682e6ff3d6b2b8a3#64,
   0x748f82ee5defb2fc#64, 0x78a5636f43172f60#64, 0x84c87814a1f0ab72#64, 0x8cc702081a6439ec#64,
   0x90befffa23631e28#64, 0xa4506cebde82bde9#64, 0xbef9a3f7b2c67915#64, 0xc67178f2e372532b#64]

/-- Part 1 of `shaK`. -/
def shaK1 : List (BitVec 64) :=
  [0xca273eceea26619c#64, 0xd186b8c721c0c207#64, 0xeada7dd6cde0eb1e#64, 0xf57d4f7fee6ed178#64,
   0x06f067aa72176fba#64, 0x0a637dc5a2c898a6#64, 0x113f9804bef90dae#64, 0x1b710b35131c471b#64,
   0x28db77f523047d84#64, 0x32caab7b40c72493#64, 0x3c9ebe0a15c9bebc#64, 0x431d67c49c100d4c#64,
   0x4cc5d4becb3e42b6#64, 0x597f299cfc657e2a#64, 0x5fcb6fab3ad6faec#64, 0x6c44198c4a475817#64]

/-- Round constants of SHA-384 (FIPS 180-4). -/
def shaK : List (BitVec 64) := shaK0 ++ shaK1

/-- Initial hash value of SHA-384 (FIPS 180-4). -/
def shaH0 : List (BitVec 64) :=
  [0xcbbb9d5dc1059ed8#64, 0x629a292a367cd507#64, 0x9159015a3070dd17#64, 0x152fecd8f70e5939#64,
   0x67332667ffc00b31#64, 0x8eb44a8768581511#64, 0xdb0c2e0d64f98fa7#64, 0x47b5481dbefa4fa4#64]

def word64 (l : List (BitVec 64)) (i : Nat) : BitVec 64 := l.getD i 0

/-- The message schedule of one 128-byte block. -/
def shaSchedule (b : List Byte) : List (BitVec 64) :=
  let w0 := (List.range 16).map (fun i => BitVec.ofNat 64 (beNat (bytesAt b (8 * i) 8)))
  (List.range 64).foldl (fun w j =>
    let i := 16 + j
    let a := word64 w (i - 15)
    let c := word64 w (i - 2)
    let s0 := a.rotateRight 1 ^^^ a.rotateRight 8 ^^^ (a >>> 7)
    let s1 := c.rotateRight 19 ^^^ c.rotateRight 61 ^^^ (c >>> 6)
    w ++ [word64 w (i - 16) + s0 + word64 w (i - 7) + s1]) w0

/-- One round of SHA-384. -/
def shaRound (v : List (BitVec 64)) (kw : BitVec 64) : List (BitVec 64) :=
  match v with
  | [a, b, c, dd, e, f, g, h] =>
    let s1 := e.rotateRight 14 ^^^ e.rotateRight 18 ^^^ e.rotateRight 41
    let t1 := h + s1 + ((e &&& f) ^^^ (~~~e &&& g)) + kw
    let s0 := a.rotateRight 28 ^^^ a.rotateRight 34 ^^^ a.rotateRight 39
    let t2 := s0 + ((a &&& b) ^^^ (a &&& c) ^^^ (b &&& c))
    [t1 + t2, a, b, c, dd + t1, e, f, g]
  | _ => v

def shaBlock (h : List (BitVec 64)) (b : List Byte) : List (BitVec 64) :=
  let v := (List.zipWith (· + ·) shaK (shaSchedule b)).foldl shaRound h
  List.zipWith (· + ·) h v

/-- SHA-384 of a byte string. -/
def sha384 (m : List Byte) : List Byte :=
  let pad := (128 - (m.length + 17) % 128) % 128
  let p := m ++ (0x80#8 :: zeroBytes pad) ++ beBytes 16 (8 * m.length)
  let h := (List.range (p.length / 128)).foldl (fun h i => shaBlock h (bytesAt p (128 * i) 128)) shaH0
  (h.take 6).flatMap (fun w => beBytes 8 w.toNat)

/-- Bytes of an ASCII string. -/
def ascii (s : String) : List Byte := s.toList.map (fun c => BitVec.ofNat 8 c.toNat)

/-- The counter-mode KDF of SP 800-108 with AES-256-CMAC (R342): `bits` bits. -/
def kdf (root : List Byte) (label : String) (context : List Byte) (bits : Nat) : List Byte :=
  let n := ceilDiv bits 128
  ((List.range n).flatMap (fun i =>
    cmac root (beBytes 4 (i + 1) ++ ascii label ++ [0] ++ context ++ beBytes 4 bits))).take (bits / 8)

/-- One byte of a CRC with reflected input and output. -/
def crcByteR (w : Nat) (poly : BitVec w) (c : BitVec w) (b : Byte) : BitVec w :=
  (List.range 8).foldl (fun c _ => if c.getLsbD 0 then (c >>> 1) ^^^ poly else c >>> 1) (c ^^^ b.setWidth w)

/-- CRC-32C of RFC 3720 (R265): initial value and final inversion all ones. -/
def crc32c (m : List Byte) : BitVec 32 := ~~~(m.foldl (crcByteR 32 0x82F63B78#32) 0xFFFFFFFF#32)

/-- CRC-64 of R436: polynomial 0x42F0_E1EB_A9EA_3693 reflected, initial value and final XOR all ones. -/
def crc64 (m : List Byte) : BitVec 64 :=
  ~~~(m.foldl (crcByteR 64 0xC96C5795D7870F42#64) 0xFFFFFFFFFFFFFFFF#64)

/-- CRC-8 of R90: polynomial x^8 + x^2 + x + 1, initial value 0, most significant bit first. -/
def crc8 (m : List Byte) : Byte :=
  m.foldl (fun c b => (List.range 8).foldl
    (fun c _ => if c.msb then (c <<< 1) ^^^ 0x07#8 else c <<< 1) (c ^^^ b)) 0

/-- Toeplitz hash of an input under a key, in the manner of receive-side scaling (R277). -/
def toeplitz (key input : List Byte) : Nat :=
  let kb := beNat key
  let kl := 8 * key.length
  let bits := input.flatMap (fun b => (List.range 8).map (fun i => b.getLsbD (7 - i)))
  (bits.zipIdx).foldl (fun h (b, i) => if b then h ^^^ (kb / 2 ^ (kl - 32 - i) % 2 ^ 32) else h) 0

end Sys2Proof.Machine
end

