-- ==== Sys2Proof/Machine/Operands.lean ====
section
/-!
DEFINITION. Commands as operands: the bytes of a packet, its parameters, the key of its trailer, permissions, replies and
completions, and the one path every command packet takes (R381 to R398, R505, R507).
-/

namespace Sys2Proof.Machine

/-! ## Status codes (Table 15-6) -/

abbrev stOk : Nat := 0x0000
abbrev stAccepted : Nat := 0x0001
abbrev stBadOpcode : Nat := 0x0100
abbrev stBadLength : Nat := 0x0101
abbrev stBadParam : Nat := 0x0102
abbrev stRange : Nat := 0x0103
abbrev stAuthFail : Nat := 0x0200
abbrev stReplay : Nat := 0x0201
abbrev stNotPermitted : Nat := 0x0202
abbrev stBusy : Nat := 0x0300
abbrev stNoResource : Nat := 0x0301
abbrev stState : Nat := 0x0400
abbrev stPending : Nat := 0x0401
abbrev stTimeout : Nat := 0x0500
abbrev stInternal : Nat := 0x0600

end Sys2Proof.Machine

namespace Sys2Proof

open Machine

/-! ## Packets -/

/-- Flags of Table 15-2. -/
def Packet.crit (p : Packet) : Bool := p.flags.getLsbD 0
def Packet.replyReq (p : Packet) : Bool := p.flags.getLsbD 1
def Packet.more (p : Packet) : Bool := p.flags.getLsbD 2
def Packet.bulkFlag (p : Packet) : Bool := p.flags.getLsbD 3

/-- The command header of Table 15-1 with a stamped sender ID. -/
def Packet.header (p : Packet) (sid : Nat) : List Byte :=
  leBytes 2 p.magic.toNat ++ leBytes 1 p.version.toNat ++ leBytes 1 p.flags.toNat ++ leBytes 2 p.op ++ leBytes 2 p.tag.toNat
    ++ leBytes 2 sid ++ leBytes 2 p.plen ++ leBytes 4 p.target.toNat ++ leBytes 8 p.counter.toNat
    ++ leBytes 8 p.reserved.toNat

/-- The parameter bytes the length field counts (log 6: area bytes the sender did not write read as zero). -/
def Packet.body (p : Packet) : List Byte := bytesAt p.params 0 p.plen

/-- The bytes of a packet in its area: header, parameters, trailer. -/
def Packet.bytes (p : Packet) (sid : Nat) : List Byte := p.header sid ++ p.body ++ p.trailer

/-- A packet as the interpreter reads it from its bytes; the trailer is what follows the parameters when flag 0 is set. -/
def Packet.ofBytes (chan : Nat) (bs : List Byte) : Packet :=
  let plen := natAt bs 10 2
  let crit := bitN (natAt bs 3 1) 0
  { chan := chan, magic := BitVec.ofNat 16 (natAt bs 0 2), version := BitVec.ofNat 8 (natAt bs 2 1),
    flags := BitVec.ofNat 8 (natAt bs 3 1), op := natAt bs 4 2, tag := BitVec.ofNat 16 (natAt bs 6 2), plen := plen,
    target := BitVec.ofNat 32 (natAt bs 12 4), counter := BitVec.ofNat 64 (natAt bs 16 8),
    reserved := BitVec.ofNat 64 (natAt bs 24 8), params := bytesAt bs 32 plen,
    trailer := if crit then bytesAt bs (32 + plen) 16 else [], sendLen := bs.length }

/-- Whether a command gets a reply with a status (R385). -/
def Packet.wantsReply (p : Packet) (st : Nat) : Bool :=
  p.crit || p.replyReq || !(st = stOk || st = stAccepted || st = stPending)

end Sys2Proof

namespace Sys2Proof.Machine

/-- Sender ID stamped by hardware (R369). -/
def Dev.senderId (d : Dev) (ch : Nat) : Nat :=
  ch + (if 48 ≤ ch then 64 * (mgetD d.join.peers ch 0 % 512) else 0)

/-! ## A command in the hands of its body -/

/-- A command as its body sees it: packet, whole parameters, the sender's masks when it was taken (R394), whether its
trailer verified and under which key (R386). -/
structure Cmd where
  p : Packet
  params : List Byte
  snd : Sender
  trailed : Bool := false
  key : List Byte := []

def Cmd.tgt (c : Cmd) : Nat := c.p.target.toNat
def Cmd.u8 (c : Cmd) (i : Nat) : Nat := natAt c.params i 1
def Cmd.u16 (c : Cmd) (i : Nat) : Nat := natAt c.params i 2
def Cmd.u24 (c : Cmd) (i : Nat) : Nat := natAt c.params i 3
def Cmd.u32 (c : Cmd) (i : Nat) : Nat := natAt c.params i 4
def Cmd.u48 (c : Cmd) (i : Nat) : Nat := natAt c.params i 6
def Cmd.u64 (c : Cmd) (i : Nat) : Nat := natAt c.params i 8
def Cmd.i8 (c : Cmd) (i : Nat) : Int := signedOf 8 (c.u8 i)
def Cmd.i32 (c : Cmd) (i : Nat) : Int := signedOf 32 (c.u32 i)
def Cmd.bs (c : Cmd) (i n : Nat) : List Byte := bytesAt c.params i n
def Cmd.bit (c : Cmd) (i b : Nat) : Bool := bitN (c.u8 i) b

/-- Package scope (R393). -/
def Sender.pkg (s : Sender) : Bool := s.caps.getLsbD 0

/-- Whether a domain is in a sender's scope (R393). -/
def Sender.dom (s : Sender) (sdom : Nat) : Bool := s.pkg || s.doms.getLsbD sdom

/-- Domains that a terminal's allocations name (R507). -/
def Dev.termDoms (d : Dev) (tid : Nat) : List Nat := (d.allocs.filter (fun a => a.2.tid = tid)).map (fun a => a.2.p.sdom)

/-- Whether a sender may read a terminal (R507). -/
def Dev.mayReadTerm (d : Dev) (s : Sender) (tid : Nat) : Bool := s.pkg || (d.termDoms tid).any s.dom

/-- Whether a sender may change a terminal (R507). -/
def Dev.mayActTerm (d : Dev) (s : Sender) (tid : Nat) : Bool :=
  s.pkg || (!(d.termDoms tid).isEmpty && (d.termDoms tid).all s.dom)

/-- What a body answers: the state it leaves, the status, the reply body, the detail of Table 15-3, the completion it
awaits, an action that follows the reply, and whether its reply comes later (bulk, R378). -/
structure Res where
  dev : Dev
  st : Nat := stOk
  body : List Byte := []
  ofs : Nat := 0xFFFF
  applied : Nat := 0
  job : Option (JobKind × Nat) := none
  after : Dev → Dev := id
  later : Bool := false

/-- A refusal: nothing changes. -/
def Dev.fail (d : Dev) (st : Nat) (ofs : Nat := 0xFFFF) : Res := { dev := d, st := st, ofs := ofs }

/-- Success with a reply body. -/
def Dev.ok (d : Dev) (body : List Byte := []) : Res := { dev := d, body := body }

/-- Started: a completion of a kind follows for an object (R397). -/
def Dev.accepted (d : Dev) (st : Nat) (k : JobKind) (obj : Nat) : Res := { dev := d, st := st, job := some (k, obj) }

/-- Byte offsets of a target handle and of a parameter in the packet (Table 15-3). -/
def ofsTgt : Nat := 12
def ofsP (i : Nat) : Nat := 32 + i

/-- Stops at a condition with a status. -/
def guardSt (bad : Bool) (st ofs : Nat) (d : Dev) (k : Unit → Res) : Res := if bad then d.fail st ofs else k ()

/-- Rounds a length up to a multiple of 4 (R502). -/
def pad4 (n : Nat) : Nat := (n + 3) / 4 * 4

/-- Adds zero bytes up to a multiple of 4 (R502). -/
def padBytes (b : List Byte) : List Byte := b ++ zeroBytes (pad4 b.length - b.length)

/-- Refusal of a handle on a tile of the variant that is not in RUN (R29). -/
def Dev.notRun (d : Dev) (t : Nat) : Bool := !d.tileRun t

/-- Checks the handle of a channel and that its tile runs (R6, R7, R29). -/
def Dev.onChan (d : Dev) (ch ofs : Nat) (k : Unit → Res) : Res :=
  if !d.chanOk ch then d.fail stRange ofs else if d.notRun (tileOfChan ch) then d.fail stState else k ()

/-- Checks the handle of a tree and that its tile runs. -/
def Dev.onTree (d : Dev) (t ofs : Nat) (k : Unit → Res) : Res :=
  if d.nTrees ≤ t then d.fail stRange ofs else if d.notRun (tileOfTree t) then d.fail stState else k ()

/-- Checks the handle of an uplink sub-port and that its tile runs. -/
def Dev.onSub (d : Dev) (p ofs : Nat) (k : Unit → Res) : Res :=
  if d.nSubs ≤ p then d.fail stRange ofs else if d.notRun (tileOfSub p) then d.fail stState else k ()

/-- An opcode: its number, whether it is critical (Table 15-8), whether it needs package scope, whether every sender may
use it, whether it takes bulk data, the parameter lengths it allows, its domain check and its body. -/
structure CmdSpec where
  op : Nat
  crit : Bool := false
  pkg : Bool := false
  anyone : Bool := false
  bulk : Bool := false
  lenOk : Packet → List Byte → Bool
  scope : Cmd → Dev → Bool := fun _ _ => true
  body : Cmd → Dev → Res

/-- A parameter length of exactly `n` bytes. -/
def lenIs (n : Nat) : Packet → List Byte → Bool := fun _ ps => ps.length = n

/-! ## Replies -/

/-- A reply or completion (R384 to R386). -/
def replyBytes (p : Packet) (sid : Nat) (trailed : Bool) (key : List Byte) (completion : Bool) (st ofs applied : Nat)
    (body : List Byte) : List Byte :=
  let flags := b2n trailed + 2 * b2n p.replyReq + 16 * b2n completion
  let m := replyHeader flags (p.op % 32768 + 32768) p.tag.toNat sid body.length p.target.toNat p.counter.toNat st ofs 0xFF
    applied ++ body
  if trailed then m ++ cmac key m else m


/-- A message to a sender; while the CXL link is down, replies for channels 1-31 are discarded (R365), and those of channels 48-63
return as REPLY messages to the peer (R416). -/
def Dev.toSender (d : Dev) (ch : Nat) (bytes : List Byte) : Dev :=
  if 1 ≤ ch && ch < 32 && !d.host.linkUp then d
  else match (if 48 ≤ ch then mget d.join.peers ch else none) with
    | some id =>
      let (n, d) := d.nextSeq 0x21
      d.sysBytesTo (d.routeTo id) 0x21 id n bytes
    | none => d.sendTo ch bytes

/-- Counts a reply's status (R401). -/
def Dev.noteStatus (d : Dev) (ch st : Nat) : Dev :=
  if st = stAuthFail then d.count .cmdAuthFail ch
  else if st = stReplay then d.count .cmdReplay ch
  else if st = stNotPermitted then d.count .cmdNotPermitted ch
  else if st = stAccepted || st = stPending then d.count .cmdPending ch
  else d

/-- Answers a command (R384, R385, R401). -/
def Dev.answer (d : Dev) (c : Cmd) (st ofs applied : Nat) (body : List Byte) : Dev :=
  let d := d.noteStatus c.p.chan st
  if c.p.wantsReply st then
    d.toSender c.p.chan (replyBytes c.p (d.senderId c.p.chan) c.trailed c.key false st ofs applied body)
  else d

/-- Sends the completion of a job (R385, R397). A job whose channel a link loss emptied completes without one (R365). -/
def Dev.completeJob (d : Dev) (j : Job) (st : Nat) (body : List Byte) (applied : Nat := 0) : Dev :=
  if j.chan = 0 then d
  else d.toSender j.chan (replyBytes j.pkt (d.senderId j.chan) j.trailed j.key true st 0xFFFF applied body)

/-- Completes every job of a kind on an object, oldest first, and removes it. -/
def Dev.complete (d : Dev) (k : JobKind) (obj : Nat) (st : Nat) (body : List Byte := []) : Dev :=
  let js := d.host.jobs.filter (fun j => j.kind = k && j.obj = obj)
  let d : Dev := { d with host := { d.host with jobs := d.host.jobs.filter (fun j => !(j.kind = k && j.obj = obj)) } }
  js.foldl (fun d j => d.completeJob j st body) d

/-- Jobs of a kind on an object. -/
def Dev.jobsOf (d : Dev) (k : JobKind) (obj : Nat) : List Job := d.host.jobs.filter (fun j => j.kind = k && j.obj = obj)

/-- Commands of a channel that await completion (R397). -/
def Dev.awaiting (d : Dev) (ch : Nat) : Nat := (d.host.jobs.filter (fun j => j.chan = ch)).length

/-! ## Bulk transfers (R377, R378) -/

/-- Descriptors of one list up to and with the first that has chain or last set; none when the 4,096th has neither. -/
def listTake : List Desc → Nat → Option (List Desc)
  | [], _ => none
  | _, 0 => none
  | x :: xs, n + 1 => if x.last || x.chain then some [x] else (listTake xs n).map (x :: ·)

/-- The chain of lists from an address, at most `n` lists. -/
def chainTake (m : List (BitVec 64 × List Desc)) : BitVec 64 → Nat → Option (List (BitVec 64 × Desc))
  | _, 0 => none
  | a, n + 1 =>
    if a.toNat % 64 ≠ 0 then none
    else match m.lookup a with
      | none => none
      | some l => match listTake l 4096 with
        | none => none
        | some ds =>
          let here := ds.zipIdx.map (fun (x, i) => (a + BitVec.ofNat 64 (32 * i), x))
          match ds.getLast? with
          | some x => if x.chain && !x.last then (chainTake m x.next n).map (here ++ ·) else some here
          | none => none

/-- The checked descriptors of a bulk command with the addresses they stand at (R378): lists aligned and closed, at most 16,
directions those of the opcode, lengths legal and summing to the total of at most 256 MiB. -/
def bulkDescs (mem : BulkMem) (head : List Byte) : Option (List (BitVec 64 × Desc)) :=
  let total := natAt head 8 4
  match chainTake mem.lists (BitVec.ofNat 64 (natAt head 0 8)) 16 with
  | none => none
  | some ds =>
    if ds.all (fun x => !x.2.toHost && 1 ≤ x.2.len && x.2.len < 2 ^ 24) && (ds.map (fun x => x.2.len)).foldl (· + ·) 0 = total
        && total ≤ 2 ^ 28 && mem.data.length = total then some ds
    else none

/-- The write-back of a descriptor: bytes done and status (Table 14-8). -/
def writeBack (x : BitVec 64 × Desc) (done status : Nat) : Output := .dma (x.1 + 24) (leBytes 4 done ++ leBytes 1 status)

/-! ## The path of a packet -/

/-- Key of a channel's trailer (Table 15-4), or the status that refuses it. -/
def Dev.trailerKey (d : Dev) (ch : Nat) : Except Nat (List Byte) :=
  let s := d.sender ch
  match d.cru.life with
  | .blank => .ok (zeroBytes 32)
  | .scrapped => .error stState
  | _ => match s.slot with
    | some n =>
      let x := d.pslot n
      if x.kind = 1 && !x.stale && s.slotW = x.wcount then .ok x.key else .error stAuthFail
    | none =>
      if ch = 1 && !d.host.boundOnce then
        .ok (cmac d.cru.anchor (ascii "LNST-SND" ++ leBytes 8 Config.deviceId.toNat ++ [1]))
      else .error stAuthFail

/-- A packet that step 1 refuses with ST_AUTH_FAIL: the run of R392, and at 16 the 1 s refusal and its notice. -/
def Dev.authFailed (d : Dev) (ch : Nat) : Dev :=
  let s := d.sender ch
  if 15 ≤ s.authRun then
    (d.setSender ch { s with authRun := 0, refuseEnd := some (d.now + rawS 1) }).raise 0x0C 0x03 0 0 ch 0 false
  else d.setSender ch { s with authRun := s.authRun + 1 }

/-- Persists a counter in the journal ring of a channel (R391). -/
def Dev.persist (d : Dev) (ch ctr : Nat) : Dev :=
  (d.updSender ch (fun s => { s with ring := ((ctr, s.seq + 1, true) :: s.ring).take 64, seq := s.seq + 1, consumed := ctr })).count
    .cmdCritical ch

/-- What a body answers, its completion registered: past 64 commands that await one it fails with ST_BUSY and changes nothing (R397). -/
def Dev.bodyResult (sp : CmdSpec) (c : Cmd) (d : Dev) : Res :=
  let r := sp.body c d
  match r.job with
  | some (k, obj) =>
    if 64 ≤ d.awaiting c.p.chan then d.fail stBusy
    else
      let j : Job := { id := r.dev.host.jobNo, chan := c.p.chan, pkt := c.p, trailed := c.trailed, key := c.key, kind := k, obj := obj }
      { r with dev := { r.dev with host := { r.dev.host with jobs := r.dev.host.jobs ++ [j], jobNo := r.dev.host.jobNo + 1 } } }
  | none => r

/-- Runs a body, its reply, and what follows the reply. -/
def Dev.runBody (sp : CmdSpec) (c : Cmd) (d : Dev) : Dev :=
  let r := d.bodyResult sp c
  if r.later then r.dev else r.after (r.dev.answer c r.st r.ofs r.applied r.body)

/-- Step 4 of R389 (R393, R507): none when the command is permitted, else the offset its refusal names. -/
def Dev.unpermitted (sp : CmdSpec) (c : Cmd) (d : Dev) : Option Nat :=
  if !(sp.anyone || (c.snd.caps.getLsbD (sp.op / 256) && (!sp.pkg || c.snd.pkg))) then some 4
  else if !sp.scope c d then some 0xFFFF
  else none

/-- Steps 4 to 6 of R389: permissions, then the body or the start of a bulk transfer. -/
def Dev.execute (sp : CmdSpec) (c : Cmd) (d : Dev) : Dev :=
  match d.unpermitted sp c with
  | some ofs => d.answer c stNotPermitted ofs 0 []
  | none =>
    if c.p.bulkFlag then
      if !sp.bulk then d.answer c stBadParam 3 0 []
      else if d.host.bulk.isSome then d.answer c stBusy 0xFFFF 0 []
      else match bulkDescs c.p.bulk c.params with
        | none => d.answer c stBadParam (ofsP 0) 0 []
        | some _ =>
          { d with host := { d.host with
              bulk := some { job := { c.p with params := c.params, plen := c.params.length }, chan := c.p.chan, trailed := c.trailed, key := c.key, caps := c.snd.caps, doms := c.snd.doms } } }
    else d.runBody sp c

/-- Closes a fragment assembly with a status: the assembled command fails (R398); the reply of a critical one carries a trailer under the key
of its fragments (R386). -/
def Dev.abandonAsm (d : Dev) (ch st : Nat) : Dev :=
  match (d.mbox ch).asm with
  | none => d
  | some a =>
    let d := (d.updMbox ch (fun m => { m with asm := none })).count .fragAbandoned ch
    let p : Packet := { chan := ch, op := a.op, tag := BitVec.ofNat 16 a.tag, target := BitVec.ofNat 32 a.target,
                        flags := a.flags, counter := BitVec.ofNat 64 a.lastCtr }
    d.answer { p := p, params := [], snd := d.sender ch, trailed := a.crit, key := a.key } st 0xFFFF 0 []

/-- A packet refused by one of its checks: a fragment that fails ends its assembly (R398). -/
def Dev.refuse (d : Dev) (c : Cmd) (same : Bool) (st ofs : Nat) : Dev :=
  let d := if same then (d.updMbox c.p.chan (fun m => { m with asm := none })).count .fragAbandoned c.p.chan else d
  d.answer c st ofs 0 []

/-- Steps 2 and 3 of R389 and what follows: counter, fragments, persist, execution. -/
def Dev.accept (sp : CmdSpec) (c : Cmd) (asm : Option Assembly) (d : Dev) : Dev :=
  let ch := c.p.chan
  let ctr := c.p.counter.toNat
  let floor := max (d.sender ch).consumed ((asm.map (fun a => a.lastCtr)).getD 0)
  if c.p.crit && ctr ≤ floor then d.refuse c asm.isSome stReplay 16
  else if c.p.more then
    let a : Assembly := asm.getD { op := c.p.op, tag := c.p.tag.toNat, target := c.tgt, crit := c.p.crit }
    d.updMbox ch (fun m => { m with asm := some { a with
      params := a.params ++ c.params, count := a.count + 1, lastCtr := if c.p.crit then ctr else 0, atT := d.now,
      flags := c.p.flags, key := c.key } })
  else
    let ps := ((asm.map (fun a => a.params)).getD []) ++ c.params
    let c := { c with params := ps }
    let d' := if asm.isSome then d.updMbox ch (fun m => { m with asm := none }) else d
    if asm.isSome && !sp.lenOk c.p ps then (d'.count .fragAbandoned ch).answer c stBadLength 10 0 []
    else
      let d := if c.p.crit then d'.persist ch ctr else d'
      d.execute sp c

/-- Step 1 of R389 with the ceilings of R392: the status and the offset of a refusal, or ST_OK with the key that verified. -/
def Dev.verify (d : Dev) (c : Cmd) : Nat × Nat × List Byte × Dev :=
  let ch := c.p.chan
  let s := d.sender ch
  let recent := s.rate.filter (fun t => (d.now - t).toNat < (rawS 1).toNat)
  if 64 ≤ recent.length then (stBusy, 0xFFFF, [], (d.setSender ch { s with rate := recent }).count .cmdRateRefused ch)
  else
    let d := d.setSender ch { s with rate := d.now :: recent }
    let ofsT := 32 + c.p.plen
    if s.refuseEnd.isSome then (stAuthFail, ofsT, [], d)
    else match d.trailerKey ch with
      | .error st => (st, ofsT, [], if st = stAuthFail then d.authFailed ch else d)
      | .ok k =>
        if c.p.trailer ≠ cmac k (c.p.header (d.senderId ch) ++ c.params) then (stAuthFail, ofsT, [], d.authFailed ch)
        else (stOk, 0xFFFF, k, d.updSender ch (fun s => { s with authRun := 0 }))

/-- The path of a critical packet (R389). -/
def Dev.authenticate (sp : CmdSpec) (c : Cmd) (asm : Option Assembly) (d : Dev) : Dev :=
  match d.verify c with
  | (st, ofs, k, d) =>
    if st = stOk then Dev.accept sp { c with trailed := true, key := k } asm d else d.refuse c asm.isSome st ofs

/-- Whether a packet continues an assembly (R398). -/
def Assembly.sameAs (a : Assembly) (p : Packet) : Bool :=
  a.op = p.op && a.tag = p.tag.toNat && a.target = p.target.toNat && a.crit = p.crit

/-- The checks of R396 in their order, but for the length of the parameters: the status and the offset of a refusal. -/
def formStatus (p : Packet) (sp : Option CmdSpec) : Nat × Nat :=
  if p.magic ≠ 0x7A5C#16 then (stBadParam, 0)
  else if p.version ≠ 1#8 then (stBadParam, 2)
  else match sp with
    | none => (stBadOpcode, 4)
    | some sp =>
      if sp.crit && !p.crit then (stAuthFail, 3)
      else if p.sendLen ≠ 32 + p.plen + 16 * b2n p.crit || (if p.crit then 3792 else 3808) < p.plen then (stBadLength, 10)
      else if p.bulkFlag && (p.more || 32 ≤ p.chan) then (stBadParam, 3)
      else (stOk, 0xFFFF)

/-- A packet taken by the interpreter: the checks of R396, then R389. `sp` is none for an unknown opcode. -/
def Dev.process (sp : Option CmdSpec) (p : Packet) (d : Dev) : Dev :=
  let ch := p.chan
  let d := d.count .cmdTaken ch
  let c : Cmd := { p := p, params := p.body, snd := d.sender ch }
  let same := (d.mbox ch).asm.any (fun a => a.sameAs p)
  match formStatus p sp, sp with
  | (st, ofs), some sp =>
    if st ≠ stOk then d.refuse c same st ofs
    else
      let d := if (d.mbox ch).asm.isSome && !same then d.abandonAsm ch stBadParam else d
      let asm := (d.mbox ch).asm
      if asm.any (fun a => decide (16 ≤ a.count)) then d.refuse c true stBadLength 10
      else if asm.isNone && !p.more && !(if p.bulkFlag then 16 ≤ p.plen else sp.lenOk p c.params) then
        d.refuse c same stBadLength 10
      else if p.crit then d.authenticate sp c asm
      else d.accept sp c asm
  | (st, ofs), none => d.refuse c same st ofs

/-! ## Sending and taking (R369, R371) -/

/-- Words of a message in its area, those that are not zero (R368). -/
def areaOf (bs : List Byte) : List (Nat × BitVec 32) :=
  ((List.range ((bs.length + 3) / 4)).map (fun i => (i, BitVec.ofNat 32 (natAt bs (4 * i) 4)))).filter (fun e => e.2 ≠ 0)

/-- A write of MBX_SEND, or the arrival of a message for a channel 32-63 (R369). -/
def Dev.place (d : Dev) (p : Packet) : Dev :=
  let m := d.mbox p.chan
  let full : MboxChan := { m with send := some p, area := areaOf (p.bytes (d.senderId p.chan)) }
  if p.chan = 0 || 64 ≤ p.chan || !d.ready then d
  else if p.chan < 32 then
    if !d.host.linkUp then d
    else if m.send.isSome then d.setMbox p.chan { m with collision := true }
    else if p.sendLen < 32 || 3840 < p.sendLen then d.setMbox p.chan { m with badLen := true }
    else d.setMbox p.chan full
  else if m.send.isSome || p.sendLen < 32 || 3840 < p.sendLen then d.count .mbxInbandDrop p.chan
  else d.setMbox p.chan full

/-- Undelivered replies of a channel, the one in its receive area counted (R371). -/
def Dev.undelivered (d : Dev) (ch : Nat) : Nat := (d.mbox ch).queue.length + b2n (d.mbox ch).recv.isSome

/-- Whether the interpreter takes a channel's request now (R371): command-ready, one waiting, fewer than 16 replies held. -/
def Dev.canTake (d : Dev) (ch : Nat) : Bool := d.ready && (d.mbox ch).send.isSome && d.undelivered ch < 16

/-- The send area clears and its doorbell rings (R366). -/
def Dev.clearSend (d : Dev) (ch : Nat) : Dev :=
  let m := d.mbox ch
  let d := d.setMbox ch { m with send := none }
  let d : Dev := { d with host := { d.host with rrNext := ch % 63 + 1 } }
  if ch < 32 && m.irqFree then d.vector (ch + 1) else d

/-- The row of a command: its sender places the packet unless it already waits there, and the interpreter takes it as soon
as it may (log 5). -/
def Dev.runCommand (sp : CmdSpec) (p : Packet) (d : Dev) : Dev :=
  let p := { p with op := sp.op }
  let d := if (d.mbox p.chan).send = some p then d else d.place p
  if (d.mbox p.chan).send = some p && d.canTake p.chan then (d.clearSend p.chan).process (some sp) p else d

/-- A meaning that changes the package and never the queue or the outcome. -/
def live (f : Dev → Dev) (s : State) : Host.Outcome State Fault Refusal := .next { s with dev := f s.dev }

end Sys2Proof.Machine
end

