-- ==== Sys2Proof/Machine/Links.lean ====
section
/-!
DEFINITION. What a reset or the loss of a lane takes with it: the time source in use, the roles of lanes, and the tree of the joined
system as messages, attachment and detachment form it (R86, R124, R402 to R408, R414, R415).
-/

namespace Sys2Proof.Machine

/-! ## Rate and sources (R117, R124, R125) -/

/-- Sets the rate in force, limited to 32 bits signed, after a re-anchor. -/
def Dev.setRate (d : Dev) (r : Int) : Dev :=
  let d := d.reanchor
  { d with time := { d.time with rate := BitVec.ofInt 32 (max (-2147483648) (min 2147483647 r)) } }

/-! ## Sources and states (R124, R125) -/

/-- Whether a source code is valid now (Table 5-1). -/
def Dev.sourceOk (d : Dev) (c : Nat) : Bool :=
  if c = 1 then d.time.ptpOk else if c = 2 then d.time.sysOk else if c = 3 then d.time.ppsOk else false

/-- The source in use: the first valid one of the priority list; none while the host owns the servo. -/
def Dev.bestSource (d : Dev) : Nat := if d.hostServo then 0 else (d.timePrio.find? d.sourceOk).getD 0

/-- Mean of the rates of the last 60 s. -/
def meanRate (l : List Int) (dflt : Int) : Int := if l.isEmpty then dflt else l.foldl (· + ·) 0 / (l.length : Int)

/-- Enters ACQUIRING. -/
def Dev.acquire (d : Dev) : Dev := { d with time := { d.time with st := .acquiring, acqStepped := false, goodSince := none, holdoverAt := none } }

/-- Re-evaluates the source in use after a change of validity or of TIME_CFG. With no valid source and no host servo, LOCKED and ACQUIRING give
way to HOLDOVER, so too where the last source was lost under the host servo. -/
def Dev.retime (d : Dev) : Dev :=
  let new := d.bestSource
  let old := d.time.source
  let d : Dev := { d with time := { d.time with source := new } }
  if d.hostServo then d
  else if new = 0 then
    (if d.time.st = .locked || d.time.st = .acquiring then
      let d := d.setRate (meanRate d.time.rateHist d.time.rate.toInt)
      { d with time := { d.time with st := .holdover, holdoverAt := some d.now } }
     else d)
  else if new = old then d
  else
    if d.time.st = .locked then (if d.time.err.natAbs ≤ 500 then d else d.acquire)
    else if d.time.st = .acquiring then d
    else d.acquire

/-! ## T_op (R408) -/

/-- Largest root path sum in this device's subtree, its own included, in ns. -/
def Dev.deepest (d : Dev) : Nat := d.children.foldl (fun x p => max x (d.sysPort p).pDeep) d.join.sum

/-- Members joined below this device, and with it. -/
def Dev.subtree (d : Dev) : List Nat := d.join.ownId :: (d.join.below.map (fun e => e.2)).flatten

/-- T_op of a deepest path sum in ns. -/
def tOpOf (sum : Nat) : Nat := 2 * sum + 2000

/-! ## Barriers that end without running (R411) -/

/-- A barrier ends here with an abort status: its entrant's completion carries it, the enclosed command is discarded. -/
def Dev.barrierDrop (d : Dev) (n st : Nat) : Dev :=
  if mhas d.join.barriers n then
    (Dev.count { d with join := { d.join with barriers := mdel d.join.barriers n } } .barrierAbort 0).complete .barrier n st
  else d

/-- The device aborts a barrier and tells its subtree. -/
def Dev.barrierAbortDown (d : Dev) (n st : Nat) : Dev := (d.sysSend d.children 0x13 0xFFFF false true [(n : Int), (st : Int)]).barrierDrop n st

/-! ## The tree as the root sees it (R408, R411) -/

/-- The root computes T_op and republishes it when a delay changed by more than 1 µs or the tree changed; where members are gone the tree
re-forms, and the open barriers abort. -/
def Dev.opTimeFresh (d : Dev) (changed : Bool) : Dev :=
  if d.join.st ≠ .root then d
  else
    let t := tOpOf d.deepest
    let n := d.subtree.length
    let d := if n < d.join.nMembers then (d.join.barriers.map (fun e => e.1)).foldl (fun d n => d.barrierAbortDown n stState) d else d
    if changed || n ≠ d.join.nMembers || 2000 < ((t : Int) - d.join.tOp).natAbs then
      let d : Dev := { d with join := { d.join with tOp := t, nMembers := n } }
      d.sysSend d.children 0x08 0xFFFF false true [(t : Int), (n : Int)]
    else d

/-! ## Detaching and joining (R405, R414, R415) -/

/-- The device becomes DETACHED: DETACH on its child links, or on every tree link where the whole tree detaches; SYS time is lost and
the open barriers abort (R414, R415). -/
def Dev.detach (d : Dev) (from_ : Option Nat) (whole : Bool) : Dev :=
  if !d.joined then d
  else
    let links := (if whole then d.treeLinks else d.children).filter (fun p => some p ≠ from_)
    let d := d.sysSend links 0x06 0xFFFF whole true []
    let d := d.treeLinks.foldl (fun d p => d.updSysPort p (fun x => { x with role := .standby, asked := false, pJoined := false, pDeep := 0 })) d
    let d := (d.join.barriers.map (fun e => e.1)).foldl (fun d n => d.barrierDrop n stState) d
    let late := d.join.inflight.filter (fun t => (d.now - t).toNat < (rawNs d.join.tOp).toNat)
    let d : Dev := { d with join := { d.join with
      st := .detached, depth := 0, parent := 0, root := 0, sum := 0, low := d.join.ownId, detachedAt := d.now, nMembers := 0, below := [],
      inflight := late, depthNoted := false } }
    Dev.retime { d with time := { d.time with sysOk := false } }

/-- The device is joined again: counted, broadcasts cut off are counted lost, and a notification names root and depth (R409, R415). -/
def Dev.formed (d : Dev) : Dev :=
  let d := (d.count .reforms 0).count .bcastLost 0 d.join.inflight.length
  let d : Dev := { d with join := { d.join with inflight := [] } }
  d.notify 0x8B80 0 (leBytes 2 d.join.root ++ leBytes 1 d.join.depth ++ [0] ++ leBytes 2 d.join.nMembers)

/-- Root path sum through a port (R405). -/
def SysPort.pathSum (x : SysPort) : Nat := x.pSum + x.delay + 600

/-- A detached device sends ATTACH on the port to the ATTACHED neighbour with the smallest root path sum, never below hop 12. -/
def Dev.chooseParent (d : Dev) : Dev :=
  if d.join.st ≠ .detached then d
  else
    let cands := sysPorts.filter (fun p =>
      let x := d.sysPort p
      d.portUsable p && x.role = .standby && x.pJoined && x.measured)
    match sortBy (fun p => (d.sysPort p).pathSum) (cands.filter (fun p => (d.sysPort p).pHops < 12)) with
    | p :: _ =>
      let d := sysPorts.foldl (fun d q => if (d.sysPort q).asked then d.updSysPort q (fun x => { x with asked := false }) else d) d
      (d.updSysPort p (fun x => { x with asked := true })).sysSend [p] 0x04 (d.sysPort p).partner true false []
    | [] =>
      if cands.isEmpty || d.join.depthNoted then d
      else Dev.count { d with join := { d.join with depthNoted := true } } .depthRefused 0

/-- A link is lost to joining: a lost parent detaches the device, a lost child leaves the tree. -/
def Dev.dropLink (d : Dev) (p : Nat) : Dev :=
  match (d.sysPort p).role with
  | .parent => d.detach none false
  | .child =>
    Dev.opTimeFresh (Dev.updSysPort { d with join := { d.join with below := mdel d.join.below p } } p
      (fun x => { x with role := .standby, pDeep := 0 })) true
  | _ => d

/-- A system port's lane leaves UP or its port is disabled: the link is DOWN. -/
def Dev.portDown (d : Dev) (p : Nat) : Dev :=
  if !mhas d.join.ports p then d
  else (d.dropLink p).updSysPort p (fun x => { en := x.en, asym := x.asym })

/-- A link is REFUSED (R404, R406). -/
def Dev.refuseLink (d : Dev) (p src : Nat) : Dev :=
  let was := (d.sysPort p).role
  let d := (d.dropLink p).updSysPort p (fun x => { x with role := .refused, partner := src, pJoined := false, asked := false })
  if was = .refused then d else d.count .msgRefused p

/-! ## Link delay (R406) -/

/-- Sends a DELAY_REQ stamped with its departure. -/
def Dev.sendDelayReq (d : Dev) (p : Nat) : Dev :=
  (d.updSysPort p (fun x => { x with t1 := some d.now })).sysSend [p] 0x02 (d.sysPort p).partner false false [(d.now.toNat : Int)]

/-- A measurement of 16 exchanges begins. -/
def Dev.measureLink (d : Dev) (p : Nat) : Dev := (d.updSysPort p (fun x => { x with delays := [] })).sendDelayReq p

/-- A system port's lane has come UP: the two ends measure its delay. -/
def Dev.portUp (d : Dev) (p : Nat) : Dev :=
  if d.portUsable p then (d.updSysPort p (fun x => { x with measured := false, avg := [], helloAt := d.now, miss := 0 })).measureLink p else d

end Sys2Proof.Machine
end

