-- ==== Sys2Proof/Machine/Reset.lean ====
section
/-!
DEFINITION. The reset levels as shared operations: what a tile loses, the steps of a tile reset, isolation, the function
reset of a channel, and the package resets (R63 to R67, R77, R509, R501).
-/

namespace Sys2Proof.Machine

/-! ## Derived keys and terminals leaving the line -/

/-- A terminal enters ABSENT: its ONU-ID is freed and its derived keys are zeroised (R65, R349). Its defects clear with the next burst accepted
(Table 6-6). -/
def Terminal.toAbsent (t : Terminal) : Terminal :=
  { t with st := .absent, onu := none, eqdPend := none, offs := [], sendFrom := none, rngFrom := none, rngLeft := 0, svcSince := none,
           allowOn := false, wakeFrame := none, wakeReq := false, missRun := 0, hdrRun := 0 }

/-- Zeroises the derived keys of a terminal (R349). -/
def Dev.zeroDerived (d : Dev) (tid : Nat) : Dev :=
  if mhas d.pon tid then d.setPon tid { d.ponKey tid with mskKey := none, omciKey := none, kek := none } else d

/-- Moves a terminal to ABSENT without counting a loss. -/
def Dev.termAbsent (d : Dev) (tid : Nat) : Dev := (d.updTerm tid Terminal.toAbsent).zeroDerived tid

/-- Whether a terminal state is on the line: RANGING, IN_SERVICE, LOW_POWER or REACQUIRE (R65). -/
def TermState.live (s : TermState) : Bool := s = .ranging || s = .inService || s = .lowPower || s = .reacquire

/-- Queues a PLOAM message for a channel (R191). -/
def Dev.ploam (d : Dev) (ch : Nat) (m : PloamMsg) (tid : Nat) (arg : Int := 0) : Dev :=
  d.updChan ch (fun c => { c with ploamQ := c.ploamQ ++ [{ msg := m, tid := tid, arg := arg }] })

/-- TID that stands for every terminal in a broadcast PLOAM message. -/
def allTids : Nat := 65535

/-- Function reset of a channel (R65): its live terminals return to ABSENT and a broadcast Deactivate_ONU-ID is sent; its
configuration and counters stay. What a hunt had disabled is enabled again. -/
def Dev.resetChan (d : Dev) (ch : Nat) : Dev :=
  let off := match (d.chan ch).hunt with | some h => h.off | none => []
  let d := if (d.chan ch).rogue = .unknown then d.endCond 0x06 0x06 (tileOfChan ch) ch else d
  let d := ((d.termsOf ch).filter (fun e => e.2.st.live)).foldl (fun d e => d.termAbsent e.1) d
  let d := d.updChan ch (fun c => { c with
    win := none, winQ := [], accepted := [], winReq := [], groups := [], plans := [], winGrants := [], standingValid := false, hunt := none,
    rogue := .normal, darkOpen := false, darkFrame := none, calConst := none, mapNext := none, broadNext := none, darkNext := none,
    carryFrom := none, ploamQ := [] })
  off.foldl (fun d t => d.ploam ch .enableSn t 0) (d.ploam ch .deactivate allTids)

/-- Teqd of a channel in units of 16 ns (R171): the round-trip time of reach_max_m, the response time of the standard and 8,000 ns. -/
def teqdOf (k reachMax : Nat) : Nat := ceilDiv (9794 * reachMax + 1000 * (Config.responseNs k + 8000)) 16000

/-! ## Lanes (R54, R92, R99) -/

/-- Whether the lane's function is enabled: a channel of its tree, or its system port (R54, R99). -/
def Dev.laneFn (d : Dev) (t l : Nat) : Bool :=
  if l < 8 then (treeChans (8 * t + l)).any (fun ch => (d.chan ch).st != .disabled)
  else d.laneRole t l = 1 && (d.sysPort (d.portOfLane t l)).en

/-- Whether a lane is to stay out of lull: its function is enabled, it is a test lane, or it is bonded and runs a loop (R86). -/
def Dev.laneUsed (d : Dev) (t l : Nat) : Bool :=
  d.laneFn t l || (d.laneBonded t l && (d.laneRole t l = 2 || d.laneLoop t l ≠ 0))

/-- A lane starts at D1 and searches for block lock (R92); a system or test lane draws a nonce (R93), and a system link on it is lost
(R414). A far-end loop that LANE_CFG selects is requested again once the lane is UP. -/
def Dev.laneRestart (d : Dev) (t l : Nat) : Dev :=
  let d := if l < 8 then d else d.portDown (d.portOfLane t l)
  let (n, d) := if l < 8 then (([] : List Byte), d) else d.freshBytes 5
  d.updLane t l (fun x => { x with
    gen := 1, neg := .locking, locked := false, hdrRun := 0, hdrHist := 0, slipPend := false, txLull := false, rxLull := false,
    partnerLull := false, partnerGens := 0, reqGen := none, stepTo := none, ackSeen := false, relockAt := none, farLoop := false,
    loopWait := if d.laneLoop t l = 3 then 3 else 0, loopQ := [], abilAge := 0, nonce := n.getD 0 x.nonce, leader := false,
    prbs := BitVec.ofNat 31 (leNat (n.drop 1)) })

/-- A lane leaves lull on request (R54, R101): at D1 where the lull lost lock (R92), else its transmitter alone, and it negotiates again. One
already out of lull goes on. -/
def Dev.laneWake (d : Dev) (t l : Nat) : Dev :=
  let x := d.lane t l
  if x.rxLull || (x.txLull && !x.locked) then d.laneRestart t l
  else if x.txLull then d.updLane t l (fun x => { x with txLull := false, neg := .abil })
  else d

/-- A channel goes to ENABLING (R141); Teqd is fixed, the channel is uncalibrated (R171, R172) and the
tree lane leaves lull (R54). -/
def Dev.chanEnabling (d : Dev) (ch : Nat) : Dev :=
  ((d.laneWake (tileOfChan ch) (ch / 4 % 8)).crossTake (tileOfChan ch) 1 (ch / 4 % 8)).updChan ch (fun c => { c with
    st := .enabling, teqd := teqdOf (ch % 4) c.reachMax, calConst := none, mapNext := none, broadNext := none, darkNext := none,
    darkFrame := none, darkConfirm := false, winReq := [], groups := [], enableAt := d.frame, disableAt := none, lit := true, carryFrom := none, standingValid := false,
    standingRun := 0, fullRun := 0, winGrants := [], plans := [], win := none, winQ := [], winNotBefore := 0, accepted := [] })

/-- A channel goes to DISABLED: LASER bit clear, framer stopped (R142); its terminals lose the line, which is no loss of
registration, and the frame error ends with the last enabled channel (R134). -/
def Dev.chanDisabled (d : Dev) (ch : Nat) : Dev :=
  let d := ((d.termsOf ch).filter (fun e => e.2.st.live)).foldl (fun d e => d.termAbsent e.1) d
  let d := if (d.chan ch).rogue = .unknown then d.endCond 0x06 0x06 (tileOfChan ch) ch else d
  let d := d.updChan ch (fun c => { c with
    st := .disabled, teqd := 0, calConst := none, carryFrom := none, disableAt := none, dsRoom := 0, dsRest := none, lit := false, plans := [], winGrants := [], win := none, winQ := [], accepted := [], winReq := [], groups := [],
    standingValid := false, ploamQ := [], hunt := none, rogue := .normal, darkOpen := false, darkFrame := none,
    darkConfirm := false, darkVoidRun := 0, darkCleanRun := 0 })
  if d.anyEnabled then d else d.setFrameError 0

/-- Whether a terminal's channel lies on a tile. -/
def Dev.onTile (d : Dev) (t tid : Nat) : Bool := d.tileOfTerm tid = t

/-! ## Node and queue keys (R292, R293) -/

def chanNode (ch : Nat) : Nat := 2 ^ 32 + ch
def domNode (ch sdom : Nat) : Nat := 2 ^ 33 + 256 * ch + sdom
def termNode (tid sdom : Nat) : Nat := 2 ^ 34 + 256 * tid + sdom
def portNode (p : Nat) : Nat := 2 ^ 35 + p
def groupNode (p g : Nat) : Nat := 2 ^ 36 + 64 * p + g

/-- First handle of the uplink-side queues. -/
abbrev upBase : Nat := 0x00100000

def Dev.queueOk (d : Dev) (q : Nat) : Bool :=
  q < 16384 * d.nTiles || (upBase ≤ q && q < upBase + 4096 * d.nTiles)

/-- Nodes above a queue, from its parent up. -/
def Dev.queuePath (d : Dev) (q : Queue) : List Nat :=
  if q.down then
    let ch := d.chanOfTerm q.tid
    [termNode q.tid q.sdom, domNode ch q.sdom, chanNode ch]
  else [groupNode q.subport q.group, portNode q.subport]

/-- Size of a bucket in its 2^-16 units. -/
def lvl (n : Nat) : Int := (n : Int) * 65536

/-- A shaper, a meter as a tile reset creates it again: both buckets full (R297, R301). -/
def Shaper.renew (s : Shaper) (now : Raw) : Shaper := { s with cLvl := lvl s.cbs, pLvl := lvl s.pbs, atT := now }
def Meter.renew (m : Meter) (now : Raw) : Meter := { m with cLvl := lvl m.cbs, pLvl := lvl m.pbs, atT := now }

/-! ## A tile loses its volatile state (R28, R77, R509) -/

/-- Lock masters of a tile: its control-core pairs and its engines (Table 14-7). -/
def tileMaster (t m : Nat) : Bool := m = 1 + 2 * t || m = 2 + 2 * t || (0x400 + 32 * t ≤ m && m < 0x420 + 32 * t)

/-- What is left of a channel: its configuration, and whether it is to be enabled again (R28); an enable queued behind a drain stays a job. -/
def Chan.lose (c : Chan) : Chan :=
  let again := (c.st = .enabling || c.st = .enabled) && c.disableAt.isNone
  { upRate := c.upRate, reachMin := c.reachMin, reachMax := c.reachMax, teqd := if again then c.teqd else 0, calConst := if again then c.calConst else none,
    lookup := c.lookup, mirror := c.mirror, standingFlt := c.standingFlt, st := if again then .enabling else .disabled }

/-- A bin that is open while network time is stepped or its tile resets is suspect (R166). -/
def PmObj.suspectNow (p : PmObj) : PmObj :=
  { p with cur15 := { p.cur15 with suspect := true }, cur24 := { p.cur24 with suspect := true } }

/-- What is left of an allocation: its configuration and phase. -/
def Alloc.lose (a : Alloc) : Alloc :=
  { tid := a.tid, p := a.p, next := a.next, phase := a.phase, allocId := a.allocId, startAt := a.startAt, delAt := a.delAt,
    fmA := a.fmA, fmP := a.fmP }

/-- What is left of a terminal; held-off, isolated and disabled terminals keep their states (log 22). -/
def Terminal.lose (t : Terminal) : Terminal :=
  { t.toAbsent with
    st := if t.st = .heldOff || t.st = .isolated || t.st = .disabled then t.st else .absent, eqd := 0, rtt := 0, uncert := 8, events := [],
    losi := false, lofi := false, pm := t.pm.suspectNow }

/-- One tile's copy of a table loses its learned entries (R77); an entry that no copy holds any more is gone. -/
def Table.dropLearned (x : Table) (t : Nat) : Table :=
  if !x.tiles.testBit t then x
  else { x with slots := x.slots.filterMap (fun e =>
    let off := e.2.off ||| 2 ^ t
    if !e.2.learned then some e else if off &&& x.tiles = x.tiles then none else some (e.1, { e.2 with off := off })) }

/-- The overflow store of a tile without its learned entries: the host's are in the shadow (R28). -/
def ClsTile.lose (c : ClsTile) : ClsTile := { overflow := c.overflow.filter (fun e => !e.2.2.learned) }

/-- What is left of a SecY: its participant starts without peers. -/
def SecY.lose (y : SecY) : SecY := { y with peers := [], prios := [] }

/-- What is left of a train slot: its parts on the lost tile are given up; where its home is lost, the lead tile holds its state, its last
accepted report, any loss and its floor holds, and its band stands (R248, log 51). -/
def FmTrain.loseTile (x : FmTrain) (t : Nat) (home : Bool) : FmTrain :=
  { x with
    engaged := x.engaged.filter (fun e => e.1 % 8 ≠ t)
    pre := x.pre.filter (fun e => e.1 % 8 ≠ t)
    procAt := if home then none else x.procAt
    held := if home then none else x.held
    headPrev := if home then [] else x.headPrev
    fired := if home then [] else x.fired }

/-- What is left of a circuit: its sequences and buffers start afresh. -/
def Circuit.lose (x : Circuit) : Circuit :=
  { x with rxSeq := none, txSeq := 0, upBits := [], jb := [], jbPlay := false, pwSeqTx := 0, pwSeqRx := none, pwLoss := false }

/-- What is left of a lane: its scramblers, which are never reset (R89). -/
def Lane.lose (x : Lane) : Lane := { txScr := x.txScr, rxScr := x.rxScr }

/-- Whether a tile is the first of a table's tile set, the home that inserts (R274). -/
def Table.homeIs (x : Table) (t : Nat) : Bool := x.tiles.testBit t && x.tiles % 2 ^ t = 0

/-- The volatile state of a tile is lost: ranging, plans, counters, learned entries, working keys, buffered frames, queued
messages and the lanes. Configuration stays in the shadow; terminals mirrored on another tile live on in the mirror (R419). -/
def Dev.tileLose (d : Dev) (t : Nat) : Dev :=
  let mine (ch : Nat) : Bool := tileOfChan ch = t
  let mineT (ch : Nat) : Bool := mine ch && !(mget d.groups (ch / 4)).any (fun g => g.tiles && d.tileRun (tileOfTree g.pTree))
  let cntKeep := d.cnt.vals.filter (fun e => d.cntTile e.1 ≠ t)
  let nodes := (d.queues.filter (fun e => d.tileOfQueue e.1 = t)).flatMap (fun e => e.1 :: d.queuePath e.2)
  let lost := (d.terms.filter (fun e => mineT e.2.ch)).map (fun e => e.1)
  { d with
    chans := d.chans.map (fun (k, c) => (k, if mine k then c.lose else c)),
    allocs := d.allocs.map (fun (k, a) => (k, if d.onTile t a.tid then a.lose else a)),
    terms := d.terms.map (fun (k, x) => (k, if mineT x.ch then x.lose else x)),
    pon := d.pon.map (fun (k, x) => (k, if lost.contains k then { x with loaded := false, mskKey := none, omciKey := none, kek := none } else x)),
    trees := d.trees.map (fun (k, x) => (k, if tileOfTree k = t then ({ pm := x.pm.suspectNow } : Tree) else x)),
    lanes := d.lanes.map (fun (k, x) => (k, if k / 16 = t then x.lose else x)),
    subs := d.subs.map (fun (k, x) => (k, if tileOfSub k = t then { x with up := false, drainEnd := none } else x)),
    queues := d.queues.map (fun (k, q) => (k, if d.tileOfQueue k = t then { q with frames := [], deficit := 0 } else q)),
    pools := mdel d.pools t,
    nodes := d.nodes.map (fun (k, x) => (k, if nodes.contains k then { x with deficit := 0, rrC := 0, rrP := 0 } else x)),
    shapers := d.shapers.map (fun (k, x) => (k, if x.tile = t then x.renew d.now else x)),
    meters := d.meters.map (fun (k, x) => (k, if x.tile = t then x.renew d.now else x)),
    cls := mmod d.cls t ClsTile.lose,
    tables := d.tables.map (fun (k, x) => (k, x.dropLearned t)),
    msec := { d.msec with
      secys := d.msec.secys.map (fun (k, y) => (k, if tileOfSub y.subport = t then y.lose else y)),
      sas := d.msec.sas.map (fun (k, x) => (k, if d.tileOfSa k = t then ({ x with loaded := false, pn := max x.pn x.bound, low := max x.low (x.top + 1) } : SaSlot) else x)) },
    fm := { d.fm with trains := d.fm.trains.map (fun (k, x) => (k, x.loseTile t (k % d.nTiles = t))) },
    host := { d.host with locks := d.host.locks.filter (fun e => !tileMaster t e.2) },
    cnt := { d.cnt with vals := cntKeep, samp := d.cnt.samp.filter (fun e => e.1 / 32 ≠ t) },
    circuits := d.circuits.map (fun (k, x) => (k, if d.onTile t x.tid then x.lose else x)) }

/-! ## Leases of a tile's trees -/

/-- Withdraws the lease of one group (R428): RELEASE on both paths in LEASE mode; the group is NOT_READY. -/
def Dev.releaseTree (d : Dev) (t : Nat) : Dev :=
  match mget d.groups t with
  | none => d
  | some g =>
    if g.st = .active || g.st = .partnerLost then
      (d.leaseSend t 1).updGroup t (fun g => { g with st := .notReady, handover := false })
    else if g.st = .standby then d.updGroup t (fun g => { g with st := .notReady, handover := false })
    else d

/-- Withdraws the leases of the trees of a tile (R77 step 1). -/
def Dev.releaseTile (d : Dev) (t : Nat) : Dev := (List.range 8).foldl (fun d k => d.releaseTree (8 * t + k)) d

/-! ## Crossings at the reset of a tile (R83, R84) -/

/-- Whether the variant has a die link between two tiles (R13). -/
def Dev.linkExists (d : Dev) (a b : Nat) : Bool :=
  a < b && b < d.nTiles && (d.variant ≠ .thz8 || a / 4 = b / 4 || b = a + 4)

def linkKey (a b : Nat) : Nat := 8 * a + b

/-- Every die link of the variant. -/
def Dev.allLinks (d : Dev) : List (Nat × Nat) :=
  (d.tileList.flatMap (fun a => d.tileList.map (fun b => (a, b)))).filter (fun p => d.linkExists p.1 p.2)

/-- Die links of a tile. -/
def Dev.linksOf (d : Dev) (t : Nat) : List (Nat × Nat) := d.allLinks.filter (fun p => p.1 = t || p.2 = t)

/-- Whether the training of a die link has ended, trained or failed. -/
def Dev.linkDecided (d : Dev) (p : Nat × Nat) : Bool := mhas d.rst.links (linkKey p.1 p.2)

/-- Sets or clears bits of a tile's resync field. -/
def Dev.setResync (d : Dev) (t : Nat) (m : BitVec 9) : Dev := d.updTile t (fun x => { x with cdcResync := x.cdcResync ||| m })
def Dev.endResync (d : Dev) (t : Nat) (m : BitVec 9) : Dev := d.updTile t (fun x => { x with cdcResync := x.cdcResync &&& ~~~m })

/-- Mode of the crossing groups (CDC_RESET_MODE). -/
def Dev.cdcMode (d : Dev) : BitVec 9 := BitVec.ofNat 9 (d.reg 0x280)

/-- The resets of one side at a tile reset (R83): the die links of the tile, whose other ends lie on running tiles, and its crossings with
the always-on domain, in HANDSHAKE mode await their handshake; in FLUSH mode they start again from empty. Both sides of the tile's other
groups are reset with it, so those await none (log 68). -/
def Dev.crossMark (d : Dev) (t : Nat) : Dev :=
  let d := d.updTile t (fun x => { x with cdcResync := d.cdcMode &&& 0x81#9, cdcHeld := [] })
  let far := (d.linksOf t).map (fun p => if p.1 = t then p.2 else p.1)
  if d.cdcMode.getLsbD 0 then (far.filter (fun u => (d.tile u).st = .run)).foldl (fun d u => d.setResync u 1#9) d else d

/-- The crossings of a reset tile, whose die links are to be trained again (R76). -/
def Dev.crossReset (d : Dev) (t : Nat) : Dev :=
  Dev.crossMark { d with rst := { d.rst with links := (d.linksOf t).foldl (fun m p => mdel m (linkKey p.1 p.2)) d.rst.links } } t

/-- The die-link crossings of every tile whose links have all ended their training have their handshake behind them; those to a tile in ASSAY
stay in reset. -/
def Dev.crossSettled (d : Dev) : Dev :=
  let settled (p : Nat × Nat) : Bool :=
    (d.linkDecided p && (d.tile p.1).st ≠ .assay && (d.tile p.2).st ≠ .assay) || (d.tile p.1).st = .isolated || (d.tile p.2).st = .isolated
  (d.tileList.filter (fun t => (d.linksOf t).all settled)).foldl (fun d t => d.endResync t 1#9) d

/-- Steps 1 to 3 of R77: leases released, laser disable (the LASER blocks follow the tile's state), local fault on the uplinks, volatile
keys of the tile zeroised. -/
def Dev.quiesce (d : Dev) (t : Nat) : Dev :=
  let d := d.releaseTile t
  let d := (List.range 8).foldl (fun d k => if (d.sub (8 * t + k)).enabled then d.emit (.localFault (8 * t + k)) else d) d
  let d := (List.range 8).foldl (fun d l => d.laserOff (8 * t + l)) d
  let d := d.emit (.keyBus 2 t 0)
  let d := [8, 9].foldl (fun d l => if d.laneBonded t l then d.portDown (d.portOfLane t l) else d) d
  let d := d.tileLose t
  let d := if d.anyEnabled then d else d.setFrameError 0
  d.updTile t (fun x => { x with uplinkFault := true, cdcResync := 0, cdcHeld := [], omciQ := [], timeErrAt := none })

/-- Begins a tile reset of a non-lead tile (R63, R77 steps 1 to 4): its crossings are reset and its die links train again (R76); rails that were
off are on again (log 46): 1 command, 2 anneal, 3 assay exit. -/
def Dev.startTileReset (d : Dev) (t cause : Nat) : Dev :=
  let d := ((d.quiesce t).crossReset t).tileTo t .reset
  let d : Dev := { d with rst := { d.rst with cause := d.rst.cause ||| 0x80#32 } }
  d.updTile t (fun x => { x with
    railOk := 0x3F#6, ramping := none, resets := min 0xFFFF (x.resets + 1), resetCause := cause, lastCause := cause, pairBad := 0, engBad := [], engMove := [], aligned := false, assayAfter := none })

/-- Takes a tile out of service (R509): its state counts as lost; commands that wait for its reset complete with ST_INTERNAL
(R400). -/
def Dev.takeOut (d : Dev) (t : Nat) : Dev :=
  if d.nTiles ≤ t then d
  else ((((d.quiesce t).tileTo t .isolated).crossSettled).complete .tileReset t stInternal)

/-- Switches off the rails of a tile (R52, R56). -/
def Dev.railsOff (d : Dev) (t : Nat) : Dev := d.updTile t (fun x => { x with railOk := 0, ramping := none })

/-- An uplink sub-port is enabled (R113, R400): LANE_UPL_MODE comes into force with the first enabled sub-port of its uplink. -/
def Dev.subOn (d : Dev) (p : Nat) : Dev :=
  let four := (List.range 4).map (fun k => p / 4 * 4 + k)
  let d := if four.any (fun q => (d.sub q).enabled) then d
    else four.foldl (fun d q => d.updSub q (fun x => { x with mode := d.uplMode (p / 4) })) d
  (d.crossTake (tileOfSub p) 2 (p % 8)).updSub p (fun x => { x with enabled := true, drainEnd := none })

/-! ## Package resets (R63, R501) -/

/-- Highest counter among the valid words of a journal ring (R391). -/
def ringTop (ring : List (Nat × Nat × Bool)) : Nat := (ring.filter (fun w => w.2.2)).foldl (fun m w => max m w.1) 0

/-- What a channel keeps in eMRAM: permissions, binding and journal (R391, R393). -/
def Sender.kept (s : Sender) : Sender :=
  { caps := s.caps, doms := s.doms, slot := s.slot, slotW := s.slotW, ring := s.ring, seq := s.seq, consumed := ringTop s.ring,
    remote := s.remote }

/-- What the crucible keeps in eMRAM (R339, R350). -/
def CrucibleState.kept (c : CrucibleState) : CrucibleState :=
  { life := c.life, scheme := c.scheme, root := c.root, entropyOk := c.entropyOk, transition := c.transition, anchor := c.anchor,
    slots := c.slots, flashFirst := c.flashFirst, flashCopy := c.flashCopy }

/-- What the fault collector keeps: the eMRAM ring and the always-on domain (R441, R445). -/
def FaultState.kept (f : FaultState) : FaultState :=
  { emram := f.emram, emramAt := f.emramAt, recov := f.recov, f3At := f.f3At, f4At := f.f4At, aon := f.aon }

/-- Whether a package reset is in progress (R66): from its start until command-ready or the boot's failure, with its clocks stopped or
RESET_N held. -/
def Dev.inReset (d : Dev) : Bool :=
  d.pwr.pfw || d.pwr.pstate = .unpowered || d.pwr.pstate = .aon || d.pwr.pstate = .ramp || !(d.rst.stage = .ready || d.rst.stage = .failed)

/-- Whether the package reset in progress is a warm one. -/
def Dev.inWarm (d : Dev) : Bool := d.inReset && d.rst.warmBoot && !d.pwr.pfw && d.pwr.pstate = .boot

/-- Records in RST_CAUSE that a lower-level reset was absorbed (R66). -/
def Dev.absorbed (d : Dev) : Dev := { d with rst := { d.rst with cause := d.rst.cause ||| 0x100#32 } }

/-- A discrete input as it stands after raw time began again at 0: the instant of its assertion is as long ago as before. -/
def Pin.rebase (p : Pin) (now : Raw) : Pin := { p with since := p.since - now }

/-- A package reset: everything but eMRAM, the always-on domain, what the outside drives and the model's own fields returns
to its reset value. A cold reset keeps of the always-on registers those marked as such (RST_CAUSE, pfw_seen, reset_stuck, the recovery
counters); a warm reset keeps all of them, those of the feed and rail supervisors and the discrete filters too (Table 3-4, log 69), and the
straps, finds every rail in range (log 46) and goes on with the training of the links. A reset of a lower level that is in progress is absorbed
(R66). A tile whose run of this boot did not pass leaves the assay-exit reset ISOLATED (R457). -/
def Dev.packageReset (d : Dev) (warm : Bool) (causeBit : Nat) (assayExit : Bool := false) : Dev :=
  let z : Dev := {}
  let lower := d.tileList.any (fun t => (d.tile t).st = .reset) || (!warm && d.inWarm)
  let kept : PowerState := if warm then
      { shortPulses := d.pwr.shortPulses, quenchStuck := d.pwr.quenchStuck, protStuck := d.pwr.protStuck, changeovers := d.pwr.changeovers }
    else {}
  { z with
    variant := d.variant,
    regs := if warm then d.regs.filter (fun e => e.1 = 0x10C || e.1 = 0x124) else [],
    time := { goodA := d.time.goodA, goodB := d.time.goodB, useB := if warm then d.time.useB else d.rst.refSel },
    pwr := { kept with
      feedA := d.pwr.feedA, feedB := d.pwr.feedB, carry := d.pwr.carry, pfw := false, pfwSeen := d.pwr.pfwSeen,
      pstate := if warm then .boot else .ramp, resetStuck := d.pwr.resetStuck, pinReset := d.pwr.pinReset.rebase d.now,
      pinQuench := d.pwr.pinQuench.rebase d.now, pinProt := d.pwr.pinProt.map (fun e => (e.1, e.2.rebase d.now)) },
    rst := { cause := d.rst.cause ||| (1#32 <<< causeBit) ||| (if lower then 0x100#32 else 0#32), strap := d.rst.strap, refSel := d.rst.refSel,
             firstSlot := d.cru.flashFirst, copySlot := d.cru.flashCopy, warmBoot := warm, assayExit := assayExit,
             stage := if warm then .links else .rom },
    tiles := if warm then d.tileList.map (fun t =>
      let x := d.tile t
      let a := d.asyTile t
      let out := assayExit && t ≠ 0 && a.done && !a.pass
      (t, ({ railOk := 0x3F#6, railFault := x.railFault, level := x.level, nowC := x.nowC, hot := x.hot, st := if out then .isolated else .boot } : Tile))) else [],
    cru := d.cru.kept,
    lanes := d.lanes.map (fun (k, x) => (k, x.lose)),
    host := { linkUp := d.host.linkUp, cxl := d.host.cxl, boundOnce := d.host.boundOnce },
    senders := d.senders.map (fun (k, s) => (k, s.kept)),
    flt := d.flt.kept,
    asy := { set := d.asy.set, boot := d.asy.boot, oneShot := if assayExit then none else d.asy.oneShot, forced := d.asy.forced,
             tiles := if assayExit then d.asy.tiles else [] },
    out := d.out, lastRead := d.lastRead, freeCtr := d.freeCtr }

/-- Starts a package warm reset with its RST_CAUSE bit (R63). One requested while a warm reset is in progress is ignored; one requested
during a package cold reset is absorbed by it and recorded (R66). -/
def Dev.warmReset (d : Dev) (causeBit : Nat) : Dev :=
  if d.inWarm then d else if d.inReset then d.absorbed else d.packageReset true causeBit

end Sys2Proof.Machine
end

