-- ==== Sys2Proof/Machine/Power.lean ====
section
/-!
DEFINITION. Power: the two feeds, power-fail warning, rails, the package power states, thermal levels and assay headroom
(chapter 02), with the interruption of an assay run that a rail, a temperature or a link causes (R456).
-/

namespace Sys2Proof.Machine

/-- The outside reaches BAR0: command-ready and the link up (R72, R365). -/
def Dev.hostOk (d : Dev) : Bool := d.ready && d.host.linkUp

/-! ## Feeds -/

def Dev.feed (d : Dev) (b : Bool) : Feed := if b then d.pwr.feedB else d.pwr.feedA
def Dev.setFeed (d : Dev) (b : Bool) (f : Feed) : Dev :=
  if b then { d with pwr := { d.pwr with feedB := f } } else { d with pwr := { d.pwr with feedA := f } }
def Dev.feedGood (d : Dev) (b : Bool) : Bool := (d.feed b).st = .good

/-- Feed mode in force (Table 2-2). -/
def Dev.feedMode (d : Dev) : Nat := d.reg 0x10C % 4

/-- Whether feed `b` carries the load, alone or shared (R44). -/
def Carry.has (c : Carry) (b : Bool) : Bool := c = .both || c = (if b then .b else .a)

/-- The feeds that carry the load for the feed states and the mode (R43, Table 2-2). -/
def Dev.carryNow (d : Dev) : Carry :=
  match d.feedGood false, d.feedGood true with
  | false, false => .none
  | true, false => .a
  | false, true => .b
  | true, true =>
    if d.feedMode = 1 then .a
    else if d.feedMode = 2 then .b
    else if d.pwr.feedA.mv ≤ d.pwr.feedB.mv + 50 && d.pwr.feedB.mv ≤ d.pwr.feedA.mv + 50 then .both
    else if d.pwr.feedA.mv < d.pwr.feedB.mv then .b else .a

/-- Counts a changeover (R44). -/
def Dev.changeover (d : Dev) : Dev := { d with pwr := { d.pwr with changeovers := min 0xFFFF (d.pwr.changeovers + 1) } }

/-- Settles the carrying feeds; in PREFER modes a passage from one feed to the other is a changeover (R44). -/
def Dev.settleCarry (d : Dev) : Dev :=
  let c := d.carryNow
  let moved := d.feedMode ≠ 0 && ((d.pwr.carry = .a && c = .b) || (d.pwr.carry = .b && c = .a))
  let d := if moved then d.changeover else d
  { d with pwr := { d.pwr with carry := c } }

/-- Pattern count of a set, and its scan time in ms (Table 19-1). -/
def patternsOf (set : Nat) : Nat := if set = 0 then 16384 else if set = 1 then 65536 else 262144
def scanMs (set : Nat) : Nat := if set = 0 then 10 else if set = 1 then 40 else 160

/-- Patterns that a run under way has applied: they are spread evenly over the scan time (log 46). -/
def AssayTile.applied (a : AssayTile) (now : Raw) : Nat :=
  if a.running then min (patternsOf a.set - 1) ((now - a.since).toNat * patternsOf a.set / (rawMs (scanMs a.set)).toNat) else a.patterns

/-- The exit reset of an assay run (step 6 of R454): a tile reset from step 4 of R77 onward; the die links of the tile train again (R76). -/
def Dev.assayExit (d : Dev) (t : Nat) (st : TileState) : Dev :=
  let d := ((d.crossReset t).tileTo t st).crossSettled
  let d : Dev := { d with rst := { d.rst with cause := d.rst.cause ||| 0x80#32 } }
  d.updTile t (fun x => { x with resets := min 0xFFFF (x.resets + 1), resetCause := 3, lastCause := 3, aligned := false })

/-- Interrupts an assay run of a tile, also one that waits for headroom: the run reports without a comparison, raises its fault and leaves
through its exit reset into ISOLATED (R456, R457). Nothing fixes the partial signature (log 46). -/
def Dev.assayInterrupt (d : Dev) (t reason : Nat) : Dev :=
  let a := d.asyTile t
  let waiting := d.pwr.assayQueue.contains t
  if a.running || waiting then
    let (sig, d) := d.freshBytes 16
    let d : Dev := { d with pwr := { d.pwr with assayQueue := d.pwr.assayQueue.filter (fun x => x ≠ t) } }
    let d := d.setAsyTile t { a with
      running := false, done := true, complete := false, pass := false, reason := reason, abort := false, patterns := a.applied d.now
      sig := if waiting then 0 else BitVec.ofNat 128 (leNat sig) }
    ((if t = 0 then d else d.assayExit t .isolated).complete .tileReset t stInternal).raiseAssay 0x03 2 t reason
  else d

/-- Word of ASY_RESULT. -/
def Dev.asyWord (d : Dev) (t : Nat) : Nat :=
  let a := d.asyTile t
  2 ^ 31 * b2n a.done + 2 ^ 30 * b2n a.complete + 2 ^ 29 * b2n a.pass + 2 ^ 28 * b2n a.running + 2 ^ 24 * a.reason
    + 2 ^ 21 * a.source + 2 ^ 19 * a.set + (if a.complete then 0 else a.applied d.now)

/-- Completes the assay commands whose named tiles have all left RESET (R460); the tile mask is the object of the job. -/
def Dev.assayComplete (d : Dev) : Dev :=
  let masks := (d.host.jobs.filter (fun j => j.kind = .assay)).map (fun j => j.obj)
  masks.foldl (fun d m =>
    let ts := d.tileList.filter (fun t => m.testBit t)
    if ts.all (fun t => (d.tile t).st = .run || (d.tile t).st = .isolated) then
      d.complete .assay m stOk (ts.flatMap (fun t => leBytes 4 (d.asyWord t)))
    else d) d

/-- A tile of a boot run has reported, or runs no assay: it is struck off; once all have reported and the lead tile ran, the
assay-exit warm reset follows (R454). -/
def Dev.bootRunDone (d : Dev) (t : Nat) (ran : Bool) : Dev :=
  if !d.asy.bootRun.contains t then d
  else
    let left := d.asy.bootRun.filter (fun x => x ≠ t)
    let d : Dev := { d with asy := { d.asy with bootRun := left, exitPend := d.asy.exitPend || (ran && t = 0) } }
    if left.isEmpty && d.asy.exitPend then d.packageReset true 9 true else d

/-- A tile that is out of service runs no assay: one that waited for its level waits no longer, a boot goes on without it, and the commands that
awaited it complete (R457, R460). -/
def Dev.assayGone (d : Dev) (t : Nat) : Dev :=
  let a := d.asyTile t
  let d := if a.waits then d.setAsyTile t { a with waits := false } else d
  (d.bootRunDone t true).assayComplete

/-- Power-fail warning (R49): the clocks of every tile stop; assay runs are interrupted with reason 5; the package leaves OPERATING
(Table 2-5). -/
def Dev.powerFail (d : Dev) : Dev :=
  let d := d.tileList.foldl (fun d t => d.assayInterrupt t 5) d
  { d with pwr := { d.pwr with
    pfw := true
    pstate := d.pwr.pstate.leave } }

/-- A feed takes a state that is not GOOD. If it was GOOD: a changeover when it carried the load and the other is GOOD, F2
feed lost (R44, R47), or power-fail warning when no feed is GOOD any more (R49). -/
def Dev.feedLeaves (d : Dev) (b : Bool) (st : FeedState) (mv : Nat) : Dev :=
  let f := d.feed b
  let was := f.st = .good
  let carried := d.pwr.carry.has b
  let d1 := d.setFeed b { f with st := st, mv := mv }
  let d2 := if f.st = st then d1 else d1.irq 4
  if was then
    if d2.feedGood (!b) then
      let d3 := if carried then d2.changeover else d2
      let d4 : Dev := { d3 with pwr := { d3.pwr with carry := d3.carryNow } }
      d4.raise 0x01 0x01 2 0xFF (b2n b) mv true
    else
      let d3 : Dev := { d2 with pwr := { d2.pwr with carry := .none } }
      if d3.pwr.pstate = .unpowered then d3 else d3.powerFail
  else d2

/-- Whether a voltage is in range for a feed that was out of it (Table 2-3): from above its over-voltage threshold the falling one holds, from
below the rising under-voltage one. -/
def FeedState.inRange (st : FeedState) (mv : Nat) : Bool :=
  match st with
  | .overV => 2550 ≤ mv && mv ≤ 14300
  | .off | .under | .reversed => 2650 ≤ mv && mv ≤ 14600
  | .qualifying | .good => false

/-- FEED_IN_RANGE (R45): the feed starts its 10 ms qualification. -/
def Dev.opFeedInRange (d : Dev) (b : Bool) (mv : Nat) : Dev :=
  let f := d.feed b
  if f.st.inRange mv then
    (d.setFeed b { f with st := .qualifying, mv := mv }).irq 4
  else d

/-- Enters RAMP: the package cold reset of a boot begins, straps as sampled at its release (R61, R63). -/
def Dev.coldBoot (d : Dev) (bootSrc : BitVec 2) (refSel : Bool) : Dev :=
  { d with
    pwr := { d.pwr with pstate := .ramp },
    rst := { d.rst with
      strap := bootSrc.toNat, refSel := refSel, firstSlot := d.cru.flashFirst, copySlot := d.cru.flashCopy, resetAt := d.now, warmBoot := false },
    time := { d.time with useB := refSel, up := 0 } }

/-- FEED_QUALIFIED (R45): the feed is GOOD; it starts the always-on domain, recovers from power-fail warning by a package
cold reset (R49), whose release samples the straps unless RESET_N still holds it (R61), or joins the other feed. -/
def Dev.opFeedQualified (d : Dev) (b : Bool) (bootSrc : BitVec 2) (refSel : Bool) : Dev :=
  let f := d.feed b
  if f.st ≠ .qualifying then d
  else
    let d := (d.setFeed b { f with st := .good }).irq 4
    let d := d.endCond 0x01 0x01 0xFF (b2n b)
    let d := d.settleCarry
    if d.pwr.pstate = .unpowered then
      { d with pwr := { d.pwr with pstate := .aon, aonRailsOk := true }, rst := { d.rst with cause := d.rst.cause ||| 1#32 } }
    else if d.pwr.pfw then
      let d := d.packageReset false 2
      let d : Dev := { d with pwr := { d.pwr with
        pfwSeen := true
        carry := d.carryNow
        pstate := .aon } }
      if d.pwr.pinReset.asserted && !d.pwr.pinReset.ignored then d else d.coldBoot bootSrc refSel
    else d

/-- FEED_UNDER_VOLTAGE (R45): below 2.55 V for 50 µs; below 0.5 V it reads OFF (Table 2-8). -/
def Dev.opFeedUnderVoltage (d : Dev) (b : Bool) (mv : Nat) : Dev :=
  if mv < 2550 then d.feedLeaves b (if mv < 500 then .off else .under) mv else d

/-- FEED_OVER_VOLTAGE (R45): above 14.6 V the switch opens until the feed has qualified again. -/
def Dev.opFeedOverVoltage (d : Dev) (b : Bool) (mv : Nat) : Dev := if 14600 < mv then d.feedLeaves b .overV mv else d

/-- FEED_REVERSED (R46). PWR_FEED_VOLT holds an unsigned number of mV, so a reversed feed reads 0 there and its fault carries 0: the
specification gives no value (DESIGN CHOICE, log 70). -/
def Dev.opFeedReversed (d : Dev) (b : Bool) : Dev := d.feedLeaves b .reversed 0

/-- FEED_MODE_WRITE (R43): a write of 3 leaves the mode; a change moves the load where the mode requires it. -/
def Dev.opFeedModeWrite (d : Dev) (value : BitVec 32) : Dev :=
  if !d.hostOk || value.toNat % 4 = 3 then d
  else ((d.setReg 0x10C (value.toNat % 4)).settleCarry)

/-- AON_DOMAIN_DROP (R53): after power-fail warning the always-on domain drops; only eMRAM is left. -/
def Dev.opAonDomainDrop (d : Dev) : Dev :=
  if !d.pwr.pfw then d
  else
    let x := d.packageReset false 0
    { x with
      pwr := { feedA := d.pwr.feedA, feedB := d.pwr.feedB, carry := .none, pstate := .unpowered, aonRailsOk := false },
      rst := { firstSlot := d.cru.flashFirst, copySlot := d.cru.flashCopy, cause := 0 },
      flt := { emram := d.flt.emram } }

/-! ## Rails -/

/-- The lead tile fails: isolated once command-ready, else the boot ends in FAILED and stays in BOOT until a reset (R73). -/
def Dev.leadFails (d : Dev) : Dev :=
  if d.booted then d.tileTo 0 .isolated
  else { d with
    rst := { d.rst with
      stage := .failed
      loadGo := false }
    pwr := { d.pwr with pstate := .boot } }

/-- A rail fault (R52): a non-lead tile is isolated with F3; the lead tile or an always-on rail is F4. The rule switches off the rails of a
non-lead tile; the model takes the lead tile's rails off too, as its quench presumes (R447: where the lead tile's rails have failed; DESIGN
CHOICE, log 71). -/
def Dev.railFaultAt (d : Dev) (t rail : Nat) (overV : Bool) : Dev :=
  let detail := rail + 2 ^ 31 * b2n overV
  if 6 ≤ rail then
    (Dev.raise { d with pwr := { d.pwr with aonRailsOk := false } } 0x01 0x03 4 0xFF 0xFFFFFFFF detail false)
  else
    let d := d.updTile t (fun x => { x with railFault := x.railFault ||| (1#6 <<< rail) })
    let d := d.assayInterrupt t 2
    let d := d.railsOff t
    if t = 0 then d.leadFails.raise 0x01 0x03 4 0 0 detail false
    else ((d.takeOut t).raise 0x01 0x02 3 t t detail false true).assayGone t

/-- Whether every tile that is not isolated has all its rails. -/
def Dev.allRails (d : Dev) : Bool := d.tileList.all (fun t => (d.tile t).railOk = 0x3F#6 || (d.tile t).st = .isolated)

/-- From RAMP to BOOT once every rail is in range (Table 2-5); the ROM goes on to link training (R72). -/
def Dev.rampDone (d : Dev) : Dev :=
  if d.pwr.pstate = .ramp && d.rst.stage ≠ .failed && d.allRails then
    { d with
      pwr := { d.pwr with pstate := .boot }
      rst := { d.rst with stage := .links } }
  else d

/-- RAIL_EXCURSION (R52). -/
def Dev.opRailExcursion (d : Dev) (tile rail : Nat) (overV : Bool) : Dev :=
  if rail < 6 then
    if tile < d.nTiles && (d.tile tile).railOk.getLsbD rail then (d.railFaultAt tile rail overV).rampDone else d
  else if rail < 8 then d.railFaultAt 0 rail overV
  else d

/-- TILE_RAMP_START (R51): the tile's first rail is enabled once the tile before it has started. -/
def Dev.opTileRampStart (d : Dev) (tile : Nat) : Dev :=
  let x := d.tile tile
  let before := tile = 0 || (d.tile (tile - 1)).ramping.isSome || (d.tile (tile - 1)).railOk ≠ 0 || (d.tile (tile - 1)).st = .isolated
  if d.pwr.pstate = .ramp && tile < d.nTiles && x.ramping.isNone && x.railOk = 0 && x.st ≠ .isolated && before then
    d.updTile tile (fun x => { x with ramping := some 0 })
  else d

/-- RAIL_IN_RANGE (R51): the next rail of the tile is enabled. -/
def Dev.opRailInRange (d : Dev) (tile rail : Nat) : Dev :=
  if tile < d.nTiles && (d.tile tile).ramping = some rail then
    (d.updTile tile (fun x => { x with
      railOk := x.railOk ||| (1#6 <<< rail), ramping := if rail < 5 then some (rail + 1) else none })).rampDone
  else d

/-- RAIL_RAMP_TIMEOUT (R51). -/
def Dev.opRailRampTimeout (d : Dev) (tile rail : Nat) : Dev :=
  if tile < d.nTiles && (d.tile tile).ramping = some rail then (d.railFaultAt tile rail false).rampDone else d

/-! ## Power cap -/

/-- Step 1 of R454: the tile enters ASSAY and carries out steps 1 to 3 of R77, the reset of its crossings among them. -/
def Dev.assayEnter (d : Dev) (t : Nat) : Dev := ((d.quiesce t).crossMark t).tileTo t .assay

/-- Assay of a tile enters its scan (R454 steps 1 to 3): source 0 boot, 1 command, 2 anneal. -/
def Dev.assayStart (d : Dev) (t source set : Nat) : Dev :=
  let d := d.assayEnter t
  d.setAsyTile t { running := true, source := source, set := set, since := d.now }

/-- The functions that the estimate of package power counts (R55): enabled channels of each kind, enabled sub-ports and system ports, and
assay runs under way. -/
def Dev.enabledFns (d : Dev) : List Nat :=
  [0, 1, 2].map (fun k => (d.chans.filter (fun e => e.1 % 4 = k && e.2.st ≠ .disabled)).length)
    ++ [(d.subs.filter (fun e => e.2.enabled)).length, (d.join.ports.filter (fun e => e.2.en)).length,
        (d.tileList.filter (fun t => (d.asyTile t).running)).length]

/-- The coordinator renews its estimate from the feed currents and the enabled functions (R55). The specification gives no formula: the value
is free up to the largest package power of the variant (R495, log 72). -/
def Dev.estimate (d : Dev) : Dev :=
  let w := Config.powerEstimate ([d.pwr.feedA.mv, d.pwr.feedA.cur, d.pwr.feedB.mv, d.pwr.feedB.cur] ++ d.enabledFns)
  { d with pwr := { d.pwr with estW := min d.variant.maxW w } }

/-- POWER_CAP_EXCEEDED (R55): an F0 notice with the power measured. -/
def Dev.opPowerCapExceeded (d : Dev) (watts : Nat) : Dev :=
  if d.powerCap < watts && d.ready then d.raise 0x01 0x09 0 0 0xFFFFFFFF watts false else d

/-- Assay increment of a tile in tenths of a watt (Table 19-1). -/
def Variant.assayDw : Variant → Nat
  | .thz2 => 102 | .thz4 => 94 | .thz8 => 86

/-- Whether an assay on one more tile fits under the cap (R55): the estimate, which counts the runs under way, plus the increment. -/
def Dev.assayFits (d : Dev) : Bool := 10 * d.pwr.estW + d.variant.assayDw ≤ 10 * d.powerCap

/-- Starts an assay now, or defers it when there is no headroom, when others wait for it (R55) or when the tile is at level high or above
(Table 2-6). -/
def Dev.assayOrDefer (d : Dev) (t source set : Nat) : Dev :=
  let d := d.estimate
  if d.assayFits && d.pwr.assayQueue.isEmpty && (d.tile t).level < 2 then d.assayStart t source set
  else
    let d := (d.assayEnter t).setAsyTile t { source := source, set := set }
    { d with pwr := { d.pwr with assayQueue := insSorted d.pwr.assayQueue t } }

/-- ASSAY_HEADROOM_START (R55): the deferred assay of a tile starts once the estimate leaves headroom for it; tiles start in ascending
order, and one at level high or above goes on waiting while those behind it start (Table 2-6). -/
def Dev.opAssayHeadroomStart (d : Dev) (tile : Nat) : Dev :=
  let d := d.estimate
  if d.assayFits && d.pwr.assayQueue.find? (fun t => (d.tile t).level < 2) = some tile then
    let a := d.asyTile tile
    Dev.assayStart { d with pwr := { d.pwr with assayQueue := d.pwr.assayQueue.filter (fun t => t ≠ tile) } } tile a.source a.set
  else d

/-! ## Temperature -/

/-- Threshold of a thermal level in °C (Table 2-6). -/
def levelC (l : Nat) : Int := if l = 1 then 105 else if l = 2 then 110 else if l = 3 then 118 else 125

/-- Level after a reading that clears levels one at a time, each 5 °C below its threshold (R56). -/
def levelDown (c : Int) : Nat → Nat
  | 0 => 0
  | l + 1 => if c ≤ levelC (l + 1) - 5 then levelDown c l else l + 1

/-- Hottest of four readings and its sensor. -/
def hottestOf (r : Readings) : Int × Nat :=
  [(r.s1, 1), (r.s2, 2), (r.s3, 3)].foldl (fun m x => if m.1 < x.1 then x else m) (r.s0, 0)

/-- Detail of a thermal fault (Table 18-7). -/
def thermalDetail (c : Int) (sensor : Nat) : Nat := lowBits 8 c + 256 * sensor

/-- Isolation of a tile by temperature (R56, R57). -/
def Dev.thermalOut (d : Dev) (t level : Nat) : Dev :=
  let x := d.tile t
  let detail := thermalDetail x.nowC x.hot
  let d := d.updTile t (fun x => { x with level := level })
  let d := (d.assayInterrupt t 3).railsOff t
  if t = 0 then d.leadFails.raise 0x01 0x07 4 0 0 detail true
  else ((d.takeOut t).raise 0x01 0x06 3 t t detail true true).assayGone t

/-- Every sensor of a tile reads below 100 °C: the condition of its thermal faults ends, and a tile whose latched fault was acknowledged while
it was hot is restored now (R57, R445). -/
def Dev.thermalCool (d : Dev) (tile : Nat) : Dev :=
  let due := d.flt.ring.any (fun x => x.same 0x01 0x06 tile tile && x.latched && x.acked && x.cond)
  let d := (d.endCond 0x01 0x06 tile tile).endCond 0x01 0x07 tile tile
  if due && !d.flt.quench && (d.tile tile).st = .isolated then d.startTileReset tile 2 else d

/-- THERMAL_SENSOR_READ (R56): reading, peak, and the level it reaches with that level's reaction and fault alone; isolate needs its 1 ms
(THERMAL_ISOLATE). A tile whose boot assay waited goes on to it when its level clears (R459). -/
def Dev.opThermalSensorRead (d : Dev) (tile : Nat) (r : Readings) : Dev :=
  if d.nTiles ≤ tile then d
  else
    let x := d.tile tile
    let (c, sensor) := hottestOf r
    let up := if 110 ≤ c then 2 else if 105 ≤ c then 1 else 0
    let lv := if x.level < up then up else levelDown c x.level
    let d := d.updTile tile (fun x => { x with
      nowC := c
      peakC := max x.peakC c
      hot := sensor })
    if 125 ≤ c then (if x.level < 4 then d.thermalOut tile 4 else d)
    else
      let d := d.updTile tile (fun x => { x with level := lv })
      let d := if x.level < lv then
          (if lv = 1 then d.raise 0x01 0x04 0 tile tile (thermalDetail c sensor) false
           else d.raise 0x01 0x05 2 tile tile (thermalDetail c sensor) true)
        else d
      let d := if lv < 2 then d.endCond 0x01 0x05 tile tile else d
      let d := if c < 100 then d.thermalCool tile else d
      let a := d.asyTile tile
      if a.waits && lv < 2 then (d.setAsyTile tile { a with waits := false }).assayOrDefer tile 0 d.asy.set else d

/-- THERMAL_ISOLATE (R56): 118 °C held for 1 ms. -/
def Dev.opThermalIsolate (d : Dev) (tile : Nat) : Dev :=
  if tile < d.nTiles && (d.tile tile).level < 3 then d.thermalOut tile 3 else d

/-- THERMAL_TRIP (R56): the comparator at 125 °C. -/
def Dev.opThermalTrip (d : Dev) (tile : Nat) : Dev :=
  if tile < d.nTiles && (d.tile tile).level < 4 then d.thermalOut tile 4 else d

/-! ## Meanings -/

/-- FEED_MODE_WRITE (R43). -/
def execFeedModeWrite (value : BitVec 32) (s : State) : Host.Outcome State Fault Refusal :=
  live (fun d => d.opFeedModeWrite value) s

/-- FEED_QUALIFIED (R45). -/
def execFeedQualified (feed : FeedGood) (s : State) : Host.Outcome State Fault Refusal :=
  live (fun d => d.opFeedQualified feed.feedB feed.straps.bootSrc feed.straps.refSel) s

/-- FEED_UNDER_VOLTAGE (R45). -/
def execFeedUnderVoltage (feedB : Bool) (mv : Nat) (s : State) : Host.Outcome State Fault Refusal :=
  live (fun d => d.opFeedUnderVoltage feedB mv) s

/-- FEED_OVER_VOLTAGE (R45). -/
def execFeedOverVoltage (feedB : Bool) (mv : Nat) (s : State) : Host.Outcome State Fault Refusal :=
  live (fun d => d.opFeedOverVoltage feedB mv) s

/-- FEED_REVERSED (R46). -/
def execFeedReversed (feedB : Bool) (s : State) : Host.Outcome State Fault Refusal :=
  live (fun d => d.opFeedReversed feedB) s

/-- AON_DOMAIN_DROP (R53). -/
def execAonDomainDrop (s : State) : Host.Outcome State Fault Refusal :=
  live (fun d => d.opAonDomainDrop) s

/-- RAIL_EXCURSION (R52). -/
def execRailExcursion (tile rail : Nat) (overV : Bool) (s : State) : Host.Outcome State Fault Refusal :=
  live (fun d => d.opRailExcursion tile rail overV) s

/-- RAIL_IN_RANGE (R51). -/
def execRailInRange (tile rail : Nat) (s : State) : Host.Outcome State Fault Refusal :=
  live (fun d => d.opRailInRange tile rail) s

/-- RAIL_RAMP_TIMEOUT (R51). -/
def execRailRampTimeout (tile rail : Nat) (s : State) : Host.Outcome State Fault Refusal :=
  live (fun d => d.opRailRampTimeout tile rail) s

/-- TILE_RAMP_START (R51). -/
def execTileRampStart (tile : Nat) (s : State) : Host.Outcome State Fault Refusal :=
  live (fun d => d.opTileRampStart tile) s

/-- THERMAL_SENSOR_READ (R56). -/
def execThermalSensorRead (tile : Nat) (r : Readings) (s : State) : Host.Outcome State Fault Refusal :=
  live (fun d => d.opThermalSensorRead tile r) s

/-- THERMAL_ISOLATE (R56). -/
def execThermalIsolate (tile : Nat) (s : State) : Host.Outcome State Fault Refusal :=
  live (fun d => d.opThermalIsolate tile) s

/-- THERMAL_TRIP (R56). -/
def execThermalTrip (tile : Nat) (s : State) : Host.Outcome State Fault Refusal :=
  live (fun d => d.opThermalTrip tile) s

/-- POWER_CAP_EXCEEDED (R55). -/
def execPowerCapExceeded (watts : Nat) (s : State) : Host.Outcome State Fault Refusal :=
  live (fun d => d.opPowerCapExceeded watts) s

/-- ASSAY_HEADROOM_START (R55). -/
def execAssayHeadroomStart (tile : Nat) (s : State) : Host.Outcome State Fault Refusal :=
  live (fun d => d.opAssayHeadroomStart tile) s

/-- FEED_IN_RANGE (R45). -/
def execFeedInRange (feedB : Bool) (mv : Nat) (s : State) : Host.Outcome State Fault Refusal :=
  live (fun d => d.opFeedInRange feedB mv) s

end Sys2Proof.Machine
end

