-- ==== Sys2Proof/Machine/Crucible.lean ====
section
/-!
DEFINITION. The crucible and the check engine (chapter 13): derivation, persistent slots, life cycle, firmware staging, key
loads, entropy, and the pages of the check engine.
-/

namespace Sys2Proof.Machine

/-! ## States and derivation -/

def Life.code : Life → Nat
  | .blank => 0 | .provisioned => 1 | .field => 2 | .returned => 3 | .scrapped => 4

def Life.ofCode (n : Nat) : Option Life :=
  if n = 0 then some .blank else if n = 1 then some .provisioned else if n = 2 then some .field
  else if n = 3 then some .returned else if n = 4 then some .scrapped else none

/-- Device ID as the derivations carry it: 8 bytes, little-endian. -/
def deviceIdB : List Byte := leBytes 8 Config.deviceId.toNat

/-- The vendor anchor (Table 13-1). -/
def vendorAnchor : List Byte := (List.range 32).map Config.vendorAnchorByte

/-- Private key of the transport key pair of a scheme (Table 13-2). -/
def Dev.transportPriv (d : Dev) (scheme : Bool) : List Byte :=
  kdf (d.cru.root.getD []) "LNST-XPORT" (d.rst.hallmark ++ [BitVec.ofNat 8 d.cru.life.code]) (if scheme then 512 else 448)

/-- Seal key of persistent slots of a kind (Table 13-2): that of SENDER slots does not depend on the hallmark (R342). -/
def Dev.sealKey (d : Dev) (kind : Nat) : List Byte :=
  if kind = 1 then kdf (d.cru.root.getD []) "LNST-SEAL-CMD" [BitVec.ofNat 8 d.cru.life.code] 256
  else kdf (d.cru.root.getD []) "LNST-SEAL" (d.rst.hallmark ++ [BitVec.ofNat 8 d.cru.life.code]) 256

/-- Unseals one slot (R343): a slot whose unwrap fails is STALE. -/
def Dev.unsealSlot (d : Dev) (x : PSlot) : PSlot :=
  if x.kind = 0 then x
  else match keyUnwrap (d.sealKey x.kind) x.sealed with
    | some k => { x with key := k, stale := false }
    | none => { x with key := [], stale := true }

/-- Public key of the transport pair (R353). -/
def Dev.transportPub (d : Dev) (scheme : Bool) : List Byte := bytesAt (Config.transportPublic scheme (d.transportPriv scheme)) 0 (if scheme then 1568 else 97)

/-- Key-encryption key of a transport (R345). -/
def Dev.transportKek (d : Dev) (scheme : Bool) (part : List Byte) (slot gen : Nat) : List Byte :=
  (sha384 ([0, 0, 0, 1] ++ bytesAt (Config.sharedSecret scheme (d.transportPriv scheme) part) 0 (if scheme then 32 else 48) ++ ascii "LNST-XPORT-KEK" ++ deviceIdB
    ++ leBytes 2 slot ++ leBytes 4 gen)).take 32

/-- Steps 2 and 3 of R345: the key, if it unwraps and its known answer matches. -/
def Dev.transportKey (d : Dev) (scheme : Bool) (part wrapped kat : List Byte) (slot gen : Nat) : Option (List Byte) :=
  match keyUnwrap (d.transportKek scheme part slot gen) wrapped with
  | none => none
  | some k => if cmac k (ascii "LNST-KAT" ++ leBytes 2 slot ++ leBytes 4 gen ++ [0, 0]) = kat then some k else none

/-- Length of a transport part (R345). -/
def partLen (scheme : Bool) : Nat := if scheme then 1568 else 97

/-- Whether the crucible runs all operations (Table 13-5), once it is ready (R341). -/
def Dev.cruOpen (d : Dev) : Bool := d.cru.ready && (d.cru.life = .provisioned || d.cru.life = .field)

/-- Whether it takes challenges and transitions. -/
def Dev.cruToken (d : Dev) : Bool := d.cru.ready && d.cru.life ≠ .scrapped

/-- Zeroises the derived keys of the SecYs bound to a CAK slot (R349). -/
def Dev.zeroCak (d : Dev) (slot : Nat) : Dev :=
  { d with msec := { d.msec with secys := d.msec.secys.map (fun (k, y) => (k, if y.cak = some slot then { y with ick := none, kek := none } else y)) } }

/-- The slot a command names for a use of some kind: another kind fails with ST_BAD_PARAM (R344), a stale one with ST_STATE
(R343), a crucible that is closed with ST_STATE (Table 13-5). -/
def Dev.slotFor (d : Dev) (n kind : Nat) : Except Nat PSlot :=
  let x := d.pslot n
  if !(d.cru.ready && (d.cru.life = .provisioned || d.cru.life = .field)) then .error stState
  else if x.kind ≠ kind then .error stBadParam
  else if x.stale then .error stState
  else .ok x

/-! ## Slot commands -/

def bodyCruSlotWrite (c : Cmd) (d : Dev) : Res :=
  let slot := c.tgt
  let kind := c.u8 0
  let gen := c.u32 4
  let pl := if 1000 < c.params.length then 1568 else 97
  let scheme := decide (pl = 1568)
  let wl := if c.params.length = pad4 (8 + pl + 24 + 16) then 24 else 40
  if !d.cruOpen then d.fail stState
  else if 256 ≤ slot then d.fail stRange ofsTgt
  else if kind = 0 || 7 ≤ kind then d.fail stBadParam (ofsP 0)
  else if scheme ≠ d.cru.scheme then d.fail stBadParam (ofsP 8)
  else if (kind = 4 && wl = 40) || (kind ≠ 4 && kind ≠ 5 && wl = 24) then d.fail stBadParam (ofsP (8 + pl))
  else
    let x := d.pslot slot
    if x.written && gen ≤ x.gen then d.fail stReplay (ofsP 4)
    else match d.transportKey scheme (c.bs 8 pl) (c.bs (8 + pl) wl) (c.bs (8 + pl + wl) 16) slot gen with
      | none => d.fail stAuthFail (ofsP (8 + pl))
      | some k =>
        let d := d.setPslot slot { kind := kind, key := k, gen := gen, written := true, sealed := keyWrap (d.sealKey kind) k, wcount := x.wcount }
        let d : Dev := { d with senders := d.senders.map (fun (n, s) =>
          (n, if s.slot = some slot then { s with consumed := 0, ring := [] } else s)) }
        (d.zeroCak slot).ok

/-- CMD_CRU_SLOT_WRITE (R345). -/
def specCruSlotWrite : CmdSpec :=
  { op := 0x0904, crit := true, pkg := true, body := bodyCruSlotWrite,
    lenOk := fun _ ps => ps.length = 148 || ps.length = 164 || ps.length = 1616 || ps.length = 1632 }

def bodyCruSlotErase (c : Cmd) (d : Dev) : Res :=
  if !d.cruOpen then d.fail stState
  else if 256 ≤ c.tgt then d.fail stRange ofsTgt
  else
    let x := d.pslot c.tgt
    ((d.setPslot c.tgt { gen := x.gen, written := x.written, wcount := x.wcount + 1 }).zeroCak c.tgt).ok

/-- CMD_CRU_SLOT_ERASE (R346). -/
def specCruSlotErase : CmdSpec := { op := 0x0905, crit := true, pkg := true, lenOk := lenIs 0, body := bodyCruSlotErase }

/-- Bindings of a slot by kind of user: sender channels, MKA, telegram sources, check-engine pages (Table 15-28). -/
def Dev.slotBinds (d : Dev) (n : Nat) : List Nat :=
  let x := d.pslot n
  [(d.senders.filter (fun e => e.2.slot = some n && e.2.slotW = x.wcount)).length,
   (d.msec.secys.filter (fun e => e.2.cak = some n && e.2.cakGen = x.wcount)).length,
   (d.fm.sources.filter (fun e => e.2.slot = n && e.2.slotW = x.wcount)).length,
   (d.chk.filter (fun e => e.2.slot = n && x.kind = 6)).length]

/-- Record of one slot (Table 15-28). -/
def Dev.slotRecord (d : Dev) (n : Nat) : List Byte :=
  let x := d.pslot n
  let b := d.slotBinds n
  leBytes 1 x.kind ++ leBytes 1 (if x.kind = 0 then 0 else if x.stale then 2 else 1) ++ leBytes 1 x.key.length
    ++ leBytes 1 (b2n (0 < nth b 0) + 2 * b2n (0 < nth b 1) + 4 * b2n (0 < nth b 2) + 8 * b2n (0 < nth b 3) + 16 * b2n x.pnBound.isSome)
    ++ leBytes 4 x.gen ++ leBytes 2 (b.foldl (· + ·) 0) ++ zeroBytes 2

def bodyCruSlotStatus (c : Cmd) (d : Dev) : Res :=
  let n := c.u8 0
  if !d.cruOpen then d.fail stState
  else if n = 0 || 64 < n then d.fail stRange (ofsP 0)
  else if 256 < c.tgt + n then d.fail stRange ofsTgt
  else d.ok ((List.range n).flatMap (fun i => d.slotRecord (c.tgt + i)))

/-- CMD_CRU_SLOT_STATUS (R503, Table 15-28). -/
def specCruSlotStatus : CmdSpec := { op := 0x0906, pkg := true, lenOk := lenIs 4, body := bodyCruSlotStatus }

/-! ## Identity, challenge, life cycle -/

/-- Attestation (R353). -/
def Dev.attestation (d : Dev) : List Byte :=
  if d.cru.life = .blank then zeroBytes 16
  else cmac d.cru.anchor (ascii "LNST-ATT" ++ deviceIdB ++ d.rst.hallmark ++ [BitVec.ofNat 8 d.cru.life.code]
    ++ sha384 (d.transportPub d.cru.scheme))

def bodyCruInfo (_ : Cmd) (d : Dev) : Res :=
  let pub := if d.cru.life = .blank then d.transportPub false ++ d.transportPub true else d.transportPub d.cru.scheme
  d.ok (padBytes (deviceIdB ++ leBytes 1 d.cru.life.code ++ leBytes 1 (b2n d.cru.scheme) ++ d.rst.hallmark ++ pub ++ d.attestation))

/-- CMD_CRU_INFO (R353). -/
def specCruInfo : CmdSpec := { op := 0x0901, anyone := true, lenOk := lenIs 0, body := bodyCruInfo }

def bodyCruChallenge (_ : Cmd) (d : Dev) : Res :=
  if !d.cruToken then d.fail stState
  else if d.cru.lockEnd.any (fun e => !reached d.now e) then d.fail stBusy
  else if !d.cru.entropyOk then d.fail stInternal
  else
    let (b, d) := d.freshBytes 16
    Dev.ok { d with cru := { d.cru with challenge := some (b, d.now + rawS 60) } } b

/-- CMD_CRU_CHALLENGE (R352). -/
def specCruChallenge : CmdSpec := { op := 0x0902, pkg := true, lenOk := lenIs 0, body := bodyCruChallenge }

/-- A life-cycle transition from the zeroisation on (R351, R392, R393): keys, root secret, journal, permissions, the eMRAM
fault ring; then the new state and a package warm reset. -/
def Dev.runTransition (d : Dev) (life : Life) (anchor : List Byte) (scheme : Bool) : Dev :=
  let d := d.tileList.foldl (fun d t => d.emit (.keyBus 2 t 0)) d
  let (b, d) := d.freshBytes 32
  let d : Dev := { d with
    cru := { d.cru with
      slots := [], root := if d.cru.entropyOk then some b else none, anchor := if life = .scrapped then zeroBytes 32 else anchor,
      scheme := scheme, life := life, transition := none, challenge := none },
    msec := { d.msec with sas := [], secys := d.msec.secys.map (fun (k, y) => (k, { y with ick := none, kek := none })) },
    pon := [],
    senders := [(1, { caps := 0xFFFF, doms := BitVec.allOnes 256 })],
    host := { d.host with boundOnce := false },
    flt := { d.flt with emram := [] } }
  d.warmReset 3

/-- Whether Table 13-6 has the transition, and whether it needs a token. -/
def transitionOk (a b : Life) : Option Bool :=
  match a, b with
  | .blank, .provisioned => some false
  | .provisioned, .provisioned => some true
  | .provisioned, .field => some true
  | .field, .returned => some true
  | .returned, .scrapped => some true
  | .blank, .scrapped => some false
  | .provisioned, .scrapped => some true
  | .field, .scrapped => some true
  | _, _ => none

/-- The token of R352 under an anchor. -/
def Dev.token (d : Dev) (anchor challenge : List Byte) (life : Life) : List Byte :=
  cmac anchor (ascii "LNST-LCT" ++ deviceIdB ++ challenge ++ [BitVec.ofNat 8 d.cru.life.code, BitVec.ofNat 8 life.code])

/-- Whether a command carries the token of the challenge outstanding, which is valid for 60 s (R352). -/
def Dev.tokenOk (d : Dev) (c : Cmd) (anchor : List Byte) (life : Life) : Bool :=
  match d.cru.challenge with
  | some (x, e) => !reached d.now e && decide (c.bs 4 16 = d.token anchor x life)
  | none => false

/-- A wrong token (R352): counted; from the eighth in a row challenges are refused for 1 h with an F0 notice. -/
def Dev.tokenFailed (d : Dev) : Dev :=
  let n := min 0xFF (d.cru.tokenFails + 1)
  let d : Dev := { d with cru := { d.cru with tokenFails := n, lockEnd := if 8 ≤ n then some (d.now + rawS 3600) else d.cru.lockEnd } }
  if 8 ≤ n then d.raise 0x0B 0x04 0 0 0xFFFFFFFF n false else d

/-- Layout of the parameters (log 15): to-state, image scheme, bit 0 set when the scheme is named, token at 4, and where an
anchor is carried its generation at 20, transport part, wrapped key and known answer. -/
def bodyCruLifecycle (c : Cmd) (d : Dev) : Res :=
  let hasAnchor := decide (20 < c.params.length)
  let pl := if c.params.length = 1648 then 1568 else 97
  let named := c.bit 2 0
  let newScheme := if named then decide (c.u8 1 = 1) else d.cru.scheme
  let d0 : Dev := { d with cru := { d.cru with challenge := none } }
  if !d.cruToken then d.fail stState
  else match Life.ofCode (c.u8 0) with
    | none => d0.fail stRange (ofsP 0)
    | some life =>
      let owner := d.tokenOk c d.cru.anchor life
      let vendor := d.tokenOk c vendorAnchor life
      if d.cru.life = .returned && life = .returned then
        if vendor then ({ d0 with cru := { d0.cru with jtag := true, tokenFails := 0 } } : Dev).ok else (d0.tokenFailed).fail stAuthFail (ofsP 4)
      else match transitionOk d.cru.life life with
        | none => d0.fail stState
        | some need =>
          if 1 < c.u8 1 then d0.fail stBadParam (ofsP 1)
          else if (d.cru.life = .blank && life = .provisioned && !(named && hasAnchor)) ||
              ((hasAnchor || named) && life ≠ .provisioned) then d0.fail stBadParam (ofsP 2)
          else if need && !(owner || (vendor && d.cru.life = .returned)) then (d0.tokenFailed).fail stAuthFail (ofsP 4)
          else if hasAnchor && decide (pl = 1568) ≠ newScheme then d0.fail stBadParam (ofsP 24)
          else if !d.cru.entropyOk then d0.fail stInternal
          else
            let anchor := if hasAnchor then d.transportKey newScheme (c.bs 24 pl) (c.bs (24 + pl) 40) (c.bs (64 + pl) 16) 0xFFFF (c.u32 20)
              else some d.cru.anchor
            match anchor with
            | none => d0.fail stAuthFail (ofsP 24)
            | some a =>
              { dev := { d0 with cru := { d0.cru with transition := some life, tokenFails := if need then 0 else d0.cru.tokenFails } },
                after := fun d => d.runTransition life a newScheme }

/-- CMD_CRU_LIFECYCLE (R351, R352). -/
def specCruLifecycle : CmdSpec :=
  { op := 0x0903, crit := true, pkg := true, body := bodyCruLifecycle,
    lenOk := fun _ ps => ps.length = 20 || ps.length = 180 || ps.length = 1648 }

/-- CHALLENGE_EXPIRY (R352). -/
def Dev.opChallengeExpiry (d : Dev) : Dev :=
  match d.cru.challenge with
  | some (_, e) =>
    let d := d.advanceTo e
    { d with cru := { d.cru with challenge := none } }
  | none => d

/-- TOKEN_LOCKOUT_END (R352). -/
def Dev.opTokenLockoutEnd (d : Dev) : Dev :=
  match d.cru.lockEnd with
  | some e =>
    let d := d.advanceTo e
    { d with cru := { d.cru with lockEnd := none } }
  | none => d

/-! ## Firmware -/

/-- Staging slot (R354): the flash slot that did not boot the running image; slot B after a host boot. -/
def Dev.stagingSlot (d : Dev) : Nat := if d.rst.source = 1 then 0 else 1

/-- The body sees the bulk head and, once the transfer is done, the image after it. -/
def bodyCruFwStage (c : Cmd) (d : Dev) : Res :=
  let img := c.params.drop 16
  if !d.cruOpen then d.fail stState
  else if !c.p.bulkFlag then d.fail stBadParam 3
  else if 2 ^ 24 < img.length || !Config.imageVerifies d.cru.scheme img then
    Dev.fail { d with cru := { d.cru with staged := none } } stBadParam
  else Dev.ok { d with cru := { d.cru with staged := some d.stagingSlot } }

/-- CMD_CRU_FW_STAGE (R354). -/
def specCruFwStage : CmdSpec := { op := 0x0907, pkg := true, bulk := true, lenOk := lenIs 0, body := bodyCruFwStage }

/-- Byte 0 bit 0 asks for the warm reset at once (log 15). -/
def bodyCruFwActivate (c : Cmd) (d : Dev) : Res :=
  if !d.cruOpen || d.rst.strap ≠ 0 then d.fail stState
  else match d.cru.staged with
    | none => d.fail stState
    | some sl =>
      { dev := { d with cru := { d.cru with flashFirst := sl, flashCopy := sl } },
        after := if c.bit 0 0 then (fun d => d.warmReset 3) else id }

/-- CMD_CRU_FW_ACTIVATE (R354). -/
def specCruFwActivate : CmdSpec := { op := 0x0908, crit := true, pkg := true, lenOk := lenIs 4, body := bodyCruFwActivate }

/-! ## Entropy and key loads -/

/-- ENTROPY_HEALTH_FAIL (R341). -/
def Dev.opEntropyHealthFail (d : Dev) : Dev :=
  if d.cru.entropyOk then (Dev.raise { d with cru := { d.cru with entropyOk := false } } 0x0B 0x02 2 0 0xFFFFFFFF 0 true) else d

/-- ENTROPY_HEALTH_RESTORED (R341). -/
def Dev.opEntropyHealthRestored (d : Dev) : Dev :=
  if d.cru.entropyOk then d else (Dev.endCond { d with cru := { d.cru with entropyOk := true } } 0x0B 0x02 0 0xFFFFFFFF)

/-- Tile of a volatile slot (R347). -/
def Dev.tileOfVolatile (d : Dev) (slot : Nat) : Nat := if slot < 8192 then d.tileOfSa slot else d.tileOfTerm ((slot - 8192) / 2)

/-- Whether a volatile slot holds a master copy (R349). -/
def Dev.volatileHeld (d : Dev) (slot : Nat) : Bool :=
  if slot < 8192 then (d.sa slot).st ≠ .empty
  else if (slot - 8192) % 2 = 0 then (d.ponKey ((slot - 8192) / 2)).key0.isSome else (d.ponKey ((slot - 8192) / 2)).key1.isSome

/-- Master copy of a volatile slot (R349). -/
def Dev.volatileKey (d : Dev) (slot : Nat) : List Byte :=
  if slot < 8192 then (d.sa slot).key
  else if (slot - 8192) % 2 = 0 then (d.ponKey ((slot - 8192) / 2)).key0.getD [] else (d.ponKey ((slot - 8192) / 2)).key1.getD []

/-- What a key receiver acknowledges a LOAD of a key with (R348): the first 4 bytes of the AES-CMAC of the empty message under it,
the first byte lowest. -/
def loadAck (key : List Byte) : BitVec 32 := BitVec.ofNat 32 (natAt (cmac key []) 0 4)

/-- Marks the working copy of a volatile slot as loaded. -/
def Dev.markLoaded (d : Dev) (slot : Nat) : Dev :=
  if slot < 8192 then d.setSa slot { d.sa slot with loaded := true }
  else d.setPon ((slot - 8192) / 2) { d.ponKey ((slot - 8192) / 2) with loaded := true }

/-- KEY_LOAD_ACK (R348): the crucible compares the acknowledgement with its own; a mismatch repeats the LOAD up to three times; the
fourth is F3. -/
def Dev.opKeyLoadAck (d : Dev) (slot : Nat) (ack : BitVec 32) : Dev :=
  if !d.volatileHeld slot then d
  else
    let t := d.tileOfVolatile slot
    if ack = loadAck (d.volatileKey slot) then ({ d with cru := { d.cru with loadFails := mdel d.cru.loadFails slot } } : Dev).markLoaded slot
    else
      let n := mgetD d.cru.loadFails slot 0 + 1
      if n < 4 then (Dev.emit { d with cru := { d.cru with loadFails := mput d.cru.loadFails slot n } } (.keyBus 0 t slot))
      else (Dev.raise { d with cru := { d.cru with loadFails := mdel d.cru.loadFails slot } } 0x0B 0x03 3 t t slot false)

/-! ## The check engine (R355 to R358) -/

/-- Pages whose chunk is under way. -/
def ChkState.busy (s : ChkState) : Bool := s = .queued || s = .running || s = .suspended

/-- Enters DONE or ERROR; host pages ring their vector (Table 14-4). -/
def Dev.chkEnd (d : Dev) (page : Nat) (x : ChkPage) : Dev :=
  let d := d.setChk page x
  if 4 ≤ page && page < 16 then d.vector (page + 32) else d

/-- The waiting page that runs next: highest priority, then the order of start (R357). -/
def Dev.chkNext (d : Dev) : Option Nat :=
  let w := d.chk.filter (fun e => e.2.st = .queued || e.2.st = .suspended)
  (w.foldl (fun (m : Option (Nat × ChkPage)) e =>
    match m with
    | none => some e
    | some b => if b.2.prio < e.2.prio || (b.2.prio = e.2.prio && e.2.order < b.2.order) then some e else some b) none).map (fun e => e.1)

/-- Bytes of the message that the chunk under way completes. -/
def ChkPage.total (x : ChkPage) : Nat := x.msg.length + x.len

/-- Raw units that a running page has held the engine for. -/
def ChkPage.held (x : ChkPage) (now : Raw) : Nat := if reached now x.since then (now - x.since).toNat else 0

/-- The next 16-byte block boundary of a running page (R357), at 25 ns a byte (R355): bytes of the message done there, and its instant. -/
def ChkPage.boundary (x : ChkPage) (now : Raw) : Nat × Raw :=
  let n := min (x.total - x.doneLen) (16 * ((x.held now + (400 * 65536 - 1)) / (400 * 65536)))
  (x.doneLen + n, x.since + rawNs (25 * n))

/-- Instant at which a running page ends its chunk. -/
def ChkPage.endAt (x : ChkPage) : Raw := x.since + rawNs (25 * (x.total - x.doneLen))

/-- Gives the engine to a page at an instant; a suspended one is restored first, in 40 ns (R357). -/
def Dev.chkGive (d : Dev) (page : Nat) (t : Raw) : Dev :=
  let x := d.chkPage page
  d.setChk page { x with st := .running, since := if x.st = .suspended then t + rawNs 40 else t }

/-- Lets the engine, free from an instant on, run: a waiting page of higher priority suspends the running one at its next block
boundary, where its state is saved in 40 ns (R357). -/
def Dev.chkScheduleAt (d : Dev) (free : Raw) : Dev :=
  match d.chkNext with
  | none => d
  | some n =>
    match (d.chk.filter (fun e => e.2.st = .running)).head? with
    | none => d.chkGive n free
    | some (r, x) =>
      if x.prio < (d.chkPage n).prio then
        let (k, t) := x.boundary d.now
        (d.setChk r { x with st := .suspended, doneLen := k, bytes := k % 2 ^ 24 }).chkGive n (t + rawNs 40)
      else d

/-- Lets the engine run from now on. -/
def Dev.chkSchedule (d : Dev) : Dev := d.chkScheduleAt d.now

/-- Key of the slot a host page binds, if the slot is usable (R344, R356). -/
def Dev.chkKey (d : Dev) (slot : Nat) : Option (List Byte) :=
  let x := d.pslot slot
  if x.kind = 6 && !x.stale && d.cruOpen then some x.key else none

/-- Control fields of CHK_PAGE_CTRL; the tag length 8-16, other values 16. -/
def ChkPage.ctrl (x : ChkPage) (v : Nat) : ChkPage :=
  let tl := fieldN v 20 16
  { x with last := bitN v 30, verify := bitN v 29, prio := fieldN v 27 26, tagLen := if 8 ≤ tl && tl ≤ 16 then tl else 16, slot := fieldN v 7 0 }

/-- CHECK_PAGE_GO (R356): starts the chunk in the data area of a host page. -/
def Dev.opCheckPageGo (d : Dev) (page : Nat) (value : BitVec 32) : Dev :=
  if !d.hostOk || page < 4 || 16 ≤ page then d
  else
    let x := d.chkPage page
    if x.st.busy then d.setChk page { x with collision := true }
    else
      let first := x.st ≠ .waitData
      let x := (if first then { x with msg := [], bytes := 0, doneLen := 0, mtch := false, error := 0 } else x).ctrl value.toNat
      let key := if first then d.chkKey x.slot else x.key
      if key.isNone then d.chkEnd page { x with st := .error, error := 1 }
      else if x.len = 0 || 3840 < x.len || (!x.last && x.len % 16 ≠ 0) then d.chkEnd page { x with st := .error, error := 2, key := none, msg := [] }
      else
        let d := d.setChk page { x with st := .queued, key := key, order := d.chkNo }
        Dev.chkSchedule { d with chkNo := d.chkNo + 1 }

/-- Ends the message of a page with error ABORTED, at the next block boundary where it is running (R358). -/
def Dev.chkAbort (d : Dev) (page : Nat) : Dev :=
  let x := d.chkPage page
  if x.st.busy || x.st = .waitData then
    (d.chkEnd page { x with st := .error, error := 3, key := none, msg := [] }).chkScheduleAt
      (if x.st = .running then (x.boundary d.now).2 else d.now)
  else d

/-- CHECK_PAGE_ABORT (R358). -/
def Dev.opCheckPageAbort (d : Dev) (page : Nat) : Dev :=
  if d.hostOk && 4 ≤ page && page < 16 then d.chkAbort page else d

/-- CHECK_CHUNK_DONE (R356): the chunk's bytes have passed the engine, at 25 ns each (R355); WAIT_DATA, the tag, or the match result;
the next page resumes. -/
def Dev.opCheckChunkDone (d : Dev) (page : Nat) : Dev :=
  let x := d.chkPage page
  if x.st ≠ .running then d
  else
    let d := d.advanceTo x.endAt
    let msg := x.msg ++ x.data.take x.len
    let x := { x with msg := msg, bytes := msg.length % 2 ^ 24, doneLen := msg.length }
    let d :=
      if !x.last then d.setChk page { x with st := .waitData }
      else
        let tag := cmac (x.key.getD []) msg
        if x.verify then
          d.chkEnd page { x with st := .done, mtch := decide (tag.take x.tagLen = x.mac.take x.tagLen), key := none, msg := [] }
        else d.chkEnd page { x with st := .done, mac := tag, key := none, msg := [] }
    d.chkSchedule

/-! ## Meanings -/

/-- CMD_CRU_INFO (R353). -/
def execCmdCruInfo (p : Packet) (s : State) : Host.Outcome State Fault Refusal := live (Dev.runCommand specCruInfo p) s

/-- CMD_CRU_CHALLENGE (R352). -/
def execCmdCruChallenge (p : Packet) (s : State) : Host.Outcome State Fault Refusal := live (Dev.runCommand specCruChallenge p) s

/-- CMD_CRU_LIFECYCLE (R351). -/
def execCmdCruLifecycle (p : Packet) (s : State) : Host.Outcome State Fault Refusal := live (Dev.runCommand specCruLifecycle p) s

/-- CMD_CRU_SLOT_WRITE (R345). -/
def execCmdCruSlotWrite (p : Packet) (s : State) : Host.Outcome State Fault Refusal := live (Dev.runCommand specCruSlotWrite p) s

/-- CMD_CRU_SLOT_ERASE (R346). -/
def execCmdCruSlotErase (p : Packet) (s : State) : Host.Outcome State Fault Refusal := live (Dev.runCommand specCruSlotErase p) s

/-- CMD_CRU_SLOT_STATUS (R503). -/
def execCmdCruSlotStatus (p : Packet) (s : State) : Host.Outcome State Fault Refusal := live (Dev.runCommand specCruSlotStatus p) s

/-- CMD_CRU_FW_STAGE (R354). -/
def execCmdCruFwStage (p : Packet) (s : State) : Host.Outcome State Fault Refusal := live (Dev.runCommand specCruFwStage p) s

/-- CMD_CRU_FW_ACTIVATE (R354). -/
def execCmdCruFwActivate (p : Packet) (s : State) : Host.Outcome State Fault Refusal := live (Dev.runCommand specCruFwActivate p) s

/-- CHECK_PAGE_GO (R356). -/
def execCheckPageGo (page : Nat) (value : BitVec 32) (s : State) : Host.Outcome State Fault Refusal :=
  live (fun d => d.opCheckPageGo page value) s

/-- CHECK_PAGE_ABORT (R358). -/
def execCheckPageAbort (page : Nat) (s : State) : Host.Outcome State Fault Refusal :=
  live (fun d => d.opCheckPageAbort page) s

/-- CHECK_CHUNK_DONE (R356). -/
def execCheckChunkDone (page : Nat) (s : State) : Host.Outcome State Fault Refusal :=
  live (fun d => d.opCheckChunkDone page) s

/-- KEY_LOAD_ACK (R348). -/
def execKeyLoadAck (slot : Nat) (ack : BitVec 32) (s : State) : Host.Outcome State Fault Refusal :=
  live (fun d => d.opKeyLoadAck slot ack) s

/-- ENTROPY_HEALTH_FAIL (R341). -/
def execEntropyHealthFail (s : State) : Host.Outcome State Fault Refusal :=
  live (fun d => d.opEntropyHealthFail) s

/-- CHALLENGE_EXPIRY (R352). -/
def execChallengeExpiry (s : State) : Host.Outcome State Fault Refusal :=
  live (fun d => d.opChallengeExpiry) s

/-- TOKEN_LOCKOUT_END (R352). -/
def execTokenLockoutEnd (s : State) : Host.Outcome State Fault Refusal :=
  live (fun d => d.opTokenLockoutEnd) s

/-- ENTROPY_HEALTH_RESTORED (R341). -/
def execEntropyHealthRestored (s : State) : Host.Outcome State Fault Refusal :=
  live (fun d => d.opEntropyHealthRestored) s

end Sys2Proof.Machine
end

