-- ==== Sys2Proof/Machine/Boot.lean ====
section
/-!
DEFINITION. Reset and boot: RESET_N, the boot stages and the hallmark, die links, memory initialisation, tiles, command-ready,
tile reset, lockstep pairs, engines, and assay (chapters 01, 03 and 19).
-/

namespace Sys2Proof.Machine

/-! ## Die links (R13, R15, R76) -/

/-- Whether a die link is trained. -/
def Dev.linkUpAB (d : Dev) (a b : Nat) : Bool := mgetD d.rst.links (linkKey (min a b) (max a b)) false

/-- Whether a die link is trained, or is being trained again at the reset of a tile or of the link (R76, R445). -/
def Dev.linkMaybe (d : Dev) (a b : Nat) : Bool :=
  d.linkExists (min a b) (max a b) && mgetD d.rst.links (linkKey (min a b) (max a b)) true

/-- Tiles with a path of at most `n` hops to the lead tile over links of which `up` holds. -/
def Dev.reachTiles (d : Dev) (up : Nat → Nat → Bool) : Nat → List Nat
  | 0 => [0]
  | n + 1 =>
    let r := d.reachTiles up n
    d.tileList.filter (fun t => r.contains t || r.any (fun u => u ≠ t && up u t))

/-- Whether a tile has a trained path to the lead tile. -/
def Dev.reachable (d : Dev) (t : Nat) : Bool := (d.reachTiles d.linkUpAB d.nTiles).contains t

/-- Isolates the tiles that no path to the lead tile is left for (R76); `boot` raises their fault of R73. -/
def Dev.dropUnreachable (d : Dev) (boot : Bool) : Dev :=
  let r := d.reachTiles d.linkMaybe d.nTiles
  (d.tileList.filter (fun t => !r.contains t && (d.tile t).st ≠ .isolated)).foldl (fun d t =>
    let d := (d.assayInterrupt t 4).takeOut t
    (if boot then d.raise 0x02 0x05 3 t t 0 false true else d).assayGone t) d

/-- From LINKS to LOAD or WAIT_HOST once every die link is trained or failed (R72, R68): XSPI_RST_N is released (R494). -/
def Dev.linksDone (d : Dev) : Dev :=
  if d.rst.stage = .links && d.allLinks.all d.linkDecided then
    let d := d.dropUnreachable true
    let host := d.rst.strap = 1 || d.rst.strap = 3
    { d with rst := { d.rst with
        stage := if host then .waitHost else .load
        slotTry := if host then 2 else if d.rst.strap = 2 then 0 else d.rst.firstSlot
        xspiAt := some d.now } }
  else d

/-- Whether die links train: the package is powered up and its clocks run (R49, R76). -/
def Dev.linksTrain (d : Dev) : Bool :=
  !(d.pwr.pstate = .unpowered || d.pwr.pstate = .aon || d.pwr.pstate = .ramp || d.pwr.pfw)

/-- DIE_LINK_TRAINED (R76): a new link key is agreed for the tile the link leads to (R349). -/
def Dev.opDieLinkTrained (d : Dev) (a b : Nat) : Dev :=
  if !d.linkExists a b || !d.linksTrain then d
  else
    let (n, d) := d.fresh
    let d : Dev := { d with
      rst := { d.rst with links := mput d.rst.links (linkKey a b) true }, cru := { d.cru with linkKeys := mput d.cru.linkKeys b n } }
    d.linksDone.crossSettled

/-- DIE_LINK_TRAIN_TIMEOUT (R76): the link is failed and handled per R15. -/
def Dev.opDieLinkTrainTimeout (d : Dev) (a b : Nat) : Dev :=
  if !d.linkExists a b || d.linkUpAB a b || !d.linksTrain then d
  else
    let d : Dev := { d with rst := { d.rst with links := mput d.rst.links (linkKey a b) false } }
    let d := d.raise 0x02 0x01 3 a a b false
    (if d.rst.stage = .links then d.linksDone else d.dropUnreachable false).crossSettled

/-- DIE_LINK_LOCK_LOSS (R15): one F3; traffic takes another path where there is one. -/
def Dev.opDieLinkLockLoss (d : Dev) (a b : Nat) : Dev :=
  if d.linkExists a b && d.linkUpAB a b then
    let d : Dev := { d with rst := { d.rst with links := mput d.rst.links (linkKey a b) false } }
    (d.raise 0x02 0x01 3 a a b false).dropUnreachable false
  else d

/-! ## RESET_N -/

/-- RESET_N_ASSERT (R66): an accepted assertion returns the package to AON; a stuck input is ignored (R58). -/
def Dev.opResetNAssert (d : Dev) : Dev :=
  if d.pwr.pstate = .unpowered || d.pwr.pinReset.ignored then d
  else
    let x := if d.pwr.pstate = .aon then d else d.packageReset false 1
    { x with pwr := { x.pwr with pstate := .aon, pfw := d.pwr.pfw, pinReset := { asserted := true, since := x.now } } }

/-- RESET_N_RELEASE (R63). An input that was ignored as stuck is armed again (R58); without a GOOD feed the straps are sampled and the package
stays in AON (R49). -/
def Dev.opResetNRelease (d : Dev) (bootSrc : BitVec 2) (refSel : Bool) : Dev :=
  let d1 : Dev := { d with pwr := { d.pwr with pinReset := {} } }
  let d1 := if d.pwr.pinReset.ignored then d1.endCond 0x01 0x08 0 0 else d1
  if d.pwr.pstate ≠ .aon then d1
  else
    let b := d1.coldBoot bootSrc refSel
    if d.pwr.pfw then { b with pwr := { b.pwr with pstate := .aon } } else b

/-! ## Image stages (R68 to R75) -/

/-- Reports a boot error (R85); a change of the field raises its interrupt. -/
def Dev.bootError (d : Dev) (e : Nat) : Dev :=
  if d.rst.error = e then d else (Dev.irq { d with rst := { d.rst with error := e } } 2)

/-- A slot is rejected: the other slot where BOOT_SRC allows it, else the host (R68, R71). -/
def Dev.slotRejected (d : Dev) (e : Nat) : Dev :=
  let d := d.bootError e
  let bad := addUniq d.rst.slotBad d.rst.slotTry
  let other := 1 - d.rst.slotTry
  let d : Dev := { d with rst := { d.rst with hallmark := zeroBytes 48, mlog := [], stages := 0, slotBad := bad } }
  if d.rst.strap = 0 && d.rst.slotTry < 2 && e ≠ 1 && e ≠ 2 && !bad.contains other then
    { d with rst := { d.rst with slotTry := other } }
  else { d with rst := { d.rst with stage := .waitHost, slotTry := 2, loadGo := false } }

/-- Whether the signature block of a stage verifies under the scheme set at provisioning (R71). -/
def Dev.stageSigned (d : Dev) (i : BootImage) : Bool := if d.cru.scheme then i.mldsaOk else i.ecdsaOk

/-- Error of Table 3-7 with which a stage as read is rejected, 0 where it is accepted (R69, R71). Only BOOT_SRC 0b00 reads a slot that the
directory names (log 73). -/
def Dev.stageError (d : Dev) (i : BootImage) : Nat :=
  let flash := d.rst.slotTry < 2
  if flash && !i.answers then 1
  else if flash && d.rst.strap = 0 && !i.dirOk && !i.copyOk then 2
  else if 2 ^ 24 < i.size then 6
  else if !d.stageSigned i then 3 + d.rst.slotTry
  else 0

/-- The ROM uses the directory copy when the first directory fails its check: the slot that the copy names first is read (R69). -/
def Dev.directory (d : Dev) (i : BootImage) : Dev :=
  if d.rst.strap = 0 && d.rst.slotTry < 2 && d.rst.slotBad.isEmpty && d.rst.stages = 0 && !i.dirOk then
    { d with rst := { d.rst with slotTry := d.rst.copySlot } }
  else d

/-- A verified stage is measured and extended into the hallmark (R74); the last leads to memory initialisation. -/
def Dev.stageExtend (d : Dev) (i : BootImage) : Dev :=
  let m := sha384 i.bytes
  let d : Dev := { d with rst := { d.rst with
    hallmark := sha384 (d.rst.hallmark ++ [BitVec.ofNat 8 i.stage] ++ m)
    mlog := d.rst.mlog ++ [m]
    stages := i.stage
    fwRelease := if i.stage = 2 then i.release else d.rst.fwRelease } }
  if i.stage = 4 then { d with rst := { d.rst with
    stage := .meminit
    source := d.rst.slotTry } }
  else d

/-- One stage as read (R71): its slot is rejected, or it is extended in its order. -/
def Dev.stageRead (d : Dev) (i : BootImage) : Dev :=
  if d.rst.stage ≠ .load then d
  else
    let d := d.directory i
    let e := d.stageError i
    if e ≠ 0 then d.slotRejected e
    else if i.stage ≠ d.rst.stages + 1 || 4 < i.stage then d
    else d.stageExtend i

/-- A read of the flash comes no earlier than 100 µs after the release of XSPI_RST_N (R494). -/
def Dev.flashAwake (d : Dev) : Dev :=
  match d.rst.xspiAt with
  | some t => if d.rst.slotTry < 2 then d.advanceTo (t + rawUs 100) else d
  | none => d

/-- IMAGE_STAGE_VERIFIED (R71, R74): a stage is read; it is extended into the hallmark, or its slot is rejected. -/
def Dev.opImageStageVerified (d : Dev) (image : BootImage) : Dev :=
  if d.rst.stage ≠ .load || d.rst.loadGo || d.pwr.pfw then d else d.flashAwake.stageRead image

/-- RST_BOOT_DESC_GO (R70): a write of RST_BOOT_DESC_LO; go starts the host load in WAIT_HOST only. -/
def Dev.opRstBootDescGo (d : Dev) (value : BitVec 32) : Dev :=
  if d.rst.stage = .waitHost && d.host.linkUp && !d.pwr.pfw then
    let d := d.setReg 0x208 (value.toNat / 64 * 64)
    if value.getLsbD 0 then { d with rst := { d.rst with loadGo := true, stage := .load, slotTry := 2 } } else d
  else if d.hostOk then d.setReg 0x208 (value.toNat / 64 * 64)
  else d

/-- HOST_IMAGE_LOADED (R70): the load ended; its stages are verified and extended in order, or the ROM reports the error and returns to
WAIT_HOST. `listOk` says whether the descriptor list is valid and aligned. -/
def Dev.opHostImageLoaded (d : Dev) (listOk : Bool) (images : List BootImage) : Dev :=
  if !d.rst.loadGo || d.rst.stage ≠ .load || d.pwr.pfw then d
  else
    let d : Dev := { d with rst := { d.rst with loadGo := false } }
    if listOk then images.foldl Dev.stageRead d else d.slotRejected 7

/-! ## Assay at boot (R458, R459) -/

/-- Whether this boot is yet to run assay on a tile (R454, R457, R458, R460). -/
def Dev.bootAssay (d : Dev) (t : Nat) : Bool :=
  !d.rst.assayExit && !(d.asyTile t).done &&
    ((d.asy.boot = 1 && !d.rst.warmBoot) || d.asy.boot = 2 || (t = 0 && d.asy.forced)
      || (match d.asy.oneShot with | some m => m.testBit t | none => false))

/-- Starts the boot run of a tile, or lets it wait for its thermal level (R459). -/
def Dev.bootRunTile (d : Dev) (t : Nat) : Dev :=
  if !d.bootAssay t then d
  else
    if 2 ≤ (d.tile t).level then d.setAsyTile t { waits := true, set := d.asy.set, since := d.now }
    else d.assayOrDefer t 0 d.asy.set

/-- MEMINIT_DONE (R72, R73): tiles that failed are isolated; a failure of the lead tile ends the boot in FAILED. -/
def Dev.opMeminitDone (d : Dev) (failed : List Nat) : Dev :=
  if d.rst.stage ≠ .meminit || d.pwr.pfw then d
  else if failed.contains 0 then d.leadFails
  else
    let d := (failed.filter (fun t => t < d.nTiles)).foldl (fun d t => (d.takeOut t).raise 0x02 0x05 3 t t 0 false true) d
    let d : Dev := { d with
      rst := { d.rst with stage := .tiles }
      asy := { d.asy with bootRun := d.tileList.filter (fun t => (d.tile t).st ≠ .isolated && d.bootAssay t) } }
    d.bootRunTile 0

/-- Whether the die links of a tile have trained again after its reset and leave it a path to the lead tile (R76, step 5 of R77). -/
def Dev.linksBack (d : Dev) (t : Nat) : Bool :=
  (d.linksOf t).all (fun p => d.linkDecided p || (d.tile p.1).st = .isolated || (d.tile p.2).st = .isolated) && d.reachable t

/-- TILE_IMAGE_LOADED (R75): the SHA-384 values of the images that the tile received are compared with the measurement log; a mismatch isolates
the tile. During a tile reset, once its die links have trained, the tile enters BOOT (step 6 of R77); during a package boot it runs its boot
assay. Its time unit is aligned with it (step 7 of R77, R131): the lead tile sends its raw counter and half the round trip over the die link,
whose delays out and back, in raw units, are operands; what the tile's counter is off by is what they differ by. -/
def Dev.opTileImageLoaded (d : Dev) (tile : Nat) (images : List (List Byte)) (out back : Nat) : Dev :=
  let x := d.tile tile
  let booting := d.rst.stage = .tiles && x.st = .boot && !x.aligned && !d.pwr.pfw
  let resetting := (d.ready || (d.rst.stage = .tiles && !d.pwr.pfw)) && x.st = .reset && x.assayAfter.isNone && d.linksBack tile
  if tile = 0 || d.nTiles ≤ tile || !(booting || resetting) then d
  else if images.map sha384 ≠ d.rst.mlog then
    (((d.updTile tile (fun x => { x with lastCause := 4 })).takeOut tile).raise 0x02 0x06 3 tile tile 0 false true).assayGone tile
  else
    let d := (d.updTile tile (fun x => { x with
      aligned := true
      rawDiff := BitVec.ofInt 64 (((out + back) / 2 : Nat) - (out : Int))
      corr := 0
      timeErr := 0 })).endResync tile 0x80#9
    if booting then d.bootRunTile tile else d.tileTo tile .boot

/-! ## Command-ready -/

/-- The crucible unseals its slots (R343): those sealed under another hallmark are STALE. -/
def Dev.unseal (d : Dev) : Dev :=
  { d with cru := { d.cru with slots := d.cru.slots.map (fun (k, x) => (k, d.unsealSlot x)) } }

/-- The crucible starts (R341): the root secret is generated at the first start in BLANK that finds none. -/
def Dev.crucibleStart (d : Dev) : Dev :=
  let d :=
    if d.cru.life = .blank && d.cru.root.isNone && d.cru.entropyOk then
      let (b, d) := d.freshBytes 32
      ({ d with cru := { d.cru with root := some b } } : Dev)
    else d
  let d := d.unseal
  { d with cru := { d.cru with ready := d.cru.root.isSome } }

/-- Raises a fault whose condition holds, unless this boot has recorded it already. -/
def Dev.reRaised (d : Dev) (block event cls tile inst detail : Nat) : Dev :=
  if d.condHolds block event tile inst then d else d.raise block event cls tile inst detail true

/-- The fault of a tile whose last assay run did not pass (Table 19-2), unless this boot has recorded it already. -/
def Dev.reRaisedAssay (d : Dev) (t : Nat) : Dev :=
  let a := d.asyTile t
  let event := if !a.complete then 0x03 else if t = 0 then 0x02 else 0x01
  if !a.done || a.pass || d.condHolds 0x10 event t t then d
  else d.raiseAssay event (if !a.complete then 2 else if t = 0 then 4 else 3) t (if a.complete then a.set else a.reason)

/-- Fault conditions that still hold once their blocks run again raise their faults anew (R441). -/
def Dev.reRaise (d : Dev) : Dev :=
  let d := if d.feedGood true && !d.feedGood false then d.reRaised 0x01 0x01 2 0xFF 0 d.pwr.feedA.mv else d
  let d := if d.feedGood false && !d.feedGood true then d.reRaised 0x01 0x01 2 0xFF 1 d.pwr.feedB.mv else d
  let d := d.tileList.foldl (fun d t =>
    let x := d.tile t
    if 2 ≤ x.level then d.reRaised 0x01 0x05 2 t t (thermalDetail x.nowC x.hot) else d) d
  let d := if !d.cru.entropyOk then d.reRaised 0x0B 0x02 2 0 0xFFFFFFFF 0 else d
  let d := if d.pwr.pinReset.ignored then d.reRaised 0x01 0x08 2 0 0 10 else d
  let d := if d.pwr.pinQuench.ignored then d.reRaised 0x01 0x08 2 0 1 d.quenchStuckS else d
  let d := [0, 1, 2, 3].foldl (fun d n => if (mgetD d.pwr.pinProt n {}).ignored then d.reRaised 0x01 0x08 2 0 (2 + n) 10 else d) d
  let d := d.tileList.foldl Dev.reRaisedAssay d
  if d.pwr.pinQuench.asserted && !d.pwr.pinQuench.ignored then
    Dev.reRaised { d with flt := { d.flt with extQuench := true } } 0x0F 0x01 4 0xFF 0xFFFFFFFF 0
  else d

/-- COMMAND_READY (R72): every tile not isolated is loaded and no boot assay runs or waits; the interpreter starts. A
transition word found pending is run again from the zeroisation (R351). -/
def Dev.opCommandReady (d : Dev) : Dev :=
  let others := d.tileList.filter (fun t => t ≠ 0 && (d.tile t).st ≠ .isolated)
  if d.rst.stage = .tiles && !d.pwr.pfw && others.all (fun t => (d.tile t).aligned && (d.tile t).st = .boot) && d.asy.bootRun.isEmpty && !d.asy.exitPend then
    let d := d.crucibleStart
    let d := (0 :: others).foldl (fun d t => (d.updTile t (fun x => { x with aligned := true, uplinkFault := false })).tileTo t .run) d
    let d : Dev := { d with
      pwr := { d.pwr with pstate := .operating },
      rst := { d.rst with stage := .ready, readyUs := (d.now - d.rst.resetAt).toNat / 65536000, assayExit := false },
      asy := { d.asy with oneShot := none } }
    let d := (d.irq 0).reRaise
    match d.cru.transition with
    | some life => d.runTransition life d.cru.anchor d.cru.scheme
    | none => d
  else d

/-! ## Package warm reset, tile reset -/

/-- WARM_RESET_START (R63): a package warm reset of the lead tile (R30). -/
def Dev.opWarmResetStart (d : Dev) : Dev := d.warmReset 6

/-! ## Lockstep pairs and engines (R17, R19, R449) -/

/-- Loss of a lockstep pair: the other pair serves both roles; the loss of both isolates the tile (R17). `wd` for a watchdog expiry, which is one fault of event 0x07. -/
def Dev.pairLost (d : Dev) (tile pair : Nat) (wd : Bool) : Dev :=
  let x := d.tile tile
  if d.nTiles ≤ tile || 2 ≤ pair || x.pairBad.getLsbD pair || d.pwr.pstate = .aon || d.pwr.pstate = .unpowered then d
  else
    let bad := x.pairBad ||| (1#2 <<< pair)
    let both := bad = 3#2
    let d := d.updTile tile (fun x => { x with pairBad := bad })
    let detail := if both then 2 else pair
    if !both then d.raise 0x02 (if wd then 0x07 else 0x02) 3 tile tile detail false
    else if tile = 0 then
      d.leadFails.raise 0x02 (if wd then 0x07 else 0x03) 4 0 0 2 false
    else ((d.takeOut tile).raise 0x02 (if wd then 0x07 else 0x02) 3 tile tile 2 false true).assayGone tile

/-- LOCKSTEP_DISAGREE (R17). -/
def Dev.opLockstepDisagree (d : Dev) (tile pair : Nat) : Dev := d.pairLost tile pair false

/-- WATCHDOG_EXPIRY (R449). -/
def Dev.opWatchdogExpiry (d : Dev) (tile pair : Nat) : Dev := d.pairLost tile pair true

/-- ENGINE_ISOLATE (R19): the task moves to the lowest-numbered spare of the tile that is free. -/
def Dev.opEngineIsolate (d : Dev) (engine : Nat) : Dev :=
  let t := engine / 32
  let n := engine % 32
  let x := d.tile t
  if !d.tileRun t || x.engBad.contains n then d
  else
    let used := x.engMove.map (fun m => m.2)
    let free := [30, 31].filter (fun s => s ≠ n && !used.contains s && !x.engBad.contains s)
    let task := if n < 30 then some n else (x.engMove.filter (fun m => m.2 = n)).head?.map (fun m => m.1)
    let move := match task, free with | some k, s :: _ => some (k, s) | _, _ => none
    let d := d.updTile t (fun x => { x with
      engBad := insSorted x.engBad n,
      engMove := (x.engMove.filter (fun m => m.2 ≠ n)) ++ move.toList })
    d.raise 0x02 0x04 2 t engine (match move with | some (_, s) => 32 * t + s | none => 0xFFFFFFFF) false

/-- Grant engines of a tile that work: engines 0-11 that are not isolated, or whose task a spare holds (R19). -/
def Tile.grantEngines (x : Tile) : Nat := ((List.range 12).filter (fun n => !x.engBad.contains n || x.engMove.any (fun m => m.1 = n))).length

/-! ## Assay (chapter 19) -/

/-- ASSAY_SCAN_DONE (R456, R457): compare, report, faults, exit. -/
def Dev.opAssayScanDone (d : Dev) (tile : Nat) (patterns : Nat) (sig golden : BitVec 128) (reason : Nat) : Dev :=
  let a := d.asyTile tile
  if !a.running then d
  else
    let full := decide (patterns = patternsOf a.set)
    let d := if full then d.advanceTo (a.since + rawMs (scanMs a.set)) else d
    let ok := full && sig = golden
    let why := if full then 0 else if a.abort then 1 else reason
    let d := d.setAsyTile tile { a with
      running := false, done := true, complete := full, pass := ok, reason := why, patterns := if full then 0 else patterns, sig := sig, abort := false }
    let d := if ok then (d.endCond 0x10 0x01 tile tile).endCond 0x10 0x02 tile tile else d
    let d := if full then d.endCond 0x10 0x03 tile tile else d
    let d : Dev := if tile = 0 then { d with asy := { d.asy with forced := if ok then false else (d.asy.forced || full) } } else d
    let d := if tile = 0 then d.tileTo 0 .boot else d.assayExit tile (if !ok || d.flt.quench then .isolated else .reset)
    let d := if ok then d
      else if full then (if tile = 0 then d.raiseAssay 0x02 4 0 a.set else d.raiseAssay 0x01 3 tile a.set)
      else d.raiseAssay 0x03 2 tile why
    (d.bootRunDone tile true).assayComplete

/-- ASSAY_THERMAL_WAIT_EXPIRY (R459): the tile boots without assay. -/
def Dev.opAssayThermalWaitExpiry (d : Dev) (tile : Nat) : Dev :=
  let a := d.asyTile tile
  if !a.waits then d
  else
    let d := (d.advanceTo (a.since + rawS 10)).setAsyTile tile { a with waits := false }
    (d.raise 0x10 0x04 0 tile tile (lowBits 8 (d.tile tile).nowC) false).bootRunDone tile false

/-- Tile mask, action (R460). A run that waits for headroom has no pattern boundary to come: its abort interrupts it at once. -/
def bodyAssayStart (c : Cmd) (d : Dev) : Res :=
  let m := c.u8 0
  let ts := (List.range 8).filter (fun t => m.testBit t)
  if 1 < c.u8 1 then d.fail stBadParam (ofsP 1)
  else if ts.any (fun t => d.nTiles ≤ t) then d.fail stRange (ofsP 0)
  else if c.u8 1 = 1 then
    let d := ts.foldl (fun d t => if (d.asyTile t).running then d.setAsyTile t { d.asyTile t with abort := true } else d.assayInterrupt t 1) d
    { d.ok with after := Dev.assayComplete }
  else if ts.any (fun t => d.notRun t || 2 ≤ (d.tile t).level) then d.fail stState (ofsP 0)
  else if m.testBit 0 then
    { dev := { d with asy := { d.asy with oneShot := some m } }, after := fun d => d.warmReset 3 }
  else { (ts.foldl (fun d t => d.assayOrDefer t 1 d.asy.set) d).accepted stAccepted .assay m with after := Dev.assayComplete }

/-- CMD_ASSAY_START (R460). -/
def specAssayStart : CmdSpec := { op := 0x0E01, crit := true, pkg := true, lenOk := lenIs 4, body := bodyAssayStart }

/-- boot_mode in byte 0, set in byte 1 (log 15). -/
def bodyAssayConfig (c : Cmd) (d : Dev) : Res :=
  if 2 < c.u8 0 then d.fail stRange (ofsP 0)
  else if 2 < c.u8 1 then d.fail stRange (ofsP 1)
  else Dev.ok { d with asy := { d.asy with boot := c.u8 0, set := c.u8 1 } }

/-- CMD_ASSAY_CONFIG (R458). -/
def specAssayConfig : CmdSpec := { op := 0x0E02, crit := true, pkg := true, lenOk := lenIs 4, body := bodyAssayConfig }

/-- The reply holds the result word and the signature of each tile of the variant (log 15). -/
def bodyAssayResult (_ : Cmd) (d : Dev) : Res :=
  d.ok (d.tileList.flatMap (fun t => leBytes 4 (d.asyWord t) ++ leBytes 16 (d.asyTile t).sig.toNat))

/-- CMD_ASSAY_RESULT (R460). -/
def specAssayResult : CmdSpec := { op := 0x0E03, lenOk := lenIs 0, body := bodyAssayResult }

/-! ## Meanings -/

/-- CMD_ASSAY_START (R460). -/
def execCmdAssayStart (p : Packet) (s : State) : Host.Outcome State Fault Refusal := live (Dev.runCommand specAssayStart p) s

/-- CMD_ASSAY_CONFIG (R458). -/
def execCmdAssayConfig (p : Packet) (s : State) : Host.Outcome State Fault Refusal := live (Dev.runCommand specAssayConfig p) s

/-- CMD_ASSAY_RESULT (R460). -/
def execCmdAssayResult (p : Packet) (s : State) : Host.Outcome State Fault Refusal := live (Dev.runCommand specAssayResult p) s

/-- RST_BOOT_DESC_GO (R70). -/
def execRstBootDescGo (value : BitVec 32) (s : State) : Host.Outcome State Fault Refusal :=
  live (fun d => d.opRstBootDescGo value) s

/-- HOST_IMAGE_LOADED (R70). -/
def execHostImageLoaded (load : HostLoad) (s : State) : Host.Outcome State Fault Refusal :=
  live (fun d => d.opHostImageLoaded load.listOk load.images) s

/-- RESET_N_ASSERT (R66). -/
def execResetNAssert (s : State) : Host.Outcome State Fault Refusal :=
  live (fun d => d.opResetNAssert) s

/-- RESET_N_RELEASE (R63). -/
def execResetNRelease (bootSrc : BitVec 2) (refSel : Bool) (s : State) : Host.Outcome State Fault Refusal :=
  live (fun d => d.opResetNRelease bootSrc refSel) s

/-- WARM_RESET_START (R63). -/
def execWarmResetStart (s : State) : Host.Outcome State Fault Refusal :=
  live (fun d => d.opWarmResetStart) s

/-- IMAGE_STAGE_VERIFIED (R71). -/
def execImageStageVerified (image : BootImage) (s : State) : Host.Outcome State Fault Refusal :=
  live (fun d => d.opImageStageVerified image) s

/-- MEMINIT_DONE (R72). -/
def execMeminitDone (failed : List Nat) (s : State) : Host.Outcome State Fault Refusal :=
  live (fun d => d.opMeminitDone failed) s

/-- TILE_IMAGE_LOADED (R75). -/
def execTileImageLoaded (tile : Nat) (load : TileLoad) (s : State) : Host.Outcome State Fault Refusal :=
  live (fun d => d.opTileImageLoaded tile load.images load.out load.back) s

/-- COMMAND_READY (R72). -/
def execCommandReady (s : State) : Host.Outcome State Fault Refusal :=
  live (fun d => d.opCommandReady) s

/-- DIE_LINK_TRAINED (R76). -/
def execDieLinkTrained (a b : Nat) (s : State) : Host.Outcome State Fault Refusal :=
  live (fun d => d.opDieLinkTrained a b) s

/-- DIE_LINK_TRAIN_TIMEOUT (R76). -/
def execDieLinkTrainTimeout (a b : Nat) (s : State) : Host.Outcome State Fault Refusal :=
  live (fun d => d.opDieLinkTrainTimeout a b) s

/-- DIE_LINK_LOCK_LOSS (R15). -/
def execDieLinkLockLoss (a b : Nat) (s : State) : Host.Outcome State Fault Refusal :=
  live (fun d => d.opDieLinkLockLoss a b) s

/-- LOCKSTEP_DISAGREE (R17). -/
def execLockstepDisagree (tile pair : Nat) (s : State) : Host.Outcome State Fault Refusal :=
  live (fun d => d.opLockstepDisagree tile pair) s

/-- WATCHDOG_EXPIRY (R449). -/
def execWatchdogExpiry (tile pair : Nat) (s : State) : Host.Outcome State Fault Refusal :=
  live (fun d => d.opWatchdogExpiry tile pair) s

/-- ENGINE_ISOLATE (R19). -/
def execEngineIsolate (engine : Nat) (s : State) : Host.Outcome State Fault Refusal :=
  live (fun d => d.opEngineIsolate engine) s

/-- ASSAY_SCAN_DONE (R456). -/
def execAssayScanDone (tile : Nat) (patterns : Nat) (sig golden : BitVec 128) (reason : Nat) (s : State) : Host.Outcome State Fault Refusal :=
  live (fun d => d.opAssayScanDone tile patterns sig golden reason) s

/-- ASSAY_THERMAL_WAIT_EXPIRY (R459). -/
def execAssayThermalWaitExpiry (tile : Nat) (s : State) : Host.Outcome State Fault Refusal :=
  live (fun d => d.opAssayThermalWaitExpiry tile) s

end Sys2Proof.Machine
end

