-- ==== Sys2Proof/Machine/Time.lean ====
section
/-!
DEFINITION. Time: steps and rate, sources and servo, references, PPS, PTP ports and the alignment of tiles (chapter 05). The
filter of the servo and the rate it asks for are free values (log 16); what a PTP frame says is its operand (log 17).
-/

namespace Sys2Proof.Machine

/-! ## Steps and rate (R117, R118, R134, R135) -/

/-- Everything open at a step is marked suspect: performance bins (R135) and bandwidth windows (R472). -/
def Dev.markSuspect (d : Dev) : Dev :=
  { d with
    trees := d.trees.map (fun (k, x) => (k, { x with pm := x.pm.suspectNow })),
    terms := d.terms.map (fun (k, x) => (k, { x with pm := x.pm.suspectNow })),
    cnt := { d.cnt with wins := d.cnt.wins.map (fun (k, x) => (k, { x with suspect := true })) } }

/-- Steps network time by a number of units of 2^-16 ns: re-anchor, add the step, and keep the frame clock where any channel is enabled. -/
def Dev.timeStep (d : Dev) (u : Int) : Dev :=
  let e := d.frameErrorU
  let keep := d.anyEnabled
  let d := d.anchorAt (d.netU + u)
  let d := if keep then d.setFrameError (e - u) else d
  let d := d.markSuspect
  { d with time := { d.time with stepped := true, topSecond := max d.time.topSecond d.netSec } }

/-- Whether R118 honours a step with a nanosecond part. -/
def Dev.stepAllowed (d : Dev) (ns : Nat) : Bool :=
  d.hostServo || d.time.st = .freerun || (ns = 0 && d.time.source = 3)

/-- A step as the host gives it: refused it sets step_refused and changes nothing else. -/
def Dev.hostStep (d : Dev) (s : Int) (ns : Nat) : Dev :=
  if d.stepAllowed ns then
    let d := d.timeStep ((s * 1000000000 + ns) * 65536)
    { d with time := { d.time with todSet := true } }
  else { d with time := { d.time with stepRefused := true } }

/-- TIME_RATE_WRITE (R118). -/
def Dev.opTimeRateWrite (d : Dev) (value : BitVec 32) : Dev :=
  if !d.hostOk then d
  else if d.hostServo then d.setRate value.toInt
  else { d with time := { d.time with stepRefused := true } }

/-- TIME_STEP_GO (R118): a write of TIME_STEP_NS. -/
def Dev.opTimeStepGo (d : Dev) (value : BitVec 32) : Dev :=
  if !d.hostOk then d
  else
    let d := d.setReg 0x320 (value.toNat % 2 ^ 30)
    if value.getLsbD 31 then d.hostStep (signedOf 32 (d.reg 0x31C)) (min 999999999 (value.toNat % 2 ^ 30)) else d

/-! ## The servo (R125) -/

/-- 1 ppm in units of the rate. -/
def ppm : Int := 65536000

/-- Largest change of the rate at a measurement: 1 ppm for each second since the last change, one second at most (R125). -/
def Dev.rateBound (d : Dev) : Int := min ppm (ppm * (d.now - d.time.rateAt).toNat / secU)

/-- One measurement of a source, in units of 100 ps: the one step of ACQUIRING when the error exceeds 1 µs, otherwise a correction by rate.
The error is network time less the source's time. -/
def Dev.measure (d : Dev) (src : Nat) (e : Int) : Dev :=
  if d.time.source ≠ src || d.hostServo || !(d.time.st = .acquiring || d.time.st = .locked) then d
  else if d.time.st = .acquiring && !d.time.acqStepped && 10000 < e.natAbs then
    let d := d.timeStep (-(e * 65536 / 10))
    { d with time := { d.time with acqStepped := true, err := 0, goodSince := none } }
  else
    let f := Config.servoFilter d.time.err e
    let r := d.time.rate.toInt
    let b := d.rateBound
    let d := d.setRate (max (r - b) (min (r + b) (Config.servoRate f r)))
    { d with time := { d.time with
      err := f
      rateAt := d.now
      goodSince := if f.natAbs ≤ 500 then some (d.time.goodSince.getD d.now) else none } }

/-- SERVO_LOCKED (R125): the filtered error has stayed within ±50 ns for 16 s. -/
def Dev.opServoLocked (d : Dev) : Dev :=
  match d.time.goodSince with
  | some t =>
    if d.time.st = .acquiring && d.ready then
      let d := d.advanceTo (t + rawS 16)
      Dev.endCond { d with time := { d.time with st := .locked } } 0x05 0x04 0xFF 0xFFFFFFFF
    else d
  | none => d

/-- HOLDOVER_ALARM (R125). -/
def Dev.opHoldoverAlarm (d : Dev) : Dev :=
  match d.time.st, d.time.holdoverAt with
  | .holdover, some t =>
    if d.condHolds 0x05 0x04 0xFF 0xFFFFFFFF then d
    else (d.advanceTo (t + rawS d.holdoverAlarmS)).raise 0x05 0x04 2 0xFF 0xFFFFFFFF d.holdoverAlarmS true
  | _, _ => d

/-! ## References (R122, R123) -/

def Dev.refGood (d : Dev) (b : Bool) : Bool := if b then d.time.goodB else d.time.goodA
def Dev.setRef (d : Dev) (b g : Bool) : Dev :=
  if b then { d with time := { d.time with goodB := g } } else { d with time := { d.time with goodA := g } }

/-- In the automatic setting, a lost selection passes to the other reference when that one is good; the switch is an F1. -/
def Dev.refSwitch (d : Dev) : Dev :=
  let b := d.time.useB
  if d.refclkCfg = 0 && !d.refGood b && d.refGood (!b) then
    Dev.raise { d with time := { d.time with useB := !b } } 0x05 0x02 1 0xFF 0xFFFFFFFF (b2n (!b)) false
  else d

/-- REFCLK_LOSS (R123). -/
def Dev.opRefclkLoss (d : Dev) (b : Bool) : Dev :=
  if !d.refGood b then d
  else
    let d := (d.setRef b false).refSwitch
    if !d.time.goodA && !d.time.goodB then { d with time := { d.time with bothLostAt := some d.now } } else d

/-- REFCLK_RETURN (R123): the reference is good again and ends the holdover of the PLL. -/
def Dev.opRefclkReturn (d : Dev) (b : Bool) : Dev :=
  if d.refGood b then d
  else
    let d := d.setRef b true
    Dev.refSwitch { d with time := { d.time with bothLostAt := none } }

/-- REFCLK_DISAGREE (R122): the selection does not change. -/
def Dev.opRefclkDisagree (d : Dev) (ppm : Nat) : Dev :=
  if d.time.goodA && d.time.goodB && 100 < ppm then d.raise 0x05 0x01 0 0xFF 0xFFFFFFFF ppm false else d

/-- REFCLK_HOLDOVER_EXPIRY (R123): neither reference returned within 10 ms. -/
def Dev.opRefclkHoldoverExpiry (d : Dev) : Dev :=
  match d.time.bothLostAt with
  | some t =>
    let d := d.advanceTo (t + rawMs 10)
    Dev.raise { d with time := { d.time with bothLostAt := none } } 0x05 0x03 4 0xFF 0xFFFFFFFF 0 false
  | none => d

/-! ## PPS (R130) -/

/-- A network time in units of 100 ps. -/
def stamp100 (u : Int) : Int := u * 10 / 65536

/-- Distance of an instant from the nearest second, both in units of 100 ps. -/
def offSecond (x : Int) : Int :=
  let r := x % 10000000000
  if r < 5000000000 then r else r - 10000000000

/-- PPS_IN_EDGE (R130): a rising edge, stamped with 100 ps resolution. A pulse shorter than 20 ns is ignored, and so is an edge within 0.5 s of
the last accepted one. The row does not say how long the pulse lasts: its width in ns is a free value (log 8). -/
def Dev.opPpsInEdge (d : Dev) : Dev :=
  let (i, d) := d.fresh
  let near := match d.time.ppsLast with | some t => (d.now - t).toNat < (rawMs 500).toNat | none => false
  if !d.ready || near || Config.freeNat i < 20 then d
  else
    let e := offSecond (stamp100 d.netU - 10 * d.ppsInDelay)
    if d.time.st = .locked && d.time.source = 3 && 10000 < e.natAbs then
      { d with time := { d.time with ppsRejected := min 0xFF (d.time.ppsRejected + 1) } }
    else (Dev.retime { d with time := { d.time with ppsLast := some d.now, ppsOk := true } }).measure 3 e

/-- PPS_SOURCE_LOSS (R124): three seconds without an accepted edge. -/
def Dev.opPpsSourceLoss (d : Dev) : Dev :=
  match d.time.ppsOk, d.time.ppsLast with
  | true, some t =>
    let d := d.advanceTo (t + rawS 3)
    Dev.retime { d with time := { d.time with ppsOk := false } }
  | _, _ => d

/-! ## PTP (R126, R127) -/

/-- PTP port of a sub-port that is configured, on a tile in RUN. -/
def Dev.ptpOf (d : Dev) (sub : Nat) : Option PtpPort :=
  match mget d.time.ptp sub with
  | some p => if p.enabled && d.tileRun (tileOfSub sub) && (d.sub sub).enabled then some p else none
  | none => none

def Dev.setPtp (d : Dev) (sub : Nat) (p : PtpPort) : Dev := { d with time := { d.time with ptp := mput d.time.ptp sub p } }

/-- The port in slave state is the source PTP (Table 5-1). -/
def Dev.ptpSlave (d : Dev) (sub : Nat) (on : Bool) : Dev :=
  if on then Dev.retime { d with time := { d.time with ptpPort := sub, ptpOk := true } }
  else if d.time.ptpPort = sub then Dev.retime { d with time := { d.time with ptpPort := 255, ptpOk := false } }
  else d

/-- Whether a port may be master: T-BC and T-GM (R126). -/
def PtpPort.master (p : PtpPort) : Bool := !p.slave && p.clockType ≠ 0

/-- Corrected timestamps of a PTP frame, with 100 ps resolution in the time of the uplink's tile (R127): the plane of the MII lies the PHY's
latency before the receipt, and after the sending. -/
def Dev.ptpRx (d : Dev) (sub : Nat) : BitVec 64 :=
  BitVec.ofInt 64 (stamp100 (d.tileNetU (tileOfSub sub)) - 10 * (mgetD d.time.phyLat sub {}).rxNs)
def Dev.ptpTx (d : Dev) (sub : Nat) : BitVec 64 :=
  BitVec.ofInt 64 (stamp100 (d.tileNetU (tileOfSub sub)) + 10 * (mgetD d.time.phyLat sub {}).txNs)

/-- PTP_FRAME_RX (R124, R127). A slave port measures at a one-step Sync or at the Follow_Up of a two-step one; a master port answers
Delay_Req with the instant of its receipt. -/
def Dev.opPtpFrameRx (d : Dev) (sub : Nat) (f : PtpFrame) : Dev :=
  match d.ptpOf sub with
  | none => d
  | some p =>
    if f.domain ≠ p.domain then d
    else
      let p := { p with rxStamp := d.ptpRx sub }
      match f.kind with
      | .announce =>
        let p := { p with lastAnnounce := d.now, slave := f.best && p.clockType ≠ 2, lastSync := if p.slave then p.lastSync else d.now }
        (d.setPtp sub p).ptpSlave sub p.slave
      | .sync =>
        let d := d.setPtp sub { p with lastSync := d.now }
        if p.slave && !f.twoStep then d.measure 1 f.err else d
      | .followUp =>
        let d := d.setPtp sub p
        if p.slave then d.measure 1 f.err else d
      | .delayReq =>
        if p.master then (d.setPtp sub { p with seqTx := (p.seqTx + 1) % 65536 }).emit (.ptp sub .delayResp p.seqTx p.rxStamp)
        else d.setPtp sub p
      | .delayResp => d.setPtp sub p

/-- Whether a port sends a message kind: a slave port Delay_Req, a master port the others (R126). -/
def PtpPort.sends (p : PtpPort) (k : PtpKind) : Bool :=
  match k with
  | .delayReq => p.slave
  | .announce | .sync => p.master
  | .followUp => p.master && p.twoStep
  | .delayResp => false

/-- Whether the instant of sending is taken for a message kind. -/
def ptpEvent (k : PtpKind) : Bool := k = .sync || k = .delayReq

/-- PTP_MESSAGE_TX (R126, R127): an event message is stamped as it leaves; a one-step Sync carries that stamp, a Follow_Up the stamp of the Sync
before it. -/
def Dev.opPtpMessageTx (d : Dev) (sub : Nat) (kind : PtpKind) : Dev :=
  match d.ptpOf sub with
  | some p =>
    if p.sends kind then
      let tx := if ptpEvent kind then d.ptpTx sub else p.txStamp
      let carried := if kind = .followUp || (kind = .sync && !p.twoStep) then tx else 0
      (d.setPtp sub { p with seqTx := (p.seqTx + 1) % 65536, txStamp := tx }).emit (.ptp sub kind p.seqTx carried)
    else d
  | none => d

/-- The earlier of two raw instants. -/
def earlier (a b : Raw) : Raw := if reached b a then a else b

/-- PTP_SOURCE_TIMEOUT (R124): three Announce intervals, or Sync absent for 1 s. -/
def Dev.opPtpSourceTimeout (d : Dev) (sub : Nat) : Dev :=
  match mget d.time.ptp sub with
  | some p =>
    if p.slave then
      let d := d.advanceTo (earlier (p.lastAnnounce + rawMs 375) (p.lastSync + rawS 1))
      (d.setPtp sub { p with slave := false }).ptpSlave sub false
    else d
  | none => d

/-! ## Tiles (R131, R132) -/

/-- Largest move of a tile's correction in the 10 ms between two measurements: 0.1 ppm of them is 1 ns (R131). -/
abbrev corrStep : Int := 65536

/-- TILE_TIME_CHECK (R131, R132): the measured error in 2^-4 ns; the tile's correction moves by rate, at most 0.1 ppm (log 16). A measurement
in the cycle of a re-anchor is discarded. -/
def Dev.opTileTimeCheck (d : Dev) (tile : Nat) (err16 : Int) : Dev :=
  if tile = 0 || !d.tileRun tile || d.thisCycle d.time.rawA then d
  else
    let x := d.tile tile
    let c := x.corr + max (-corrStep) (min corrStep (Config.servoRate err16 x.corr))
    let at_ := if err16.natAbs ≤ 800 then none else some (x.timeErrAt.getD d.now)
    let d := d.updTile tile (fun x => { x with timeErr := err16, corr := c, timeErrAt := at_ })
    if err16.natAbs ≤ 64 then d.endCond 0x05 0x05 tile tile
    else if d.condHolds 0x05 0x05 tile tile then d
    else d.raise 0x05 0x05 2 tile tile (lowBits 32 err16) true

/-- TILE_TIME_ISOLATE (R132): the error has exceeded ±50 ns for 1 s. -/
def Dev.opTileTimeIsolate (d : Dev) (tile : Nat) : Dev :=
  if tile = 0 || !d.tileRun tile then d
  else match (d.tile tile).timeErrAt with
    | some t =>
      let e := (d.tile tile).timeErr
      ((d.advanceTo (t + rawS 1)).takeOut tile).raise 0x05 0x06 3 tile tile (lowBits 32 e) false true
    | none => d

/-! ## Commands of the time class (Table 15-10) -/

/-- Clock type, domain, then the flags enable and two-step (log 15). T-GM needs PPS_IN edges and the time of day from the host
(Table 5-3); without them the command fails with ST_STATE (log 17). -/
def bodyTimePtpPort (c : Cmd) (d : Dev) : Res :=
  d.onSub c.tgt ofsTgt fun _ =>
  if 2 < c.u8 0 then d.fail stBadParam (ofsP 0)
  else if c.u8 1 < 24 || 43 < c.u8 1 then d.fail stRange (ofsP 1)
  else if c.u8 0 = 2 && !(d.time.ppsOk && d.time.todSet) then d.fail stState
  else
    let p : PtpPort := { enabled := c.bit 2 0, domain := c.u8 1, clockType := c.u8 0, twoStep := c.bit 2 1 }
    Dev.ok ((d.setPtp c.tgt p).ptpSlave c.tgt false)

/-- CMD_TIME_PTP_PORT (R126). -/
def specTimePtpPort : CmdSpec := { op := 0x0A01, lenOk := lenIs 4, body := bodyTimePtpPort }

/-- Receive and transmit latency in ns (log 15). -/
def bodyTimePhyLatency (c : Cmd) (d : Dev) : Res :=
  d.onSub c.tgt ofsTgt fun _ =>
  Dev.ok { d with time := { d.time with phyLat := mput d.time.phyLat c.tgt { rxNs := c.u32 0, txNs := c.u32 4 } } }

/-- CMD_TIME_PHY_LATENCY (R127). -/
def specTimePhyLatency : CmdSpec := { op := 0x0A02, lenOk := lenIs 8, body := bodyTimePhyLatency }

/-- Superframe counter of a channel kind (R137). -/
def superframe (kind : Nat) (frame : Nat) : Nat := if kind = 0 then frame % 2 ^ 30 else frame % 2 ^ 51

/-- Network time in ns at which a frame begins, with the frame error as it now stands. -/
def Dev.frameNetNs (d : Dev) (f : Int) : Int := (f * frameU - d.time.frK * frameU - d.phiU) / 65536

/-- Frames by which superframe `n` lies ahead of the present one. -/
def Dev.superAhead (d : Dev) (kind n : Nat) : Nat :=
  let w := if kind = 0 then 2 ^ 30 else 2 ^ 51
  (n + w - superframe kind d.frame) % w

/-- The pair (N, T_N) of a superframe N within the next 2 s, of the next one where the command names none (log 15). -/
def bodyTimeTod (c : Cmd) (d : Dev) : Res :=
  let ahead := if c.params.length = 0 then 1 else d.superAhead (c.tgt % 4) (c.u64 0)
  d.onChan c.tgt ofsTgt fun _ =>
  if (d.chan c.tgt).st = .disabled then d.fail stState
  else if ahead < 1 || 16000 < ahead then d.fail stRange (ofsP 0)
  else
    let f := d.frameI + ahead
    let t := d.frameNetNs f + Config.todRefNs (c.tgt % 4)
    d.ok (leBytes 8 (superframe (c.tgt % 4) (lowBits 48 f)) ++ leBytes 8 (lowBits 48 (t / 1000000000)) ++ leBytes 4 (t % 1000000000).toNat)

/-- CMD_TIME_TOD (R137). -/
def specTimeTod : CmdSpec := { op := 0x0A03, lenOk := fun _ ps => ps.length = 0 || ps.length = 8, body := bodyTimeTod }

def bodyTimeStep (c : Cmd) (d : Dev) : Res :=
  if 999999999 < c.u32 4 then d.fail stRange (ofsP 4)
  else { dev := d.hostStep (c.i32 0) (c.u32 4), st := if d.stepAllowed (c.u32 4) then stOk else stState }

/-- CMD_TIME_STEP (R118, Table 15-26). -/
def specTimeStep : CmdSpec := { op := 0x0A04, lenOk := lenIs 8, body := bodyTimeStep }

/-- Code of a time state (Table 5-2). -/
def TimeSt.code : TimeSt → Nat
  | .freerun => 0 | .acquiring => 1 | .locked => 2 | .holdover => 3

/-- State, source, filtered error in ns (log 15). -/
def bodyTimeStatus (_ : Cmd) (d : Dev) : Res :=
  d.ok (leBytes 1 d.time.st.code ++ leBytes 1 d.time.source ++ zeroBytes 2 ++ leBytes 4 (lowBits 32 (d.time.err / 10)))

/-- CMD_TIME_STATUS (Table 15-10). -/
def specTimeStatus : CmdSpec := { op := 0x0A05, lenOk := lenIs 0, body := bodyTimeStatus }

/-! ## Meanings -/

/-- CMD_TIME_PTP_PORT (R126). -/
def execCmdTimePtpPort (p : Packet) (s : State) : Host.Outcome State Fault Refusal := live (Dev.runCommand specTimePtpPort p) s

/-- CMD_TIME_PHY_LATENCY (R127). -/
def execCmdTimePhyLatency (p : Packet) (s : State) : Host.Outcome State Fault Refusal := live (Dev.runCommand specTimePhyLatency p) s

/-- CMD_TIME_TOD (R137). -/
def execCmdTimeTod (p : Packet) (s : State) : Host.Outcome State Fault Refusal := live (Dev.runCommand specTimeTod p) s

/-- CMD_TIME_STEP (R118). -/
def execCmdTimeStep (p : Packet) (s : State) : Host.Outcome State Fault Refusal := live (Dev.runCommand specTimeStep p) s

/-- CMD_TIME_STATUS (R126). -/
def execCmdTimeStatus (p : Packet) (s : State) : Host.Outcome State Fault Refusal := live (Dev.runCommand specTimeStatus p) s

/-- TIME_RATE_WRITE (R118). -/
def execTimeRateWrite (value : BitVec 32) (s : State) : Host.Outcome State Fault Refusal :=
  live (fun d => d.opTimeRateWrite value) s

/-- TIME_STEP_GO (R118). -/
def execTimeStepGo (value : BitVec 32) (s : State) : Host.Outcome State Fault Refusal :=
  live (fun d => d.opTimeStepGo value) s

/-- REFCLK_LOSS (R123). -/
def execRefclkLoss (refB : Bool) (s : State) : Host.Outcome State Fault Refusal :=
  live (fun d => d.opRefclkLoss refB) s

/-- REFCLK_DISAGREE (R122). -/
def execRefclkDisagree (ppm : Nat) (s : State) : Host.Outcome State Fault Refusal :=
  live (fun d => d.opRefclkDisagree ppm) s

/-- REFCLK_HOLDOVER_EXPIRY (R123). -/
def execRefclkHoldoverExpiry (s : State) : Host.Outcome State Fault Refusal :=
  live (fun d => d.opRefclkHoldoverExpiry) s

/-- PPS_IN_EDGE (R130). -/
def execPpsInEdge (s : State) : Host.Outcome State Fault Refusal := live Dev.opPpsInEdge s

/-- PPS_SOURCE_LOSS (R124). -/
def execPpsSourceLoss (s : State) : Host.Outcome State Fault Refusal :=
  live (fun d => d.opPpsSourceLoss) s

/-- PTP_FRAME_RX (R127). -/
def execPtpFrameRx (sub : Nat) (f : PtpFrame) (s : State) : Host.Outcome State Fault Refusal :=
  live (fun d => d.opPtpFrameRx sub f) s

/-- PTP_MESSAGE_TX (R126). -/
def execPtpMessageTx (sub : Nat) (kind : PtpKind) (s : State) : Host.Outcome State Fault Refusal :=
  live (fun d => d.opPtpMessageTx sub kind) s

/-- PTP_SOURCE_TIMEOUT (R124). -/
def execPtpSourceTimeout (sub : Nat) (s : State) : Host.Outcome State Fault Refusal :=
  live (fun d => d.opPtpSourceTimeout sub) s

/-- SERVO_LOCKED (R125). -/
def execServoLocked (s : State) : Host.Outcome State Fault Refusal :=
  live (fun d => d.opServoLocked) s

/-- HOLDOVER_ALARM (R125). -/
def execHoldoverAlarm (s : State) : Host.Outcome State Fault Refusal :=
  live (fun d => d.opHoldoverAlarm) s

/-- TILE_TIME_CHECK (R131). -/
def execTileTimeCheck (tile : Nat) (err16 : Int) (s : State) : Host.Outcome State Fault Refusal :=
  live (fun d => d.opTileTimeCheck tile err16) s

/-- TILE_TIME_ISOLATE (R132). -/
def execTileTimeIsolate (tile : Nat) (s : State) : Host.Outcome State Fault Refusal :=
  live (fun d => d.opTileTimeIsolate tile) s

/-- REFCLK_RETURN (R123). -/
def execRefclkReturn (refB : Bool) (s : State) : Host.Outcome State Fault Refusal :=
  live (fun d => d.opRefclkReturn refB) s

end Sys2Proof.Machine
end

