-- ==== Sys2Proof/Machine/Traffic.lean ====
section
/-!
DEFINITION. Buffer pools, queues, shapers, meters' buckets, launch times and gates, and the commands of class 0x07 that need no
classifier (chapter 11). Nodes of the hierarchy have no handle in the spec: log 23 says how commands name them.
-/

namespace Sys2Proof.Machine

/-- The frame at which a traffic change takes effect: the last boundary no later than two frames after acceptance (R309). -/
def Dev.qFrame (d : Dev) : Nat := lowBits 48 (d.frameI + 2)

/-! ## The buffer pool (R285 to R291) -/

abbrev poolCells : Nat := 262144

def Pool.free (p : Pool) : Nat := p.freed.length + (poolCells - p.fresh)

/-- Cells of a frame of a length. -/
def cellsOf (len : Nat) : Nat := max 1 (ceilDiv len 256)

/-- Takes `n` cells from the head of the free list: the cells pushed back first, then those never taken, ascending. -/
def Pool.take (p : Pool) (n : Nat) : List Nat × Pool :=
  let a := p.freed.take n
  let m := n - a.length
  (a ++ (List.range m).map (· + p.fresh), { p with freed := p.freed.drop n, fresh := p.fresh + m })

/-- Serves a request whole, recording its owners, or fails (R287, R290). Answers the head pointer. -/
def Pool.request (p : Pool) (n count last : Nat) : Option (Nat × Pool) :=
  if p.free < n || n = 0 then none
  else
    let (cs, p) := p.take n
    let ptr := 256 * nth cs 0
    let p : Pool := { p with frames := mput p.frames ptr { cells := cs, count := count, last := last }, minFree := min p.minFree p.free }
    some (ptr, p)

/-- Whether a cell is out of the free list. -/
def Pool.inUse (p : Pool) (cell : Nat) : Bool := cell < p.fresh && !p.freed.contains cell

/-- Why a release is refused (BPM_BAD_INFO reason), 0 when it is not. The queue manager's discards (party 6) stand for the
transmitter the frame was queued for (log 24). -/
def Pool.badRelease (p : Pool) (ptr party : Nat) : Nat :=
  if 0x04000000 ≤ ptr then 1
  else if ptr % 256 ≠ 0 then 2
  else if !p.inUse (ptr / 256) then 3
  else match mget p.frames ptr with
    | none => 4
    | some f => if f.count ≤ 1 && f.lastHeld && party ≠ f.last && party ≠ 6 then 5 else 0

/-- A release that is not refused: the count falls, and at zero every cell returns to the free list (R290). -/
def Pool.release (p : Pool) (ptr party : Nat) : Pool :=
  match mget p.frames ptr with
  | none => p
  | some f =>
    if f.count ≤ 1 then { p with frames := mdel p.frames ptr, freed := f.cells.reverse ++ p.freed }
    else { p with frames := mput p.frames ptr { f with count := f.count - 1, lastHeld := f.lastHeld && party ≠ f.last } }

/-- Releases a frame by its head pointer; a refused release changes nothing in the pool and is an F2 of the tile (R291). -/
def Dev.release (d : Dev) (t ptr party : Nat) : Dev :=
  let p := d.pool t
  let bad := p.badRelease ptr party
  if bad = 0 then d.setPool t (p.release ptr party)
  else
    let d := if p.badValid then d
             else d.setPool t { p with badValid := true, badPtr := BitVec.ofNat 32 ptr, badParty := party, badReason := bad }
    (d.count (if bad = 5 then .overRelease else .badPtr) t).raise 0x09 0x01 2 t t ptr false

/-- Removes the first entry of an exception queue with a head pointer. -/
def dropExc (ptr : Nat) : List (Nat × Nat × List Byte) → List (Nat × Nat × List Byte)
  | [] => []
  | e :: es => if e.2.1 = ptr then es else e :: dropExc ptr es

/-- FRAME_RELEASE (R290, R291). What the exception engines release leaves their queues. -/
def Dev.opFrameRelease (d : Dev) (tile : Nat) (ptr : BitVec 32) (party : Nat) : Dev :=
  if !d.tileRun tile then d
  else
    let d := if party = 3 && (d.pool tile).badRelease ptr.toNat party = 0 then d.updCls tile (fun c => { c with excQ := dropExc ptr.toNat c.excQ }) else d
    d.release tile ptr.toNat party

/-! ## Queues and their nodes (R292, R293) -/

/-- Creates the nodes above a queue that do not exist, and drops the nodes above no queue. -/
def Dev.syncNodes (d : Dev) : Dev :=
  let ks := (d.queues.flatMap (fun e => d.queuePath e.2))
  let kept := d.nodes.filter (fun e => ks.contains e.1)
  let d : Dev := { d with nodes := ks.foldl (fun m k => if mhas m k then m else mput m k {}) kept }
  { d with shapers := d.shapers.filter (fun e => mhas d.queues e.1 || mhas d.nodes e.1) }

/-- Whether a queue exists and is past its effect frame. -/
def Dev.queueLive (d : Dev) (q : Queue) : Bool := frameGe d.frame q.startAt

/-- Occupancy of a queue in cells. -/
def Queue.occ (q : Queue) : Nat := (q.frames.map (fun f => cellsOf f.len)).foldl (· + ·) 0

/-- Admission limit of a colour (R294). -/
def Queue.limit (q : Queue) (c : Color) : Nat :=
  match c with
  | .green => q.maxCells
  | .yellow => q.maxCells * q.yellow / 100
  | .red => q.maxCells * q.red / 100

def colorOf (n : Nat) : Color := if n = 0 then .green else if n = 1 then .yellow else .red

def dropCnt : Color → Cnt
  | .green => .dropTailGreen | .yellow => .dropTailYellow | .red => .dropTailRed

/-- Tile that a handle which names no queue counts at (log 24). -/
def Dev.noQueueTile (d : Dev) (q : Nat) : Nat := (if upBase ≤ q then (q - upBase) / 4096 else q / 16384) % d.nTiles

/-! ## Shapers and buckets (R296 to R300) -/

/-- Tokens of a rate up to a number of 128 ns ticks, in 2^-16 units: kb/s as bytes, or packets (R296, R299). -/
def tokensTo (pkt : Bool) (rate ticks : Nat) : Nat :=
  if pkt then rate * 8388608 * ticks / 1000000000 else rate * 1048576 * ticks / 1000000

/-- Ticks of 128 ns that a raw instant has passed. -/
def ticksOf (t : Raw) : Nat := t.toNat / 2 ^ 23

/-- Tokens that a bucket gains between two raw instants, the carried fraction exact. -/
def gain (pkt : Bool) (rate : Nat) (t0 t1 : Raw) : Int :=
  let n := ticksOf t1 + (if t1.toNat < t0.toNat then 2 ^ 41 else 0)
  (tokensTo pkt rate n : Int) - tokensTo pkt rate (ticksOf t0)

/-- Refills both buckets of a shaper up to an instant. -/
def Shaper.refill (s : Shaper) (now : Raw) : Shaper :=
  { s with
    cLvl := min (lvl s.cbs) (s.cLvl + gain s.pkt (s.cir + s.fmC) s.atT now),
    pLvl := min (lvl s.pbs) (s.pLvl + gain s.pkt (s.pir + s.fmP) s.atT now), atT := now }

/-- Committed-eligible, peak-eligible (R295, R296). -/
def Shaper.cOk (s : Shaper) : Bool := 0 < s.cir + s.fmC && 0 < s.cLvl && 0 < s.pir + s.fmP
def Shaper.pOk (s : Shaper) : Bool := 0 < s.pir + s.fmP && 0 < s.pLvl

/-- Length of a frame for a shaper in its 2^-16 units (R298, R299). -/
def bucketLen (pkt : Bool) (overhead : Int) (len : Nat) : Int := if pkt then 65536 else max 1 ((len : Int) + overhead) * 65536

/-- Deducts a frame from both buckets (R297). -/
def Shaper.deduct (s : Shaper) (len : Nat) : Shaper :=
  let n := bucketLen s.pkt s.overhead len
  { s with cLvl := s.cLvl - n, pLvl := s.pLvl - n }

/-- Applies a changed setting with its reset policy (R300); a setting that changes no rate, size, overhead or mode leaves the levels. -/
def Shaper.policy (s old : Shaper) : Shaper :=
  if s.pkt = old.pkt && s.cir + s.fmC = old.cir + old.fmC && s.pir + s.fmP = old.pir + old.fmP && s.cbs = old.cbs && s.pbs = old.pbs
      && s.overhead = old.overhead then { s with cLvl := old.cLvl, pLvl := old.pLvl }
  else if s.full then { s with cLvl := lvl s.cbs, pLvl := lvl s.pbs } else { s with cLvl := min old.cLvl 0, pLvl := min old.pLvl 0 }

/-- Shaper of a key, refilled to now. -/
def Dev.shaperNow (d : Dev) (k : Nat) : Option Shaper := (mget d.shapers k).map (fun s => s.refill d.now)

/-- Deducts a frame along its path. -/
def Dev.deduct (d : Dev) (ks : List Nat) (len : Nat) : Dev :=
  { d with shapers := d.shapers.map (fun (k, s) => (k, if ks.contains k then (s.refill d.now).deduct len else s)) }

/-- Refills every bucket of the package up to now: shapers and meters share the 128 ns tick. -/
def Dev.refillAll (d : Dev) : Dev := { d with shapers := d.shapers.map (fun (k, s) => (k, s.refill d.now)) }

/-- SHAPER_REFILL (R296): the next 128 ns tick of raw time; buckets read between ticks are brought up to date when they are
used, so that the ticks between two commands are not lost. -/
def Dev.opShaperRefill (d : Dev) : Dev := (d.advanceTo (BitVec.ofNat 64 ((ticksOf d.now + 1) * 2 ^ 23))).refillAll

/-- A change of the follow-me share of a node's shaper, with the reset policy (R242, R300). -/
def Dev.fmShape (d : Dev) (k c p : Nat) : Dev :=
  { d with shapers := d.shapers.map (fun (j, s) =>
      (j, if j = k && !s.pkt && (s.fmC ≠ c || s.fmP ≠ p) then
            let old := s.refill d.now
            { old with fmC := c, fmP := p }.policy old
          else s)) }

/-! ## Gates (R307, R308) -/

/-- Rate of a sub-port in Gb/s by its mode (Table 4-9). -/
def modeGbps (m : Nat) : Nat :=
  if m = 0 || m = 3 then 400 else if m = 1 || m = 4 then 200 else if m = 2 || m = 5 || m = 7 then 100 else if m = 6 then 50 else 25

/-- Sub-ports that a mode gives an uplink (Table 4-9). -/
def modeSubs (m : Nat) : Nat := if m = 2 || m = 6 || m = 8 then 4 else if m = 1 || m = 5 then 2 else 1

/-- Line time of a frame in ns times the rate in Gb/s, and in raw units. -/
def lineU (bytes gbps : Nat) : Nat := bytes * 8 * 65536 / gbps

/-- Index of the entry in force and raw units left of it, in a cycle position. -/
def gatePos : List (Nat × Nat) → Nat → Nat → Nat × Nat
  | [], i, _ => (i, 0)
  | (dur, _) :: es, i, pos => if pos < dur * 65536 then (i, dur * 65536 - pos) else gatePos es (i + 1) (pos - dur * 65536)

/-- ns of the entries from the front that keep a class open, up to the first that closes it. -/
def openRun (cls : Nat) : List (Nat × Nat) → Nat
  | [] => 0
  | (dur, m) :: es => if m.testBit cls then dur + openRun cls es else 0

/-- Cycle of a schedule in raw units. The base time became a raw target when the schedule was accepted, and the cycle and the durations are
raw time, so no step of network time moves a boundary (R119, R121, R136). -/
def Gate.cycleU (g : Gate) : Nat := g.cycle * 65536

/-- Position in the cycle, in raw units. -/
def Gate.pos (g : Gate) (now : Raw) : Nat := (now - g.anchor).toNat % g.cycleU

/-- Moves the anchor to the start of the cycle in force, so that raw time never runs half its range past it. -/
def Gate.roll (g : Gate) (now : Raw) : Gate :=
  if reached now g.anchor then { g with anchor := now - BitVec.ofNat 64 (g.pos now) } else g

/-- The next boundary of a schedule: its base, or the end of the entry in force. -/
def Gate.nextAt (g : Gate) (now : Raw) : Raw :=
  if reached now g.anchor then now + BitVec.ofNat 64 (gatePos g.entries 0 (g.pos now)).2 else g.anchor

/-- First cycle boundary of a schedule at or after a raw instant. -/
def Gate.boundary (g : Gate) (t : Raw) : Raw :=
  if reached t g.anchor && g.pos t ≠ 0 then t + BitVec.ofNat 64 (g.cycleU - g.pos t) else if reached t g.anchor then t else g.anchor

/-- Raw units for which the gate of a class stays open from now: none without a schedule in force or without an end, 0 when closed. -/
def Dev.gateLeft (d : Dev) (sub cls : Nat) : Option Nat :=
  match mget d.gates sub with
  | none => none
  | some g =>
    if !reached d.now g.anchor then none
    else
      let (i, left) := gatePos g.entries 0 (g.pos d.now)
      match g.entries.drop i ++ g.entries.take i with
      | [] => none
      | (_, m) :: rest =>
        if !m.testBit cls then some 0
        else if g.entries.all (fun e => e.2.testBit cls) then none
        else some (left + openRun cls rest * 65536)

/-- Longest window that a schedule gives a class: none when it never closes. -/
def Gate.longest (g : Gate) (cls : Nat) : Option Nat :=
  if g.entries.all (fun e => e.2.testBit cls) then none
  else some (((List.range g.entries.length).map (fun i => openRun cls (g.entries.drop i ++ g.entries.take i))).foldl max 0)

/-! ## Admission (R294, R303, R304) -/

/-- Launch target of a frame that enters a queue: mode 1 adds the offset to the network time, mode 2 carries its own. -/
def Dev.launchOf (d : Dev) (q : Queue) (given : Option Int) : Option Raw :=
  if q.launch = 1 then some (d.rawOfNs (d.netNs + q.launchOfs)) else if q.launch = 2 then given.map d.rawOfNs else none

/-- Lateness in ns of a raw launch target now (R304). -/
def Dev.lateness (d : Dev) (t : Raw) : Int := (d.netU - d.netUAt t) / 65536

/-- Whether a frame can never fit a window that its queue's gate schedule gives (R308). -/
def Dev.gateNever (d : Dev) (q : Queue) (len : Nat) : Bool :=
  q.gated && q.group = 0 && q.cls < 8 && (match mget d.gates q.subport with
    | some g => (match g.longest q.cls with
      | some w => decide (w * 65536 < lineU (len + 20) (modeGbps (d.sub q.subport).mode))
      | none => false)
    | none => false)

/-- A wake request (R193): whether the terminal is unavailable. -/
def Dev.wake (d : Dev) (tid : Nat) : Bool × Dev :=
  match mget d.terms tid with
  | none => (true, d)
  | some t =>
    match t.st with
    | .lowPower => (false, if t.wakeFrame.isNone then d.updTerm tid (fun t => { t with wakeReq := true }) else d)
    | .inService => (false, d.updTerm tid (fun t => { t with wokeAt := some d.frame }))
    | .ranging => (false, d)
    | .reacquire => (false, d)
    | _ => (true, d.count .wakeRefused t.ch)

/-- Takes the cells of a frame for a holder on a tile (R287, R289, R290): the head pointer, or none, counted for the tile. -/
def Dev.takeCells (d : Dev) (t n count last : Nat) (priv : Bool) : Option Nat × Dev :=
  let p := d.pool t
  if !priv && p.free < n + d.reserveCells t then (none, (d.count .reserveRefused t).count .poolEmptyTile t)
  else match p.request n count last with
    | none => (none, d.count .poolEmptyTile t)
    | some (ptr, p) => (some ptr, d.setPool t p)

/-- One more holder of a stored frame: a frame that a tile mirrors or copies to its own engines is stored once (R290). -/
def Dev.shareCells (d : Dev) (t ptr : Nat) : Dev :=
  let p := d.pool t
  d.setPool t { p with frames := mmod p.frames ptr (fun f => { f with count := f.count + 1 }) }

/-- Enqueues a frame: a tile that is not in RUN takes none, and the sending tile counts it (R30); else the drops of R285, R304, R308, R294, R289 and R287 in this order; answers whether it was admitted.
`grow` is the MACsec expansion of the queue's secure channel, `held` the head pointer of a frame of the tile that this queue is to hold too. -/
def Dev.enqueue (d : Dev) (r : EnqueueReq) (given : Option Int) (grow : Nat) (held : Option Nat := none) : Bool × Dev :=
  match mget d.queues r.queue with
  | none => (false, d.count .noQueue (d.noQueueTile r.queue))
  | some q =>
    let t := d.tileOfQueue r.queue
    let len := r.frame.length
    let n := cellsOf len
    let c := colorOf r.color
    let launch := d.launchOf q given
    let late := q.launch = 2 && launch.any (fun l => decide ((q.lateTol : Int) < d.lateness l))
    let never := d.gateNever q (len + grow)
    let d := if !q.down && !d.macOn q.subport then d.crossHold t 2 (q.subport % 8) else d
    let d := if q.down && d.tileRun t && d.queueLive q then (d.wake q.tid).2 else d
    if !d.tileRun t then (false, d.count .noQueue (r.src % d.nTiles))
    else if !d.queueLive q then (false, d.count .noQueue t)
    else if 16384 < len then (false, d.count .tooLong t)
    else if late then (false, d.count .lateDrop r.queue)
    else if never then (false, d.count .gateOversize r.queue)
    else if q.limit c < q.occ + n then (false, d.count (dropCnt c) r.queue)
    else
      let got : Option Nat × Dev := match held with
        | some ptr => (some ptr, d.shareCells t ptr)
        | none => d.takeCells t n r.count r.last q.priv
      match got with
      | (none, d) => (false, d.count .poolEmpty r.queue)
      | (some ptr, d) =>
        let f : QFrame := { ptr := ptr, bytes := r.frame, len := len, color := c, launch := launch }
        let d : Dev := { d with queues := mput d.queues r.queue { q with frames := q.frames ++ [f] } }
        let d := if q.down then d.updTerm q.tid (fun x => { x with lastDsFrame := d.frame }) else d
        (true, (d.count .enqFrames r.queue).count .enqBytes r.queue len)

/-- Discards every frame of a queue and counts them. -/
def Dev.discardQueue (d : Dev) (k : Nat) (c : Cnt) (obj : Nat) : Dev :=
  match mget d.queues k with
  | none => d
  | some q =>
    let t := d.tileOfQueue k
    let n := q.frames.length
    let d := q.frames.foldl (fun d f => d.release t f.ptr 6) d
    let d : Dev := { d with queues := mput d.queues k { q with frames := [], deficit := 0 } }
    if n = 0 then d else d.count c obj n

/-- Downstream queues of a channel, uplink-side queues of a sub-port. -/
def Dev.chanQueues (d : Dev) (ch : Nat) : List Nat := (d.queues.filter (fun e => e.2.down && d.chanOfTerm e.2.tid = ch)).map (fun e => e.1)
def Dev.subQueues (d : Dev) (p : Nat) : List Nat := (d.queues.filter (fun e => !e.2.down && e.2.subport = p)).map (fun e => e.1)

/-- A queue leaves: its frames are discarded and its nodes and shaper with it (R310, R293). -/
def Dev.removeQueue (d : Dev) (k : Nat) : Dev :=
  let d := (d.discardQueue k .dropDeleted (d.tileOfQueue k)).freeSlot 1 k
  Dev.syncNodes { d with queues := mdel d.queues k, shapers := mdel d.shapers k }

/-! ## Changes at a frame boundary -/

/-- Fields that CMD_QUEUE_MODIFY carries, in the order of its layout. -/
def Queue.modified (q : Queue) (v : List Nat) : Queue :=
  { q with maxCells := nth v 0, yellow := nth v 1, red := nth v 2, strict := nth v 3 = 1, weight := nth v 4, launch := nth v 5,
           launchOfs := nth v 6, lateTol := nth v 7 }

/-- Applies a shaper setting: a new shaper starts full, a changed one keeps the follow-me share (R297, R300). -/
def Dev.applyShaper (d : Dev) (x : ShaperCfg) : Dev :=
  if x.detach then { d with shapers := mdel d.shapers x.target }
  else match mget d.shapers x.target with
    | none => { d with shapers := mput d.shapers x.target { x.cfg with cLvl := lvl x.cfg.cbs, pLvl := lvl x.cfg.pbs, atT := d.now } }
    | some s =>
      let old := s.refill d.now
      { d with shapers := mput d.shapers x.target ({ x.cfg with fmC := old.fmC, fmP := old.fmP, atT := d.now }.policy old) }

/-- Puts a schedule, or none, in force on a sub-port. -/
def Dev.putGate (d : Dev) (sub : Nat) (g : Option Gate) : Dev :=
  { d with gates := match g with | some g => mput d.gates sub g | none => mdel d.gates sub }

/-- Schedules accepted for sub-ports that have none in force (R309); every anchor is moved on. -/
def Dev.firstGates (d : Dev) : Dev :=
  let due := d.gateNext.filter (fun e => !mhas d.gates e.1)
  let d := due.foldl (fun (d : Dev) e => d.putGate e.1 e.2.1) { d with gateNext := d.gateNext.filter (fun e => mhas d.gates e.1) }
  { d with gates := d.gates.map (fun (k, g) => (k, g.roll d.now)) }

/-- The traffic changes that are due at the present frame (R300, R302, R309, R310). -/
def Dev.trafficBoundary (d : Dev) : Dev :=
  let f := d.frame
  let dead := (d.queues.filter (fun e => e.2.delAt.any (frameGe f))).map (fun e => e.1)
  let d := dead.foldl Dev.removeQueue d
  let d : Dev := { d with
    queues := d.queues.map (fun (k, q) => (k, (q.next.filter (fun x => frameGe f x.1)).foldl (fun q x => q.modified x.2)
      { q with next := q.next.filter (fun x => !frameGe f x.1) })),
    nodes := d.nodes.map (fun (k, n) => (k, (n.next.filter (fun x => frameGe f x.1)).foldl (fun n x => { n with weight := x.2 })
      { n with next := n.next.filter (fun x => !frameGe f x.1) })) }
  let d := d.firstGates
  let due := d.shaperNext.filter (fun x => frameGe f x.atT)
  let d := due.foldl Dev.applyShaper { d with shaperNext := d.shaperNext.filter (fun x => !frameGe f x.atT) }
  let dueM := d.meterNext.filter (fun x => frameGe f x.1)
  let d : Dev := { d with meterNext := d.meterNext.filter (fun x => !frameGe f x.1) }
  dueM.foldl (fun d x => { d with meters := match x.2.2 with
    | some m => mput d.meters x.2.1 { m with cLvl := lvl m.cbs, pLvl := lvl m.pbs, atT := d.now }
    | none => mdel d.meters x.2.1 }) d

/-! ## Limits of R20 -/

def Dev.downQueuesOn (d : Dev) (t : Nat) : Nat := (d.queues.filter (fun e => e.2.down && d.tileOfTerm e.2.tid = t)).length
def Dev.upQueuesOn (d : Dev) (t : Nat) : Nat := (d.queues.filter (fun e => !e.2.down && tileOfSub e.2.subport = t)).length
/-- Shapers attached on a tile, those accepted and not yet in force included. -/
def Dev.shapersOn (d : Dev) (t : Nat) : Nat :=
  (d.shapers.filter (fun e => e.2.tile = t)).length
    + (d.shaperNext.filter (fun x => x.cfg.tile = t && !x.detach && !mhas d.shapers x.target)).length
/-- Shapers and meters in packet mode on a tile. -/
def Dev.pktModeOn (d : Dev) (t : Nat) : Nat :=
  (d.shapers.filter (fun e => e.2.tile = t && e.2.pkt)).length + (d.meters.filter (fun e => e.2.tile = t && e.2.pkt)).length
    + (d.shaperNext.filter (fun x => x.cfg.tile = t && x.cfg.pkt && !x.detach && !(mget d.shapers x.target).any (fun s => s.pkt))).length
    + (d.meterNext.filter (fun x => x.2.2.any (fun m => m.tile = t && m.pkt))).length

/-- The eight default queues of a sub-port, made at its first enable (R293): group 0, classes 0-7, at the lowest free handles
(log 24). -/
def Dev.defaultQueues (d : Dev) (p : Nat) : Dev :=
  let d := (List.range 8).foldl (fun d c =>
    match lowestFree (d.queues.map (fun e => e.1)) (upBase + 4096 * tileOfSub p) 4096 with
    | some k => ({ d with queues := mput d.queues k { down := false, subport := p, group := 0, cls := c, startAt := d.frame } } : Dev).giveSlot 1 k
    | none => d) d
  d.syncNodes

/-! ## Commands -/

/-- Whether a sender may act on a queue (R309). -/
def Dev.mayQueue (d : Dev) (s : Sender) (k : Nat) : Bool :=
  match mget d.queues k with
  | some q => if q.down && !q.priv then s.dom q.sdom else s.pkg
  | none => s.pkg || k < upBase

/-- Parent (2 bytes, 1 byte), class, then the parameters of Table 11-3 in their order (log 15). -/
def bodyQueueCreate (c : Cmd) (d : Dev) : Res :=
  let k := c.tgt
  let down := k < upBase
  let fl := c.u8 10
  let q : Queue := { down := down, tid := if down then c.u16 0 else 0, sdom := if down then c.u8 2 else 0,
                     subport := if down then 0 else c.u16 0, group := if down then 0 else c.u8 2, cls := c.u8 3, maxCells := c.u32 4,
                     yellow := c.u8 8, red := c.u8 9, strict := bitN fl 0, priv := bitN fl 1, gated := bitN fl 2, weight := c.u16 12,
                     launch := c.u8 14, launchOfs := c.u32 16, lateTol := c.u32 20, startAt := d.qFrame }
  let t := if down then d.tileOfTerm q.tid else tileOfSub q.subport
  if !d.queueOk k then d.fail stRange ofsTgt
  else if if down then d.nTerms ≤ q.tid else d.nSubs ≤ q.subport || 64 ≤ q.group then d.fail stRange (ofsP 0)
  else if (if down then 8 else 64) ≤ q.cls then d.fail stRange (ofsP 3)
  else if q.maxCells < 1 || 262144 < q.maxCells then d.fail stRange (ofsP 4)
  else if 100 < q.yellow then d.fail stRange (ofsP 8)
  else if 100 < q.red then d.fail stRange (ofsP 9)
  else if q.weight < 1 || 1023 < q.weight then d.fail stRange (ofsP 12)
  else if 2 < q.launch then d.fail stBadParam (ofsP 14)
  else if 1000000 < q.launchOfs then d.fail stRange (ofsP 16)
  else if 1000000 < q.lateTol then d.fail stRange (ofsP 20)
  else if down && (q.launch ≠ 0 || q.gated) then d.fail stBadParam (ofsP 10)
  else if mhas d.queues k || (down && !mhas d.terms q.tid) then d.fail stState
  else if d.queues.any (fun e => e.2.down = down && e.2.tid = q.tid && e.2.sdom = q.sdom && e.2.subport = q.subport && e.2.group = q.group
      && e.2.cls = q.cls) then d.fail stState
  else if d.notRun t then d.fail stState
  else if (if down then 16384 ≤ d.downQueuesOn t else 4096 ≤ d.upQueuesOn t) then d.fail stNoResource
  else Dev.ok (Dev.syncNodes (Dev.giveSlot { d with queues := mput d.queues k q } 1 k))

/-- CMD_QUEUE_CREATE (R292, R293). -/
def specQueueCreate : CmdSpec :=
  { op := 0x0701, lenOk := lenIs 24, body := bodyQueueCreate,
    scope := fun c _ => if c.tgt < upBase then c.snd.dom (c.u8 2) && (c.snd.pkg || !bitN (c.u8 10) 1) else c.snd.pkg }

/-- A body that acts on an existing queue. -/
def Dev.withQueue (d : Dev) (k : Nat) (f : Queue → Res) : Res :=
  if !d.queueOk k then d.fail stRange ofsTgt
  else match mget d.queues k with
    | none => d.fail stState
    | some q => if d.notRun (d.tileOfQueue k) then d.fail stState else f q

/-- max_cells, yellow_pct, red_pct, strict, weight, launch, launch_offset_ns, late_tolerance_ns (log 15). -/
def bodyQueueModify (c : Cmd) (d : Dev) : Res :=
  d.withQueue c.tgt fun q =>
  let v := [c.u32 0, c.u8 4, c.u8 5, c.u8 6 % 2, c.u16 8, c.u8 10, c.u32 12, c.u32 16]
  if nth v 0 < 1 || 262144 < nth v 0 then d.fail stRange (ofsP 0)
  else if 100 < nth v 1 then d.fail stRange (ofsP 4)
  else if 100 < nth v 2 then d.fail stRange (ofsP 5)
  else if nth v 4 < 1 || 1023 < nth v 4 then d.fail stRange (ofsP 8)
  else if 2 < nth v 5 || (q.down && nth v 5 ≠ 0) then d.fail stBadParam (ofsP 10)
  else if 1000000 < nth v 6 then d.fail stRange (ofsP 12)
  else if 1000000 < nth v 7 then d.fail stRange (ofsP 16)
  else Dev.ok { d with queues := mput d.queues c.tgt { q with next := q.next ++ [(d.qFrame, v)] } }

/-- CMD_QUEUE_MODIFY (R309). -/
def specQueueModify : CmdSpec :=
  { op := 0x0702, lenOk := lenIs 20, body := bodyQueueModify, scope := fun c d => d.mayQueue c.snd c.tgt }

def bodyQueueDelete (c : Cmd) (d : Dev) : Res :=
  d.withQueue c.tgt fun q => Dev.ok { d with queues := mput d.queues c.tgt { q with delAt := some (q.delAt.getD d.qFrame) } }

/-- CMD_QUEUE_DELETE (R310). -/
def specQueueDelete : CmdSpec :=
  { op := 0x0703, lenOk := lenIs 0, body := bodyQueueDelete, scope := fun c d => d.mayQueue c.snd c.tgt }

/-- The node or queue that a command names: kind 0 queue, 1 channel, 2 domain, 3 terminal-within-domain, 4 sub-port, 5 group;
the target handle names the queue, channel, TID or sub-port, a further byte the SDOM or group (log 23). -/
def nodeOf (kind tgt extra : Nat) : Nat :=
  if kind = 0 then tgt else if kind = 1 then chanNode tgt else if kind = 2 then domNode tgt extra
  else if kind = 3 then termNode tgt extra else if kind = 4 then portNode tgt else groupNode tgt extra

/-- Tile of a node or queue. -/
def Dev.tileOfNode (d : Dev) (kind tgt : Nat) : Nat :=
  if kind = 0 then d.tileOfQueue tgt else if kind = 1 || kind = 2 then tileOfChan tgt else if kind = 3 then d.tileOfTerm tgt else tileOfSub tgt

/-- Whether a sender may act on a node or queue (R309). -/
def Dev.mayNode (d : Dev) (s : Sender) (kind tgt extra : Nat) : Bool :=
  if kind = 0 then d.mayQueue s tgt else if kind = 2 || kind = 3 then s.dom extra else s.pkg

/-- Whether the handles that name a node or queue lie outside their ranges (R6, R7): the queue, channel, TID or sub-port, and a group
above 63. -/
def Dev.nodeOut (d : Dev) (kind tgt extra : Nat) : Bool :=
  if kind = 0 then !d.queueOk tgt else if kind = 1 || kind = 2 then !d.chanOk tgt else if kind = 3 then d.nTerms ≤ tgt
  else d.nSubs ≤ tgt || (kind = 5 && 63 < extra)

/-- Whether the node or queue exists. -/
def Dev.nodeHere (d : Dev) (kind k : Nat) : Bool := if kind = 0 then mhas d.queues k else mhas d.nodes k

/-- Kind, SDOM or group, weight (log 15): domain and terminal-within-domain nodes. -/
def bodyNodeConfig (c : Cmd) (d : Dev) : Res :=
  let k := nodeOf (c.u8 0) c.tgt (c.u8 1)
  if c.u8 0 ≠ 2 && c.u8 0 ≠ 3 then d.fail stBadParam (ofsP 0)
  else if d.nodeOut (c.u8 0) c.tgt 0 then d.fail stRange ofsTgt
  else if c.u16 2 < 1 || 1023 < c.u16 2 then d.fail stRange (ofsP 2)
  else match mget d.nodes k with
    | none => d.fail stState
    | some n => if d.notRun (d.tileOfNode (c.u8 0) c.tgt) then d.fail stState
                else Dev.ok { d with nodes := mput d.nodes k { n with next := n.next ++ [(d.qFrame, c.u16 2)] } }

/-- CMD_NODE_CONFIG (R295). -/
def specNodeConfig : CmdSpec :=
  { op := 0x0704, lenOk := lenIs 4, body := bodyNodeConfig, scope := fun c d => d.mayNode c.snd (c.u8 0) c.tgt (c.u8 1) }

/-- A setting of R296 and R299 as parameters carry it: cir, cbs, pir, pbs, overhead; 0 when legal, else the status. -/
def bucketBad (pkt : Bool) (cir cbs pir pbs : Nat) (overhead : Int) : Nat :=
  let rMax := if pkt then 10000000 else 400000000
  let sMin := if pkt then 1 else 64
  let sMax := if pkt then 65535 else 16777215
  if rMax < cir || rMax < pir || (pkt && (cir < 1 || pir < 1)) || cbs < sMin || sMax < cbs || pbs < sMin || sMax < pbs
      || overhead < -64 || 63 < overhead then stRange
  else if pir < cir then stBadParam
  else stOk

/-- Kind, SDOM or group, action (0 set, 1 detach), cir, cbs, pir, pbs, overhead, flags packet mode and FULL (log 15). -/
def bodyShaperSet (c : Cmd) (d : Dev) : Res :=
  let kind := c.u8 0
  let k := nodeOf kind c.tgt (c.u8 1)
  let t := d.tileOfNode kind c.tgt
  let pkt := c.bit 21 0
  let s : Shaper := { pkt := pkt, cir := c.u32 4, cbs := c.u32 8, pir := c.u32 12, pbs := c.u32 16, overhead := c.i8 20, full := c.bit 21 1, tile := t }
  let bad := bucketBad pkt s.cir s.cbs s.pir s.pbs s.overhead
  let privQ := kind = 0 && (match mget d.queues c.tgt with | some q => q.priv | none => false)
  if 5 < kind then d.fail stBadParam (ofsP 0)
  else if 1 < c.u8 2 then d.fail stBadParam (ofsP 2)
  else if d.nodeOut kind c.tgt (c.u8 1) then d.fail stRange ofsTgt
  else if !d.nodeHere kind k || d.notRun t then d.fail stState
  else if c.u8 2 = 1 then
    if !mhas d.shapers k then d.fail stState
    else Dev.ok { d with shaperNext := d.shaperNext ++ [{ atT := d.qFrame, target := k, detach := true, cfg := s }] }
  else if bad ≠ stOk then d.fail bad (ofsP 4)
  else if pkt && !privQ then d.fail stNotPermitted
  else if pkt && !(mget d.shapers k).any (fun s => s.pkt) && 1024 ≤ d.pktModeOn t then d.fail stNoResource
  else if !mhas d.shapers k && 24576 ≤ d.shapersOn t then d.fail stNoResource
  else Dev.ok { d with shaperNext := d.shaperNext ++ [{ atT := d.qFrame, target := k, cfg := s }] }

/-- CMD_SHAPER_SET (R296 to R300). -/
def specShaperSet : CmdSpec :=
  { op := 0x0705, lenOk := lenIs 24, body := bodyShaperSet, scope := fun c d => d.mayNode c.snd (c.u8 0) c.tgt (c.u8 1) }

/-- A first schedule takes effect at the next frame boundary (R309), a later one at its cycle boundary (R307); a base time outside the span
of R120 is refused. Action (0 set, 1 clear), entries, cycle, base time (seconds, ns), then duration and mask of each entry (log 15). -/
def bodyGateSet (c : Cmd) (d : Dev) : Res :=
  d.onSub c.tgt ofsTgt fun _ =>
  let n := c.u8 1
  let es := (List.range n).map (fun i => (c.u32 (20 + 8 * i), c.u8 (24 + 8 * i)))
  let base : Int := (c.u64 8 : Int) * 1000000000 + c.u32 16
  let g : Gate := { cycle := c.u32 4, anchor := d.rawOfNs base, entries := es }
  let put (x : Option Gate) : Res :=
    let due : Raw := match mget d.gates c.tgt with | some old => old.boundary (d.now + rawMs 1) | none => d.now
    Dev.ok { d with gateNext := d.gateNext ++ [(c.tgt, x, due)] }
  if 1 < c.u8 0 then d.fail stBadParam (ofsP 0)
  else if c.u8 0 = 1 then put none
  else if n < 1 || 64 < n then d.fail stRange (ofsP 1)
  else if g.cycle < 10000 || 1000000000 < g.cycle then d.fail stRange (ofsP 4)
  else if 999999999 < c.u32 16 then d.fail stRange (ofsP 16)
  else if 140000 * 1000000000 < (base - d.netNs).natAbs then d.fail stRange (ofsP 8)
  else if (es.map (fun e => e.1)).foldl (· + ·) 0 ≠ g.cycle then d.fail stBadParam (ofsP 20)
  else put (some g)

/-- CMD_GATE_SET (R307). -/
def specGateSet : CmdSpec :=
  { op := 0x0707, pkg := true, body := bodyGateSet,
    lenOk := fun _ ps => if natAt ps 0 1 = 1 then ps.length = 20 else ps.length = 20 + 8 * natAt ps 1 1 }

/-- Whole units of a level, as 4 signed bytes. -/
def lvlBytes (l : Int) : List Byte := leBytes 4 (lowBits 32 (l / 65536))

/-- Children of a node: keys of the objects below it. -/
def Dev.childrenOf (d : Dev) (kind tgt extra : Nat) : List Nat :=
  let qs := d.queues
  if kind = 1 then ((qs.filter (fun e => e.2.down && d.chanOfTerm e.2.tid = tgt)).map (fun e => e.2.sdom)).eraseDups
  else if kind = 2 then ((qs.filter (fun e => e.2.down && d.chanOfTerm e.2.tid = tgt && e.2.sdom = extra)).map (fun e => e.2.tid)).eraseDups
  else if kind = 3 then (qs.filter (fun e => e.2.down && e.2.tid = tgt && e.2.sdom = extra)).map (fun e => e.1)
  else if kind = 4 then ((qs.filter (fun e => !e.2.down && e.2.subport = tgt)).map (fun e => e.2.group)).eraseDups
  else if kind = 5 then (qs.filter (fun e => !e.2.down && e.2.subport = tgt && e.2.group = extra)).map (fun e => e.1)
  else []

/-- What to read (0 occupancy, 1 levels, 2 children), kind, SDOM or group (log 15). -/
def bodyQmStatus (c : Cmd) (d : Dev) : Res :=
  let kind := c.u8 1
  let k := nodeOf kind c.tgt (c.u8 2)
  if 2 < c.u8 0 then d.fail stBadParam (ofsP 0)
  else if 5 < kind || (c.u8 0 = 0 && kind ≠ 0) || (c.u8 0 = 2 && kind = 0) then d.fail stBadParam (ofsP 1)
  else if d.nodeOut kind c.tgt (c.u8 2) then d.fail stRange ofsTgt
  else if !d.nodeHere kind k || d.notRun (d.tileOfNode kind c.tgt) then d.fail stState
  else if c.u8 0 = 0 then
    (match mget d.queues k with
     | some q => d.ok (leBytes 4 q.occ)
     | none => d.fail stState)
  else if c.u8 0 = 1 then
    (match d.shaperNow k with
     | some s => d.ok (lvlBytes s.cLvl ++ lvlBytes s.pLvl)
     | none => d.fail stState)
  else
    let l := (d.childrenOf kind c.tgt (c.u8 2)).take 900
    d.ok (leBytes 4 l.length ++ l.flatMap (leBytes 4))

/-- CMD_QM_STATUS (R309). -/
def specQmStatus : CmdSpec :=
  { op := 0x0709, lenOk := lenIs 4, body := bodyQmStatus, scope := fun c d => d.mayNode c.snd (c.u8 1) c.tgt (c.u8 2) }

/-! ## Meanings -/

/-- CMD_QUEUE_CREATE (R292). -/
def execCmdQueueCreate (p : Packet) (s : State) : Host.Outcome State Fault Refusal := live (Dev.runCommand specQueueCreate p) s

/-- CMD_QUEUE_MODIFY (R309). -/
def execCmdQueueModify (p : Packet) (s : State) : Host.Outcome State Fault Refusal := live (Dev.runCommand specQueueModify p) s

/-- CMD_QUEUE_DELETE (R310). -/
def execCmdQueueDelete (p : Packet) (s : State) : Host.Outcome State Fault Refusal := live (Dev.runCommand specQueueDelete p) s

/-- CMD_NODE_CONFIG (R295). -/
def execCmdNodeConfig (p : Packet) (s : State) : Host.Outcome State Fault Refusal := live (Dev.runCommand specNodeConfig p) s

/-- CMD_SHAPER_SET (R300). -/
def execCmdShaperSet (p : Packet) (s : State) : Host.Outcome State Fault Refusal := live (Dev.runCommand specShaperSet p) s

/-- CMD_GATE_SET (R307). -/
def execCmdGateSet (p : Packet) (s : State) : Host.Outcome State Fault Refusal := live (Dev.runCommand specGateSet p) s

/-- CMD_QM_STATUS (R309). -/
def execCmdQmStatus (p : Packet) (s : State) : Host.Outcome State Fault Refusal := live (Dev.runCommand specQmStatus p) s

/-- FRAME_RELEASE (R290). -/
def execFrameRelease (tile : Nat) (ptr : BitVec 32) (party : Nat) (s : State) : Host.Outcome State Fault Refusal :=
  live (fun d => d.opFrameRelease tile ptr party) s

/-- SHAPER_REFILL (R296). -/
def execShaperRefill (s : State) : Host.Outcome State Fault Refusal :=
  live (fun d => d.opShaperRefill) s

end Sys2Proof.Machine
end

