-- ==== Sys2Proof/Machine/Msec.lean ====
section
/-!
DEFINITION. MACsec on the uplinks: SecYs, secure channels, SA slots, packet numbers, validation, MKA and express transit
(chapter 12). The verdict of the ICV comes with a received frame; a frame's cipher text is not computed.
-/

namespace Sys2Proof.Machine

/-! ## Suites (Table 12-2) -/

def suiteXpn (s : Nat) : Bool := 2 ≤ s
def suiteKeyLen (s : Nat) : Nat := if s % 2 = 0 then 16 else 32
def suiteLast (s : Nat) : Nat := if suiteXpn s then 2 ^ 64 - 1 else 2 ^ 32 - 1
/-- Watermark in force (R323). -/
def Dev.watermark (d : Dev) (s : Nat) : Nat := if suiteXpn s then d.msec.wmx.toNat else d.wm32
/-- PNs reserved in eMRAM for a static key (R319). -/
def suiteReserve (s : Nat) : Nat := if suiteXpn s then 2 ^ 32 else 2 ^ 28

/-! ## Lookup -/

/-- SecY of a sub-port by its index; SecY 0 exists with its defaults before a command configures it (R312). -/
def Dev.secyOf (d : Dev) (sub idx : Nat) : Option (Nat × SecY) := d.msec.secys.find? (fun e => e.2.subport = sub && e.2.index = idx)

/-- SecY that a queue group of a sub-port names (R313). -/
def Dev.groupSecyOf (d : Dev) (sub group : Nat) : Option (Nat × SecY) :=
  if group = 0 then d.secyOf sub 0
  else match mget d.msec.groupSecy (64 * sub + group) with
    | some h => (mget d.msec.secys h).map (fun y => (h, y))
    | none => d.secyOf sub 0

/-- Transmit SC of a SecY; its SA in TX; its SA that is READY. -/
def Dev.txSc (d : Dev) (y : Nat) : Option Nat := (d.msec.scs.find? (fun e => e.2.secy = y && e.2.tx)).map (fun e => e.1)
def Dev.saIn (d : Dev) (sc : Nat) (st : SaState) : Option Nat :=
  if (d.sa (2 * sc)).st = st then some (2 * sc) else if (d.sa (2 * sc + 1)).st = st then some (2 * sc + 1) else none
/-- The other SA slot of the same SC. -/
def otherSa (n : Nat) : Nat := if n % 2 = 0 then n + 1 else n - 1

def Dev.scOf (d : Dev) (n : Nat) : Option SecChan := mget d.msec.scs n
/-- Suite of an SC. -/
def Dev.suiteOf (d : Dev) (sc : Nat) : Nat :=
  match d.scOf sc with
  | some c => (match mget d.msec.secys c.secy with | some y => y.suite | none => 0)
  | none => 0

/-- Bytes that MACsec adds to a frame of a group: SecTAG and ICV (Table 12-1). -/
def Dev.msecGrow (d : Dev) (sub group : Nat) : Nat :=
  match d.groupSecyOf sub group with
  | some (_, y) => if y.protect then (if y.sciAlways then 32 else 24) else 0
  | none => 32

/-! ## SA slots (R316 to R325) -/

/-- An SA slot is zeroised: EMPTY, its generation number and the F2 fault of R324 kept. -/
def Dev.saEmpty (d : Dev) (n : Nat) : Dev :=
  let x := d.sa n
  (d.setSa n { gen := x.gen, newer := x.newer, flt := x.flt }).emit (.keyBus 1 (d.tileOfSa n) n)

/-- An SA becomes RETIRING until an instant. -/
def Dev.saRetire (d : Dev) (n : Nat) (t : Raw) : Dev := d.setSa n { d.sa n with st := .retiring, retireEnd := t }

/-- The transmit SC switches from its TX slot to its READY slot (R321). An EXHAUSTED slot stays as it is. -/
def Dev.saSwitch (d : Dev) (sc : Nat) : Dev :=
  match d.saIn sc .ready with
  | none => d
  | some r =>
    let d := match d.saIn sc .tx with | some t => d.saRetire t (d.now + rawUs 2) | none => d
    d.setSa r { d.sa r with st := .tx }

/-- Whether the SA in TX has reached the watermark of its suite. -/
def Dev.pastMark (d : Dev) (sc : Nat) : Bool :=
  match d.saIn sc .tx with | some t => d.watermark (d.suiteOf sc) ≤ (d.sa t).pn | none => false

/-- The EXHAUSTED condition of an SA: its F2 is up until the SC next transmits (R324). -/
def Dev.saExhaust (d : Dev) (n : Nat) : Dev :=
  Dev.raise (d.setSa n { d.sa n with st := .exhausted, flt := true }) 0x0A 0x01 2 (d.tileOfSa n) (n / 2) n true

/-- Writes a key into an SA slot as a new generation (R317 to R319, R325): the LOAD goes over the key bus; a transmit SA starts
at PN 1, or at the bound recorded for its persistent slot. -/
def Dev.saWrite (d : Dev) (n an : Nat) (key : List Byte) (src : Option Nat) (low ssci : Nat) (salt : List Byte) : Dev :=
  let sc := n / 2
  let tx := match d.scOf sc with | some c => c.tx | none => false
  let suite := d.suiteOf sc
  let x := d.sa n
  let first := match src with | some p => (if tx then (d.pslot p).pnBound.getD 1 else 1) | none => 1
  let spent := tx && src.isSome && suiteLast suite ≤ first
  let y : SaSlot :=
    { st := .ready, an := an, key := key, loaded := true, gen := x.gen + 1, pn := first, bound := if tx then first + 2 ^ 20 else 0,
      low := low, src := src, srcGen := (match src with | some p => (d.pslot p).wcount | none => 0), ssci := ssci, salt := salt,
      newer := d.msec.installs + 1, flt := x.flt }
  let d := d.setSa n y
  let d : Dev := { d with msec := { d.msec with installs := d.msec.installs + 1 } }
  let d := d.emit (.keyBus 0 (d.tileOfSa n) n)
  let d := match src with
    | some p => if tx then d.setPslot p { d.pslot p with pnBound := some (max first (min (first + suiteReserve suite) (suiteLast suite))) } else d
    | none => d
  let d : Dev := if tx then { d with msec := { d.msec with scs := mmod d.msec.scs sc (fun c => { c with asked := false }) } } else d
  if spent then d.saExhaust n
  else if tx then
    let o := (d.sa (otherSa n)).st
    if o = .exhausted || o = .empty then d.setSa n { d.sa n with st := .tx }
    else if d.pastMark sc then d.saSwitch sc
    else d
  else d

/-- Runs the install that a slot holds queued, once the slot is EMPTY (R317). -/
def Dev.saQueued (d : Dev) (n : Nat) (q : Option Install) : Dev :=
  match q with
  | none => d
  | some i =>
    let d := d.saWrite n i.an i.key i.src i.pn i.ssci i.salt
    if i.job = 0 then d else d.complete .saInstall n stOk

/-- Puts an install behind the RETIRING of a slot; one queued there before completes with ST_STATE (R317). -/
def Dev.saQueue (d : Dev) (n : Nat) (i : Install) : Dev :=
  let x := d.sa n
  let d := if x.queued.isSome then d.complete .saInstall n stState else d
  d.setSa n { x with queued := some i }

/-- A disable (R320): READY or TX becomes RETIRING for at most 2 µs; a queued install is cancelled. -/
def Dev.saDisable (d : Dev) (n : Nat) : Dev :=
  let x := d.sa n
  let d := if x.queued.isSome then (d.setSa n { x with queued := none }).complete .saInstall n stState else d
  if x.st = .ready || x.st = .tx then d.saRetire n (d.now + rawUs 2)
  else if x.st = .retiring && (rawUs 2).toNat < (x.retireEnd - d.now).toNat then d.setSa n { d.sa n with retireEnd := d.now + rawUs 2 }
  else d

/-- SA_RETIRE_END (R316): the slot is zeroised and a queued install takes it. -/
def Dev.opSaRetireEnd (d : Dev) (sa : Nat) : Dev :=
  let x := d.sa sa
  if x.st = .retiring then ((d.advanceTo x.retireEnd).saEmpty sa).saQueued sa x.queued else d

/-- Raises the PN bound of a transmit SA by 2^20, the bound in eMRAM first (R319). -/
def Dev.raiseBound (d : Dev) (n : Nat) : Dev :=
  let x := d.sa n
  let b := x.bound + 2 ^ 20
  let suite := d.suiteOf (n / 2)
  let d := match x.src with
    | some p =>
      let s := d.pslot p
      (match s.pnBound with
       | some pb => if x.srcGen = s.wcount && pb < b then d.setPslot p { s with pnBound := some (min (suiteLast suite) (pb + suiteReserve suite)) } else d
       | none => d)
    | none => d
  d.setSa n { d.sa n with bound := b }

/-- PN_BOUND_RAISE (R319): asked for when the next PN comes within 2^19 of the bound. -/
def Dev.opPnBoundRaise (d : Dev) (sa : Nat) : Dev :=
  let x := d.sa sa
  let tx := match d.scOf (sa / 2) with | some c => c.tx | none => false
  if tx && (x.st = .tx || x.st = .ready) && x.bound ≤ x.pn + 2 ^ 19 then d.raiseBound sa else d

/-- RX_PN_REPORT (R319). -/
def Dev.opRxPnReport (d : Dev) (sa : Nat) : Dev :=
  let x := d.sa sa
  let rx := match d.scOf (sa / 2) with | some c => !c.tx | none => false
  if rx && (x.st = .ready || x.st = .retiring) then d.setSa sa { x with top := max x.top x.best } else d

/-! ## Transmit (R313, R315, R320 to R324) -/

/-- EtherTypes that always use the uncontrolled port (R315). -/
def uncontrolled (et : Nat) : Bool := et = 0x888E || et = 0x88F7

/-- Raises the rekey request of an SC once per generation (R323). -/
def Dev.rekeyAsk (d : Dev) (sc : Nat) : Dev :=
  match d.scOf sc, d.saIn sc .tx with
  | some c, some t =>
    if c.asked || !d.pastMark sc then d
    else
      let d : Dev := { d with msec := { d.msec with scs := mput d.msec.scs sc { c with asked := true } } }
      (d.count .rekeyRequests c.secy).notify 0x8880 sc
        (leBytes 8 (d.sa t).pn ++ leBytes 1 (d.suiteOf sc + 1) ++ zeroBytes 7)
  | _, _ => d

/-- Uses the next PN of the SA in TX for one frame and everything that follows from it: counters, the end of an EXHAUSTED
fault, exhaustion, the watermark, the switch. Answers the SA and PN used. -/
def Dev.pnUse (d : Dev) (sc len : Nat) (conf : Bool) : Option (Nat × Nat) × Dev :=
  match d.saIn sc .tx with
  | none => (none, d)
  | some t =>
    let d := if (d.sa t).bound ≤ (d.sa t).pn then d.raiseBound t else d
    let x := d.sa t
    let pn := x.pn
    let suite := d.suiteOf sc
    let d := (d.count (if conf then .outEncrypted else .outProtected) t).count .outOctets t len
    let d := [2 * sc, 2 * sc + 1].foldl (fun d n =>
      if (d.sa n).flt then (d.setSa n { d.sa n with flt := false }).endCond 0x0A 0x01 (d.tileOfSa n) sc else d) d
    let d := d.setSa t { d.sa t with pn := pn + 1 }
    let d :=
      if suiteLast suite ≤ pn then (if (d.saIn sc .ready).isSome then d.saSwitch sc else d.saExhaust t)
      else
        let d := d.rekeyAsk sc
        if d.pastMark sc then d.saSwitch sc else d
    (some (t, pn), d)

/-- What becomes of a frame that a sub-port sends: sent clear, sent under an SA and PN, or dropped. -/
inductive TxFate where
  | clear | drop
  | sa (n pn : Nat)
  deriving DecidableEq, Repr

/-- Sends a frame of a group through its SecY (R313 to R324). -/
def Dev.txSecure (d : Dev) (sub group len et : Nat) : TxFate × Dev :=
  match d.groupSecyOf sub group with
  | none => (if uncontrolled et then .clear else .drop, d)
  | some (h, y) =>
    if uncontrolled et || y.extra.contains et || !y.protect then (.clear, d)
    else match d.txSc h with
      | none => (.drop, d)
      | some sc =>
        match d.pnUse sc len y.conf with
        | (some (n, pn), d) => (.sa n pn, d)
        | (none, d) => (.drop, d.count (if (d.saIn sc .exhausted).isSome then .txExhaustedDrop else .txNoSa) sc)

/-- EtherType of a frame: bytes 12-13. -/
def etherOf (f : List Byte) : Nat := beNat (bytesAt f 12 2)

/-! ## Receive (R313 to R315, R322) -/

/-- A secure frame accepted on an SA: PNs move up and the older SA of the SC retires (R322, R330). -/
def Dev.rxAccept (d : Dev) (n pn window : Nat) : Dev :=
  let x := d.sa n
  let best := max x.best pn
  let d := d.setSa n { x with best := best, low := max x.low (best + 1 - window) }
  let o := otherSa n
  let z := d.sa o
  if z.st = .ready && z.newer < x.newer then d.saRetire o (d.now + rawMs d.rxRetireMs) else d

/-- A frame with a SecTAG whose SCI matches an SC of a SecY. -/
def Dev.rxSa (d : Dev) (sc : Nat) (y : SecY) (f : UplinkFrame) : Dev :=
  let fits (n : Nat) : Bool := ((d.sa n).st = .ready || (d.sa n).st = .retiring) && (d.sa n).an = f.an && (d.sa n).loaded
  match ([2 * sc, 2 * sc + 1].find? fits) with
  | none => d.count (if y.validate = .strict || f.enc then .inNotUsingSa else .inUnusedSa) sc
  | some n =>
    let x := d.sa n
    if y.replay && f.pn < x.low then d.count .inLate n
    else if y.validate = .disabled then d.count .inUnchecked n
    else if !f.icvOk then d.count (if y.validate = .strict || f.enc then .inNotValid else .inInvalid) n
    else (d.count (if f.pn < x.low then .inDelayed else .inOk) n).rxAccept n f.pn y.window

/-- SCI of a received frame: the explicit one, or the source address with port identifier 1 (R313). -/
def UplinkFrame.sciOf (f : UplinkFrame) : Nat := f.sci.getD (f.src * 65536 + 1)

/-- UPLINK_FRAME_RX (R313): the frame is matched to its SecY and SA and validated; one that passes goes on by FRAME_CLASSIFY or
TRANSIT_VERDICT (log 25). A SecTAG with an explicit SCI and the ES or the SCB bit is a bad one (IEEE 802.1AE-2018). -/
def Dev.opUplinkFrameRx (d : Dev) (f : UplinkFrame) : Dev :=
  let s := d.sub f.sub
  if !d.tileRun (tileOfSub f.sub) || !s.enabled || !s.up then d
  else
    let d := d.winAdd 0 f.sub 0 (f.frame.length + (if f.secTag then (if f.sci.isSome then 32 else 24) else 0)) 1
    let y0 := d.secyOf f.sub 0
    if !f.secTag then
      if uncontrolled f.etherType then d
      else match y0 with
        | none => d
        | some (h, y) => if y.extra.contains f.etherType then d else d.count (if y.validate = .strict then .inNoTag else .inUntagged) h
    else if f.badTag || (f.sci.isSome && (f.es || f.scb)) then (match y0 with | some (h, _) => d.count .inBadTag h | none => d)
    else
      match d.msec.scs.find? (fun e => !e.2.tx && e.2.sci = Sys2Proof.Machine.UplinkFrame.sciOf f
          && (match mget d.msec.secys e.2.secy with | some y => y.subport = f.sub | none => false)) with
      | some (sc, c) => (match mget d.msec.secys c.secy with | some y => d.rxSa sc y f | none => d)
      | none =>
        match y0 with
        | some (h, y) =>
          let d := d.count .inUnknownSci h
          if y.validate = .strict || f.enc then d.count .inNoSci h else d
        | none => d

/-! ## Express transit (R329 to R332) -/

/-- Sub-port of an SC. -/
def Dev.subOfSc (d : Dev) (sc : Nat) : Nat :=
  match d.scOf sc with
  | some c => (match mget d.msec.secys c.secy with | some y => y.subport | none => 0)
  | none => 0

/-- Whether the SecY 0 of a sub-port validates in Strict; SecY 0 does so by default. -/
def Dev.strictOn (d : Dev) (sub : Nat) : Bool := match d.secyOf sub 0 with | some (_, y) => y.validate = .strict | none => true

/-- Whether a transit path is SAF: by command, or because its ingress no longer validates in Strict (R329). -/
def Dev.safPath (d : Dev) (ing eg : Nat) : Bool := mgetD d.msec.transit (128 * ing + eg) false || !d.strictOn ing

/-! ## MKA (R326 to R328) -/

/-- SCs of a SecY. -/
def Dev.scsOf (d : Dev) (y : Nat) : List Nat := (d.msec.scs.filter (fun e => e.2.secy = y)).map (fun e => e.1)

/-- Whether an SA belongs to a SecY. -/
def Dev.saOf (d : Dev) (y n : Nat) : Bool := match d.scOf (n / 2) with | some c => c.secy = y | none => false

def Dev.setSecy (d : Dev) (h : Nat) (y : SecY) : Dev := { d with msec := { d.msec with secys := mput d.msec.secys h y } }

/-- Installs a SAK into the SA slots MKA names, those of this SecY whose slot takes an install (R317): at once, or behind a
RETIRING. -/
def Dev.sakInto (d : Dev) (h an : Nat) (key : List Byte) (m : Mkpdu) : Dev :=
  (m.rxSas ++ m.txSas).foldl (fun d n =>
    let o := d.sa (otherSa n)
    if !d.saOf h n || (d.sa n).st = .tx || (o.st ≠ .empty && o.an = an) then d
    else if (d.sa n).st = .retiring then d.saQueue n { an := an, key := key, pn := m.low, ssci := m.ssci, salt := m.salt }
    else d.saWrite n an key none m.low m.ssci m.salt) d

/-- AN that the SA slots MKA names do not use on the other slot. -/
def Dev.freshAn (d : Dev) (m : Mkpdu) : Nat :=
  let used := (m.rxSas ++ m.txSas).filterMap (fun n => if (d.sa (otherSa n)).st = .empty then none else some (d.sa (otherSa n)).an)
  if used.contains 0 then (if used.contains 1 then (if used.contains 2 then 3 else 2) else 1) else 0

/-- Own SCI of a SecY: that of its transmit SC. -/
def Dev.ownSci (d : Dev) (h : Nat) : Nat :=
  match d.txSc h with | some sc => (match d.scOf sc with | some c => c.sci | none => 0) | none => 0

/-- Whether a participant of a priority and SCI goes before another in the election: the lower priority value, then the lower
SCI (R326). -/
def electsBefore (p : Nat) (sci : Nat) (q : Nat) (tci : Nat) : Bool := p < q || (p = q && sci ≤ tci)

/-- Whether a participant goes before every live peer. -/
def SecY.elected (y : SecY) (sci prio : Nat) : Bool := y.prios.all (fun e => electsBefore prio sci e.2 e.1)

/-- Whether this SecY is key server among its live peers. -/
def SecY.isServer (y : SecY) (own : Nat) : Bool := y.elected own y.prio

/-- MKPDU_RX (R326, R327): ICV, live peers, election, the distributed SAK, and the switch once every peer receives. -/
def Dev.opMkpduRx (d : Dev) (secy : Nat) (m : Mkpdu) : Dev :=
  match mget d.msec.secys secy with
  | none => d
  | some y =>
    if !y.mka || !d.tileRun (tileOfSub y.subport) then d
    else
      let d := d.count .mkaRx secy
      match m.icvOk, y.ick, y.kek with
      | true, some _, some kek =>
        let known := mhas y.peers m.sci
        if !known && 16 ≤ y.peers.length then d
        else
          let y := { y with peers := mput y.peers m.sci d.now, prios := mput y.prios m.sci m.prio }
          let server := y.isServer (d.ownSci secy)
          let y := { y with server := server }
          let d := d.setSecy secy y
          let asked := match d.txSc secy with | some sc => (match d.scOf sc with | some c => c.asked | none => false) | none => false
          let d :=
            if server then
              (if (!known || asked) && d.cru.entropyOk && !(m.rxSas ++ m.txSas).isEmpty then
                let (key, d) := d.freshBytes (suiteKeyLen y.suite)
                d.sakInto secy (d.freshAn m) key m
               else d)
            else match m.serverAn with
              | none => d
              | some an =>
                if !y.elected m.sci m.prio then d
                else match keyUnwrap kek m.wrapped with
                | none => d.count .mkaUnwrapFail secy
                | some key => if key.length = suiteKeyLen y.suite then d.sakInto secy an key m else d.count .mkaUnwrapFail secy
          if m.allPeersReceive then (match d.txSc secy with | some sc => d.saSwitch sc | none => d) else d
      | _, _, _ => d.count .mkaIcvFail secy

/-- SAK that a key server distributes: the newest key of its transmit SC. -/
def Dev.sakOf (d : Dev) (h : Nat) : List Byte :=
  match d.txSc h with
  | some sc => (match d.saIn sc .ready with | some r => (d.sa r).key | none => (match d.saIn sc .tx with | some t => (d.sa t).key | none => []))
  | none => []

/-- MKA_HELLO_TX (R326): the SAK of a key server travels wrapped under the KEK. -/
def Dev.opMkaHelloTx (d : Dev) (secy : Nat) : Dev :=
  match mget d.msec.secys secy with
  | some y =>
    if y.mka && y.ick.isSome && d.tileRun (tileOfSub y.subport) then
      let sak := d.sakOf secy
      let w := if y.server && !sak.isEmpty then (match y.kek with | some k => keyWrap k sak | none => []) else []
      ((d.setSecy secy { y with mn := y.mn + 1 }).count .mkaTx secy).emit (.mkpdu secy (y.mn + 1) w)
    else d
  | none => d

/-- MKA_PEER_EXPIRE (R328): the last peer takes every SA of the SecY with it. -/
def Dev.opMkaPeerExpire (d : Dev) (secy sci : Nat) : Dev :=
  match mget d.msec.secys secy with
  | some y =>
    (match mget y.peers sci with
     | some t =>
       let d := d.advanceTo (t + rawS 6)
       let y := { y with peers := mdel y.peers sci, prios := mdel y.prios sci }
       let d := d.setSecy secy { y with server := y.isServer (d.ownSci secy) }
       if y.peers.isEmpty then
         ((d.scsOf secy).foldl (fun d sc => (d.saDisable (2 * sc)).saDisable (2 * sc + 1)) d).notify 0x8881 secy []
       else d
     | none => d)
  | none => d

/-! ## Commands -/

def validateOf (n : Nat) : Validate := if n = 0 then .disabled else if n = 1 then .check else .strict

/-- Removes an SC: its SA slots are zeroised, installs queued behind them complete with ST_STATE. -/
def Dev.scRemove (d : Dev) (sc : Nat) : Dev :=
  let d := [2 * sc, 2 * sc + 1].foldl (fun d n =>
    let q := (d.sa n).queued.isSome
    let d := if (d.sa n).flt then d.endCond 0x0A 0x01 (d.tileOfSa n) sc else d
    let d := if (d.sa n).st = .empty then d else d.saEmpty n
    if q then d.complete .saInstall n stState else d) d
  { d with msec := { d.msec with scs := mdel d.msec.scs sc, sas := mdel (mdel d.msec.sas (2 * sc)) (2 * sc + 1) } }

/-- Paths that a change left without a Strict ingress fall back to SAF for good (R329). -/
def Dev.transitFallback (d : Dev) : Dev :=
  let lost := (List.range d.nSubs).filter (fun p => !d.strictOn p)
  let pairs := lost.flatMap (fun i => (List.range d.nSubs).map (fun e => 128 * i + e))
  if lost.isEmpty then d else { d with msec := { d.msec with transit := pairs.foldl (fun m k => mput m k true) d.msec.transit } }

/-- Action (0 create or change, 1 delete), sub-port, peer MAC (0 for SecY 0), validateFrames, flags replayProtect, protectFrames,
confidentiality, SCI always, replayWindow, confidentialityOffset, suite (log 15). -/
def bodyMsecSecy (c : Cmd) (d : Dev) : Res :=
  let h := c.tgt
  let sub := c.u8 1
  let peer := c.u64 8
  let fl := c.u8 17
  let used := (d.msec.secys.filter (fun e => e.2.subport = sub)).map (fun e => e.2.index)
  if 256 * d.nTiles ≤ h then d.fail stRange ofsTgt
  else if 1 < c.u8 0 then d.fail stBadParam (ofsP 0)
  else if c.u8 0 = 1 then
    match mget d.msec.secys h with
    | none => d.fail stState
    | some y =>
      if d.notRun (tileOfSub y.subport) then d.fail stState
      else
        let d := (d.scsOf h).foldl Dev.scRemove d
        Dev.ok (Dev.transitFallback { d with msec := { d.msec with
          secys := mdel d.msec.secys h, groupSecy := d.msec.groupSecy.filter (fun e => e.2 ≠ h) } })
  else if d.nSubs ≤ sub then d.fail stRange (ofsP 1)
  else if 2 ^ 48 ≤ peer then d.fail stRange (ofsP 8)
  else if 2 < c.u8 16 then d.fail stBadParam (ofsP 16)
  else if 2 ^ 30 < c.u32 20 then d.fail stRange (ofsP 20)
  else if c.u8 24 ≠ 0 && c.u8 24 ≠ 30 && c.u8 24 ≠ 50 then d.fail stRange (ofsP 24)
  else if 3 < c.u8 25 then d.fail stBadParam (ofsP 25)
  else if d.notRun (tileOfSub sub) then d.fail stState
  else
    let set (y : SecY) : Dev := Dev.transitFallback (d.setSecy h { y with
      validate := validateOf (c.u8 16), replay := bitN fl 0, protect := bitN fl 1, conf := bitN fl 2, sciAlways := bitN fl 3,
      window := c.u32 20, offset := c.u8 24, suite := c.u8 25 })
    match mget d.msec.secys h with
    | some y => if y.subport ≠ sub || y.peer ≠ peer then d.fail stBadParam (ofsP 1) else Dev.ok (set y)
    | none =>
      match (if peer = 0 then (if used.contains 0 then none else some 0) else lowestFree used 1 15) with
      | none => d.fail stNoResource
      | some i => Dev.ok (set { subport := sub, index := i, peer := peer })

/-- CMD_MSEC_SECY (R337). -/
def specMsecSecy : CmdSpec := { op := 0x0801, crit := true, pkg := true, lenOk := lenIs 28, body := bodyMsecSecy }

/-- Action (0 create, 1 delete, 2 bind a queue group), direction (0 transmit, 1 receive), SecY, sub-port, group, SCI (log 15). -/
def bodyMsecSc (c : Cmd) (d : Dev) : Res :=
  let sc := c.tgt
  let h := c.u16 2
  let tx := c.u8 1 = 0
  if 2 < c.u8 0 then d.fail stBadParam (ofsP 0)
  else if c.u8 0 ≠ 2 && 512 * d.nTiles ≤ sc then d.fail stRange ofsTgt
  else if c.u8 0 = 1 then
    if !mhas d.msec.scs sc || d.notRun (d.tileOfSc sc) then d.fail stState else Dev.ok (d.scRemove sc)
  else match mget d.msec.secys h with
    | none => d.fail (if 256 * d.nTiles ≤ h then stRange else stState) (ofsP 2)
    | some y =>
      let t := tileOfSub y.subport
      if d.notRun t then d.fail stState
      else if c.u8 0 = 2 then
        if d.nSubs ≤ c.u8 4 then d.fail stRange (ofsP 4)
        else if 63 < c.u8 5 then d.fail stRange (ofsP 5)
        else if c.u8 4 ≠ y.subport || (c.u8 5 = 0 && y.index ≠ 0) then d.fail stBadParam (ofsP 4)
        else Dev.ok { d with msec := { d.msec with groupSecy := mput d.msec.groupSecy (64 * c.u8 4 + c.u8 5) h } }
      else if 1 < c.u8 1 then d.fail stBadParam (ofsP 1)
      else if mhas d.msec.scs sc then d.fail stState
      else
        let mine := d.msec.scs.filter (fun e => e.2.secy = h && e.2.tx = tx)
        let onTile := d.msec.scs.filter (fun e => d.tileOfSecy e.2.secy = t)
        if (if tx then 1 else 16) ≤ mine.length || 512 ≤ onTile.length then d.fail stNoResource
        else Dev.ok { d with msec := { d.msec with scs := mput d.msec.scs sc { secy := h, tx := tx, sci := c.u64 8 } } }

/-- CMD_MSEC_SC (R312, R313). -/
def specMsecSc : CmdSpec := { op := 0x0802, pkg := true, lenOk := lenIs 16, body := bodyMsecSc }

/-- CAK slot, CKN length, CKN, key server priority, flag start (log 15). A change of the binding zeroises ICK and KEK (R349). -/
def bodyMsecMka (c : Cmd) (d : Dev) : Res :=
  match mget d.msec.secys c.tgt with
  | none => d.fail (if 256 * d.nTiles ≤ c.tgt then stRange else stState) ofsTgt
  | some y =>
    if d.notRun (tileOfSub y.subport) then d.fail stState
    else if !c.bit 35 0 then Dev.ok (d.setSecy c.tgt { y with mka := false, ick := none, kek := none, peers := [], prios := [], server := false })
    else if c.u8 1 < 1 || 32 < c.u8 1 then d.fail stRange (ofsP 1)
    else match d.slotFor (c.u8 0) 2 with
      | .error st => d.fail st (ofsP 0)
      | .ok x =>
        let ckn := c.bs 2 (c.u8 1)
        Dev.ok (d.setSecy c.tgt { y with
          mka := true, cak := some (c.u8 0), cakGen := x.wcount, ckn := ckn, prio := c.u8 34, ick := some (bytesAt (Config.mkaIck x.key ckn) 0 32),
          kek := some (bytesAt (Config.mkaKek x.key ckn) 0 32), peers := [], prios := [], server := true, mn := 0 })

/-- CMD_MSEC_MKA (R327). -/
def specMsecMka : CmdSpec := { op := 0x0803, pkg := true, lenOk := lenIs 36, body := bodyMsecMka }

/-- A body that acts on an SA of an existing SC. -/
def Dev.withSa (d : Dev) (n : Nat) (k : SecChan → Res) : Res :=
  if 1024 * d.nTiles ≤ n then d.fail stRange ofsTgt
  else match d.scOf (n / 2) with
    | none => d.fail stState
    | some c => if d.notRun (d.tileOfSa n) then d.fail stState else k c

/-- AN, key source (persistent slot), lowest PN, SSCI, salt (log 15). -/
def bodyMsecSaInstall (c : Cmd) (d : Dev) : Res :=
  let n := c.tgt
  d.withSa n fun _ =>
  let x := d.sa n
  let o := d.sa (otherSa n)
  if 3 < c.u8 0 then d.fail stRange (ofsP 0)
  else match d.slotFor (c.u8 1) 5 with
    | .error st => d.fail st (ofsP 1)
    | .ok p =>
      if p.key.length ≠ suiteKeyLen (d.suiteOf (n / 2)) then d.fail stBadParam (ofsP 1)
      else if o.st ≠ .empty && o.an = c.u8 0 then d.fail stBadParam (ofsP 0)
      else if x.st = .tx then d.fail stState
      else if x.st = .retiring then
        (d.saQueue n { job := 1, an := c.u8 0, key := p.key, pn := c.u64 8, src := some (c.u8 1), ssci := c.u32 16, salt := c.bs 20 12 }).accepted
          stPending .saInstall n
      else Dev.ok (d.saWrite n (c.u8 0) p.key (some (c.u8 1)) (c.u64 8) (c.u32 16) (c.bs 20 12))

/-- CMD_MSEC_SA_INSTALL (R317). -/
def specMsecSaInstall : CmdSpec := { op := 0x0804, pkg := true, lenOk := lenIs 32, body := bodyMsecSaInstall }

def bodyMsecSaDisable (c : Cmd) (d : Dev) : Res := d.withSa c.tgt fun _ => Dev.ok (d.saDisable c.tgt)

/-- CMD_MSEC_SA_DISABLE (R320). -/
def specMsecSaDisable : CmdSpec := { op := 0x0805, pkg := true, lenOk := lenIs 0, body := bodyMsecSaDisable }

def bodyMsecTxSwitch (c : Cmd) (d : Dev) : Res :=
  if 512 * d.nTiles ≤ c.tgt then d.fail stRange ofsTgt
  else match d.scOf c.tgt with
    | none => d.fail stState
    | some x =>
      if d.notRun (d.tileOfSc c.tgt) || !x.tx || (d.saIn c.tgt .ready).isNone then d.fail stState else Dev.ok (d.saSwitch c.tgt)

/-- CMD_MSEC_TX_SWITCH (R321). -/
def specMsecTxSwitch : CmdSpec := { op := 0x0806, pkg := true, lenOk := lenIs 0, body := bodyMsecTxSwitch }

/-- Ingress sub-port, egress sub-port, mode (0 CUT, 1 SAF) (log 15). -/
def bodyMsecTransit (c : Cmd) (d : Dev) : Res :=
  if d.nSubs ≤ c.u8 0 then d.fail stRange (ofsP 0)
  else if d.nSubs ≤ c.u8 1 then d.fail stRange (ofsP 1)
  else if 1 < c.u8 2 then d.fail stBadParam (ofsP 2)
  else if d.notRun (tileOfSub (c.u8 0)) || d.notRun (tileOfSub (c.u8 1)) then d.fail stState
  else if !d.strictOn (c.u8 0) then d.fail stBadParam (ofsP 0)
  else Dev.ok { d with msec := { d.msec with transit := mputD d.msec.transit (128 * c.u8 0 + c.u8 1) (c.u8 2 = 1) false } }

/-- CMD_MSEC_TRANSIT (R329). -/
def specMsecTransit : CmdSpec := { op := 0x0807, pkg := true, lenOk := lenIs 4, body := bodyMsecTransit }

/-- Number of EtherTypes, then four EtherTypes (log 15). -/
def bodyMsecBypass (c : Cmd) (d : Dev) : Res :=
  match mget d.msec.secys c.tgt with
  | none => d.fail (if 256 * d.nTiles ≤ c.tgt then stRange else stState) ofsTgt
  | some y =>
    if d.notRun (tileOfSub y.subport) then d.fail stState
    else if 4 < c.u8 0 then d.fail stRange (ofsP 0)
    else Dev.ok (d.setSecy c.tgt { y with extra := (List.range (c.u8 0)).map (fun i => c.u16 (2 + 2 * i)) })

/-- CMD_MSEC_BYPASS (R315). -/
def specMsecBypass : CmdSpec := { op := 0x0808, crit := true, pkg := true, lenOk := lenIs 12, body := bodyMsecBypass }

def SaState.code : SaState → Nat
  | .empty => 0 | .ready => 1 | .tx => 2 | .retiring => 3 | .exhausted => 4

/-- State, AN, generation and next PN of an SA slot. -/
def SaSlot.record (x : SaSlot) : List Byte := leBytes 1 x.st.code ++ leBytes 1 x.an ++ zeroBytes 2 ++ leBytes 4 x.gen ++ leBytes 8 x.pn

/-- Key server flag, peers, SCs; then each SC with its two SA slots; then the SCIs of the live peers (log 15). -/
def bodyMsecStatus (c : Cmd) (d : Dev) : Res :=
  match mget d.msec.secys c.tgt with
  | none => d.fail (if 256 * d.nTiles ≤ c.tgt then stRange else stState) ofsTgt
  | some y =>
    if d.notRun (tileOfSub y.subport) then d.fail stState
    else
      let scs := d.scsOf c.tgt
      d.ok (leBytes 1 (b2n y.server) ++ leBytes 1 y.peers.length ++ leBytes 2 scs.length
        ++ scs.flatMap (fun s => leBytes 2 s ++ leBytes 1 (b2n (d.txSc c.tgt ≠ some s)) ++ zeroBytes 5
            ++ SaSlot.record (d.sa (2 * s)) ++ SaSlot.record (d.sa (2 * s + 1)))
        ++ y.peers.flatMap (fun e => leBytes 8 e.1))

/-- CMD_MSEC_STATUS (R337). -/
def specMsecStatus : CmdSpec := { op := 0x0809, pkg := true, lenOk := lenIs 0, body := bodyMsecStatus }

/-- MSEC_PN_WMX_LO_WRITE (R481): the whole XPN watermark; a high word of 0 is taken as 1. -/
def Dev.opMsecPnWmxLoWrite (d : Dev) (value : BitVec 32) : Dev :=
  if !d.hostOk then d
  else
    let d := d.setReg 0x704 value.toNat
    { d with msec := { d.msec with wmx := BitVec.ofNat 64 (max 1 (d.reg 0x708) * 2 ^ 32 + value.toNat) } }

/-! ## Meanings -/

/-- CMD_MSEC_SECY (R337). -/
def execCmdMsecSecy (p : Packet) (s : State) : Host.Outcome State Fault Refusal := live (Dev.runCommand specMsecSecy p) s

/-- CMD_MSEC_SC (R312). -/
def execCmdMsecSc (p : Packet) (s : State) : Host.Outcome State Fault Refusal := live (Dev.runCommand specMsecSc p) s

/-- CMD_MSEC_MKA (R327). -/
def execCmdMsecMka (p : Packet) (s : State) : Host.Outcome State Fault Refusal := live (Dev.runCommand specMsecMka p) s

/-- CMD_MSEC_SA_INSTALL (R317). -/
def execCmdMsecSaInstall (p : Packet) (s : State) : Host.Outcome State Fault Refusal := live (Dev.runCommand specMsecSaInstall p) s

/-- CMD_MSEC_SA_DISABLE (R320). -/
def execCmdMsecSaDisable (p : Packet) (s : State) : Host.Outcome State Fault Refusal := live (Dev.runCommand specMsecSaDisable p) s

/-- CMD_MSEC_TX_SWITCH (R321). -/
def execCmdMsecTxSwitch (p : Packet) (s : State) : Host.Outcome State Fault Refusal := live (Dev.runCommand specMsecTxSwitch p) s

/-- CMD_MSEC_TRANSIT (R329). -/
def execCmdMsecTransit (p : Packet) (s : State) : Host.Outcome State Fault Refusal := live (Dev.runCommand specMsecTransit p) s

/-- CMD_MSEC_BYPASS (R315). -/
def execCmdMsecBypass (p : Packet) (s : State) : Host.Outcome State Fault Refusal := live (Dev.runCommand specMsecBypass p) s

/-- CMD_MSEC_STATUS (R337). -/
def execCmdMsecStatus (p : Packet) (s : State) : Host.Outcome State Fault Refusal := live (Dev.runCommand specMsecStatus p) s

/-- MSEC_PN_WMX_LO_WRITE (R481). -/
def execMsecPnWmxLoWrite (value : BitVec 32) (s : State) : Host.Outcome State Fault Refusal :=
  live (fun d => d.opMsecPnWmxLoWrite value) s

/-- UPLINK_FRAME_RX (R313). -/
def execUplinkFrameRx (f : UplinkFrame) (s : State) : Host.Outcome State Fault Refusal :=
  live (fun d => d.opUplinkFrameRx f) s

/-- SA_RETIRE_END (R316). -/
def execSaRetireEnd (sa : Nat) (s : State) : Host.Outcome State Fault Refusal :=
  live (fun d => d.opSaRetireEnd sa) s

/-- PN_BOUND_RAISE (R319). -/
def execPnBoundRaise (sa : Nat) (s : State) : Host.Outcome State Fault Refusal :=
  live (fun d => d.opPnBoundRaise sa) s

/-- RX_PN_REPORT (R319). -/
def execRxPnReport (sa : Nat) (s : State) : Host.Outcome State Fault Refusal :=
  live (fun d => d.opRxPnReport sa) s

/-- MKPDU_RX (R327). -/
def execMkpduRx (secy : Nat) (m : Mkpdu) (s : State) : Host.Outcome State Fault Refusal :=
  live (fun d => d.opMkpduRx secy m) s

/-- MKA_HELLO_TX (R326). -/
def execMkaHelloTx (secy : Nat) (s : State) : Host.Outcome State Fault Refusal :=
  live (fun d => d.opMkaHelloTx secy) s

/-- MKA_PEER_EXPIRE (R328). -/
def execMkaPeerExpire (secy sci : Nat) (s : State) : Host.Outcome State Fault Refusal :=
  live (fun d => d.opMkaPeerExpire secy sci) s

end Sys2Proof.Machine
end

