-- ==== Sys2Proof/Machine/Pon.lean ====
section
/-!
DEFINITION. PON encryption: the key exchange with a terminal, its renewal, the switch and the zeroisation of the old slot, the
MSK and the commands on them (R333 to R337).
-/

namespace Sys2Proof.Machine

/-- Kind of the channel of a terminal: 0 G, 1 X, 2 F. -/
def Dev.termKind (d : Dev) (tid : Nat) : Nat := d.chanOfTerm tid % 4

/-- Renewal period of a terminal in s: its own, its channel's, else 3,600; 0 off (R336). -/
def Dev.rekeyPeriod (d : Dev) (tid : Nat) : Nat :=
  match (d.ponKey tid).rekeyS with | some s => s | none => mgetD d.msec.ponRekey (d.chanOfTerm tid) 3600

/-- Whether a terminal is in service. -/
def Dev.inService (d : Dev) (tid : Nat) : Bool :=
  match mget d.terms tid with | some t => t.st = .inService || t.st = .lowPower | none => false

/-- An operation of the private key bus on a key slot of a terminal, on its tile and in a PAIRED TILES group on its mirror's (R348, R419). -/
def Dev.ponBus (d : Dev) (op tid s : Nat) : Dev :=
  (d.placesOf (d.chanOfTerm tid)).foldl (fun d t => d.emit (.keyBus op t (8192 + 2 * tid + s))) d

/-- Zeroises the key slots of a terminal that enters ABSENT (R333). -/
def Dev.ponClear (d : Dev) (tid : Nat) : Dev :=
  if mhas d.pon tid then
    let x := d.ponKey tid
    let d := d.setPon tid { rekeyS := x.rekeyS, mskSlot := x.mskSlot }
    let d := if x.key0.isSome then d.ponBus 1 tid 0 else d
    if x.key1.isSome then d.ponBus 1 tid 1 else d
  else d

/-- Sends a key request: Request_Key on G, Key_Control on X and F (Table 12-5). -/
def Dev.ponAsk (d : Dev) (tid : Nat) : Dev :=
  d.ploam (d.chanOfTerm tid) (if d.termKind tid = 0 then .requestKey else .keyControl) tid

/-- Starts a key exchange; on X and F it waits for the MSK (R335). -/
def Dev.ponStart (d : Dev) (tid : Nat) : Dev :=
  if d.termKind tid ≠ 0 && (d.ponKey tid).kek.isNone then d
  else
    let p := d.rekeyPeriod tid
    let x := d.ponKey tid
    (d.setPon tid { x with req := 1, reqAt := d.now, frags := [], nextRoll := d.now + rawS p }).ponAsk tid

/-- PON_REKEY_TIMER (R336): a renewal falls due; it is abandoned when the terminal is not in service. -/
def Dev.opPonRekeyTimer (d : Dev) (tid : Nat) : Dev :=
  if d.inService tid && d.tileRun (d.tileOfTerm tid) && 0 < d.rekeyPeriod tid && (d.ponKey tid).use.isSome then
    (d.advanceTo (d.ponKey tid).nextRoll).ponStart tid
  else d

/-- A key exchange has failed for the third time: the old key stays in use (R336). -/
def Dev.ponFailed (d : Dev) (tid : Nat) : Dev :=
  let d := (d.setPon tid { d.ponKey tid with req := 0, frags := [] }).countCT .ponKeyFail (d.chanOfTerm tid) tid
  d.raise 0x0A 0x02 0 (d.tileOfTerm tid) tid (d.chanOfTerm tid) false

/-- PON_KEY_RETRY (R336): an unanswered request is repeated twice at 1 s intervals. -/
def Dev.opPonKeyRetry (d : Dev) (tid : Nat) : Dev :=
  let x := d.ponKey tid
  if x.req = 0 || !d.tileRun (d.tileOfTerm tid) then d
  else
    let d := d.advanceTo (x.reqAt + rawS 1)
    if !d.inService tid then d.setPon tid { x with req := 0, frags := [] }
    else if x.req < 3 then (d.setPon tid { x with req := x.req + 1, reqAt := d.now }).ponAsk tid
    else d.ponFailed tid

/-- Slot of a terminal that is not in use downstream. -/
def PonKey.spare (x : PonKey) : Nat := match x.use with | some 0 => 1 | _ => 0

/-- Writes a slot and waits for the switch; on G it is announced at once by Key_Switching_Time, 64 frames ahead (R334, R336). -/
def Dev.ponWrite (d : Dev) (tid : Nat) (key : List Byte) : Dev :=
  let x := d.ponKey tid
  let s := x.spare
  let g := d.termKind tid = 0
  let at_ := lowBits 48 (d.frameI + 66)
  let x := if x.oldSlot = some s then { x with oldSlot := none, zeroAt := none, zeroFrame := none } else x
  let x := { x with req := 0, frags := [], loaded := true, pendSlot := some s, switchAt := if g then some at_ else none }
  let d := d.setPon tid (if s = 0 then { x with key0 := some key } else { x with key1 := some key })
  let d := d.ponBus 0 tid s
  if g then d.ploam (d.chanOfTerm tid) .keySwitch tid (superframe 0 at_) else d

/-- ENCRYPTION_KEY (R334): a key field, whole or in fragments within 3 frames of the first; on X and F under the KEK. -/
def Dev.opEncryptionKey (d : Dev) (tid : Nat) (k : KeyMsg) : Dev :=
  let x := d.ponKey tid
  if !d.inService tid || !d.tileRun (d.tileOfTerm tid) then d
  else if x.req = 0 then d.countCT .ploamUnexpected (d.chanOfTerm tid) tid
  else
    let bad (d : Dev) : Dev := (d.setPon tid { x with frags := [] }).countCT .ponKeyFail (d.chanOfTerm tid) tid
    let late := !x.frags.isEmpty && frameGe d.frame (x.fragFrame + 4)
    let old := if late then [] else x.frags
    let frags := mput old k.frag k.key
    if !k.ok then bad d
    else
      let d := if late then bad d else d
      if frags.length < k.frags then
        d.setPon tid { x with frags := frags, fragFrame := if old.isEmpty then d.frame else x.fragFrame }
      else
        let key := frags.flatMap (fun e => e.2)
        if d.termKind tid = 0 then d.ponWrite tid key
        else match x.kek with
          | some kek => d.ponWrite tid (bytesAt (Config.ponKeyUnwrap kek key) 0 16)
          | none => bad d

/-- ACKNOWLEDGE (R336): on X and F the index changes at the next frame boundary. -/
def Dev.opAcknowledge (d : Dev) (tid : Nat) : Dev :=
  let x := d.ponKey tid
  if d.inService tid && d.tileRun (d.tileOfTerm tid) && d.termKind tid ≠ 0 && x.pendSlot.isSome && x.switchAt.isNone then
    d.setPon tid { x with switchAt := some (lowBits 48 (d.frameI + 1)) }
  else d

/-- Fragments that do not complete within 3 frames of the first write no slot (R334). -/
def Dev.ponFragEnd (d : Dev) (tid : Nat) : Dev :=
  let x := d.ponKey tid
  if !x.frags.isEmpty && frameGe d.frame (x.fragFrame + 4) then
    (d.setPon tid { x with frags := [] }).countCT .ponKeyFail (d.chanOfTerm tid) tid
  else d

/-- The downstream slot changes at a frame boundary (R336); on G the old slot is zeroised 8 frames later. -/
def Dev.ponSwitch (d : Dev) (tid : Nat) : Dev :=
  let x := d.ponKey tid
  match x.pendSlot, x.switchAt with
  | some s, some f =>
    if frameGe d.frame f then
      (d.setPon tid { x with use := some s, oldSlot := x.use, pendSlot := none, switchAt := none,
                             zeroFrame := if d.termKind tid = 0 && x.use.isSome then some ((f + 8) % 2 ^ 48) else none }).countCT
        .ponKeySwitches (d.chanOfTerm tid) tid
    else d
  | _, _ => d

/-- The fragments that time out and the switches that are due at the present frame. -/
def Dev.ponBoundary (d : Dev) : Dev := (d.pon.map (fun e => e.1)).foldl (fun d t => (d.ponFragEnd t).ponSwitch t) d

/-- Upstream frames of a burst by their key index (R336): an EMPTY slot's frame is discarded; the first one on the new index
starts the 1 s of the old slot. -/
def Dev.ponIndex (d : Dev) (tid idx : Nat) : Dev :=
  let x := d.ponKey tid
  let here := if idx = 1 then x.key0.isSome else if idx = 2 then x.key1.isSome else false
  if !here then d.countCT .ponBadKeyIndex (d.chanOfTerm tid) tid
  else if x.oldSlot.isSome && x.zeroAt.isNone && x.use = some (idx - 1) then d.setPon tid { x with zeroAt := some (d.now + rawS 1) }
  else d

/-- PON_OLD_KEY_ZEROISE (R336). -/
def Dev.opPonOldKeyZeroise (d : Dev) (tid : Nat) : Dev :=
  let x := d.ponKey tid
  let wipe (s : Nat) (d : Dev) : Dev :=
    let y := { x with oldSlot := none, zeroAt := none, zeroFrame := none }
    (d.setPon tid (if s = 0 then { y with key0 := none } else { y with key1 := none })).ponBus 1 tid s
  match x.oldSlot, x.zeroAt, x.zeroFrame with
  | some s, some t, _ => wipe s (d.advanceTo t)
  | some s, none, some f => if frameGe d.frame f then wipe s d else wipe s (d.advanceTo (d.rawReach (d.frameNetNs (d.frameI + (f + 2 ^ 48 - d.frame) % 2 ^ 48) * 65536)))
  | _, _, _ => d

/-! ## Commands -/

/-- A body that acts on an existing terminal that is not being deleted (R505, R217). -/
def Dev.withTerm (d : Dev) (tid : Nat) (k : Terminal → Res) : Res :=
  if d.nTerms ≤ tid then d.fail stRange ofsTgt
  else match mget d.terms tid with
    | none => d.fail stState
    | some t => if t.delAt.isSome || d.notRun (tileOfChan t.ch) then d.fail stState else k t

/-- Persistent slot, OLT challenge, ONU challenge, authentication result of the terminal (log 15). -/
def bodyPonMsk (c : Cmd) (d : Dev) : Res :=
  d.withTerm c.tgt fun t =>
  if t.ch % 4 = 0 then d.fail stBadParam ofsTgt
  else match d.slotFor (c.u8 0) 4 with
    | .error st => d.fail st (ofsP 0)
    | .ok p =>
      let olt := c.bs 1 16
      let onu := c.bs 17 16
      if c.bs 33 16 ≠ bytesAt (Config.ponOnuResult p.key olt onu t.serial) 0 16 then d.fail stAuthFail (ofsP 33)
      else
        let msk := bytesAt (Config.ponMsk p.key (olt ++ onu) t.serial) 0 16
        let x := d.ponKey c.tgt
        let d := d.setPon c.tgt { x with mskKey := some msk, omciKey := some (bytesAt (Config.ponOmciKey msk) 0 16), kek := some (bytesAt (Config.ponKek msk) 0 16), mskSlot := c.u8 0 }
        let d := d.updTerm c.tgt (fun t => { t with msk := some (c.u8 0) })
        let d := if d.inService c.tgt && x.use.isNone then d.ponStart c.tgt else d
        d.ok (padBytes (bytesAt (Config.ponOltResult p.key olt onu t.serial) 0 16))

/-- CMD_PON_MSK (R335). -/
def specPonMsk : CmdSpec := { op := 0x0811, lenOk := lenIs 52, body := bodyPonMsk, scope := fun c d => d.mayActTerm c.snd c.tgt }

/-- Form (0 channel, 1 terminal), pon_rekey_s (log 15). -/
def bodyPonKeyCfg (c : Cmd) (d : Dev) : Res :=
  let s := c.u32 4
  if 1 < c.u8 0 then d.fail stBadParam (ofsP 0)
  else if s ≠ 0 && (s < 60 || 86400 < s) then d.fail stRange (ofsP 4)
  else if c.u8 0 = 0 then
    d.onChan c.tgt ofsTgt fun _ => Dev.ok { d with msec := { d.msec with ponRekey := mput d.msec.ponRekey c.tgt s } }
  else d.withTerm c.tgt fun _ => Dev.ok (d.setPon c.tgt { d.ponKey c.tgt with rekeyS := some s })

/-- CMD_PON_KEY_CFG (R336). -/
def specPonKeyCfg : CmdSpec :=
  { op := 0x0812, lenOk := lenIs 8, body := bodyPonKeyCfg, scope := fun c d => if c.u8 0 = 0 then c.snd.pkg else d.mayActTerm c.snd c.tgt }

def bodyPonKeyRoll (c : Cmd) (d : Dev) : Res :=
  d.withTerm c.tgt fun t =>
  if !d.inService c.tgt || (t.ch % 4 ≠ 0 && (d.ponKey c.tgt).kek.isNone) then d.fail stState else Dev.ok (d.ponStart c.tgt)

/-- CMD_PON_KEY_ROLL (R336). -/
def specPonKeyRoll : CmdSpec := { op := 0x0813, lenOk := lenIs 0, body := bodyPonKeyRoll, scope := fun c d => d.mayActTerm c.snd c.tgt }

/-- Slot states (0 EMPTY, 1 loaded), slot in use downstream and slot waiting (0xFF none) (log 15). -/
def bodyPonKeyStatus (c : Cmd) (d : Dev) : Res :=
  d.withTerm c.tgt fun _ =>
  let x := d.ponKey c.tgt
  d.ok (leBytes 1 (b2n x.key0.isSome) ++ leBytes 1 (b2n x.key1.isSome) ++ leBytes 1 (x.use.getD 255) ++ leBytes 1 (x.pendSlot.getD 255))

/-- CMD_PON_KEY_STATUS (R337). -/
def specPonKeyStatus : CmdSpec := { op := 0x0814, lenOk := lenIs 0, body := bodyPonKeyStatus, scope := fun c d => d.mayReadTerm c.snd c.tgt }

/-! ## Meanings -/

/-- CMD_PON_MSK (R335). -/
def execCmdPonMsk (p : Packet) (s : State) : Host.Outcome State Fault Refusal := live (Dev.runCommand specPonMsk p) s

/-- CMD_PON_KEY_CFG (R336). -/
def execCmdPonKeyCfg (p : Packet) (s : State) : Host.Outcome State Fault Refusal := live (Dev.runCommand specPonKeyCfg p) s

/-- CMD_PON_KEY_ROLL (R336). -/
def execCmdPonKeyRoll (p : Packet) (s : State) : Host.Outcome State Fault Refusal := live (Dev.runCommand specPonKeyRoll p) s

/-- CMD_PON_KEY_STATUS (R337). -/
def execCmdPonKeyStatus (p : Packet) (s : State) : Host.Outcome State Fault Refusal := live (Dev.runCommand specPonKeyStatus p) s

/-- ENCRYPTION_KEY (R334). -/
def execEncryptionKey (tid : Nat) (k : KeyMsg) (s : State) : Host.Outcome State Fault Refusal :=
  live (fun d => d.opEncryptionKey tid k) s

/-- ACKNOWLEDGE (R336). -/
def execAcknowledge (tid : Nat) (s : State) : Host.Outcome State Fault Refusal :=
  live (fun d => d.opAcknowledge tid) s

/-- PON_REKEY_TIMER (R336). -/
def execPonRekeyTimer (tid : Nat) (s : State) : Host.Outcome State Fault Refusal :=
  live (fun d => d.opPonRekeyTimer tid) s

/-- PON_KEY_RETRY (R336). -/
def execPonKeyRetry (tid : Nat) (s : State) : Host.Outcome State Fault Refusal :=
  live (fun d => d.opPonKeyRetry tid) s

/-- PON_OLD_KEY_ZEROISE (R336). -/
def execPonOldKeyZeroise (tid : Nat) (s : State) : Host.Outcome State Fault Refusal :=
  live (fun d => d.opPonOldKeyZeroise tid) s

end Sys2Proof.Machine
end

