-- ==== Sys2Proof/Machine/Tables.lean ====
section
/-!
DEFINITION. Exact-match tables, their entries and actions, learning and ageing, spread groups, mirror sessions, meters' settings,
and the commands of class 0x06 with CMD_METER_SET (chapter 10). The copies of a table are one list: every tile places alike, and
the 10 µs in which a change spreads are not shown (log 26).
-/

namespace Sys2Proof.Machine

/-! ## Actions (Table 10-3) and entries (R260) -/

def actBits (a : List Byte) : Nat := natAt a 0 2 % 4096
def actHas (a : List Byte) (bit : Nat) : Bool := bitN (actBits a) bit
def actKind (a : List Byte) : Nat := natAt a 2 1 % 8
def actClass (a : List Byte) : Nat := natAt a 2 1 / 8 % 8
def actTpid (a : List Byte) : Nat := natAt a 2 1 / 64
def actTarget (a : List Byte) : Nat := natAt a 4 4
def actSdom (a : List Byte) : Nat := natAt a 8 1
def actMirror (a : List Byte) : Nat := natAt a 9 1 % 16
def actPush (a : List Byte) : Nat := natAt a 10 4
def actMeter (a : List Byte) : Nat := natAt a 14 3 % 262144
def actCount (a : List Byte) : Nat := natAt a 17 3
def actList (a : List Byte) : Nat := natAt a 20 1

/-- An action with another forward target. -/
def actRetarget (a : List Byte) (t : Nat) : List Byte := bytesAt a 0 4 ++ leBytes 4 t ++ bytesAt a 8 16

/-- Whether a forward target lies outside the range of its kind (Table 10-3, R6, R505): 0 QUEUE, 1 AID, 2 UPLINK, 3 SPREAD,
4 CIRCUIT, 5 TELEGRAM, 6 EXCEPTION. -/
def Dev.fwdOut (d : Dev) (kind h : Nat) : Bool :=
  if kind = 0 then !d.queueOk h else if kind = 1 then d.nAllocs ≤ h else if kind = 2 then d.nSubs ≤ h else if kind = 3 then 128 ≤ h
  else if kind = 4 then d.nCircuits ≤ h else if kind = 5 then 64 ≤ h else 16 ≤ h

/-- Tile of a forward target, where the target lies on one tile and exists. -/
def Dev.fwdTile (d : Dev) (kind h : Nat) : Option Nat :=
  if kind = 0 then (mget d.queues h).map (fun _ => d.tileOfQueue h)
  else if kind = 1 then (mget d.allocs h).map (fun _ => d.tileOfAlloc h)
  else if kind = 2 then some (tileOfSub h)
  else if kind = 4 then (mget d.circuits h).map (fun x => d.tileOfTerm x.tid)
  else none

/-- Why an action is refused: reserved codes and double pushes or pops; a counter index above 65,535, a handle outside its range;
a target on a tile that is not in RUN (R261, R465, R505, R29). The target of a learn template of kind AID or UPLINK is no handle:
the ingress replaces it (R270). -/
def Dev.actBad (d : Dev) (a : List Byte) (template : Bool := false) : Nat :=
  let fwd := actHas a 0 && !(template && (actKind a = 1 || actKind a = 2))
  if (actHas a 2 && actHas a 4) || (actHas a 3 && actHas a 5) || actKind a = 7 || actTpid a = 3 then stBadParam
  else if (actHas a 7 && 65535 < actCount a) || (fwd && d.fwdOut (actKind a) (actTarget a)) || (actHas a 6 && d.nTiles ≤ actMeter a / 32768)
      || (actHas a 8 && actMirror a = 0) then stRange
  else if (fwd && (d.fwdTile (actKind a) (actTarget a)).any d.notRun) || (actHas a 6 && d.notRun (actMeter a / 32768)) then stState
  else stOk

/-- Why an owner is refused (Table 10-4): a handle outside the range of its kind (1 tree, 2 sub-port, 3 terminal), or on a tile that
is not in RUN. -/
def Dev.ownerBad (d : Dev) (kind h : Nat) : Nat :=
  if kind = 1 then (if d.nTrees ≤ h then stRange else if d.notRun (tileOfTree h) then stState else stOk)
  else if kind = 2 then (if d.nSubs ≤ h then stRange else if d.notRun (tileOfSub h) then stState else stOk)
  else if kind = 3 then (if d.nTerms ≤ h then stRange else if mhas d.terms h && d.notRun (d.tileOfTerm h) then stState else stOk)
  else stOk

/-- Metadata bytes of an entry (Table 10-4). -/
def TEntry.metaBytes (e : TEntry) (table : Nat) : List Byte :=
  leBytes 1 e.stamp ++ leBytes 1 (1 + 2 * b2n e.static + 4 * b2n e.learned) ++ leBytes 1 e.okind ++ leBytes 1 0
    ++ leBytes 2 e.owner ++ leBytes 1 table ++ leBytes 1 0

/-- Why an entry is refused: by its action, then by its owner. -/
def Dev.entryBad (d : Dev) (act md : List Byte) : Nat :=
  if d.actBad act ≠ stOk then d.actBad act else d.ownerBad (natAt md 2 1 % 4) (natAt md 4 2)

/-- The 64 bytes of an entry (R260). -/
def TEntry.bytes (e : TEntry) (table : Nat) : List Byte := e.key ++ e.act ++ e.metaBytes table

/-- An entry from its key, action and metadata; valid and the stamp are the device's (R262). -/
def TEntry.ofBytes (key act md : List Byte) : TEntry :=
  { key := key, act := act, static := bitN (natAt md 1 1) 1, learned := bitN (natAt md 1 1) 2, okind := natAt md 2 1 % 4,
    owner := natAt md 4 2 }

/-! ## Placement (R265 to R269) -/

def Table.buckets (t : Table) : Nat := 2 ^ t.n

/-- Both candidate buckets of a key (R265). -/
def Table.cand (t : Table) (key : List Byte) : Nat × Nat :=
  let h := (crc32c (leBytes 4 t.seed.toNat ++ key)).toNat
  let b1 := h % t.buckets
  (b1, b1 ^^^ ((h / 65536 % t.buckets) ||| 1))

/-- Tiles of the tile set. -/
def Table.tileList (t : Table) : List Nat := (List.range 8).filter (fun i => t.tiles.testBit i)

/-- Slot of the entry with a key, in its candidate buckets. -/
def Table.find (t : Table) (key : List Byte) : Option Nat :=
  let (b1, b2) := t.cand key
  (([0, 1, 2, 3].map (fun i => 4 * b1 + i)) ++ ([0, 1, 2, 3].map (fun i => 4 * b2 + i))).find? (fun s =>
    match mget t.slots s with | some e => e.key = key | none => false)

/-- First free slot of a bucket. -/
def Table.freeSlot (t : Table) (b : Nat) : Option Nat := ([0, 1, 2, 3].map (fun i => 4 * b + i)).find? (fun s => !mhas t.slots s)

/-- A move that frees a slot of a bucket: the slot freed and the free slot of its occupant's other bucket (R267 step 2). -/
def Table.moveOut (t : Table) (b : Nat) : Option (Nat × Nat) :=
  ([0, 1, 2, 3].map (fun i => 4 * b + i)).findSome? (fun s =>
    match mget t.slots s with
    | none => none
    | some e =>
      let (c1, c2) := t.cand e.key
      (t.freeSlot (if b = c1 then c2 else c1)).map (fun f => (s, f)))

/-- Position of a table's entry with a key in a tile's overflow store. -/
def Dev.ovfFind (d : Dev) (tile tab : Nat) (key : List Byte) : Option Nat :=
  ((d.clsTile tile).overflow.find? (fun e => e.2.1 = tab && e.2.2.key = key)).map (fun e => e.1)

/-- Entries of a table in the overflow stores of its tiles, each key once. -/
def Dev.ovfEntries (d : Dev) (tab : Nat) (t : Table) : List TEntry :=
  t.tileList.foldl (fun l i => l ++ (((d.clsTile i).overflow.filter (fun e => e.2.1 = tab)).map (fun e => e.2.2)).filter (fun e =>
    !l.any (fun x => x.key = e.key))) []

/-- The entry that some copy of a table holds under a key. -/
def Dev.tabAny (d : Dev) (tab : Nat) (t : Table) (key : List Byte) : Option TEntry :=
  match t.find key with
  | some s => mget t.slots s
  | none => (d.ovfEntries tab t).find? (fun e => e.key = key)

/-- Tiles of a set whose overflow store lacks a key, as a bit map. -/
def Dev.ovfLack (d : Dev) (tab : Nat) (t : Table) (key : List Byte) : Nat :=
  (t.tileList.filter (fun i => (d.ovfFind i tab key).isNone)).foldl (fun m i => m + 2 ^ i) 0

/-- The entry with a key as a tile finds it in its own copy (R25, R266). -/
def Dev.tabGet (d : Dev) (tab tile : Nat) (key : List Byte) : Option TEntry :=
  match mget d.tables tab with
  | none => none
  | some t =>
    match t.find key with
    | some s => (mget t.slots s).filter (fun e => !e.off.testBit tile)
    | none => ((d.clsTile tile).overflow.find? (fun e => e.2.1 = tab && e.2.2.key = key)).map (fun e => e.2.2)

/-- Changes the entry with a key on every tile. -/
def Dev.tabMod (d : Dev) (tab : Nat) (key : List Byte) (f : TEntry → TEntry) : Dev :=
  { d with
    tables := mmod d.tables tab (fun t => match t.find key with | some s => { t with slots := mmod t.slots s f } | none => t),
    cls := d.cls.map (fun (k, c) => (k, { c with overflow := c.overflow.map (fun (p, h, e) =>
      (p, h, if h = tab && e.key = key then f e else e)) })) }

/-- Removes the entry with a key on every tile. -/
def Dev.tabDel (d : Dev) (tab : Nat) (key : List Byte) : Dev :=
  { d with
    tables := mmod d.tables tab (fun t => match t.find key with | some s => { t with slots := mdel t.slots s } | none => t),
    cls := d.cls.map (fun (k, c) => (k, { c with overflow := c.overflow.filter (fun e => !(e.2.1 = tab && e.2.2.key = key)) })) }

/-- Lowest free position of a tile's overflow store. -/
def Dev.ovfFree (d : Dev) (tile : Nat) : Option Nat := lowestFree ((d.clsTile tile).overflow.map (fun e => e.1)) 0 8192

/-- Places an entry in the overflow store of each tile of the set (R267 step 3). -/
def Dev.ovfPut (d : Dev) (tab : Nat) (tiles : List Nat) (e : TEntry) : Dev :=
  tiles.foldl (fun d t => match d.ovfFree t with
    | some p => d.updCls t (fun c => { c with overflow := mput c.overflow p (tab, e) })
    | none => d) d

/-- Age of an entry in ticks (R272). -/
def Table.age (t : Table) (e : TEntry) : Nat := (t.epoch + 256 - e.stamp) % 256

/-- Whether a cursor is open on a table (R282). -/
def Dev.cursorOn (d : Dev) (tab : Nat) : Bool := d.cursors.any (fun c => c.2.table = tab)

/-- What an insert did. -/
inductive Placed where
  | failed | placed | replaced | evicted
  deriving DecidableEq, Repr

/-- Inserts or replaces an entry (R267): in place, a free slot, a move, the overflow store, a victim. -/
def Dev.tabInsert (d : Dev) (tab : Nat) (e : TEntry) (noEvict : Bool) : Placed × Dev :=
  match mget d.tables tab with
  | none => (.failed, d)
  | some t =>
    let e := { e with stamp := t.epoch }
    let (b1, b2) := t.cand e.key
    let putAt (d : Dev) (s : Nat) : Dev := { d with tables := mmod d.tables tab (fun t => { t with slots := mput t.slots s e }) }
    if (d.tabAny tab t e.key).isSome then
      let lack := if (t.find e.key).isSome then [] else t.tileList.filter (d.ovfLack tab t e.key).testBit
      (.replaced, (d.tabMod tab e.key (fun _ => e)).ovfPut tab lack e)
    else match t.freeSlot b1 <|> t.freeSlot b2 with
      | some s => (.placed, putAt d s)
      | none =>
        let mv := if d.cursorOn tab then none else t.moveOut b1 <|> t.moveOut b2
        match mv with
        | some (s, f) =>
          let d : Dev := { d with tables := mmod d.tables tab (fun t => match mget t.slots s with
            | some x => { t with slots := mput t.slots f x } | none => t) }
          (.placed, putAt d s)
        | none =>
          if t.tileList.all (fun i => (d.ovfFree i).isSome) then (.placed, d.ovfPut tab t.tileList e)
          else
            let vs := (([0, 1, 2, 3].map (fun i => 4 * b1 + i)) ++ ([0, 1, 2, 3].map (fun i => 4 * b2 + i))).filterMap (fun s =>
              match mget t.slots s with | some x => if x.static then none else some (s, t.age x) | none => none)
            match vs with
            | [] => (.failed, d)
            | v :: _ =>
              if noEvict then (.failed, d)
              else if d.victimRandom tab then
                let (i, d) := d.fresh
                (.evicted, (putAt d ((vs.getD (Config.freeNat i % vs.length) v).1)).count .evicted tab)
              else
                let oldest := (vs.map (fun x => x.2)).foldl max 0
                (.evicted, (putAt d (((vs.find? (fun x => x.2 = oldest)).getD v).1)).count .evicted tab)

/-- Tile of an owner (R20, R274): the lowest tile of the set where there is none. -/
def Dev.homeTile (d : Dev) (t : Table) (e : TEntry) : Nat :=
  let lowest := nth t.tileList 0
  let h := if e.okind = 1 then tileOfTree e.owner else if e.okind = 2 then tileOfSub e.owner
           else if e.okind = 3 then d.tileOfTerm e.owner else lowest
  if t.tiles.testBit h then h else lowest

/-- The entry with a key as its home tile holds it (R274, R281). -/
def Dev.tabHome (d : Dev) (tab : Nat) (t : Table) (key : List Byte) : Option TEntry :=
  (d.tabAny tab t key).bind (fun e => d.tabGet tab (d.homeTile t e) key)

/-- A host change of a key in this frame (R275). -/
def Dev.hostChange (d : Dev) (tab : Nat) (key : List Byte) : Dev :=
  { d with tables := mmod d.tables tab (fun t => { t with hostKeys := (key, d.frame) :: t.hostKeys.filter (fun x => x.2 = d.frame) }) }

/-- Position of an entry as TAC_INDEX names it, on its home tile. -/
def Dev.tabIndex (d : Dev) (tab : Nat) (key : List Byte) : Nat :=
  match mget d.tables tab with
  | none => 0
  | some t =>
    match d.tabAny tab t key with
    | none => 0
    | some e =>
      let h := d.homeTile t e
      match t.find key with
      | some s => h * 2 ^ 28 + s
      | none => h * 2 ^ 28 + 2 ^ 27 + 4 * (d.ovfFind h tab key).getD 0

/-! ## Learning (R270, R271) -/

/-- Deletes the learned entries that an owner holds in a table (R276). -/
def Dev.flushOwner (d : Dev) (tab okind owner : Nat) : Dev :=
  let gone (e : TEntry) : Bool := e.learned && !e.static && e.okind = okind && e.owner = owner
  { d with
    tables := mmod d.tables tab (fun t => { t with slots := t.slots.filter (fun s => !gone s.2) }),
    cls := d.cls.map (fun (k, c) => (k, { c with overflow := c.overflow.filter (fun e => !(e.2.1 = tab && gone e.2.2)) })) }

/-- Whether an entry stands against a learn of its key by a tile: a host's entry, one learned later, or one that a lower tile learned at
the same instant (R274). -/
def Dev.learnStands (d : Dev) (t : Table) (x : TEntry) (atT : Raw) (tile : Nat) : Bool :=
  !x.learned || (if x.seq = atT then d.homeTile t x ≤ tile else reached x.seq atT)

/-- LEARN_APPLY (R270, R274, R275): the home tile inserts the oldest learn of its queue. An entry learned later by another tile
stands, of two learned at the same instant that of the lower tile; a host change of the key in this frame stands too. -/
def Dev.opLearnApply (d : Dev) (tile : Nat) : Dev :=
  match (d.clsTile tile).learns with
  | [] => d
  | l :: ls =>
    if !d.tileRun tile then d
    else
      let d := d.updCls tile (fun c => { c with learns := ls })
      let e : TEntry := { key := l.key, act := l.act, learned := true, okind := l.okind, owner := l.owner, seq := l.atT }
      match mget d.tables l.table with
      | none => d
      | some t =>
        if t.hostKeys.any (fun x => x.1 = l.key && x.2 = d.frame) || (d.tabAny l.table t l.key).any (fun x => d.learnStands t x l.atT tile) then d
        else match d.tabInsert l.table e false with
          | (.failed, d) => d.count .learnDrop l.table
          | (_, d) => d.count .learned l.table

/-- TABLE_UPDATE_RX (R274): a change from the home tile; of two learns the later raw timestamp stands, and of equal ones that of
the lower tile. -/
def Dev.opTableUpdateRx (d : Dev) (tile : Nat) (u : TableUpdate) : Dev :=
  match mget d.tables u.table with
  | none => d
  | some t =>
    if !d.tileRun tile || !t.tiles.testBit tile then d
    else
      let e : TEntry := { key := u.key, act := u.act, learned := true, okind := u.okind, owner := u.owner, seq := u.stamp }
      if (d.tabAny u.table t u.key).any (fun x => d.learnStands t x u.stamp u.tileFrom) then d else (d.tabInsert u.table e false).2

/-! ## Ageing (R272, R273) -/

/-- A write of CLS_TABLE_AGE: it applies from the next tick of the table, and at once where ageing stands still, which has none (log 26). -/
def Dev.setAge (d : Dev) (t v : Nat) : Dev :=
  let still := d.ageTickMs t = 0
  let d := d.setReg (0x600 + 4 * t) v
  if still then { d with tables := mmod d.tables t (fun x => { x with cfg := BitVec.ofNat 32 v, sweepAt := d.now }) } else d

/-- Moves the overflow entries of a table to free slots of their candidate buckets (R269). -/
def Dev.ovfReturn (d : Dev) (tab : Nat) : Dev :=
  match mget d.tables tab with
  | none => d
  | some t =>
    if d.cursorOn tab then d
    else
      (d.ovfEntries tab t).foldl (fun d e =>
        match mget d.tables tab with
        | none => d
        | some t =>
          let (b1, b2) := t.cand e.key
          match t.freeSlot b1 <|> t.freeSlot b2 with
          | none => d
          | some s =>
            let lack := d.ovfLack tab t e.key
            let d : Dev := { d with cls := d.cls.map (fun (k, c) =>
              (k, { c with overflow := c.overflow.filter (fun x => !(x.2.1 = tab && x.2.2.key = e.key)) })) }
            { d with tables := mmod d.tables tab (fun t => { t with slots := mput t.slots s { e with off := lack } }) }) d

/-- Whether a sweep removes an entry (R272): it is not static, its age has come to the limit, and the ager of its home tile runs (R274). -/
def Dev.tooOld (d : Dev) (t : Table) (e : TEntry) : Bool :=
  !e.static && max 1 (fieldN t.cfg.toNat 15 8) ≤ t.age e && d.tileRun (d.homeTile t e)

/-- AGEING_SWEEP (R269, R272): a tick of a table. -/
def Dev.opAgeingSweep (d : Dev) (table : Nat) : Dev :=
  match mget d.tables table with
  | none => d
  | some t =>
    if d.ageTickMs table = 0 || !d.ready then d
    else
      let d := d.advanceTo (t.sweepAt + rawMs (d.ageTickMs table))
      let t := { t with epoch := (t.epoch + 1) % 256, sweepAt := d.now, cfg := BitVec.ofNat 32 (d.reg (0x600 + 4 * table)) }
      let old (e : TEntry) : Bool := d.tooOld t e
      let n := (t.slots.filter (fun s => old s.2)).length + ((d.ovfEntries table t).filter old).length
      let d : Dev := { d with
        tables := mput d.tables table { t with slots := t.slots.filter (fun s => !old s.2) },
        cls := d.cls.map (fun (k, c) => (k, { c with overflow := c.overflow.filter (fun e => !(e.2.1 = table && old e.2.2)) })) }
      (if n = 0 then d else d.count .aged table n).ovfReturn table

/-! ## Cursors (R282) -/

/-- Entries of a table in the order of a walk: position and entry of the home-tile copy. -/
def Dev.walk (d : Dev) (tab : Nat) : List (Nat × TEntry) :=
  match mget d.tables tab with
  | none => []
  | some t => (t.slots.filter (fun s => !s.2.off.testBit (d.homeTile t s.2))) ++ t.tileList.flatMap (fun i =>
      ((d.clsTile i).overflow.filter (fun e => e.2.1 = tab && d.homeTile t e.2.2 = i)).map (fun e => (2 ^ 20 + 8192 * i + e.1, e.2.2)))

/-- Whether a key matches a value under a mask (R281). -/
def maskMatch (key value mask : List Byte) : Bool :=
  (List.range 32).all (fun i => key.getD i 0 &&& mask.getD i 0 = value.getD i 0 &&& mask.getD i 0)

/-- The next matches of a walk: at most 56, and whether more follow. -/
def Dev.matches56 (d : Dev) (c : Cursor) : List (Nat × TEntry) × Bool :=
  let ms := (d.walk c.table).filter (fun x => c.pos ≤ x.1 && maskMatch x.2.key c.value c.mask)
  (ms.take 56, 56 < ms.length)

/-- Reply of a search: cursor, count, flag 0 set when no more follow, then the entries (log 15). -/
def matchBody (cur : Nat) (tab : Nat) (ms : List (Nat × TEntry)) (more : Bool) : List Byte :=
  leBytes 1 cur ++ leBytes 1 ms.length ++ leBytes 1 (b2n (!more)) ++ leBytes 1 0 ++ ms.flatMap (fun x => x.2.bytes tab)

/-- CURSOR_TIMEOUT (R282). -/
def Dev.opCursorTimeout (d : Dev) (cursor : Nat) : Dev :=
  match mget d.cursors cursor with
  | none => d
  | some c => let d := d.advanceTo (c.lastAt + rawS 10); { d with cursors := mdel d.cursors cursor }

/-! ## Spread groups (R277, R278) -/

/-- Whether a member of a group is up: an exception queue always is. -/
def Dev.memberUp (d : Dev) (m : Nat × Nat) : Bool := m.1 = 1 || (d.sub m.2).up

/-- Tile of an exception member of a spread group: 0-15 are the queues of the classifying tile, 128 + 16 x tile + queue those of a tile
(log 15). -/
def memberTile (m : Nat) : Option Nat := if m < 128 then none else some ((m - 128) / 16)

/-- The indirection table in force: entries of members that are down go round the members that are up; 64 stands for none. -/
def Dev.liveTable (d : Dev) (g : SpreadGroup) : List Nat :=
  let ups := (List.range g.members.length).filter (fun i => d.memberUp (g.members.getD i (0, 0)))
  (g.indir.foldl (fun (acc : List Nat × Nat) i =>
    if d.memberUp (g.members.getD i (0, 0)) then (i :: acc.1, acc.2)
    else if ups.isEmpty then (64 :: acc.1, acc.2)
    else (nth ups (acc.2 % ups.length) :: acc.1, acc.2 + 1)) ([], 0)).1.reverse

/-- Points every group at the members that are up. -/
def Dev.respread (d : Dev) : Dev := { d with spreads := d.spreads.map (fun (k, g) => (k, { g with live := d.liveTable g })) }

/-- A sub-port goes down: spread entries repointed, entries it owns flushed where flush_on_down is set (R276, R278). -/
def Dev.subDown (d : Dev) (p : Nat) : Dev :=
  if !(d.sub p).up then d
  else
    let d := (d.updSub p (fun x => { x with up := false })).respread
    (d.tables.map (fun e => e.1)).foldl (fun d t => if d.flushOnDown t then d.flushOwner t 2 p else d) d

/-- SUBPORT_DOWN (R276, R278). -/
def Dev.opSubportDown (d : Dev) (sub : Nat) : Dev := if sub < d.nSubs then d.subDown sub else d

/-- SUBPORT_UP (R278): a line of an enabled sub-port comes up. -/
def Dev.opSubportUp (d : Dev) (sub : Nat) : Dev :=
  if sub < d.nSubs && (d.sub sub).enabled && d.tileRun (tileOfSub sub) then (d.updSub sub (fun x => { x with up := true })).respread else d

/-! ## Table access window (R283) -/

/-- Whether every tile of a table's set is in RUN (R29, R279). -/
def Dev.tabRun (d : Dev) (t : Table) : Bool := t.tileList.all d.tileRun

/-- A window operation begins: busy, and what TAC_OP_DONE will show. A write while busy is a collision. -/
def Dev.tacGo (d : Dev) (table : Nat) (f : Dev → Table → Tac → Tac × Dev) : Dev :=
  if d.variant = .thz8 || !d.ready then d
  else if d.tac.busy then { d with tac := { d.tac with collision := true } }
  else
    let t0 : Tac := { d.tac with found := false, replaced := false, evicted := false, result := stOk }
    let (r, d) := match mget d.tables table with
      | none => ({ t0 with result := stRange }, d)
      | some t => if !d.tabRun t then ({ t0 with result := stState }, d) else f d t t0
    { d with tac := { d.tac with busy := true }, tacDone := r }

/-- Inserts the window's entry under a key. -/
def Dev.tacPut (d : Dev) (table : Nat) (key : List Byte) (noEvict index : Bool) (x : Tac) : Tac × Dev :=
  if d.entryBad x.act x.metad ≠ stOk then ({ x with result := d.entryBad x.act x.metad }, d)
  else match d.tabInsert table (TEntry.ofBytes key x.act x.metad) noEvict with
    | (.failed, d) => ({ x with result := stNoResource }, d)
    | (r, d) =>
      let d := d.hostChange table key
      ({ x with replaced := r = .replaced, evicted := r = .evicted,
                index := if index then BitVec.ofNat 32 (d.tabIndex table key) else x.index }, d)

/-- INSERT (R283). -/
def Dev.opInsert (d : Dev) (table : Nat) (noEvict : Bool) : Dev := d.tacGo table fun d _ x => d.tacPut table x.key noEvict true x

/-- DELETE (R283). -/
def Dev.opDelete (d : Dev) (table : Nat) : Dev :=
  d.tacGo table fun d t x =>
    match d.tabAny table t x.key with
    | none => ({ x with result := stRange }, d)
    | some _ => ({ x with found := true }, (d.tabDel table x.key).hostChange table x.key)

/-- LOOKUP (R283). -/
def Dev.opLookup (d : Dev) (table : Nat) : Dev :=
  d.tacGo table fun d t x =>
    match d.tabHome table t x.key with
    | none => ({ x with result := stRange }, d)
    | some e => ({ x with found := true, act := e.act, metad := e.metaBytes table, index := BitVec.ofNat 32 (d.tabIndex table x.key) }, d)

/-- The entry that TAC_INDEX names, or the status that refuses it. -/
def Dev.tacSlot (d : Dev) (table : Nat) (t : Table) (x : Tac) : Option TEntry :=
  let v := x.index.toNat
  let tile := fieldN v 30 28
  if !t.tiles.testBit tile then none
  else if bitN v 27 then
    (match mget (d.clsTile tile).overflow (fieldN v 14 2) with
     | some (h, e) => if h = table then some e else none
     | none => none)
  else (mget t.slots (fieldN v 17 0)).filter (fun e => !e.off.testBit tile)

/-- READ_INDEX (R283): an empty slot gives ST_RANGE. -/
def Dev.opReadIndex (d : Dev) (table : Nat) : Dev :=
  d.tacGo table fun d t x =>
    match d.tacSlot table t x with
    | none => ({ x with result := stRange }, d)
    | some e => ({ x with found := true, key := e.key, act := e.act, metad := e.metaBytes table }, d)

/-- WRITE_INDEX (R283). -/
def Dev.opWriteIndex (d : Dev) (table : Nat) : Dev :=
  d.tacGo table fun d t x =>
    match d.tacSlot table t x with
    | none => ({ x with result := stRange }, d)
    | some e => d.tacPut table e.key true false x

/-- TAC_OP_DONE (R283). -/
def Dev.opTacOpDone (d : Dev) : Dev :=
  if d.tac.busy then { d with tac := { d.tacDone with busy := false, collision := d.tac.collision } } else d

/-! ## Commands of class 0x06 -/

/-- Whether a sender may act on a table (R280). -/
def Dev.mayTable (d : Dev) (s : Sender) (tab : Nat) : Bool :=
  s.pkg || (match mget d.tables tab with | some t => t.owner < 256 && s.dom t.owner | none => true)

/-- A body that acts on an existing table whose tiles run (R29). -/
def Dev.onTable (d : Dev) (tab : Nat) (f : Table → Res) : Res :=
  if 64 ≤ tab then d.fail stRange ofsTgt
  else match mget d.tables tab with
    | none => d.fail stState
    | some t => if d.tabRun t then f t else d.fail stState

/-- The table head (count in 3 bytes, flags) and the records, inline or after a bulk head (R281, log 15). -/
def Cmd.records (c : Cmd) : Nat × Nat × List Byte :=
  let ps := if c.p.bulkFlag then c.params.drop 16 else c.params
  (natAt ps 0 3, natAt ps 3 1, ps.drop 4)

/-- Applies a record operation in order up to the first that fails: status, records applied. -/
def eachRecord (f : Dev → List Byte → Nat × List Byte × Dev) : Nat → List Byte → Nat → List Byte → Dev → Nat × Nat × List Byte × Dev
  | 0, _, n, out, d => (stOk, n, out, d)
  | k + 1, bs, n, out, d =>
    match f d (bytesAt bs 0 64) with
    | (st, o, d') => if st ≠ stOk then (st, n, out, d) else eachRecord f k (bs.drop 64) (n + 1) (out ++ o) d'

/-- Runs a record operation over the records of a command. -/
def Dev.tabRecords (d : Dev) (c : Cmd) (f : Dev → List Byte → Nat × List Byte × Dev) : Res :=
  d.onTable c.tgt fun _ =>
  let (n, _, bs) := c.records
  if n < 1 || (if c.p.bulkFlag then 65536 < n else 59 < n) then d.fail stRange (ofsP (if c.p.bulkFlag then 16 else 0))
  else if bs.length ≠ 64 * n then d.fail stBadLength 10
  else match eachRecord f n bs 0 [] d with
    | (st, k, out, d') => { dev := d', st := st, body := out, applied := if n = k then 0 else k, ofs := if st = stOk || c.p.bulkFlag then 0xFFFF else ofsP (4 + 64 * k) }

/-- Length of a command that carries records. -/
def lenRecords : Packet → List Byte → Bool := fun _ ps => ps.length = 4 + 64 * natAt ps 0 3 && natAt ps 0 3 < 60

/-- Inserts the entry of one record (R267). -/
def Dev.insertRec (tab : Nat) (noEvict : Bool) (d : Dev) (r : List Byte) : Nat × List Byte × Dev :=
  let act := bytesAt r 32 24
  if d.entryBad act (bytesAt r 56 8) ≠ stOk then (d.entryBad act (bytesAt r 56 8), [], d)
  else match d.tabInsert tab (TEntry.ofBytes (bytesAt r 0 32) act (bytesAt r 56 8)) noEvict with
    | (.failed, d) => (stNoResource, [], d)
    | (_, d) => (stOk, [], d.hostChange tab (bytesAt r 0 32))

def bodyTableInsert (c : Cmd) (d : Dev) : Res := d.tabRecords c (Dev.insertRec c.tgt (bitN c.records.2.1 0))

/-- CMD_TABLE_INSERT (R267, R281). -/
def specTableInsert : CmdSpec :=
  { op := 0x0601, bulk := true, lenOk := lenRecords, body := bodyTableInsert, scope := fun c d => d.mayTable c.snd c.tgt }

/-- Deletes the entry with the key of one record. -/
def Dev.deleteRec (tab : Nat) (d : Dev) (r : List Byte) : Nat × List Byte × Dev :=
  match mget d.tables tab with
  | none => (stState, [], d)
  | some t =>
    let key := bytesAt r 0 32
    if (d.tabAny tab t key).isSome then (stOk, [], (d.tabDel tab key).hostChange tab key) else (stRange, [], d)

def bodyTableDelete (c : Cmd) (d : Dev) : Res := d.tabRecords c (Dev.deleteRec c.tgt)

/-- CMD_TABLE_DELETE (R281). -/
def specTableDelete : CmdSpec :=
  { op := 0x0602, bulk := true, lenOk := lenRecords, body := bodyTableDelete, scope := fun c d => d.mayTable c.snd c.tgt }

/-- Answers the entry with the key of one record. -/
def Dev.lookupRec (tab : Nat) (d : Dev) (r : List Byte) : Nat × List Byte × Dev :=
  match mget d.tables tab with
  | none => (stState, [], d)
  | some t => match d.tabHome tab t (bytesAt r 0 32) with
    | some e => (stOk, e.bytes tab, d)
    | none => (stRange, [], d)

def bodyTableLookup (c : Cmd) (d : Dev) : Res := d.tabRecords c (Dev.lookupRec c.tgt)

/-- CMD_TABLE_LOOKUP (R281). -/
def specTableLookup : CmdSpec :=
  { op := 0x0603, bulk := true, lenOk := lenRecords, body := bodyTableLookup, scope := fun c d => d.mayTable c.snd c.tgt }

/-- Value and mask (R281). -/
def bodyTableSearch (c : Cmd) (d : Dev) : Res :=
  d.onTable c.tgt fun _ =>
  let cur : Cursor := { table := c.tgt, value := c.bs 0 32, mask := c.bs 32 32, lastAt := d.now }
  match lowestFree (d.cursors.map (fun e => e.1)) 0 4 with
  | none => d.fail stBusy
  | some k =>
    let (ms, more) := d.matches56 cur
    let pos := match ms.getLast? with | some x => x.1 + 1 | none => 0
    let d : Dev := if more then { d with cursors := mput d.cursors k { cur with pos := pos } } else d
    d.ok (matchBody k c.tgt ms more)

/-- CMD_TABLE_SEARCH (R282). -/
def specTableSearch : CmdSpec :=
  { op := 0x0604, lenOk := lenIs 64, body := bodyTableSearch, scope := fun c d => d.mayTable c.snd c.tgt }

def bodyTableNext (c : Cmd) (d : Dev) : Res :=
  if 4 ≤ c.tgt then d.fail stRange ofsTgt
  else match mget d.cursors c.tgt with
    | none => d.fail stState
    | some cur =>
      d.onTable cur.table fun _ =>
      let (ms, more) := d.matches56 cur
      let pos := match ms.getLast? with | some x => x.1 + 1 | none => cur.pos
      let d : Dev := { d with cursors := if more then mput d.cursors c.tgt { cur with pos := pos, lastAt := d.now } else mdel d.cursors c.tgt }
      d.ok (matchBody c.tgt cur.table ms more)

/-- CMD_TABLE_NEXT (R282). -/
def specTableNext : CmdSpec :=
  { op := 0x0605, lenOk := lenIs 0, body := bodyTableNext,
    scope := fun c d => match mget d.cursors c.tgt with | some cur => d.mayTable c.snd cur.table | none => true }

/-- Owner kind and handle; the target is a table, or 0xFFFF_FFFF for all of them (log 15). -/
def bodyTableFlushPort (c : Cmd) (d : Dev) : Res :=
  let all := c.tgt = 0xFFFFFFFF
  if 3 < c.u8 0 then d.fail stBadParam (ofsP 0)
  else if d.ownerBad (c.u8 0) (c.u16 2) ≠ stOk then d.fail (d.ownerBad (c.u8 0) (c.u16 2)) (ofsP 2)
  else if all then
    if d.tables.any (fun e => !d.tabRun e.2) then d.fail stState
    else ((d.tables.map (fun e => e.1)).foldl (fun (d : Dev) t => d.flushOwner t (c.u8 0) (c.u16 2)) d).accepted stAccepted .flushPort 0
  else d.onTable c.tgt fun _ => (d.flushOwner c.tgt (c.u8 0) (c.u16 2)).accepted stAccepted .flushPort 0

/-- CMD_TABLE_FLUSH_PORT (R276). -/
def specTableFlushPort : CmdSpec :=
  { op := 0x0606, lenOk := lenIs 4, body := bodyTableFlushPort,
    scope := fun c d => if c.tgt = 0xFFFFFFFF then c.snd.pkg else d.mayTable c.snd c.tgt }

/-- FLUSH_PORT_DONE (R276). -/
def Dev.opFlushPortDone (d : Dev) : Dev := d.complete .flushPort 0 stOk

/-- Buckets of a tile given to no table (R264). -/
def Dev.bucketsFree (d : Dev) (tile : Nat) : Nat :=
  65536 - ((d.tables.filter (fun e => e.2.tiles.testBit tile)).map (fun e => e.2.buckets)).foldl (· + ·) 0

/-- Action (0 create, 1 change, 2 destroy), tile set, n, seed, owner SDOM, and the word of CLS_TABLE_AGE (log 15). -/
def bodyTableConfig (c : Cmd) (d : Dev) : Res :=
  let set := c.u8 1
  let t : Table := { tiles := set, n := c.u8 2, seed := BitVec.ofNat 32 (c.u32 4), owner := c.u16 8, sweepAt := d.now, cfg := BitVec.ofNat 32 (d.reg (0x600 + 4 * c.tgt)) }
  if 64 ≤ c.tgt then d.fail stRange ofsTgt
  else if 2 < c.u8 0 then d.fail stBadParam (ofsP 0)
  else if c.u8 0 = 1 then d.onTable c.tgt fun _ => Dev.ok (d.setAge c.tgt (c.u32 12))
  else if c.u8 0 = 2 then
    d.onTable c.tgt fun _ =>
    if d.profiles.any (fun e => e.2.table = c.tgt) then d.fail stState
    else Dev.ok { d with
      tables := mdel d.tables c.tgt, cursors := d.cursors.filter (fun e => e.2.table ≠ c.tgt),
      cls := d.cls.map (fun (k, x) => (k, { x with overflow := x.overflow.filter (fun e => e.2.1 ≠ c.tgt),
                                                   learns := x.learns.filter (fun l => l.table ≠ c.tgt) })) }
  else if set = 0 || 2 ^ d.nTiles ≤ set then d.fail stRange (ofsP 1)
  else if t.n < 4 || 16 < t.n then d.fail stRange (ofsP 2)
  else if 255 < t.owner && t.owner ≠ 0xFFFF then d.fail stRange (ofsP 8)
  else if mhas d.tables c.tgt || !d.tabRun t then d.fail stState
  else if t.tileList.any (fun i => d.bucketsFree i < t.buckets) then d.fail stNoResource
  else if c.u32 4 = 0 then
    let (i, d) := d.fresh
    Dev.ok { d with tables := mput d.tables c.tgt { t with seed := BitVec.ofNat 32 (Config.freeNat i) } }
  else Dev.ok { d with tables := mput d.tables c.tgt t }

/-- CMD_TABLE_CONFIG (R264). -/
def specTableConfig : CmdSpec :=
  { op := 0x0607, lenOk := lenIs 16, body := bodyTableConfig,
    scope := fun c d => if c.u8 0 = 0 then c.snd.pkg || (c.u16 8 < 256 && c.snd.dom (c.u16 8)) else d.mayTable c.snd c.tgt }

/-- Object of the per-tile counters of a table. -/
def tabTileObj (tile tab : Nat) : Nat := 64 * tile + tab

def bodyTableStatus (c : Cmd) (d : Dev) : Res :=
  d.onTable c.tgt fun t =>
  let sum (k : Cnt) : Nat := (t.tileList.map (fun i => d.cntVal k (tabTileObj i c.tgt))).foldl (· + ·) 0
  let ovf := (d.ovfEntries c.tgt t).length
  d.ok (leBytes 4 (t.slots.length + ovf) ++ leBytes 2 ovf ++ leBytes 2 0 ++ leBytes 8 (sum .lookups) ++ leBytes 8 (sum .hits)
    ++ [Cnt.learned, Cnt.learnDrop, Cnt.moves, Cnt.staticViolation, Cnt.aged, Cnt.evicted].flatMap (fun k => leBytes 8 (d.cntVal k c.tgt)))

/-- CMD_TABLE_STATUS (R281). -/
def specTableStatus : CmdSpec :=
  { op := 0x0608, lenOk := lenIs 0, body := bodyTableStatus, scope := fun c d => d.mayTable c.snd c.tgt }

/-- Bytes of a field code (Table 10-2). -/
def fieldLen (c : Nat) : Option Nat :=
  if c = 1 then some 4 else if 2 ≤ c && c ≤ 4 then some 2 else if c = 5 then some 1 else if c = 6 then some 3
  else if c = 7 || c = 8 then some 6 else if 9 ≤ c && c ≤ 11 then some 2 else if 12 ≤ c && c ≤ 17 then some 4
  else if c = 18 || c = 19 then some 16 else if c = 20 || c = 21 then some 1 else if c = 22 || c = 23 then some 2
  else if c = 24 then some 8 else if c = 25 then some 1 else if c = 26 then some 2 else if c = 27 then some 1 else none

/-- An extractor from its 4 bytes (R255): field, key offset, field offset, length, mask. -/
def extOf (b0 b1 b2 b3 : Nat) : Nat × Nat × Nat × Nat × Nat := (b0, b1 % 32, b2 / 16, b2 % 16 + 1, b3)

/-- Whether extractors stay inside the key and their fields and do not overlap (R253, R255). -/
def extsOk (es : List (Nat × Nat × Nat × Nat × Nat)) : Bool :=
  es.all (fun e => e.2.1 + e.2.2.2.1 ≤ 32 && (match fieldLen e.1 with | some n => e.2.2.1 + e.2.2.2.1 ≤ n | none => false))
    && (let bytes := es.flatMap (fun e => (List.range e.2.2.2.1).map (· + e.2.1)); bytes.eraseDups.length = bytes.length)

/-- Table, number of extractors n, n extractors at 4, flags (learn), template (log 15). -/
def bodyKeyProfile (c : Cmd) (d : Dev) : Res :=
  let n := c.u8 1
  let es := (List.range n).map (fun i => extOf (c.u8 (4 + 4 * i)) (c.u8 (5 + 4 * i)) (c.u8 (6 + 4 * i)) (c.u8 (7 + 4 * i)))
  let p : KeyProfile := { table := c.u8 0, exts := es, learn := c.bit (4 + 4 * n) 0, tmpl := c.bs (8 + 4 * n) 24 }
  if 64 ≤ c.tgt then d.fail stRange ofsTgt
  else if 16 < n then d.fail stRange (ofsP 1)
  else if 64 ≤ p.table then d.fail stRange (ofsP 0)
  else if !extsOk es then d.fail stBadParam (ofsP 4)
  else if p.learn && d.actBad p.tmpl true ≠ stOk then d.fail (d.actBad p.tmpl true) (ofsP (8 + 4 * n))
  else d.onTable p.table fun _ => Dev.ok { d with profiles := mput d.profiles c.tgt p }

/-- CMD_KEY_PROFILE (R255). -/
def specKeyProfile : CmdSpec :=
  { op := 0x0609, lenOk := fun _ ps => ps.length = 32 + 4 * natAt ps 1 1, body := bodyKeyProfile, scope := fun c d => d.mayTable c.snd (c.u8 0) }

/-- Number of profiles n, eight profile bytes of which n count, default action at 12 (log 15). -/
def bodyLookupList (c : Cmd) (d : Dev) : Res :=
  let n := c.u8 0
  let ps := (List.range n).map (fun i => c.u8 (1 + i))
  if 256 ≤ c.tgt then d.fail stRange ofsTgt
  else if n < 1 || 8 < n then d.fail stRange (ofsP 0)
  else if ps.any (fun p => 64 ≤ p) then d.fail stRange (ofsP 1)
  else if d.actBad (c.bs 12 24) ≠ stOk then d.fail (d.actBad (c.bs 12 24)) (ofsP 12)
  else if ps.any (fun p => !mhas d.profiles p) then d.fail stState
  else Dev.ok { d with lookups := mput d.lookups c.tgt { profiles := ps, dflt := c.bs 12 24 } }

/-- CMD_LOOKUP_LIST (R256). -/
def specLookupList : CmdSpec :=
  { op := 0x060A, lenOk := lenIs 36, body := bodyLookupList,
    scope := fun c d => ((List.range (c.u8 0)).map (fun i => c.u8 (1 + i))).all (fun p =>
      match mget d.profiles p with | some k => d.mayTable c.snd k.table | none => true) }

/-- Bytes that a bit of a spread group's field set selects, in the order of R277. -/
def spreadLens : List Nat := [4, 4, 16, 16, 2, 2, 6, 6, 2, 4, 4, 4, 4, 2]

/-- Members n, n pairs of kind and handle, then the indirection table, the field set and the key (log 15). -/
def bodySpreadGroup (c : Cmd) (d : Dev) : Res :=
  let n := c.u8 0
  let m := pad4 (2 + 2 * n)
  let ms := (List.range n).map (fun i => (c.u8 (2 + 2 * i), c.u8 (3 + 2 * i)))
  let ind := (c.bs m 512).map (fun b => b.toNat)
  let fs := c.u16 (m + 512)
  let g : SpreadGroup := { members := ms, indir := ind, fields := fs, key := c.bs (m + 514) 40 }
  if 128 ≤ c.tgt then d.fail stRange ofsTgt
  else if n < 1 || 64 < n then d.fail stRange (ofsP 0)
  else if ms.any (fun x => 1 < x.1) then d.fail stBadParam (ofsP 2)
  else if ms.any (fun x => if x.1 = 0 then d.nSubs ≤ x.2 else match memberTile x.2 with | none => 15 < x.2 | some t => d.nTiles ≤ t) then d.fail stRange (ofsP 2)
  else if ind.any (fun i => n ≤ i) then d.fail stRange (ofsP m)
  else if 36 < ((spreadLens.zipIdx).map (fun (l, i) => if fs.testBit i then l else 0)).foldl (· + ·) 0 then d.fail stBadParam (ofsP (m + 512))
  else if ms.any (fun x => if x.1 = 0 then d.notRun (tileOfSub x.2) else (memberTile x.2).any d.notRun) then d.fail stState
  else Dev.ok { d with spreads := mput d.spreads c.tgt { g with live := d.liveTable g } }

/-- CMD_SPREAD_GROUP (R277). -/
def specSpreadGroup : CmdSpec :=
  { op := 0x060B, lenOk := fun _ ps => ps.length = pad4 (pad4 (2 + 2 * natAt ps 0 1) + 554), body := bodySpreadGroup }

/-- Forward kind, target, truncation length (log 15). -/
def bodyMirrorSession (c : Cmd) (d : Dev) : Res :=
  let k := c.u8 0
  let tr := c.u16 8
  if c.tgt < 1 || 15 < c.tgt then d.fail stRange ofsTgt
  else if k ≠ 0 && k ≠ 2 && k ≠ 6 then d.fail stBadParam (ofsP 0)
  else if d.fwdOut k (c.u32 4) then d.fail stRange (ofsP 4)
  else if (d.fwdTile k (c.u32 4)).any d.notRun then d.fail stState
  else if tr ≠ 0 && (tr < 64 || 16000 < tr) then d.fail stRange (ofsP 8)
  else Dev.ok { d with mirrors := mput d.mirrors c.tgt { kind := k, target := c.u32 4, trunc := tr } }

/-- CMD_MIRROR_SESSION (R263). -/
def specMirrorSession : CmdSpec := { op := 0x060C, lenOk := lenIs 12, body := bodyMirrorSession }

/-- Ingress kind (0 sub-port, 1 channel), lookup list, mirror session, default SDOM; the target is the sub-port or channel
(log 15). -/
def bodyClsPort (c : Cmd) (d : Dev) : Res :=
  if 1 < c.u8 0 then d.fail stBadParam (ofsP 0)
  else if 15 < c.u8 2 then d.fail stRange (ofsP 2)
  else if c.u8 0 = 0 then
    d.onSub c.tgt ofsTgt fun _ =>
    if !mhas d.lookups (c.u8 1) then d.fail stState
    else Dev.ok { d with binds := mput d.binds c.tgt { lookup := some (c.u8 1), mirror := c.u8 2, sdom := c.u8 3 } }
  else
    d.onChan c.tgt ofsTgt fun _ =>
    if !mhas d.lookups (c.u8 1) then d.fail stState
    else Dev.ok (d.updChan c.tgt (fun x => { x with lookup := some (c.u8 1), mirror := c.u8 2 }))

/-- CMD_CLS_PORT (R254). -/
def specClsPort : CmdSpec :=
  { op := 0x060D, lenOk := lenIs 4, body := bodyClsPort,
    scope := fun c d => (c.u8 0 ≠ 0 || c.snd.dom (c.u8 3)) && (match mget d.lookups (c.u8 1) with
      | some l => l.profiles.all (fun p => match mget d.profiles p with | some k => d.mayTable c.snd k.table | none => true)
      | none => true) }

/-! ## Meters (R301, R302) -/

/-- Whether a rule of a privileged queue uses a meter (R299). -/
def Dev.meterPriv (d : Dev) (m : Nat) : Bool :=
  d.tables.any (fun e => (e.2.slots.map (fun s => s.2) ++ d.ovfEntries e.1 e.2).any (fun x => actHas x.act 6 && actMeter x.act = m
    && actHas x.act 0 && actKind x.act = 0 && (match mget d.queues (actTarget x.act) with | some q => q.priv | none => false)))

/-- Action (0 create or change, 1 delete), cir, cbs, pir, pbs, overhead, flags: packet mode, colour-aware, MARK, mark_dei; the
target is the meter handle, 32,768 to a tile (log 15, log 24). -/
def bodyMeterSet (c : Cmd) (d : Dev) : Res :=
  let t := c.tgt / 32768
  let pkt := c.bit 21 0
  let m : Meter := { pkt := pkt, cir := c.u32 4, cbs := c.u32 8, pir := c.u32 12, pbs := c.u32 16, overhead := c.i8 20,
                     aware := c.bit 21 1, mark := c.bit 21 2, dei := c.bit 21 3, tile := t }
  let bad := bucketBad pkt m.cir m.cbs m.pir m.pbs m.overhead
  let put (x : Option Meter) : Res := Dev.ok { d with meterNext := d.meterNext ++ [(d.qFrame, c.tgt, x)] }
  if d.nTiles ≤ t then d.fail stRange ofsTgt
  else if 1 < c.u8 0 then d.fail stBadParam (ofsP 0)
  else if d.notRun t then d.fail stState
  else if c.u8 0 = 1 then (if mhas d.meters c.tgt then put none else d.fail stState)
  else if bad ≠ stOk then d.fail bad (ofsP 4)
  else if pkt && !d.meterPriv c.tgt then d.fail stNotPermitted
  else if pkt && 1024 ≤ d.pktModeOn t then d.fail stNoResource
  else put (some m)

/-- CMD_METER_SET (R301, R302). -/
def specMeterSet : CmdSpec := { op := 0x0706, lenOk := lenIs 24, body := bodyMeterSet }

/-- Refills both buckets of a meter up to an instant. -/
def Meter.refill (m : Meter) (now : Raw) : Meter :=
  { m with
    cLvl := min (lvl m.cbs) (m.cLvl + gain m.pkt m.cir m.atT now),
    pLvl := min (lvl m.pbs) (m.pLvl + gain m.pkt m.pir m.atT now), atT := now }

/-- Colour that RFC 2698 gives a frame of a length and an arriving colour, and the meter after it. -/
def Meter.colour (m : Meter) (len : Nat) (yellowIn : Bool) : Color × Meter :=
  let n := bucketLen m.pkt m.overhead len
  if m.pLvl < n then (.red, m)
  else if (m.aware && yellowIn) || m.cLvl < n then (.yellow, { m with pLvl := m.pLvl - n })
  else (.green, { m with pLvl := m.pLvl - n, cLvl := m.cLvl - n })

/-! ## Meanings -/

/-- CMD_TABLE_INSERT (R267). -/
def execCmdTableInsert (p : Packet) (s : State) : Host.Outcome State Fault Refusal := live (Dev.runCommand specTableInsert p) s

/-- CMD_TABLE_DELETE (R281). -/
def execCmdTableDelete (p : Packet) (s : State) : Host.Outcome State Fault Refusal := live (Dev.runCommand specTableDelete p) s

/-- CMD_TABLE_LOOKUP (R281). -/
def execCmdTableLookup (p : Packet) (s : State) : Host.Outcome State Fault Refusal := live (Dev.runCommand specTableLookup p) s

/-- CMD_TABLE_SEARCH (R282). -/
def execCmdTableSearch (p : Packet) (s : State) : Host.Outcome State Fault Refusal := live (Dev.runCommand specTableSearch p) s

/-- CMD_TABLE_NEXT (R282). -/
def execCmdTableNext (p : Packet) (s : State) : Host.Outcome State Fault Refusal := live (Dev.runCommand specTableNext p) s

/-- CMD_TABLE_FLUSH_PORT (R276). -/
def execCmdTableFlushPort (p : Packet) (s : State) : Host.Outcome State Fault Refusal := live (Dev.runCommand specTableFlushPort p) s

/-- CMD_TABLE_CONFIG (R264). -/
def execCmdTableConfig (p : Packet) (s : State) : Host.Outcome State Fault Refusal := live (Dev.runCommand specTableConfig p) s

/-- CMD_TABLE_STATUS (R281). -/
def execCmdTableStatus (p : Packet) (s : State) : Host.Outcome State Fault Refusal := live (Dev.runCommand specTableStatus p) s

/-- CMD_KEY_PROFILE (R255). -/
def execCmdKeyProfile (p : Packet) (s : State) : Host.Outcome State Fault Refusal := live (Dev.runCommand specKeyProfile p) s

/-- CMD_LOOKUP_LIST (R256). -/
def execCmdLookupList (p : Packet) (s : State) : Host.Outcome State Fault Refusal := live (Dev.runCommand specLookupList p) s

/-- CMD_SPREAD_GROUP (R277). -/
def execCmdSpreadGroup (p : Packet) (s : State) : Host.Outcome State Fault Refusal := live (Dev.runCommand specSpreadGroup p) s

/-- CMD_MIRROR_SESSION (R263). -/
def execCmdMirrorSession (p : Packet) (s : State) : Host.Outcome State Fault Refusal := live (Dev.runCommand specMirrorSession p) s

/-- CMD_CLS_PORT (R254). -/
def execCmdClsPort (p : Packet) (s : State) : Host.Outcome State Fault Refusal := live (Dev.runCommand specClsPort p) s

/-- CMD_METER_SET (R302). -/
def execCmdMeterSet (p : Packet) (s : State) : Host.Outcome State Fault Refusal := live (Dev.runCommand specMeterSet p) s

/-- INSERT (R283). -/
def execInsert (table : Nat) (noEvict : Bool) (s : State) : Host.Outcome State Fault Refusal :=
  live (fun d => d.opInsert table noEvict) s

/-- DELETE (R283). -/
def execDelete (table : Nat) (s : State) : Host.Outcome State Fault Refusal :=
  live (fun d => d.opDelete table) s

/-- LOOKUP (R283). -/
def execLookup (table : Nat) (s : State) : Host.Outcome State Fault Refusal :=
  live (fun d => d.opLookup table) s

/-- READ_INDEX (R283). -/
def execReadIndex (table : Nat) (s : State) : Host.Outcome State Fault Refusal :=
  live (fun d => d.opReadIndex table) s

/-- WRITE_INDEX (R283). -/
def execWriteIndex (table : Nat) (s : State) : Host.Outcome State Fault Refusal :=
  live (fun d => d.opWriteIndex table) s

/-- TAC_OP_DONE (R283). -/
def execTacOpDone (s : State) : Host.Outcome State Fault Refusal :=
  live (fun d => d.opTacOpDone) s

/-- LEARN_APPLY (R270). -/
def execLearnApply (tile : Nat) (s : State) : Host.Outcome State Fault Refusal :=
  live (fun d => d.opLearnApply tile) s

/-- TABLE_UPDATE_RX (R274). -/
def execTableUpdateRx (tile : Nat) (u : TableUpdate) (s : State) : Host.Outcome State Fault Refusal :=
  live (fun d => d.opTableUpdateRx tile u) s

/-- AGEING_SWEEP (R272). -/
def execAgeingSweep (table : Nat) (s : State) : Host.Outcome State Fault Refusal :=
  live (fun d => d.opAgeingSweep table) s

/-- CURSOR_TIMEOUT (R282). -/
def execCursorTimeout (cursor : Nat) (s : State) : Host.Outcome State Fault Refusal :=
  live (fun d => d.opCursorTimeout cursor) s

/-- FLUSH_PORT_DONE (R276). -/
def execFlushPortDone (s : State) : Host.Outcome State Fault Refusal :=
  live (fun d => d.opFlushPortDone) s

/-- SUBPORT_DOWN (R278). -/
def execSubportDown (sub : Nat) (s : State) : Host.Outcome State Fault Refusal :=
  live (fun d => d.opSubportDown sub) s

/-- SUBPORT_UP (R278). -/
def execSubportUp (sub : Nat) (s : State) : Host.Outcome State Fault Refusal :=
  live (fun d => d.opSubportUp sub) s

end Sys2Proof.Machine
end

