-- ==== Sys2Proof/Machine/Blocks.lean ====
section
/-!
DEFINITION. Derbex blocks as they are sent: scrambling, control-block bytes, what a tree lane carries, and the time units of line
bits (R87 to R95, R106).
-/

namespace Sys2Proof.Machine

/-! ## Scrambling and control blocks (R88 to R90) -/

/-- Scrambles 64 payload bits in order: the block sent and the state after it (R89). -/
def scramble (s : BitVec 58) (p : BitVec 64) : BitVec 64 × BitVec 58 :=
  (List.range 64).foldl (fun (acc : BitVec 64 × BitVec 58) i =>
    let o := (p.getLsbD i ^^ acc.2.getLsbD 38) ^^ acc.2.getLsbD 57
    (if o then acc.1 ||| (1#64 <<< i) else acc.1, (acc.2 <<< 1) ||| (if o then 1#58 else 0#58))) (0, s)

/-- Descrambles 64 received bits in order: the payload and the state after it (R89). -/
def descramble (s : BitVec 58) (r : BitVec 64) : BitVec 64 × BitVec 58 :=
  (List.range 64).foldl (fun (acc : BitVec 64 × BitVec 58) i =>
    let b := (r.getLsbD i ^^ acc.2.getLsbD 38) ^^ acc.2.getLsbD 57
    (if b then acc.1 ||| (1#64 <<< i) else acc.1, (acc.2 <<< 1) ||| (if r.getLsbD i then 1#58 else 0#58))) (0, s)

/-- Byte `n` of a payload (R88). -/
def blkByte (p : BitVec 64) (n : Nat) : Nat := p.toNat / 2 ^ (8 * n) % 256

/-- The CRC-8 of a control block over bytes 0 to 6 (R90). -/
def blkCrc (p : BitVec 64) : Nat := (crc8 ((List.range 7).map (fun i => BitVec.ofNat 8 (blkByte p i)))).toNat

/-- A control block's payload: type, bytes 1 to 6 as a number, CRC (R90). -/
def ctrlBlock (typ body : Nat) : BitVec 64 :=
  let p := BitVec.ofNat 64 (typ + 256 * (body % 2 ^ 48))
  p ||| BitVec.ofNat 64 (blkCrc p * 2 ^ 56)

/-- Sends a control block, at a block of the lane frame where the rules fix one: the output, and the scrambler's next state. A transmitter
in lull drives nothing (R101). In a near-end loop the block goes to the lane's own receiver; the line is idle in a serial loop and carries
IDLE in a parallel one, which branches off before the scrambler (R99, Table 4-5). -/
def Dev.sendBlock (d : Dev) (tile lane typ body : Nat) (at_ : Option Nat := none) : Dev :=
  let p := ctrlBlock typ body
  let loop := d.laneLoop tile lane
  let sent := if loop = 2 then ctrlBlock 0 0 else p
  if (d.lane tile lane).txLull then d
  else
    let d := d.updLane tile lane (fun l => { l with
      txScr := (scramble l.txScr sent).2, loopQ := if loop = 1 || loop = 2 then l.loopQ ++ [p] else l.loopQ })
    if loop = 1 then d else if loop = 2 then d.emit (.idles tile lane 1) else d.emit (.block tile lane typ (BitVec.ofNat 64 (body % 2 ^ 48)) at_)

/-- The next 48 bits of a PRBS31 (generator x^31 + x^28 + 1), first bit lowest, and the state after them (R91, log 31). -/
def prbs48 (s : BitVec 31) : Nat × BitVec 31 :=
  (List.range 48).foldl (fun (acc : Nat × BitVec 31) i =>
    let b := acc.2.getLsbD 30 ^^ acc.2.getLsbD 27
    (acc.1 + b2n b * 2 ^ i, (acc.2 <<< 1) ||| (if b then 1#31 else 0#31))) (0, s)

/-! ## The lane frame (R102, R103, R110) -/

/-- Units of a lane frame, and the length of one at a generation (Table 4-6). -/
abbrev laneUnits : Nat := 4860
def unitLen (gen : Nat) : Nat := if 4 ≤ gen then 41 else if gen = 3 then 20 else 10

/-- The data position that a place within a unit is: its stream (0 G, 1 X, 2 F) and its index in the stream; none for an open position C. -/
def unitPos (gen p : Nat) : Option (Nat × Nat) :=
  if p = 0 then some (0, 0)
  else if 4 ≤ gen then
    (if 40 < p then none else if p % 10 = 6 then some (1, p / 10) else if 1 ≤ p % 10 && p % 10 ≤ 5 then some (2, 5 * (p / 10) + p % 10 - 1) else none)
  else if gen = 3 then (if p % 5 = 1 && p < 20 then some (1, p / 5) else none)
  else if p % 2 = 1 && p < 8 then some (1, p / 2)
  else none

/-- Whether a stream uses its index `j` in unit `u` (Table 4-7): every one downstream, those of its rate upstream. -/
def posUsed (down : Bool) (k up u j : Nat) : Bool :=
  down || (if k = 2 then (up = 2 || (up = 1 && j % 2 = 0) || j % 4 = 0) else if k = 1 then (up = 0 || j = 0) else u % 2 = 0)

/-- Number of a stream's used blocks before index `j` of unit `u`; the block carries 64 line bits from 64 times that (R88). -/
def posRank (down : Bool) (k up u j : Nat) : Nat :=
  if k = 2 then (if down || up = 2 then 20 * u + j else if up = 1 then 10 * u + j / 2 else 5 * u + j / 4)
  else if k = 1 then (if down || up = 0 then 4 * u + j else u)
  else if down then u else u / 2

/-- What a block of a lane frame carries: the frame start, line bits of a stream from a first one on, IDLE in a data position that is not used,
an open position, or the tail of IDLE and control blocks. -/
inductive LaneBlock where
  | fs
  | line (k first : Nat)
  | idle
  | open_
  | tail
  deriving DecidableEq, Repr

/-- Block `b` of a lane frame at a generation, with the streams that are enabled and their upstream rate codes (R102, R103). -/
def laneBlock (gen : Nat) (down : Bool) (on : Nat → Bool) (up : Nat → Nat) (b : Nat) : LaneBlock :=
  let u := (b - 1) / unitLen gen
  if b = 0 then .fs
  else if laneUnits ≤ u then .tail
  else match unitPos gen ((b - 1) % unitLen gen) with
    | none => .open_
    | some (k, j) => if on k && posUsed down k (up k) u j then .line k (64 * posRank down k (up k) u j) else .idle

/-- Block of the lane frame that carries LASER: the first C position of unit 0 (R110). -/
def laserAt (gen : Nat) : Nat := if 4 ≤ gen then 8 else 3

/-! ## What a tree lane carries (R95) -/

/-- Whether a generation carries a channel kind at an upstream rate code. -/
def genCarries (gen k up : Nat) : Bool := if gen ≥ 4 then true else if gen = 3 then k < 2 else if gen = 2 then k = 0 || (k = 1 && up = 1) else false

/-- Lowest generation that carries a channel. -/
def genNeeded (k up : Nat) : Nat := if k = 0 || (k = 1 && up = 1) then 2 else if k = 1 then 3 else 4

/-- Tree lane of a channel. -/
def Dev.laneOf (d : Dev) (ch : Nat) : Lane := d.lane (tileOfChan ch) (ch / 4 % 8)

/-- Whether the tree lane is UP at a generation that carries the channel. -/
def Dev.laneCarries (d : Dev) (ch : Nat) : Bool := (d.laneOf ch).neg = .up && genCarries (d.laneOf ch).gen (ch % 4) (d.chan ch).upRate

/-- Whether a command that enables a channel at a rate fails for its lane (R95). -/
def Dev.laneRefuses (d : Dev) (ch up : Nat) : Bool :=
  ((d.laneOf ch).neg = .up && !genCarries (d.laneOf ch).gen (ch % 4) up) || !genCarries (d.laneMaxGen (tileOfChan ch) (ch / 4 % 8)) (ch % 4) up

/-! ## Rates (Table 6-1, Table 7-1a, Table 8-4) -/

/-- What the tables give for one upstream rate: frame bytes, bits of guard, preamble and delimiter, bytes of header and trailer
and of a status report, data and parity bytes per codeword, timestamp units per bit, line bits of a response burst. -/
structure Rate where
  fb : Nat
  guard : Nat
  pre : Nat
  del : Nat
  hdr : Nat
  rep : Nat
  k : Nat
  q : Nat
  upb : Nat
  resp : Nat
  deriving DecidableEq, Repr

/-- The rate of a channel kind and upstream rate code. -/
def rateOf (k up : Nat) : Rate :=
  if k = 0 then { fb := 19440, guard := 32, pre := 44, del := 20, hdr := 3, rep := 2, k := 239, q := 16, upb := 40, resp := 288 }
  else if k = 1 then
    if up = 1 then { fb := 38880, guard := 32, pre := 64, del := 32, hdr := 12, rep := 4, k := 216, q := 32, upb := 20, resp := 1152 }
    else { fb := 155520, guard := 64, pre := 160, del := 32, hdr := 12, rep := 4, k := 216, q := 32, upb := 5, resp := 1280 }
  else if up = 0 then { fb := 194400, guard := 64, pre := 256, del := 64, hdr := 12, rep := 4, k := 1824, q := 336, upb := 4, resp := 3616 }
  else if up = 1 then { fb := 388800, guard := 128, pre := 512, del := 64, hdr := 12, rep := 4, k := 1824, q := 336, upb := 2, resp := 3936 }
  else { fb := 777600, guard := 256, pre := 1024, del := 64, hdr := 12, rep := 4, k := 1824, q := 336, upb := 1, resp := 4576 }

/-- The rate in force on a channel. -/
def Dev.rate (d : Dev) (ch : Nat) : Rate := rateOf (ch % 4) (d.chan ch).upRate

/-- Grant granularity in bytes (R198). -/
def gran (ch : Nat) : Nat := if ch % 4 = 0 then 1 else 4

/-- Timestamp units in one frame (R106). -/
abbrev frameTs : Nat := 6220800

/-- Picoseconds of a number of line bits, nearest below; a timestamp unit is 10,000,000 / 497,664 ps. -/
def Rate.psOfBits (r : Rate) (bits : Int) : Int := bits * r.upb * 10000000 / 497664

/-- Line bits of a number of ps, nearest below. -/
def Rate.bitsOfPs (r : Rate) (ps : Int) : Int := ps * 497664 / (10000000 * r.upb)

/-- Whole ns of a number of line bits, rounded up. -/
def Rate.nsOfBits (r : Rate) (bits : Nat) : Nat := ceilDiv (bits * r.upb * 10000) 497664

/-- Timestamp units of a number of ns, rounded up. -/
def tsOfNs (ns : Nat) : Nat := ceilDiv (ns * 497664) 10000

/-- Length of an envelope rounded up to the unit of R108. -/
def envRound (ts : Nat) : Nat := if ceilDiv ts 64 ≤ 2047 then ceilDiv ts 64 * 64 else ceilDiv ts 4096 * 4096

/-- Frame bytes of a discovery or ranging window (R173). -/
def Rate.winBytes (r : Rate) (ns : Nat) : Nat := ceilDiv (envRound (tsOfNs ns)) (8 * r.upb)

/-- Frame bytes of a dark window: 10 µs on a G channel is 1,556 bytes (R208). -/
def Rate.darkBytes (r : Rate) (ns : Nat) : Nat := ceilDiv (tsOfNs ns) (8 * r.upb)

/-- Raw units of a number of frame bytes. -/
def Rate.rawOfBytes (r : Rate) (b : Nat) : Raw := BitVec.ofNat 64 (b * 8 * r.upb * 65536 * 10000 / 497664)

end Sys2Proof.Machine
end

