-- ==== Sys2Proof/Machine/Ranging.lean ====
section
/-!
DEFINITION. Discovery, ranging and rogue terminals: registration, hold-off, equalisation, window sizes and periods, dark windows and
hunts, power saving, PLOAM, and the commands of class 0x03 (chapter 07).
-/

namespace Sys2Proof.Machine

/-! ## Frames as instants -/

/-- Frame index nearest to now of a 48-bit frame number. -/
def Dev.frameIx (d : Dev) (f : Nat) : Int := d.frameI + signedOf 48 (f + 2 ^ 48 - d.frame)

/-- Brings time to the start of a frame. -/
def Dev.toFrame (d : Dev) (f : Nat) : Dev := d.advanceTo (d.rawReach (d.frameNetNs (d.frameIx f) * 65536))

/-- The frame `n` frames after another. -/
def plusF (f n : Nat) : Nat := (f + n) % 2 ^ 48

/-! ## Registration (R180, R181) -/

/-- A terminal returns to ABSENT; its keys are zeroised (R333, R349). -/
def Dev.goAbsent (d : Dev) (tid : Nat) : Dev := (d.termAbsent tid).ponClear tid

/-- The time in service without a break ends: 512 s of it return the hold-off period to 1 s (R185). -/
def Dev.svcBreak (d : Dev) (tid : Nat) : Dev :=
  d.updTerm tid (fun t =>
    if t.svcSince.any (fun s => decide ((rawS 512).toNat ≤ (d.now - s).toNat)) then { t with everHeld := false, holdS := 1, svcSince := none }
    else { t with svcSince := none })

/-- A terminal enters HELD_OFF for its next period (R185). -/
def Dev.holdOff (d : Dev) (tid : Nat) : Dev :=
  match mget d.terms tid with
  | none => d
  | some t =>
    let p := t.holdS
    let d := (d.goAbsent tid).updTerm tid (fun t => { t with
      st := .heldOff, everHeld := true, holdEnd := d.now + rawS p, holdS := min 256 (2 * p) })
    let d := (d.ploam t.ch .disableSn tid 1).countCT .flapHoldoffs t.ch tid
    if p = 256 then d.raise 0x06 0x03 0 (tileOfChan t.ch) tid p false else d

/-- A loss of registration (R185): the third within 60 s, or any before 512 s in service after a hold-off, holds the terminal off. -/
def Dev.loseReg (d : Dev) (tid : Nat) : Dev :=
  let d := d.svcBreak tid
  match mget d.terms tid with
  | none => d
  | some t =>
    let ls := d.now :: t.losses.filter (fun x => (d.now - x).toNat < (rawS 60).toNat)
    let d := d.updTerm tid (fun t => { t with losses := ls })
    if t.everHeld || 3 ≤ ls.length then d.holdOff tid else d.goAbsent tid

/-- Sends Deactivate_ONU-ID and loses the registration. -/
def Dev.deactivate (d : Dev) (tid : Nat) : Dev := (d.ploam (d.chanOfTerm tid) .deactivate tid).loseReg tid

/-- Lowest free ONU-ID of a channel (R180). -/
def Dev.freeOnu (d : Dev) (ch : Nat) : Option Nat := lowestFree ((d.termsOf ch).filterMap (fun e => e.2.onu)) 0 1024

/-- Queues Ranging_Time with a delay in ps; one not yet sent for the terminal is replaced (R184). -/
def Dev.sendEqd (d : Dev) (tid : Nat) (eqd : Int) : Dev :=
  let ch := d.chanOfTerm tid
  let d := d.updTerm tid (fun t => { t with eqdPend := some eqd, offs := [] })
  if (d.chan ch).ploamQ.any (fun p => p.msg = .rangingTime && p.tid = tid) then
    d.updChan ch (fun c => { c with ploamQ := c.ploamQ.map (fun p => if p.msg = .rangingTime && p.tid = tid then { p with arg := eqd } else p) })
  else d.ploam ch .rangingTime tid eqd

/-- A terminal becomes IN_SERVICE: its Alloc-IDs are announced, polls are owed, its keys are exchanged, on G behind Encrypted_Port-ID (R181, R191,
R199, R205, R336, log 34). -/
def Dev.enterService (d : Dev) (tid : Nat) : Dev :=
  let d := d.updTerm tid (fun t => { t with
    st := .inService, svcSince := some (t.svcSince.getD d.now), uncert := 8, offs := [], losi := false, lofi := false, missRun := 0, hdrRun := 0 })
  let mine := d.allocs.filter (fun e => e.2.tid = tid)
  let d := mine.foldl (fun d e => (d.ploam (d.chanOfTerm tid) .assignAlloc tid e.2.allocId).updAlloc e.1 (fun a => { a with owed := true })) d
  let d := if d.termKind tid = 0 then d.ploam (d.chanOfTerm tid) .encryptedPort tid else d
  d.ponStart tid

/-- The distance interval of a terminal in half metres: d - t/2 and d + t/2 (R170). -/
def Terminal.lo2 (t : Terminal) : Int := 2 * (t.dist : Int) - t.tol
def Terminal.hi2 (t : Terminal) : Int := 2 * (t.dist : Int) + t.tol

/-- A terminal is ranged with a round-trip time in ps: equalisation, calibration of the channel, map check (R171, R172, R181, R183). -/
def Dev.ranged (d : Dev) (tid : Nat) (rtt : Int) : Dev :=
  match mget d.terms tid with
  | none => d
  | some t =>
    let c := d.chan t.ch
    let eqd := (c.teqd : Int) * 16000 - rtt
    if eqd < 0 then (d.countCT .outOfReach t.ch tid).deactivate tid
    else
      let m : Int := d.respMarginNs (tileOfChan t.ch)
      let again := t.st = .reacquire
      let d := (d.updTerm tid (fun t => { t with rtt := rtt })).enterService tid
      let d := if again then (if eqd = t.eqd then d else d.sendEqd tid eqd) else (d.sendEqd tid eqd).countCT .ranged t.ch tid
      match c.calConst with
      | none => d.updChan t.ch (fun c => { c with calConst := some (rtt - 9794 * t.dist) })
      | some k =>
        if rtt < 4897 * t.lo2 + k - 1000 * m || 4897 * t.hi2 + k + 1000 * m < rtt then
          (d.countCT .mapMismatch t.ch tid).raise 0x06 0x02 0 (tileOfChan t.ch) tid (rtt / 1000).toNat false
        else d

/-- Whether a channel ranges: enabled, on a tile in RUN. -/
def Dev.chanLive (d : Dev) (ch : Nat) : Bool :=
  d.chanOk ch && d.tileRun (tileOfChan ch) && ((d.chan ch).st = .enabling || (d.chan ch).st = .enabled)

/-- PASSWORD (R181, R184). -/
def Dev.opPassword (d : Dev) (tid : Nat) (cred : List Byte) (rtt : Int) : Dev :=
  match mget d.terms tid with
  | none => d
  | some t =>
    if !d.chanLive t.ch then d
    else if t.st = .ranging then
      if cred = t.cred then d.ranged tid rtt else (d.countCT .authFail t.ch tid).deactivate tid
    else if t.st = .reacquire then d.ranged tid rtt
    else d

/-- Reports a serial number that no ABSENT terminal of the channel holds, at most once per 60 s (R182). -/
def Dev.unknownSn (d : Dev) (ch : Nat) (serial : List Byte) (offsetNs : Int) (elsewhere : Bool) : Dev :=
  let old := (d.chan ch).unknownSn.filter (fun e => (d.now - e.2).toNat < (rawS 60).toNat)
  if old.any (fun e => e.1 = serial) then d.updChan ch (fun c => { c with unknownSn := old })
  else if d.chans.any (fun x => x.2.unknownSn.any (fun e => e.1 = serial && (d.now - e.2).toNat < (rawS 60).toNat)) then d
  else
    (d.updChan ch (fun c => { c with unknownSn := (serial, d.now) :: old })).notify 0x8380 ch
      (bytesAt serial 0 8 ++ leBytes 4 (lowBits 32 offsetNs) ++ leBytes 1 (b2n elsewhere) ++ zeroBytes 3)

/-- SERIAL_NUMBER_ONU (R181, R182). -/
def Dev.opSerialNumberOnu (d : Dev) (ch : Nat) (serial : List Byte) (offsetNs : Int) : Dev :=
  if !d.chanLive ch then d
  else
    let d := d.count .snReceived ch
    match d.terms.find? (fun e => e.2.serial = serial) with
    | none => d.unknownSn ch serial offsetNs false
    | some (tid, t) =>
      if t.ch ≠ ch then (d.count .snMisplaced ch).unknownSn ch serial offsetNs true
      else if t.st ≠ .absent || t.delAt.isSome then d
      else match d.freeOnu ch with
        | none => d
        | some o =>
          let d := d.updTerm tid (fun t => { t with st := .ranging, onu := some o, omccPort := o, rngLeft := 4, rngFrom := none })
          (d.ploam ch .assignOnuId tid o).ploam ch .requestCred tid

/-- RANGING_WINDOWS_EXHAUSTED (R181). -/
def Dev.opRangingWindowsExhausted (d : Dev) (tid : Nat) : Dev :=
  match mget d.terms tid with
  | some t => if t.st = .ranging && t.rngLeft = 0 && d.chanLive t.ch then (d.countCT .rngFail t.ch tid).deactivate tid else d
  | none => d

/-- A terminal in service goes to REACQUIRE (R184). -/
def Dev.toReacquire (d : Dev) (tid : Nat) : Dev :=
  let ch := d.chanOfTerm tid
  let d := d.svcBreak tid
  (d.updTerm tid (fun t => { t with
    st := .reacquire, reacqEnd := d.now + rawMs (d.reacqMs (tileOfChan ch)), allowOn := false, wakeFrame := none, wakeReq := false })).countCT .reacquire ch tid

/-- REACQUIRE_TIMEOUT (R184). -/
def Dev.opReacquireTimeout (d : Dev) (tid : Nat) : Dev :=
  match mget d.terms tid with
  | some t => if t.st = .reacquire && d.chanLive t.ch then (d.advanceTo t.reacqEnd).deactivate tid else d
  | none => d

/-- A disabled transmitter is enabled again and its terminal returns to ABSENT (R185, R186, R194). -/
def Dev.enableSn (d : Dev) (tid : Nat) : Dev := (d.ploam (d.chanOfTerm tid) .enableSn tid 0).goAbsent tid

/-- HOLD_OFF_END (R185). -/
def Dev.opHoldOffEnd (d : Dev) (tid : Nat) : Dev :=
  match mget d.terms tid with
  | some t => if t.st = .heldOff && d.tileRun (tileOfChan t.ch) then (d.advanceTo t.holdEnd).enableSn tid else d
  | none => d

/-- DYING_GASP (R191): a G message; no loss of registration is counted. -/
def Dev.opDyingGasp (d : Dev) (tid : Nat) : Dev :=
  match mget d.terms tid with
  | some t =>
    if !d.tileRun (tileOfChan t.ch) then d
    else if t.ch % 4 ≠ 0 then d.count .ploamUnexpected t.ch
    else if t.st.live then (d.svcBreak tid).goAbsent tid
    else d
  | none => d

/-- Upstream messages that a channel kind accepts (Table 7-3). -/
def ploamAccepted (kind : Nat) (m : PloamUp) : Bool :=
  match m with
  | .serialNumber | .password | .encryptionKey | .acknowledge | .sleepRequest => true
  | .dyingGasp | .remoteError | .physicalError => kind = 0
  | .other => false

/-- PLOAM_UNEXPECTED (R191): a message that Table 7-3 does not list for the channel is discarded and counted. One that it lists is accepted;
those without a row of their own start nothing. -/
def Dev.opPloamUnexpected (d : Dev) (ch : Nat) (m : PloamUp) : Dev :=
  if d.chanLive ch && !ploamAccepted (ch % 4) m then d.count .ploamUnexpected ch else d

/-! ## Window sizes (R173) -/

/-- Widening while a channel is uncalibrated, response burst, both margins: the terms every window shares, in ns. -/
def Dev.winBase (d : Dev) (ch : Nat) : Nat :=
  2 * d.respMarginNs (tileOfChan ch) + (d.rate ch).nsOfBits (d.rate ch).resp + (if (d.chan ch).calConst.isNone then 8000 else 0)

/-- Width in ns of a ranging window of a terminal; in REACQUIRE twice its uncertainty is added (R184). -/
def Dev.rangeNs (d : Dev) (ch tid : Nat) : Nat :=
  match mget d.terms tid with
  | none => 0
  | some t => ceilDiv (9794 * t.tol) 1000 + d.winBase ch + (if t.st = .reacquire then (d.rate ch).nsOfBits (2 * t.uncert) else 0)

/-- Width in ns of a map-guided window of a group. -/
def Dev.mapNs (d : Dev) (ch : Nat) (tids : List Nat) : Nat :=
  let ts := tids.filterMap (fun i => mget d.terms i)
  match ts with
  | [] => 48000 + d.winBase ch
  | t :: rest =>
    let lo := rest.foldl (fun m x => min m x.lo2) t.lo2
    let hi := rest.foldl (fun m x => max m x.hi2) t.hi2
    ceilDiv (4897 * (hi - lo).toNat) 1000 + 48000 + d.winBase ch

/-- Width in ns of a broad discovery window. -/
def Dev.broadNs (d : Dev) (ch : Nat) : Nat :=
  ceilDiv (9794 * ((d.chan ch).reachMax - (d.chan ch).reachMin)) 1000 + 48000 + d.winBase ch

/-- Width in ns of a window by its kind. -/
def Dev.winNs (d : Dev) (ch : Nat) (w : WinReq) : Nat :=
  match w.kind with
  | .ranging => d.rangeNs ch w.tid
  | .map => d.mapNs ch w.members
  | .broad => d.broadNs ch
  | .dark => d.darkLenUs ch * 1000

/-- A window with its width and frame bytes. -/
def Dev.sized (d : Dev) (ch : Nat) (w : WinReq) : WinReq :=
  let ns := d.winNs ch w
  { w with lenNs := ns, lenB := if w.kind = .dark then (d.rate ch).darkBytes ns else (d.rate ch).winBytes ns }

/-! ## Periods (R175, R187) -/

/-- Start of the period that begins now or next, and time brought there; a period never begins in the past of the one after it. -/
def Dev.periodAt (d : Dev) (next : Option Nat) (len : Nat) : Option (Nat × Dev) :=
  match next with
  | none => none
  | some f => if len = 0 then none else if frameGe d.frame (plusF f len) then some (d.frame, d) else some (f, d.toFrame f)

/-- Adds a terminal to the last group or opens a new one (R175). -/
def Dev.groupAdd (d : Dev) (ch : Nat) (gs : List (List Nat)) (tid : Nat) : List (List Nat) :=
  match gs.reverse with
  | [] => [[tid]]
  | g :: rest => if d.mapNs ch (g ++ [tid]) ≤ d.discMapMaxUs ch * 1000 then (((g ++ [tid]) :: rest).reverse) else gs ++ [[tid]]

/-- DISC_MAP_PERIOD_START (R175). -/
def Dev.opDiscMapPeriodStart (d : Dev) (ch : Nat) : Dev :=
  if !d.chanLive ch then d
  else match d.periodAt (d.chan ch).mapNext (d.discMapMs ch * 8) with
    | none => d
    | some (f, d) =>
      let absent := sortBy (fun (e : Nat × Terminal) => e.2.dist) ((d.termsOf ch).filter (fun e => e.2.st = .absent && e.2.delAt.isNone))
      let gs := absent.foldl (fun gs e => d.groupAdd ch gs e.1) []
      let len := d.discMapMs ch * 8
      d.updChan ch (fun c => { c with
        groups := gs.map (fun g => { kind := .map, members := g }), groupGap := len / max 1 gs.length, groupNext := f, mapNext := some (plusF f len) })

/-- DISC_BROAD_PERIOD_START (R175). -/
def Dev.opDiscBroadPeriodStart (d : Dev) (ch : Nat) : Dev :=
  if !d.chanLive ch then d
  else match d.periodAt (d.chan ch).broadNext (d.discBroadS ch * 8000) with
    | none => d
    | some (f, d) => d.updChan ch (fun c => { c with
        winReq := if c.winReq.any (fun w => w.kind = .broad) then c.winReq else c.winReq ++ [{ kind := .broad }],
        broadNext := some (plusF f (d.discBroadS ch * 8000)) })

/-- DARK_PERIOD_START (R187): frame and offset are drawn. -/
def Dev.opDarkPeriodStart (d : Dev) (ch : Nat) : Dev :=
  if !d.chanLive ch then d
  else match d.periodAt (d.chan ch).darkNext (d.darkMs ch * 8) with
    | none => d
    | some (f, d) =>
      let (i, d) := d.fresh
      let (j, d) := d.fresh
      let room := 125000 - d.darkLenUs ch * 1000
      d.updChan ch (fun c => { c with
        darkFrame := some (plusF f (Config.freeNat i % (d.darkMs ch * 8))), darkOfs := Config.freeNat j % (room + 1), darkNext := some (plusF f (d.darkMs ch * 8)) })

/-- Windows that the ranging unit submits for frame `f`, built at frame `n` (R176): ranging windows due, the map-guided group whose
turn it is, the dark window due. None but dark windows during a hunt (R188). -/
def Dev.submitWindows (d : Dev) (ch n f : Nat) : Dev :=
  let c := d.chan ch
  let darkBusy := c.darkOpen || c.winReq.any (fun w => w.kind = .dark) || c.plans.any (fun p => p.wins.any (fun w => w.kind = .dark))
  if c.rogue = .hunt then
    match c.hunt with
    | some h =>
      if h.darkFrame.any (frameGe f) && !darkBusy then d.updChan ch (fun c => { c with winReq := c.winReq ++ [{ kind := .dark }] }) else d
    | none => d
  else
    let waiting (tid : Nat) : Bool := c.winReq.any (fun w => w.kind = .ranging && w.tid = tid)
    let due := (d.termsOf ch).filter (fun e => !waiting e.1 &&
      ((e.2.st = .ranging && 0 < e.2.rngLeft && e.2.rngFrom.any (frameGe n)) || e.2.st = .reacquire))
    let d := due.foldl (fun d e => d.updTerm e.1 (fun t => { t with rngLeft := t.rngLeft - 1 })) d
    let rs : List WinReq := due.map (fun e => { kind := .ranging, tid := e.1 })
    let gs := if frameGe f c.groupNext then c.groups.take 1 else []
    let dk : List WinReq := if c.darkFrame.any (frameGe f) && !darkBusy then [{ kind := .dark }] else []
    d.updChan ch (fun c => { c with
      winReq := c.winReq ++ rs ++ gs ++ dk, groups := c.groups.drop gs.length,
      groupNext := if gs.isEmpty then c.groupNext else plusF c.groupNext c.groupGap, darkFrame := if dk.isEmpty then c.darkFrame else none })

/-! ## Dark windows and hunts (R187 to R190) -/

/-- Isolates a rogue and ends the hunt. -/
def Dev.isolate (d : Dev) (ch tid : Nat) : Dev :=
  let d := (d.svcBreak tid).updTerm tid (fun t => { t with st := .isolated, svcSince := none, wakeReq := false, allowOn := false })
  let d := d.updChan ch (fun c => { c with rogue := .normal, hunt := none })
  (d.count .rogueIsolated ch).raise 0x06 0x05 2 (tileOfChan ch) tid ch true

/-- Begins a hunt step: the terminals to disable and what it tests. -/
def Dev.huntStep (d : Dev) (ch : Nat) (h : Hunt) (off : List Nat) (ph : HuntPhase) : Dev :=
  let d := off.foldl (fun d t => d.ploam ch .disableSn t 1) d
  d.updChan ch (fun c => { c with hunt := some { h with off := off, phase := ph, darkFrame := none, darkOpen := false } })

/-- The hunt ends in UNKNOWN (R189, R190). -/
def Dev.huntUnknown (d : Dev) (ch : Nat) : Dev :=
  let d := d.updChan ch (fun c => { c with rogue := .unknown, hunt := none, darkCleanRun := 0 })
  d.raise 0x06 0x06 2 (tileOfChan ch) ch (d.chan ch).lastEnergy true

/-- The next step of a hunt (R189). -/
def Dev.huntNext (d : Dev) (ch : Nat) (h : Hunt) : Dev :=
  match h.cands with
  | c :: _ => d.huntStep ch h [c] .candidate
  | [] =>
    match h.pool with
    | [] => d.huntUnknown ch
    | [t] => d.huntStep ch h [t] .last
    | t :: _ => if h.serial then d.huntStep ch h [t] .serial else d.huntStep ch h (h.pool.take ((h.pool.length + 1) / 2)) .halve

/-- Enables the terminals that a step disabled. -/
def Dev.huntEnable (d : Dev) (ch : Nat) (h : Hunt) : Dev := h.off.foldl (fun d t => d.ploam ch .enableSn t 0) d

/-- The result of a step's dark window. -/
def Dev.huntResult (d : Dev) (ch : Nat) (h : Hunt) (lit : Bool) : Dev :=
  match h.phase with
  | .candidate =>
    if lit then (d.huntEnable ch h).huntNext ch { h with cands := h.cands.drop 1 } else d.isolate ch (nth h.off 0)
  | .halve =>
    (d.huntEnable ch h).huntNext ch { h with pool := if lit then h.pool.filter (fun t => !h.off.contains t) else h.off }
  | .serial =>
    if lit then (d.huntEnable ch h).huntNext ch { h with pool := h.pool.drop 1 } else d.isolate ch (nth h.off 0)
  | .last => if lit then (d.huntEnable ch h).huntUnknown ch else d.isolate ch (nth h.off 0)

/-- Events of a terminal in the second before an instant (R189). -/
def Terminal.lastSec (t : Terminal) (now : Raw) : List Raw := t.events.filter (fun x => (now - x).toNat < (rawS 1).toNat)

/-- Notes an event that makes a terminal a candidate of a hunt (R189). -/
def Dev.huntEvent (d : Dev) (tid : Nat) : Dev := d.updTerm tid (fun t => { t with events := d.now :: t.lastSec d.now })

/-- A hunt starts (R188): candidates are the terminals with most events in the last second. -/
def Dev.huntStart (d : Dev) (ch code : Nat) : Dev :=
  let set := (d.termsOf ch).filter (fun e => e.2.st.live || e.2.st = .absent)
  let ev := set.filter (fun e => !(e.2.lastSec d.now).isEmpty)
  let cands := ((sortBy (fun (e : Nat × Terminal) => 2 ^ 20 - (e.2.lastSec d.now).length) ev).map (fun e => e.1)).take 8
  let h : Hunt := { serial := d.huntSerial ch, cands := cands, pool := (set.map (fun e => e.1)).filter (fun t => !cands.contains t) }
  let d := d.updChan ch (fun c => { c with rogue := .hunt, darkConfirm := false })
  ((d.notify 0x8381 ch (leBytes 1 code ++ zeroBytes 3)).count .rogueDetect ch).huntNext ch h

/-- The dark-window summary of a channel (R187 to R190). -/
def Dev.darkReport (d : Dev) (ch code : Nat) : Dev :=
  let c := d.chan ch
  if !c.darkOpen then d
  else
    let lit := decide (d.rogueCode ch ≤ code)
    let d := d.updChan ch (fun c => { c with darkOpen := false, lastEnergy := code, darkVoidRun := 0 })
    let d := d.endCond 0x06 0x04 (tileOfChan ch) ch
    if c.st = .draining then d
    else match c.rogue with
      | .hunt =>
        (match c.hunt with
         | some h => if h.darkOpen then d.huntResult ch h lit else d
         | none => d)
      | .unknown =>
        if lit then d.updChan ch (fun c => { c with darkCleanRun := 0 })
        else if 9 ≤ c.darkCleanRun then
          (d.updChan ch (fun c => { c with darkCleanRun := 0, rogue := .normal })).endCond 0x06 0x06 (tileOfChan ch) ch
        else d.updChan ch (fun c => { c with darkCleanRun := c.darkCleanRun + 1 })
      | .normal =>
        if !lit then d.updChan ch (fun c => { c with darkConfirm := false })
        else if c.darkConfirm then d.huntStart ch code
        else d.updChan ch (fun c => { c with darkConfirm := true, darkFrame := some (plusF d.frame 1) })

/-- DARK_WINDOW_VOID (R187): no summary within 20 µs. A void window of a hunt step or of a confirmation is opened again. -/
def Dev.opDarkWindowVoid (d : Dev) (ch : Nat) : Dev :=
  let c := d.chan ch
  if !c.darkOpen || !d.chanOk ch then d
  else
    let d := (d.advanceTo (c.darkEnd + rawUs 20)).count .darkVoid ch
    let d := d.updChan ch (fun c => { c with
      darkOpen := false, darkVoidRun := (c.darkVoidRun + 1) % 8, darkFrame := if c.darkConfirm then some (plusF d.frame 1) else c.darkFrame,
      hunt := c.hunt.map (fun h => if h.darkOpen then { h with darkOpen := false, darkFrame := some (plusF d.frame 1) } else h) })
    if c.darkVoidRun = 7 then d.raise 0x06 0x04 2 (tileOfChan ch) ch 0 true else d

/-- Opens the dark window of a plan whose frame begins (R187, R188). -/
def Dev.openDark (d : Dev) (ch : Nat) (p : Plan) : Dev :=
  match p.wins.find? (fun w => w.kind = .dark) with
  | none => d
  | some w =>
    if (d.chan ch).darkOpen then d
    else
      let e := d.now + rawNs ((d.chan ch).teqd * 16) + (d.rate ch).rawOfBytes (w.startB + w.lenB)
      (d.updChan ch (fun c => { c with
        darkOpen := true, darkEnd := e,
        hunt := c.hunt.map (fun h => if h.darkFrame.any (frameGe p.frame) then { h with darkOpen := true } else h) })).count .darkWindows ch

/-- HUNT_SETTLE_EXPIRY (R188): the settle period is over and the frame of the step's dark window begins. -/
def Dev.opHuntSettleExpiry (d : Dev) (ch : Nat) : Dev :=
  match (d.chan ch).hunt with
  | none => d
  | some h =>
    match h.darkFrame with
    | none => d
    | some f =>
      if h.darkOpen || !d.chanLive ch then d
      else
        let d := d.toFrame f
        match (d.chan ch).plans.find? (fun p => p.frame = f) with
        | some p => d.openDark ch p
        | none => d

/-- A hunt ends because its channel is disabled: what it disabled is enabled again (R190). -/
def Dev.huntEnd (d : Dev) (ch : Nat) : Dev :=
  match (d.chan ch).hunt with
  | none => d
  | some h => (d.huntEnable ch h).updChan ch (fun c => { c with hunt := none, rogue := .normal, darkConfirm := false })

/-! ## Power saving (R192, R193) -/

/-- Whether an engaged or held follow-me cell part covers a terminal. -/
def Dev.fmCovers (d : Dev) (tid : Nat) : Bool :=
  let t := d.tileOfTerm tid
  d.fm.trains.any (fun e => (e.2.engaged.any (fun p => p.1 % 8 = t && (match mget d.fm.cells (p.1 / 8) with | some c => c.tids.contains tid | none => false)))
    || e.2.floor.any (fun p => p % 8 = t && (match mget d.fm.cells (p / 8) with | some c => c.tids.contains tid | none => false)))

/-- Whether sleep may be allowed to a terminal (R192). -/
def Dev.maySleep (d : Dev) (tid : Nat) (t : Terminal) : Bool :=
  t.mode ≠ 0 && !(d.allocs.any (fun e => e.2.tid = tid && (e.2.p.typ = 0 || e.2.p.safety))) && !d.fmCovers tid
    && !(d.queues.any (fun e => e.2.down && e.2.tid = tid && !e.2.frames.isEmpty)) && frameGe d.frame (plusF t.lastDsFrame 3)

/-- SLEEP_REQUEST (R192, R193): a wake request of the same frame wins; a request to stay awake is a wake request. -/
def Dev.opSleepRequest (d : Dev) (tid : Nat) (awake : Bool) : Dev :=
  match mget d.terms tid with
  | none => d
  | some t =>
    if !d.chanLive t.ch then d
    else if awake then (d.wake tid).2
    else if t.st = .inService && t.allowOn && d.maySleep tid t then
      d.updTerm tid (fun t => { t with st := .lowPower, sleptAt := d.frame, wakeFrame := none, wakeReq := decide (t.wokeAt = some d.frame) })
    else d

/-- Sleep_Allow at a frame boundary: ON (1) while the conditions hold, OFF (0) when they end, and OFF with the forced-wake indication (2) to a
terminal in LOW_POWER at a wake request (R192, R193). -/
def Dev.sleepBoundary (d : Dev) (ch : Nat) : Dev :=
  (d.termsOf ch).foldl (fun d e =>
    let t := e.2
    if t.st = .lowPower && (t.wakeReq || (t.wakeFrame.isNone && !d.maySleep e.1 t)) then
      let d := d.updTerm e.1 (fun t => { t with wakeReq := false, allowOn := false, wakeFrame := some d.frame })
      d.updChan ch (fun c => { c with ploamQ := { msg := .sleepAllow, tid := e.1, arg := 2 } :: c.ploamQ })
    else if t.st = .inService && t.mode ≠ 0 && !t.allowOn && d.maySleep e.1 t then
      (d.updTerm e.1 (fun t => { t with allowOn := true })).ploam ch .sleepAllow e.1 1
    else if t.st = .inService && t.allowOn && !d.maySleep e.1 t then
      (d.updTerm e.1 (fun t => { t with allowOn := false })).ploam ch .sleepAllow e.1 0
    else d) d

/-! ## PLOAM leaves in frame headers (R188, R191) -/

/-- What the sending of a message in frame `f` starts. -/
def Dev.ploamSent (d : Dev) (f : Nat) (p : Ploam) : Dev :=
  match p.msg with
  | .assignOnuId => d.updTerm p.tid (fun t => if t.st = .ranging then { t with rngFrom := some (plusF f 2) } else t)
  | .sleepAllow => d.updTerm p.tid (fun t => if t.wakeFrame.isSome && p.arg ≠ 1 then { t with wakeFrame := some f } else t)
  | .rangingTime => d.updTerm p.tid (fun t => { t with
      eqd := p.arg, eqdPend := none, histFrom := plusF f 4, sendFrom := some (t.sendFrom.getD (plusF f 2)) })
  | _ => d

/-- Sends up to 16 messages on X and F, one on G, in the header of frame `f`; a hunt step whose messages have left settles. -/
def Dev.ploamDrain (d : Dev) (ch f : Nat) : Dev :=
  let n := if ch % 4 = 0 then 1 else 16
  let now := (d.chan ch).ploamQ.take n
  let d := d.updChan ch (fun c => { c with ploamQ := c.ploamQ.drop n })
  let d := now.foldl (fun d p => (d.ploamSent f p).emit (.ploam ch f p.tid p.msg p.arg)) d
  let left := (d.chan ch).ploamQ.any (fun p => p.msg = .disableSn || p.msg = .enableSn)
  d.updChan ch (fun c => { c with hunt := c.hunt.map (fun h =>
    if h.darkFrame.isNone && !left then { h with darkFrame := some (plusF f (d.settleFrames (tileOfChan ch) + 1)) } else h) })

/-! ## Bursts and equalisation (R150, R184) -/

/-- The offset of an accepted burst of frame `f` in line bits, searched with half-window `w`. -/
def Dev.eqdTrack (d : Dev) (tid f : Nat) (ofs : Int) (w : Nat) : Dev :=
  match mget d.terms tid with
  | none => d
  | some t =>
    if t.eqdPend.isSome || !frameGe f t.histFrom then d
    else
      let offs := (ofs :: t.offs).take 64
      let last := offs.take 16
      let sum := last.foldl (· + ·) 0
      let mean := 16 ≤ offs.length && 64 ≤ sum.natAbs
      let big := 3 * w < 4 * ofs.natAbs
      if mean || big then
        let r := d.rate t.ch
        let corr := if big then r.psOfBits ofs else r.psOfBits sum / 16
        let top := (offs.map Int.natAbs).foldl max 0
        let d := (d.sendEqd tid (t.eqd - corr)).updTerm tid (fun t => { t with uncert := min 1024 (max 8 (2 * top)), rtt := t.rtt + corr })
        d.countCT .eqdUpdates t.ch tid
      else d.updTerm tid (fun t => { t with offs := offs })

/-! ## Commands of class 0x03 -/

/-- Whether an interval lies in a channel's reach, and the tolerance is legal (R170). -/
def Dev.mapOk (d : Dev) (ch dist tol : Nat) : Bool :=
  10 ≤ tol && tol ≤ 40000 && 2 * (d.chan ch).reachMin + tol ≤ 2 * dist && 2 * dist + tol ≤ 2 * (d.chan ch).reachMax

/-- Table 15-16. -/
def bodyTermCreate (c : Cmd) (d : Dev) : Res :=
  let ch := c.u32 0
  let dist := c.u32 48
  let tol := c.u32 52
  if d.nTerms ≤ c.tgt then d.fail stRange ofsTgt
  else d.onChan ch (ofsP 0) fun _ =>
  if tol < 10 || 40000 < tol then d.fail stRange (ofsP 52)
  else if !d.mapOk ch dist tol then d.fail stRange (ofsP 48)
  else if d.terms.any (fun e => e.2.serial = c.bs 4 8 && e.1 ≠ c.tgt) then d.fail stBadParam (ofsP 4)
  else if mhas d.terms c.tgt then d.fail stState
  else if (if ch % 4 = 0 then 128 else 256) ≤ (d.termsOf ch).length then d.fail stNoResource
  else if 512 ≤ (d.terms.filter (fun e => e.2.ch / 4 = ch / 4)).length then d.fail stNoResource
  else if (d.placesOf ch).any (fun t => 2048 ≤ d.termsCount t) then d.fail stNoResource
  else
    let t : Terminal := { ch := ch, serial := c.bs 4 8, cred := if ch % 4 = 0 then c.bs 12 10 else c.bs 12 36, dist := dist, tol := tol,
                          fec := ch % 4 = 2 || c.bit 56 0, pm := { cur15 := { key := d.netSec }, cur24 := { key := d.netSec } } }
    Dev.ok (Dev.giveSlot { d with terms := mput d.terms c.tgt t } 3 c.tgt)

/-- CMD_TERM_CREATE (R170, R503). -/
def specTermCreate : CmdSpec := { op := 0x0301, pkg := true, lenOk := lenIs 64, body := bodyTermCreate }

def bodyTermDelete (c : Cmd) (d : Dev) : Res :=
  d.withTerm c.tgt fun _ =>
  let e := d.effFrame
  Dev.ok { d with
    terms := mmod d.terms c.tgt (fun t => { t with delAt := some e }),
    allocs := d.allocs.map (fun (k, a) => (k, if a.tid = c.tgt then { a with delAt := some (a.delAt.getD e) } else a)) }

/-- CMD_TERM_DELETE (R186, R217). -/
def specTermDelete : CmdSpec := { op := 0x0302, lenOk := lenIs 0, body := bodyTermDelete, scope := fun c d => d.mayActTerm c.snd c.tgt }

/-- Distance and tolerance (log 15). -/
def bodyTermMap (c : Cmd) (d : Dev) : Res :=
  d.withTerm c.tgt fun t =>
  if c.u32 4 < 10 || 40000 < c.u32 4 then d.fail stRange (ofsP 4)
  else if !d.mapOk t.ch (c.u32 0) (c.u32 4) then d.fail stRange (ofsP 0)
  else Dev.ok (d.updTerm c.tgt (fun t => { t with dist := c.u32 0, tol := c.u32 4 }))

/-- CMD_TERM_MAP (R170). -/
def specTermMap : CmdSpec := { op := 0x0303, lenOk := lenIs 8, body := bodyTermMap, scope := fun c d => d.mayActTerm c.snd c.tgt }

/-- Table 15-15. -/
def bodyRngChanConfig (c : Cmd) (d : Dev) : Res :=
  d.onChan c.tgt ofsTgt fun _ =>
  if 60000 < c.u32 4 then d.fail stRange (ofsP 4)
  else if c.u32 4 < c.u32 0 || 40000 < c.u32 4 - c.u32 0 then d.fail stRange (ofsP 0)
  else if (d.chan c.tgt).st ≠ .disabled then d.fail stState
  else Dev.ok (d.updChan c.tgt (fun x => { x with reachMin := c.u32 0, reachMax := c.u32 4 }))

/-- CMD_RNG_CHAN_CONFIG (R169). -/
def specRngChanConfig : CmdSpec := { op := 0x0304, lenOk := lenIs 8, body := bodyRngChanConfig }

def bodyTermRerange (c : Cmd) (d : Dev) : Res :=
  d.withTerm c.tgt fun t =>
  if t.st = .inService || t.st = .lowPower then Dev.ok (d.toReacquire c.tgt) else d.fail stState

/-- CMD_TERM_RERANGE (R184). -/
def specTermRerange : CmdSpec := { op := 0x0305, lenOk := lenIs 0, body := bodyTermRerange, scope := fun c d => d.mayActTerm c.snd c.tgt }

/-- Table 15-17. -/
def bodyTermPower (c : Cmd) (d : Dev) : Res :=
  d.withTerm c.tgt fun t =>
  if 1 < c.u8 0 then d.fail stBadParam (ofsP 0)
  else if c.u8 0 = 1 then Dev.ok (d.wake c.tgt).2
  else if 3 < c.u8 1 || (c.u8 1 = 3 && t.ch % 4 = 0) then d.fail stBadParam (ofsP 1)
  else if c.u8 1 ≠ 0 && (c.u16 2 < 8 || 4096 < c.u16 2) then d.fail stRange (ofsP 2)
  else Dev.ok (d.updTerm c.tgt (fun t => { t with mode := c.u8 1, interval := if c.u8 1 = 0 then t.interval else c.u16 2 }))

/-- CMD_TERM_POWER (R192, R193). -/
def specTermPower : CmdSpec := { op := 0x0306, lenOk := lenIs 4, body := bodyTermPower, scope := fun c d => d.mayActTerm c.snd c.tgt }

/-- Action: 0 disable, 1 enable (log 15). A disable keeps the ONU-ID and the keys, which go with the return to ABSENT (R180, R333). An enable ends a hold-off, returns the period to 1 s and clears the losses (R186). -/
def bodyTermTxctrl (c : Cmd) (d : Dev) : Res :=
  d.withTerm c.tgt fun t =>
  if 1 < c.u8 0 then d.fail stBadParam (ofsP 0)
  else if c.u8 0 = 0 then
    if t.st = .disabled then d.ok
    else Dev.ok (((d.svcBreak c.tgt).updTerm c.tgt (fun t => { t.toAbsent with st := .disabled, onu := t.onu })).ploam t.ch .disableSn c.tgt 1)
  else
    let d := match t.st with
      | .heldOff => d.enableSn c.tgt
      | .isolated => ((d.enableSn c.tgt).count .rogueReleased t.ch).endCond 0x06 0x05 (tileOfChan t.ch) c.tgt
      | .disabled => d.enableSn c.tgt
      | _ => d
    Dev.ok (d.updTerm c.tgt (fun t => { t with holdS := 1, everHeld := false, losses := [] }))

/-- CMD_TERM_TXCTRL (R186, R194). -/
def specTermTxctrl : CmdSpec :=
  { op := 0x0307, crit := true, lenOk := lenIs 4, body := bodyTermTxctrl, scope := fun c d => d.mayActTerm c.snd c.tgt }

/-- Value of a terminal state (Table 7-2). -/
def TermState.code : TermState → Nat
  | .absent => 0 | .ranging => 1 | .inService => 2 | .lowPower => 3 | .reacquire => 4 | .heldOff => 5 | .isolated => 6 | .disabled => 7

/-- State, ONU-ID (0xFFFF none), equalisation delay and round-trip time in ns, uncertainty, distance, tolerance (log 15). -/
def bodyTermStatus (c : Cmd) (d : Dev) : Res :=
  d.withTerm c.tgt fun t =>
  d.ok (leBytes 1 t.st.code ++ leBytes 1 0 ++ leBytes 2 (t.onu.getD 0xFFFF) ++ leBytes 4 (lowBits 32 (t.eqd / 1000))
    ++ leBytes 4 (lowBits 32 (t.rtt / 1000)) ++ leBytes 2 t.uncert ++ leBytes 2 0 ++ leBytes 4 t.dist ++ leBytes 4 t.tol)

/-- CMD_TERM_STATUS (R194). -/
def specTermStatus : CmdSpec := { op := 0x0308, lenOk := lenIs 0, body := bodyTermStatus, scope := fun c d => d.mayReadTerm c.snd c.tgt }

/-! ## Meanings -/

/-- CMD_TERM_CREATE (R170). -/
def execCmdTermCreate (p : Packet) (s : State) : Host.Outcome State Fault Refusal := live (Dev.runCommand specTermCreate p) s

/-- CMD_TERM_DELETE (R186). -/
def execCmdTermDelete (p : Packet) (s : State) : Host.Outcome State Fault Refusal := live (Dev.runCommand specTermDelete p) s

/-- CMD_TERM_MAP (R170). -/
def execCmdTermMap (p : Packet) (s : State) : Host.Outcome State Fault Refusal := live (Dev.runCommand specTermMap p) s

/-- CMD_RNG_CHAN_CONFIG (R169). -/
def execCmdRngChanConfig (p : Packet) (s : State) : Host.Outcome State Fault Refusal := live (Dev.runCommand specRngChanConfig p) s

/-- CMD_TERM_RERANGE (R184). -/
def execCmdTermRerange (p : Packet) (s : State) : Host.Outcome State Fault Refusal := live (Dev.runCommand specTermRerange p) s

/-- CMD_TERM_POWER (R192). -/
def execCmdTermPower (p : Packet) (s : State) : Host.Outcome State Fault Refusal := live (Dev.runCommand specTermPower p) s

/-- CMD_TERM_TXCTRL (R186). -/
def execCmdTermTxctrl (p : Packet) (s : State) : Host.Outcome State Fault Refusal := live (Dev.runCommand specTermTxctrl p) s

/-- CMD_TERM_STATUS (R194). -/
def execCmdTermStatus (p : Packet) (s : State) : Host.Outcome State Fault Refusal := live (Dev.runCommand specTermStatus p) s

/-- SERIAL_NUMBER_ONU (R181). -/
def execSerialNumberOnu (ch : Nat) (serial : List Byte) (offsetNs : Int) (s : State) : Host.Outcome State Fault Refusal :=
  live (fun d => d.opSerialNumberOnu ch serial offsetNs) s

/-- PASSWORD (R181). -/
def execPassword (tid : Nat) (cred : List Byte) (rtt : Int) (s : State) : Host.Outcome State Fault Refusal :=
  live (fun d => d.opPassword tid cred rtt) s

/-- SLEEP_REQUEST (R192). -/
def execSleepRequest (tid : Nat) (awake : Bool) (s : State) : Host.Outcome State Fault Refusal :=
  live (fun d => d.opSleepRequest tid awake) s

/-- DYING_GASP (R191). -/
def execDyingGasp (tid : Nat) (s : State) : Host.Outcome State Fault Refusal :=
  live (fun d => d.opDyingGasp tid) s

/-- PLOAM_UNEXPECTED (R191). -/
def execPloamUnexpected (p : PloamAt) (s : State) : Host.Outcome State Fault Refusal :=
  live (fun d => d.opPloamUnexpected p.ch p.msg) s

/-- RANGING_WINDOWS_EXHAUSTED (R181). -/
def execRangingWindowsExhausted (tid : Nat) (s : State) : Host.Outcome State Fault Refusal :=
  live (fun d => d.opRangingWindowsExhausted tid) s

/-- REACQUIRE_TIMEOUT (R184). -/
def execReacquireTimeout (tid : Nat) (s : State) : Host.Outcome State Fault Refusal :=
  live (fun d => d.opReacquireTimeout tid) s

/-- HOLD_OFF_END (R185). -/
def execHoldOffEnd (tid : Nat) (s : State) : Host.Outcome State Fault Refusal :=
  live (fun d => d.opHoldOffEnd tid) s

/-- DISC_MAP_PERIOD_START (R175). -/
def execDiscMapPeriodStart (ch : Nat) (s : State) : Host.Outcome State Fault Refusal :=
  live (fun d => d.opDiscMapPeriodStart ch) s

/-- DISC_BROAD_PERIOD_START (R175). -/
def execDiscBroadPeriodStart (ch : Nat) (s : State) : Host.Outcome State Fault Refusal :=
  live (fun d => d.opDiscBroadPeriodStart ch) s

/-- DARK_PERIOD_START (R187). -/
def execDarkPeriodStart (ch : Nat) (s : State) : Host.Outcome State Fault Refusal :=
  live (fun d => d.opDarkPeriodStart ch) s

/-- DARK_WINDOW_VOID (R187). -/
def execDarkWindowVoid (ch : Nat) (s : State) : Host.Outcome State Fault Refusal :=
  live (fun d => d.opDarkWindowVoid ch) s

/-- HUNT_SETTLE_EXPIRY (R189). -/
def execHuntSettleExpiry (ch : Nat) (s : State) : Host.Outcome State Fault Refusal :=
  live (fun d => d.opHuntSettleExpiry ch) s

end Sys2Proof.Machine
end

