-- ==== Sys2Proof/Machine/Grant.lean ====
section
/-!
DEFINITION. The grant scheduler: allocations, admission, demand, the order of service, surplus sharing, the placement of bursts and
windows, and the commands of class 0x04 (chapter 08).
-/

namespace Sys2Proof.Machine

/-! ## Allocations as accepted -/

/-- Parameters and phase that the last accepted command leaves (R197, R198). -/
def Alloc.latest (a : Alloc) : AllocParams × Nat := match a.next.getLast? with | some (_, p, ph) => (p, ph) | none => (a.p, a.phase)

/-- Allocations of a channel. -/
def Dev.allocsOf (d : Dev) (ch : Nat) : List (Nat × Alloc) := d.allocs.filter (fun e => d.chanOfTerm e.2.tid = ch)

/-- Guard, W, preamble and delimiter of a terminal's bursts in bytes: W wider than 64 bits is paid (R209, R210). -/
def Dev.burstP (d : Dev) (ch tid : Nat) : Nat :=
  let r := d.rate ch
  let u := match mget d.terms tid with | some t => t.uncert | none => 8
  ceilDiv (r.guard + max 64 (max (d.winMin ch) u) + r.pre + r.del) 8

/-- Parity bytes per codeword of a terminal, 0 with FEC off (R139, R211). -/
def Dev.burstQ (d : Dev) (ch tid : Nat) : Nat :=
  if ch % 4 = 2 then (d.rate ch).q else match mget d.terms tid with | some t => if t.fec then (d.rate ch).q else 0 | none => 0

/-- Line bytes of a burst that carries `a` bytes (R211). -/
def lineB (r : Rate) (p q a : Nat) : Nat := p + r.hdr + a + q * ceilDiv (r.hdr + a) r.k

/-- Largest number of bytes that a burst within a budget of line bytes carries. -/
def carryMax (r : Rate) (p q budget : Nat) : Nat :=
  let b := budget - p
  let t := b / (r.k + q) * r.k + (b % (r.k + q) - q)
  t - r.hdr

/-! ## Admission and phases (R198, R202) -/

/-- Guaranteed line load of a channel over allocations and their parameters (R202). -/
def Dev.guarLoad (d : Dev) (ch : Nat) (as : List (Nat × AllocParams)) : Nat :=
  let r := d.rate ch
  let as := as.filter (fun e => e.2.typ < 2)
  let tids := (as.map (fun e => e.1)).eraseDups
  (tids.map (fun t =>
    let a := ((as.filter (fun e => e.1 = t)).map (fun e => e.2.fixed + e.2.assured + (if e.2.nonStatus || e.2.typ = 0 then 0 else r.rep))).foldl (· + ·) 0
    lineB r (d.burstP ch t) (d.burstQ ch t) a)).foldl (· + ·) 0

/-- Parameters in force or accepted on a channel, one allocation replaced or added. -/
def Dev.loadWith (d : Dev) (ch aid : Nat) (new : Option (Nat × AllocParams)) : Nat :=
  let others := ((d.allocsOf ch).filter (fun e => e.1 ≠ aid && e.2.delAt.isNone)).map (fun e => (e.2.tid, e.2.latest.1))
  d.guarLoad ch (others ++ new.toList)

/-- Whether the load of a channel is admitted: within the limit, or no higher than it was (R202). -/
def Dev.admits (d : Dev) (ch aid tid : Nat) (p : AllocParams) : Bool :=
  let old := d.guarLoad ch (((d.allocsOf ch).filter (fun e => e.2.delAt.isNone)).map (fun e => (e.2.tid, e.2.latest.1)))
  let new := d.loadWith ch aid (some (tid, p))
  new * 100 ≤ (d.rate ch).fb * (100 - d.winReservePct ch) || new ≤ old

/-- The phase of an allocation: least guaranteed load over its frames, lowest on a tie (R198). -/
def Dev.choosePhase (d : Dev) (ch aid period : Nat) : Nat :=
  let os := ((d.allocsOf ch).filter (fun e => e.1 ≠ aid && e.2.delAt.isNone && e.2.latest.1.typ < 2)).map (fun e =>
    (e.2.latest.1.period, e.2.latest.2, (e.2.latest.1.fixed + e.2.latest.1.assured) * e.2.latest.1.period))
  let l := os.foldl (fun l o => Nat.lcm l o.1) period
  let load (n : Nat) : Nat := (os.map (fun o => if n % o.1 = o.2.1 % o.1 then o.2.2 else 0)).foldl (· + ·) 0
  let top (ph : Nat) : Nat := ((List.range (l / period)).map (fun i => load (ph + period * i))).foldl max 0
  ((sortBy top (List.range period)).head?).getD 0

/-! ## Demand (R203 to R206) -/

/-- Effective assured and peak rates (R206). -/
def Alloc.effA (a : Alloc) : Nat := a.p.assured + a.fmA
def Alloc.effP (a : Alloc) : Nat := a.p.peak + a.fmP

/-- Poll interval in frames (R205). -/
def AllocParams.pollFrames (p : AllocParams) : Nat :=
  max p.period (if p.cls = 0 then 1 else if p.cls = 1 then 2 else if p.cls = 2 then 8 else 32)

/-- Demand in bytes for the next frame (R203, R204); a standby unit serves status-mode allocations their effective assured rate
(R432). -/
def Dev.demand (d : Dev) (ch : Nat) (a : Alloc) : Nat :=
  if a.p.nonStatus then
    let t := tileOfChan ch
    let base := match a.used with
      | none => a.lastGrant
      | some (g, u) => if d.nsrUp t * g ≤ 100 * u then 2 * g else if 100 * u < d.nsrDown t * g then g / 2 else g
    max base (max 64 (a.effA * a.p.period))
  else if d.standbyTree (ch / 4) then a.effA * a.p.period
  else if 16 ≤ a.noReport then 0
  else match a.report with
    | none => 0
    | some (_, b) => b - (a.grants.map (fun g => g.2)).foldl (· + ·) 0

/-- Whether an allocation is owed a poll grant in frame `f` (R205). -/
def Alloc.pollDue (a : Alloc) (f : Nat) : Bool :=
  a.p.typ ≠ 0 && !a.p.nonStatus && (a.owed || frameGe f (plusF a.lastFrame (a.p.pollFrames + 1)))

/-! ## The work of one frame -/

/-- One allocation as the frame serves it; `parts` are the bytes it was granted, each with its place in the order of service. -/
structure Srv where
  aid : Nat
  tid : Nat
  p : AllocParams
  effA : Nat
  effP : Nat
  demand : Nat
  rem : Nat
  poll : Bool
  granted : Nat := 0
  parts : List (Nat × Nat) := []
  polled : Bool := false
  reported : Bool := false
  deriving DecidableEq, Repr

/-- One terminal as the frame charges it: guard to delimiter, parity, bytes carried. -/
structure STerm where
  tid : Nat
  p : Nat
  q : Nat
  a : Nat := 0
  charged : Bool := false
  deriving DecidableEq, Repr

/-- What is left of the pool, and who received what. -/
structure Work where
  r : Rate
  g : Nat
  pool : Nat
  terms : List STerm
  srv : List Srv
  short : List (Nat × Nat) := []
  stop : Bool := false
  clock : Nat := 0
  deriving DecidableEq, Repr

/-- The terminal of a work. -/
def Work.term (w : Work) (tid : Nat) : STerm := (w.terms.find? (fun t => t.tid = tid)).getD { tid := tid, p := 0, q := 0 }

/-- Line bytes a terminal has cost so far. -/
def Work.spent (w : Work) (t : STerm) : Nat := if t.charged then lineB w.r t.p t.q t.a else 0

/-- Bytes of a status report that an allocation still has to be charged. -/
def Work.repOf (w : Work) (s : Srv) : Nat := if s.p.typ = 0 || s.p.nonStatus || s.reported then 0 else w.r.rep

/-- Grants up to `want` bytes at the granularity, as burst_cap, the peak and the pool allow; what the pool refuses is short, unless the
allocation is FIXED, and later grants of the stage receive nothing (R207). A poll is granted whole, or not at all. -/
def Work.grant (w : Work) (aid want : Nat) (fixed poll : Bool) : Work :=
  match w.srv.find? (fun s => s.aid = aid) with
  | none => w
  | some s =>
    let t := w.term s.tid
    let lim := if s.p.cap = 0 then want else min want (s.p.cap - s.granted)
    let lim := if fixed then lim else min lim (s.effP * s.p.period + s.rem - s.granted)
    let lim := if poll then lim else lim / w.g * w.g
    let rep := w.repOf s
    let room := carryMax w.r t.p t.q (w.pool + w.spent t)
    let served := !w.stop && (if poll then t.a + rep + lim ≤ room else 0 < min lim ((room - t.a - rep) / w.g * w.g))
    let b := if !served then 0 else if poll then lim else min lim ((room - t.a - rep) / w.g * w.g)
    let w := if poll || lim ≤ b then w else { w with short := if fixed then w.short else w.short ++ [(aid, lim - b)], stop := true }
    if !served then w
    else
      let t' := { t with a := t.a + rep + b, charged := true }
      { w with
        pool := w.pool + w.spent t - w.spent t'
        clock := w.clock + 1
        terms := w.terms.map (fun x => if x.tid = s.tid then t' else x)
        srv := w.srv.map (fun x => if x.aid = aid then
          { x with granted := x.granted + b, parts := x.parts ++ [(w.clock, b)], reported := x.reported || rep ≠ 0, polled := x.polled || poll } else x) }

/-- Runs a stage over allocations in order. -/
def Work.stage (w : Work) (aids : List (Nat × Nat)) (fixed poll : Bool) : Work :=
  aids.foldl (fun w x => w.grant x.1 x.2 fixed poll) { w with stop := false }

/-! ## Surplus (R208) -/

/-- Rotates a list by a count. -/
def rotBy {α : Type} (n : Nat) (l : List α) : List α := if l.isEmpty then l else l.drop (n % l.length) ++ l.take (n % l.length)

/-- A child of a share: key, weight, remaining demand, received. -/
structure Sh where
  key : Nat
  w : Nat
  dem : Nat
  got : Nat := 0
  deriving DecidableEq, Repr

/-- Hands out the pool one unit at a time to active children in rotation order. -/
def handOut (g : Nat) : Nat → Nat → List Sh → List Sh
  | pool, n, cs =>
    let act := cs.filter (fun c => c.got < c.dem)
    if act.isEmpty then cs
    else
      let u := pool / g
      let o := rotBy n cs
      let o := (o.foldl (fun (acc : List Sh × Nat) c =>
        if c.got < c.dem && 0 < acc.2 then ({ c with got := c.got + g } :: acc.1, acc.2 - 1) else (c :: acc.1, acc.2)) ([], u)).1
      sortBy (fun c => c.key) o

/-- Shares a pool among children by weight (R208); `n` is the rotation count, the first argument bounds the rounds. -/
def share (g n : Nat) : Nat → Nat → List Sh → List Sh
  | 0, _, cs => cs
  | fuel + 1, pool, cs =>
    let act := cs.filter (fun c => c.got < c.dem)
    if act.isEmpty || pool < g then cs
    else
      let tot := (act.map (fun c => c.w)).foldl (· + ·) 0
      let give (c : Sh) : Nat := if c.got < c.dem then min (pool * c.w / tot / g * g) (c.dem - c.got) else 0
      let used := (act.map give).foldl (· + ·) 0
      if used = 0 then handOut g pool n cs
      else share g n fuel (pool - used) (cs.map (fun c => { c with got := c.got + give c }))

/-- Shares with the children of weight 0 after all others (R200). -/
def shareZ (g n pool : Nat) (cs : List Sh) : List Sh :=
  let fuel := 2 * cs.length + 64
  let a := share g n fuel pool (cs.filter (fun c => 0 < c.w))
  let left := pool - (a.map (fun c => c.got)).foldl (· + ·) 0
  let met := a.all (fun c => c.dem ≤ c.got)
  let z := (cs.filter (fun c => c.w = 0)).map (fun c => { c with w := 1 })
  sortBy (fun c => c.key) (a ++ (if met then share g n fuel left z else z))

/-- What a round may still give an allocation. -/
def Work.want (w : Work) (s : Srv) : Nat :=
  let top := min s.demand (s.effP * s.p.period)
  let top := if s.p.cap = 0 then top else min top s.p.cap
  (top - s.granted) / w.g * w.g

/-- The charge of a terminal for the allocations of a round: overhead when it is new, their status reports (R207, R208). -/
def Work.roundCharge (w : Work) (tid : Nat) (ss : List Srv) : Nat × STerm :=
  let t := w.term tid
  let rep := ((ss.filter (fun s => s.tid = tid)).map w.repOf).foldl (· + ·) 0
  let t' := { t with a := t.a + rep, charged := true }
  (w.spent t' - w.spent t, t')

/-- Drops terminals from the end of the rotation order until the charges fit the pool. -/
def fitCharges : Nat → Nat → List (Nat × Nat) → List (Nat × Nat)
  | 0, _, l => l
  | n + 1, pool, l => if (l.map (fun x => x.2)).foldl (· + ·) 0 ≤ pool then l else fitCharges n pool l.dropLast

/-- Takes bytes from a terminal's grants of a round, in descending AID order. -/
def cutGrants (cut : Nat) (gs : List (Nat × Nat)) : List (Nat × Nat) :=
  (gs.reverse.foldl (fun (acc : List (Nat × Nat) × Nat) g => let c := min acc.2 g.2; ((g.1, g.2 - c) :: acc.1, acc.2 - c)) ([], cut)).1

/-- A surplus round over the allocations that `sel` picks (R208). `dw` and `tw` give the weights of domains and terminals. Terminals not yet
charged leave the round from the end of the rotation order until their charges fit; one charged before pays only its new status reports. -/
def Work.surplus (w : Work) (rot : Nat) (dw : Nat → Nat) (tw : Nat → Nat → Nat) (sel : Srv → Bool) : Work :=
  let ss := w.srv.filter (fun s => sel s && 0 < w.want s)
  let tids := sortBy id ((ss.map (fun s => s.tid)).eraseDups)
  let cost := (rotBy rot tids).map (fun t => (t, (w.roundCharge t ss).1))
  let old := cost.filter (fun x => (w.term x.1).charged)
  let old := fitCharges old.length w.pool old
  let new := cost.filter (fun x => !(w.term x.1).charged)
  let new := fitCharges new.length (w.pool - (old.map (fun x => x.2)).foldl (· + ·) 0) new
  let kept := (old ++ new).map (fun x => x.1)
  let ss := ss.filter (fun s => kept.contains s.tid)
  let w : Work := kept.foldl (fun w t =>
    let (c, t') := w.roundCharge t ss
    { w with pool := w.pool - c, terms := w.terms.map (fun x => if x.tid = t then t' else x),
             srv := w.srv.map (fun s => if s.tid = t && ss.any (fun y => y.aid = s.aid) && w.repOf s ≠ 0 then { s with reported := true } else s) }) w
  let dems (f : Srv → Bool) : Nat := ((ss.filter f).map w.want).foldl (· + ·) 0
  let doms := sortBy id ((ss.map (fun s => s.p.sdom)).eraseDups)
  let dsh := shareZ w.g rot w.pool (doms.map (fun x => { key := x, w := dw x, dem := dems (fun s => s.p.sdom = x) }))
  let tsh := dsh.flatMap (fun c =>
    let ts := sortBy id (((ss.filter (fun s => s.p.sdom = c.key)).map (fun s => s.tid)).eraseDups)
    (shareZ w.g rot c.got (ts.map (fun t => { key := t, w := tw t c.key, dem := dems (fun s => s.p.sdom = c.key && s.tid = t) }))).map (fun x => (c.key, x)))
  let got := tsh.flatMap (fun (dom, c) =>
    let as := ss.filter (fun s => s.p.sdom = dom && s.tid = c.key)
    (shareZ w.g rot c.got (as.map (fun s => { key := s.aid, w := s.p.weight, dem := w.want s }))).map (fun x => (c.key, x.key, x.got)))
  let total := (got.map (fun x => x.2.2)).foldl (· + ·) 0
  let w : Work := { w with pool := w.pool - total }
  let w := (rotBy rot (sortBy id kept)).foldl (fun w tid =>
    let t := w.term tid
    let gs := sortBy (fun x => x.1) ((got.filter (fun x => x.1 = tid)).map (fun x => x.2))
    let b := (gs.map (fun x => x.2)).foldl (· + ·) 0
    let room := carryMax w.r t.p t.q (w.pool + b + w.spent t) - t.a
    let cut := if b ≤ room then 0 else ceilDiv (b - room) w.g * w.g
    let gs := cutGrants cut gs
    let t' := { t with a := t.a + (b - cut) }
    { w with
      pool := w.pool + b + w.spent t - w.spent t',
      terms := w.terms.map (fun x => if x.tid = tid then t' else x),
      srv := w.srv.map (fun s => match gs.find? (fun x => x.1 = s.aid) with
        | some x => { s with granted := s.granted + x.2, parts := s.parts ++ [(w.clock, x.2)] }
        | none => s) }) w
  { w with clock := w.clock + 1 }

/-! ## Windows in the frame (R176 to R178) -/

/-- How many windows of its class a frame may hold. -/
def classMax (k : WinKind) : Nat := match k with | .ranging => 4 | _ => 1

def sameClass (a b : WinKind) : Bool := a = b || (a = .map && b = .broad) || (a = .broad && b = .map)

/-- Sorts the windows submitted into those the frame takes, those over its limits, and those deferred; `conts` go on from the frame before, and
`room` is what period-1 FIXED and safety grants leave. A broad window longer than the room takes all of it and goes on in the next frame. -/
def pickWins (conts : List WinReq) : List WinReq → Nat → List WinReq → List WinReq → List WinReq → List WinReq × List WinReq × List WinReq
  | [], _, take, keep, defer => (take, keep, defer)
  | w :: ws, room, take, keep, defer =>
    if classMax w.kind ≤ ((conts ++ take).filter (fun x => sameClass x.kind w.kind)).length then pickWins conts ws room take (keep ++ [w]) defer
    else if w.lenB ≤ room then pickWins conts ws (room - w.lenB) (take ++ [w]) keep defer
    else if w.kind = .broad && 0 < room then
      pickWins conts ws 0 (take ++ [{ w with lenB := room, fullB := w.lenB }]) (keep ++ [{ w with cont := true, lenB := w.lenB - room }]) defer
    else pickWins conts ws room take keep (defer ++ [w])

/-- Whether a window goes on in the next frame. -/
def WinReq.spans (w : WinReq) : Bool := !w.cont && w.lenB < w.fullB

/-- Places windows after byte `pos` (log 37): one that spans frames at the end, so that nothing is granted inside it (R178), the dark window at its
drawn offset where it is free, the others one after another. -/
def placeWins (r : Rate) (pos ofsNs : Nat) (ws : List WinReq) : List WinReq :=
  let put := (ws.filter (fun w => w.kind ≠ .dark && !w.spans)).foldl (fun (acc : List WinReq × Nat) w =>
    (acc.1 ++ [{ w with startB := acc.2 }], acc.2 + w.lenB)) ([], pos)
  let tail := (ws.filter WinReq.spans).map (fun w => { w with startB := r.fb - w.lenB })
  let edge := match tail with | w :: _ => w.startB | [] => r.fb
  put.1 ++ (ws.filter (fun w => w.kind = .dark)).map (fun w =>
    { w with startB := max put.2 (min (r.darkBytes ofsNs) (edge - w.lenB)) }) ++ tail

/-! ## Bursts (R209 to R213) -/

/-- Grants of a terminal in burst order: safety, FIXED, ascending latency class, ascending AID (R212). -/
def Work.burstGrants (w : Work) (tid : Nat) : List GrantRec :=
  let ss := w.srv.filter (fun s => s.tid = tid && (0 < s.granted || s.polled))
  let key (s : Srv) : Nat := (if s.p.safety then 0 else if s.p.typ = 0 then 1 else 2 + s.p.cls) * 2 ^ 20 + s.aid
  (sortBy key ss).map (fun s => { aid := s.aid, bytes := s.granted, poll := s.polled, report := !(s.p.typ = 0 || s.p.nonStatus), safety := s.p.safety })

/-- Bytes that a list of grants carries. -/
def carried (r : Rate) (gs : List GrantRec) : Nat := (gs.map (fun g => g.bytes + (if g.report then r.rep else 0))).foldl (· + ·) 0

/-- Fills a part of a split burst with up to `n` bytes; the rest goes to the second part. -/
def splitGrants (r : Rate) (g : Nat) : List GrantRec → Nat → List GrantRec × List GrantRec
  | [], _ => ([], [])
  | x :: xs, n =>
    let rep := if x.report then r.rep else 0
    if x.bytes + rep ≤ n then let (a, b) := splitGrants r g xs (n - x.bytes - rep); (x :: a, b)
    else
      let k := (n - rep) / g * g
      if k = 0 then ([], x :: xs) else ([{ x with bytes := k }], { x with bytes := x.bytes - k, report := false } :: xs)

/-- What a terminal was granted, last served first: allocation, bytes; within a surplus round by descending AID (R213). -/
def Work.cutOrder (w : Work) (tid : Nat) : List (Nat × Nat) :=
  let parts := (w.srv.filter (fun s => s.tid = tid)).flatMap (fun s => s.parts.map (fun p => (p.1 * 2 ^ 17 + s.aid, s.aid, p.2)))
  ((sortBy (fun x => x.1) parts).reverse).map (fun x => x.2)

/-- Takes bytes from the grant of one allocation; one left without any goes. -/
def takeFrom (aid c : Nat) (gs : List GrantRec) : List GrantRec :=
  (gs.map (fun x => if x.aid = aid then { x with bytes := x.bytes - c } else x)).filter (fun x => x.aid ≠ aid || 0 < x.bytes)

/-- Reduces grants to `n` bytes carried, in the reverse of their order of service. -/
def reduceTo (r : Rate) (g n : Nat) (order : List (Nat × Nat)) (gs : List GrantRec) : List GrantRec :=
  order.foldl (fun gs x => if carried r gs ≤ n then gs else takeFrom x.1 (min x.2 (ceilDiv (carried r gs - n) g * g)) gs) gs

/-- The grants of both parts of a split burst together. -/
def mergeGrants (one two : List GrantRec) : List GrantRec :=
  one.map (fun x => match two.find? (fun y => y.aid = x.aid) with | some y => { x with bytes := x.bytes + y.bytes } | none => x)
    ++ two.filter (fun y => !one.any (fun x => x.aid = y.aid))

/-- A burst to place: terminal, its overhead bytes, grants. -/
structure ToPlace where
  t : STerm
  gs : List GrantRec
  second : Bool := false

/-- A burst with grants at a byte of the frame. -/
def ToPlace.at (b : ToPlace) (r : Rate) (gs : List GrantRec) (at_ : Nat) : PlanBurst :=
  { tid := b.t.tid, startB := at_, lenB := lineB r b.t.p b.t.q (carried r gs), second := b.second, grants := gs }

/-- A burst that reaches past the end of the frame from byte `pos`: its terminal's grants are reduced, those of a first part placed before it
too (R213). Answers the bursts placed, last first. -/
def placeLast (r : Rate) (g : Nat) (order : List (Nat × Nat)) (b : ToPlace) (pos : Nat) (acc : List PlanBurst) : List PlanBurst :=
  let room := carryMax r b.t.p b.t.q (r.fb - pos)
  match b.second, acc with
  | true, x :: rest =>
    let n := carried r x.grants
    let (one, two) := splitGrants r g (reduceTo r g (n + room) order (mergeGrants x.grants b.gs)) n
    let two := reduceTo r g room order two
    let acc := if one.isEmpty then rest else ({ b with second := false }).at r one x.startB :: rest
    if two.isEmpty then acc else b.at r two pos :: acc
  | _, _ =>
    let gs := reduceTo r g room order b.gs
    if gs.isEmpty then acc else b.at r gs pos :: acc

/-- Places the bursts that carry no safety allocation among the windows (R213): the bursts, last first, and the number of splits. -/
def placeBursts (r : Rate) (g : Nat) (order : Nat → List (Nat × Nat)) : Nat → List ToPlace → List WinReq → Nat → List PlanBurst → Nat → List PlanBurst × Nat
  | 0, _, _, _, acc, n => (acc, n)
  | _, [], _, _, acc, n => (acc, n)
  | fuel + 1, b :: bs, ws, pos, acc, n =>
    let len := lineB r b.t.p b.t.q (carried r b.gs)
    let ov := b.t.p + r.hdr
    match ws with
    | w :: ws' =>
      if w.startB + w.lenB ≤ pos then placeBursts r g order fuel (b :: bs) ws' pos acc n
      else if pos + len ≤ w.startB then placeBursts r g order fuel bs ws (pos + len) (b.at r b.gs pos :: acc) n
      else
        let gap := w.startB - pos
        let (one, two) := splitGrants r g b.gs (carryMax r b.t.p b.t.q gap)
        if !b.second && 2 * ov ≤ gap && !one.isEmpty && !two.isEmpty then
          placeBursts r g order fuel ({ b with gs := two, second := true } :: bs) ws' (w.startB + w.lenB) (b.at r one pos :: acc) (n + 1)
        else placeBursts r g order fuel (b :: bs) ws' (w.startB + w.lenB) acc n
    | [] =>
      if pos + len ≤ r.fb then placeBursts r g order fuel bs [] (pos + len) (b.at r b.gs pos :: acc) n
      else
        let acc' := placeLast r g (order b.t.tid) b pos acc
        placeBursts r g order fuel bs [] (match acc' with | x :: _ => max pos (x.startB + x.lenB) | [] => pos) acc' n

/-! ## The plan of a frame (R207, R215, R218) -/

/-- Whether the terminal of an allocation is granted in the plan for frame `f` built at frame `n` (R181, R189, R193, R199); one in LOW_POWER
before a wake only as its aware intervals require (R192). -/
def Dev.termGranted (d : Dev) (n f tid : Nat) : Bool :=
  match mget d.terms tid with
  | none => false
  | some t =>
    (match (d.chan t.ch).hunt with | some h => !h.off.contains tid | none => true)
      && ((t.st = .inService && t.sendFrom.any (frameGe n))
        || (t.st = .lowPower && (t.wakeFrame.any (fun w => frameGe n (plusF w 2))
          || Config.awareBurst (t.ch % 4) t.mode t.interval ((f + 2 ^ 48 - t.sleptAt) % 2 ^ 48))))

/-- Channel whose terminals a channel's plans serve: on the standby tile of a PAIRED TILES group, the partner's (R419). -/
def Dev.srcChan (d : Dev) (ch : Nat) : Nat :=
  match mget d.groups (ch / 4) with
  | some g => if g.tiles && d.standbyTree (ch / 4) && (d.termsOf ch).isEmpty then 4 * g.pTree + ch % 4 else ch
  | none => ch

/-- Allocations served in frame `f` by the plan built at frame `n`, ascending AID. -/
def Dev.served (d : Dev) (ch n f : Nat) : List (Nat × Alloc) :=
  (d.allocsOf (d.srcChan ch)).filter (fun e => frameGe n e.2.startAt && d.termGranted n f e.2.tid && f % e.2.p.period = e.2.phase % e.2.p.period)

/-- The plan of a channel from what was served first, the windows taken, and `base`, the bytes that a window of the frame before still holds. -/
def Dev.planOf (d : Dev) (ch f : Nat) (standing : Bool) (base : Nat) (w1 : Work) (take : List WinReq) : Plan :=
  let r := d.rate ch
  let g := gran ch
  let c := d.chan ch
  let w2 : Work := { w1 with pool := w1.pool - (take.map (fun w => w.lenB)).foldl (· + ·) 0 }
  let w3 := w2.stage ((w2.srv.filter (fun s => s.p.typ = 0 && s.p.period ≠ 1)).map (fun s => (s.aid, s.p.fixed * s.p.period + s.rem))) true false
  let w4 := w3.stage ((w3.srv.filter (fun s => s.poll && !s.p.safety)).map (fun s => (s.aid, Config.pollBytes (ch % 4)))) false true
  let todo (s : Srv) (rate : Nat) : Nat × Nat := (s.aid, min s.demand (rate * s.p.period + s.rem) - s.granted)
  let plain := (w4.srv.filter (fun s => s.p.typ = 1 && !s.p.fm && !s.p.safety)).map (fun s => todo s s.p.assured)
  let fms := (sortBy (fun (s : Srv) => mgetD d.domPrio s.p.sdom 4) (w4.srv.filter (fun s => s.p.fm))).map (fun s => todo s s.effA)
  let w5 := w4.stage (plain ++ fms) false false
  let dw (x : Nat) : Nat := mgetD d.domW (256 * ch + x) 16
  let tw (t x : Nat) : Nat := mgetD d.tdomW (256 * t + x) 16
  let w6 := w5.surplus c.rot dw tw (fun s => (s.p.typ = 2 || s.p.typ = 1) && !s.p.safety)
  let w7 := w6.surplus c.rot dw tw (fun s => s.p.typ = 3)
  let w := if standing then w3 else w7
  let list := (w.terms.filter (fun t => t.charged)).map (fun t => ({ t := t, gs := w.burstGrants t.tid } : ToPlace))
  let safe := list.filter (fun b => b.gs.any (fun x => x.safety))
  let sb := safe.foldl (fun (acc : List PlanBurst × Nat) b =>
    let x := b.at r b.gs acc.2
    (acc.1 ++ [{ x with safety := true }], acc.2 + x.lenB)) ([], base)
  let wins := placeWins r sb.2 c.darkOfs take
  let cls (b : ToPlace) : Nat := (b.gs.map (fun x => match w.srv.find? (fun s => s.aid = x.aid) with | some s => s.p.cls | none => 3)).foldl min 3
  let others := sortBy cls (rotBy c.tidRot (list.filter (fun b => !b.gs.any (fun x => x.safety))))
  let (ob, splits) := placeBursts r g w.cutOrder (4 * others.length + 4 * wins.length + 8) others (sortBy (fun w => w.startB) wins) sb.2 [] 0
  let bursts := sb.1 ++ ob.reverse
  let lineUsed := (bursts.map (fun b => b.lenB)).foldl (· + ·) 0
  let winUsed := base + (wins.map (fun w => w.lenB)).foldl (· + ·) 0
  let pay := (bursts.map (fun b => (b.grants.map (fun x => x.bytes)).foldl (· + ·) 0)).foldl (· + ·) 0
  let remOf (s : Srv) : Nat := ((if s.p.typ = 0 then s.p.fixed else s.effA) * s.p.period + s.rem) % g
  { frame := f, full := !standing, bursts := bursts, wins := wins, unused := r.fb - lineUsed - winUsed, overB := lineUsed - pay, splits := splits,
    short := w.short, demands := w.srv.map (fun s => (s.aid, s.demand)), rems := w.srv.map (fun s => (s.aid, remOf s)) }

/-- Bytes that a plan grants an allocation. -/
def Plan.granted (p : Plan) (aid : Nat) : Nat :=
  ((p.bursts.flatMap (fun b => b.grants)).filter (fun x => x.aid = aid)).foldl (fun n x => n + x.bytes) 0

/-- The plan with the windows taken; while they displace a period-1 FIXED grant, the last of them that does not span frames is deferred (R177). -/
def Dev.fitPlan (d : Dev) (ch f : Nat) (standing : Bool) (base : Nat) (w1 : Work) : Nat → List WinReq → List WinReq → Plan × List WinReq
  | 0, take, defer => (d.planOf ch f standing base w1 take, defer)
  | n + 1, take, defer =>
    let p := d.planOf ch f standing base w1 take
    let whole := w1.srv.all (fun s => s.p.typ ≠ 0 || s.p.period ≠ 1 || s.granted ≤ p.granted s.aid)
    match (take.filter (fun w => !w.spans)).getLast? with
    | some w => if whole then (p, defer) else d.fitPlan ch f standing base w1 n (take.erase w) (w :: defer)
    | none => (p, defer)

/-- Grant of a safety allocation: by its parameters alone (R214). -/
def AllocParams.safetyGrant (p : AllocParams) : Nat :=
  let n := (p.fixed + p.assured) * p.period
  if p.cap = 0 then n else min n p.cap

/-- The plan for frame `f` built at frame `n` of a channel from the windows submitted; `standing` serves FIXED and safety only. Period-1 FIXED and
safety grants are set aside first, which the windows do not displace (R177, R213, R214); then the windows are taken; then the other stages of
R207 follow. Answers the plan, and the windows kept and deferred. -/
def Dev.makePlan (d : Dev) (ch n f : Nat) (reqs : List WinReq) (standing : Bool) : Plan × List WinReq × List WinReq :=
  let r := d.rate ch
  let all := d.served ch n f
  let as := if standing then all.filter (fun e => e.2.p.typ = 0 || e.2.p.safety) else all
  let srv : List Srv := as.map (fun e => { aid := e.1, tid := e.2.tid, p := e.2.p, effA := e.2.effA, effP := e.2.effP, demand := d.demand ch e.2, rem := e.2.rem, poll := e.2.pollDue f })
  let tids := sortBy id ((srv.map (fun s => s.tid)).eraseDups)
  let conts := (reqs.filter (fun w => w.cont)).map (fun w => { w with startB := 0 })
  let base := match conts with | w :: _ => min r.fb w.lenB | [] => 0
  let rest := match conts with | w :: _ => if r.fb < w.lenB then [{ w with lenB := w.lenB - r.fb }] else [] | [] => []
  let w0 : Work := { r := r, g := gran ch, pool := r.fb - base, terms := tids.map (fun t => { tid := t, p := d.burstP ch t, q := d.burstQ ch t }), srv := srv }
  let w1 := w0.stage ((srv.filter (fun s => s.p.typ = 0 && s.p.period = 1)).map (fun s => (s.aid, s.p.fixed + s.rem))) true false
  let w1 := w1.stage ((srv.filter (fun s => s.p.typ ≠ 0 && s.p.safety)).map (fun s => (s.aid, s.p.assured * s.p.period + s.rem))) false false
  let (take, keep, defer) := pickWins conts ((reqs.filter (fun w => !w.cont)).map (d.sized ch)) w1.pool [] rest []
  let (p, late) := d.fitPlan ch f standing base w1 take.length take []
  ({ p with
      wins := conts.map (fun w => { w with lenB := base }) ++ p.wins
      safe := (all.filter (fun e => e.2.p.safety)).map (fun e => (e.1, e.2.p.safetyGrant)) },
   keep, defer ++ late)

/-! ## Changes that fall due (R216, R217) -/

/-- Removes an allocation: its Alloc-ID is withdrawn, and the terminal's weight in the domain goes with its last one (R201, R217). -/
def Dev.dropAlloc (d : Dev) (aid : Nat) : Dev :=
  match mget d.allocs aid with
  | none => d
  | some a =>
    let d := d.ploam (d.chanOfTerm a.tid) .deallocAlloc a.tid a.allocId
    let d := Dev.freeSlot { d with allocs := mdel d.allocs aid } 2 aid
    if d.allocs.any (fun e => e.2.tid = a.tid && e.2.p.sdom = a.p.sdom) then d
    else { d with tdomW := mdel d.tdomW (256 * a.tid + a.p.sdom) }

/-- Removes a terminal with what is bound to it (R186, R217, R276, log 27). -/
def Dev.dropTerm (d : Dev) (tid : Nat) : Dev :=
  match mget d.terms tid with
  | none => d
  | some t =>
    let d := if t.onu.isSome then d.ploam t.ch .deactivate tid else d
    let d := if t.st = .heldOff || t.st = .isolated || t.st = .disabled then d.ploam t.ch .enableSn tid 0 else d
    let d := ((d.allocs.filter (fun e => e.2.tid = tid)).map (fun e => e.1)).foldl Dev.dropAlloc d
    let d := ((d.queues.filter (fun e => e.2.down && e.2.tid = tid)).map (fun e => e.1)).foldl Dev.removeQueue d
    let d := (d.tables.map (fun e => e.1)).foldl (fun d k => d.flushOwner k 3 tid) d
    let d := (d.ponClear tid).freeSlot 3 tid
    { d with terms := mdel d.terms tid, pon := mdel d.pon tid, circuits := d.circuits.filter (fun e => e.2.tid ≠ tid) }

/-- Whether an allocation is among those a standing plan holds. -/
def AllocParams.standing (p : AllocParams) : Bool := p.typ = 0 || p.safety

/-- Whether a channel's standing plan has no entry left for an allocation of these parameters (R218). -/
def Dev.standingFull (d : Dev) (ch : Nat) (p : AllocParams) : Bool :=
  p.standing && 512 ≤ ((d.allocsOf ch).filter (fun e => e.2.p.standing)).length

/-- Channels whose FIXED or safety allocations change with the build at frame `n` (R218, R219). -/
def Dev.standingChanges (d : Dev) (n : Nat) : List Nat :=
  ((d.allocs.filter (fun e => e.2.p.standing &&
    (e.2.startAt = n || e.2.delAt.any (frameGe n) || e.2.next.any (fun x => frameGe n x.1)))).map (fun e => d.chanOfTerm e.2.tid)).eraseDups

/-- Applies the changes that the builds of frame `n` see. Those of one object come in the order in which they were accepted: nothing is accepted
for an allocation or a terminal behind its delete (R216, R217), and a weight goes with the last allocation it stands for (R201). -/
def Dev.grantChanges (d : Dev) (n : Nat) : Dev :=
  let d : Dev := { d with allocs := d.allocs.map (fun (k, a) =>
    (k, (a.next.filter (fun x => frameGe n x.1)).foldl (fun (a : Alloc) x => { a with p := x.2.1, phase := x.2.2 })
          { a with next := a.next.filter (fun x => !frameGe n x.1) })) }
  let due := d.domNext.filter (fun x => frameGe n x.1)
  let d := due.foldl (fun (d : Dev) x =>
    let (_, kind, key, v) := x
    if kind = 0 then { d with domW := mputD d.domW key v 16 }
    else if kind = 1 then { d with domPrio := mputD d.domPrio key v 4 }
    else if d.allocs.any (fun e => 256 * e.2.tid + e.2.p.sdom = key) then { d with tdomW := mputD d.tdomW key v 16 }
    else d) { d with domNext := d.domNext.filter (fun x => !frameGe n x.1) }
  let d := ((d.allocs.filter (fun e => e.2.delAt.any (frameGe n))).map (fun e => e.1)).foldl Dev.dropAlloc d
  ((d.terms.filter (fun e => e.2.delAt.any (frameGe n))).map (fun e => e.1)).foldl Dev.dropTerm d

/-! ## Engines (R221) -/

/-- Local grant engine numbers that work: the engine itself or the spare that took its task. -/
def Tile.grantList (x : Tile) : List Nat :=
  (List.range 12).filterMap (fun n => if !x.engBad.contains n then some n else (x.engMove.find? (fun m => m.1 = n)).map (fun m => m.2))

/-- Enabled channels of a tile in the order in which they are given an engine. -/
def Dev.engineOrder (d : Dev) (t : Nat) : List Nat :=
  let chs := (d.chanList.filter (fun c => tileOfChan c = t)).filter (fun c => (d.chan c).st ≠ .disabled)
  let safe (c : Nat) : Bool := (d.allocsOf c).any (fun e => e.2.p.safety)
  chs.filter (fun c => d.shedLast c) ++ chs.filter (fun c => !d.shedLast c && safe c) ++ chs.filter (fun c => !d.shedLast c && !safe c)

/-- The local engine of a channel: its own while twelve work, else its place in the order, at most three to an engine. -/
def Dev.engineOf (d : Dev) (ch : Nat) : Option Nat :=
  let t := tileOfChan ch
  let es := (d.tile t).grantList
  if es.length = 12 then some (nth es ((ch / 4 % 8 * 3 + ch % 4) % 12))
  else if es.isEmpty then none
  else
    let i := (d.engineOrder t).idxOf ch
    if i < 3 * es.length then some (nth es (i % es.length)) else none

/-! ## Commands of class 0x04 -/

/-- Parameters of Table 15-18 with the defaults of Table 8-1 for a channel. -/
def paramsOf (c : Cmd) (cap : Nat) : AllocParams :=
  let typ := c.u8 5
  let a := c.u32 12
  { sdom := c.u8 4, typ := typ, weight := if c.u16 6 = 0 then 16 else c.u16 6, fixed := c.u32 8, assured := a,
    peak := if typ = 0 then c.u32 8 else if c.u32 16 = 0 then (if typ = 1 then a else cap) else c.u32 16,
    cap := c.u32 20, nonStatus := c.u8 24 = 1, period := c.u8 25, cls := c.u8 26, safety := c.bit 27 0, fm := c.bit 27 1 }

/-- Offset of the first parameter outside its range (Table 8-1), none when all are legal. -/
def paramsRange (c : Cmd) (p : AllocParams) (cap : Nat) : Option Nat :=
  if 3 < p.typ then some 5
  else if 1023 < p.weight then some 6
  else if if p.typ = 0 then p.fixed < 1 || cap < p.fixed else p.fixed ≠ 0 then some 8
  else if if p.typ = 1 then (p.assured < 1 && !p.fm) || cap < p.assured else p.assured ≠ 0 then some 12
  else if p.typ ≠ 0 && (cap < p.peak || (if p.typ = 1 then p.peak < p.assured else p.peak < 1)) then some 16
  else if p.cap ≠ 0 && (p.cap < 64 || cap < p.cap) then some 20
  else if 1 < c.u8 24 then some 24
  else if p.period < 1 || 16 < p.period then some 25
  else if 3 < p.cls then some 26
  else none

/-- The combinations that R197 refuses. -/
def paramsBad (p : AllocParams) (ch : Nat) : Bool :=
  (ch % 4 ≠ 0 && (p.fixed % 4 ≠ 0 || p.assured % 4 ≠ 0 || (p.typ ≠ 0 && p.peak % 4 ≠ 0) || p.cap % 4 ≠ 0))
    || (p.safety && 2 ≤ p.typ) || (p.safety && p.fm) || (p.fm && (p.typ = 0 || p.typ = 3))
    || (p.typ = 0 && p.cap ≠ 0 && p.cap < p.fixed * p.period)

def bodyAllocCreate (c : Cmd) (d : Dev) : Res :=
  let tid := c.u32 0
  if d.nAllocs ≤ c.tgt then d.fail stRange ofsTgt
  else if d.nTerms ≤ tid then d.fail stRange (ofsP 0)
  else match mget d.terms tid with
  | none => d.fail stState (ofsP 0)
  | some t =>
    let ch := t.ch
    let cap := (d.rate ch).fb
    let p := paramsOf c cap
    if t.delAt.isSome || mhas d.allocs c.tgt || d.notRun (tileOfChan ch) then d.fail stState
    else match paramsRange c p cap with
    | some o => d.fail stRange (ofsP o)
    | none =>
      if paramsBad p ch then d.fail stBadParam
      else if 32 ≤ (d.allocs.filter (fun e => e.2.tid = tid)).length then d.fail stNoResource
      else if (d.placesOf ch).any (fun t => 8192 ≤ d.allocsCount t) then d.fail stNoResource
      else if d.standingFull ch p then d.fail stNoResource
      else if !d.admits ch c.tgt tid p then (d.count .admissionRefused ch).fail stNoResource
      else
        let ids := (d.allocsOf ch).map (fun e => e.2.allocId)
        let a : Alloc := { tid := tid, p := p, phase := d.choosePhase ch c.tgt p.period,
                           allocId := (lowestFree ids (Config.allocIdLow (ch % 4)) 16384).getD 0, startAt := d.effFrame }
        let d := Dev.giveSlot { d with allocs := mput d.allocs c.tgt a } 2 c.tgt
        Dev.ok (if t.st = .inService || t.st = .lowPower then d.ploam ch .assignAlloc tid a.allocId else d)

/-- CMD_ALLOC_CREATE (R196 to R202). -/
def specAllocCreate : CmdSpec := { op := 0x0401, lenOk := lenIs 32, body := bodyAllocCreate, scope := fun c _ => c.snd.dom (c.u8 4) }

/-- A body that acts on an existing allocation that is not pending deletion (R217, R505). -/
def Dev.withAlloc (d : Dev) (aid : Nat) (k : Alloc → Res) : Res :=
  if d.nAllocs ≤ aid then d.fail stRange ofsTgt
  else match mget d.allocs aid with
    | none => d.fail stState
    | some a => if a.delAt.isSome || d.notRun (d.tileOfTerm a.tid) then d.fail stState else k a

/-- Whether a sender may act on an allocation. -/
def Dev.mayAlloc (d : Dev) (s : Sender) (aid : Nat) : Bool := s.pkg || (match mget d.allocs aid with | some a => s.dom a.p.sdom | none => true)

def bodyAllocModify (c : Cmd) (d : Dev) : Res :=
  d.withAlloc c.tgt fun a =>
  let ch := d.chanOfTerm a.tid
  let cap := (d.rate ch).fb
  let p := paramsOf c cap
  match paramsRange c p cap with
  | some o => d.fail stRange (ofsP o)
  | none =>
    if c.u32 0 ≠ a.tid || p.sdom ≠ a.p.sdom || p.typ ≠ a.p.typ || p.safety ≠ a.p.safety || p.fm ≠ a.p.fm || paramsBad p ch then d.fail stBadParam
    else if !d.admits ch c.tgt a.tid p then (d.count .admissionRefused ch).fail stNoResource
    else
      let ph := if p.period = a.latest.1.period then a.latest.2 else d.choosePhase ch c.tgt p.period
      Dev.ok (d.updAlloc c.tgt (fun a => { a with next := a.next ++ [(d.effFrame, p, ph)] }))

/-- CMD_ALLOC_MODIFY (R197, R216). -/
def specAllocModify : CmdSpec :=
  { op := 0x0402, lenOk := lenIs 32, body := bodyAllocModify, scope := fun c d => d.mayAlloc c.snd c.tgt && c.snd.dom (c.u8 4) }

def bodyAllocDelete (c : Cmd) (d : Dev) : Res :=
  d.withAlloc c.tgt fun _ => Dev.ok (d.updAlloc c.tgt (fun a => { a with delAt := some d.effFrame }))

/-- CMD_ALLOC_DELETE (R217). -/
def specAllocDelete : CmdSpec := { op := 0x0403, lenOk := lenIs 0, body := bodyAllocDelete, scope := fun c d => d.mayAlloc c.snd c.tgt }

/-- Parameters as Table 15-18, Alloc-ID, phase, last demand, fm_assured, fm_peak, counters (log 15). -/
def bodyAllocStatus (c : Cmd) (d : Dev) : Res :=
  d.withAlloc c.tgt fun a =>
  d.ok (leBytes 4 a.tid ++ leBytes 1 a.p.sdom ++ leBytes 1 a.p.typ ++ leBytes 2 a.p.weight ++ leBytes 4 a.p.fixed ++ leBytes 4 a.p.assured
    ++ leBytes 4 a.p.peak ++ leBytes 4 a.p.cap ++ leBytes 1 (b2n a.p.nonStatus) ++ leBytes 1 a.p.period ++ leBytes 1 a.p.cls
    ++ leBytes 1 (b2n a.p.safety + 2 * b2n a.p.fm) ++ leBytes 4 0 ++ leBytes 2 a.allocId ++ leBytes 1 a.phase ++ leBytes 1 0
    ++ leBytes 4 a.lastDemand ++ leBytes 4 a.fmA ++ leBytes 4 a.fmP
    ++ [Cnt.grantedBytes, Cnt.grants, Cnt.polls, Cnt.assuredShort].flatMap (fun k => leBytes 8 (d.cntVal k c.tgt)))

/-- CMD_ALLOC_STATUS (R222). -/
def specAllocStatus : CmdSpec := { op := 0x0404, lenOk := lenIs 0, body := bodyAllocStatus, scope := fun c d => d.mayAlloc c.snd c.tgt }

/-- Table 15-19. -/
def bodyDomConfig (c : Cmd) (d : Dev) : Res :=
  let ch := c.u32 0
  let all := ch = 0xFFFFFFFF
  let e := d.effFrame
  if 256 ≤ c.tgt then d.fail stRange ofsTgt
  else if !all && !d.chanOk ch then d.fail stRange (ofsP 0)
  else if 1023 < c.u16 4 then d.fail stRange (ofsP 4)
  else if 7 < c.u8 6 then d.fail stRange (ofsP 6)
  else if !c.bit 7 0 && !c.bit 7 1 then d.fail stBadParam (ofsP 7)
  else if !all && d.notRun (tileOfChan ch) then d.fail stState
  else
    let ws := if c.bit 7 0 then (if all then d.chanList else [ch]).map (fun x => (e, 0, 256 * x + c.tgt, c.u16 4)) else []
    let ps := if c.bit 7 1 then [(e, 1, c.tgt, c.u8 6)] else []
    Dev.ok { d with domNext := d.domNext ++ ws ++ ps }

/-- CMD_DOM_CONFIG (R200). -/
def specDomConfig : CmdSpec := { op := 0x0405, lenOk := lenIs 8, body := bodyDomConfig, scope := fun c _ => c.snd.dom c.tgt }

/-- Table 15-20. -/
def bodyTdomConfig (c : Cmd) (d : Dev) : Res :=
  d.withTerm c.tgt fun _ =>
  if c.u16 2 < 1 || 1023 < c.u16 2 then d.fail stRange (ofsP 2)
  else if !(d.allocs.any (fun e => e.2.tid = c.tgt && e.2.p.sdom = c.u8 0)) then d.fail stState
  else Dev.ok { d with domNext := d.domNext ++ [(d.effFrame, 2, 256 * c.tgt + c.u8 0, c.u16 2)] }

/-- CMD_TDOM_CONFIG (R201). -/
def specTdomConfig : CmdSpec := { op := 0x0406, lenOk := lenIs 4, body := bodyTdomConfig, scope := fun c _ => c.snd.dom (c.u8 0) }

/-- Guaranteed load, counts of full and standing plans, engine (0xFF none), in the order of Table 8-5 (R502, log 15). -/
def bodyGsStatus (c : Cmd) (d : Dev) : Res :=
  d.onChan c.tgt ofsTgt fun _ =>
  d.ok (leBytes 4 (d.loadWith c.tgt d.nAllocs none) ++ leBytes 8 (d.cntVal .plansFull c.tgt) ++ leBytes 8 (d.cntVal .plansStanding c.tgt)
    ++ leBytes 1 ((d.engineOf c.tgt).getD 0xFF) ++ zeroBytes 3)

/-- CMD_GS_STATUS (R222). -/
def specGsStatus : CmdSpec := { op := 0x0407, lenOk := lenIs 0, body := bodyGsStatus }

/-! ## Meanings -/

/-- CMD_ALLOC_CREATE (R197). -/
def execCmdAllocCreate (p : Packet) (s : State) : Host.Outcome State Fault Refusal := live (Dev.runCommand specAllocCreate p) s

/-- CMD_ALLOC_MODIFY (R197). -/
def execCmdAllocModify (p : Packet) (s : State) : Host.Outcome State Fault Refusal := live (Dev.runCommand specAllocModify p) s

/-- CMD_ALLOC_DELETE (R217). -/
def execCmdAllocDelete (p : Packet) (s : State) : Host.Outcome State Fault Refusal := live (Dev.runCommand specAllocDelete p) s

/-- CMD_ALLOC_STATUS (R222). -/
def execCmdAllocStatus (p : Packet) (s : State) : Host.Outcome State Fault Refusal := live (Dev.runCommand specAllocStatus p) s

/-- CMD_DOM_CONFIG (R200). -/
def execCmdDomConfig (p : Packet) (s : State) : Host.Outcome State Fault Refusal := live (Dev.runCommand specDomConfig p) s

/-- CMD_TDOM_CONFIG (R201). -/
def execCmdTdomConfig (p : Packet) (s : State) : Host.Outcome State Fault Refusal := live (Dev.runCommand specTdomConfig p) s

/-- CMD_GS_STATUS (R222). -/
def execCmdGsStatus (p : Packet) (s : State) : Host.Outcome State Fault Refusal := live (Dev.runCommand specGsStatus p) s

end Sys2Proof.Machine
end

