-- ==== Sys2Proof/Machine/Burst.lean ====
section
/-!
DEFINITION. From plan to burst: the commit and its deadline, the assembler, envelopes, the delimiter search, accepted and missed
bursts, and what decoding yields (R147 to R151, R162, R215 to R220, chapter 08).
-/

namespace Sys2Proof.Machine

/-! ## Line quality of what is received (R162, R163, R167) -/

def PmObj.add (p : PmObj) (n e : Nat) : PmObj := { p with curBlocks := p.curBlocks + n, curErr := p.curErr + e }
def PmObj.defect (p : PmObj) : PmObj := { p with curDefect := true }

/-- Blocks and errored blocks of a terminal, in its second, its tree's second and the tree's 1 ms interval. -/
def Dev.pmCount (d : Dev) (tid n e : Nat) : Dev :=
  (d.updTerm tid (fun t => { t with pm := t.pm.add n e })).updTree (d.chanOfTerm tid / 4) (fun x =>
    { x with pm := x.pm.add n e, ivErr := x.ivErr + e, ivBlocks := x.ivBlocks + n })

/-- A defect of a terminal is present. -/
def Dev.termDefect (d : Dev) (tid : Nat) : Dev := d.updTerm tid (fun t => { t with pm := t.pm.defect })

/-- A defect of a tree is present: its second and every terminal second of the tree (R163). -/
def Dev.treeDefect (d : Dev) (tree : Nat) : Dev :=
  let d := d.updTree tree (fun x => { x with pm := x.pm.defect, ivDefect := true })
  { d with terms := d.terms.map (fun (k, t) => (k, if t.ch / 4 = tree then { t with pm := t.pm.defect } else t)) }

/-! ## Instants of a frame -/

/-- Raw instant at which a frame begins. -/
def Dev.frameRaw (d : Dev) (f : Nat) : Raw := d.rawReach (d.frameNetNs (d.frameIx f) * 65536)

/-- Commit deadline of the plan for a frame: 140 µs before it begins (R215). -/
def Dev.planDeadline (d : Dev) (f : Nat) : Raw := d.frameRaw (plusF f (2 ^ 48 - 2)) + rawUs 110

/-! ## Envelopes (R106 to R109) -/

/-- Timestamp units, from the start of an upstream frame's count, of a line bit of the frame (R106, R171). -/
def Dev.tsOfBit (d : Dev) (ch bit : Nat) : Nat := (d.chan ch).teqd * 16 * 497664 / 10000 + bit * (d.rate ch).upb

/-- The 32-bit timestamp of an instant that lies `ts` units after the start of frame `f`. -/
def stamp (f ts : Nat) : Nat := (f + ts / frameTs) % 512 * 2 ^ 23 + ts % frameTs

/-- One BURST_ENV between two instants inside one frame: mode 0 where the rounded length fits 2,047 units of 64 (R108). Start and end are
rounded as offsets in the frame that holds them, counted from frame `f`. -/
def Dev.envBlock (d : Dev) (ch f kind lo0 hi0 : Nat) : Dev :=
  let f := f + lo0 / frameTs
  let lo := lo0 % frameTs
  let hi := hi0 - lo0 + lo
  let small := ceilDiv hi 64 - lo / 64
  let unit := if small ≤ 2047 then 64 else 4096
  let len := ceilDiv hi unit - lo / unit
  let body := stamp f (lo / unit * unit) + 2 ^ 32 * (ch % 4 + 4 * kind + 16 * b2n (unit = 4096) + 32 * len)
  d.sendBlock (tileOfChan ch) (ch / 4 % 8) 0x82 body

/-- BURST_ARM and BURST_ENV of a burst or window of frame `f`, split at frame boundaries. -/
def Dev.envelope (d : Dev) (ch f kind startBit bits : Nat) : Dev :=
  let lo := d.tsOfBit ch startBit
  let hi := d.tsOfBit ch (startBit + bits)
  let d := d.sendBlock (tileOfChan ch) (ch / 4 % 8) 0x81 (stamp f lo + 2 ^ 32 * (ch % 4 + 12))
  let edge := (lo / frameTs + 1) * frameTs
  if hi ≤ edge then d.envBlock ch f kind lo hi else (d.envBlock ch f kind lo edge).envBlock ch f kind edge hi

/-! ## The assembler (R215, R218, R219, R223) -/

/-- Code of a window kind in a fault's detail (Table 18-7). -/
def WinKind.code : WinKind → Nat
  | .ranging => 0 | .map => 1 | .broad => 2 | .dark => 3

/-- Line bits by which the upstream reference of a channel's tree has been moved (R432). -/
def Dev.upRefBits (d : Dev) (ch : Nat) : Int := (d.tree (ch / 4)).upRef * 497664 / (10000 * (d.rate ch).upb)

/-- The delimiter window of a burst of a plan (R147). -/
def Dev.burstWin (d : Dev) (ch f : Nat) (b : PlanBurst) : BurstWin :=
  let p := 8 * d.burstP ch b.tid
  let del := (d.rate ch).del
  { tid := b.tid, expect := ((b.startB * 8 + p - del : Nat) + d.upRefBits ch).toNat, dlen := del, lenBits := b.lenB * 8 + del - p, frame := f, grants := b.grants }

/-- The window that a ranging or discovery window opens for the search (R179), over all frames that it spans; a ranging window is centred on its
middle (R184). -/
def Dev.quietWin (d : Dev) (ch f : Nat) (w : WinReq) : BurstWin :=
  let bits := (max w.lenB w.fullB) * 8
  { tid := if w.kind = .ranging then w.tid else allTids, expect := ((w.startB * 8 + (if w.kind = .ranging then bits / 2 else 0) : Nat) + d.upRefBits ch).toNat,
    half := bits / 2, dlen := (d.rate ch).del, kind := some w.kind, members := w.members, lenBits := bits, frame := f }

/-- Counts one service: bytes and services of the allocation and of its domain on the channel. -/
def Dev.countGrant (d : Dev) (ch aid bytes : Nat) : Dev :=
  let dom := match mget d.allocs aid with | some a => a.p.sdom | none => 0
  ((((d.count .grantedBytes aid bytes).count .grants aid).count .domGrantedBytes (256 * ch + dom) bytes)).count .domGrants (256 * ch + dom)

/-- Grants of a plan per allocation: handle, bytes, poll. -/
def Plan.services (p : Plan) : List (Nat × Nat × Bool) :=
  let gs := p.bursts.flatMap (fun b => b.grants)
  (gs.map (fun g => g.aid)).eraseDups.map (fun a =>
    (a, ((gs.filter (fun g => g.aid = a)).map (fun g => g.bytes)).foldl (· + ·) 0, gs.any (fun g => g.aid = a && g.poll)))

/-- What the services of a plan leave at their allocations (R198, R203 to R205); one without a grant ends the run of services without a
report. -/
def Dev.noteServices (d : Dev) (p : Plan) : Dev :=
  let got := p.services
  { d with allocs := d.allocs.map (fun (k, a) =>
      let a := match p.rems.find? (fun x => x.1 = k) with | some x => { a with rem := x.2 } | none => a
      let a := match p.demands.find? (fun x => x.1 = k) with | some x => { a with lastDemand := x.2 } | none => a
      match got.find? (fun x => x.1 = k) with
      | some x => (k, { a with
          lastGrant := x.2.1
          lastFrame := p.frame
          owed := false
          grants := (a.grants ++ [(p.frame, x.2.1)]).drop (a.grants.length - 63)
          noReport := if a.p.typ = 0 || a.p.nonStatus then 0 else a.noReport + 1 })
      | none => (k, if p.demands.any (fun x => x.1 = k) then { a with noReport := 0 } else a)) }

/-- Earliest arrival, in ns after a grant's start, of the answer of a terminal without delay at a distance in half metres (R172, R174); an
uncalibrated channel counts from the nominal response time. -/
def Dev.nearNs (d : Dev) (ch : Nat) (half : Int) : Int :=
  (4897 * half + ((d.chan ch).calConst.getD (1000 * (Config.responseNs (ch % 4) : Int)))) / 1000

/-- The grant that the answers to a window follow (R174): frame, terminal and ns into the frame. A window opens m before the nearest answer; the
answer of a terminal in REACQUIRE comes under its delay in the middle of its window. -/
def Dev.winGrant (d : Dev) (ch f : Nat) (w : WinReq) : Option (Nat × Nat × Int) :=
  let start : Int := (d.rate ch).nsOfBits (w.startB * 8)
  let delay : Int := (d.chan ch).teqd * 16
  let place (tid : Nat) (x : Int) : Option (Nat × Nat × Int) := some (lowBits 48 ((f : Int) + x / 125000), tid, x % 125000)
  let near (tid : Nat) (half : Int) : Option (Nat × Nat × Int) := place tid (start + d.respMarginNs (tileOfChan ch) + delay - d.nearNs ch half)
  if w.cont then none
  else match w.kind with
  | .ranging =>
    (match mget d.terms w.tid with
     | some t => if t.st = .reacquire then place w.tid (start + w.lenNs / 2) else near w.tid t.lo2
     | none => none)
  | .map => ((w.members.filterMap (fun i => (mget d.terms i).map Terminal.lo2)).min?).bind (near allTids)
  | .broad => near allTids (2 * ((d.chan ch).reachMin : Int))
  | .dark => none

/-- Counts a window that opens. -/
def Dev.countWin (d : Dev) (ch : Nat) (w : WinReq) : Dev :=
  if w.cont then d
  else match w.kind with
    | .ranging => d.count .rngWindows ch
    | .map => d.count .discMapWindows ch
    | .broad => d.count .discBroadWindows ch
    | .dark => d

/-- Runs of full and of standing plans, and the fault of eight standing plans with its end (R220). -/
def Dev.planRun (d : Dev) (ch : Nat) (full : Bool) : Dev :=
  let c := d.chan ch
  let t := tileOfChan ch
  if full then
    let n := c.fullRun + 1
    let d := d.updChan ch (fun c => { c with standingRun := 0, fullRun := if c.standingFlt then n else 0 })
    if c.standingFlt && 8000 ≤ n then (d.updChan ch (fun c => { c with standingFlt := false, fullRun := 0 })).endCond 0x07 0x01 t ch else d
  else
    let n := min 255 (c.standingRun + 1)
    let d := d.updChan ch (fun c => { c with standingRun := n, fullRun := 0 })
    if n = 8 && !c.standingFlt then (d.updChan ch (fun c => { c with standingFlt := true })).raise 0x07 0x01 2 t ch n true else d

/-- Adds the search windows of a plan and sends its arms and envelopes: on a standby unit those of the safety bursts alone, and no
block in DUAL, where only the host in force arms the PHY (R429, R432). During a hunt no window but dark ones opens (R188). -/
def Dev.issueWindows (d : Dev) (ch : Nat) (p : Plan) : Dev :=
  let dark := d.standbyTree (ch / 4)
  let dual := match mget d.groups (ch / 4) with | some g => g.dual | none => false
  let bs := if dark then p.bursts.filter (fun b => b.safety) else p.bursts
  let wins := if dark then [] else if (d.chan ch).rogue = .hunt then p.wins.filter (fun w => w.kind = .dark) else p.wins
  let ws := bs.map (fun b => (b.startB, d.burstWin ch p.frame b))
    ++ (wins.filter (fun w => w.kind ≠ .dark && !w.cont)).map (fun w => (w.startB, d.quietWin ch p.frame w))
  let d := d.updChan ch (fun c => { c with
    winQ := c.winQ ++ (sortBy (fun x => x.1) ws).map (fun x => x.2)
    winGrants := c.winGrants ++ wins.filterMap (d.winGrant ch p.frame) })
  if !d.laneCarries ch || (dark && dual) then d
  else
    let es := bs.map (fun b => (b.startB, b.lenB, 0)) ++ wins.map (fun w => (w.startB, w.lenB, if w.kind = .dark then 2 else 1))
    (sortBy (fun x => x.1) es).foldl (fun d x => d.envelope ch p.frame x.2.2 (x.1 * 8) (x.2.1 * 8)) d

/-- Puts a plan into effect: counters, allocations, search windows, arms and envelopes. A standby unit's plans count no service. -/
def Dev.issuePlan (d : Dev) (ch : Nat) (p : Plan) : Dev :=
  let d := (d.count (if p.full then .plansFull else .plansStanding) ch).planRun ch p.full
  let d :=
    if d.standbyTree (ch / 4) then d
    else
      let d := p.bursts.foldl (fun d b => d.countCT .burstsGranted ch b.tid) d
      let d := p.services.foldl (fun d x => let d := d.countGrant ch x.1 x.2.1; if x.2.2 then d.count .polls x.1 else d) d
      let d := p.short.foldl (fun d x => (d.count .assuredShort x.1 x.2).count .assuredShort (2 ^ 20 + ch) x.2) d
      let d := ((d.count .overheadBytes ch p.overB).count .unusedBytes ch p.unused).count .splitBursts ch p.splits
      let d := p.wins.foldl (fun d w => d.countWin ch w) d
      d.noteServices p
  d.issueWindows ch p

/-- The assembler at the deadline of a plan: the full plan in time, else the standing plan where it is valid, else none (R218,
R219). -/
def Dev.assemble (d : Dev) (ch : Nat) (p : Plan) : Dev :=
  let valid := (d.chan ch).carryFrom.any (fun x => frameGe p.frame (plusF x 2)) && !p.changed
  let put (d : Dev) (q : Plan) : Dev :=
    (d.updChan ch (fun c => { c with standingValid := valid, plans := c.plans.map (fun x => if x.frame = p.frame then q else x) })).issuePlan ch q
  if p.committed then put d { p with done := true }
  else if valid then
    let s := (d.makePlan ch (plusF p.frame (2 ^ 48 - 2)) p.frame p.wins true).1
    put d { s with done := true }
  else d.updChan ch (fun c => { c with
    standingValid := false, standingRun := 0, fullRun := 0, plans := c.plans.filter (fun x => x.frame ≠ p.frame) })

/-- The plan that the assembler awaits next. -/
def Chan.nextPlan (c : Chan) : Option Plan := c.plans.find? (fun p => !p.done)

/-- PLAN_COMMIT (R215, R220, R221): the engine of a channel hands over the full plan; one that comes after the deadline is
discarded. -/
def Dev.opPlanCommit (d : Dev) (ch : Nat) : Dev :=
  match (d.chan ch).nextPlan with
  | none => d
  | some p =>
    let t := d.planDeadline p.frame
    if !d.chanLive ch || (d.engineOf ch).isNone || !(reached t d.now) then d
    else
      let m := (t - d.now).toNat / 65536000
      let d := d.updTile (tileOfChan ch) (fun x => { x with marginCur := some (match x.marginCur with | some y => min y m | none => m) })
      d.updChan ch (fun c => { c with plans := c.plans.map (fun x => if x.frame = p.frame then { x with committed := true } else x) })

/-- PLAN_COMMIT_DEADLINE (R218). -/
def Dev.opPlanCommitDeadline (d : Dev) (ch : Nat) : Dev :=
  match (d.chan ch).nextPlan with
  | none => d
  | some p => if d.chanLive ch then (d.advanceTo (d.planDeadline p.frame)).assemble ch p else d

/-! ## The delimiter search (R147 to R150, R179) -/

/-- The open window of a channel; the next planned window opens when none is, with the widths then in force. -/
def Dev.openWin (d : Dev) (ch : Nat) : Option (BurstWin × Dev) :=
  match (d.chan ch).win with
  | some w => some (w, d)
  | none =>
    match (d.chan ch).winQ with
    | [] => none
    | w :: ws =>
      let u := match mget d.terms w.tid with | some t => t.uncert | none => 8
      let w := { w with half := if w.kind.isNone then max (d.winMin ch) u else w.half, maxHam := min (d.maxHamCfg ch) (w.dlen / 4) }
      some (w, d.updChan ch (fun c => { c with win := some w, winQ := ws }))

/-- Line bit of a frame counted from frame 0. -/
def Dev.absBit (d : Dev) (ch f : Nat) (bit : Int) : Int := (f * ((d.rate ch).fb * 8) : Nat) + bit

/-- Whether the search of a window still comes to a position: it lies in the window, above the last match refused (R148). -/
def BurstWin.holds (w : BurstWin) (ofs : Int) : Bool :=
  w.seen.all (fun x => decide (x < ofs)) &&
  match w.kind with
  | some .map | some .broad => decide (0 ≤ ofs ∧ ofs + w.dlen ≤ w.lenBits)
  | _ => ofs.natAbs ≤ w.half

/-- Whether the header check of a match passes (R148): the check of the received fields, and, where the window is a terminal's, its ONU-ID. -/
def Dev.headerOk (d : Dev) (w : BurstWin) (b : BurstFound) : Bool :=
  b.hdrOk && match w.kind with
    | none | some .ranging => (mget d.terms w.tid).any (fun t => t.onu = some b.onu)
    | some _ => true

/-- A match at an offset whose header check fails: the search goes on above it (R148, R162, R179). -/
def Dev.headerFail (d : Dev) (ch : Nat) (w : BurstWin) (ofs : Int) : Dev :=
  let d := d.updChan ch (fun c => { c with win := some { w with seen := some ofs } })
  match w.kind with
  | none =>
    let d := (((d.countCT .hdrCheckFail ch w.tid).pmCount w.tid 1 1).updTerm w.tid (fun t => { t with hdrRun := t.hdrRun + 1 })).huntEvent w.tid
    (match mget d.terms w.tid with
     | some t => if t.hdrRun = 4 then ((d.updTerm w.tid (fun t => { t with lofi := true })).huntEvent w.tid).termDefect w.tid else d
     | none => d)
  | some .ranging => d.countCT .hdrCheckFail ch w.tid
  | some _ => (d.count .hdrCheckFail ch).count .discCollision ch

/-- A burst of a terminal is accepted: its defects and its tree's LOSt clear (Table 6-6). -/
def Dev.burstSeen (d : Dev) (ch tid : Nat) : Dev :=
  (d.updTerm tid (fun t => { t with missRun := 0, hdrRun := 0, losi := false, lofi := false })).updTree (ch / 4) (fun x => { x with lost := false, noBurstRun := 0 })

/-- A granted burst is accepted: offset to the ranging unit, or on a standby unit to its measurement of Δ, and wake completed (R150,
R184, R193, R432), from which its allocations are owed polls (R205). -/
def Dev.acceptGranted (d : Dev) (ch : Nat) (w : BurstWin) (ofs : Int) : Dev :=
  let woken := (mget d.terms w.tid).any (fun t => t.st = .lowPower && t.wakeFrame.any (frameGe w.frame))
  let d := ((d.burstSeen ch w.tid).pmCount w.tid 1 0).updTerm w.tid (fun t =>
    if t.st = .lowPower && t.wakeFrame.any (frameGe w.frame) then { t with st := .inService, wakeFrame := none } else t)
  let d := if woken then ((d.allocs.filter (fun e => e.2.tid = w.tid)).foldl (fun d e => d.updAlloc e.1 (fun a => { a with owed := true })) d) else d
  if d.standbyTree (ch / 4) then
    d.updGroup (ch / 4) (fun g =>
      let l := ((d.rate ch).psOfBits ofs / 1000 :: g.deltas).take 64
      { g with deltas := l, delta := some (l.foldl (· + ·) 0 / (l.length : Int)) })
  else d.eqdTrack w.tid w.frame ofs w.half

/-- A burst is accepted in a ranging window: a terminal in REACQUIRE has its round-trip time measured again (R184). -/
def Dev.acceptRanging (d : Dev) (ch : Nat) (w : BurstWin) (ofs : Int) : Dev :=
  let d := d.burstSeen ch w.tid
  match mget d.terms w.tid with
  | some t => if t.st = .reacquire then d.ranged w.tid (t.rtt + (d.rate ch).psOfBits ofs) else d
  | none => d

/-- BURST_FOUND (R148 to R150): a delimiter match within the window, no more than max_hamming bits off. -/
def Dev.opBurstFound (d : Dev) (ch : Nat) (b : BurstFound) : Dev :=
  if !d.chanOk ch || !d.tileRun (tileOfChan ch) || (d.chan ch).st = .disabled then d
  else match d.openWin ch with
    | none => d
    | some (w, d) =>
      let pos := d.absBit ch w.frame (w.expect + b.offset)
      if !w.holds b.offset || w.maxHam < b.hamming || pos < (d.chan ch).winNotBefore then d
      else if !d.headerOk w b then d.headerFail ch w b.offset
      else
        let d := if 1 ≤ b.hamming then d.count .delimInexact ch else d
        match w.kind with
        | none =>
          let d := d.updChan ch (fun c => { c with win := none, winNotBefore := (pos + w.lenBits).toNat, accepted := c.accepted ++ [(w.tid, w.frame)] })
          d.acceptGranted ch w b.offset
        | some .ranging =>
          let d := d.updChan ch (fun c => { c with win := none, winNotBefore := (pos + b.bits).toNat, accepted := c.accepted ++ [(w.tid, w.frame)] })
          d.acceptRanging ch w b.offset
        | some _ =>
          (d.updChan ch (fun c => { c with winNotBefore := (pos + b.bits).toNat })).updTree (ch / 4) (fun x => { x with lost := false, noBurstRun := 0 })

/-- A granted burst is missed: LOSi after four, from which the terminal goes to REACQUIRE (R162, R180, R193). -/
def Dev.burstMissed (d : Dev) (ch : Nat) (w : BurstWin) : Dev :=
  if d.standbyTree (ch / 4) then d
  else
  let d := ((d.countCT .burstMissed ch w.tid).pmCount w.tid 1 1).huntEvent w.tid
  match mget d.terms w.tid with
  | none => d
  | some t =>
    let counts := t.st = .inService || (t.st = .lowPower && t.wakeFrame.any (fun x => frameGe w.frame (plusF x t.interval)))
    if !counts then d
    else
      let d := d.updTerm w.tid (fun t => { t with missRun := t.missRun + 1 })
      if 3 ≤ t.missRun then ((d.updTerm w.tid (fun t => { t with losi := true })).termDefect w.tid).toReacquire w.tid else d

/-- BURST_WINDOW_CLOSE (R148): the window ends without a burst. -/
def Dev.opBurstWindowClose (d : Dev) (ch : Nat) : Dev :=
  if !d.chanOk ch || !d.tileRun (tileOfChan ch) || (d.chan ch).st = .disabled then d
  else match d.openWin ch with
    | none => d
    | some (w, d) =>
      let last := w.expect + (match w.kind with | some .map | some .broad => w.lenBits | _ => w.half + w.dlen)
      let d := d.advanceTo (d.frameRaw w.frame + rawNs ((d.chan ch).teqd * 16) + (d.rate ch).rawOfBytes (ceilDiv last 8))
      let d := d.updChan ch (fun c => { c with win := none })
      match w.kind with
      | none => d.burstMissed ch w
      | some _ => d

/-! ## Decoding (R151, R203, R204) -/

/-- A decoded status report (R203). -/
def Dev.noteReport (d : Dev) (tid frame : Nat) (r : ReportInfo) : Dev :=
  d.updAlloc r.aid (fun a =>
    if a.tid = tid && !a.p.nonStatus && a.p.typ ≠ 0 then
      { a with report := some (frame, r.bytes), noReport := 0, grants := a.grants.filter (fun g => frameGe g.1 (plusF frame 1)) }
    else a)

/-- Use of the grant of a frame, the last whose burst was decoded (R204). -/
def Dev.noteUsed (d : Dev) (tid frame : Nat) (u : UsedInfo) : Dev :=
  d.updAlloc u.aid (fun a =>
    if a.tid ≠ tid then a
    else match a.grants.find? (fun g => g.1 = frame) with
      | some g => { a with used := some (g.2, u.bytes) }
      | none => a)

/-- BURST_DECODED (R151): counters of Table 6-7, line quality, reports, use of grants, key indices. -/
def Dev.opBurstDecoded (d : Dev) (ch : Nat) (b : BurstInfo) : Dev :=
  if !d.chanOk ch || !d.tileRun (tileOfChan ch) || !(d.chan ch).accepted.contains (b.tid, b.frame) then d
  else
    let d := d.updChan ch (fun c => { c with accepted := c.accepted.erase (b.tid, b.frame) })
    let d := (((d.countCT .fecCw ch b.tid b.codewords).countCT .fecCorrected ch b.tid b.corrected).countCT .fecUncorrectable ch b.tid b.uncorrectable).countCT
      .fecBits ch b.tid b.bitsCorrected
    let d := if ch % 4 = 0 then d.countCT .bipErr ch b.tid b.bipErr else d
    let d := d.count .delinLost ch b.lostBytes
    let d := d.pmCount b.tid (b.codewords + b.bipBlocks) (b.uncorrectable + b.bipErr)
    let d := b.keyIndices.foldl (fun d i => d.ponIndex b.tid i) d
    let d := b.reports.foldl (fun d r => d.noteReport b.tid b.frame r) d
    let d := b.used.foldl (fun d u => d.noteUsed b.tid b.frame u) d
    (d.winAdd 1 ch 0 b.gemBytes b.gemFrames).winAdd 2 b.tid 0 b.gemBytes b.gemFrames

/-! ## Meanings -/

/-- PLAN_COMMIT (R215). -/
def execPlanCommit (ch : Nat) (s : State) : Host.Outcome State Fault Refusal :=
  live (fun d => d.opPlanCommit ch) s

/-- PLAN_COMMIT_DEADLINE (R218). -/
def execPlanCommitDeadline (ch : Nat) (s : State) : Host.Outcome State Fault Refusal :=
  live (fun d => d.opPlanCommitDeadline ch) s

/-- BURST_FOUND (R148). -/
def execBurstFound (ch : Nat) (b : BurstFound) (s : State) : Host.Outcome State Fault Refusal :=
  live (fun d => d.opBurstFound ch b) s

/-- BURST_WINDOW_CLOSE (R148). -/
def execBurstWindowClose (ch : Nat) (s : State) : Host.Outcome State Fault Refusal :=
  live (fun d => d.opBurstWindowClose ch) s

/-- BURST_DECODED (R151). -/
def execBurstDecoded (ch : Nat) (b : BurstInfo) (s : State) : Host.Outcome State Fault Refusal :=
  live (fun d => d.opBurstDecoded ch b) s

end Sys2Proof.Machine
end

