-- ==== Sys2Proof/Machine/FollowMe.lean ====
section
/-!
DEFINITION. The follow-me unit: corridor model, position reports and their checks, drift bands, cells, contributions and clips,
stale and lost trains, position events, and the commands of class 0x05 (chapter 09).
-/

namespace Sys2Proof.Machine

/-! ## Reports (R229) -/

/-- The record of Table 9-2. -/
def reportOf (b : List Byte) : FmReport :=
  { train := natAt b 0 3, dir := natAt b 3 1 % 4, repos := bitN (natAt b 3 1) 2, route := natAt b 4 1, acc := natAt b 6 2, c := natAt b 8 4,
    speed := natAt b 12 2, ns := natAt b 16 4, sec := natAt b 20 6 }

/-- A record as it is broadcast (R249). -/
def FmReport.bytes (r : FmReport) : List Byte :=
  leBytes 3 r.train ++ leBytes 1 (r.dir + 4 * b2n r.repos) ++ leBytes 1 r.route ++ zeroBytes 1 ++ leBytes 2 r.acc ++ leBytes 4 r.c
    ++ leBytes 2 r.speed ++ zeroBytes 2 ++ leBytes 4 r.ns ++ leBytes 6 r.sec ++ zeroBytes 6

/-- Timestamp in ns of network time. -/
def FmReport.ts (r : FmReport) : Int := (r.sec : Int) * 1000000000 + r.ns

def Dev.fmProfile (d : Dev) (p : Nat) : FmProfile := mgetD d.fm.profiles p {}
def Dev.fmHome (d : Dev) (trn : Nat) : Nat := trn % d.nTiles
def Dev.fmUpd (d : Dev) (trn : Nat) (f : FmTrain → FmTrain) : Dev := { d with fm := { d.fm with trains := mmod d.fm.trains trn f } }
def FmTrain.banded (x : FmTrain) : Bool := x.st = .tracking || x.st = .stale

/-- The counter object of the whole device, beside those of train slots. -/
def fmDevice : Nat := 2 ^ 20

/-- Body of the notifications on a train's state (Table 15-12). -/
def FmTrain.note (x : FmTrain) : List Byte :=
  let r := x.last.getD {}
  leBytes 3 x.train ++ leBytes 1 x.profile ++ leBytes 6 r.sec ++ zeroBytes 2 ++ leBytes 4 r.ns

/-! ## The drift band (R235 to R237) -/

/-- One stretch that an edge of a band covers on a route: its ends, the direction in which the edge runs, where it entered. -/
structure Seg where
  route : Nat
  lo : Int
  hi : Int
  fwd : Bool
  entry : Option Int
  deriving DecidableEq, Repr

/-- Follows an edge that runs `dist` from chainage `a` of a route, through at most `n` further links (R237). -/
def Dev.fmRun (d : Dev) : Nat → Bool → Nat → Int → Int → List Seg
  | n, fwd, rt, a, dist =>
    match mget d.fm.routes rt with
    | none => []
    | some x =>
      let b := if fwd then a + dist else a - dist
      let past : Int := if fwd then b - x.len else -b
      let here : Seg := if fwd then { route := rt, lo := a, hi := min b x.len, fwd := true, entry := some a }
                        else { route := rt, lo := max b 0, hi := a, fwd := false, entry := some a }
      if past ≤ 0 then [here]
      else match n with
        | 0 => [here]
        | n + 1 => here :: (x.links.filter (fun l => l.high = fwd)).flatMap (fun l => d.fmRun n (!l.rev) l.route l.atT past)

/-- What an edge past an end of the report's route covers. -/
def Dev.fmPast (d : Dev) (x : FmRoute) (high : Bool) (past : Int) : List Seg :=
  if past ≤ 0 then [] else (x.links.filter (fun l => l.high = high)).flatMap (fun l => d.fmRun 3 (!l.rev) l.route l.atT past)

/-- Quotient rounded up. -/
def ceilI (a b : Int) : Int := -((-a) / b)

/-- The edges of a train's band before they are cut at the ends of the route (R235). -/
def Dev.fmEdges (d : Dev) (p : FmProfile) (r : FmReport) : Int × Int :=
  let ageU := max 0 (d.netU - r.ts * 65536) + 1500000 * 65536
  let secs : Int := 1000000000 * 65536
  let lead : Int := (r.speed : Int) * p.lead * 1000000 * 65536
  let run (v : Nat) (l : Int) : Int := ceilI ((v : Int) * ageU + l) secs
  let down (v : Nat) (l : Int) : Int := (r.c : Int) - r.acc - run v l
  let up (v : Nat) (l : Int) : Int := (r.c : Int) + r.acc + run v l
  if r.dir = 1 then (down p.vRev 0, up p.vMax lead)
  else if r.dir = 2 then (down p.vMax lead, up p.vRev 0)
  else (down p.vMax lead, up p.vMax lead)

/-- The stretches of a band, and those of its head edges. -/
def Dev.fmSegs (d : Dev) (p : FmProfile) (r : FmReport) : List Seg × List Seg :=
  match mget d.fm.routes r.route with
  | none => ([], [])
  | some x =>
    let (lo, hi) := d.fmEdges p r
    let a := max 0 lo
    let b := min (x.len : Int) hi
    let ups := d.fmPast x true (hi - x.len)
    let downs := d.fmPast x false (-lo)
    let upHead : List Seg := { route := r.route, lo := a, hi := b, fwd := true, entry := none } :: ups
    let dnHead : List Seg := { route := r.route, lo := a, hi := b, fwd := false, entry := none } :: downs
    let main : Seg := { route := r.route, lo := a, hi := b, fwd := true, entry := none }
    (main :: (ups ++ downs), if r.dir = 1 then upHead else if r.dir = 2 then dnHead else upHead ++ dnHead)

/-- One interval per route reached. -/
def bandOf (ss : List Seg) : List FmBandIv :=
  ((ss.map (fun s => s.route)).eraseDups).map (fun rt =>
    let on := ss.filter (fun s => s.route = rt)
    match on with
    | [] => { route := rt }
    | s :: rest => { route := rt, lo := rest.foldl (fun m x => min m x.lo) s.lo, hi := rest.foldl (fun m x => max m x.hi) s.hi })

/-- Distance of a range from the nearest interval of a band on its route, none where the band has no interval there; 0 inside. -/
def bandGap (band : List FmBandIv) (route : Nat) (lo hi : Int) : Option Int :=
  (band.filter (fun v => v.route = route)).foldl (fun m v =>
    let g := max 0 (max (lo - v.hi) (v.lo - hi))
    match m with | some x => some (min x g) | none => some g) none

/-- Whether a band overlaps a half-open range of chainage. -/
def bandOver (band : List FmBandIv) (route lo hi : Nat) : Bool := band.any (fun v => v.route = route && v.lo < hi && (lo : Int) ≤ v.hi)

/-! ## Cells (R226, R238, R239) -/

/-- Tiles on which a cell has a part, and the terminals of the part. -/
def Dev.cellTiles (d : Dev) (c : FmCell) : List Nat := ((c.tids.filter (fun t => mhas d.terms t)).map d.tileOfTerm).eraseDups
def Dev.partTids (d : Dev) (c : FmCell) (tile : Nat) : List Nat := c.tids.filter (fun t => mhas d.terms t && d.tileOfTerm t = tile)

/-- Allocation that takes a contribution of an entry: the lowest AID of the terminal with follow_me in the entry's domain (R240). -/
def Dev.fmAlloc (d : Dev) (tid sdom : Nat) : Option Nat := (d.allocs.find? (fun e => e.2.tid = tid && e.2.p.fm && e.2.p.sdom = sdom)).map (fun e => e.1)

/-- Counts the entries of a profile that find no allocation at the terminals that its contribution reaches anew (R240, log 51). -/
def Dev.fmMissed (d : Dev) (profile : Nat) (tids : List Nat) : Dev :=
  d.count .fmUnmatched fmDevice
    ((tids.map (fun t => ((d.fmProfile profile).entries.filter (fun e => (d.fmAlloc t e.sdom).isNone)).length)).foldl (· + ·) 0)

/-- Terminals of a part whose tile runs. -/
def Dev.liveTids (d : Dev) (part : Nat) : List Nat :=
  match mget d.fm.cells (part / 8) with
  | some c => if d.tileRun (part % 8) then d.partTids c (part % 8) else []
  | none => []

/-- A train engages a part: wake requests, and entries that find no allocation are counted. -/
def Dev.fmEngage (d : Dev) (trn cell tile : Nat) (c : FmCell) : Dev :=
  let x := d.fmTrain trn
  let part := 8 * cell + tile
  if x.engaged.any (fun e => e.1 = part) then d
  else
    let d := (d.setTrain trn { x with engaged := mput x.engaged part d.now }).count .engagements cell
    let tids := d.partTids c tile
    let d := tids.foldl (fun d t => match mget d.terms t with | some y => if y.st = .lowPower then (d.wake t).2 else d | none => d) d
    let held (t : Nat) : Bool := x.engaged.any (fun e => (d.liveTids e.1).contains t)
    d.fmMissed x.profile (tids.filter (fun t => !held t))

/-- A train releases a part. -/
def Dev.fmRelease (d : Dev) (trn part : Nat) : Dev :=
  let x := d.fmTrain trn
  (d.setTrain trn { x with engaged := mdel x.engaged part, pre := mdel x.pre part }).count .releases (part / 8)

/-- Engagements of a publication. -/
def Dev.fmEngageAll (d : Dev) (trn : Nat) (band : List FmBandIv) : Dev :=
  d.fm.cells.foldl (fun d e =>
    if bandOver band e.2.route e.2.lo e.2.hi then
      (d.cellTiles e.2).foldl (fun d t =>
        if !d.tileRun t then d
        else (d.fmEngage trn e.1 t e.2).fmUpd trn (fun x => { x with pre := mdel x.pre (8 * e.1 + t) })) d
    else d) d

/-- Releases of a publication: clear of the band by the hysteresis, and engaged for the dwell (R239). -/
def Dev.fmReleaseAll (d : Dev) (trn : Nat) (band : List FmBandIv) : Dev :=
  (d.fmTrain trn).engaged.foldl (fun d e =>
    match mget d.fm.cells (e.1 / 8) with
    | none => d.fmRelease trn e.1
    | some c =>
      let clear := match bandGap band c.route c.lo c.hi with | none => true | some g => !bandOver band c.route c.lo c.hi && (d.hysteresisCm : Int) ≤ g
      if clear && d.tileRun (e.1 % 8) && !mhas (d.fmTrain trn).pre e.1 && (rawMs d.dwellMs).toNat ≤ (d.now - e.2).toNat then d.fmRelease trn e.1
      else d) d

/-! ## Position events (R246, R247) -/

/-- The action of an event that fires. -/
def Dev.fmFire (d : Dev) (trn ev : Nat) (e : FmEvent) : Dev :=
  let d := (d.fmUpd trn (fun x => { x with fired := insSorted x.fired ev })).count .eventsFired ev
  match e.act with
  | 0 =>
    let (gone, d) := d.wake e.arg
    d.fmUpd trn (fun x => { x with unavail := if gone then insSorted x.unavail e.arg else x.unavail.erase e.arg })
  | 1 =>
    (match mget d.fm.cells e.arg with
     | none => d
     | some c => (d.cellTiles c).foldl (fun d t =>
         let part := 8 * e.arg + t
         if !d.tileRun t || (d.fmTrain trn).engaged.any (fun x => x.1 = part) then d
         else (d.fmEngage trn e.arg t c).fmUpd trn (fun x => { x with pre := mput x.pre part (d.now + rawS e.hold) })) d)
  | _ => d.notify Config.fmNotifyOp ev (leBytes 2 e.arg ++ zeroBytes 2)

/-- Key of a head edge in `headPrev`: route, and 256 for one that runs in reverse. -/
def Seg.key (s : Seg) : Nat := s.route + (if s.fwd then 0 else 256)
def Seg.pos (s : Seg) : Int := if s.fwd then s.hi else s.lo

/-- Whether a head edge has crossed a point since the previous publication. -/
def Seg.crossed (s : Seg) (prev : List (Nat × Int)) (c : Int) : Bool :=
  let start : Option Int := match prev.lookup s.key with | some p => some p | none => s.entry.map (fun a => if s.fwd then a - 1 else a + 1)
  match start with
  | none => false
  | some p => if s.fwd then p < c && c ≤ s.pos else s.pos ≤ c && c < p

/-- Events of a publication, in ascending number. -/
def Dev.fmEvents (d : Dev) (trn : Nat) (dir : Nat) (heads : List Seg) (band : List FmBandIv) : Dev :=
  let prev := (d.fmTrain trn).headPrev
  let d := d.fm.events.foldl (fun d e =>
    let admits (s : Seg) : Bool := s.route = e.2.route && (dir = 0 || e.2.dir = 0 || e.2.dir = (if s.fwd then 1 else 2))
    if (d.fmTrain trn).fired.contains e.1 then
      (match bandGap band e.2.route e.2.c e.2.c with
       | some g => if (d.hysteresisCm : Int) ≤ g && 0 < g then d.fmUpd trn (fun x => { x with fired := x.fired.erase e.1 }) else d
       | none => d.fmUpd trn (fun x => { x with fired := x.fired.erase e.1 }))
    else if heads.any (fun s => admits s && s.crossed prev e.2.c) then d.fmFire trn e.1 e.2
    else d) d
  d.fmUpd trn (fun x => { x with headPrev := heads.map (fun s => (s.key, s.pos)) })

/-! ## Contributions and clips (R240 to R245) -/

/-- One entry's contribution to a terminal. -/
structure FmC where
  tid : Nat
  sdom : Nat
  trn : Nat
  cell : Nat
  age : Nat
  upA : Nat
  upP : Nat
  dnA : Nat
  dnP : Nat
  aid : Option Nat
  deriving DecidableEq, Repr

/-- What one train, or one floor profile, contributes to the terminals of its parts, each terminal once, by its earliest part. -/
def Dev.fmFrom (d : Dev) (trn : Nat) (p : FmProfile) (parts : List (Nat × Raw)) : List FmC :=
  let old := sortBy (fun (e : Nat × Raw) => 2 ^ 64 - (d.now - e.2).toNat) parts
  let pairs := old.flatMap (fun e => (d.liveTids e.1).map (fun t => (t, e)))
  let firsts := pairs.foldl (fun (l : List (Nat × (Nat × Raw))) x => if l.any (fun y => y.1 = x.1) then l else l ++ [x]) []
  firsts.flatMap (fun x =>
    let up4 (n : Nat) : Nat := if d.chanOfTerm x.1 % 4 = 0 then n else ceilDiv n 4 * 4
    p.entries.map (fun e =>
      { tid := x.1, sdom := e.sdom, trn := trn, cell := x.2.1 / 8, age := (d.now - x.2.2).toNat, upA := up4 e.upA, upP := up4 e.upP,
        dnA := up4 e.dnA, dnP := up4 e.dnP, aid := d.fmAlloc x.1 e.sdom }))

/-- Parts under floor hold with the instant of their loss, and the floor profile of a part (R244). -/
def Dev.fmHolds (d : Dev) : List (Nat × Raw) := d.fm.trains.flatMap (fun e => e.2.floor.map (fun part => (part, e.2.lostAt)))
def Dev.floorOf (d : Dev) (part : Nat) : Option Nat := (mget d.fm.cells (part / 8)).map (fun c => c.floor)

/-- Entries of the floor profiles that new floor holds bring to a terminal and that find no allocation are counted (R240). -/
def Dev.floorMissed (d : Dev) (before : List (Nat × Raw)) (parts : List Nat) : Dev :=
  let pairs (l : List Nat) : List (Nat × Nat) := l.flatMap (fun p => match d.floorOf p with | some f => (d.liveTids p).map (fun t => (f, t)) | none => [])
  let old := pairs (before.map (fun e => e.1))
  (((pairs parts).eraseDups).filter (fun x => !old.contains x)).foldl (fun d x => d.fmMissed x.1 [x.2]) d

/-- Every contribution: engaged trains, and floor holds as one further train for each distinct floor profile (R240). -/
def Dev.fmAll (d : Dev) : List FmC :=
  let ts := d.fm.trains.flatMap (fun e => d.fmFrom e.1 (d.fmProfile e.2.profile) e.2.engaged)
  let held := d.fmHolds
  let profs := sortBy id ((held.filterMap (fun x => d.floorOf x.1)).eraseDups)
  ts ++ profs.flatMap (fun p => d.fmFrom (1024 + p) (d.fmProfile p) (held.filter (fun x => d.floorOf x.1 = some p)))

/-- What is left of a channel's budget as contributions are granted. -/
structure Clip where
  budget : Nat
  added : List (Nat × Nat) := []
  clips : List (Nat × Nat × Nat × Nat) := []
  got : List (Nat × Nat) := []

/-- Grants one contribution of a channel, reduced to what the budget covers (R245). -/
def Dev.clipOne (d : Dev) (ch : Nat) (k : Clip) (x : FmC) : Clip :=
  match x.aid with
  | none => k
  | some aid =>
    let r := d.rate ch
    let p := d.burstP ch x.tid
    let q := d.burstQ ch x.tid
    let gs := d.allocs.filter (fun e => e.2.tid = x.tid && e.2.p.typ < 2 && e.2.delAt.isNone)
    let add := mgetD k.added x.tid 0
    let base := (gs.map (fun e => e.2.p.fixed + e.2.p.assured + (if e.2.p.nonStatus || e.2.p.typ = 0 then 0 else r.rep))).foldl (· + ·) 0 + add
    let spent := if gs.isEmpty && add = 0 then 0 else lineB r p q base
    let room := (carryMax r p q (k.budget + spent) - base) / gran ch * gran ch
    let b := min x.upA room
    let cost := if b = 0 then 0 else lineB r p q (base + b) - spent
    { budget := k.budget - cost, added := if b = 0 then k.added else mput k.added x.tid (add + b), got := k.got ++ [(aid, b)],
      clips := if b < x.upA then k.clips ++ [(aid, x.trn, x.cell, x.upA - b)] else k.clips }

/-- The grants and clips of one channel. -/
def Dev.clipChan (d : Dev) (ch : Nat) (cs : List FmC) : Clip :=
  let limit := (d.rate ch).fb * (100 - d.winReservePct ch) / 100
  let load := d.loadWith ch (2 ^ 32) none
  let key (x : FmC) : Nat := (mgetD d.domPrio x.sdom 4 * 2 ^ 64 + (2 ^ 64 - x.age)) * 2 ^ 16 + x.trn
  (sortBy key cs).foldl (d.clipOne ch) { budget := limit - load }

/-- Sum of the second components for a key. -/
def sumFor (l : List (Nat × Nat)) (k : Nat) : Nat := ((l.filter (fun x => x.1 = k)).map (fun x => x.2)).foldl (· + ·) 0

/-- The follow-me values that the engagements now standing give. -/
def Dev.fmValues (d : Dev) : FmVals :=
  let cs := d.fmAll
  let up := cs.filter (fun x => x.aid.isSome)
  let chs := sortBy id ((up.map (fun x => d.chanOfTerm x.tid)).eraseDups)
  let ks := chs.map (fun ch => d.clipChan ch (up.filter (fun x => d.chanOfTerm x.tid = ch)))
  let got := ks.flatMap (fun k => k.got)
  let peaks := up.map (fun x => (x.aid.getD 0, x.upP))
  let aids := sortBy id ((peaks.map (fun x => x.1)).eraseDups)
  let nodes := cs.map (fun x => (termNode x.tid x.sdom, x.dnA, x.dnP))
  let keys := sortBy id ((nodes.map (fun x => x.1)).eraseDups)
  { atT := plusF d.frame 2,
    allocs := aids.map (fun a => (a, sumFor got a, min (sumFor peaks a) (d.rate (d.chanOfAlloc a)).fb)),
    nodes := keys.map (fun k => (k, sumFor (nodes.map (fun x => (x.1, x.2.1))) k, sumFor (nodes.map (fun x => (x.1, x.2.2))) k)),
    clips := ks.flatMap (fun k => k.clips) }

/-- Tells the host of clips, at most once a second for each cell and train (R245). -/
def Dev.clipNotes (d : Dev) (cl : List (Nat × Nat × Nat × Nat)) : Dev :=
  cl.foldl (fun d x =>
    let key := 1024 * x.2.2.1 + x.2.1
    let fresh := match d.fm.clipTold.lookup key with | some t => decide ((rawS 1).toNat ≤ (d.now - t).toNat) | none => true
    if 1024 ≤ x.2.1 || !fresh then d
    else
      let ch := d.chanOfAlloc x.1
      let b := ((cl.filter (fun y => y.2.1 = x.2.1 && y.2.2.1 = x.2.2.1 && d.chanOfAlloc y.1 = ch)).map (fun y => y.2.2.2)).foldl (· + ·) 0
      Dev.notify { d with fm := { d.fm with clipTold := mput d.fm.clipTold key d.now } } 0x8583 ch (leBytes 2 x.2.2.1 ++ leBytes 2 x.2.1 ++ leBytes 4 b)) d

/-- Values after a change of engagements, in force from frame m + 2 (R241, R242). -/
def Dev.fmApply (d : Dev) : Dev :=
  let v := d.fmValues
  let last : FmVals := d.fm.vals.getLast?.getD { allocs := (d.allocs.filter (fun e => e.2.fmA ≠ 0 || e.2.fmP ≠ 0)).map (fun e => (e.1, e.2.fmA, e.2.fmP)), nodes := d.fm.nodes, clips := d.fm.clips }
  if d.fm.vals.isEmpty && v.allocs = last.allocs && v.clips = last.clips && v.nodes = last.nodes then d
  else
    let d : Dev := { d with fm := { d.fm with vals := d.fm.vals.filter (fun x => x.atT ≠ v.atT) ++ [v] } }
    d.clipNotes v.clips

/-- Puts the values due at frame `n` in force. -/
def Dev.fmBoundary (d : Dev) (n : Nat) : Dev :=
  let due := d.fm.vals.filter (fun v => frameGe n v.atT)
  match due.getLast? with
  | none => d
  | some v =>
    let d : Dev := { d with
      fm := { d.fm with vals := d.fm.vals.filter (fun v => !frameGe n v.atT), nodes := v.nodes, clips := v.clips },
      allocs := d.allocs.map (fun (k, a) => (k, match v.allocs.find? (fun x => x.1 = k) with
        | some x => { a with fmA := x.2.1, fmP := x.2.2 } | none => { a with fmA := 0, fmP := 0 })) }
    let nodes := d.shapers.map (fun e => e.1)
    nodes.foldl (fun d k => if k < 2 ^ 34 || 2 ^ 35 ≤ k then d else
      match v.nodes.find? (fun x => x.1 = k) with
      | some x => d.fmShape k (x.2.1 * 64) (x.2.2 * 64)
      | none => d.fmShape k 0 0) d

/-- The bytes withheld from one frame plan of a channel (R245). -/
def Dev.clipCount (d : Dev) (ch : Nat) : Dev :=
  d.fm.clips.foldl (fun d x =>
    if d.chanOfAlloc x.1 = ch then
      let dom := match mget d.allocs x.1 with | some a => a.p.sdom | none => 0
      (d.count .fmClipBytes ch x.2.2.2).count .fmClipDom dom x.2.2.2
    else d) d

/-! ## Publication (R234, R236, R247) -/

/-- The follow-me registers take effect (FM_CFG, FM_BAND_CFG, FM_LOST_CFG). -/
def Dev.fmLoad (d : Dev) : Dev :=
  { d with fm := { d.fm with
    cfg := BitVec.ofNat 32 (d.reg 0x400)
    bandCfg := BitVec.ofNat 32 (d.reg 0x404)
    lostCfg := BitVec.ofNat 32 (d.reg 0x408) } }

/-- A profile bound since the last publication takes effect (R228). -/
def FmTrain.newProfile (x : FmTrain) : FmTrain :=
  { x with
    profile := x.profNext.getD x.profile
    profNext := none }

/-- Computes and publishes the band of one train: engagements, then events, then releases. -/
def Dev.fmPublish (d : Dev) (trn : Nat) : Dev :=
  let d := if d.tileRun (d.fmHome trn) then d.fmUpd trn FmTrain.newProfile else d
  let x := d.fmTrain trn
  match x.last with
  | none => d
  | some r =>
    if !x.banded || !d.tileRun (d.fmHome trn) then d
    else
      let (ss, heads) := d.fmSegs (d.fmProfile x.profile) r
      let band := bandOf ss
      let d := d.setTrain trn { x with band := band }
      (((d.fmEngageAll trn band).fmEvents trn r.dir heads band).fmReleaseAll trn band)

/-! ## Checks and acceptance (R231 to R233, R248, R249) -/

/-- Counts a rejection by its reason. -/
def Dev.fmReject (d : Dev) (reason : Nat) : Nat × Dev := (reason, d.count .rejectedReason reason)

/-- Slot of a train ID: the bound one, else the lowest free one where binding is automatic, with a profile. -/
def Dev.fmSlot (d : Dev) (train profile : Nat) : Option (Nat × Dev) :=
  match d.fm.trains.find? (fun e => e.2.train = train) with
  | some e => some (e.1, d)
  | none =>
    if !d.autoBind then none
    else match lowestFree (d.fm.trains.map (fun e => e.1)) 0 1024 with
      | some s => some (s, d.setTrain s { train := train, profile := profile, st := .bound })
      | none => none

/-- A report that finds no slot: the first in each second raises an F0 notice (R228). -/
def Dev.fmNoSlot (d : Dev) (train : Nat) : Nat × Dev :=
  let sec := d.netSec + 1
  let first := d.fm.noSlotSec ≠ sec
  let d : Dev := { d with fm := { d.fm with noSlotSec := sec } }
  (if first then d.raise 0x08 0x01 0 0 0xFFFFFFFF train false else d).fmReject 6

/-- Shortest distance from the last accepted report through one link, none where the routes are not linked (R232, R233). -/
def Dev.fmDist (d : Dev) (a r : FmReport) : Option Nat :=
  if a.route = r.route then some ((r.c : Int) - a.c).natAbs
  else match mget d.fm.routes a.route with
    | none => none
    | some x => ((x.links.filter (fun l => l.route = r.route)).map (fun l =>
        (if l.high then x.len - a.c else a.c) + ((r.c : Int) - l.atT).natAbs)).foldl (fun m v => match m with | some y => some (min y v) | none => some v) none

/-- Checks 2 to 4 of Table 9-4 on a report of one's own inputs, 0 when it passes. -/
def Dev.fmPlace (d : Dev) (r : FmReport) : Nat :=
  if r.dir = 3 || 999999999 < r.ns then 2
  else match mget d.fm.routes r.route with
    | none => 3
    | some x => if x.len < r.c then 4 else 0

/-- Checks 8 to 12, 0 when the report is accepted; a remote report skips 11 and 12. -/
def Dev.fmCheck (d : Dev) (trn : Nat) (r : FmReport) (remote : Bool) : Nat :=
  let x := d.fmTrain trn
  if d.netNs + 1000000000 < r.ts then 8
  else match x.last with
    | none => 0
    | some a =>
      if r.repos then 0
      else if r.ts < a.ts then 9
      else if r.ts = a.ts then 10
      else if remote then 0
      else match d.fmDist a r with
        | none => 11
        | some dist =>
          let v := (d.fmProfile x.profile).vMax
          if !x.firstRep && 12 * (v : Int) * (r.ts - a.ts) < ((dist - r.acc - a.acc : Nat) : Int) * 10000000000 then 12 else 0

/-- Reports accepted from one's own inputs are gathered for the joined system (R249, R409). -/
def Dev.fmBatch (d : Dev) (r : FmReport) : Dev :=
  if d.join.st = .attached || d.join.st = .root then
    { d with join := { d.join with batch := d.join.batch ++ [r], batchAt := if d.join.batch.isEmpty then d.now else d.join.batchAt } }
  else d

/-- Accepts a report: the band is recomputed and published at once; a lost train has recovered (R234, R243, R244). -/
def Dev.fmAccept (d : Dev) (trn : Nat) (r : FmReport) (remote : Bool) : Dev :=
  let x := d.fmTrain trn
  let y := { x with last := some r, lastAt := d.now, firstRep := false, floor := [], st := TrainState.tracking, headPrev := if r.repos then [] else x.headPrev }
  let d := ((d.setTrain trn y).count .reportsAccepted fmDevice).count .reportsAccepted trn
  let d := if x.st = .lost then d.notify 0x8582 trn y.note else d
  let d := if remote then d else d.fmBatch r
  (d.fmLoad.fmPublish trn).fmApply

/-- Processes a report of a train (R231, R232): its final reason. -/
def Dev.fmProcess (d : Dev) (trn : Nat) (r : FmReport) (remote : Bool) : Nat × Dev :=
  let why := d.fmCheck trn r remote
  let d := if remote then d else d.fmUpd trn (fun x => { x with procAt := some d.now })
  if why = 0 then (0, d.fmAccept trn r remote) else d.fmReject why

/-- Processes a held report whose 10 ms have passed. -/
def Dev.fmDue (d : Dev) (trn : Nat) : Dev :=
  let x := d.fmTrain trn
  match x.held, x.procAt with
  | some r, some t => if reached d.now (t + rawMs 10) then ((d.setTrain trn { x with held := none }).fmProcess trn r false).2 else d
  | _, _ => d

/-- The lead tile keeps the newest report for a home tile that is out of RUN (R248). -/
def Dev.fmKeep (d : Dev) (trn : Nat) (r : FmReport) : Nat × Dev :=
  let x := d.fmTrain trn
  match x.kept with
  | none => (13, d.setTrain trn { x with kept := some r })
  | some k =>
    let d := (d.fmReject 7).2
    if k.ts < r.ts then (13, d.setTrain trn { x with kept := some r }) else (7, d)

/-- Decimation of one's own inputs (R231). -/
def Dev.fmDecimate (d : Dev) (trn : Nat) (r : FmReport) : Nat × Dev :=
  let d := d.fmDue trn
  let x := d.fmTrain trn
  if r.repos then
    let d := if x.held.isSome then ((d.setTrain trn { x with held := none }).fmReject 7).2 else d
    d.fmProcess trn r false
  else if x.procAt.any (fun t => !reached d.now (t + rawMs 10)) then
    match x.held with
    | none => (13, d.setTrain trn { x with held := some r })
    | some h =>
      let d := (d.fmReject 7).2
      if h.ts < r.ts then (13, d.setTrain trn { x with held := some r }) else (7, d)
  else d.fmProcess trn r false

/-- Refills the admission counter: 20 a millisecond up to 2,000 (R231). -/
def Dev.fmRefill (d : Dev) : Dev :=
  let n := (d.now - d.fm.admAt).toNat / (rawMs 1).toNat
  { d with fm := { d.fm with adm := min 2000 (d.fm.adm + 20 * n), admAt := d.fm.admAt + BitVec.ofNat 64 (n * (rawMs 1).toNat) } }

/-- Takes one report from a command or a telegram: its reason (R231, R232). -/
def Dev.fmTake (d : Dev) (r : FmReport) (telegram : Bool) : Nat × Dev :=
  let d := (d.count .reportsIn fmDevice).fmRefill
  if d.fm.adm = 0 then
    Dev.fmReject { d with fm := { d.fm with overSec := d.netSec + 1 } } 1
  else
    let d : Dev := { d with fm := { d.fm with adm := d.fm.adm - 1 } }
    let why := d.fmPlace r
    if why ≠ 0 then d.fmReject why
    else if telegram && r.ts < d.netNs - 2000000000 then d.fmReject 5
    else match d.fmSlot r.train d.defaultProfile with
      | none => d.fmNoSlot r.train
      | some (trn, d) =>
        let d := d.count .reportsIn trn
        if !d.tileRun (d.fmHome trn) then d.fmKeep trn r else d.fmDecimate trn r

/-- Takes a list of reports; answers one reason each. -/
def Dev.fmTakeAll (d : Dev) (rs : List FmReport) (telegram : Bool) : List Nat × Dev :=
  rs.foldl (fun (acc : List Nat × Dev) r => let (n, d) := acc.2.fmTake r telegram; (acc.1 ++ [n], d)) ([], d)

/-- A list of records of 32 bytes. -/
def records (b : List Byte) (ofs n : Nat) : List FmReport := (List.range n).map (fun i => reportOf (bytesAt b (ofs + 32 * i) 32))

/-! ## Rows -/

/-- HELD_REPORT_RELEASE (R231). -/
def Dev.opHeldReportRelease (d : Dev) (trn : Nat) : Dev :=
  match (d.fmTrain trn).held, (d.fmTrain trn).procAt with
  | some _, some t => if d.tileRun (d.fmHome trn) then (d.advanceTo (t + rawMs 10)).fmDue trn else d
  | _, _ => d

/-- POSITION_TELEGRAM_RX (R230). -/
def Dev.opPositionTelegramRx (d : Dev) (port : Nat) (payload : List Byte) : Dev :=
  let n := natAt payload 4 1
  match mget d.fm.sources n with
  | none => d
  | some s =>
    if !s.enabled || s.port ≠ port || !d.ready then d
    else
      let x := d.pslot s.slot
      let body := payload.take (payload.length - 16)
      let cnt := natAt payload 3 1
      if !(x.kind = 3 && !x.stale && s.slotW = x.wcount && d.cru.ready) || payload.length < 16 || payload.drop (payload.length - 16) ≠ cmac x.key body then
        d.count .telegramAuthFail n
      else if s.seq.any (fun q => natAt payload 8 8 ≤ q) then d.count .telegramReplay n
      else if natAt payload 0 2 ≠ 0x5F3A || natAt payload 2 1 ≠ 1 || cnt = 0 || 40 < cnt || payload.length ≠ 32 + 32 * cnt then d.count .telegramFormat n
      else
        let d : Dev := { d with fm := { d.fm with sources := mput d.fm.sources n { s with seq := some (natAt payload 8 8) } } }
        (d.fmTakeAll (records payload 16 cnt) true).2

/-- REMOTE_REPORT_RX (R249): a report of another device, straight into the checks that concern it. -/
def Dev.opRemoteReportRx (d : Dev) (record : List Byte) (profile : Nat) : Dev :=
  if !d.ready then d
  else
    let d := d.count .remoteReceived fmDevice
    let r := reportOf record
    if !mhas d.fm.routes r.route then d.count .remoteOffroute fmDevice
    else
      let why := d.fmPlace r
      if why ≠ 0 then (d.fmReject why).2
      else match d.fmSlot r.train profile with
        | none => (d.fmNoSlot r.train).2
        | some (trn, d) => if !d.tileRun (d.fmHome trn) then (d.fmKeep trn r).2 else (d.fmProcess trn r true).2

/-- Publishes every band. -/
def Dev.fmPublishAll (d : Dev) : Dev := ((d.fm.trains.map (fun e => e.1)).foldl Dev.fmPublish d).fmApply

/-- A tile enters RUN (R248): the parts on it are evaluated against the bands now published, and the lead tile hands the reports that it
kept to the trains whose home the tile is. -/
def Dev.fmTileRun (d : Dev) (t : Nat) : Dev :=
  let d := d.fm.trains.foldl (fun d e => if e.2.banded then d.fmEngageAll e.1 e.2.band else d) d
  let d := (d.fm.trains.filter (fun e => d.fmHome e.1 = t)).foldl (fun d e =>
    match e.2.kept with
    | some r => ((d.fmUpd e.1 (fun x => { x with kept := none })).fmProcess e.1 r false).2
    | none => d) d
  d.fmApply

/-- BAND_PUBLISH (R236): the next whole millisecond of network time. -/
def Dev.opBandPublish (d : Dev) : Dev :=
  if !d.ready then d
  else (d.advanceTo (d.rawReach ((d.netU / 65536000000 + 1) * 65536000000))).fmLoad.fmPublishAll

/-- TRAIN_STALE (R243). -/
def Dev.opTrainStale (d : Dev) (trn : Nat) : Dev :=
  let x := d.fmTrain trn
  if x.st = .tracking && d.ready then
    let d := d.advanceTo (x.lastAt + rawMs d.tStaleMs)
    (d.setTrain trn { x with st := .stale }).notify 0x8580 trn x.note
  else d

/-- TRAIN_LOST (R243, R244): every part is released at once and enters a floor hold. While the home tile is out of RUN the train keeps its
parts (R248). -/
def Dev.opTrainLost (d : Dev) (trn : Nat) : Dev :=
  let x := d.fmTrain trn
  if x.banded && d.ready && d.tileRun (d.fmHome trn) then
    let d := d.advanceTo (x.lastAt + rawS d.tLostS)
    let parts := x.engaged.map (fun e => e.1)
    let d := parts.foldl (fun d p => d.count .releases (p / 8)) d
    let d := d.floorMissed d.fmHolds parts
    let d := d.setTrain trn { x with st := .lost, band := [], engaged := [], pre := [], headPrev := [], fired := [], floor := parts, lostAt := d.now, firstRep := true }
    ((d.count .trainsLost fmDevice).notify 0x8581 trn x.note).fmApply
  else d

/-- FLOOR_HOLD_END (R244). -/
def Dev.opFloorHoldEnd (d : Dev) (trn : Nat) : Dev :=
  let x := d.fmTrain trn
  if x.st = .lost && !x.floor.isEmpty && d.lostHoldS ≠ 0 && d.ready then
    let d := d.advanceTo (x.lostAt + rawS d.lostHoldS)
    (d.setTrain trn { x with floor := [] }).fmApply
  else d

/-- PRE_ENGAGE_HOLD_END (R246): the band never overlapped the cell. While the home tile is out of RUN nothing is released (R248). -/
def Dev.opPreEngageHoldEnd (d : Dev) (trn cell : Nat) : Dev :=
  let ps := (d.fmTrain trn).pre.filter (fun e => e.1 / 8 = cell)
  match ps with
  | [] => d
  | p :: _ => if d.ready && d.tileRun (d.fmHome trn) then (ps.foldl (fun d e => d.fmRelease trn e.1) (d.advanceTo p.2)).fmApply else d

/-! ## Changes that fall due (R216, R250) -/

/-- Removes what a train holds of a cell's parts that no longer exist. -/
def Dev.fmPrune (d : Dev) (cell : Nat) : Dev :=
  let ok (part : Nat) : Bool := part / 8 ≠ cell || (match mget d.fm.cells cell with | some c => (d.cellTiles c).contains (part % 8) | none => false)
  d.fm.trains.foldl (fun d e =>
    let gone := e.2.engaged.filter (fun x => !ok x.1)
    (gone.foldl (fun d x => d.fmRelease e.1 x.1) d).fmUpd e.1 (fun x => { x with floor := x.floor.filter ok })) d

/-- Applies the accepted changes of cells, profiles and events that the builds of frame `n` see, and evaluates again. -/
def Dev.fmChanges (d : Dev) (n : Nat) : Dev :=
  let cs := d.fm.cellNext.filter (fun x => frameGe n x.1)
  let ps := d.fm.profNext.filter (fun x => frameGe n x.1)
  let es := d.fm.evNext.filter (fun x => frameGe n x.1)
  if cs.isEmpty && ps.isEmpty && es.isEmpty then d
  else
    let d : Dev := { d with fm := { d.fm with
      cellNext := d.fm.cellNext.filter (fun x => !frameGe n x.1), profNext := d.fm.profNext.filter (fun x => !frameGe n x.1),
      evNext := d.fm.evNext.filter (fun x => !frameGe n x.1),
      cells := cs.foldl (fun m x => match x.2.2 with | some c => mput m x.2.1 c | none => mdel m x.2.1) d.fm.cells,
      profiles := ps.foldl (fun m x => mputD m x.2.1 x.2.2 {}) d.fm.profiles,
      events := es.foldl (fun m x => match x.2.2 with | some c => mput m x.2.1 c | none => mdel m x.2.1) d.fm.events } }
    let d := cs.foldl (fun d x => d.fmPrune x.2.1) d
    let d := es.foldl (fun d x => if x.2.2.isNone then { d with fm := { d.fm with trains := d.fm.trains.map (fun (k, t) => (k, { t with fired := t.fired.erase x.2.1 })) } } else d) d
    d.fmPublishAll

/-- A cell or an event as the last accepted command leaves it. -/
def Dev.cellLatest (d : Dev) (k : Nat) : Option FmCell := match (d.fm.cellNext.filter (fun x => x.2.1 = k)).getLast? with | some x => x.2.2 | none => mget d.fm.cells k
def Dev.eventLatest (d : Dev) (k : Nat) : Option FmEvent := match (d.fm.evNext.filter (fun x => x.2.1 = k)).getLast? with | some x => x.2.2 | none => mget d.fm.events k

/-! ## Commands -/

/-- Table 15-21. -/
def bodyFmRoute (c : Cmd) (d : Dev) : Res :=
  if 255 < c.tgt then d.fail stRange ofsTgt
  else if 1 < c.u8 0 then d.fail stBadParam (ofsP 0)
  else if d.fm.trains.any (fun e => e.2.last.any (fun r => r.route = c.tgt)) then d.fail stState
  else if c.u8 0 = 1 then
    if mhas d.fm.routes c.tgt then Dev.ok { d with fm := { d.fm with routes := mdel d.fm.routes c.tgt } } else d.fail stState
  else
    let n := c.u8 1
    let idx := List.range n
    if 4 < n then d.fail stNoResource
    else if c.u32 4 = 0 then d.fail stRange (ofsP 4)
    else if idx.any (fun i => 1 < c.u8 (8 + 8 * i) || 1 < c.u8 (10 + 8 * i)) then d.fail stBadParam (ofsP 8)
    else
      let ls : List FmLink := idx.map (fun i =>
        { high := c.u8 (8 + 8 * i) = 1, route := c.u8 (9 + 8 * i), rev := c.u8 (10 + 8 * i) = 1, atT := c.u32 (12 + 8 * i) })
      let x : FmRoute := { len := c.u32 4, links := ls }
      Dev.ok { d with fm := { d.fm with routes := mput d.fm.routes c.tgt x } }

/-- CMD_FM_ROUTE (R225, R250). -/
def specFmRoute : CmdSpec :=
  { op := 0x0501, lenOk := fun _ ps => if natAt ps 0 1 = 1 then ps.length = 8 else ps.length = 8 + 8 * natAt ps 1 1, body := bodyFmRoute }

/-- Parts of the cells other than `k` on a tile, as accepted. -/
def Dev.partsOn (d : Dev) (k tile : Nat) : Nat :=
  let ks := ((d.fm.cells.map (fun e => e.1)) ++ (d.fm.cellNext.map (fun x => x.2.1))).eraseDups
  (ks.filter (fun j => j ≠ k && (match d.cellLatest j with | some c => (d.cellTiles c).contains tile | none => false))).length

/-- Table 15-22. -/
def bodyFmCell (c : Cmd) (d : Dev) : Res :=
  if 16383 < c.tgt then d.fail stRange ofsTgt
  else if 1 < c.u8 0 then d.fail stBadParam (ofsP 0)
  else if c.u8 0 = 1 then
    if (d.cellLatest c.tgt).isNone then d.fail stState
    else Dev.ok { d with fm := { d.fm with cellNext := d.fm.cellNext ++ [(d.effFrame, c.tgt, none)] } }
  else
    let n := c.u8 3
    let tids := (List.range n).map (fun i => c.u16 (12 + 2 * i))
    let x : FmCell := { route := c.u8 1, lo := c.u32 4, hi := c.u32 8, floor := c.u8 2, tids := tids }
    if n = 0 then d.fail stRange (ofsP 3)
    else if 16 < n then d.fail stNoResource
    else if 63 < c.u8 2 then d.fail stRange (ofsP 2)
    else if c.u32 8 ≤ c.u32 4 then d.fail stBadParam (ofsP 8)
    else if tids.any (fun t => d.nTerms ≤ t) then d.fail stRange (ofsP 12)
    else if !mhas d.fm.routes (c.u8 1) || tids.any (fun t => !mhas d.terms t || d.notRun (d.tileOfTerm t)) then d.fail stState
    else if (d.cellTiles x).any (fun t => 2048 ≤ d.partsOn c.tgt t) then d.fail stNoResource
    else Dev.ok { d with fm := { d.fm with cellNext := d.fm.cellNext ++ [(d.effFrame, c.tgt, some x)] } }

/-- CMD_FM_CELL (R226, R250). -/
def specFmCell : CmdSpec :=
  { op := 0x0502, lenOk := fun _ ps => if natAt ps 0 1 = 1 then ps.length = 12 else ps.length = pad4 (12 + 2 * natAt ps 3 1) || ps.length = 12 + 2 * natAt ps 3 1,
    body := bodyFmCell,
    scope := fun c d => c.u8 0 = 1 || ((List.range (c.u8 3)).map (fun i => c.u16 (12 + 2 * i))).all (fun t => !mhas d.terms t || d.mayReadTerm c.snd t) }

/-- Table 15-23. -/
def bodyFmProfile (c : Cmd) (d : Dev) : Res :=
  let n := c.u8 6
  let es : List FmEntry := (List.range n).map (fun i =>
    { sdom := c.u8 (8 + 20 * i), upA := c.u32 (12 + 20 * i), upP := c.u32 (16 + 20 * i), dnA := c.u32 (20 + 20 * i), dnP := c.u32 (24 + 20 * i) })
  if 63 < c.tgt then d.fail stRange ofsTgt
  else if c.u16 0 < 100 || 15000 < c.u16 0 then d.fail stRange (ofsP 0)
  else if 15000 < c.u16 2 then d.fail stRange (ofsP 2)
  else if 60000 < c.u16 4 then d.fail stRange (ofsP 4)
  else if 8 < n then d.fail stNoResource
  else if es.any (fun e => e.upP < e.upA || e.dnP < e.dnA) then d.fail stBadParam (ofsP 8)
  else
    let x : FmProfile := { vMax := c.u16 0, vRev := c.u16 2, lead := c.u16 4, entries := es }
    Dev.ok { d with fm := { d.fm with profNext := d.fm.profNext ++ [(d.effFrame, c.tgt, x)] } }

/-- CMD_FM_PROFILE (R227). -/
def specFmProfile : CmdSpec :=
  { op := 0x0503, lenOk := fun _ ps => ps.length = 8 + 20 * natAt ps 6 1, body := bodyFmProfile,
    scope := fun c _ => (List.range (c.u8 6)).all (fun i => c.snd.dom (c.u8 (8 + 20 * i))) }

/-- Table 15-24. -/
def bodyFmTrainBind (c : Cmd) (d : Dev) : Res :=
  if 1023 < c.tgt then d.fail stRange ofsTgt
  else if 63 < c.u8 3 then d.fail stRange (ofsP 3)
  else if d.notRun (c.tgt % d.nTiles) then d.fail stState
  else match mget d.fm.trains c.tgt with
    | some x => if x.train ≠ c.u24 0 then d.fail stState else Dev.ok (d.setTrain c.tgt { x with profNext := some (c.u8 3) })
    | none =>
      if d.fm.trains.any (fun e => e.2.train = c.u24 0) then d.fail stBadParam (ofsP 0)
      else Dev.ok (d.setTrain c.tgt { train := c.u24 0, profile := c.u8 3, st := .bound })

/-- CMD_FM_TRAIN_BIND (R228). -/
def specFmTrainBind : CmdSpec := { op := 0x0504, lenOk := lenIs 4, body := bodyFmTrainBind }

def bodyFmTrainClear (c : Cmd) (d : Dev) : Res :=
  if 1023 < c.tgt then d.fail stRange ofsTgt
  else if d.notRun (c.tgt % d.nTiles) then d.fail stState
  else match mget d.fm.trains c.tgt with
    | none => d.fail stState
    | some x =>
      let d := x.engaged.foldl (fun d e => d.count .releases (e.1 / 8)) d
      Dev.ok (Dev.fmApply { d with fm := { d.fm with trains := mdel d.fm.trains c.tgt } })

/-- CMD_FM_TRAIN_CLEAR (R239, R244). -/
def specFmTrainClear : CmdSpec := { op := 0x0505, lenOk := lenIs 0, body := bodyFmTrainClear }

/-- Records of Table 9-2; the reply holds one reason byte each. -/
def bodyFmPosition (c : Cmd) (d : Dev) : Res :=
  let (rs, d) := d.fmTakeAll (records c.params 0 (c.params.length / 32)) false
  d.ok (padBytes (rs.flatMap (fun r => leBytes 1 r)))

/-- CMD_FM_POSITION (R229, R232). -/
def specFmPosition : CmdSpec :=
  { op := 0x0506, lenOk := fun _ ps => 32 ≤ ps.length && ps.length ≤ 3584 && ps.length % 32 = 0, body := bodyFmPosition }

/-- Action (0 create or change, 1 delete), route, chainage, direction filter, action of the event, its TID, cell or tag, hold_s
(log 15). -/
def bodyFmEvent (c : Cmd) (d : Dev) : Res :=
  if 8191 < c.tgt then d.fail stRange ofsTgt
  else if 1 < c.u8 0 then d.fail stBadParam (ofsP 0)
  else if c.u8 0 = 1 then
    if (d.eventLatest c.tgt).isNone then d.fail stState
    else Dev.ok { d with fm := { d.fm with evNext := d.fm.evNext ++ [(d.effFrame, c.tgt, none)] } }
  else if 2 < c.u8 8 then d.fail stBadParam (ofsP 8)
  else if 2 < c.u8 9 then d.fail stBadParam (ofsP 9)
  else
    let arg := c.u16 10
    let hold := if c.u16 12 = 0 then 60 else c.u16 12
    if (c.u8 9 = 0 && d.nTerms ≤ arg) || (c.u8 9 = 1 && 16383 < arg) then d.fail stRange (ofsP 10)
    else if c.u8 9 = 1 && 3600 < hold then d.fail stRange (ofsP 12)
    else if !mhas d.fm.routes (c.u8 1) || (c.u8 9 = 0 && (!mhas d.terms arg || d.notRun (d.tileOfTerm arg))) || (c.u8 9 = 1 && (d.cellLatest arg).isNone) then d.fail stState
    else
      let e : FmEvent := { route := c.u8 1, c := c.u32 4, dir := c.u8 8, act := c.u8 9, arg := arg, hold := hold }
      Dev.ok { d with fm := { d.fm with evNext := d.fm.evNext ++ [(d.effFrame, c.tgt, some e)] } }

/-- CMD_FM_EVENT (R246, R250). -/
def specFmEvent : CmdSpec :=
  { op := 0x0507, lenOk := lenIs 16, body := bodyFmEvent,
    scope := fun c d => c.u8 0 = 1 || c.u8 9 ≠ 0 || !mhas d.terms (c.u16 10) || d.mayReadTerm c.snd (c.u16 10) }

/-- Crucible slot, UDP port, flags: enable (log 15). -/
def bodyFmSource (c : Cmd) (d : Dev) : Res :=
  if 63 < c.tgt then d.fail stRange ofsTgt
  else match d.slotFor (c.u8 0) 3 with
    | .error st => d.fail st (ofsP 0)
    | .ok p =>
      let old := mgetD d.fm.sources c.tgt {}
      let s : FmSource := { old with slot := c.u8 0, slotW := p.wcount, port := c.u16 2, enabled := c.bit 4 0 }
      Dev.ok { d with fm := { d.fm with sources := mput d.fm.sources c.tgt s } }

/-- CMD_FM_SOURCE (R230). -/
def specFmSource : CmdSpec := { op := 0x0508, crit := true, lenOk := lenIs 8, body := bodyFmSource }

def TrainState.code : TrainState → Nat
  | .free => 0 | .bound => 1 | .tracking => 2 | .stale => 3 | .lost => 4

/-- Trains that engage a cell or hold a floor hold on it, ascending, with their flags. -/
def Dev.cellTrains (d : Dev) (cell : Nat) : List (Nat × Bool × Bool) :=
  let runs (part : Nat) : Bool := part / 8 = cell && d.tileRun (part % 8)
  d.fm.trains.filterMap (fun e =>
    let eng := e.2.engaged.any (fun x => runs x.1)
    let fl := e.2.floor.any runs
    if eng || fl then some (e.1, fl, e.2.pre.any (fun x => runs x.1)) else none)

/-- Table 15-25. -/
def bodyFmStatus (c : Cmd) (d : Dev) : Res :=
  if c.u8 0 = 0 then
    if 1023 < c.tgt then d.fail stRange ofsTgt
    else
      let x := d.fmTrain c.tgt
      let r := x.last.getD {}
      let cells := ((x.engaged.filter (fun e => d.tileRun (e.1 % 8))).map (fun e => e.1 / 8)).eraseDups
      let band := x.band.take 5
      d.ok (padBytes (leBytes 1 x.st.code ++ leBytes 1 x.profile ++ leBytes 3 x.train ++ leBytes 1 band.length ++ leBytes 2 cells.length
        ++ leBytes 6 r.sec ++ zeroBytes 2 ++ leBytes 4 r.ns ++ leBytes 4 r.c ++ leBytes 1 r.route ++ leBytes 1 r.dir
        ++ leBytes 2 (min 1024 cells.length)
        ++ band.flatMap (fun v => leBytes 1 v.route ++ zeroBytes 3 ++ leBytes 4 (lowBits 32 v.lo) ++ leBytes 4 (lowBits 32 v.hi))
        ++ (cells.take 1024).flatMap (fun k => leBytes 2 k)))
  else if c.u8 0 = 1 then
    if 16383 < c.tgt then d.fail stRange ofsTgt
    else if !mhas d.fm.cells c.tgt then d.fail stState
    else
      let ts := d.cellTrains c.tgt
      let clip (trn : Nat) : Nat := ((d.fm.clips.filter (fun x => x.2.1 = trn && x.2.2.1 = c.tgt)).map (fun x => x.2.2.2)).foldl (· + ·) 0
      d.ok (leBytes 1 (b2n (!ts.isEmpty)) ++ zeroBytes 1 ++ leBytes 2 ts.length
        ++ (ts.take 400).flatMap (fun x => leBytes 2 x.1 ++ leBytes 1 (b2n x.2.1 + 2 * b2n x.2.2) ++ zeroBytes 1 ++ leBytes 4 (clip x.1)))
  else d.fail stBadParam (ofsP 0)

/-- CMD_FM_STATUS (R503). -/
def specFmStatus : CmdSpec := { op := 0x0509, lenOk := lenIs 4, body := bodyFmStatus }

/-! ## Meanings -/

/-- CMD_FM_ROUTE (R225). -/
def execCmdFmRoute (p : Packet) (s : State) : Host.Outcome State Fault Refusal := live (Dev.runCommand specFmRoute p) s

/-- CMD_FM_CELL (R226). -/
def execCmdFmCell (p : Packet) (s : State) : Host.Outcome State Fault Refusal := live (Dev.runCommand specFmCell p) s

/-- CMD_FM_PROFILE (R227). -/
def execCmdFmProfile (p : Packet) (s : State) : Host.Outcome State Fault Refusal := live (Dev.runCommand specFmProfile p) s

/-- CMD_FM_TRAIN_BIND (R228). -/
def execCmdFmTrainBind (p : Packet) (s : State) : Host.Outcome State Fault Refusal := live (Dev.runCommand specFmTrainBind p) s

/-- CMD_FM_TRAIN_CLEAR (R239). -/
def execCmdFmTrainClear (p : Packet) (s : State) : Host.Outcome State Fault Refusal := live (Dev.runCommand specFmTrainClear p) s

/-- CMD_FM_POSITION (R232). -/
def execCmdFmPosition (p : Packet) (s : State) : Host.Outcome State Fault Refusal := live (Dev.runCommand specFmPosition p) s

/-- CMD_FM_EVENT (R246). -/
def execCmdFmEvent (p : Packet) (s : State) : Host.Outcome State Fault Refusal := live (Dev.runCommand specFmEvent p) s

/-- CMD_FM_SOURCE (R230). -/
def execCmdFmSource (p : Packet) (s : State) : Host.Outcome State Fault Refusal := live (Dev.runCommand specFmSource p) s

/-- CMD_FM_STATUS (R502). -/
def execCmdFmStatus (p : Packet) (s : State) : Host.Outcome State Fault Refusal := live (Dev.runCommand specFmStatus p) s

/-- POSITION_TELEGRAM_RX (R230). -/
def execPositionTelegramRx (port : Nat) (payload : List Byte) (s : State) : Host.Outcome State Fault Refusal :=
  live (fun d => d.opPositionTelegramRx port payload) s

/-- HELD_REPORT_RELEASE (R231). -/
def execHeldReportRelease (trn : Nat) (s : State) : Host.Outcome State Fault Refusal :=
  live (fun d => d.opHeldReportRelease trn) s

/-- REMOTE_REPORT_RX (R249). -/
def execRemoteReportRx (record : List Byte) (profile : Nat) (s : State) : Host.Outcome State Fault Refusal :=
  live (fun d => d.opRemoteReportRx record profile) s

/-- BAND_PUBLISH (R236). -/
def execBandPublish (s : State) : Host.Outcome State Fault Refusal :=
  live (fun d => d.opBandPublish) s

/-- TRAIN_STALE (R243). -/
def execTrainStale (trn : Nat) (s : State) : Host.Outcome State Fault Refusal :=
  live (fun d => d.opTrainStale trn) s

/-- TRAIN_LOST (R244). -/
def execTrainLost (trn : Nat) (s : State) : Host.Outcome State Fault Refusal :=
  live (fun d => d.opTrainLost trn) s

/-- FLOOR_HOLD_END (R244). -/
def execFloorHoldEnd (trn : Nat) (s : State) : Host.Outcome State Fault Refusal :=
  live (fun d => d.opFloorHoldEnd trn) s

/-- PRE_ENGAGE_HOLD_END (R246). -/
def execPreEngageHoldEnd (trn cell : Nat) (s : State) : Host.Outcome State Fault Refusal :=
  live (fun d => d.opPreEngageHoldEnd trn cell) s

end Sys2Proof.Machine
end

