-- ==== Sys2Proof/Machine/Lane.lean ====
section
/-!
DEFINITION. Derbex lanes: block lock and slips, control blocks received, generations and steps, loops, lull, frame sync and what a
tree PHY reports (R87 to R112).
-/

namespace Sys2Proof.Machine

/-- Key of a lane's counters. -/
def laneObj (t l : Nat) : Nat := laneKey t l

/-! ## Control blocks sent -/

/-- Body of a block from bytes 1 to 6. -/
def blkBody (b1 b2 b3 b4 b5 b6 : Nat) : Nat := leNat (([b1, b2, b3, b4, b5, b6]).map (BitVec.ofNat 8))

/-- Sends ABIL (Table 4-4): all four generations, the end kind, the profile version, far-end loop and both lulls. -/
def Dev.sendAbil (d : Dev) (t l req : Nat) (ack nack : Bool) : Dev :=
  let kind := match d.laneRole t l with | 0 => 0x00 | 2 => 0x03 | _ => 0x02
  (d.updLane t l (fun x => { x with abilAge := 0 })).sendBlock t l 0x2D
    (blkBody 0xF kind 1 7 (req + 16 * b2n ack + 32 * b2n nack) (d.lane t l).nonce.toNat)

/-- Sends LOOP with a code (R100). -/
def Dev.sendLoop (d : Dev) (t l code : Nat) : Dev := d.sendBlock t l 0x4B (blkBody code 0 0 0 0 0)

/-! ## Generations (R92 to R95) -/

/-- Whether the next generation may be requested: advertised by both ends, within max_gen, and not failed (R93, R94). -/
def Dev.mayStep (d : Dev) (t l : Nat) : Bool :=
  let x := d.lane t l
  x.gen < d.laneMaxGen t l && x.partnerGens.getLsbD x.gen && !x.failedGens.getLsbD x.gen

/-- Whether this end leads: the device on a tree lane, else the end with the higher nonce (R93). -/
def Dev.leads (d : Dev) (t l : Nat) : Bool := l < 8 || (d.lane t l).leader

/-- Channels of a tree that are on and that the settled lane cannot carry are disabled, with an F2 fault for the tree (R95). -/
def Dev.dropUncarried (d : Dev) (t l : Nat) : Dev :=
  let bad := (treeChans (8 * t + l)).filter (fun ch => (d.chan ch).st ≠ .disabled && !d.laneCarries ch)
  if bad.isEmpty then d
  else
    let d := bad.foldl (fun d ch =>
      let d := (d.chanQueues ch).foldl (fun d q => d.discardQueue q .drainDiscard ch) d
      (d.chanDisabled ch).complete .chanEnable ch stState) d
    d.raise 0x04 0x01 2 t (8 * t + l) (d.lane t l).gen false

/-- The lane has stepped as far as it can: UP (R94). -/
def Dev.laneSettle (d : Dev) (t l : Nat) : Dev :=
  let was := (d.lane t l).neg
  let d := d.updLane t l (fun x => { x with neg := .up, reqGen := none, stepTo := none, relockAt := none })
  let d := if (d.lane t l).loopWait = 3 then (d.updLane t l (fun x => { x with loopWait := 1 })).sendLoop t l 0x01 else d
  if l < 8 then d.dropUncarried t l else if was = .up then d else d.portUp (d.portOfLane t l)

/-- What follows an ABIL exchange at the generation held: the leader requests the next generation; with none to step to, the
lane is UP. -/
def Dev.laneNext (d : Dev) (t l : Nat) : Dev :=
  let x := d.lane t l
  if x.txLull then d
  else if !d.mayStep t l then d.laneSettle t l
  else if d.leads t l && x.reqGen.isNone then
    (d.updLane t l (fun x => { x with reqGen := some (x.gen + 1) })).sendAbil t l (x.gen + 1) false false
  else d

/-- The step is confirmed (R94). -/
def Dev.stepConfirm (d : Dev) (t l : Nat) : Dev :=
  (d.updLane t l (fun x => { x with stepTo := none, ackSeen := false, neg := .abil })).laneNext t l

/-- Whether a lane has switched rate and awaits confirmation. -/
def Lane.switched (x : Lane) : Bool := x.stepTo.isSome && x.reqGen.isNone

/-- A switched lane confirms once it holds lock, has seen 1,024 valid headers and an ABIL with ack (R94). -/
def Dev.tryConfirm (d : Dev) (t l : Nat) : Dev :=
  let x := d.lane t l
  if x.switched && x.locked && 1024 ≤ x.hdrRun && x.ackSeen then d.stepConfirm t l else d

/-! ## Block lock (R96 to R98) -/

/-- One slip: the boundary moves by one bit and the header count restarts (R96). DESIGN CHOICE (log 31): a slip under lock keeps lock, and
what follows is judged by the headers at the new boundary. -/
def Dev.slip (d : Dev) (t l : Nat) : Dev :=
  (d.updLane t l (fun x => { x with slipPos := (x.slipPos + 1) % 66, hdrRun := 0, hdrHist := 0, slipPend := false })).count .slips (laneObj t l)

/-- Block lock is declared (R96). A lane at D1 goes on with ABIL; one that relocks takes up where it was; one that has switched
sends the ABIL with ack that its partner needs (R93, R94, R98). -/
def Dev.lockGained (d : Dev) (t l : Nat) : Dev :=
  let x := d.lane t l
  let d := d.updLane t l (fun x => { x with locked := true, hdrRun := max 64 x.hdrRun, hdrHist := 0, relockAt := none, partnerLull := false, sd := true })
  if x.switched then d.sendAbil t l x.gen true false
  else
    let d := (d.updLane t l (fun x => { x with neg := .abil })).sendAbil t l 0 false false
    if 1 < x.gen then d.laneNext t l else d

/-- Block lock is lost (R96, R98): a step not yet switched is abandoned; above D1 the lane searches for 1 ms, one that has switched and not
confirmed included; at D1 it starts afresh. A loss that follows LULL is not counted (R101). -/
def Dev.lockLost (d : Dev) (t l : Nat) : Dev :=
  let x := d.lane t l
  let d := if x.partnerLull then d else d.count .lockLoss (laneObj t l)
  let d := d.updLane t l (fun x => { x with locked := false, hdrRun := 0, hdrHist := 0, msgBuf := none })
  let d := if l < 8 then d else d.portDown (d.portOfLane t l)
  if x.switched then d.updLane t l (fun x => { x with relockAt := if 1 < x.gen then some (d.now + rawMs 1) else none })
  else if 1 < x.gen then
    d.updLane t l (fun x => { x with neg := .locking, reqGen := none, stepTo := none, relockAt := some (d.now + rawMs 1) })
  else (d.laneRestart t l).updLane t l (fun y => { y with partnerLull := x.partnerLull })

/-- Number of bits set. -/
def popcount64 (v : BitVec 64) : Nat := ((List.range 64).filter (fun i => v.getLsbD i)).length

/-- The header of a received block in the count of R96; firmware slips at an invalid one before lock (R97). -/
def Dev.headerIn (d : Dev) (t l : Nat) (ok : Bool) : Dev :=
  let d := if ok then d else d.count .invalidHdr (laneObj t l)
  let d := d.updLane t l (fun x => { x with
    hdrRun := if ok then min 1024 (x.hdrRun + 1) else 0, hdrHist := (x.hdrHist <<< 1) ||| (if ok then 0 else 1) })
  let x := d.lane t l
  if x.slipPend then d.slip t l
  else if x.locked then (if 16 ≤ popcount64 x.hdrHist then d.lockLost t l else d.tryConfirm t l)
  else if 64 ≤ x.hdrRun then (d.lockGained t l).tryConfirm t l
  else if !ok && !d.laneManual t l then d.slip t l
  else d

/-! ## Control blocks received -/

/-- A received ABIL (R93, R94). DESIGN CHOICE (log 31): the end advertises all four generations and, as follower, supports those up to its
max_gen. -/
def Dev.abilIn (d : Dev) (t l : Nat) (p : BitVec 64) : Dev :=
  let gens := blkByte p 1 % 16
  let req := blkByte p 5 % 16
  let ack := bitN (blkByte p 5) 4
  let nack := bitN (blkByte p 5) 5
  let nonce := blkByte p 6
  let d := d.updLane t l (fun x => { x with partnerGens := BitVec.ofNat 4 gens, leader := decide (nonce < x.nonce.toNat) })
  let x := d.lane t l
  if 8 ≤ l && nonce = x.nonce.toNat then
    let (b, d) := d.freshBytes 1
    let d := d.updLane t l (fun x => { x with nonce := b.getD 0 0 })
    d.sendAbil t l 0 false false
  else if x.switched then
    if ack && x.stepTo = some req then (d.updLane t l (fun x => { x with ackSeen := true })).tryConfirm t l else d
  else if x.stepTo.isSome then d
  else if x.reqGen.isSome then
    if ack && x.reqGen = some req then d.updLane t l (fun x => { x with stepTo := some req, neg := .step })
    else if nack then d.laneSettle t l
    else d
  else if req ≠ 0 && !ack && !nack && !d.leads t l then
    if req = x.gen + 1 && req ≤ d.laneMaxGen t l then
      (d.updLane t l (fun x => { x with reqGen := some req, stepTo := some req, neg := .step })).sendAbil t l req true false
    else d.sendAbil t l req false true
  else if x.neg = .abil then d.laneNext t l
  else d

/-- A received LOOP (R100). The fill between control blocks runs through the transmit scrambler unseen, so its state when a far-end loop
begins is a free value; from there on it follows the blocks returned (log 31). -/
def Dev.loopIn (d : Dev) (t l : Nat) (p : BitVec 64) : Dev :=
  let x := d.lane t l
  match blkByte p 1 with
  | 0x01 =>
    if x.loopWait = 1 && d.leads t l then d.sendLoop t l 0x21
    else
      let d := if x.loopWait = 1 then d.updLane t l (fun x => { x with loopWait := 0 }) else d
      if d.laneAllowFar t l && !d.laneFn t l then
        let (s, d) := d.freshBytes 8
        (d.sendLoop t l 0x11).updLane t l (fun x => { x with farLoop := true, txScr := BitVec.ofNat 58 (leNat s) })
      else d.sendLoop t l 0x21
  | 0x02 => if x.farLoop then (d.updLane t l (fun x => { x with farLoop := false })).sendLoop t l 0x12 else d
  | 0x11 => if x.loopWait = 1 then d.updLane t l (fun x => { x with loopWait := 0x11 }) else d
  | 0x21 => if x.loopWait = 1 then d.updLane t l (fun x => { x with loopWait := 0 }) else d
  | 0x12 => if x.loopWait = 2 then d.updLane t l (fun x => { x with loopWait := 0 }) else d
  | _ => d

/-- A received LULL (R101). -/
def Dev.lullIn (d : Dev) (t l : Nat) : Dev := d.updLane t l (fun x => { x with partnerLull := true })

/-- A received FS (R105): with a failed check the frame number follows the last and bytes 3 and 4 stay. -/
def Dev.fsIn (d : Dev) (t l : Nat) (p : BitVec 64) (crcOk : Bool) : Dev :=
  let d := if crcOk then d else d.count .cbCrcErr (laneObj t l)
  if 8 ≤ l then d
  else
    let d := d.updLane t l (fun x => { x with
      frameSync := true, fsMiss := 0, fsGot := true,
      rxFrame := if crcOk then BitVec.ofNat 16 (blkByte p 1 + 256 * blkByte p 2) else x.rxFrame + 1,
      rxByte3 := if crcOk then BitVec.ofNat 8 (blkByte p 3) else x.rxByte3,
      rxByte4 := if crcOk then BitVec.ofNat 8 (blkByte p 4) else x.rxByte4 })
    d.updTree (8 * t + l) (fun x => { x with lfs := false })

/-- A received SD_REPORT (R109): signal detect and energy of a channel, and the dark-window summary. DESIGN CHOICE (log 31): its instant
is not used, so a report whose instant is invalid (R106) is taken like any other. -/
def Dev.sdIn (d : Dev) (t l : Nat) (p : BitVec 64) : Dev :=
  if 8 ≤ l then d
  else
    let k := blkByte p 5 % 4
    let on := bitN (blkByte p 5) 2
    let e := blkByte p 6
    if k = 3 then d.count .cbUnknown (laneObj t l)
    else
      let d := d.count .sdReports (laneObj t l)
      let d := d.updLane t l (fun x => { x with
        chSd := if on then x.chSd ||| (1#3 <<< k) else x.chSd &&& ~~~(1#3 <<< k), chEnergy := x.chEnergy.set k e })
      if bitN (blkByte p 5) 3 then d.darkReport (4 * (8 * t + l) + k) e else d

/-- Whether a tree's standing lease or group sees the other host in force at a dual-host PHY (R421, R427). -/
def Dev.otherHost (d : Dev) (tree : Nat) : Bool := let x := d.lane (tileOfTree tree) (tree % 8); x.phyDual && x.phyOther

/-- Whether a tree is UNPAIRED: it belongs to no group, or its group is (R419). -/
def Dev.unpaired (d : Dev) (tree : Nat) : Bool :=
  match mget d.groups tree with | none => true | some g => g.st = .unpaired

/-- A group yields to the other host in force (R427, R428, R430): a DUAL group in LEASE mode sends RELEASE; STANDBY in CLAIM mode
or while the unit is ready, else NOT_READY. -/
def Dev.yieldTo (d : Dev) (tree : Nat) : Dev :=
  match mget d.groups tree with
  | none => d
  | some g =>
    if !g.dual || !(g.st = .active || g.st = .partnerLost) then d
    else
      let d := d.leaseSend tree 1
      (d.updGroup tree (fun g => { g with st := .standby, handover := false, yielded := true, holdEnd := some (d.now + rawS d.protHoldS) })).count .yields tree

/-- A received PHY_STATUS (Table 4-8): what it reports, the LSF defect, and the other host in force. -/
def Dev.phyIn (d : Dev) (t l : Nat) (p : BitVec 64) : Dev :=
  if 8 ≤ l then d
  else
    let tree := 8 * t + l
    let was := d.otherHost tree
    let b1 := blkByte p 1
    let d := d.updLane t l (fun x => { x with
      phyLit := BitVec.ofNat 3 b1, phyFault := BitVec.ofNat 3 (b1 / 8), phyDual := bitN b1 6, phyOther := bitN b1 7,
      phyTemp := BitVec.ofNat 8 (blkByte p 2), phyNum := BitVec.ofNat 8 (blkByte p 3), phyLate := BitVec.ofNat 8 (blkByte p 4),
      phyCrc := BitVec.ofNat 8 (blkByte p 5) })
    let d := if b1 / 8 % 8 = 0 then d
      else ((d.updLane t l (fun x => { x with lsfClear := 0 })).updTree tree (fun x => { x with lsf := true })).treeDefect tree
    if !d.otherHost tree then
      d.updGroup tree (fun g => if g.claim && g.yielded then { g with st := if g.st = .standby then .active else g.st, yielded := false } else { g with yielded := false })
    else if d.unpaired tree then (if was then d else d.notify 0x8C81 tree [])
    else d.yieldTo tree

/-- Whether a block type is one of Table 4-2. -/
def blkKnown (typ : Nat) : Bool :=
  [0x00, 0x1E, 0x2D, 0x4B, 0x55, 0x66, 0x81, 0x82, 0x83, 0x84, 0x85].contains typ

/-- A control block received with block lock: the check of R90, then its type. -/
def Dev.ctrlIn (d : Dev) (t l : Nat) (p : BitVec 64) : Dev :=
  let typ := blkByte p 0
  let crcOk := blkByte p 7 = blkCrc p
  if typ = 0x1E then d.fsIn t l p crcOk
  else if !crcOk then d.count .cbCrcErr (laneObj t l)
  else if !blkKnown typ then d.count .cbUnknown (laneObj t l)
  else
    -- DESIGN CHOICE (log 31): partner_lull clears with the next valid block that is not LULL.
    let d := if typ = 0x55 then d else d.updLane t l (fun x => { x with partnerLull := false })
    if typ = 0x2D then d.abilIn t l p
    else if typ = 0x4B then d.loopIn t l p
    else if typ = 0x55 then d.lullIn t l
    else if typ = 0x83 then d.sdIn t l p
    else if typ = 0x85 then d.phyIn t l p
    else d

/-- Whether a lane's receiver takes blocks from the line: live, out of RX lull and in no near-end loop (R99, R101). -/
def Dev.rxOpen (d : Dev) (t l : Nat) : Bool :=
  d.laneLive t l && !(d.lane t l).rxLull && !(d.laneLoop t l = 1 || d.laneLoop t l = 2)

/-- A block has passed the receiver: with block lock an ABIL is due every 64 blocks (R93). Both directions carry blocks at one rate, so the
received ones count those sent. -/
def Dev.abilTick (d : Dev) (t l : Nat) : Dev :=
  let x := d.lane t l
  if !x.locked then d
  else if x.abilAge < 63 then d.updLane t l (fun x => { x with abilAge := x.abilAge + 1 })
  else if x.switched then d.sendAbil t l x.gen true false
  else match x.stepTo with
    | some g => d.sendAbil t l g (!d.leads t l) false
    | none => d.sendAbil t l (x.reqGen.getD 0) false false

/-- Message types of Table 16-2. -/
def sysTypes : List Nat :=
  [0x01, 0x02, 0x03, 0x04, 0x05, 0x06, 0x07, 0x08, 0x10, 0x11, 0x12, 0x13, 0x14, 0x15, 0x16, 0x17, 0x20, 0x21, 0x30]

/-- Length of a system message by its header: header, payload padded to a multiple of 8, trailer (Table 16-1). -/
def sysLength (bs : List Byte) : Nat := 24 + (natAt bs 6 2 + 7) / 8 * 8

/-- A whole system message has come in (R403): one whose CRC fails and one of a reserved type are discarded and counted; the others have
rows of their own. -/
def Dev.msgCheck (d : Dev) (port : Nat) (bs : List Byte) : Dev :=
  let n := sysLength bs - 8
  if natAt bs n 4 ≠ (crc32c (bytesAt bs 0 n)).toNat then d.count .msgCrcErr port
  else if !sysTypes.contains (natAt bs 0 1) then d.count .msgUnknown port
  else d

/-- A block of a system lane (R403): a message begins in the first data block after any control block and fills consecutive data
blocks; one cut short by a control block is discarded and counted. -/
def Dev.msgBlock (d : Dev) (t l : Nat) (ctrl : Bool) (p : BitVec 64) : Dev :=
  let q := d.portOfLane t l
  if l < 8 || !d.portUsable q then d
  else
    let x := d.lane t l
    let set (b : Option (List Byte)) : Dev := d.updLane t l (fun x => { x with msgBuf := b })
    if ctrl then (if (x.msgBuf.getD []).isEmpty then set (some []) else (set (some [])).count .msgCrcErr q)
    else match x.msgBuf with
      | none => d
      | some b =>
        let bs := b ++ leBytes 8 p.toNat
        if bs.length < 16 || bs.length < sysLength bs then set (some bs) else (set none).msgCheck q bs

/-- A lane in a near-end loop receives what it sent itself (R99): the oldest control block under way, else the fill. -/
def Dev.nearIn (d : Dev) (t l : Nat) : Dev :=
  let x := d.lane t l
  let p := x.loopQ.head?.getD (ctrlBlock 0 0)
  let d := d.updLane t l (fun x => { x with loopQ := x.loopQ.drop 1, sd := true })
  let d := if x.locked then d.ctrlIn t l p else d
  (d.headerIn t l true).abilTick t l

/-- BLOCK_RECEIVED (R87): the payload is descrambled whatever the header (R89); an invalid header is counted and its payload not
used; while the clocks behind the lane are stopped the crossing holds the event (R82); a far-end loop returns the block scrambled again
(R100); with block lock a control block takes its effect. In a near-end loop the receiver takes the lane's own block (R99). -/
def Dev.opBlockReceived (d : Dev) (t l : Nat) (header : BitVec 2) (payload : BitVec 64) : Dev :=
  if d.laneLive t l && !(d.lane t l).rxLull && (d.laneLoop t l = 1 || d.laneLoop t l = 2) then d.nearIn t l
  else if !d.rxOpen t l then (if d.pwr.pfw && d.laneBonded t l then d.crossHold t (if l < 8 then 1 else 3) l else d)
  else
    let d := if l < 8 && (treeChans (8 * t + l)).all (fun ch => !d.framerOn ch) then d.crossHold t 1 l else d
    let (p, s) := descramble (d.lane t l).rxScr payload
    let d := d.updLane t l (fun x => { x with rxScr := s, sd := true })
    let ok := header = 1#2 || header = 2#2
    let was := d.lane t l
    let d := if was.farLoop && ok then
        let (q, s) := scramble was.txScr p
        (d.updLane t l (fun x => { x with txScr := s })).emit (.looped t l header q)
      else d
    let d := if ok && was.locked && header = 2#2 then (d.msgBlock t l true p).ctrlIn t l p
      else if ok && was.locked then (d.updLane t l (fun x => { x with partnerLull := false })).msgBlock t l false p
      else d
    (d.headerIn t l ok).abilTick t l

/-- BLOCK_LOCK_ACQUIRED (R96): 64 consecutive valid headers are seen; with a slip pending lock is not declared. -/
def Dev.opBlockLockAcquired (d : Dev) (t l : Nat) : Dev :=
  if !d.rxOpen t l || (d.lane t l).locked then d
  else if (d.lane t l).slipPend then d.slip t l
  else d.lockGained t l

/-- BLOCK_LOCK_LOST (R96): 16 of the last 64 headers are invalid. -/
def Dev.opBlockLockLost (d : Dev) (t l : Nat) : Dev :=
  if !d.laneLive t l || !(d.lane t l).locked then d else d.lockLost t l

/-- RELOCK_TIMEOUT (R98): the search at a higher generation has failed for 1 ms; the lane restarts at D1. -/
def Dev.opRelockTimeout (d : Dev) (t l : Nat) : Dev :=
  match (d.lane t l).relockAt with
  | none => d
  | some r => if d.laneLive t l then (d.advanceTo r).laneRestart t l else d

/-- A control block of a type taken by itself: the payload before scrambling, with its type byte. -/
def Dev.typedIn (d : Dev) (typ t l : Nat) (p : BitVec 64) : Dev :=
  if d.rxOpen t l && (d.lane t l).locked && blkByte p 0 = typ then (d.msgBlock t l true p).ctrlIn t l p else d

/-- ABIL (R93). -/
def Dev.opAbil (d : Dev) (t l : Nat) (p : BitVec 64) : Dev := d.typedIn 0x2D t l p

/-- GEN_STEP_SWITCH (R93, R94): both ends have sent their 256 IDLE blocks after an ack; the lane switches and has 2 ms to confirm. -/
def Dev.opGenStepSwitch (d : Dev) (t l : Nat) : Dev :=
  let x := d.lane t l
  match x.stepTo with
  | none => d
  | some g =>
    if !d.laneLive t l || x.reqGen.isNone then d
    else
      let d := d.emit (.idles t l 256)
      d.updLane t l (fun x => { x with
        stepFrom := x.gen, gen := g, reqGen := none, locked := false, hdrRun := 0, hdrHist := 0, ackSeen := false, neg := .step,
        stepEnd := d.now + rawMs 2 })

/-- GEN_STEP_CONFIRM (R94): the switched lane holds lock, has seen 1,024 valid headers and an ABIL with ack, in time. -/
def Dev.opGenStepConfirm (d : Dev) (t l : Nat) : Dev :=
  let x := d.lane t l
  if !d.laneLive t l || !x.switched || reached d.now x.stepEnd then d
  else (d.updLane t l (fun x => { x with locked := true, hdrRun := 1024, ackSeen := true })).stepConfirm t l

/-- GEN_STEP_TIMEOUT (R94): not confirmed within 2 ms of switching: the lane returns to the previous generation, and stepping
stops there. Above D1 it has 1 ms to find lock again (R98). -/
def Dev.opGenStepTimeout (d : Dev) (t l : Nat) : Dev :=
  let x := d.lane t l
  if !d.laneLive t l || !x.switched then d
  else
    let d := (d.advanceTo x.stepEnd).count .stepFail (laneObj t l)
    d.updLane t l (fun x => { x with
      failedGens := x.failedGens ||| (1#4 <<< (x.gen - 1)), gen := x.stepFrom, stepTo := none, ackSeen := false, locked := false,
      hdrRun := 0, hdrHist := 0, neg := .locking, relockAt := if 1 < x.stepFrom then some (d.now + rawMs 1) else none })

/-- LOOP (R100). -/
def Dev.opLoop (d : Dev) (t l : Nat) (p : BitVec 64) : Dev := d.typedIn 0x4B t l p

/-- LULL (R101). -/
def Dev.opLull (d : Dev) (t l : Nat) (p : BitVec 64) : Dev := d.typedIn 0x55 t l p

/-- The transmitter of a lane goes into lull (R54, R101): 8 LULL blocks, then it stops; a lane that is wanted meanwhile sends all 8 and stays
awake. -/
def Dev.txDown (d : Dev) (t l : Nat) : Dev :=
  if !d.laneLive t l || (d.lane t l).txLull then d
  else
    let d := (List.range 8).foldl (fun d _ => d.sendBlock t l 0x55 0) d
    if d.laneUsed t l then d
    else d.updLane t l (fun x => { x with txLull := true, neg := .down, reqGen := none, stepTo := none, farLoop := false, loopQ := [] })

/-- The receiver of a lane goes into lull: it keeps a signal detector, and lock is given up, which is no loss to count. -/
def Dev.rxDown (d : Dev) (t l : Nat) : Dev :=
  if !d.laneLive t l || (d.lane t l).rxLull || d.laneUsed t l then d
  else d.updLane t l (fun x => { x with
    rxLull := true, locked := false, neg := .down, gen := 0, reqGen := none, stepTo := none, relockAt := none, frameSync := false, sd := false })

/-- LULL_ENTER (R54, R101): one direction of a lane goes into lull. -/
def Dev.opLullEnter (d : Dev) (t l : Nat) (rx : Bool) : Dev := if rx then d.rxDown t l else d.txDown t l

/-- The receiver of a lane wakes at energy (R92, R98, R101): it tries its last block boundary first, at D1. A lane that is used wakes whole. -/
def Dev.rxWake (d : Dev) (t l : Nat) : Dev :=
  if !(d.lane t l).rxLull then d
  else
    let d := if d.laneUsed t l then d.laneWake t l
      else d.updLane t l (fun x => { x with rxLull := false, gen := 1, neg := .locking, hdrRun := 0, hdrHist := 0, failedGens := 0 })
    d.updLane t l (fun x => { x with sd := true })

/-- The transmitter of a lane wakes at a request. With lock held it negotiates again from the generation it has; a lane that is used wakes
whole. -/
def Dev.txWake (d : Dev) (t l : Nat) : Dev :=
  let x := d.lane t l
  if !x.txLull then d
  else if d.laneUsed t l then d.laneWake t l
  else
    let d := d.updLane t l (fun x => { x with txLull := false, neg := if x.locked then .abil else if x.rxLull then .down else .locking })
    if x.locked then d.sendAbil t l 0 false false else d

/-- LULL_WAKE (R101): a lane direction wakes, the receiver on energy, the transmitter on request. -/
def Dev.opLullWake (d : Dev) (t l : Nat) (rx : Bool) : Dev :=
  if !d.laneLive t l then d else if rx then d.rxWake t l else d.txWake t l

/-- FS (R105). -/
def Dev.opFs (d : Dev) (t l : Nat) (p : BitVec 64) : Dev := d.typedIn 0x1E t l p

/-- FRAME_SYNC_LOSS (R105): two consecutive frames without a recognised FS, of which those not yet counted at a boundary count; the LFS
defect of the tree (Table 6-6). -/
def Dev.opFrameSyncLoss (d : Dev) (t l : Nat) : Dev :=
  if 8 ≤ l || !d.laneLive t l || !(d.lane t l).frameSync then d
  else
    let lulled := (d.lane t l).partnerLull
    let d := d.count .fsMiss (laneObj t l) (2 - min 2 (d.lane t l).fsMiss)
    let d := d.updLane t l (fun x => { x with frameSync := false, fsMiss := 2 })
    if lulled then d else (d.updTree (8 * t + l) (fun x => { x with lfs := true })).treeDefect (8 * t + l)

/-- SD_REPORT (R109). -/
def Dev.opSdReport (d : Dev) (t l : Nat) (p : BitVec 64) : Dev := d.typedIn 0x83 t l p

/-- PHY_STATUS (R108). -/
def Dev.opPhyStatus (d : Dev) (t l : Nat) (p : BitVec 64) : Dev := d.typedIn 0x85 t l p

/-- LANE_SLIP_WRITE (R96, R97): under manual lock the slip takes place at the next block boundary; otherwise it is ignored. -/
def Dev.opLaneSlipWrite (d : Dev) (t l : Nat) : Dev :=
  if !d.laneLive t l || !d.laneManual t l then d else d.updLane t l (fun x => { x with slipPend := true })

/-- LANE_RETRAIN (R92): the lane restarts at D1 and failed_gens clears; a lane in lull that nothing uses stays in lull. -/
def Dev.opLaneRetrain (d : Dev) (t l : Nat) : Dev :=
  if !d.laneLive t l then d
  else
    let d := d.updLane t l (fun x => { x with failedGens := 0 })
    if d.laneUsed t l || !(d.lane t l).txLull then d.laneRestart t l else d

/-! ## Meanings -/

/-- LANE_SLIP_WRITE (R96). -/
def execLaneSlipWrite (tile lane : Nat) (s : State) : Host.Outcome State Fault Refusal :=
  live (fun d => d.opLaneSlipWrite tile lane) s

/-- LANE_RETRAIN (R92). -/
def execLaneRetrain (tile lane : Nat) (s : State) : Host.Outcome State Fault Refusal :=
  live (fun d => d.opLaneRetrain tile lane) s

/-- BLOCK_RECEIVED (R87). -/
def execBlockReceived (tile lane : Nat) (header : BitVec 2) (payload : BitVec 64) (s : State) : Host.Outcome State Fault Refusal :=
  live (fun d => d.opBlockReceived tile lane header payload) s

/-- BLOCK_LOCK_ACQUIRED (R96). -/
def execBlockLockAcquired (tile lane : Nat) (s : State) : Host.Outcome State Fault Refusal :=
  live (fun d => d.opBlockLockAcquired tile lane) s

/-- BLOCK_LOCK_LOST (R96). -/
def execBlockLockLost (tile lane : Nat) (s : State) : Host.Outcome State Fault Refusal :=
  live (fun d => d.opBlockLockLost tile lane) s

/-- RELOCK_TIMEOUT (R98). -/
def execRelockTimeout (tile lane : Nat) (s : State) : Host.Outcome State Fault Refusal :=
  live (fun d => d.opRelockTimeout tile lane) s

/-- ABIL (R93). -/
def execAbil (tile lane : Nat) (payload : BitVec 64) (s : State) : Host.Outcome State Fault Refusal :=
  live (fun d => d.opAbil tile lane payload) s

/-- GEN_STEP_SWITCH (R93). -/
def execGenStepSwitch (tile lane : Nat) (s : State) : Host.Outcome State Fault Refusal :=
  live (fun d => d.opGenStepSwitch tile lane) s

/-- GEN_STEP_CONFIRM (R94). -/
def execGenStepConfirm (tile lane : Nat) (s : State) : Host.Outcome State Fault Refusal :=
  live (fun d => d.opGenStepConfirm tile lane) s

/-- GEN_STEP_TIMEOUT (R94). -/
def execGenStepTimeout (tile lane : Nat) (s : State) : Host.Outcome State Fault Refusal :=
  live (fun d => d.opGenStepTimeout tile lane) s

/-- LOOP (R100). -/
def execLoop (tile lane : Nat) (payload : BitVec 64) (s : State) : Host.Outcome State Fault Refusal :=
  live (fun d => d.opLoop tile lane payload) s

/-- LULL (R101). -/
def execLull (tile lane : Nat) (payload : BitVec 64) (s : State) : Host.Outcome State Fault Refusal :=
  live (fun d => d.opLull tile lane payload) s

/-- LULL_ENTER (R101). -/
def execLullEnter (tile : Nat) (side : LaneSide) (s : State) : Host.Outcome State Fault Refusal :=
  live (fun d => d.opLullEnter tile side.lane side.rx) s

/-- LULL_WAKE (R101). -/
def execLullWake (tile : Nat) (side : LaneSide) (s : State) : Host.Outcome State Fault Refusal :=
  live (fun d => d.opLullWake tile side.lane side.rx) s

/-- FS (R105). -/
def execFs (tile lane : Nat) (payload : BitVec 64) (s : State) : Host.Outcome State Fault Refusal :=
  live (fun d => d.opFs tile lane payload) s

/-- FRAME_SYNC_LOSS (R105). -/
def execFrameSyncLoss (tile lane : Nat) (s : State) : Host.Outcome State Fault Refusal :=
  live (fun d => d.opFrameSyncLoss tile lane) s

/-- SD_REPORT (R109). -/
def execSdReport (tile lane : Nat) (payload : BitVec 64) (s : State) : Host.Outcome State Fault Refusal :=
  live (fun d => d.opSdReport tile lane payload) s

/-- PHY_STATUS (R108). -/
def execPhyStatus (tile lane : Nat) (payload : BitVec 64) (s : State) : Host.Outcome State Fault Refusal :=
  live (fun d => d.opPhyStatus tile lane payload) s

end Sys2Proof.Machine
end

