-- ==== Sys2Proof/Machine/Transmit.lean ====
section
/-!
DEFINITION. Frames into and out of queues: the hierarchy's choice, shapers and gates, launch times, and what the uplink
transmitters and the downstream framers do with the frame they take (R294 to R310).
-/

namespace Sys2Proof.Machine

/-! ## The hierarchy's choice (R295) -/

/-- A child of a node that has a frame to send: its key, whether it is strict, class, weight, deficit, the length of that frame,
and its eligibility by the committed and the peak bucket. -/
structure Child where
  key : Nat
  strict : Bool := false
  cls : Nat := 0
  weight : Nat := 16
  deficit : Int := 0
  len : Nat := 0
  c : Bool := true
  p : Bool := true
  deriving DecidableEq, Repr

/-- Eligibility of a key by its shaper: without one a child is committed-eligible. -/
def Dev.eligible (d : Dev) (k : Nat) : Bool × Bool := match d.shaperNow k with | some s => (s.cOk, s.pOk) | none => (true, true)

/-- Deficit round robin from the child in front; `fresh` says whether its quantum of weight × 256 bytes is still due. -/
def drrGo : Nat → List Child → Bool → Option (Child × List Child)
  | 0, _, _ => none
  | _, [], _ => none
  | n + 1, x :: xs, fresh =>
    let x := if fresh then { x with deficit := x.deficit + x.weight * 256 } else x
    if (x.len : Int) ≤ x.deficit then some ({ x with deficit := x.deficit - x.len }, xs) else drrGo n (xs ++ [x]) true

/-- Deficit round robin after the child served last. -/
def drr (cs : List Child) (last : Nat) : Option (Child × List Child) :=
  let a := cs.filter (fun x => x.key < last)
  let b := cs.filter (fun x => last ≤ x.key)
  drrGo (70 * (cs.length + 1)) (b ++ a) (match b with | x :: _ => x.key ≠ last | [] => true)

/-- Sets the deficit of a child, a queue or a node. -/
def Dev.setDeficit (d : Dev) (x : Child) : Dev :=
  { d with queues := mmod d.queues x.key (fun q => { q with deficit := x.deficit }), nodes := mmod d.nodes x.key (fun n => { n with deficit := x.deficit }) }

/-- A node chooses among its children (R295): strict, committed, peak. -/
def Dev.choose (d : Dev) (node : Nat) (cs : List Child) : Option (Nat × Dev) :=
  match (sortBy (fun x => x.cls) (cs.filter (fun x => x.strict && (x.c || x.p)))).head? with
  | some x => some (x.key, d)
  | none =>
    let n := (mget d.nodes node).getD {}
    let run (cs : List Child) (last : Nat) (c : Bool) : Option (Nat × Dev) :=
      (drr cs last).map (fun (x, xs) =>
        let d := (x :: xs).foldl Dev.setDeficit d
        (x.key, { d with nodes := mmod d.nodes node (fun n => if c then { n with rrC := x.key } else { n with rrP := x.key }) }))
    match run (cs.filter (fun x => !x.strict && x.c)) n.rrC true with
    | some r => some r
    | none => run (cs.filter (fun x => !x.strict && x.p)) n.rrP false

/-- Whether the head frame of a gated queue can be sent in full before its gate closes (R308). -/
def Dev.gateFits (d : Dev) (q : Queue) (len : Nat) : Bool :=
  if !q.gated || q.group ≠ 0 || 8 ≤ q.cls then true
  else match d.gateLeft q.subport q.cls with
    | none => true
    | some left => lineU (len + d.msecGrow q.subport q.group + 20) (modeGbps (d.sub q.subport).mode) ≤ left

/-- Children of a lowest node: its queues with data, launch queues apart. -/
def Dev.queueChildren (d : Dev) (f : Queue → Bool) : List Child :=
  d.queues.filterMap (fun (k, q) =>
    if f q && q.launch = 0 && d.queueLive q then
      match q.frames with
      | [] => none
      | x :: _ =>
        let (c, p) := d.eligible k
        if d.gateFits q x.len then some { key := k, strict := q.strict, cls := q.cls, weight := q.weight, deficit := q.deficit, len := x.len, c := c, p := p }
        else none
    else none)

/-- Length of the head frame of a queue. -/
def Dev.headLen (d : Dev) (k : Nat) : Nat :=
  match mget d.queues k with | some q => (match q.frames with | x :: _ => x.len | [] => 0) | none => 0

/-- One level up: each node of `keys` offers what `pick` gives for it; the parent chooses one. -/
def Dev.pickUp (d : Dev) (node : Nat) (keys : List Nat) (pick : Nat → Option (Nat × Dev)) : Option (Nat × Dev) :=
  let offers := keys.filterMap (fun k => (pick k).map (fun r => (k, r)))
  let cs : List Child := offers.map (fun (k, (q, _)) =>
    let n := (mget d.nodes k).getD {}
    let (c, p) := d.eligible k
    { key := k, weight := n.weight, deficit := n.deficit, len := d.headLen q, c := c, p := p })
  match d.choose node cs with
  | none => none
  | some (k, d1) =>
    match (offers.find? (fun e => e.1 = k)) with
    | some (_, (q, d2)) => some (q, { d2 with nodes := d2.nodes.map (fun (j, n) =>
        (j, if j = node || keys.contains j then
              let m := (mget d1.nodes j).getD n
              { n with deficit := if j = node then n.deficit else m.deficit, rrC := if j = node then m.rrC else n.rrC, rrP := if j = node then m.rrP else n.rrP }
            else n)) })
    | none => none

/-- Whether the shaper of the node at the top of a hierarchy lets it send (R296, R297). -/
def Dev.rootOpen (d : Dev) (k : Nat) : Bool := (d.eligible k).1 || (d.eligible k).2

/-- The queue a channel serves next: channel, domain, terminal within domain, class queue. -/
def Dev.pickDown (d : Dev) (ch : Nat) : Option (Nat × Dev) :=
  let mine := d.queues.filter (fun e => e.2.down && d.chanOfTerm e.2.tid = ch)
  let doms := (mine.map (fun e => domNode ch e.2.sdom)).eraseDups
  let terms (dn : Nat) : List Nat := ((mine.filter (fun e => domNode ch e.2.sdom = dn)).map (fun e => termNode e.2.tid e.2.sdom)).eraseDups
  let low (tn : Nat) : Option (Nat × Dev) := d.choose tn (d.queueChildren (fun q => q.down && termNode q.tid q.sdom = tn))
  if d.rootOpen (chanNode ch) then d.pickUp (chanNode ch) doms (fun dn => d.pickUp dn (terms dn) low) else none

/-- The queue a sub-port serves next: sub-port, group, queue. -/
def Dev.pickSub (d : Dev) (p : Nat) : Option (Nat × Dev) :=
  let mine := d.queues.filter (fun e => !e.2.down && e.2.subport = p)
  let groups := (mine.map (fun e => groupNode p e.2.group)).eraseDups
  if d.rootOpen (portNode p) then d.pickUp (portNode p) groups (fun g => d.choose g (d.queueChildren (fun q => !q.down && groupNode q.subport q.group = g)))
  else none

/-! ## Taking a frame -/

/-- Removes the head frame of a queue and deducts it from the shapers on its path (R297). -/
def Dev.popHead (d : Dev) (k : Nat) : Option (QFrame × Dev) :=
  match mget d.queues k with
  | none => none
  | some q =>
    match q.frames with
    | [] => none
    | x :: xs =>
      let d : Dev := { d with queues := mput d.queues k { q with frames := xs, deficit := if xs.isEmpty then 0 else q.deficit } }
      some (x, d.deduct (k :: d.queuePath q) x.len)

/-- Counts a frame sent. -/
def Dev.sent (d : Dev) (k len : Nat) : Dev := (d.count .deqFrames k).count .deqBytes k len

/-- A frame of a length on the line of a sub-port: the transmitter is busy for its line time (R308). -/
def Dev.onLine (d : Dev) (p len : Nat) : Dev :=
  (d.updSub p (fun s => { s with busyUntil := d.now + BitVec.ofNat 64 (lineU (len + 20) (modeGbps s.mode)) })).winAdd 0 p 1 len 1

/-- The uplink transmitter sends the head frame of a queue (R313). -/
def Dev.sendUp (d : Dev) (k : Nat) : Dev :=
  match mget d.queues k, d.popHead k with
  | some q, some (x, d) =>
    let p := q.subport
    let (fate, d) := d.txSecure p q.group x.len (etherOf x.bytes)
    let d := d.release (tileOfSub p) x.ptr 1
    match fate with
    | .drop => d
    | .clear => ((d.onLine p x.len).sent k x.len).emit (.frame p none 0 x.bytes)
    | .sa n pn => ((d.onLine p (x.len + d.msecGrow p q.group)).sent k x.len).emit (.frame p (some n) pn x.bytes)
  | _, _ => d

/-- Largest SDU of a channel kind (R145). -/
def maxSdu (ch : Nat) : Nat := if ch % 4 = 0 then 2000 else 16000

/-- Header bytes of a GEM or XGEM frame. -/
def gemHdr (ch : Nat) : Nat := if ch % 4 = 0 then 5 else 8

/-- Key slot that frames of a port are encrypted with (R140): a terminal's unicast ports take the slot in use, none while it has none; a
multicast or broadcast port, which no terminal owns, is never encrypted. -/
def Dev.gemKey (d : Dev) (tid : Nat) : Option Nat := if (d.ponKey tid).loaded then (d.ponKey tid).use else none

/-- Puts `left` bytes of a queue's frame, of which `sent` went before, into the downstream frame being built: all of them where they fit, else
a fragment, and the rest goes in the next frame (R145). -/
def Dev.gemOut (d : Dev) (ch k tid key sent left : Nat) : Dev :=
  let room := (d.chan ch).dsRoom
  let h := gemHdr ch
  let n := if left + h ≤ room then left else min (Config.dsFragment (ch % 4) left room) (min left (room - h))
  let d := d.updChan ch (fun c => { c with
    dsRoom := room - (n + h)
    dsRest := if n < left then some (k, tid, sent + n, left - n) else none })
  if n = 0 && 0 < left then d
  else ((d.winAdd 1 ch 1 (n + h) (b2n (sent = 0))).winAdd 2 tid 1 (n + h) (b2n (sent = 0))).emit (.gem ch d.frame tid (some key) k sent n (n = left))

/-- The rest of a frame broken off at the frame boundary; without a key in use it is dropped. -/
def Dev.gemRest (d : Dev) (ch : Nat) : Dev :=
  match (d.chan ch).dsRest with
  | none => d
  | some (k, tid, sent, left) =>
    match d.gemKey tid with
    | some key => d.gemOut ch k tid key sent left
    | none => (d.updChan ch (fun c => { c with dsRest := none })).count .ponNoKey (termObj tid)

/-- The framer ends the downstream frame before: idle frames fill its unused payload (R145). -/
def Dev.dsEnd (d : Dev) (ch f : Nat) : Dev :=
  let room := (d.chan ch).dsRoom
  if room = 0 then d else (d.updChan ch (fun c => { c with dsRoom := 0 })).emit (.dsIdle ch f room)

/-- The downstream framer takes the head frame of a queue: oversize frames and frames without a key in use are dropped (R145,
R333). -/
def Dev.sendDown (d : Dev) (ch k : Nat) : Dev :=
  match mget d.queues k, d.popHead k with
  | some q, some (x, d) =>
    let d := (d.release (tileOfChan ch) x.ptr 0).updTerm q.tid (fun t => { t with lastDsFrame := d.frame })
    if maxSdu ch < x.len then d.count .oversizeDrop ch
    else match d.gemKey q.tid with
      | none => d.count .ponNoKey (termObj q.tid)
      | some key => (d.sent k x.len).gemOut ch k q.tid key 0 x.len
  | _, _ => d

/-! ## Launch queues (R303 to R306) -/

/-- Whether the shapers of a queue and of the nodes above it let it send. -/
def Dev.pathOpen (d : Dev) (k : Nat) (q : Queue) : Bool :=
  (k :: d.queuePath q).all (fun j => let (c, p) := d.eligible j; c || p)

/-- Whether the head frame of a launch queue is due and may start now. -/
def Dev.launchDue (d : Dev) (k : Nat) (q : Queue) : Bool :=
  match q.frames with
  | [] => false
  | x :: _ => q.launch ≠ 0 && d.queueLive q && (match x.launch with | some t => reached d.now t | none => true)
      && d.pathOpen k q && d.gateFits q x.len

/-- Starts the head frame of a launch queue that is due, dropping the frames that are too late first; answers whether a frame
was sent. -/
def Dev.launchServe : Nat → Nat → Dev → Bool × Dev
  | 0, _, d => (false, d)
  | n + 1, k, d =>
    match mget d.queues k with
    | none => (false, d)
    | some q =>
      if !d.launchDue k q then (false, d)
      else match q.frames with
        | [] => (false, d)
        | x :: xs =>
          let late := match x.launch with | some t => decide ((q.lateTol : Int) < d.lateness t) | none => false
          if late then
            let d : Dev := { d with queues := mput d.queues k { q with frames := xs } }
            Dev.launchServe n k ((d.release (tileOfSub q.subport) x.ptr 6).count .lateDrop k)
          else (true, d.sendUp k)

/-- Launch queues of a sub-port that are due, earliest launch time first, then ascending handle (R306). -/
def Dev.launchOrder (d : Dev) (p : Nat) : List Nat :=
  let due := d.queues.filter (fun e => !e.2.down && e.2.subport = p && d.launchDue e.1 e.2)
  (sortBy (fun (e : Nat × Queue) => match e.2.frames with
    | x :: _ => (match x.launch with | some t => ((t - d.now).toInt + 2 ^ 63).toNat | none => 0)
    | [] => 0) due).map (fun e => e.1)

/-- Tries the launch queues that are due, in order. -/
def Dev.launchTry : List Nat → Dev → Bool × Dev
  | [], d => (false, d)
  | k :: ks, d =>
    match Dev.launchServe ((mget d.queues k).elim 0 (fun q => q.frames.length + 1)) k d with
    | (true, d) => (true, d)
    | (false, d) => Dev.launchTry ks d

/-- Whether an uplink transmitter may send: tile in RUN, sub-port enabled or draining (R400) and up, no quench, no local fault (R447, R77). -/
def Dev.txOpen (d : Dev) (p : Nat) : Bool :=
  d.tileRun (tileOfSub p) && ((d.sub p).enabled || (d.sub p).drainEnd.isSome) && (d.sub p).up && !d.flt.quench && !(d.tile (tileOfSub p)).uplinkFault

/-- Whether the downstream frame being built has room for more of the queues' frames (R145). -/
def Dev.dsOpen (d : Dev) (ch : Nat) : Bool :=
  d.tileRun (tileOfChan ch) && (d.chan ch).st ≠ .disabled && (d.chan ch).carryFrom.isSome && (d.chan ch).dsRest.isNone && gemHdr ch < (d.chan ch).dsRoom

/-- FRAME_DEQUEUE (R295, R306): the transmitter of a sub-port, once idle, or the framer of a channel takes the next frame. -/
def Dev.opFrameDequeue (d : Dev) (sub : Bool) (node : Nat) : Dev :=
  if sub then
    if !d.txOpen node then d
    else
      let d := d.advanceTo (d.sub node).busyUntil
      match Dev.launchTry (d.launchOrder node) d with
      | (true, d) => d
      | (false, d) => (match d.pickSub node with | some (k, d) => d.sendUp k | none => d)
  else if d.dsOpen node then
    (match d.pickDown node with | some (k, d) => d.sendDown node k | none => d)
  else d

/-- LAUNCH_TIME_REACHED (R304, R305): the head frame starts when the sub-port is idle, or is dropped as late. -/
def Dev.opLaunchTimeReached (d : Dev) (queue : Nat) : Dev :=
  match mget d.queues queue with
  | none => d
  | some q =>
    match q.frames with
    | [] => d
    | x :: _ =>
      if q.launch = 0 || !d.txOpen q.subport then d
      else
        let d := match x.launch with | some t => d.advanceTo t | none => d
        if reached d.now (d.sub q.subport).busyUntil then (Dev.launchServe (q.frames.length + 1) queue d).2 else d

/-! ## Gates and admission -/

/-- GATE_BOUNDARY (R307): the next entry boundary of a schedule; a schedule that waits takes its place at its boundary. A frame
at the head of a gated queue whose gate closes waits and is counted. -/
def Dev.opGateBoundary (d : Dev) (sub : Nat) : Dev :=
  match mget d.gates sub with
  | none => d
  | some g =>
    let gated := d.queues.filter (fun e => !e.2.down && e.2.subport = sub && e.2.gated && e.2.group = 0 && !e.2.frames.isEmpty)
    let was := gated.filter (fun e => d.gateLeft sub e.2.cls ≠ some 0)
    let d := d.advanceTo (g.nextAt d.now)
    let due := d.gateNext.filter (fun e => e.1 = sub && reached d.now e.2.2)
    let d := due.foldl (fun (d : Dev) e => d.putGate sub e.2.1) { d with gateNext := d.gateNext.filter (fun e => !(e.1 = sub && reached d.now e.2.2)) }
    was.foldl (fun d e => if d.gateLeft sub e.2.cls = some 0 then d.count .gateWaits e.1 else d) d

/-- MACsec expansion that a queue's frames get. -/
def Dev.growOf (d : Dev) (k : Nat) : Nat :=
  match mget d.queues k with | some q => if q.down then 0 else d.msecGrow q.subport q.group | none => 0

/-- FRAME_ENQUEUE (R294). -/
def Dev.opFrameEnqueue (d : Dev) (q : EnqueueReq) : Dev := (d.enqueue q none (d.growOf q.queue)).2

/-- The frames of CMD_QUEUE_INJECT: for each, launch seconds, launch ns, length, and the bytes padded to 4 (log 15). -/
def injectFrames (ps : List Byte) : Nat → Nat → Option (List (Nat × Nat × List Byte))
  | 0, ofs => if ofs = ps.length then some [] else none
  | n + 1, ofs =>
    let len := natAt ps (ofs + 12) 4
    if ps.length < ofs + 16 + len || 16384 < len then none
    else (injectFrames ps n (ofs + 16 + pad4 len)).map ((natAt ps ofs 8, natAt ps (ofs + 8) 4, bytesAt ps (ofs + 16) len) :: ·)

/-- Enqueues frames one after another: the frames admitted, and whether one was refused. A late frame and one that no gate window can
hold are dropped and counted (R304, R308); the next frame follows. -/
def Dev.inject (k : Nat) (m2 : Bool) : List (Nat × Nat × List Byte) → Nat → Dev → Nat × Bool × Dev
  | [], n, d => (n, false, d)
  | (s, ns, f) :: fs, n, d =>
    let t : Int := (s : Int) * 1000000000 + ns
    let late := m2 && (match mget d.queues k with | some q => decide ((q.lateTol : Int) < d.netNs - t) | none => false)
    let gone := match mget d.queues k with | some q => d.gateNever q (f.length + d.growOf k) | none => false
    let (ok, d) := d.enqueue { port := 6, src := d.tileOfQueue k, queue := k, frame := f, last := if k < upBase then 0 else 1 } (if m2 then some t else none) (d.growOf k)
    if ok || late || gone then Dev.inject k m2 fs (n + (if ok then 1 else 0)) d else (n, true, d)

/-- Number of frames, then the frames (log 15). -/
def bodyQueueInject (c : Cmd) (d : Dev) : Res :=
  d.withQueue c.tgt fun q =>
  if c.u8 0 < 1 || 64 < c.u8 0 then d.fail stRange (ofsP 0)
  else if !d.queueLive q then d.fail stState
  else match injectFrames c.params (c.u8 0) 4 with
    | none => d.fail stBadLength 10
    | some fs =>
      let far := fs.any (fun x => 999999999 < x.2.1 || 140000 * 1000000000 < ((x.1 : Int) * 1000000000 + x.2.1 - d.netNs).natAbs)
      if q.launch = 2 && far then d.fail stRange (ofsP 4)
      else
        let (n, refused, d) := Dev.inject c.tgt (q.launch = 2) fs 0 d
        { dev := d, st := if refused then stNoResource else stOk, applied := n }

/-- CMD_QUEUE_INJECT (R303, R310). -/
def specQueueInject : CmdSpec :=
  { op := 0x0708, lenOk := fun _ ps => 20 ≤ ps.length, body := bodyQueueInject, scope := fun c d => d.mayQueue c.snd c.tgt }

/-! ## Express transit (R330 to R332) -/

/-- Whether a frame may cut through from one sub-port to a queue of another (R330): its path is CUT, the egress rate is no higher, the queue is
empty, no launch frame is due, the sub-port is idle and its SC has an SA in TX. -/
def Dev.cutOk (d : Dev) (ing : Nat) (q : Queue) (sc : Option Nat) : Bool :=
  let eg := q.subport
  !d.safPath ing eg && modeGbps (d.sub eg).mode ≤ modeGbps (d.sub ing).mode && q.frames.isEmpty && (d.launchOrder eg).isEmpty
    && reached d.now (d.sub eg).busyUntil && d.txOpen eg && sc.any (fun n => (d.saIn n .tx).isSome)

/-- TRANSIT_VERDICT (R330 to R332): a frame of an ingress SA that the classifier sends to a queue of a sub-port, with its packet number and the
verdict of its ICV: cut through where R330 lets it, else stored (log 25). -/
def Dev.opTransitVerdict (d : Dev) (sa queue : Nat) (ok : Bool) (pn : Nat) (frame : List Byte) : Dev :=
  match d.scOf (sa / 2), mget d.queues queue with
  | some ci, some q =>
    let ing := d.subOfSc (sa / 2)
    let eg := q.subport
    let yi := (mget d.msec.secys ci.secy).getD {}
    let sc := (d.groupSecyOf eg q.group).bind (fun e => d.txSc e.1)
    if ci.tx || q.down || !d.tileRun (d.tileOfSa sa) then d
    else if !d.tileRun (tileOfSub eg) then d.count .noQueue (d.tileOfSa sa)
    else if (d.sa sa).st ≠ .ready && (d.sa sa).st ≠ .retiring then d.count .inNotUsingSa (sa / 2)
    else if yi.replay && pn < (d.sa sa).low then d.count .inLate sa
    else if d.cutOk ing q sc then
      let n := sc.getD 0
      let (fate, d) := d.pnUse n frame.length ((d.groupSecyOf eg q.group).any (fun e => e.2.conf))
      let d := d.onLine eg (frame.length + d.msecGrow eg q.group)
      if ok then ((d.count .inOk sa).rxAccept sa pn yi.window).emit (.frame eg (fate.map (fun x => x.1)) ((fate.map (fun x => x.2)).getD 0) frame)
      else (((d.count .inNotValid sa).count .transitPoisoned sa).count .txPoisoned n).emit (.poisoned eg)
    else
      let d := if d.safPath ing eg then d else d.count .transitSfFallback (128 * ing + eg)
      if ok then
        (((d.count .inOk sa).rxAccept sa pn yi.window).enqueue
          { port := if tileOfSub eg = tileOfSub ing then 0 else 2, src := tileOfSub ing, queue := queue, frame := frame, last := 1 } none (d.growOf queue)).2
      else d.count .inNotValid sa
  | _, _ => d

/-! ## Meanings -/

/-- TRANSIT_VERDICT (R331). -/
def execTransitVerdict (sa queue : Nat) (ok : Bool) (pn : Nat) (head tail : List Byte) (s : State) : Host.Outcome State Fault Refusal :=
  live (fun d => d.opTransitVerdict sa queue ok pn (head ++ tail)) s

/-- CMD_QUEUE_INJECT (R310). -/
def execCmdQueueInject (p : Packet) (s : State) : Host.Outcome State Fault Refusal := live (Dev.runCommand specQueueInject p) s

/-- FRAME_ENQUEUE (R294). -/
def execFrameEnqueue (q : EnqueueReq) (s : State) : Host.Outcome State Fault Refusal :=
  live (fun d => d.opFrameEnqueue q) s

/-- FRAME_DEQUEUE (R295). -/
def execFrameDequeue (sub : Bool) (node : Nat) (s : State) : Host.Outcome State Fault Refusal :=
  live (fun d => d.opFrameDequeue sub node) s

/-- LAUNCH_TIME_REACHED (R304). -/
def execLaunchTimeReached (queue : Nat) (s : State) : Host.Outcome State Fault Refusal :=
  live (fun d => d.opLaunchTimeReached queue) s

/-- GATE_BOUNDARY (R307). -/
def execGateBoundary (sub : Nat) (s : State) : Host.Outcome State Fault Refusal :=
  live (fun d => d.opGateBoundary sub) s

end Sys2Proof.Machine
end

