-- ==== Sys2Proof/Machine/Circuits.lean ====
section
/-!
DEFINITION. Circuit containers, SAToP and the OMCI relay (R152 to R161). Where a packet is lost, late or marked, play follows R159
with the conventions of log 28.
-/

namespace Sys2Proof.Machine

/-! ## Bits and containers (R152 to R154) -/

/-- Bits of bytes, most significant bit of each byte first. -/
def bitsOf (b : List Byte) : List Bool := b.flatMap (fun x => (List.range 8).map (fun i => x.getLsbD (7 - i)))

/-- Bytes of bits, most significant first; a last byte is filled with zeros. -/
def bytesOfBits (bs : List Bool) : List Byte :=
  (List.range (ceilDiv bs.length 8)).map (fun n => BitVec.ofNat 8 ((List.range 8).foldl (fun v i => 2 * v + b2n (bs.getD (8 * n + i) false)) 0))

/-- Bits without valid input, which play as ones. -/
def lostBits (n : Nat) : List (Option Bool) := List.replicate n none
def played (bs : List (Option Bool)) : List Bool := bs.map (fun b => b.getD true)

/-- Data bits of a justification code (Table 6-4). -/
def justBits (code : Nat) : Nat := if code = 1 then 255 else if code = 2 then 257 else 256

/-- A container as it is sent (Tables 6-3 and 6-4) from its data bits. -/
def container (circuit seq code : Nat) (ais : Bool) (bits : List Bool) : List Byte :=
  let head := [circuit / 16 % 256, circuit % 16 * 16 + seq % 16, code * 84 + 2 * b2n ais]
  head.map (BitVec.ofNat 8) ++ bytesOfBits ((bits ++ List.replicate (264 - bits.length) false).take 264)

/-- Justification code that at least two copies hold; none where they all differ or hold 0b11 (R154). -/
def justVote (b : Byte) : Option Nat :=
  let c1 := b.toNat / 64; let c2 := b.toNat / 16 % 4; let c3 := b.toNat / 4 % 4
  let m := if c1 = c2 || c1 = c3 then some c1 else if c2 = c3 then some c2 else none
  if m = some 3 then none else m

/-- Data bits of a received container for a code (R153). -/
def containerBits (bytes : List Byte) (code : Nat) : List Bool := (bitsOf (bytesAt bytes 3 33)).take (justBits code)

/-! ## Tree to uplink (R155, R158, R159) -/

/-- Emits SAToP packets while a payload's worth of bits has gathered; L marks one that holds bits of a lost container or of one with AIS. -/
def Dev.satopOut (d : Dev) (k : Nat) : Nat → Dev
  | 0 => d
  | n + 1 =>
    match mget d.circuits k with
    | none => d
    | some x =>
      let w := 8 * x.payload
      if x.upBits.length < w || w = 0 then d
      else
        let now := x.upBits.take w
        let d := d.emit (.satop k x.psn x.pw x.pwSeqTx (now.any Option.isNone) x.pwLoss (played now))
        Dev.satopOut { d with circuits := mput d.circuits k { x with upBits := x.upBits.drop w, pwSeqTx := (x.pwSeqTx + 1) % 65536 } } k n

/-- Adds upstream bits to a circuit and emits what is complete. -/
def Dev.circuitIn (d : Dev) (k : Nat) (bits : List (Option Bool)) : Dev :=
  match mget d.circuits k with
  | none => d
  | some x => Dev.satopOut { d with circuits := mput d.circuits k { x with upBits := x.upBits ++ bits } } k
      ((x.upBits.length + bits.length) / 256 + 1)

/-- CIRCUIT_CONTAINER_RX (R155): the number, the sequence, the justification and AIS of a container on a circuit's port. -/
def Dev.opCircuitContainerRx (d : Dev) (k : Nat) (bytes : List Byte) : Dev :=
  match mget d.circuits k with
  | none => d
  | some x =>
    if !d.chanLive (d.chanOfTerm x.tid) then d
    else
      let b (i : Nat) : Nat := natAt bytes i 1
      let seq := b 1 % 16
      if b 0 * 16 + b 1 / 16 ≠ k then d.count .contMisrouted k
      else
        let gap := match x.rxSeq with | some l => (seq + 16 - l - 1) % 16 | none => 0
        if 8 ≤ gap then ({ d with circuits := mput d.circuits k { x with rxSeq := none } } : Dev).count .resync k
        else
          let d : Dev := { d with circuits := mput d.circuits k { x with rxSeq := some seq } }
          let d := if gap = 0 then d else (d.count .contLost k gap).circuitIn k (lostBits (256 * gap))
          let v := justVote (bytes.getD 2 0)
          let d := if v.isNone then d.count .justVoteFail k else d
          let code := v.getD 0
          let d := if code = 1 then d.count .justPosUp k else if code = 2 then d.count .justNegUp k else d
          if bitN (b 2) 1 then (d.count .aisRxUp k).circuitIn k (lostBits (justBits code))
          else d.circuitIn k ((containerBits bytes code).map some)

/-! ## Uplink to tree (R159) -/

/-- Depth of a jitter buffer in bits and its target T, half of it. -/
def Circuit.depth (x : Circuit) : Nat := 2048 * x.jbMs
def Circuit.target (x : Circuit) : Nat := 1024 * x.jbMs

/-- Puts bits into the jitter buffer: past its depth it overruns and is reset to T; at T play begins. -/
def Dev.jbPut (d : Dev) (k : Nat) (bits : List (Option Bool)) : Dev :=
  match mget d.circuits k with
  | none => d
  | some x =>
    let all := x.jb ++ bits
    let late := decide (x.depth < all.length)
    let jb := if late then all.drop (all.length - x.target) else all
    let d : Dev := { d with circuits := mput d.circuits k { x with jb := jb, jbPlay := x.jbPlay || decide (x.target ≤ jb.length) } }
    if late then d.count .jbOverrun k else d

/-- SATOP_PACKET_RX (R158, R159): a packet of the circuit's pseudowire. One with an RTP header is discarded and counted, and one without the
control word is discarded; lost packets before it play as ones; one that comes late is not used (log 28). -/
def Dev.opSatopPacketRx (d : Dev) (k : Nat) (s : SatopPacket) : Dev :=
  match mget d.circuits k with
  | none => d
  | some x =>
    if !d.tileRun (d.tileOfTerm x.tid) || s.psn ≠ x.psn || s.pw ≠ x.pw || !s.cw then d
    else if s.rtp then d.count .pwRtpDrop k
    else
      let gap := match x.pwSeqRx with | some l => (s.seq + 65536 - l - 1) % 65536 | none => 0
      let w := 8 * x.payload
      if 32768 ≤ gap then d
      else
        let d : Dev := { d with circuits := mput d.circuits k { x with pwSeqRx := some (s.seq % 65536), pwLoss := decide (0 < gap) } }
        let d := if gap = 0 then d else (d.count .pwLost k gap).jbPut k (lostBits (min (gap * w) (x.depth + 1)))
        d.jbPut k (if s.lBit then lostBits w else ((bitsOf s.payload).map some ++ lostBits w).take w)

/-- The container of a circuit in the downstream frame being built (R152, R159): its justification from the fill; all ones while the buffer
refills and where it runs dry, which also marks the pseudowire as in packet loss (R158); AIS where no bit of it has valid input. -/
def Dev.circuitOut (d : Dev) (k : Nat) : List Byte × Dev :=
  match mget d.circuits k with
  | none => ([], d)
  | some x =>
    let f := x.jb.length
    let code := if f + 8 < x.target then 1 else if x.target + 8 < f then 2 else 0
    let n := justBits code
    let dry := x.jbPlay && f < n
    let bits := if x.jbPlay then (x.jb ++ lostBits n).take n else lostBits n
    let ais := bits.all Option.isNone
    let d : Dev := { d with circuits := mput d.circuits k { x with
      txSeq := (x.txSeq + 1) % 16
      jb := if x.jbPlay then x.jb.drop n else x.jb
      jbPlay := x.jbPlay && !dry
      pwLoss := x.pwLoss || dry } }
    let d := if dry then d.count .jbUnderrun k else d
    let d := if code = 1 then d.count .justPosDown k else if code = 2 then d.count .justNegDown k else d
    let d := if ais then d.count .aisRxDown k else d
    (container k x.txSeq code ais (played bits), d)

/-- The containers of several circuits, one after another. -/
def Dev.containersOut : List Nat → Dev → List Byte × Dev
  | [], d => ([], d)
  | k :: ks, d =>
    let (a, d) := d.circuitOut k
    let (b, d) := Dev.containersOut ks d
    (a ++ b, d)

/-- The containers of a terminal's circuits share one frame on its circuit port, ascending (R156); without a key in use it is dropped
(R333). -/
def Dev.circuitsOut (d : Dev) (ch tid : Nat) : Dev :=
  match d.circuits.filter (fun e => e.2.tid = tid) with
  | [] => d
  | e :: es =>
    let (bytes, d) := Dev.containersOut ((e :: es).map (fun e => e.1)) d
    match d.gemKey tid with
    | some key =>
      let n := bytes.length + gemHdr ch
      let d := d.updChan ch (fun c => { c with dsRoom := c.dsRoom - n })
      ((d.winAdd 1 ch 1 n 1).winAdd 2 tid 1 n 1).emit (.containers tid e.2.port key bytes)
    | none => d.count .ponNoKey (termObj tid)

/-- Deletes of circuits that are due at a frame boundary (R157). -/
def Dev.circuitBoundary (d : Dev) : Dev :=
  { d with circuits := d.circuits.filter (fun e => !e.2.delAt.any (frameGe d.frame)) }

/-! ## OMCI (R160, R161) -/

/-- The trailer of an OMCI message: CRC-32 on G, the MIC under the terminal's integrity key on X and F. -/
def Dev.omciTrailer (d : Dev) (tid : Nat) (msg : List Byte) : Option (List Byte) :=
  if d.chanOfTerm tid % 4 = 0 then some (bytesAt (Config.omciCrc msg) 0 4) else (d.ponKey tid).omciKey.map (fun k => bytesAt (Config.omciMic k msg) 0 4)

/-- Whether the trailer of a received OMCI message fits it (R161). -/
def Dev.omciOk (d : Dev) (tid : Nat) (msg trailer : List Byte) : Bool := d.omciTrailer tid msg = some trailer

/-- OMCI_FRAME_RX (R160, R161): the frame is relayed, trailer included, with its terminal, its channel and the result of the trailer's check. -/
def Dev.opOmciFrameRx (d : Dev) (tid : Nat) (msg trailer : List Byte) : Dev :=
  match mget d.terms tid with
  | none => d
  | some t => if !d.chanLive t.ch then d
    else d.notify 0x8280 tid (leBytes 4 t.ch ++ leBytes 4 (b2n (d.omciOk tid msg trailer)) ++ msg ++ trailer)

/-- OMCI messages of a channel's terminals leave in the frame being built, in the order of their commands. -/
def Dev.omciDrain (d : Dev) (ch : Nat) : Dev :=
  let t := tileOfChan ch
  let q := (d.tile t).omciQ
  let mine := q.filter (fun m => d.chanOfTerm m.tid = ch && mhas d.terms m.tid)
  if mine.isEmpty then d
  else
    let d := d.updTile t (fun x => { x with omciQ := q.filter (fun m => !(d.chanOfTerm m.tid = ch && mhas d.terms m.tid)) })
    mine.foldl (fun d m => (d.updChan ch (fun c => { c with dsRoom := c.dsRoom - (m.bytes.length + gemHdr ch) })).emit (.omci m.tid m.bytes)) d

/-- Flags with compute_ic in bit 0, message length, message (log 15). -/
def bodyOmciSend (c : Cmd) (d : Dev) : Res :=
  d.withTerm c.tgt fun t =>
  let n := c.u16 2
  let msg := c.bs 4 n
  let tl := tileOfChan t.ch
  if c.params.length ≠ pad4 (4 + n) then d.fail stBadLength 10
  else if 256 ≤ (d.tile tl).omciQ.length then d.fail stBusy
  else
    let put (b : List Byte) : Res := Dev.ok (d.updTile tl (fun x => { x with omciQ := x.omciQ ++ [{ tid := c.tgt, bytes := b }] }))
    if !c.bit 0 0 then put msg
    else match d.omciTrailer c.tgt msg with
      | some tr => put (msg ++ tr)
      | none => d.fail stState

/-- CMD_OMCI_SEND (R160, R161). -/
def specOmciSend : CmdSpec :=
  { op := 0x0220, lenOk := fun _ ps => 4 ≤ ps.length && ps.length % 4 = 0, body := bodyOmciSend, scope := fun c d => d.mayActTerm c.snd c.tgt }

/-! ## Circuits: commands (R157) -/

/-- TID, circuit port, AID, pseudowire, payload bytes and jitter buffer in ms, these two 0 for their defaults, packet network (log 15). -/
def bodyCircuitCreate (c : Cmd) (d : Dev) : Res :=
  let tid := c.u16 0
  let aid := c.u16 4
  let pay := if c.u16 12 = 0 then 256 else c.u16 12
  let jb := if c.u8 14 = 0 then 4 else c.u8 14
  if d.nCircuits ≤ c.tgt then d.fail stRange ofsTgt
  else if d.nTerms ≤ tid then d.fail stRange (ofsP 0)
  else if d.nAllocs ≤ aid then d.fail stRange (ofsP 4)
  else if pay < 32 || 1024 < pay || pay % 32 ≠ 0 then d.fail stRange (ofsP 12)
  else if 32 < jb then d.fail stRange (ofsP 14)
  else if 3 < c.u8 15 then d.fail stBadParam (ofsP 15)
  else match mget d.terms tid, mget d.allocs aid with
  | some t, some a =>
    let tl := tileOfChan t.ch
    let own := (d.circuits.filter (fun e => e.2.tid = tid && e.2.delAt.isNone)).length
    if mhas d.circuits c.tgt || t.delAt.isSome || a.delAt.isSome || d.notRun tl then d.fail stState
    else if a.tid ≠ tid || a.p.typ ≠ 0 || a.latest.1.period ≠ 1 then d.fail stBadParam (ofsP 4)
    else if 16 ≤ own || 512 ≤ (d.circuits.filter (fun e => d.tileOfTerm e.2.tid = tl)).length
        || a.latest.1.fixed < 36 * (own + 1) + gemHdr t.ch then d.fail stNoResource
    else
      let x : Circuit := { tid := tid, port := c.u16 2, aid := aid, pw := BitVec.ofNat 32 (c.u32 8), payload := pay, jbMs := jb, psn := c.u8 15 }
      Dev.ok { d with circuits := mput d.circuits c.tgt x }
  | none, _ => d.fail stState (ofsP 0)
  | _, none => d.fail stState (ofsP 4)

/-- CMD_CIRCUIT_CREATE (R157). -/
def specCircuitCreate : CmdSpec :=
  { op := 0x0210, lenOk := lenIs 16, body := bodyCircuitCreate, scope := fun c d => d.mayActTerm c.snd (c.u16 0) }

def bodyCircuitDelete (c : Cmd) (d : Dev) : Res :=
  if d.nCircuits ≤ c.tgt then d.fail stRange ofsTgt
  else match mget d.circuits c.tgt with
  | none => d.fail stState
  | some x =>
    if x.delAt.isSome || d.notRun (d.tileOfTerm x.tid) then d.fail stState
    else Dev.ok { d with circuits := mput d.circuits c.tgt { x with delAt := some (plusF d.frame 1) } }

/-- CMD_CIRCUIT_DELETE (R157): the circuit leaves at the next frame boundary. -/
def specCircuitDelete : CmdSpec :=
  { op := 0x0211, lenOk := lenIs 0, body := bodyCircuitDelete,
    scope := fun c d => match mget d.circuits c.tgt with | some x => d.mayActTerm c.snd x.tid | none => true }

/-! ## Meanings -/

/-- CMD_CIRCUIT_CREATE (R157). -/
def execCmdCircuitCreate (p : Packet) (s : State) : Host.Outcome State Fault Refusal := live (Dev.runCommand specCircuitCreate p) s

/-- CMD_CIRCUIT_DELETE (R157). -/
def execCmdCircuitDelete (p : Packet) (s : State) : Host.Outcome State Fault Refusal := live (Dev.runCommand specCircuitDelete p) s

/-- CMD_OMCI_SEND (R160). -/
def execCmdOmciSend (p : Packet) (s : State) : Host.Outcome State Fault Refusal := live (Dev.runCommand specOmciSend p) s

/-- OMCI_FRAME_RX (R160). -/
def execOmciFrameRx (tid : Nat) (msg trailer : List Byte) (s : State) : Host.Outcome State Fault Refusal :=
  live (fun d => d.opOmciFrameRx tid msg trailer) s

/-- CIRCUIT_CONTAINER_RX (R155). -/
def execCircuitContainerRx (circuit : Nat) (bytes : List Byte) (s : State) : Host.Outcome State Fault Refusal :=
  live (fun d => d.opCircuitContainerRx circuit bytes) s

/-- SATOP_PACKET_RX (R159). -/
def execSatopPacketRx (circuit : Nat) (pkt : SatopPacket) (s : State) : Host.Outcome State Fault Refusal :=
  live (fun d => d.opSatopPacketRx circuit pkt) s

end Sys2Proof.Machine
end

