-- ==== Sys2Proof/Machine/Quality.lean ====
section
/-!
DEFINITION. Line quality: errored seconds, unavailable time, performance bins and their thresholds (R162 to R166, R483).
-/

namespace Sys2Proof.Machine

/-! ## Bins (R165) -/

/-- Changes the bin that opened at a second, open or closed. -/
def PmObj.at15 (p : PmObj) (key : Nat) (f : PmBin → PmBin) : PmObj :=
  if p.cur15.key = key then { p with cur15 := f p.cur15 }
  else { p with old15 := p.old15.map (fun b => if b.key = key && !b.final then f b else b) }
def PmObj.at24 (p : PmObj) (key : Nat) (f : PmBin → PmBin) : PmObj :=
  if p.cur24.key = key then { p with cur24 := f p.cur24 }
  else { p with old24 := p.old24.map (fun b => if b.key = key && !b.final then f b else b) }

/-- Changes both bins of a second. -/
def PmObj.atSec (p : PmObj) (s : PmSec) (f : PmBin → PmBin) : PmObj := (p.at15 s.key15 f).at24 s.key24 f

/-- A second counted as available: its ES and SES (R163). -/
def PmBin.avail (b : PmBin) (s : PmSec) : PmBin := { b with es := b.es + b2n s.es, ses := b.ses + b2n s.ses }
/-- The same taken back. -/
def PmBin.unavailNow (b : PmBin) (s : PmSec) : PmBin := { b with es := b.es - b2n s.es, ses := b.ses - b2n s.ses, uas := b.uas + 1 }
/-- A second of unavailable time. -/
def PmBin.uasUp (b : PmBin) : PmBin := { b with uas := b.uas + 1 }
/-- A second that turns out to be available again. -/
def PmBin.availNow (b : PmBin) (s : PmSec) : PmBin := { b with uas := b.uas - 1, es := b.es + b2n s.es, ses := b.ses + b2n s.ses }

/-- Closes a second (R163, R164): errored and severely errored, then unavailable time with its retroactive assignment. -/
def PmObj.second (p : PmObj) : PmObj :=
  let ses := p.curDefect || (0 < p.curBlocks && 3 * p.curBlocks ≤ 10 * p.curErr)
  let s : PmSec := { es := 0 < p.curErr, ses := ses, key15 := p.cur15.key, key24 := p.cur24.key }
  let add (b : PmBin) : PmBin := { b with errB := b.errB + p.curErr, blocks := b.blocks + p.curBlocks }
  let p := p.atSec s add
  let p := { p with curErr := 0, curBlocks := 0, curDefect := false }
  if !p.unavail then
    let p := p.atSec s (fun b => b.avail s)
    if !ses then { p with pend := [] }
    else
      let run := s :: p.pend
      if run.length < 10 then { p with pend := run }
      else run.foldl (fun p x => p.atSec x (fun b => b.unavailNow x)) { p with pend := [], unavail := true }
  else
    let p := p.atSec s PmBin.uasUp
    if ses then { p with pend := [] }
    else
      let run := s :: p.pend
      if run.length < 10 then { p with pend := run }
      else run.foldl (fun p x => p.atSec x (fun b => b.availNow x)) { p with pend := [], unavail := false }

/-- Closes the bins that end at a network second and opens the next ones (R165). -/
def PmObj.roll (p : PmObj) (sec : Nat) (bad : Bool) (now : Raw) : PmObj :=
  let shut (b : PmBin) : PmBin := { b with closeSec := sec, closedAt := some now }
  let p := if sec % 900 = 0 then { p with old15 := (shut p.cur15 :: p.old15).take 32, cur15 := { key := sec, suspect := bad } } else p
  if sec % 86400 = 0 then { p with old24 := [shut p.cur24], cur24 := { key := sec, suspect := bad } } else p

/-- Marks the open bins suspect (R166). -/
def PmObj.suspectIf (p : PmObj) (bad : Bool) : PmObj := if bad then p.suspectNow else p

/-- Values of a bin that thresholds watch: ES, SES, UAS, errored blocks. -/
def PmBin.vals (b : PmBin) : List Nat := [b.es, b.ses, b.uas, b.errB]

/-- Thresholds of a bin that the last second, counted in it, crossed: count, value (R166). -/
def crossed (thr : List Nat) (old new : PmBin) : List (Nat × Nat) :=
  (List.range 4).filterMap (fun i =>
    let t := nth thr i
    if 0 < t && nth old.vals i < t && t ≤ nth new.vals i then some (i, nth new.vals i) else none)

/-- Notices of the thresholds that an object's second crossed (R506). -/
def Dev.pmNotices (d : Dev) (obj : Nat) (old new : PmObj) : Dev :=
  let note (bin : Nat) (d : Dev) (x : Nat × Nat) : Dev := d.notify 0x8281 obj (leBytes 1 x.1 ++ leBytes 1 bin ++ zeroBytes 6 ++ leBytes 8 x.2)
  (crossed new.thr24 old.cur24 new.cur24).foldl (note 1) ((crossed new.thr15 old.cur15 new.cur15).foldl (note 0) d)

/-- Object number of a tree (R483). -/
def pmTree (t : Nat) : Nat := 16384 + t

/-- Whether a terminal's bins are suspect: its channel is not ENABLED (R166). -/
def Dev.pmBadTerm (d : Dev) (t : Terminal) : Bool := (d.chan t.ch).st ≠ .enabled
/-- Whether a tree's bins are suspect: none of its channels is ENABLED (log 29). -/
def Dev.pmBadTree (d : Dev) (t : Nat) : Bool := (treeChans t).all (fun c => (d.chan c).st ≠ .enabled)

/-- One second of one object, before the bins that end with it close. -/
def PmObj.counted (p : PmObj) (bad : Bool) : PmObj := (p.suspectIf bad).second
def PmObj.close (p : PmObj) (sec : Nat) (bad : Bool) (now : Raw) : PmObj := (p.counted bad).roll sec bad now

/-- Defects that are present make the second severely errored (R163). -/
def Dev.standingDefects (d : Dev) : Dev :=
  let d := (d.trees.filter (fun e => e.2.lost || e.2.lfs || e.2.lsf)).foldl (fun d e => d.treeDefect e.1) d
  { d with terms := d.terms.map (fun (k, t) => (k, if t.losi || t.lofi then { t with pm := t.pm.defect } else t)) }

/-- An area of device memory has been rewritten (R364): its generation is even again, two higher than before the rewrite, and its record
names the update (R482). The bins are rewritten once a second and when one becomes final (log 21). -/
def Dev.areaMade (d : Dev) (a : Nat) : Dev :=
  { d with host := { d.host with gens := addNth d.host.gens a 2, areaAt := mput d.host.areaAt a (d.frame, d.netNs) } }

/-- The performance-monitoring second that ends at a network second (R162 to R166), for every terminal and tree. -/
def Dev.pmSecond (d : Dev) (sec : Nat) : Dev :=
  let d := d.standingDefects
  let was := d
  let d : Dev := { d with
    terms := d.terms.map (fun (k, t) => (k, { t with pm := t.pm.close sec (d.pmBadTerm t) d.now })),
    trees := (List.range d.nTrees).map (fun k => (k, { d.tree k with pm := (d.tree k).pm.close sec (d.pmBadTree k) d.now })) }
  let d := d.areaMade 0
  let d := was.terms.foldl (fun d e => d.pmNotices e.1 e.2.pm (e.2.pm.counted (was.pmBadTerm e.2))) d
  ((List.range d.nTrees).foldl (fun d k => d.pmNotices (pmTree k) (was.tree k).pm ((was.tree k).pm.counted (was.pmBadTree k))) d).standingDefects

/-- A channel that leaves ENABLED makes the open bins of its terminals suspect (R166). -/
def Dev.pmLeft (d : Dev) (ch : Nat) : Dev :=
  let d : Dev := { d with terms := d.terms.map (fun (k, t) => (k, if t.ch = ch then { t with pm := t.pm.suspectNow } else t)) }
  if d.pmBadTree (ch / 4) then d.updTree (ch / 4) (fun x => { x with pm := x.pm.suspectNow }) else d

/-! ## Final bins (R165) -/

/-- Raw instants at which an object's provisional bins become final, 10 s after they closed. -/
def PmObj.provisional (p : PmObj) : List Raw :=
  ((p.old15 ++ p.old24).filter (fun b => !b.final)).filterMap (fun b => b.closedAt.map (· + rawS 10))

/-- Makes the bins final whose 10 s are over. -/
def PmObj.finalize (p : PmObj) (now : Raw) : PmObj :=
  let f (b : PmBin) : PmBin := if b.closedAt.any (fun t => reached now (t + rawS 10)) then { b with final := true } else b
  { p with old15 := p.old15.map f, old24 := p.old24.map f }

/-- BIN_FINAL (R165): the closed bins that are provisional longest become final 10 s after they closed. -/
def Dev.opBinFinal (d : Dev) : Dev :=
  let all := d.terms.flatMap (fun e => e.2.pm.provisional) ++ d.trees.flatMap (fun e => e.2.pm.provisional)
  match all with
  | [] => d
  | x :: xs =>
    let d := d.advanceTo (xs.foldl earlier x)
    Dev.areaMade { d with
      terms := d.terms.map (fun (k, t) => (k, { t with pm := t.pm.finalize d.now })),
      trees := d.trees.map (fun (k, x) => (k, { x with pm := x.pm.finalize d.now })) } 0

/-! ## Records and commands (R166, R483) -/

/-- A 64-byte record: ES, SES, UAS, errored blocks, blocks, marks (bit 0 suspect, bit 1 final), opening second (log 15). -/
def PmBin.bytes (b : PmBin) : List Byte :=
  leBytes 4 b.es ++ leBytes 4 b.ses ++ leBytes 4 b.uas ++ leBytes 4 (b2n b.suspect + 2 * b2n b.final) ++ leBytes 8 b.errB ++ leBytes 8 b.blocks
    ++ leBytes 8 b.key ++ zeroBytes 24

/-- The record of slot `b` of the performance-bin area (R483); zeros where no bin stands. -/
def PmObj.slot (p : PmObj) (b : Nat) : List Byte :=
  let rec_ (x : Option PmBin) : List Byte := match x with | some x => x.bytes | none => zeroBytes 64
  if b = 0 then p.cur15.bytes
  else if b ≤ 32 then rec_ (p.old15.find? (fun x => x.closeSec / 900 % 32 = b - 1))
  else if b = 33 then p.cur24.bytes
  else if b = 34 then rec_ p.old24.head?
  else zeroBytes 64

/-- The current second as a record (R165). -/
def PmObj.current (p : PmObj) : List Byte := PmBin.bytes { errB := p.curErr, blocks := p.curBlocks, es := b2n (decide (0 < p.curErr)) }

/-- The line quality of an object of R483. -/
def Dev.pmObj (d : Dev) (o : Nat) : Option PmObj :=
  if o < 16384 then (mget d.terms o).map (fun t => t.pm) else if o - 16384 < d.nTrees then some (d.tree (o - 16384)).pm else none

/-- Checks the object of a performance command. -/
def Dev.onPm (d : Dev) (o : Nat) (k : PmObj → Res) : Res :=
  if (o < 16384 && d.nTerms ≤ o) || 16384 + d.nTrees ≤ o then d.fail stRange ofsTgt
  else if o < 16384 && d.notRun (d.tileOfTerm o) && mhas d.terms o then d.fail stState
  else if 16384 ≤ o && d.notRun (tileOfTree (o - 16384)) then d.fail stState
  else match d.pmObj o with
    | none => d.fail stState
    | some p => k p

/-- Slot of R483, or 255 for the current second (log 15). -/
def bodyPmRead (c : Cmd) (d : Dev) : Res :=
  d.onPm c.tgt fun p =>
  if c.u8 0 = 255 then d.ok p.current
  else if 35 ≤ c.u8 0 then d.fail stRange (ofsP 0)
  else d.ok (p.slot (c.u8 0))

/-- CMD_PM_READ (R166). -/
def specPmRead : CmdSpec :=
  { op := 0x0230, lenOk := lenIs 4, body := bodyPmRead, scope := fun c d => if c.tgt < 16384 then d.mayReadTerm c.snd c.tgt else true }

/-- Bin (0 15-minute, 1 24-hour), thresholds of ES, SES, UAS and errored blocks, 0 off (log 15). -/
def bodyPmConfig (c : Cmd) (d : Dev) : Res :=
  d.onPm c.tgt fun _ =>
  if 1 < c.u8 0 then d.fail stRange (ofsP 0)
  else
    let thr := [c.u32 4, c.u32 8, c.u32 12, c.u64 16]
    let f (p : PmObj) : PmObj := if c.u8 0 = 0 then { p with thr15 := thr } else { p with thr24 := thr }
    Dev.ok (if c.tgt < 16384 then d.updTerm c.tgt (fun t => { t with pm := f t.pm }) else d.updTree (c.tgt - 16384) (fun x => { x with pm := f x.pm }))

/-- CMD_PM_CONFIG (R166). -/
def specPmConfig : CmdSpec :=
  { op := 0x0231, lenOk := lenIs 24, body := bodyPmConfig, scope := fun c d => if c.tgt < 16384 then d.mayActTerm c.snd c.tgt else true }

/-! ## Meanings -/

/-- CMD_PM_READ (R166). -/
def execCmdPmRead (p : Packet) (s : State) : Host.Outcome State Fault Refusal := live (Dev.runCommand specPmRead p) s

/-- CMD_PM_CONFIG (R166). -/
def execCmdPmConfig (p : Packet) (s : State) : Host.Outcome State Fault Refusal := live (Dev.runCommand specPmConfig p) s

/-- BIN_FINAL (R165). -/
def execBinFinal (s : State) : Host.Outcome State Fault Refusal :=
  live (fun d => d.opBinFinal) s

end Sys2Proof.Machine
end

