-- ==== Sys2Proof/Machine/Classify.lean ====
section
/-!
DEFINITION. The classifier: parser and fields, keys and lookups, merged actions, tag edits, meters, mirrors, forwarding, and the
second pass (R252 to R263, R270 to R278, R301, R302). Where a rule leaves a corner open, log 30 says what the model does.
-/

namespace Sys2Proof.Machine

/-! ## The parser (R252, Table 10-1) -/

/-- What the parser has found so far, and where it stands. -/
structure Hdrs where
  dst : Nat := 0
  src : Nat := 0
  tags : List Nat := []
  etype : Nat := 0
  etAt : Nat := 12
  labels : List Nat := []
  labelAt : Nat := 0
  v4 : Bool := false
  v6 : Bool := false
  ipSrc : List Byte := []
  ipDst : List Byte := []
  proto : Nat := 0
  tos : Nat := 0
  l4 : Bool := false
  sport : Nat := 0
  dport : Nat := 0
  payAt : Nat := 0
  secTag : Bool := false
  tci : Nat := 0
  sci : Nat := 0
  manyTags : Bool := false
  manyLabels : Bool := false
  frag : Bool := false
  trunc : Bool := false
  extLim : Bool := false
  deriving DecidableEq, Repr

/-- Big-endian number of `n` bytes at an offset. -/
def be (f : List Byte) (ofs n : Nat) : Nat := beNat (bytesAt f ofs n)

/-- Whether a header lies inside the frame and the first 256 bytes. -/
def inWindow (f : List Byte) (ofs n : Nat) : Bool := ofs + n ≤ min 256 f.length

/-- A header that does not fit: absent, and truncated where it begins inside the first 256 bytes and ends beyond them. -/
def Hdrs.cut (h : Hdrs) (f : List Byte) (ofs n : Nat) : Hdrs :=
  if ofs < 256 && 256 < ofs + n && ofs + n ≤ f.length then { h with trunc := true } else h

/-- UDP and TCP ports, absent in fragments. -/
def Hdrs.layer4 (h : Hdrs) (f : List Byte) (ofs : Nat) : Hdrs :=
  let n := if h.proto = 17 then 8 else if h.proto = 6 then 20 else 0
  if n = 0 || h.frag then h
  else if !inWindow f ofs n then h.cut f ofs n
  else { h with l4 := true, sport := be f ofs 2, dport := be f (ofs + 2) 2, payAt := ofs + n }

/-- IPv4 with its options skipped. -/
def Hdrs.ipv4 (h : Hdrs) (f : List Byte) (ofs : Nat) : Hdrs :=
  let n := 4 * (natAt f ofs 1 % 16)
  if !inWindow f ofs (max 20 n) || n < 20 then h.cut f ofs (max 20 n)
  else
    let h := { h with v4 := true, tos := natAt f (ofs + 1) 1, proto := natAt f (ofs + 9) 1, ipSrc := bytesAt f (ofs + 12) 4,
                      ipDst := bytesAt f (ofs + 16) 4, frag := be f (ofs + 6) 2 % 0x4000 ≠ 0 }
    h.layer4 f (ofs + n)

/-- Extension headers of IPv6, at most as many as ipv6_ext_max. -/
def Hdrs.ext6 (f : List Byte) : Nat → Hdrs → Nat → Hdrs
  | n, h, ofs =>
    if !(h.proto = 0 || h.proto = 43 || h.proto = 60 || h.proto = 44) then h.layer4 f ofs
    else match n with
      | 0 => { h with extLim := true }
      | n + 1 =>
        let len := if h.proto = 44 then 8 else 8 * (natAt f (ofs + 1) 1 + 1)
        if !inWindow f ofs len then h.cut f ofs len
        else
          let fr := h.proto = 44 && be f (ofs + 2) 2 / 8 * 2 + be f (ofs + 2) 2 % 2 ≠ 0
          Hdrs.ext6 f n { h with proto := natAt f ofs 1, frag := h.frag || fr } (ofs + len)

/-- IPv6. -/
def Hdrs.ipv6 (h : Hdrs) (f : List Byte) (ofs extMax : Nat) : Hdrs :=
  if !inWindow f ofs 40 then h.cut f ofs 40
  else
    let h := { h with v6 := true, tos := be f ofs 2 / 16 % 256, proto := natAt f (ofs + 6) 1, ipSrc := bytesAt f (ofs + 8) 16,
                      ipDst := bytesAt f (ofs + 24) 16 }
    Hdrs.ext6 f extMax h (ofs + 40)

/-- MPLS label stack entries, at most four; then IP by the first nibble where that is set. -/
def Hdrs.mpls (f : List Byte) (guess : Bool) (extMax : Nat) : Nat → Hdrs → Nat → Hdrs
  | n, h, ofs =>
    if !inWindow f ofs 4 then h.cut f ofs 4
    else match n with
      | 0 => { h with manyLabels := true }
      | n + 1 =>
        let v := be f ofs 4
        let h := { h with labels := h.labels ++ [v], payAt := ofs + 4 }
        if v / 256 % 2 = 0 then Hdrs.mpls f guess extMax n h (ofs + 4)
        else
          let nib := natAt f (ofs + 4) 1 / 16
          if !guess then h else if nib = 4 then h.ipv4 f (ofs + 4) else if nib = 6 then h.ipv6 f (ofs + 4) extMax else h

/-- Tags, then the EtherType after them: at most two tags. -/
def Hdrs.vlan (f : List Byte) (extra : Nat) : Nat → Hdrs → Nat → Hdrs
  | n, h, ofs =>
    let t := be f ofs 2
    let isTag := t = 0x8100 || t = 0x88A8 || t = extra
    if !inWindow f ofs 2 then h.cut f ofs 2
    else if !isTag then { h with etype := t, etAt := ofs }
    else match n with
      | 0 => { h with manyTags := true, etype := t, etAt := ofs }
      | n + 1 => if !inWindow f ofs 4 then h.cut f ofs 4 else Hdrs.vlan f extra n { h with tags := h.tags ++ [be f (ofs + 2) 2] } (ofs + 4)

/-- The parser under CLS_PARSE_CFG. -/
def Dev.parse (d : Dev) (f : List Byte) : Hdrs :=
  if !inWindow f 0 12 then {}
  else
    let h := Hdrs.vlan f d.tpidExtra 2 { dst := be f 0 6, src := be f 6 6 } 12
    let o := h.etAt + 2
    if h.etype = 0x88E5 then
      let n := if bitN (natAt f o 1) 5 then 14 else 6
      if !inWindow f o n then h.cut f o n
      else { h with secTag := true, tci := natAt f o 1, sci := if n = 14 then be f (o + 6) 8 else 0 }
    else if h.etype = 0x8847 || h.etype = 0x8848 then Hdrs.mpls f d.mplsIpGuess d.ipv6ExtMax 4 { h with labelAt := o } o
    else if h.etype = 0x0800 then h.ipv4 f o
    else if h.etype = 0x86DD then h.ipv6 f o d.ipv6ExtMax
    else h

/-! ## Fields (R253, Table 10-2) -/

/-- A frame on its way through the classifier: where it came in, its domain, the pass, and the first pass's hits. -/
structure Ctx where
  tile : Nat := 0
  pipe : Nat := 0
  channel : Bool := false
  handle : Nat := 0
  gem : Nat := 0
  tid : Nat := 0
  aid : Nat := 0
  sdom : Nat := 0
  second : Bool := false
  hits : Nat := 0
  deriving DecidableEq, Repr

/-- Parse flags of field 0x1A. -/
def Hdrs.flags (h : Hdrs) : Nat :=
  let bs := [decide (1 ≤ h.tags.length), decide (2 ≤ h.tags.length), h.manyTags, !h.labels.isEmpty, h.manyLabels, h.v4, h.v6, h.frag, h.l4,
             h.secTag, h.trunc, h.extLim]
  (bs.zipIdx).foldl (fun v (b, i) => v + b2n b * 2 ^ i) 0

/-- The bytes of a field, in network order; zeros where the frame does not carry it. -/
def Hdrs.field (h : Hdrs) (x : Ctx) (code : Nat) : List Byte :=
  let vid := h.tags.getD 0 0 % 4096
  match code with
  | 0x01 => beBytes 1 (if x.second then 2 else b2n x.channel) ++ beBytes 3 x.handle
  | 0x02 => beBytes 2 x.gem
  | 0x03 => beBytes 2 x.tid
  | 0x04 => beBytes 2 x.aid
  | 0x05 => beBytes 1 x.sdom
  | 0x06 => beBytes 1 x.sdom ++ beBytes 2 vid
  | 0x07 => beBytes 6 h.dst
  | 0x08 => beBytes 6 h.src
  | 0x09 => beBytes 2 (h.tags.getD 0 0)
  | 0x0A => beBytes 2 (h.tags.getD 1 0)
  | 0x0B => beBytes 2 h.etype
  | 0x0C => beBytes 4 (h.labels.getD 0 0)
  | 0x0D => beBytes 4 (h.labels.getD 1 0)
  | 0x0E => beBytes 4 (h.labels.getD 2 0)
  | 0x0F => beBytes 4 (h.labels.getD 3 0)
  | 0x10 => if h.v4 then h.ipSrc else zeroBytes 4
  | 0x11 => if h.v4 then h.ipDst else zeroBytes 4
  | 0x12 => if h.v6 then h.ipSrc else zeroBytes 16
  | 0x13 => if h.v6 then h.ipDst else zeroBytes 16
  | 0x14 => beBytes 1 h.proto
  | 0x15 => beBytes 1 h.tos
  | 0x16 => beBytes 2 h.sport
  | 0x17 => beBytes 2 h.dport
  | 0x18 => beBytes 8 h.sci
  | 0x19 => beBytes 1 h.tci
  | 0x1A => beBytes 2 h.flags
  | 0x1B => beBytes 1 (if x.second then x.hits else 0)
  | _ => []

/-- The 32-byte key of a profile (R255). -/
def KeyProfile.key (k : KeyProfile) (h : Hdrs) (x : Ctx) : List Byte :=
  k.exts.foldl (fun acc (f, ko, fo, len, mask) =>
    let src := bytesAt (h.field x f) fo len
    let src := match src with | b :: bs => (b &&& BitVec.ofNat 8 mask) :: bs | [] => []
    acc.take ko ++ src ++ acc.drop (ko + len)) (zeroBytes 32)

/-! ## Lookups, learning and refresh (R256, R270 to R272) -/

/-- Owner that the ingress of a frame gives a learned entry (R270). -/
def Ctx.owner (x : Ctx) : Nat × Nat := if x.channel then (3, x.tid) else (2, x.handle)

/-- Whether the owner of an entry is the ingress of a frame: its terminal, its tree or its sub-port (R271). -/
def Ctx.owns (x : Ctx) (e : TEntry) : Bool :=
  (e.okind = x.owner.1 && e.owner = x.owner.2) || (x.channel && e.okind = 1 && e.owner = x.handle / 4)

/-- The action a learn writes: the template, a forward kind of AID or UPLINK aimed back at the ingress. -/
def Ctx.learnAct (x : Ctx) (tmpl : List Byte) : List Byte :=
  if actKind tmpl = 1 && x.channel then actRetarget tmpl x.aid
  else if actKind tmpl = 2 && !x.channel then actRetarget tmpl x.handle
  else tmpl

/-- Puts a learn into the queue of a tile. -/
def Dev.learn (d : Dev) (x : Ctx) (k : KeyProfile) (key : List Byte) : Dev :=
  if 4096 ≤ (d.clsTile x.tile).learns.length then d.count .learnDrop k.table
  else
    let l : Learn := { table := k.table, key := key, act := x.learnAct k.tmpl, okind := x.owner.1, owner := x.owner.2, atT := d.now }
    d.updCls x.tile (fun c => { c with learns := c.learns ++ [l] })

/-- One lookup: the action hit, and whether a static violation drops the frame. -/
def Dev.look (d : Dev) (x : Ctx) (h : Hdrs) (prof : Nat) : Option (List Byte) × Bool × Dev :=
  match mget d.profiles prof with
  | none => (none, false, d)
  | some k =>
    match mget d.tables k.table with
    | none => (none, false, d)
    | some t =>
      let key := k.key h x
      let d := d.count .lookups (tabTileObj x.tile k.table)
      let here := t.tiles.testBit x.tile
      match (if here then d.tabGet k.table x.tile key else none) with
      | none => (none, false, if k.learn && here then d.learn x k key else d)
      | some e =>
        let d := d.count .hits (tabTileObj x.tile k.table)
        let other := !x.owns e
        let stampIt := k.learn || d.refreshAny k.table
        let d := if stampIt then d.tabMod k.table key (fun e => { e with stamp := t.epoch }) else d
        if k.learn && e.static && e.okind ≠ 0 && other then
          (some e.act, d.ageGuard k.table, d.count .staticViolation k.table)
        else if k.learn && e.learned && other then
          let a := x.learnAct k.tmpl
          let act := bytesAt e.act 0 2 ++ bytesAt a 2 6 ++ bytesAt e.act 8 16
          (some act, false, (d.tabMod k.table key (fun e => { e with okind := x.owner.1, owner := x.owner.2, act := act, seq := d.now })).count
            .moves k.table)
        else (some e.act, false, d)

/-- The lookups of a pass in list order: actions hit with their positions, whether a violation drops the frame. -/
def Dev.lookAll (d : Dev) (x : Ctx) (h : Hdrs) (ps : List Nat) : List (Nat × List Byte) × Bool × Dev :=
  (ps.zipIdx).foldl (fun (acc : List (Nat × List Byte) × Bool × Dev) p =>
    let (r, v, d) := acc.2.2.look x h p.1
    (match r with | some a => acc.1 ++ [(p.2, a)] | none => acc.1, acc.2.1 || v, d)) ([], false, d)

/-! ## Merging (R257, R259) -/

/-- Actions up to the first with stop set. -/
def untilStop : List (List Byte) → List (List Byte)
  | [] => []
  | a :: as => if actHas a 11 then [a] else a :: untilStop as

/-- The first action with a valid bit of a category. -/
def firstWith (bits : List Nat) (as : List (List Byte)) : Option (List Byte) := as.find? (fun a => bits.any (actHas a))

/-- What is left of a pass for the next: forward, meter and mirror, as one action (R259). -/
def residual (fw me mi : Option (List Byte)) : List Byte :=
  let bits := b2n fw.isSome + 64 * b2n me.isSome + 256 * b2n mi.isSome
  let f := fw.getD []
  leBytes 2 bits ++ bytesAt f 2 1 ++ zeroBytes 1 ++ bytesAt f 4 4 ++ zeroBytes 1 ++ bytesAt (mi.getD []) 9 1 ++ zeroBytes 4
    ++ bytesAt (me.getD []) 14 3 ++ zeroBytes 7

/-! ## Tag edits (R261) -/

/-- Removes bytes from a frame. -/
def cutBytes (f : List Byte) (ofs n : Nat) : List Byte := f.take ofs ++ f.drop (ofs + n)

/-- The tag edit of an action on a frame; the pop comes before the push. After the last label is popped the spec gives no
EtherType: it is free. -/
def Dev.edit (d : Dev) (tile : Nat) (f a : List Byte) : List Byte × Dev :=
  let h := d.parse f
  let (f, d) :=
    if actHas a 3 then
      if h.tags.isEmpty then (f, d.count .popAbsent tile) else (cutBytes f 12 4, d)
    else if actHas a 5 then
      match h.labels with
      | [] => (f, d.count .popAbsent tile)
      | [_] => let (et, d) := d.freshBytes 2
               (f.take h.etAt ++ et ++ f.drop (h.labelAt + 4), d)
      | _ => (cutBytes f h.labelAt 4, d)
    else (f, d)
  let v := actPush a
  if actHas a 2 then
    let tpid := if actTpid a = 0 then 0x8100 else if actTpid a = 1 then 0x88A8 else d.tpidExtra
    (f.take 12 ++ beBytes 2 tpid ++ beBytes 2 v ++ f.drop 12, d)
  else if actHas a 4 then
    let h := d.parse f
    let on := h.etype = 0x8847 || h.etype = 0x8848
    let w := v / 512 * 512 + 256 * b2n (!on) + v % 256
    (if on then f.take (h.etAt + 2) ++ beBytes 4 w ++ f.drop (h.etAt + 2) else f.take h.etAt ++ beBytes 2 0x8847 ++ beBytes 4 w ++ f.drop (h.etAt + 2), d)
  else (f, d)

/-! ## Forwarding (Table 10-3) -/

/-- Where a frame is stored: a tile and a head pointer. -/
abbrev Held := Option (Nat × Nat)

/-- Head pointer of the last frame of a queue. -/
def Dev.lastPtr (d : Dev) (q : Nat) : Nat := match mget d.queues q with | some x => (match x.frames.getLast? with | some f => f.ptr | none => 0) | none => 0

/-- Enqueues a classified frame; a queue of another tile is reached over the die link (Table 11-1). A frame that the queue's tile stores already
is held by one more party (R290). Answers where the frame is stored. -/
def Dev.put (d : Dev) (x : Ctx) (q : Nat) (f : List Byte) (color sdom : Nat) (held : Held := none) : Held × Dev :=
  let t := d.tileOfQueue q
  let ptr := (held.filter (fun h => h.1 = t)).map (fun h => h.2)
  let (ok, d) := d.enqueue { port := if t = x.tile then x.pipe else 2, src := x.tile, queue := q, frame := f, color := color, sdom := sdom, last := if q < upBase then 0 else 1 }
    none (d.growOf q) ptr
  (if ok then some (t, d.lastPtr q) else none, d)

/-- The class queue of a terminal in a domain. -/
def Dev.classQueue (d : Dev) (tid sdom cls : Nat) : Option Nat :=
  (d.queues.find? (fun e => e.2.down && e.2.tid = tid && e.2.sdom = sdom && e.2.cls = cls)).map (fun e => e.1)

/-- The queue of a class of a sub-port's first group. -/
def Dev.uplinkQueue (d : Dev) (p cls : Nat) : Option Nat :=
  (d.queues.find? (fun e => !e.2.down && e.2.subport = p && e.2.group = 0 && e.2.cls = cls)).map (fun e => e.1)

/-- Puts a frame into an exception queue of a tile (R32): the engines hold its cells as party 3 until they release it. -/
def Dev.except (d : Dev) (tile q : Nat) (f : List Byte) (held : Held := none) : Held × Dev :=
  let got : Option Nat × Dev := match held.filter (fun h => h.1 = tile) with
    | some h => (some h.2, d.shareCells tile h.2)
    | none => if 16384 < f.length then (none, d.count .tooLong tile) else d.takeCells tile (cellsOf f.length) 1 3 false
  match got with
  | (some ptr, d) => (some (tile, ptr), d.updCls tile (fun c => { c with excQ := c.excQ ++ [(q % 16, ptr, f)] }))
  | (none, d) => (none, d)

/-- Puts a frame into the exception queue that a member of a spread group names (R32, R277): of the classifying tile, or of another one; towards
a tile that is not in RUN the sending tile drops and counts it (R30). -/
def Dev.exceptAt (d : Dev) (x : Ctx) (m : Nat) (f : List Byte) : Held × Dev :=
  match memberTile m with
  | none => d.except x.tile m f
  | some t => if d.tileRun t then d.except t m f else (none, d.count .noQueue x.tile)

/-- Puts a frame into a queue that may not exist. -/
def Dev.putIn (d : Dev) (x : Ctx) (q : Option Nat) (f : List Byte) (color sdom : Nat) : Held × Dev :=
  match q with | some q => d.put x q f color sdom | none => (none, d.count .noQueue x.tile)

/-- The packet network of a frame as a circuit names it, and its pseudowire: the bottom label, or the UDP destination port (Table 6-5,
log 15). -/
def Hdrs.pseudowire (h : Hdrs) : Nat × Nat :=
  if !h.labels.isEmpty then (h.labels.length - 1, h.labels.getLast?.getD 0 / 4096)
  else if h.l4 && h.proto = 17 then (if h.v6 then 3 else 2, h.dport)
  else (4, 0)

/-- The SAToP packet of a frame: past the labels or the UDP header. An RTP header stands before the control word over UDP and behind it over
MPLS; a control word begins with a nibble of 0 (RFC 4553, Table 6-5, log 28). -/
def satopOf (f : List Byte) (h : Hdrs) (pay : Nat) : SatopPacket :=
  let w := be f h.payAt 4
  let (psn, pw) := h.pseudowire
  { seq := w % 65536, lBit := bitN w 27, rBit := bitN w 26, psn := psn, pw := BitVec.ofNat 32 pw, cw := h.payAt + 4 ≤ f.length && (w / 2 ^ 28 = 0 || (2 ≤ psn && w / 2 ^ 30 = 2)),
    rtp := (2 ≤ psn && w / 2 ^ 30 = 2) || f.length = h.payAt + 4 + pay + 12, payload := f.drop (h.payAt + 4) }

/-- Spread input (R277): the fields selected, in their order. -/
def Hdrs.spread (h : Hdrs) (x : Ctx) (fields : Nat) : List Byte :=
  let codes := [0x10, 0x11, 0x12, 0x13, 0x16, 0x17, 0x08, 0x07, 0x09, 0x0C, 0x0D, 0x0E, 0x0F, 0x03]
  (codes.zipIdx).flatMap (fun (c, i) => if fields.testBit i then (if c = 0x09 then beBytes 2 (h.tags.getD 0 0 % 4096) else h.field x c) else [])

/-- Sends a frame where its merged forward action says; answers where it is stored. -/
def Dev.forward (d : Dev) (x : Ctx) (a f : List Byte) (color sdom : Nat) : Held × Dev :=
  let tgt := actTarget a
  match actKind a with
  | 0 => (match mget d.queues tgt with
    | some q => if q.down && q.sdom ≠ sdom then (none, d.count .domMismatch x.tile) else d.put x tgt f color sdom
    | none => (none, d.count .noQueue (d.noQueueTile tgt)))
  | 1 => (match mget d.allocs tgt with
    | some al => if al.p.sdom ≠ sdom then (none, d.count .domMismatch x.tile) else d.putIn x (d.classQueue al.tid al.p.sdom (actClass a)) f color sdom
    | none => (none, d.count .noQueue x.tile))
  | 2 => d.putIn x (d.uplinkQueue tgt (actClass a)) f color sdom
  | 3 => (match mget d.spreads tgt with
    | none => (none, d.count .spreadDead tgt)
    | some g =>
      let i := nth g.live (toeplitz g.key ((d.parse f).spread x g.fields) % 512)
      if 64 ≤ i then (none, d.count .spreadDead tgt)
      else
        let m := g.members.getD i (0, 0)
        if m.1 = 1 then d.exceptAt x m.2 f else d.putIn x (d.uplinkQueue m.2 (actClass a)) f color sdom)
  | 4 => (none, match mget d.circuits tgt with
    | some c => d.opSatopPacketRx tgt (satopOf f (d.parse f) c.payload)
    | none => d.count .noForward x.tile)
  | 5 => let h := d.parse f
         let p := f.drop h.payAt
         (none, if h.l4 && h.proto = 17 && natAt p 4 1 = tgt then d.opPositionTelegramRx h.dport p else d)
  | 6 => d.except x.tile (tgt % 16) f
  | _ => (none, d)

/-- A mirror copy through a session (R263); one that stays on the tile that stores the frame is held with it (R290). -/
def Dev.mirrorTo (d : Dev) (x : Ctx) (m : Nat) (f : List Byte) (color sdom : Nat) (held : Held) : Dev :=
  match mget d.mirrors m with
  | none => d
  | some s =>
    let g := if s.trunc = 0 then f else f.take s.trunc
    let made (r : Held × Dev) : Dev := if r.1.isSome then r.2 else r.2.count .mirrorDrop m
    let via (q : Option Nat) : Dev := match q with | some q => made (d.put x q g color sdom held) | none => d.count .mirrorDrop m
    if s.kind = 0 then via (some s.target)
    else if s.kind = 2 then via (d.uplinkQueue s.target 0)
    else made (d.except x.tile s.target g held)

/-! ## Meters (R301, R302) -/

/-- Meters a frame: its colour, whether it is dropped, and the frame, with DEI set where the meter marks it. -/
def Dev.meter (d : Dev) (m : Option Nat) (f : List Byte) : Color × Bool × List Byte × Dev :=
  match m with
  | none => (.green, false, f, d)
  | some k =>
    match mget d.meters k with
    | none => (.green, false, f, d)
    | some x =>
      let h := d.parse f
      let tci := h.tags.getD 0 0
      let (c, x) := (x.refill d.now).colour f.length (!h.tags.isEmpty && bitN tci 12)
      let d : Dev := { d with meters := mput d.meters k x }
      let n := f.length
      let d := match c with
        | .green => (d.count .greenFrames k).count .greenBytes k n
        | .yellow => (d.count .yellowFrames k).count .yellowBytes k n
        | .red => (d.count .redFrames k).count .redBytes k n
      let g := if x.dei && c ≠ .green && !h.tags.isEmpty then f.take 14 ++ beBytes 2 (tci ||| 0x1000) ++ f.drop 16 else f
      if c = .red && !x.mark then (c, true, f, d.count .redDrop k) else (c, false, g, d)

def Color.code (c : Color) : Nat := match c with | .green => 0 | .yellow => 1 | .red => 2

/-! ## Passes (R254 to R259) -/

/-- Counts the parse flags of a frame that enters (R284). -/
def Dev.parseCounts (d : Dev) (tile : Nat) (h : Hdrs) : Dev :=
  let c (b : Bool) (k : Cnt) (d : Dev) : Dev := if b then d.count k tile else d
  c h.manyLabels .tooManyLabels (c h.manyTags .tooManyTags (c h.extLim .extLimit (c h.trunc .truncated d)))

/-- Increments the rule counter of an action (R257, R465). -/
def Dev.ruleCount (d : Dev) (tile len : Nat) (a : List Byte) : Dev :=
  if !actHas a 7 then d
  else
    let i := actCount a % 65536
    (d.addKey (ruleKey tile i false) 1).addKey (ruleKey tile i true) len

/-- One pass of a frame through a lookup list; `prior` is what a first pass left. -/
def Dev.pass (d : Dev) (x : Ctx) (list : Nat) (f : List Byte) (prior : Option (List Byte)) (mirror : Nat) : Dev :=
  match mget d.lookups list with
  | none => d.count .noForward x.tile
  | some l =>
    let h := d.parse f
    let (hits, bad, d) := d.lookAll x h l.profiles
    let acts := untilStop (hits.map (fun p => p.2))
    let d := acts.foldl (fun d a => d.ruleCount x.tile f.length a) d
    let res := match prior with | some p => [p] | none => []
    let all := acts ++ res ++ [l.dflt]
    let fwHit := firstWith [0] (acts ++ res)
    let sdom := match firstWith [1] (acts ++ [l.dflt]) with | some a => actSdom a | none => x.sdom
    if bad || acts.any (fun a => actHas a 9) then d
    else
      let (g, d) := match firstWith [2, 3, 4, 5] (acts ++ [l.dflt]) with | some a => d.edit x.tile f a | none => (f, d)
      let rc := firstWith [10] (acts ++ [l.dflt])
      if rc.isSome && x.second then d.count .recircSecond x.tile
      else match rc with
        | some a =>
          let d := if mirror ≠ 0 then d.mirrorTo x mirror g 0 sdom none else d
          let map := hits.foldl (fun v p => v ||| 2 ^ p.1) 0
          let w : Waiting := { ingKind := b2n x.channel, ing := x.handle, gem := x.gem, tid := x.tid, aid := x.aid, list := actList a, sdom := sdom,
                               frame := g, acts := residual (firstWith [0] (acts ++ [l.dflt])) (firstWith [6] (acts ++ [l.dflt])) (firstWith [8] (acts ++ [l.dflt])), hits := map }
          let q := if x.pipe = 0 then (d.clsTile x.tile).recirc0 else (d.clsTile x.tile).recirc1
          if 256 ≤ q.length then d.count .recircDrop x.tile
          else d.updCls x.tile (fun c => if x.pipe = 0 then { c with recirc0 := c.recirc0 ++ [w] } else { c with recirc1 := c.recirc1 ++ [w] })
        | none =>
          let fw := match fwHit with | some a => some a | none => if actHas l.dflt 9 then none else firstWith [0] [l.dflt]
          match fw with
          | none => if actHas l.dflt 9 then d else d.count .noForward x.tile
          | some a =>
            let (c, drop, g, d) := d.meter ((firstWith [6] all).map actMeter) g
            let (held, d) := if drop then (none, d) else d.forward x a g c.code sdom
            let d := if mirror ≠ 0 then d.mirrorTo x mirror g c.code sdom held else d
            match firstWith [8] all with
            | some m => if drop then d else d.mirrorTo x (actMirror m) g c.code sdom held
            | none => d

/-- FRAME_CLASSIFY (R252 to R263): a frame that enters a pipe of its tile. -/
def Dev.opFrameClassify (d : Dev) (i : Ingress) (frame : List Byte) : Dev :=
  let tile := if i.channel then tileOfChan i.handle else tileOfSub i.handle
  let ok := if i.channel then d.chanLive i.handle else i.handle < d.nSubs && (d.sub i.handle).enabled
  if !ok || !d.tileRun tile then d
  else
    let b := mgetD d.binds i.handle {}
    let lookup := if i.channel then (d.chan i.handle).lookup else b.lookup
    let sdom := if i.channel then (match mget d.allocs i.aid with | some a => a.p.sdom | none => 0) else b.sdom
    let x : Ctx := { tile := tile, pipe := i.pipe % 2, channel := i.channel, handle := i.handle, gem := i.gem, tid := i.tid, aid := i.aid, sdom := sdom }
    let d := d.parseCounts tile (d.parse frame)
    match lookup with
    | none => d.count .noForward tile
    | some l => d.pass x l frame none (if i.channel then (d.chan i.handle).mirror else b.mirror)

/-- SECOND_PASS (R259): the oldest frame that waits in a pipe. -/
def Dev.opSecondPass (d : Dev) (tile pipe : Nat) : Dev :=
  let q := if pipe % 2 = 0 then (d.clsTile tile).recirc0 else (d.clsTile tile).recirc1
  match q with
  | [] => d
  | w :: ws =>
    if !d.tileRun tile then d
    else
      let d := d.updCls tile (fun c => if pipe % 2 = 0 then { c with recirc0 := ws } else { c with recirc1 := ws })
      let x : Ctx := { tile := tile, pipe := pipe % 2, channel := w.ingKind = 1, handle := w.ing, gem := w.gem, tid := w.tid, aid := w.aid,
                       sdom := w.sdom, second := true, hits := w.hits }
      (d.count .recirc tile).pass x w.list w.frame (some w.acts) 0

/-! ## Meanings -/

/-- FRAME_CLASSIFY (R257). -/
def execFrameClassify (i : Ingress) (frame : List Byte) (s : State) : Host.Outcome State Fault Refusal :=
  live (fun d => d.opFrameClassify i frame) s

/-- SECOND_PASS (R259). -/
def execSecondPass (tile pipe : Nat) (s : State) : Host.Outcome State Fault Refusal :=
  live (fun d => d.opSecondPass tile pipe) s

end Sys2Proof.Machine
end

