-- ==== Sys2Proof/Machine/Counter.lean ====
section
/-!
DEFINITION. Counters and sampling: reading and writing counters, thresholds, snapshots, bandwidth windows and engine samples
(R461 to R475). Commands name a counter by its name index and object (logs 15, 21).
-/

namespace Sys2Proof.Machine

/-! ## Naming a counter -/

/-- Name index that stands for the frames and bytes rule counters in a command. -/
def ruleFrames : Nat := 0xFFFE
def ruleBytes : Nat := 0xFFFF

/-- Whether a name and object are in range. -/
def cntNameOk (name : Nat) : Bool := name ≤ Cnt.yields.idx || name = ruleFrames || name = ruleBytes

/-- Tiles of the tile set of the table that a rule-counter object names (R465). -/
def Dev.ruleTiles (d : Dev) (obj : Nat) : List Nat :=
  match mget d.tables (obj / 65536 % 256) with
  | some t => d.tileList.filter (fun k => t.tiles.testBit k)
  | none => []

/-- Keys of the counters that a name and object stand for: one, or one per tile for a rule counter. -/
def Dev.cntKeys (d : Dev) (name obj : Nat) : List Nat :=
  if name = ruleFrames || name = ruleBytes then
    (d.ruleTiles obj).map (fun t => ruleKey t (obj % 65536) (name = ruleBytes))
  else [name * 2 ^ 40 + obj % 2 ^ 40]

/-- Status that a name and object earn (R6, R7, R505, R29): out of range, absent, or on a tile that is not in RUN. Package counters
and rule counters follow the handle of their table, if they have one. -/
def Dev.cntBad (d : Dev) (name obj : Nat) : Nat :=
  let at' (out absent : Bool) (t : Nat) : Nat := if out then stRange else if absent || d.notRun t then stState else stOk
  let o := cntObj name (obj % 2 ^ 40)
  let t := d.objTile o
  if !cntNameOk name then stRange
  else if name = ruleFrames || name = ruleBytes then at' (64 ≤ obj / 65536) (!mhas d.tables (obj / 65536)) 0
  else match o with
    | .pkg => stOk
    | .tile t => at' (d.nTiles ≤ t || (name ≤ 7 && 9 < obj % 16)) false t
    | .chan c => at' (!d.chanOk c) false t
    | .tree x => at' (d.nTrees ≤ x) false t
    | .sub p => at' (d.nSubs ≤ p) false t
    | .term x => at' (d.nTerms ≤ x) (!mhas d.terms x) t
    | .alloc x => at' (d.nAllocs ≤ x) (!mhas d.allocs x) t
    | .circuit x => at' (d.nCircuits ≤ x) (!mhas d.circuits x) t
    | .queue q => at' (!d.queueOk q) (!mhas d.queues q) t
    | .meter m => at' (32768 * d.nTiles ≤ m) (!mhas d.meters m) t
    | .secy y => at' (256 * d.nTiles ≤ y) (!mhas d.msec.secys y) t
    | .sc c => at' (512 * d.nTiles ≤ c) (!mhas d.msec.scs c) t
    | .sa n => at' (1024 * d.nTiles ≤ n) (!mhas d.msec.scs (n / 2)) t

/-- The first counter of a list that is refused: its status and place. -/
def Dev.cntsBad (d : Dev) (xs : List (Nat × Nat)) : Option (Nat × Nat) :=
  (xs.zipIdx.find? (fun x => d.cntBad x.1.1 x.1.2 ≠ stOk)).map (fun x => (d.cntBad x.1.1 x.1.2, x.2))

/-- Whether a sender may read and write a counter: its object's domain is in scope, or it has package scope (R467). -/
def Dev.mayCnt (d : Dev) (s : Sender) (name obj : Nat) : Bool :=
  s.pkg ||
    (match slotKind name obj with
     | some (1, q, _) => d.mayQueue s q
     | some (2, a, _) => (match mget d.allocs a with | some x => s.dom x.p.sdom | none => false)
     | some (_, t, _) => d.mayReadTerm s t
     | none => name ≤ 57 && 2 ^ 20 ≤ obj && obj < subObj 0 && d.mayReadTerm s (obj - 2 ^ 20))

/-! ## CMD_CNT_READ, CMD_CNT_WRITE -/

/-- A counter of a command: name index and object. -/
def Cmd.cntAt (c : Cmd) (i : Nat) : Nat × Nat := (c.u16 i, c.u32 (i + 4))

/-- Address and value of one counter. -/
def Dev.cntRec (d : Dev) (key : Nat) : List Byte := leBytes 8 (d.cntAddr key) ++ leBytes 8 (mgetD d.cnt.vals key 0).toNat

/-- What CMD_CNT_READ returns for one name and object: each counter, and for a rule counter the sum last. -/
def Dev.cntReply (d : Dev) (x : Nat × Nat) : List Byte :=
  let ks := d.cntKeys x.1 x.2
  let recs := (ks.map d.cntRec).flatten
  if x.1 = ruleFrames || x.1 = ruleBytes then
    recs ++ leBytes 8 0xFFFFFFFF ++ leBytes 8 ((ks.map (fun k => (mgetD d.cnt.vals k 0).toNat)).foldl (· + ·) 0 % 2 ^ 64)
  else recs

/-- The instant a snapshot command names, checked as R412 fixes: 0 gives now plus T_op rounded up to the next whole ms. -/
def Dev.snapInstant (d : Dev) (sec ns : Nat) : Except Nat Int :=
  let lo := d.netNs + d.join.tOp
  let t : Int := (sec : Int) * 1000000000 + ns
  if t = 0 then .ok ((lo + 999999) / 1000000 * 1000000)
  else if 999999999 < ns || t < lo || 140000 * 1000000000 < t - d.netNs then .error stRange
  else .ok t

/-- First identifier of the snapshots that this device takes for its own senders. -/
def localSnap : Nat := 2 ^ 31

/-- Flags (bit 0 snapshot), number of counters n, instant (seconds, ns), then name and object of each (log 15). -/
def bodyCntRead (c : Cmd) (d : Dev) : Res :=
  let n := c.u8 1
  let xs := (List.range n).map (fun i => c.cntAt (20 + 8 * i))
  match d.cntsBad xs with
  | some (st, i) => d.fail st (ofsP (20 + 8 * i))
  | none =>
  if c.bit 0 0 then
    match d.snapInstant (c.u64 4 % 2 ^ 48) (c.u32 12) with
    | .error st => d.fail st (ofsP 4)
    | .ok t =>
      let id := localSnap + d.join.snapNo
      let j : SnapJob := { id := id, atT := t, raw := d.rawOfNs t, job := id }
      Dev.accepted { d with join := { d.join with snaps := d.join.snaps ++ [j], snapNo := d.join.snapNo + 1 } } stAccepted .cntSnapshot id
  else
    let body := (xs.map d.cntReply).flatten
    if 3808 < body.length then d.fail stRange (ofsP 1) else Dev.ok d body

/-- CMD_CNT_READ (R462, R463, R465, R467, R471). -/
def specCntRead : CmdSpec :=
  { op := 0x0F01, body := bodyCntRead, lenOk := fun _ ps => ps.length = 20 + 8 * natAt ps 1 1,
    scope := fun c d => if c.bit 0 0 then c.snd.pkg else (List.range (c.u8 1)).all (fun i => let x := c.cntAt (20 + 8 * i); d.mayCnt c.snd x.1 x.2) }

/-- Sets one counter; events are counted from the written value, and an increment of the same cycle is lost (R467, R470). -/
def Dev.cntSet (d : Dev) (key v : Nat) : Dev :=
  let v0 := (d.wroteNow key).getD (mgetD d.cnt.vals key 0).toNat
  { d with cnt := { d.cnt with
      vals := mputD d.cnt.vals key (BitVec.ofNat 64 v) 0
      wrote := mput (d.cnt.wrote.filter (fun e => e.2.1 = d.now)) key (d.now, v0) } }

/-- Number of counters n, then name, object and value of each (log 15). -/
def bodyCntWrite (c : Cmd) (d : Dev) : Res :=
  let xs := (List.range (c.u8 0)).map (fun i => (c.cntAt (8 + 16 * i), c.u64 (16 + 16 * i)))
  match d.cntsBad (xs.map (fun x => x.1)) with
  | some (st, i) => d.fail st (ofsP (8 + 16 * i))
  | none => Dev.ok (xs.foldl (fun d x => (d.cntKeys x.1.1 x.1.2).foldl (fun d k => d.cntSet k x.2) d) d)

/-- CMD_CNT_WRITE (R467). -/
def specCntWrite : CmdSpec :=
  { op := 0x0F02, body := bodyCntWrite, lenOk := fun _ ps => ps.length = 8 + 16 * natAt ps 0 1,
    scope := fun c d => (List.range (c.u8 0)).all (fun i => let x := c.cntAt (8 + 16 * i); d.mayCnt c.snd x.1 x.2) }

/-! ## Thresholds (R468, R469) -/

/-- Sets a ring of host memory; its producer index restarts when the ring changes. -/
def Ring.setTo (r : Ring) (base : BitVec 64) (n : Nat) : Ring := if r.base = base && r.r = n then r else { base := base, r := n }

/-- Checks a ring of R469. -/
def ringBad (c : Cmd) (ofs : Nat) : Option Nat :=
  if c.u64 ofs % 64 ≠ 0 then some stBadParam else if c.u8 (ofs + 8) < 6 || 20 < c.u8 (ofs + 8) then some stRange else none

/-- Name, object, period, vector, ring base, r (log 15). -/
def bodyCntThreshold (c : Cmd) (d : Dev) : Res :=
  let x := c.cntAt 0
  let ks := d.cntKeys x.1 x.2
  let p := c.u64 8
  let vec := c.u8 16
  match ringBad c 24 with
  | some st => d.fail st (ofsP 24)
  | none =>
    if d.cntBad x.1 x.2 ≠ stOk then d.fail (d.cntBad x.1 x.2) (ofsP 0)
    else if p = 0 || 2 ^ 63 < p then d.fail stRange (ofsP 8)
    else if vec < 64 then d.fail stRange (ofsP 16)
    else
      let full := ks.any (fun k => !mhas d.cnt.thr k && 4096 ≤ (d.cnt.thr.filter (fun e => d.cntTile e.1 = d.cntTile k)).length)
      if full then d.fail stNoResource
      else
        let thr := ks.foldl (fun m k => mput m k ({ period := p, vec := vec } : Threshold)) d.cnt.thr
        let ring := d.cnt.evt.setTo (BitVec.ofNat 64 (c.u64 24)) (c.u8 32)
        Dev.ok { d with cnt := { d.cnt with thr := thr, evt := ring } }

/-- CMD_CNT_THRESHOLD (R468, R469). -/
def specCntThreshold : CmdSpec :=
  { op := 0x0F03, lenOk := lenIs 36, body := bodyCntThreshold, scope := fun c d => let x := c.cntAt 0; d.mayCnt c.snd x.1 x.2 }

/-! ## Bandwidth windows (R472, R473) -/

/-- A window takes a length and begins anew at the last multiple of it (R472); the generation of its area steps by two. -/
def Dev.winSet (d : Dev) (key l : Nat) : Dev :=
  let w := mgetD d.cnt.wins key {}
  let start : Int := if l = 0 then 0 else d.netNs / (l * 1000000) * (l * 1000000)
  let w' : Window := { lenMs := l, gen := w.gen + 2, index := w.index, endNs := start }
  Dev.areaMade { d with cnt := { d.cnt with wins := mput d.cnt.wins key w' } } 3

/-- Length L, kind (0 sub-port, 1 channel, 2 terminal), direction; the target handle names the object (log 15). -/
def bodyCntWindow (c : Cmd) (d : Dev) : Res :=
  let l := c.u16 0
  let kind := c.u8 2
  let dir := c.u8 3
  let go (_ : Unit) : Res := (d.winSet (winKey kind c.tgt dir) l).ok
  if 60000 < l then d.fail stRange (ofsP 0)
  else if 2 < kind then d.fail stBadParam (ofsP 2)
  else if 1 < dir then d.fail stBadParam (ofsP 3)
  else if kind = 0 then d.onSub c.tgt ofsTgt go
  else if kind = 1 then d.onChan c.tgt ofsTgt go
  else if d.nTerms ≤ c.tgt then d.fail stRange ofsTgt
  else if !mhas d.terms c.tgt || d.notRun (d.tileOfTerm c.tgt) then d.fail stState
  else go ()

/-- CMD_CNT_WINDOW (R472). -/
def specCntWindow : CmdSpec :=
  { op := 0x0F04, lenOk := lenIs 4, body := bodyCntWindow,
    scope := fun c d => c.snd.pkg || (c.u8 2 = 2 && d.mayReadTerm c.snd c.tgt) }

/-- Closes a window at a network time (Table 20-4). -/
def Window.close (w : Window) (t : Int) : Window :=
  { w with
    gen := w.gen + 2, index := (w.index + 1) % 2 ^ 32, endNs := t, max := Nat.max w.max w.bytes, bytes := 0, frames := 0, suspect := false,
    hist := ((w.bytes, w.frames, w.suspect) :: w.hist).take 64 }

/-- BANDWIDTH_WINDOW_CLOSE (R472, R473): the window ends at its next multiple of L in network time. -/
def Dev.opBandwidthWindowClose (d : Dev) (key : Nat) : Dev :=
  match mget d.cnt.wins key with
  | none => d
  | some w =>
    if w.lenMs = 0 || !d.ready then d
    else
      let l : Int := w.lenMs * 1000000
      let t := max ((w.endNs / l + 1) * l) ((d.netNs + l - 1) / l * l)
      let d := d.advanceTo (d.rawReach (t * 65536))
      { d with cnt := { d.cnt with wins := mput d.cnt.wins key (w.close t) } }

/-! ## Engine sampling (R474, R475) -/

/-- Interval after LFSR state `x`: 2^(k-1) + (x mod 2^k). -/
def sampInterval (k x : Nat) : Nat := 2 ^ (k - 1) + x % 2 ^ k

/-- Sampling of an engine begins with period exponent k; where its LFSR starts is open (log 8). -/
def Dev.sampStart (k : Nat) (d : Dev) (e : Nat) : Dev :=
  let (i, d) := d.fresh
  let x := Config.lfsrNext (Config.freeNat i % 2 ^ 32) % 2 ^ 32
  let s : Sampling := { k := k, lfsr := x, left := sampInterval k x }
  { d with cnt := { d.cnt with samp := mput d.cnt.samp e s } }

/-- Engines that the mask of a command names. -/
def Cmd.engineMask (c : Cmd) : List Nat := (List.range 256).filter (fun e => c.bit (1 + e / 8) (e % 8))

/-- k, engine mask (32 bytes from byte 1), ring base, r (log 15). -/
def bodyCntSample (c : Cmd) (d : Dev) : Res :=
  let k := c.u8 0
  let set := c.engineMask
  if 24 < k || (0 < k && k < 4) then d.fail stRange (ofsP 0)
  else if set.any (fun e => d.nEngines ≤ e) then d.fail stRange (ofsP 1)
  else if k = 0 then Dev.ok { d with cnt := { d.cnt with samp := d.cnt.samp.filter (fun e => !set.contains e.1) } }
  else match ringBad c 40 with
    | some st => d.fail st (ofsP 40)
    | none =>
      let ring := d.cnt.smp.setTo (BitVec.ofNat 64 (c.u64 40)) (c.u8 48)
      Dev.ok (set.foldl (Dev.sampStart k) { d with cnt := { d.cnt with smp := ring } })

/-- CMD_CNT_SAMPLE (R474). -/
def specCntSample : CmdSpec := { op := 0x0F05, pkg := true, lenOk := lenIs 52, body := bodyCntSample }

def Dev.updSamp (d : Dev) (e : Nat) (f : Sampling → Sampling) : Dev := { d with cnt := { d.cnt with samp := mmod d.cnt.samp e f } }

/-- SAMPLE_INTERVAL_EXPIRY (R474): the next instruction is tagged; while a tag is in flight, the first after it retires. -/
def Dev.opSampleIntervalExpiry (d : Dev) (engine : Nat) : Dev :=
  if !d.tileRun (engine / 32) then d
  else d.updSamp engine (fun s =>
    let x := Config.lfsrNext s.lfsr % 2 ^ 32
    let s := { s with lfsr := x, left := sampInterval s.k x }
    if s.tag then { s with deferred := true } else { s with tag := true, curDef := false })

/-- Record of Table 20-5. -/
def SampleRec.bytes (r : SampleRec) (now : Raw) (engine : Nat) (deferred : Bool) : List Byte :=
  leBytes 8 now.toNat ++ leBytes 2 engine ++ leBytes 2 r.routine ++ leBytes 4 r.pc.toNat
    ++ ((List.range 6).map (fun i => leBytes 2 (min 0xFFFF (nth r.cycles i)))).flatten
    ++ leBytes 1 (b2n deferred + 2 * b2n r.conflict) ++ zeroBytes 3

/-- SAMPLE_RETIRE (R475): the record of a tagged instruction, or a dropped one where the ring is full. -/
def Dev.opSampleRetire (d : Dev) (engine : Nat) (r : SampleRec) : Dev :=
  match mget d.cnt.samp engine with
  | none => d
  | some s =>
    if !s.tag || !d.tileRun (engine / 32) then d
    else
      let d := d.updSamp engine (fun s => { s with tag := s.deferred, curDef := s.deferred, deferred := false })
      match ringPut d.cnt.smp (d.reg 0x1008) (SampleRec.bytes r d.now engine s.curDef) with
      | some (ring, os) => { d with cnt := { d.cnt with smp := ring }, out := os.reverse ++ d.out }
      | none => { d with cnt := { d.cnt with smpLost := min 0xFFFF (d.cnt.smpLost + 1) } }

/-! ## Snapshots (R364, R412, R471) -/

/-- Completes the jobs of a kind on an object with a count in their detail (Table 15-3). -/
def Dev.completeDetail (d : Dev) (k : JobKind) (obj st : Nat) (body : List Byte) (applied : Nat) : Dev :=
  let js := d.jobsOf k obj
  let d : Dev := { d with host := { d.host with jobs := d.host.jobs.filter (fun j => !(j.kind = k && j.obj = obj)) } }
  js.foldl (fun d j => d.completeJob j st body applied) d

/-- Area that the next snapshot goes to: the one that does not hold the newest complete one; 1 A, 2 B. -/
def CntState.nextArea (c : CntState) : Nat := if c.newest = 1 then 2 else 1
def CntState.area (c : CntState) (n : Nat) : SnapArea := if n = 2 then c.areaB else c.areaA

/-- The copy of every tile in RUN; the block of a tile that is not keeps what the area held (R471). -/
def Dev.snapCopy (d : Dev) (j : SnapJob) (late : Bool) : SnapArea :=
  let old := d.cnt.area d.cnt.nextArea
  let run (k : Nat) : Bool := d.tileRun (d.cntTile k)
  let kept := old.vals.filter (fun e => !run e.1)
  { id := j.id % 2 ^ 32, atT := j.atT, late := late, join := j.join, periodic := j.periodic,
    mask := (d.tileList.filter d.tileRun).foldl (fun m t => m + 2 ^ t) 0,
    vals := kept.foldl (fun m e => mput m e.1 e.2) (d.cnt.vals.filter (fun e => run e.1)),
    pm := (d.terms.map (fun e => (e.1, e.2.pm.current))) ++ (List.range d.nTrees).map (fun t => (pmTree t, (d.tree t).pm.current)) }

/-- Takes a snapshot now: every counter is copied and the write of its area begins; while an earlier copy is being written it
waits and is late. -/
def Dev.capture (d : Dev) (j : SnapJob) (late : Bool) : Dev :=
  let d := if late && j.join then d.count .snapshotLate 0 else d
  if d.cnt.writing.isSome then { d with cnt := { d.cnt with queued := d.cnt.queued ++ [j] } }
  else
    { d with
      cnt := { d.cnt with writing := some (d.snapCopy j late) },
      host := { d.host with gens := addNth d.host.gens d.cnt.nextArea 1 } }

/-- Marks a snapshot as taken. -/
def Dev.snapTaken (d : Dev) (id : Nat) : Dev :=
  { d with join := { d.join with snaps := d.join.snaps.map (fun j => if j.id = id then { j with taken := true } else j) } }

/-- SNAPSHOT_INSTANT (R412, R471). -/
def Dev.opSnapshotInstant (d : Dev) (id : Nat) : Dev :=
  match d.join.snaps.find? (fun j => j.id = id && !j.taken && (id ≠ 0)) with
  | none => d
  | some j => if !d.ready then d else ((d.advanceTo j.raw).capture j j.late).snapTaken id

/-- Members of the joined system, this device alone while no list is set. -/
def Dev.memberList (d : Dev) : List Nat := d.join.members.getD [d.join.ownId]

/-- A snapshot whose SNAPSHOT_DONE has arrived from every member completes with ST_OK (R412). -/
def Dev.snapCheck (d : Dev) (id : Nat) : Dev :=
  match d.join.snaps.find? (fun j => j.id = id) with
  | none => d
  | some j =>
    if j.job = 0 then
      if j.taken then { d with join := { d.join with snaps := d.join.snaps.filter (fun x => x.id ≠ id) } } else d
    else if d.memberList.all j.done.contains then
      Dev.complete { d with join := { d.join with snaps := d.join.snaps.filter (fun x => x.id ≠ id) } } .snapshot j.job stOk (leBytes 4 id)
    else d

/-- SNAPSHOT_DONE from a member is noted where this device asked for the snapshot. -/
def Dev.snapDone (d : Dev) (id src : Nat) : Dev :=
  Dev.snapCheck { d with join := { d.join with snaps := d.join.snaps.map (fun j => if j.id = id then { j with done := addUniq j.done src } else j) } } id

/-- SNAPSHOT_WRITE_DONE (R364, R471): the area is complete and its generation even; a joined snapshot is reported, and a copy that
waited is taken. -/
def Dev.opSnapshotWriteDone (d : Dev) : Dev :=
  match d.cnt.writing with
  | none => d
  | some a =>
    let n := d.cnt.nextArea
    let d : Dev := { d with
      cnt := { (if n = 2 then { d.cnt with areaB := a } else { d.cnt with areaA := a }) with newest := n, writing := none },
      host := { d.host with gens := addNth d.host.gens n 1, areaAt := mput d.host.areaAt n (d.frame, d.netNs) } }
    let d := if a.join then (d.sysSend d.treeLinks 0x15 0xFFFF true true [(a.id : Int)]).snapDone a.id d.join.ownId
      else if localSnap ≤ a.id then
        Dev.complete { d with join := { d.join with snaps := d.join.snaps.filter (fun j => j.id ≠ a.id) } } .cntSnapshot a.id stOk (leBytes 4 a.id)
      else d
    match d.cnt.queued with
    | [] => d
    | j :: js => Dev.capture { d with cnt := { d.cnt with queued := js } } j true

/-! ## Meanings -/

/-- CMD_CNT_READ (R463). -/
def execCmdCntRead (p : Packet) (s : State) : Host.Outcome State Fault Refusal := live (Dev.runCommand specCntRead p) s

/-- CMD_CNT_WRITE (R467). -/
def execCmdCntWrite (p : Packet) (s : State) : Host.Outcome State Fault Refusal := live (Dev.runCommand specCntWrite p) s

/-- CMD_CNT_THRESHOLD (R468). -/
def execCmdCntThreshold (p : Packet) (s : State) : Host.Outcome State Fault Refusal := live (Dev.runCommand specCntThreshold p) s

/-- CMD_CNT_WINDOW (R472). -/
def execCmdCntWindow (p : Packet) (s : State) : Host.Outcome State Fault Refusal := live (Dev.runCommand specCntWindow p) s

/-- CMD_CNT_SAMPLE (R474). -/
def execCmdCntSample (p : Packet) (s : State) : Host.Outcome State Fault Refusal := live (Dev.runCommand specCntSample p) s

/-- SNAPSHOT_INSTANT (R471). -/
def execSnapshotInstant (id : Nat) (s : State) : Host.Outcome State Fault Refusal :=
  live (fun d => d.opSnapshotInstant id) s

/-- SNAPSHOT_WRITE_DONE (R471). -/
def execSnapshotWriteDone (s : State) : Host.Outcome State Fault Refusal :=
  live (fun d => d.opSnapshotWriteDone) s

/-- BANDWIDTH_WINDOW_CLOSE (R472). -/
def execBandwidthWindowClose (key : Nat) (s : State) : Host.Outcome State Fault Refusal :=
  live (fun d => d.opBandwidthWindowClose key) s

/-- SAMPLE_INTERVAL_EXPIRY (R474). -/
def execSampleIntervalExpiry (engine : Nat) (s : State) : Host.Outcome State Fault Refusal :=
  live (fun d => d.opSampleIntervalExpiry engine) s

/-- SAMPLE_RETIRE (R475). -/
def execSampleRetire (engine : Nat) (r : SampleRec) (s : State) : Host.Outcome State Fault Refusal :=
  live (fun d => d.opSampleRetire engine r) s

end Sys2Proof.Machine
end

