-- ==== Sys2Proof/Machine/Join.lean ====
section
/-!
DEFINITION. Joined systems: forming and re-forming the tree, link delay and time, operation time, broadcasts, barriers, snapshots
and group resets (chapter 16). BARRIER_EXECUTE, CMD_JOIN_BARRIER, COMMAND and REPLY, which run command packets, stand in
Mailbox.lean.
-/

namespace Sys2Proof.Machine

/-! ## HELLO (R403 to R405, R414) -/

/-- Lowest detached system ID this device knows: its own and those of its detached neighbours. -/
def Dev.lowKnown (d : Dev) : Nat :=
  sysPorts.foldl (fun m p => let x := d.sysPort p; if d.portUsable p && x.role = .standby && !x.pJoined then min m x.pLow else m) d.join.ownId

/-- A HELLO on a link to a listed partner. -/
def Dev.helloOn (d : Dev) (m : SysHdr) (h : HelloBody) : Dev :=
  let p := m.port
  let was := (d.sysPort p).pJoined
  let d := d.updSysPort p (fun x => { x with
    role := if x.role = .down || x.role = .refused then .standby else x.role, partner := m.src, pJoined := h.attached,
    pRoot := m.root, pHops := m.hops, pSum := h.sum, pLow := h.low, pDeep := h.deepest, helloAt := d.now, miss := 0 })
  let x := d.sysPort p
  let d := match x.role with
    | .parent =>
      if !h.attached then d.detach none false
      else { d with join := { d.join with depth := min 12 (m.hops + 1), root := m.root, sum := x.pathSum } }
    | .child =>
      if (was && !h.attached) || (h.attached && (m.root ≠ d.join.root || m.hops ≠ d.join.depth + 1)) then d.dropLink p
      else Dev.opTimeFresh { d with join := { d.join with below := mput d.join.below p (m.src :: h.belowMembers) } } false
    | .standby =>
      if d.joined && h.attached && m.root < d.join.root then d.detach none true else d
    | _ => d
  if d.join.st ≠ .detached then d
  else
    let d : Dev := { d with join := { d.join with low := d.lowKnown, detachedAt := if h.attached then d.now else d.join.detachedAt } }
    d.chooseParent

/-- HELLO (R404, R405, R414). -/
def Dev.opHello (d : Dev) (m : SysHdr) (h : HelloBody) : Dev :=
  d.sysIn m fun d =>
  match d.join.members with
  | none => d
  | some l =>
    let t := d.sysPortTile m.port
    if m.src = d.join.ownId then
      let d := d.refuseLink m.port m.src
      if d.condHolds 0x0D 0x01 t m.port then d else d.raise 0x0D 0x01 2 t m.port d.join.ownId true
    else
      let d := if d.condHolds 0x0D 0x01 t m.port then d.endCond 0x0D 0x01 t m.port else d
      if !(l.contains m.src && l.contains d.join.ownId && h.bothListed) || 1000000 < (d.sysPort m.port).delay then
        d.refuseLink m.port m.src
      else d.helloOn m h

/-- HELLO_TX (R403): join state, lowest detached ID, root path sum, largest sum of the subtree and member-list digest. -/
def Dev.opHelloTx (d : Dev) (port : Nat) : Dev :=
  match d.join.members with
  | none => d
  | some l =>
    if !d.ready then d
    else d.sysSend [port] 0x01 0xFFFF false false
      [((b2n d.joined : Nat) : Int), ((if d.joined then 0xFFFF else d.join.low : Nat) : Int), (d.join.sum : Int), (d.deepest : Int), (Config.memberDigest l : Int)]

/-- HELLO_MISS (R414): three consecutive HELLOs fail to arrive. -/
def Dev.opHelloMiss (d : Dev) (port : Nat) : Dev :=
  let x := d.sysPort port
  if !d.ready || x.role = .down then d
  else
    let d := d.advanceTo (x.helloAt + rawUs 300)
    (d.dropLink port).updSysPort port (fun x => { x with role := .down, pJoined := false, asked := false, miss := 3 })

/-! ## Link delay (R406) -/

/-- Middle of a list of 16 numbers: the mean of the eighth and the ninth, rounded down. -/
def median16 (l : List Int) : Int :=
  let s := l.foldr (fun x acc => acc.takeWhile (fun y => y < x) ++ x :: acc.dropWhile (fun y => y < x)) []
  (s.getD 7 0 + s.getD 8 0) / 2

/-- A measurement of a link's delay: the first and one that differs by more than 1 µs replace the held delay; smaller differences
are averaged over 16 measurements. A delay above 1,000 µs refuses the link. -/
def Dev.delayMeasured (d : Dev) (p : Nat) (m : Int) : Dev :=
  let x := d.sysPort p
  let fresh := !x.measured || 1000 < (m - x.delay).natAbs
  let avg := if fresh then [m] else (m :: x.avg).take 16
  let held := (avg.foldl (· + ·) 0 / (avg.length : Int)).toNat
  let d := d.updSysPort p (fun x => { x with measured := true, avg := avg, delay := held, t1 := none })
  if 1000000 < held then d.refuseLink p x.partner
  else
    let d := if x.role = .parent then { d with join := { d.join with sum := (d.sysPort p).pathSum } } else d
    (d.opTimeFresh false).chooseParent

/-- DELAY_REQ (R406): answered with the stamps of its arrival and of the answer's departure. -/
def Dev.opDelayReq (d : Dev) (m : SysHdr) (t1 : BitVec 64) : Dev :=
  d.sysIn m fun d => d.sysSend [m.port] 0x03 m.src false false [(t1.toNat : Int), (d.now.toNat : Int), (d.now.toNat : Int)]

/-- DELAY_RESP (R406): one exchange; the sixteenth gives the measurement. -/
def Dev.opDelayResp (d : Dev) (m : SysHdr) (t1 t2 t3 : BitVec 64) : Dev :=
  d.sysIn m fun d =>
  let x := d.sysPort m.port
  if x.t1 ≠ some t1 then d
  else
    let e := ((d.now - t1).toInt - (t3 - t2).toInt) / 131072 + x.asym
    let ds := x.delays ++ [e]
    let d := d.updSysPort m.port (fun x => { x with delays := ds })
    if ds.length < 16 then d.sendDelayReq m.port else d.delayMeasured m.port (median16 ds)

/-- DELAY_MEASURE_TICK (R406). -/
def Dev.opDelayMeasureTick (d : Dev) (port : Nat) : Dev := if d.ready && d.portUsable port then d.measureLink port else d

/-! ## Attaching (R405) -/

/-- ATTACH (R405): a joined device takes a child while it has fewer than three, down to hop count 12. -/
def Dev.opAttach (d : Dev) (m : SysHdr) : Dev :=
  d.sysIn m fun d =>
  let r := (d.sysPort m.port).role
  if !d.joined || !(r = .standby || r = .child) || 12 ≤ d.join.depth || 3 ≤ (d.children.filter (· ≠ m.port)).length then d
  else
    let d := d.updSysPort m.port (fun x => { x with role := .child, pJoined := false })
    let d : Dev := { d with join := { d.join with below := mput d.join.below m.port [m.src] } }
    (d.sysSend [m.port] 0x05 m.src false true []).opTimeFresh true

/-- ATTACH_ACK (R405): the device is ATTACHED; the link is its PARENT. -/
def Dev.opAttachAck (d : Dev) (m : SysHdr) : Dev :=
  d.sysIn m fun d =>
  let x := d.sysPort m.port
  if d.join.st ≠ .detached || !x.asked || x.role ≠ .standby then d
  else
    let d := d.updSysPort m.port (fun x => { x with role := .parent, asked := false })
    Dev.formed { d with join := { d.join with
      st := .attached, parent := m.port, depth := min 12 (m.hops + 1), root := m.root % 512, sum := x.pathSum, low := 0xFFFF } }

/-- DETACH (R414): this device and its subtree are detached. -/
def Dev.opDetach (d : Dev) (m : SysHdr) : Dev :=
  d.treeIn m fun d =>
  if (d.sysPort m.port).role = .parent then (d.detach (some m.port) false).chooseParent else (d.detach (some m.port) true).chooseParent

/-- REGION_ROOT_TIMEOUT (R414): 2 ms without an attached neighbour and the lowest detached ID of the region. -/
def Dev.opRegionRootTimeout (d : Dev) : Dev :=
  if !d.ready || d.join.st ≠ .detached then d
  else
    let seen := sysPorts.any (fun p => let x := d.sysPort p; d.portUsable p && x.role = .standby && x.pJoined)
    if seen || d.lowKnown ≠ d.join.ownId then d
    else
      let d := d.advanceTo (d.join.detachedAt + rawMs 2)
      let d : Dev := { d with join := { d.join with st := .root, depth := 0, root := d.join.ownId, sum := 0, low := 0xFFFF, nMembers := 1, tOp := tOpOf 0 } }
      (Dev.retime { d with time := { d.time with sysOk := false } }).formed

/-! ## Time and T_op (R407, R408) -/

/-- TIME (R407): the network time of arrival is the parent's departure time plus the link delay. -/
def Dev.opTime (d : Dev) (m : SysHdr) (departNs : Int) : Dev :=
  d.sysIn m fun d =>
  let x := d.sysPort m.port
  if d.join.st ≠ .attached || x.role ≠ .parent then d
  else (Dev.retime { d with time := { d.time with sysOk := true } }).measure 2 (stamp100 d.netU - 10 * (departNs + x.delay))

/-- TIME_MSG_TX (R407): parent to child. -/
def Dev.opTimeMsgTx (d : Dev) (port : Nat) : Dev :=
  if !d.ready || !d.joined || (d.sysPort port).role ≠ .child then d
  else d.sysSend [port] 0x07 (d.sysPort port).partner false true [d.netNs]

/-- OP_TIME (R408): taken from the parent and passed on to the children. -/
def Dev.opOpTime (d : Dev) (m : SysHdr) (tOp members : Nat) : Dev :=
  d.treeIn m fun d =>
  if (d.sysPort m.port).role ≠ .parent then d
  else
    let d : Dev := { d with join := { d.join with tOp := tOp, nMembers := members } }
    d.sysPass d.children 0x08 m [(tOp : Int), (members : Int)]

/-! ## Broadcasts (R409) -/

/-- Body of a broadcast: kind, then the records of a batch with their profiles, or the message. -/
def bcastBytes (b : BroadcastBody) : List Byte :=
  leBytes 1 b.kind ++ (b.records.map (fun r => leBytes 1 r.1 ++ r.2)).flatten ++ b.body

/-- A host message reaches channel 0 (R416, R506). -/
def Dev.hostMessage (d : Dev) (src : Nat) (msg : List Byte) : Dev := d.notify 0x8B81 0 (leBytes 2 src ++ leBytes 2 msg.length ++ msg)

/-- What a broadcast does where it is delivered: reports to follow-me, host messages to channel 0. -/
def Dev.bcastDeliver (d : Dev) (src : Nat) (b : BroadcastBody) : Dev :=
  if b.kind = 1 then b.records.foldl (fun d r => d.opRemoteReportRx r.2 r.1) d
  else if b.kind = 3 then d.hostMessage src b.body
  else d

/-- Sends a broadcast on every tree link. -/
def Dev.bcastSend (d : Dev) (b : BroadcastBody) : Dev :=
  let n := (d.join.bcastSeq + 1) % 2 ^ 32
  let young := d.join.inflight.filter (fun t => (d.now - t).toNat < (rawNs d.join.tOp).toNat)
  let d : Dev := { d with join := { d.join with bcastSeq := n, inflight := d.now :: young } }
  ((d.treeLinks.filter d.portUsable).foldl (fun d p => (d.emit (.sysBytes p 0x10 0xFFFF n (bcastBytes b))).count .msgTx p) d).count .bcastTx 0

/-- BROADCAST (R409): delivered once and forwarded on every tree link except the one it arrived on. -/
def Dev.opBroadcast (d : Dev) (m : SysHdr) (b : BroadcastBody) : Dev :=
  d.treeIn m fun d =>
  if m.src = d.join.ownId || d.join.seen.contains (m.src, m.seq) then d.count .bcastDup 0
  else
    let d : Dev := { d with join := { d.join with seen := (m.src, m.seq) :: d.join.seen } }
    let d := ((d.treeLinks.filter (fun p => p ≠ m.port && d.portUsable p)).foldl
      (fun d p => (d.emit (.sysBytes p 0x10 m.dst m.seq (bcastBytes b))).count .msgTx p) d).count .bcastRx 0
    d.bcastDeliver m.src b

/-- Profile number of a train's slot (R249). -/
def Dev.profileOf (d : Dev) (train : Nat) : Nat := match d.fm.trains.find? (fun e => e.2.train = train) with | some e => e.2.profile | none => d.defaultProfile

/-- POSITION_BATCH_FLUSH (R409): at most 1 ms after the first report, up to 112 records a message. -/
def Dev.opPositionBatchFlush (d : Dev) : Dev :=
  if !d.ready || d.join.batch.isEmpty then d
  else
    let d := if 112 ≤ d.join.batch.length then d else d.advanceTo (d.join.batchAt + rawMs 1)
    let rs := d.join.batch.take 112
    let d : Dev := { d with join := { d.join with batch := d.join.batch.drop 112, batchAt := d.now } }
    if d.joined then d.bcastSend { kind := 1, records := rs.map (fun r => (d.profileOf r.train, r.bytes)) } else d

/-! ## Barriers (R410, R411) -/

/-- Members a participant set stands for. -/
def Dev.partSet (d : Dev) (s : Option (List Nat)) : List Nat := s.getD d.memberList

/-- Whether two participant sets are the same set of members. -/
def Dev.samePart (d : Dev) (a b : Option (List Nat)) : Bool :=
  (d.partSet a).all (d.partSet b).contains && (d.partSet b).all (d.partSet a).contains

/-- Values that a barrier message carries: number, participants (-1 for every member), -2, arrivals, -2, timeout, release. -/
def barrierVals (b : BarrierBody) : List Int :=
  [(b.n : Int)] ++ (match b.parts with | none => [-1] | some l => l.map (fun (i : Nat) => (i : Int))) ++ [-2]
    ++ b.arrived.map (fun (i : Nat) => (i : Int)) ++ [-2, (b.timeoutMs : Int), b.release]

/-- The release instant is known here: participants that entered keep the barrier until it, the others close it. -/
def Dev.barrierReleased (d : Dev) (n : Nat) (t : Int) : Dev :=
  match mget d.join.barriers n with
  | none => d
  | some b =>
    if b.job = 0 then { d with join := { d.join with barriers := mdel d.join.barriers n } }
    else { d with join := { d.join with barriers := mput d.join.barriers n { b with release := some t, raw := d.rawOfNs t } } }

/-- After arrivals were merged: the root releases a complete barrier, another device passes the merged arrival upward. -/
def Dev.barrierUp (d : Dev) (n : Nat) : Dev :=
  match mget d.join.barriers n with
  | none => d
  | some b =>
    if b.release.isSome then d
    else if d.join.st = .root then
      if (d.partSet b.set).all b.arrived.contains then
        let t := d.netNs + d.join.tOp
        (d.sysSend d.children 0x12 0xFFFF false true (barrierVals { n := n, parts := b.set, arrived := b.arrived, timeoutMs := b.timeoutMs, release := t })).barrierReleased n t
      else d
    else d.sysSend d.parents 0x11 0xFFFF true false (barrierVals { n := n, parts := b.set, arrived := b.arrived, timeoutMs := b.timeoutMs })

/-- Merges arrivals into a barrier, opening it where it is not open. -/
def Dev.barrierMerge (d : Dev) (n : Nat) (set : Option (List Nat)) (timeoutMs : Nat) (arrived : List Nat) : Dev :=
  let b := match mget d.join.barriers n with
    | some b => b
    | none => { set := set, timeoutMs := timeoutMs, firstAt := d.now }
  let b := { b with arrived := arrived.foldl insSorted b.arrived }
  ({ d with join := { d.join with barriers := mput d.join.barriers n b } } : Dev).barrierUp n

/-- BARRIER_ARRIVE (R410, R411): merged and passed upward; at the root an arrival with another participant set aborts. -/
def Dev.opBarrierArrive (d : Dev) (m : SysHdr) (b : BarrierBody) : Dev :=
  d.treeIn m fun d =>
  if (d.sysPort m.port).role ≠ .child || 64 ≤ b.n then d
  else match mget d.join.barriers b.n with
    | some x =>
      if d.samePart x.set b.parts then d.barrierMerge b.n b.parts b.timeoutMs b.arrived
      else if d.join.st = .root then d.barrierAbortDown b.n stBadParam
      else d.sysPass d.parents 0x11 m (barrierVals b)
    | none => d.barrierMerge b.n b.parts b.timeoutMs b.arrived

/-- BARRIER_RELEASE (R410): passed to the subtree; it sets the instant here. -/
def Dev.opBarrierRelease (d : Dev) (m : SysHdr) (b : BarrierBody) : Dev :=
  d.treeIn m fun d =>
  if (d.sysPort m.port).role ≠ .parent then d
  else (d.sysPass d.children 0x12 m (barrierVals b)).barrierReleased b.n b.release

/-- BARRIER_ABORT (R411): passed to the subtree; every entrant's completion carries the status. -/
def Dev.opBarrierAbort (d : Dev) (m : SysHdr) (n status : Nat) : Dev :=
  d.treeIn m fun d =>
  if (d.sysPort m.port).role ≠ .parent then d
  else (d.sysPass d.children 0x13 m [(n : Int), (status : Int)]).barrierDrop n status

/-- BARRIER_TIMEOUT (R411): at the root, the timeout from the first arrival. -/
def Dev.opBarrierTimeout (d : Dev) (n : Nat) : Dev :=
  match mget d.join.barriers n with
  | none => d
  | some b =>
    if !d.ready || d.join.st ≠ .root || b.release.isSome then d
    else (d.advanceTo (b.firstAt + rawMs b.timeoutMs)).barrierAbortDown n stTimeout

/-! ## Snapshots (R412) -/

/-- Instant as the two values a message carries. -/
def Dev.snapSchedule (d : Dev) (id : Nat) (t : Int) : Dev :=
  let raw := d.rawOfNs t
  let late := reached d.now raw && decide (t < d.netNs)
  let snaps := if d.join.snaps.any (fun j => j.id = 0 && j.atT = t) then
      d.join.snaps.map (fun j => if j.id = 0 && j.atT = t then { j with id := id, late := late } else j)
    else d.join.snaps ++ [{ id := id, atT := t, raw := raw, join := true, late := late }]
  let d : Dev := { d with join := { d.join with snaps := snaps } }
  if late then
    match d.join.snaps.find? (fun j => j.id = id) with
    | some j => (d.capture j true).snapTaken id
    | none => d
  else d

/-- The root gives a snapshot its ID and asks every member (R412). -/
def Dev.snapAsk (d : Dev) (t : Int) : Dev :=
  let id := d.join.snapNo
  let d : Dev := { d with join := { d.join with snapNo := d.join.snapNo + 1 } }
  (d.sysSend d.children 0x14 0xFFFF false true [(id : Int), t]).snapSchedule id t

/-- SNAPSHOT_REQ (R412): upward it travels without an ID to the root; downward it schedules the capture here and below. -/
def Dev.opSnapshotReq (d : Dev) (m : SysHdr) (id : Nat) (at_ : Int) : Dev :=
  d.treeIn m fun d =>
  if (d.sysPort m.port).role = .parent then (d.sysPass d.children 0x14 m [(id : Int), at_]).snapSchedule id at_
  else if d.join.st = .root then d.snapAsk at_
  else d.sysPass d.parents 0x14 m [(id : Int), at_]

/-- SNAPSHOT_DONE (R412): passed along the tree and noted where the snapshot was asked for. -/
def Dev.opSnapshotDone (d : Dev) (m : SysHdr) (id : Nat) : Dev :=
  d.treeIn m fun d => (d.sysPass (d.treeLinks.filter (· ≠ m.port)) 0x15 m [(id : Int)]).snapDone id m.src

/-- SNAPSHOT_TIMEOUT (R412): T + T_op + 100 ms; the detail gives the number of members missing. -/
def Dev.opSnapshotTimeout (d : Dev) (id : Nat) : Dev :=
  match d.join.snaps.find? (fun j => j.id = id && j.join && j.job ≠ 0) with
  | none => d
  | some j =>
    if !d.ready then d
    else
      let d := d.advanceTo j.deadline
      let missing := (d.memberList.filter (fun i => !j.done.contains i)).length
      Dev.completeDetail { d with join := { d.join with snaps := d.join.snaps.map (fun x => if x.id = id then { x with job := 0 } else x) } }
        .snapshot j.job stTimeout (leBytes 4 id) missing

/-! ## Group resets (R413, R438) -/

/-- Trees of this device in a protection group. -/
def Dev.groupTrees (d : Dev) (g : Nat) : List Nat := (d.groups.filter (fun e => e.2.gid = g)).map (fun e => e.1)

/-- Member devices of a group as far as this device knows them; none where it has no tree in it. -/
def Dev.groupMembers (d : Dev) (g : Nat) : Option (List Nat) :=
  match d.groups.find? (fun e => e.2.gid = g) with
  | none => none
  | some (_, x) => some (if x.tiles then [d.join.ownId] else [d.join.ownId, x.pSys])

/-- A member device has reported: the command completes once every one has. -/
def Dev.groupDone (d : Dev) (g src : Nat) : Dev :=
  let d : Dev := { d with join := { d.join with resets := d.join.resets.map (fun r => if r.group = g then { r with done := addUniq r.done src } else r) } }
  match d.join.resets.find? (fun r => r.group = g) with
  | none => d
  | some r =>
    let all := match d.groupMembers g with | some l => l.all r.done.contains | none => 2 ≤ r.done.length
    let gone (d : Dev) : Dev := { d with join := { d.join with resets := d.join.resets.filter (fun x => x.group ≠ g) } }
    if r.job ≠ 0 && all then (gone d).complete .groupReset g stOk
    else if r.job = 0 && r.applied then gone d
    else d

/-- Schedules a group reset where this device has trees in the group. -/
def Dev.groupSchedule (d : Dev) (g : Nat) (t : Int) (job src : Nat) : Dev :=
  if job = 0 && d.groupTrees g = [] then d
  else
    let r : GroupReset := { group := g, atT := t, job := job, raw := d.rawOfNs t, from_ := src }
    { d with join := { d.join with resets := (d.join.resets.filter (fun x => x.group ≠ g)) ++ [r] } }

/-- GROUP_RESET (R413): passed along the tree; a member device of the group schedules it. -/
def Dev.opGroupReset (d : Dev) (m : SysHdr) (group : Nat) (at_ : Int) : Dev :=
  d.treeIn m fun d => (d.sysPass (d.treeLinks.filter (· ≠ m.port)) 0x16 m [(group : Int), at_]).groupSchedule group at_ 0 m.src

/-- Function reset of one tree of a group at its instant: the lease is released, the tree stays dark, its lane restarts and its
channels are ENABLING again (R65, R438). -/
def Dev.groupResetTree (d : Dev) (t : Nat) : Dev :=
  let d := (d.releaseTree t).updGroup t (fun g => { g with darkHold := true, handover := false, pHolds := false })
  let on := (treeChans t).filter (fun c => (d.chan c).st = .enabling || (d.chan c).st = .enabled)
  let d := (treeChans t).foldl (fun d c => if (d.chan c).st = .disabled then d else d.resetChan c) d
  let d := on.foldl (fun d c =>
    let cancel := (d.chan c).disableAt
    (d.chanEnabling c).updChan c (fun x => { x with disableAt := cancel })) d
  if d.laneLive (tileOfTree t) (t % 8) && d.laneFn (tileOfTree t) (t % 8) then d.laneRestart (tileOfTree t) (t % 8) else d

/-- GROUP_RESET_INSTANT (R413, R438). For a reset applied here whose reports are still missing it is the end of the wait of R412:
ST_TIMEOUT with the number missing (log 33). -/
def Dev.opGroupResetInstant (d : Dev) (group : Nat) : Dev :=
  match d.join.resets.find? (fun r => r.group = group) with
  | none => d
  | some r =>
    if !d.ready then d
    else if r.applied then
      if r.job = 0 then d
      else
        let d := d.advanceTo (r.raw + rawNs d.join.tOp + rawMs 100)
        let missing := (((d.groupMembers group).getD [0, 1]).length) - r.done.length
        Dev.completeDetail { d with join := { d.join with resets := d.join.resets.filter (fun x => x.group ≠ group) } } .groupReset group stTimeout [] missing
    else
      let d := d.advanceTo r.raw
      let ts := (d.groupTrees group).filter (fun t => d.tileRun (tileOfTree t))
      let d := ts.foldl Dev.groupResetTree d
      let d : Dev := { d with join := { d.join with resets := d.join.resets.map (fun x => if x.group = group then { x with applied := true } else x) } }
      if (d.groupTrees group).isEmpty then d
      else (d.sysSend d.treeLinks 0x17 0xFFFF true true [(group : Int)]).groupDone group d.join.ownId

/-- GROUP_RESET_DONE (R413). -/
def Dev.opGroupResetDone (d : Dev) (m : SysHdr) (group : Nat) : Dev :=
  d.treeIn m fun d => (d.sysPass (d.treeLinks.filter (· ≠ m.port)) 0x17 m [(group : Int)]).groupDone group m.src

/-! ## Commands of class 0x0B -/

/-- Numbers whose bit is set in a bitmap of `n` bytes at an offset. -/
def Cmd.bitmap (c : Cmd) (ofs n : Nat) : List Nat := (List.range (8 * n)).filter (fun i => c.bit (ofs + i / 8) (i % 8))

/-- Applies the enables of the system ports. -/
def Dev.enablePort (d : Dev) (p : Nat) (on : Bool) (asym : Int) : Dev :=
  let was := (d.sysPort p).en
  let d := if was && !on then d.portDown p else d
  let d := d.updSysPort p (fun x => { x with en := on, asym := asym })
  let t := d.sysPortTile p
  let l := d.sysPortLane p
  if !was && on && d.laneLive t l && d.laneRole t l = 1 then
    (if (d.lane t l).neg = .up then d.portUp p else d.laneWake t l)
  else d

/-- System ID, port enables, member bitmap, asymmetry of each port, peer of each channel 48-63 or 0xFFFF (log 15). -/
def bodyJoinConfig (c : Cmd) (d : Dev) : Res :=
  let own := c.u16 0
  let asym (p : Nat) : Int := signedOf 16 (c.u16 (68 + 2 * p))
  let ms := c.bitmap 3 64
  let members : Option (List Nat) := if ms.isEmpty then none else some ms
  let peers := (List.range 16).filterMap (fun i => let x := c.u16 (76 + 2 * i); if x = 0xFFFF then none else some (48 + i, x))
  if 511 < own then d.fail stRange (ofsP 0)
  else if sysPorts.any (fun p => asym p < -1000 || 1000 < asym p) then d.fail stRange (ofsP 68)
  else if peers.any (fun e => 511 < e.2) then d.fail stRange (ofsP 76)
  else if sysPorts.any (fun p => ((d.sysPort p).en ≠ c.bit 2 p || (d.sysPort p).asym ≠ asym p) && d.notRun (d.sysPortTile p)) then d.fail stState
  else
    let changed := own ≠ d.join.ownId || members ≠ d.join.members
    let d := if changed then d.detach none false else d
    let st : JoinSt := if members.isNone then .alone else if changed || d.join.st = .alone then .detached else d.join.st
    let begun := st = .detached && changed
    let d : Dev := { d with join := { d.join with
      ownId := own, members := members, peers := peers, st := st, low := if begun then own else d.join.low,
      detachedAt := if begun then d.now else d.join.detachedAt } }
    Dev.ok (sysPorts.foldl (fun d p => d.enablePort p (c.bit 2 p) (asym p)) d)

/-- CMD_JOIN_CONFIG (R404, R406, R416). -/
def specJoinConfig : CmdSpec := { op := 0x0B01, crit := true, lenOk := lenIs 108, body := bodyJoinConfig }

/-- Number of a join state, of a port role. -/
def JoinSt.code : JoinSt → Nat
  | .alone => 0 | .detached => 1 | .attached => 2 | .root => 3
def PortRole.code : PortRole → Nat
  | .down => 0 | .parent => 1 | .child => 2 | .standby => 3 | .refused => 4

/-- Words of SYS_STATUS, SYS_OP_TIME, SYS_OP_TIME_NS and SYS_PORT_STATUS. -/
def Dev.sysStatus (d : Dev) : Nat :=
  d.join.st.code * 2 ^ 29 + d.join.depth % 16 * 2 ^ 25 + d.join.parent % 4 * 2 ^ 23 + d.join.root % 512 * 2 ^ 9 + d.join.ownId % 512
def Dev.sysOpTime (d : Dev) : Nat := d.join.nMembers % 1024
def Dev.sysOpTimeNs (d : Dev) : Nat := d.join.tOp % 2 ^ 32
def Dev.sysPortStatus (d : Dev) (p : Nat) : Nat :=
  let x := d.sysPort p
  x.role.code * 2 ^ 29 + x.partner % 512 * 2 ^ 20 + (if x.role = .down then 0 else min x.delay 0xFFFFF)

/-- The words of SYS_STATUS, SYS_OP_TIME, SYS_OP_TIME_NS and the four SYS_PORT_STATUS (log 15). -/
def bodyJoinStatus (_ : Cmd) (d : Dev) : Res :=
  d.ok (leBytes 4 d.sysStatus ++ leBytes 4 d.sysOpTime ++ leBytes 4 d.sysOpTimeNs ++ (sysPorts.map (fun p => leBytes 4 (d.sysPortStatus p))).flatten)

/-- CMD_JOIN_STATUS (R408). -/
def specJoinStatus : CmdSpec := { op := 0x0B02, lenOk := lenIs 0, body := bodyJoinStatus }

/-- Instant (seconds, ns), 0 for the next one possible (log 15). -/
def bodyJoinSnapshot (c : Cmd) (d : Dev) : Res :=
  if !d.joined then d.fail stState
  else match d.snapInstant (c.u64 0 % 2 ^ 48) (c.u32 8) with
    | .error st => d.fail st (ofsP 0)
    | .ok t =>
      let job := localSnap + d.join.snapNo
      let j : SnapJob := { id := 0, atT := t, raw := d.rawOfNs t, job := job, deadline := d.rawOfNs t + rawNs (d.join.tOp + 100000000), join := true }
      let d : Dev := { d with join := { d.join with snaps := d.join.snaps ++ [j], snapNo := d.join.snapNo + 1 } }
      Dev.accepted (if d.join.st = .root then d.snapAsk t else d.sysSend d.parents 0x14 0xFFFF true false [0, t]) stAccepted .snapshot job

/-- CMD_JOIN_SNAPSHOT (R412). -/
def specJoinSnapshot : CmdSpec := { op := 0x0B04, lenOk := lenIs 12, body := bodyJoinSnapshot }

/-- The message itself (R416). -/
def bodyJoinBroadcast (c : Cmd) (d : Dev) : Res :=
  if 3804 < c.params.length then d.fail stBadLength 10
  else if !d.joined then d.fail stState
  else Dev.ok ((d.bcastSend { kind := 3, body := c.params }).hostMessage d.join.ownId c.params)

/-- CMD_JOIN_BROADCAST (R416). -/
def specJoinBroadcast : CmdSpec := { op := 0x0B05, lenOk := fun _ ps => ps.length ≤ 3804, body := bodyJoinBroadcast }

/-- The first frame boundary at or after a network time, in network-time ns (R133). -/
def Dev.boundaryAt (d : Dev) (t : Int) : Int :=
  let e := d.frameErrorU / 65536
  (t + e + 124999) / 125000 * 125000 - e

/-- The protection group (log 15). -/
def bodyJoinGroupReset (c : Cmd) (d : Dev) : Res :=
  let g := c.u16 0
  if d.join.resets.any (fun r => r.group = g) then d.fail stBusy
  else
    let t := d.boundaryAt (d.netNs + d.join.tOp)
    let d := d.sysSend d.treeLinks 0x16 0xFFFF true true [(g : Int), t]
    Dev.accepted (d.groupSchedule g t 1 d.join.ownId) stAccepted .groupReset g

/-- CMD_JOIN_GROUP_RESET (R413). -/
def specJoinGroupReset : CmdSpec := { op := 0x0B06, crit := true, lenOk := lenIs 4, body := bodyJoinGroupReset }

/-! ## Meanings -/

/-- CMD_JOIN_CONFIG (R404). -/
def execCmdJoinConfig (p : Packet) (s : State) : Host.Outcome State Fault Refusal := live (Dev.runCommand specJoinConfig p) s

/-- CMD_JOIN_STATUS (R404). -/
def execCmdJoinStatus (p : Packet) (s : State) : Host.Outcome State Fault Refusal := live (Dev.runCommand specJoinStatus p) s

/-- CMD_JOIN_SNAPSHOT (R412). -/
def execCmdJoinSnapshot (p : Packet) (s : State) : Host.Outcome State Fault Refusal := live (Dev.runCommand specJoinSnapshot p) s

/-- CMD_JOIN_BROADCAST (R416). -/
def execCmdJoinBroadcast (p : Packet) (s : State) : Host.Outcome State Fault Refusal := live (Dev.runCommand specJoinBroadcast p) s

/-- CMD_JOIN_GROUP_RESET (R413). -/
def execCmdJoinGroupReset (p : Packet) (s : State) : Host.Outcome State Fault Refusal := live (Dev.runCommand specJoinGroupReset p) s

/-- HELLO (R405). -/
def execHello (m : SysHdr) (h : HelloBody) (s : State) : Host.Outcome State Fault Refusal :=
  live (fun d => d.opHello m h) s

/-- HELLO_TX (R403). -/
def execHelloTx (port : Nat) (s : State) : Host.Outcome State Fault Refusal :=
  live (fun d => d.opHelloTx port) s

/-- HELLO_MISS (R414). -/
def execHelloMiss (port : Nat) (s : State) : Host.Outcome State Fault Refusal :=
  live (fun d => d.opHelloMiss port) s

/-- DELAY_REQ (R406). -/
def execDelayReq (m : SysHdr) (t1 : BitVec 64) (s : State) : Host.Outcome State Fault Refusal :=
  live (fun d => d.opDelayReq m t1) s

/-- DELAY_RESP (R406). -/
def execDelayResp (m : SysHdr) (t1 t2 t3 : BitVec 64) (s : State) : Host.Outcome State Fault Refusal :=
  live (fun d => d.opDelayResp m t1 t2 t3) s

/-- DELAY_MEASURE_TICK (R406). -/
def execDelayMeasureTick (port : Nat) (s : State) : Host.Outcome State Fault Refusal :=
  live (fun d => d.opDelayMeasureTick port) s

/-- ATTACH (R405). -/
def execAttach (m : SysHdr) (s : State) : Host.Outcome State Fault Refusal :=
  live (fun d => d.opAttach m) s

/-- ATTACH_ACK (R405). -/
def execAttachAck (m : SysHdr) (s : State) : Host.Outcome State Fault Refusal :=
  live (fun d => d.opAttachAck m) s

/-- DETACH (R414). -/
def execDetach (m : SysHdr) (s : State) : Host.Outcome State Fault Refusal :=
  live (fun d => d.opDetach m) s

/-- REGION_ROOT_TIMEOUT (R414). -/
def execRegionRootTimeout (s : State) : Host.Outcome State Fault Refusal :=
  live (fun d => d.opRegionRootTimeout) s

/-- TIME (R407). -/
def execTime (m : SysHdr) (departNs : Int) (s : State) : Host.Outcome State Fault Refusal :=
  live (fun d => d.opTime m departNs) s

/-- TIME_MSG_TX (R407). -/
def execTimeMsgTx (port : Nat) (s : State) : Host.Outcome State Fault Refusal :=
  live (fun d => d.opTimeMsgTx port) s

/-- OP_TIME (R408). -/
def execOpTime (m : SysHdr) (tOp : Nat) (members : Nat) (s : State) : Host.Outcome State Fault Refusal :=
  live (fun d => d.opOpTime m tOp members) s

/-- BROADCAST (R409). -/
def execBroadcast (m : SysHdr) (b : BroadcastBody) (s : State) : Host.Outcome State Fault Refusal :=
  live (fun d => d.opBroadcast m b) s

/-- POSITION_BATCH_FLUSH (R409). -/
def execPositionBatchFlush (s : State) : Host.Outcome State Fault Refusal :=
  live (fun d => d.opPositionBatchFlush) s

/-- BARRIER_ARRIVE (R410). -/
def execBarrierArrive (m : SysHdr) (b : BarrierBody) (s : State) : Host.Outcome State Fault Refusal :=
  live (fun d => d.opBarrierArrive m b) s

/-- BARRIER_RELEASE (R410). -/
def execBarrierRelease (m : SysHdr) (b : BarrierBody) (s : State) : Host.Outcome State Fault Refusal :=
  live (fun d => d.opBarrierRelease m b) s

/-- BARRIER_ABORT (R411). -/
def execBarrierAbort (m : SysHdr) (n : Nat) (status : Nat) (s : State) : Host.Outcome State Fault Refusal :=
  live (fun d => d.opBarrierAbort m n status) s

/-- BARRIER_TIMEOUT (R411). -/
def execBarrierTimeout (n : Nat) (s : State) : Host.Outcome State Fault Refusal :=
  live (fun d => d.opBarrierTimeout n) s

/-- SNAPSHOT_REQ (R412). -/
def execSnapshotReq (m : SysHdr) (id : Nat) (at_ : Int) (s : State) : Host.Outcome State Fault Refusal :=
  live (fun d => d.opSnapshotReq m id at_) s

/-- SNAPSHOT_DONE (R412). -/
def execSnapshotDone (m : SysHdr) (id : Nat) (s : State) : Host.Outcome State Fault Refusal :=
  live (fun d => d.opSnapshotDone m id) s

/-- SNAPSHOT_TIMEOUT (R412). -/
def execSnapshotTimeout (id : Nat) (s : State) : Host.Outcome State Fault Refusal :=
  live (fun d => d.opSnapshotTimeout id) s

/-- GROUP_RESET (R413). -/
def execGroupReset (m : SysHdr) (group : Nat) (at_ : Int) (s : State) : Host.Outcome State Fault Refusal :=
  live (fun d => d.opGroupReset m group at_) s

/-- GROUP_RESET_INSTANT (R438). -/
def execGroupResetInstant (group : Nat) (s : State) : Host.Outcome State Fault Refusal :=
  live (fun d => d.opGroupResetInstant group) s

/-- GROUP_RESET_DONE (R413). -/
def execGroupResetDone (m : SysHdr) (group : Nat) (s : State) : Host.Outcome State Fault Refusal :=
  live (fun d => d.opGroupResetDone m group) s

end Sys2Proof.Machine
end

