-- ==== Sys2Proof/Machine/Prot.lean ====
section
/-!
DEFINITION. Protection and fail-over: readiness, leases and claims, LEASE messages, SYNC, safety digests, switch causes, and the
discrete inputs that act on them (chapter 17, R58, R59).
-/

namespace Sys2Proof.Machine

/-! ## Readiness (R422) -/

/-- Channels of a tree that are not DISABLED. -/
def Dev.treeOn (d : Dev) (tree : Nat) : List Nat := (treeChans tree).filter (fun ch => (d.chan ch).st != .disabled)

/-- Whether a PROT_REQ_N input is asserted and not ignored as stuck (R58). -/
def Dev.pinOn (d : Dev) (n : Nat) : Bool := let p := mgetD d.pwr.pinProt n {}; p.asserted && !p.ignored

/-- Whether an input of a group's pin_mask requests a switch (R435). -/
def Dev.pinReq (d : Dev) (g : Group) : Bool := [0, 1, 2, 3].any (fun n => g.pins.getLsbD n && d.pinOn n)

/-- Whether the tree lane is UP with frame sync at a generation that carries the group's enabled channels. -/
def Dev.laneReady (d : Dev) (tree : Nat) : Bool :=
  let l := d.lane (tileOfTree tree) (tree % 8)
  l.neg = .up && l.frameSync && !(d.treeOn tree).isEmpty && (d.treeOn tree).all d.laneCarries

/-- Whether the tree's channels are ENABLED on the unit: at least one, and none on its way in or out. -/
def Dev.chansReady (d : Dev) (tree : Nat) : Bool :=
  !(d.treeOn tree).isEmpty && (d.treeOn tree).all (fun ch => (d.chan ch).st = .enabled)

/-- Whether the frame number equals the partner's and the phases agree within 1 µs, as the partner's heartbeats report them. A heartbeat
travels, so the partner's number may lie behind by the frames of its path (log 41). -/
def Dev.frameReady (d : Dev) (g : Group) : Bool :=
  g.claim || g.tiles ||
    ((g.rxSys.isSome || g.rxIn.isSome)
      && (2 ^ 48 - g.pFrame) % 2 ^ 48 ≤ d.join.tOp / 125000 + 1 && (g.pPhase - d.phiU / 65536).natAbs ≤ 1000)

/-- Whether every SYNC that the active unit has reported for at least 10 ms is applied (R431). -/
def Dev.syncReady (d : Dev) (g : Group) : Bool :=
  g.claim || g.tiles || g.syncLag.all (fun t => (d.now - t).toNat < (rawMs 10).toNat)

/-- Whether an F3 or F4 fault affects the tree or its tile. A digest mismatch concerns the pair and keeps neither unit from being
ready, else cause 5 could never be acted on (R436, log 41). -/
def Dev.faultOn (d : Dev) (tree : Nat) : Bool :=
  d.flt.ring.any (fun r => 3 ≤ r.cls && (r.cond || !r.acked) && (r.tile = tileOfTree tree || r.tile = 0xFF) && r.block ≠ 0x0E)

/-- Whether the unit is ready (R422). -/
def Dev.unitReady (d : Dev) (tree : Nat) (g : Group) : Bool :=
  d.tileRun (tileOfTree tree) && !d.flt.quench && d.laneReady tree && d.chansReady tree && d.time.st = .locked && d.frameReady g
    && d.syncReady g && !d.faultOn tree && !d.pinReq g

/-- Force state of a side (Table 17-3): 1 side A, 2 side B. -/
def Group.own (g : Group) : Nat := if g.sideB then 2 else 1

/-- Whether a FORCE names the partner and no LOCKOUT stands above it (R434). -/
def Group.forcedAway (g : Group) : Bool := !g.lockout && g.force ≠ 0 && g.force ≠ g.own

/-- Whether this unit may take the lease by a RELEASE, a HANDOVER or a failure: no LOCKOUT, and no FORCE of the partner (R434). -/
def Group.mayTake (g : Group) : Bool := !g.lockout && (g.force = 0 || g.force = g.own)

/-- Whether the unit holds the lease. -/
def Group.holding (g : Group) : Bool := g.st = .active || g.st = .partnerLost

/-- Whether this device lights a tree: under its standing lease, its lease or its claim (R420, R421, R425, R430). -/
def Dev.lights (d : Dev) (tree : Nat) : Bool :=
  d.tileRun (tileOfTree tree) && !d.flt.quench && !(d.treeOn tree).isEmpty
    && (match mget d.groups tree with
        | none => !d.otherHost tree
        | some g => if g.claim then g.st = .active else g.holding)

/-! ## Lease numbers (R112, R423) -/

/-- Whether 16-bit number `a` is higher than `b` in serial arithmetic. -/
def leaseHigher (a b : Nat) : Bool := let x := (a + 65536 - b) % 65536; 0 < x && x < 32768

/-- The higher of two numbers. -/
def leaseMax (a b : Nat) : Nat := if leaseHigher a b then a else b

/-- The highest lease number known of a tree. -/
def Dev.leaseTop (d : Dev) (tree : Nat) : Option Nat := mget d.leaseSeen tree

/-- Remembers a lease number sent or received. -/
def Dev.leaseNote (d : Dev) (tree n : Nat) : Dev :=
  { d with leaseSeen := mput d.leaseSeen tree (match d.leaseTop tree with | some m => leaseMax n m | none => n) }

/-- The smallest number of a side's parity higher than every number known; 2 or 1 where none is. -/
def leaseNext (sideB : Bool) : Option Nat → Nat
  | none => if sideB then 1 else 2
  | some m => if (m + 1) % 2 = b2n sideB then (m + 1) % 65536 else (m + 2) % 65536

/-! ## Taking the lease (R423, R426, R428, R432, R433) -/

/-- Terminals of the partner's tree pass to this tree of a PAIRED TILES group; frames buffered on the other tile are lost (log 42). -/
def Dev.retarget (d : Dev) (tree : Nat) (g : Group) : Dev :=
  let tids := (d.terms.filter (fun e => e.2.ch / 4 = g.pTree)).map (fun e => e.1)
  let qs := (d.queues.filter (fun e => e.2.down && tids.contains e.2.tid)).map (fun e => e.1)
  let d := qs.foldl (fun d q => d.discardQueue q .drainDiscard (d.chanOfTerm ((mget d.queues q).elim 0 (fun x => x.tid)))) d
  tids.foldl (fun d t => d.updTerm t (fun x => { x with ch := 4 * tree + x.ch % 4 })) d

/-- Key exchange with every terminal of a tree: until it completes, encrypted ports carry nothing (R433). -/
def Dev.rekeyTree (d : Dev) (tree : Nat) : Dev :=
  let tids := (d.terms.filter (fun e => e.2.ch / 4 = tree && d.inService e.1)).map (fun e => e.1)
  tids.foldl (fun d t => (d.setPon t { d.ponKey t with use := none }).ponStart t) d

/-- Takes the lease: 0 as side A at pairing or after a group reset, 1 on RELEASE or HANDOVER, 2 on failure. A takeover moves the
upstream reference by Δ, and starts the hold-off (R432, R434). -/
def Dev.takeLease (d : Dev) (tree kind : Nat) : Dev :=
  match mget d.groups tree with
  | none => d
  | some g =>
    if d.flt.quench || !d.tileRun (tileOfTree tree) then d
    else
      let n := leaseNext g.sideB (d.leaseTop tree)
      let hold := if kind = 0 then g.holdEnd else some (d.now + rawS d.protHoldS)
      let d := (d.leaseNote tree n).updGroup tree (fun g => { g with
        st := .active, number := n, darkHold := false, handover := false, yielded := false, pHolds := false, holdEnd := hold, delta := none, deltas := [] })
      if kind = 0 then d
      else
        let d := d.updTree tree (fun x => { x with upRef := x.upRef + g.delta.getD g.pathOfs })
        let d := (d.count .switches tree).count (if kind = 2 then .takeoversFailure else .handovers) tree
        if g.tiles then d.retarget tree g else d.rekeyTree tree

/-- Brings a group's state up to date: its request, the state of a unit that does not hold the lease, the first lease of side A, and
the claim (R418, R420, R422, R430, R435, R438). -/
def Dev.groupRefresh (d : Dev) (tree : Nat) : Dev :=
  match mget d.groups tree with
  | none => d
  | some g =>
    let ready := d.unitReady tree g
    let req := d.pinReq g || (d.tree tree).protReq || g.digReq
    let d := d.updGroup tree (fun g => { g with request := req })
    if g.claim then
      let st : GroupSt := if !ready then .notReady else if d.otherHost tree || g.forcedAway then .standby else .active
      d.updGroup tree (fun g => { g with st := st, number := g.claimNo, yielded := d.otherHost tree })
    else if g.holding then d
    else
      let d := d.updGroup tree (fun g => { g with st := if ready then .standby else .notReady, darkHold := g.darkHold && !g.pHolds })
      if g.darkHold && !g.sideB && !g.pHolds && (g.rxSys.isSome || g.rxIn.isSome) && !(d.treeOn tree).isEmpty then d.takeLease tree 0 else d

/-! ## Causes (R434) -/

/-- A planned change of the active unit (R428): HANDOVER in DUAL, RELEASE in SPLIT. -/
def Dev.planSwitch (d : Dev) (tree : Nat) : Dev :=
  match mget d.groups tree with
  | none => d
  | some g =>
    if g.dual then (d.leaseSend tree 2 (d.unitReady tree g)).updGroup tree (fun g => { g with handover := true })
    else ((d.leaseSend tree 1).updGroup tree (fun g => { g with st := .notReady, holdEnd := some (d.now + rawS d.protHoldS) })).groupRefresh tree

/-- A cause of priority 5 or 6 is raised (R434): refused without a group or a ready partner; ignored under LOCKOUT, FORCE, the hold-off,
or on a unit that is not active. -/
def Dev.raiseCause (d : Dev) (tree cause : Nat) : Dev :=
  let refused (d : Dev) (why : Nat) : Dev := (d.count .requestsRefused tree).notify 0x8C80 tree (leBytes 1 cause ++ leBytes 1 why ++ [0, 0])
  match mget d.groups tree with
  | none => refused d 0
  | some g =>
    if !g.holding || g.lockout || g.force ≠ 0 || g.handover || g.holdEnd.any (fun t => !reached d.now t) then d
    else if g.st ≠ .active || !g.pReady then refused d 1
    else d.planSwitch tree

/-- A FORCE in force is acted on by the active unit (R434). -/
def Dev.actForce (d : Dev) (tree : Nat) : Dev :=
  match mget d.groups tree with
  | none => d
  | some g => if !g.claim && g.st = .active && g.forcedAway && g.pReady && !g.handover then d.planSwitch tree else d

/-! ## LEASE messages (R424 to R428, R431) -/

/-- A valid LEASE message: it is of the group's other side and its path is up. It ends PARTNER_LOST (R426). -/
def Dev.leaseIn (d : Dev) (tree : Nat) (inband : Bool) (l : LeaseMsg) (k : Group → Dev → Dev) : Dev :=
  match mget d.groups tree with
  | none => d
  | some g =>
    if !d.ready || g.claim || l.group ≠ g.gid || l.sideB = g.sideB || !d.tileRun (tileOfTree tree)
      || !(if inband then d.inPathUp g else d.sysPathUp g) then d
    else
      let behind := (l.frame + 2 ^ 48 - d.frame) % 2 ^ 48
      let g : Group := { g with
        rxSys := if inband then g.rxSys else some d.now, rxIn := if inband then some d.now else g.rxIn,
        pFrame := behind, pPhase := l.phase, st := if g.st = .partnerLost then .active else g.st }
      let d := d.updGroup tree (fun _ => g)
      k g (if l.number = 0 then d else d.leaseNote tree l.number)

/-- Takes over the partner's force and lockout where its command is the later one, side A's at equal times (R434). -/
def Group.merge (g : Group) (l : LeaseMsg) : Group :=
  let newer := (l.cmdSec + 2 ^ 32 - g.cmdSec) % 2 ^ 32
  if (newer ≠ 0 && newer < 2 ^ 31) || (newer = 0 && !l.sideB) then { g with force := l.force, lockout := l.lockout, cmdSec := l.cmdSec } else g

/-- RENEW (R424, R427, R431, R434): counted; the partner's readiness, lease and SYNC; where both units of a SPLIT group hold the lease,
the lower number yields. -/
def Dev.opRenew (d : Dev) (tree : Nat) (inband : Bool) (l : LeaseMsg) : Dev :=
  d.leaseIn tree inband l fun g d =>
  let d := d.count (if inband then .renewRxInband else .renewRxSys) tree
  let yield := g.holding && l.holds && !g.dual && leaseHigher l.number g.number
  let lag := if l.sync ≠ g.syncSeq then (if g.syncLag.isSome then g.syncLag else some d.now) else none
  let g := g.merge l
  let d := d.updGroup tree (fun _ => { g with
    pReady := l.ready, pHolds := l.holds, pSyncSent := l.sync, syncLag := if g.holding || !l.holds then none else lag,
    st := if yield then .notReady else g.st, holdEnd := if yield then some (d.now + rawS d.protHoldS) else g.holdEnd })
  let d := if yield then d.count .yields tree else d
  (d.groupRefresh tree).actForce tree

/-- RELEASE (R428): the standby takes the lease. -/
def Dev.opRelease (d : Dev) (tree : Nat) (inband : Bool) (l : LeaseMsg) : Dev :=
  d.leaseIn tree inband l fun _ d =>
  let d := (d.updGroup tree (fun g => { g with pHolds := false })).groupRefresh tree
  match mget d.groups tree with
  | some g => if g.st = .standby && g.mayTake then d.takeLease tree 1 else d
  | none => d

/-- HANDOVER (R428): the standby of a DUAL group takes the lease. -/
def Dev.opHandover (d : Dev) (tree : Nat) (inband : Bool) (l : LeaseMsg) : Dev :=
  d.leaseIn tree inband l fun _ d =>
  let d := d.groupRefresh tree
  match mget d.groups tree with
  | some g => if g.st = .standby && g.dual && g.mayTake then d.takeLease tree 1 else d
  | none => d

/-- LEASE_RENEW_TICK (R424): every 5 ms of raw time each unit of a group in LEASE mode sends RENEW on both paths. -/
def Dev.opLeaseRenewTick (d : Dev) (tree : Nat) : Dev :=
  match mget d.groups tree with
  | none => d
  | some g =>
    if !d.ready || g.claim || !d.tileRun (tileOfTree tree) then d
    else
      let p := (rawMs 5).toNat
      let d := d.advanceTo (BitVec.ofNat 64 ((d.now.toNat + p - 1) / p * p))
      let d := d.groupRefresh tree
      d.leaseSend tree 0 (d.unitReady tree ((mget d.groups tree).getD g))

/-- Later of a group's last arrivals, or its creation where none came (R426). -/
def Group.lastHeard (g : Group) : Raw :=
  match g.rxSys, g.rxIn with
  | some a, some b => if reached a b then a else b
  | some a, none => a
  | none, some b => b
  | none, none => g.born

/-- LEASE_FAILURE_TIMEOUT (R426): both paths silent for 20 ms plus guard_ms since the later of the last arrivals, or since the group was
created where none came. The standby takes the lease, and so does a NOT_READY unit whose lane is UP and whose channels are ENABLED;
the active enters PARTNER_LOST. -/
def Dev.opLeaseFailureTimeout (d : Dev) (tree : Nat) : Dev :=
  match mget d.groups tree with
  | none => d
  | some g =>
    if !d.ready || g.claim || !d.tileRun (tileOfTree tree) then d
    else
      let d := (d.advanceTo (g.lastHeard + rawMs (20 + d.guardMs))).groupRefresh tree
      match mget d.groups tree with
      | none => d
      | some g =>
        if g.st = .active then d.updGroup tree (fun g => { g with st := .partnerLost, pReady := false, pHolds := false })
        else if g.st = .partnerLost || !g.mayTake then d
        else if g.st = .standby || ((d.lane (tileOfTree tree) (tree % 8)).neg = .up && d.chansReady tree) then d.takeLease tree 2
        else d

/-- Terminal state of a code of Table 7-2. -/
def termStateOf : Nat → TermState
  | 1 => .ranging | 2 => .inService | 3 => .lowPower | 4 => .reacquire | 5 => .heldOff | 6 => .isolated | 7 => .disabled | _ => .absent

/-- Applies one SYNC record to the terminals and allocations of a tree. -/
def Dev.syncApply (d : Dev) (tree : Nat) : SyncRec → Dev
  | .term serial state onu eqd key =>
    (d.terms.filter (fun e => e.2.ch / 4 = tree && e.2.serial = serial)).foldl (fun d e =>
      d.updTerm e.1 (fun x => { x with st := termStateOf state, onu := if onu = 0xFFFF then none else some onu, eqd := eqd, syncKey := key })) d
  | .alloc aid allocId phase =>
    if tileOfTree tree = d.tileOfAlloc aid && d.chanOfAlloc aid / 4 = tree then
      d.updAlloc aid (fun a => { a with allocId := allocId, phase := phase })
    else d

/-- SYNC (R431): a unit of PAIRED DEVICES that is not active uses the active's identifiers. -/
def Dev.opSync (d : Dev) (tree : Nat) (l : LeaseMsg) (recs : List SyncRec) : Dev :=
  d.leaseIn tree false l fun g d =>
  if g.holding || g.tiles then d
  else
    let d := recs.foldl (fun d r => d.syncApply tree r) d
    (d.updGroup tree (fun g => { g with syncSeq := l.sync, syncLag := if g.pSyncSent = l.sync then none else g.syncLag })).groupRefresh tree

/-- The records of a tree's terminals and allocations as they stand. -/
def Dev.syncRecs (d : Dev) (tree : Nat) : List SyncRec :=
  (d.terms.filter (fun e => e.2.ch / 4 = tree)).map (fun (k, x) =>
      SyncRec.term x.serial x.st.code (x.onu.getD 0xFFFF) x.eqd (match (d.ponKey k).use with | some s => s + 1 | none => 0))
    ++ (d.allocs.filter (fun e => d.chanOfTerm e.2.tid / 4 = tree && mhas d.terms e.2.tid)).map (fun (k, a) => SyncRec.alloc k a.allocId a.phase)

/-- The active unit of PAIRED DEVICES sends a SYNC of what changed since its last one (R431); frames come every 125 µs, well within 1 ms. -/
def Dev.syncOut (d : Dev) (tree : Nat) : Dev :=
  match mget d.groups tree with
  | none => d
  | some g =>
    if g.claim || g.tiles || !g.holding || !d.sysPathUp g then d
    else
      let cur := d.syncRecs tree
      let diff := cur.filter (fun r => !g.sent.contains r)
      let d := d.updGroup tree (fun g => { g with sent := cur })
      if diff.isEmpty then d
      else
        let g : Group := { g with syncSeq := (g.syncSeq + 1) % 2 ^ 32, sent := cur }
        let d := d.updGroup tree (fun _ => g)
        (d.emit (.lease tree false 4 (d.leaseMsg g (d.unitReady tree g)))).emit (.sync tree diff)

/-! ## Safety digests (R436) -/

/-- Digest of the safety part of a frame: the frame number, k, and each pair of AID and granted bytes, ascending AID, under the CRC-64 of R436 (R214). -/
def safetyDigest (frame k : Nat) (pairs : List (Nat × Nat)) : BitVec 64 :=
  crc64 (leBytes 6 frame ++ leBytes 1 k ++ ((sortBy (fun e => e.1) pairs).map (fun e => leBytes 4 e.1 ++ leBytes 4 e.2)).flatten)

/-- Whether a channel carries safety allocations. -/
def Dev.hasSafety (d : Dev) (ch : Nat) : Bool := (d.allocsOf (d.srcChan ch)).any (fun a => a.2.p.safety)

/-- Whether digests are compared: not while the standby is NOT_READY. -/
def Group.compares (g : Group) : Bool := g.st = .standby || (g.st = .active && g.pReady)

/-- Compares the two digests of a channel's frame. Eight mismatches in a row are an F3 fault, and cause 5 on the active. -/
def Dev.digCompare (d : Dev) (tree k own peer : Nat) : Dev :=
  match mget d.groups tree with
  | none => d
  | some g =>
    let ch := 4 * tree + k
    if !g.compares then d
    else if own = peer then
      let runs := g.runs.set k 0
      d.updGroup tree (fun g => { g with runs := runs, digReq := g.digReq && runs.any (fun r => 8 ≤ r) })
    else
      let d := d.count .digestMismatch (2 ^ 20 + ch)
      let r := nth g.runs k + 1
      let d := d.updGroup tree (fun g => { g with runs := g.runs.set k (min 8 r), digReq := g.digReq || (g.holding && 8 ≤ r) })
      if r = 8 then
        let d := d.raise 0x0E 0x01 3 (tileOfTree tree) ch g.gid false
        if g.holding then d.raiseCause tree 5 else d
      else d

/-- Enters a digest of this unit. -/
def Dev.digOwnIn (d : Dev) (tree frame k dg : Nat) : Dev :=
  match mget d.groups tree with
  | none => d
  | some g =>
    match g.digPeer.find? (fun x => x.1 = frame && x.2.1 = k) with
    | some x =>
      (d.updGroup tree (fun g => { g with digPeer := g.digPeer.filter (fun y => !(y.1 = frame && y.2.1 = k)) })).digCompare tree k dg x.2.2
    | none => d.updGroup tree (fun g => { g with digOwn := ((frame, k, dg) :: g.digOwn).take 24 })

/-- Enters a digest of the partner. -/
def Dev.digPeerIn (d : Dev) (tree frame k dg : Nat) : Dev :=
  match mget d.groups tree with
  | none => d
  | some g =>
    match g.digOwn.find? (fun x => x.1 = frame && x.2.1 = k) with
    | some x =>
      (d.updGroup tree (fun g => { g with digOwn := g.digOwn.filter (fun y => !(y.1 = frame && y.2.1 = k)) })).digCompare tree k x.2.2 dg
    | none =>
      if frameGe frame d.frame then d.updGroup tree (fun g => { g with digPeer := ((frame, k, dg) :: g.digPeer).take 24 }) else d

/-- DIGEST (R436): the partner's digests of a frame. -/
def Dev.opDigest (d : Dev) (tree : Nat) (l : LeaseMsg) (g x f : Option (BitVec 64)) : Dev :=
  d.leaseIn tree false l fun _ d =>
  [(0, g), (1, x), (2, f)].foldl (fun d e => match e.2 with | some v => d.digPeerIn tree l.frame e.1 v.toNat | none => d) d

/-- DIGEST_COMPARE_GAP (R436): the partner's digest did not come within 4 frames; the run stays. -/
def Dev.opDigestCompareGap (d : Dev) (tree k frame : Nat) : Dev :=
  match mget d.groups tree with
  | none => d
  | some g =>
    if !g.digOwn.any (fun x => x.1 = frame && x.2.1 = k) then d
    else
      let d := d.toFrame (plusF frame 4)
      let d := d.updGroup tree (fun g => { g with digOwn := g.digOwn.filter (fun x => !(x.1 = frame && x.2.1 = k)) })
      if g.compares then d.count .compareGap (2 ^ 20 + 4 * tree + k) else d

/-- The digests of frame `n`: computed for every channel that carries safety allocations, sent in a DIGEST message. -/
def Dev.digestsOut (d : Dev) (tree n : Nat) : Dev :=
  match mget d.groups tree with
  | none => d
  | some g =>
    if g.claim then d
    else
      let ds := [0, 1, 2].filterMap (fun k =>
        let ch := 4 * tree + k
        match (d.chan ch).plans.find? (fun p => p.frame = n) with
        | some p => if d.hasSafety ch then some (k, (safetyDigest n k p.safe).toNat) else none
        | none => none)
      if ds.isEmpty then d
      else
        let d := if d.sysPathUp g then (d.emit (.lease tree false 3 (d.leaseMsg g (d.unitReady tree g)))).emit (.digest tree n ds) else d
        ds.foldl (fun d e => d.digOwnIn tree n e.1 e.2) d

/-- What a group does at the boundary of frame `n`. -/
def Dev.protFrame (d : Dev) (tree n : Nat) : Dev := ((d.groupRefresh tree).digestsOut tree n).syncOut tree

/-! ## Commands (R418, R434, R439) -/

/-- Layout (log 15): 0 action (0 create or change, 1 delete), 1 reserved, 2-3 group_id, 4 side, 5 reserved, 6-7 partner system ID
(0xFFFF a tree of this device), 8 partner tree, 9 optics, 10 mode, 11 claim, 12 in-band sub-port (0xFF none), 13 reserved, 14-15 VLAN,
16-21 partner MAC, 22-23 reserved, 24-27 path_offset_ns, 28 pin_mask, 29-31 reserved. -/
def bodyProtGroup (c : Cmd) (d : Dev) : Res :=
  d.onTree c.tgt ofsTgt fun _ =>
  let tree := c.tgt
  let dark := (d.treeOn tree).isEmpty
  if c.u8 0 = 1 then
    if !dark || !mhas d.groups tree then d.fail stState
    else Dev.ok { d with groups := mdel d.groups tree }
  else
    let sys := c.u16 6
    let tiles := sys = 0xFFFF
    let sub := c.u8 12
    let ofs := c.i32 24
    let claim := c.u8 10 = 1
    if 1 < c.u8 0 then d.fail stBadParam (ofsP 0)
    else if 1 < c.u8 4 then d.fail stBadParam (ofsP 4)
    else if 1 < c.u8 9 then d.fail stBadParam (ofsP 9)
    else if 1 < c.u8 10 then d.fail stBadParam (ofsP 10)
    else if !tiles && 512 ≤ sys then d.fail stRange (ofsP 6)
    else if (if tiles then d.nTrees else 64) ≤ c.u8 8 then d.fail stRange (ofsP 8)
    else if claim && c.u8 11 = 0 then d.fail stRange (ofsP 11)
    else if sub ≠ 0xFF && d.nSubs ≤ sub then d.fail stRange (ofsP 12)
    else if sub ≠ 0xFF && (c.u16 14 = 0 || 4094 < c.u16 14) then d.fail stRange (ofsP 14)
    else if ofs < -100000 || 100000 < ofs then d.fail stRange (ofsP 24)
    else if 15 < c.u8 28 then d.fail stRange (ofsP 28)
    else if claim && c.u8 9 = 0 then d.fail stBadParam (ofsP 10)
    else if tiles && tileOfTree (c.u8 8) = tileOfTree tree then d.fail stBadParam (ofsP 8)
    else if !tiles && !claim && sub = 0xFF then d.fail stBadParam (ofsP 12)
    else if tiles && claim then d.fail stBadParam (ofsP 10)
    else if !dark then d.fail stState
    else
      let g : Group := {
        gid := c.u16 2, sideB := c.u8 4 = 1, tiles := tiles, pSys := sys, pTree := c.u8 8, dual := c.u8 9 = 1, claim := claim,
        claimNo := c.u8 11, inSub := if sub = 0xFF then none else some sub, inVlan := c.u16 14, inMac := c.u48 16, pathOfs := ofs,
        pins := BitVec.ofNat 4 (c.u8 28), st := .notReady, number := if claim then c.u8 11 else 0, darkHold := true, born := d.now }
      let d1 : Dev := { d with groups := mput d.groups tree g }
      let pt := tileOfTree g.pTree
      if tiles && (2048 < d1.termsCount pt || 8192 < d1.allocsCount pt) then d.fail stNoResource
      else d1.ok
def specProtGroup : CmdSpec := { op := 0x0C01, crit := true, pkg := true, lenOk := lenIs 32, body := bodyProtGroup }

/-- Layout (log 15): 0 action, 1-3 reserved. In CLAIM mode, whose units exchange nothing, a force of the partner is a withdrawal and
needs no readiness of it (R430). -/
def bodyProtForce (c : Cmd) (d : Dev) : Res :=
  d.onTree c.tgt ofsTgt fun _ =>
  let tree := c.tgt
  match mget d.groups tree with
  | none => d.fail stState
  | some g =>
    let a := c.u8 0
    let other := 3 - g.own
    if 3 < a then d.fail stBadParam (ofsP 0)
    else if a = 1 && !(g.holding || d.unitReady tree g) then d.fail stState
    else if a = 2 && !g.claim && !(g.pReady || g.pHolds) then d.fail stState
    else
      let force := if a = 0 then 0 else if a = 1 then g.own else if a = 2 then other else g.force
      let lock := if a = 0 then false else a = 3 || g.lockout
      Dev.ok (((d.updGroup tree (fun g => { g with force := force, lockout := lock, cmdSec := d.netSec % 2 ^ 32 })).groupRefresh tree).actForce tree)
def specProtForce : CmdSpec := { op := 0x0C02, crit := true, pkg := true, lenOk := lenIs 4, body := bodyProtForce }

/-- State code of Table 17-2. -/
def GroupSt.code : GroupSt → Nat
  | .unpaired => 0 | .active => 1 | .standby => 2 | .notReady => 3 | .partnerLost => 4

/-- Lease holder: 0 none, 1 this unit, 2 the partner. -/
def Dev.holder (d : Dev) (tree : Nat) : Nat :=
  match mget d.groups tree with
  | none => if d.lights tree then 1 else 0
  | some g => if g.claim then (if g.st = .active then 1 else if d.otherHost tree then 2 else 0) else if g.holding then 1 else if g.pHolds then 2 else 0

/-- Causes in force, bit p-1 for priority p of Table 17-4. -/
def Dev.causes (d : Dev) (g : Group) (tree : Nat) : Nat :=
  b2n g.lockout + 2 * b2n (g.force ≠ 0) + 4 * b2n (g.st = .partnerLost) + 16 * b2n g.digReq + 32 * b2n (d.pinReq g || (d.tree tree).protReq)

/-- Reply (log 15): 0 state, 1 lease holder, 2-3 lease or claim number, 4-7 signed Δ in ns, 8-10 mismatch runs of G, X and F, 11 causes
in force by priority. A tree without a group answers UNPAIRED. -/
def bodyProtStatus (c : Cmd) (d : Dev) : Res :=
  d.onTree c.tgt ofsTgt fun _ =>
  let g := (mget d.groups c.tgt).getD {}
  d.ok (leBytes 1 g.st.code ++ leBytes 1 (d.holder c.tgt) ++ leBytes 2 g.number ++ leBytes 4 (lowBits 32 (g.delta.getD g.pathOfs))
    ++ (g.runs.map (fun r => leBytes 1 r)).flatten ++ leBytes 1 (d.causes g c.tgt))
def specProtStatus : CmdSpec := { op := 0x0C03, pkg := true, lenOk := lenIs 0, body := bodyProtStatus }

/-! ## Discrete inputs (R58, R59, R435, R447) -/

/-- Trees whose group has a PROT_REQ_N input in its pin_mask. -/
def Dev.pinTrees (d : Dev) (n : Nat) : List Nat := (d.groups.filter (fun e => e.2.pins.getLsbD n)).map (fun e => e.1)

/-- EXT_QUENCH_ASSERT (R447): an F4 of block 0x0F and with it quench; while the package boots, command-ready raises it (R441). -/
def Dev.opExtQuenchAssert (d : Dev) : Dev :=
  if d.pwr.pinQuench.asserted then d
  else
    let d : Dev := { d with pwr := { d.pwr with pinQuench := { asserted := true, since := d.now } } }
    if d.ready then Dev.raise { d with flt := { d.flt with extQuench := true } } 0x0F 0x01 4 0xFF 0xFFFFFFFF 0 true else d

/-- EXT_QUENCH_RELEASE: the condition ends; an input ignored as stuck is armed again. -/
def Dev.opExtQuenchRelease (d : Dev) : Dev :=
  if !d.pwr.pinQuench.asserted then d
  else
    let d := if d.pwr.pinQuench.ignored then d.endCond 0x01 0x08 0 1 else d.endCond 0x0F 0x01 0xFF 0xFFFFFFFF
    { d with pwr := { d.pwr with pinQuench := {} } }

/-- PROT_REQ_ASSERT (R435): cause 6 on an active unit; a standby becomes NOT_READY. -/
def Dev.opProtReqAssert (d : Dev) (n : Nat) : Dev :=
  if 4 ≤ n || (mgetD d.pwr.pinProt n {}).asserted then d
  else
    let d : Dev := { d with pwr := { d.pwr with pinProt := mput d.pwr.pinProt n { asserted := true, since := d.now } } }
    if !d.ready then d
    else (d.pinTrees n).foldl (fun d t => (d.groupRefresh t).raiseCause t 6) d

/-- PROT_REQ_RELEASE: the request is withdrawn. -/
def Dev.opProtReqRelease (d : Dev) (n : Nat) : Dev :=
  if 4 ≤ n || !(mgetD d.pwr.pinProt n {}).asserted then d
  else
    let d := if (mgetD d.pwr.pinProt n {}).ignored then d.endCond 0x01 0x08 0 (2 + n) else d
    let d : Dev := { d with pwr := { d.pwr with pinProt := mdel d.pwr.pinProt n } }
    (d.pinTrees n).foldl (fun d t => d.groupRefresh t) d

/-- DISCRETE_SHORT_PULSE (R58): a pulse below the minimum width has no effect and is counted. Inputs: 0 RESET_N, 1 EXT_QUENCH_N, 2 + n
PROT_REQ_N[n]. -/
def Dev.opDiscreteShortPulse (d : Dev) (input : Nat) : Dev :=
  if 5 < input then d else { d with pwr := { d.pwr with shortPulses := min 255 (d.pwr.shortPulses + 1) } }

/-- STUCK_TIMEOUT (R58, Table 2-7): the input is ignored until it is seen deasserted, with an F2 fault. A stuck RESET_N lets the package
boot, with the straps as sampled at this release of the cold reset (R61), and its fault is raised at command-ready (R441); a stuck EXT_QUENCH_N ends its condition; a stuck PROT_REQ_N withdraws its request. -/
def Dev.opStuckTimeout (d : Dev) (input : Nat) (bootSrc : BitVec 2) (refSel : Bool) : Dev :=
  let p := if input = 0 then d.pwr.pinReset else if input = 1 then d.pwr.pinQuench else mgetD d.pwr.pinProt (input - 2) {}
  if 5 < input || !p.asserted || p.ignored then d
  else
    let s := if input = 1 then d.quenchStuckS else 10
    let d := d.advanceTo (p.since + rawS s)
    let q : Pin := { p with ignored := true }
    let d : Dev :=
      if input = 0 then { d with pwr := { d.pwr with pinReset := q, resetStuck := true } }
      else if input = 1 then { d with pwr := { d.pwr with pinQuench := q, quenchStuck := true } }
      else { d with pwr := { d.pwr with pinProt := mput d.pwr.pinProt (input - 2) q, protStuck := d.pwr.protStuck ||| (1#4 <<< (input - 2)) } }
    let d := if d.ready then d.raise 0x01 0x08 2 0 input s true else d
    if input = 0 then (if d.pwr.pstate = .aon && !d.pwr.pfw then d.coldBoot bootSrc refSel else d)
    else if input = 1 then d.endCond 0x0F 0x01 0xFF 0xFFFFFFFF
    else (d.pinTrees (input - 2)).foldl (fun d t => d.groupRefresh t) d

/-! ## Meanings -/

/-- CMD_PROT_GROUP (R418). -/
def execCmdProtGroup (p : Packet) (s : State) : Host.Outcome State Fault Refusal := live (Dev.runCommand specProtGroup p) s

/-- CMD_PROT_FORCE (R434). -/
def execCmdProtForce (p : Packet) (s : State) : Host.Outcome State Fault Refusal := live (Dev.runCommand specProtForce p) s

/-- CMD_PROT_STATUS (R439). -/
def execCmdProtStatus (p : Packet) (s : State) : Host.Outcome State Fault Refusal := live (Dev.runCommand specProtStatus p) s

/-- EXT_QUENCH_ASSERT (R447). -/
def execExtQuenchAssert (s : State) : Host.Outcome State Fault Refusal :=
  live (fun d => d.opExtQuenchAssert) s

/-- EXT_QUENCH_RELEASE (R447). -/
def execExtQuenchRelease (s : State) : Host.Outcome State Fault Refusal :=
  live (fun d => d.opExtQuenchRelease) s

/-- PROT_REQ_ASSERT (R435). -/
def execProtReqAssert (n : Nat) (s : State) : Host.Outcome State Fault Refusal :=
  live (fun d => d.opProtReqAssert n) s

/-- PROT_REQ_RELEASE (R435). -/
def execProtReqRelease (n : Nat) (s : State) : Host.Outcome State Fault Refusal :=
  live (fun d => d.opProtReqRelease n) s

/-- DISCRETE_SHORT_PULSE (R58). -/
def execDiscreteShortPulse (input : Nat) (s : State) : Host.Outcome State Fault Refusal :=
  live (fun d => d.opDiscreteShortPulse input) s

/-- STUCK_TIMEOUT (R58). -/
def execStuckTimeout (pin : StuckInput) (s : State) : Host.Outcome State Fault Refusal :=
  live (fun d => d.opStuckTimeout pin.input pin.straps.bootSrc pin.straps.refSel) s

/-- LEASE_RENEW_TICK (R424). -/
def execLeaseRenewTick (tree : Nat) (s : State) : Host.Outcome State Fault Refusal :=
  live (fun d => d.opLeaseRenewTick tree) s

/-- RENEW (R424). -/
def execRenew (tree : Nat) (inband : Bool) (l : LeaseMsg) (s : State) : Host.Outcome State Fault Refusal :=
  live (fun d => d.opRenew tree inband l) s

/-- RELEASE (R428). -/
def execRelease (tree : Nat) (inband : Bool) (l : LeaseMsg) (s : State) : Host.Outcome State Fault Refusal :=
  live (fun d => d.opRelease tree inband l) s

/-- HANDOVER (R428). -/
def execHandover (tree : Nat) (inband : Bool) (l : LeaseMsg) (s : State) : Host.Outcome State Fault Refusal :=
  live (fun d => d.opHandover tree inband l) s

/-- DIGEST (R436). -/
def execDigest (tree : Nat) (l : LeaseMsg) (g x f : Option (BitVec 64)) (s : State) : Host.Outcome State Fault Refusal :=
  live (fun d => d.opDigest tree l g x f) s

/-- DIGEST_COMPARE_GAP (R436). -/
def execDigestCompareGap (tree k frame : Nat) (s : State) : Host.Outcome State Fault Refusal :=
  live (fun d => d.opDigestCompareGap tree k frame) s

/-- SYNC (R431). -/
def execSync (tree : Nat) (l : LeaseMsg) (recs : List SyncRec) (s : State) : Host.Outcome State Fault Refusal :=
  live (fun d => d.opSync tree l recs) s

/-- LEASE_FAILURE_TIMEOUT (R426). -/
def execLeaseFailureTimeout (tree : Nat) (s : State) : Host.Outcome State Fault Refusal :=
  live (fun d => d.opLeaseFailureTimeout tree) s

end Sys2Proof.Machine
end

