-- ==== Sys2Proof/Machine/Fault.lean ====
section
/-!
DEFINITION. Acknowledgement, anneal, the release of quench and the fault log (chapter 18). The raising of a fault, the end of its
condition and quench itself stand in Ops.lean.
-/

namespace Sys2Proof.Machine

/-- Acknowledges recorded faults (R443, R446): each counts out of its class, and with the last one the first-fault latch re-arms. -/
def FaultState.ack (f : FaultState) (p : FltRec → Bool) : FaultState :=
  let hit := f.ring.filter (fun r => p r && !r.acked)
  let unack := hit.foldl (fun u r => subNth u r.cls 1) f.unack
  let f : FaultState := { f with ring := f.ring.map (fun r => if p r then { r with acked := true } else r), unack := unack }
  if f.anyUnack then f else { f with first := none, overflow := false }

/-- Unacknowledged faults whose record has left the ring: older than every record held. -/
def FaultState.droppedUnack (f : FaultState) : List Nat :=
  (List.range 5).map (fun c => nth f.unack c - (f.ring.filter (fun r => r.cls = c && !r.acked)).length)

/-- Whether a number acknowledges what has left the ring: it covers every record held. -/
def FaultState.covers (f : FaultState) (n : Nat) : Bool := f.ring.all (fun r => r.seq ≤ n)

/-- CMD_FLT_ACK's acknowledgement of every number up to `n`. -/
def FaultState.ackTo (f : FaultState) (n : Nat) : FaultState :=
  let out := f.droppedUnack
  let f : FaultState := if f.covers n then { f with unack := (List.range 5).map (fun c => nth f.unack c - nth out c) } else f
  f.ack (fun r => r.seq ≤ n)

/-- Recovery action of an F3 (Table 18-4): a tile that the fault isolated is restored by a tile reset, a lost die link is trained again;
one that an assay fault isolated runs assay again first, with the same set (R457); none while quench holds. A tile isolated by temperature
restarts only while all its sensors read below 100 °C (R57): a reading that finds it so later restores it (thermalCool). -/
def Dev.recover (d : Dev) (r : FltRec) : Dev :=
  if d.flt.quench || (r.block = 0x01 && r.event = 0x06 && decide (100 ≤ (d.tile r.tile).nowC)) then d
  else if r.block = 0x02 && r.event = 0x01 then
    { d with rst := { d.rst with links := mdel d.rst.links (8 * r.inst + r.detail.toNat) } }
  else if r.isolated && 0 < r.tile && r.tile < d.nTiles && (d.tile r.tile).st = .isolated then
    let d := d.startTileReset r.tile 2
    if r.block = 0x10 then d.updTile r.tile (fun x => { x with assayAfter := some (d.asyTile r.tile).set }) else d
  else d

/-- Changes the record of one sequence number. -/
def Dev.updRec (d : Dev) (seq : Nat) (f : FltRec → FltRec) : Dev :=
  { d with flt := { d.flt with ring := d.flt.ring.map (fun r => if r.seq = seq then f r else r) } }

/-- A fault is latched by an anneal limit (R445): it stays unacknowledged and no quiet period runs. -/
def Dev.latchFault (d : Dev) (r : FltRec) : Dev :=
  let r : FltRec := { r with latched := true, quietEnd := none }
  let d := d.updRec r.seq (fun _ => r)
  Dev.notify { d with flt := d.flt.toEmram r } 0x8D83 r.inst r.bytes

/-- A fault anneals (R445): acknowledged, marked, notified and counted in the always-on domain. -/
def Dev.annealFault (d : Dev) (r : FltRec) : Dev :=
  let d : Dev := { d with flt := d.flt.ack (fun x => x.seq = r.seq) }
  let r : FltRec := { r with acked := true, annealed := true, quietEnd := none }
  let d := d.updRec r.seq (fun _ => r)
  let d : Dev := { d with flt := { d.flt with recov := d.flt.recov.set r.cls (min 0xFFFF (nth d.flt.recov r.cls + 1)) } }
  d.notify 0x8D81 r.inst r.bytes

/-- QUIET_PERIOD_EXPIRY (R445, Table 18-4): the quiet period of a record ends; F3 anneals are limited per tile, F4 anneals per package, in
any 3,600 s of always-on time. -/
def Dev.opQuietPeriodExpiry (d : Dev) (seq : Nat) : Dev :=
  match d.flt.ring.find? (fun r => r.seq = seq) with
  | none => d
  | some r =>
    match r.quietEnd with
    | none => d
    | some q =>
      if !d.ready || r.annealed then d
      else
        let d := d.advanceTo q
        let f3 := d.flt.f3At.filter (fun e => (d.flt.aon - e.2).toNat < (rawS 3600).toNat)
        let f4 := lastHour d.flt.aon d.flt.f4At
        let d : Dev := { d with flt := { d.flt with f3At := f3, f4At := f4 } }
        if r.cls = 3 then
          if d.f3Limit ≤ (f3.filter (fun e => e.1 = r.tile)).length then d.latchFault r
          else Dev.recover (Dev.annealFault { d with flt := { d.flt with f3At := (r.tile, d.flt.aon) :: f3 } } r) r
        else if r.cls = 4 then
          if d.f4Limit ≤ f4.length then d.latchFault r
          else (Dev.annealFault { d with flt := { d.flt with f4At := d.flt.aon :: f4 } } r).warmReset 5
        else d.annealFault r

/-! ## Commands (R446, R448, R452) -/

/-- 0-3 sequence number, 0xFFFFFFFF for all of them. The recovery action of a latched F3 runs at once (R445). -/
def bodyFltAck (c : Cmd) (d : Dev) : Res :=
  let n := c.u32 0
  let latched := d.flt.ring.filter (fun r => r.seq ≤ n && r.latched && r.cls = 3)
  let d : Dev := { d with flt := d.flt.ackTo n }
  (latched.foldl Dev.recover d).ok
def specFltAck : CmdSpec := { op := 0x0D01, pkg := true, lenOk := lenIs 4, body := bodyFltAck }

/-- Refused while the condition of an F4 is present; else every F4 is acknowledged, and a package warm reset follows the reply. -/
def bodyFltQuenchRelease (_ : Cmd) (d : Dev) : Res :=
  if d.flt.ring.any (fun r => r.cls = 4 && r.cond) then d.fail stState
  else { (Dev.ok { d with flt := d.flt.ack (fun r => r.cls = 4) }) with after := fun d => d.warmReset 3 }
def specFltQuenchRelease : CmdSpec := { op := 0x0D02, crit := true, lenOk := lenIs 0, body := bodyFltQuenchRelease }

/-- Layout (log 15): 0-1 quiet_s, 2 f3_limit, 3 f4_limit, 4 fault_n_class, 5-7 reserved. -/
def bodyFltConfig (c : Cmd) (d : Dev) : Res :=
  let q := c.u16 0
  if q < 1 || 3600 < q then d.fail stRange (ofsP 0)
  else if 15 < c.u8 2 then d.fail stRange (ofsP 2)
  else if 15 < c.u8 3 then d.fail stRange (ofsP 3)
  else if 4 < c.u8 4 then d.fail stRange (ofsP 4)
  else (d.setReg 0xC20 (q * 2 ^ 20 + c.u8 2 * 2 ^ 16 + c.u8 3 * 2 ^ 12 + c.u8 4 * 2 ^ 8)).ok
def specFltConfig : CmdSpec := { op := 0x0D03, pkg := true, lenOk := lenIs 8, body := bodyFltConfig }

/-- Table 15-27. -/
def bodyFltLog (c : Cmd) (d : Dev) : Res :=
  let first := c.u32 0
  let n := c.u8 5
  if 1 < c.u8 4 then d.fail stBadParam (ofsP 4)
  else if n < 1 || 112 < n then d.fail stRange (ofsP 5)
  else if c.u8 4 = 1 && 63 < first then d.fail stRange (ofsP 0)
  else
    let recs := if c.u8 4 = 0 then d.flt.ring.reverse.filter (fun r => first ≤ r.seq) else d.flt.emram.reverse.drop first
    let recs := recs.take n
    let newest := if c.u8 4 = 0 then d.flt.seq else d.flt.emram.length
    d.ok (leBytes 2 recs.length ++ leBytes 2 0 ++ leBytes 4 newest ++ (recs.map FltRec.bytes).flatten)
def specFltLog : CmdSpec := { op := 0x0D04, lenOk := lenIs 8, body := bodyFltLog }

/-! ## Meanings -/

/-- CMD_FLT_ACK (R446). -/
def execCmdFltAck (p : Packet) (s : State) : Host.Outcome State Fault Refusal := live (Dev.runCommand specFltAck p) s

/-- CMD_FLT_QUENCH_RELEASE (R448). -/
def execCmdFltQuenchRelease (p : Packet) (s : State) : Host.Outcome State Fault Refusal := live (Dev.runCommand specFltQuenchRelease p) s

/-- CMD_FLT_CONFIG (R452). -/
def execCmdFltConfig (p : Packet) (s : State) : Host.Outcome State Fault Refusal := live (Dev.runCommand specFltConfig p) s

/-- CMD_FLT_LOG (R503). -/
def execCmdFltLog (p : Packet) (s : State) : Host.Outcome State Fault Refusal := live (Dev.runCommand specFltLog p) s

/-- QUIET_PERIOD_EXPIRY (R445). -/
def execQuietPeriodExpiry (seq : Nat) (s : State) : Host.Outcome State Fault Refusal :=
  live (fun d => d.opQuietPeriodExpiry seq) s

end Sys2Proof.Machine
end

