-- ==== Sys2Proof/Machine/Tree.lean ====
section
/-!
DEFINITION. Tree channels and their boundaries: enabling, disabling and draining (R139 to R143), the frame boundary with its builds,
downstream frames, FS and LASER blocks (R102 to R111, R133, R144 to R146, R176, R177, R215 to R219, R421, R425, R430), the second boundary
(R129, R135, R471) and the fast SES interval (R167).
-/

namespace Sys2Proof.Machine

/-! ## Enable, disable, drain (R141 to R143) -/

/-- Whether a channel drains or has a disable accepted and not yet in effect. -/
def Dev.shutting (d : Dev) (ch : Nat) : Bool := (d.chan ch).st = .draining || (d.chan ch).disableAt.isSome

/-- Enables those of a tree's channels that are DISABLED, all or none (R27, R95). -/
def Dev.treeEnableNow (d : Dev) (tree : Nat) : Nat × Dev :=
  let off := (treeChans tree).filter (fun ch => (d.chan ch).st = .disabled)
  if off.any (fun ch => d.laneRefuses ch (d.chan ch).upRate) then (stState, d) else (stOk, off.foldl Dev.chanEnabling d)

def bodyChanEnable (c : Cmd) (d : Dev) : Res :=
  d.onChan c.tgt ofsTgt fun _ =>
  if d.shutting c.tgt then d.accepted stPending .chanEnable c.tgt
  else if (d.chan c.tgt).st ≠ .disabled then d.ok
  else if d.laneRefuses c.tgt (d.chan c.tgt).upRate then d.fail stState
  else (d.chanEnabling c.tgt).ok
def specChanEnable : CmdSpec := { op := 0x0203, crit := true, lenOk := lenIs 0, body := bodyChanEnable }

def bodyTreeEnable (c : Cmd) (d : Dev) : Res :=
  d.onTree c.tgt ofsTgt fun _ =>
  if (treeChans c.tgt).any d.shutting then d.accepted stPending .treeEnable c.tgt
  else
    let (st, d') := d.treeEnableNow c.tgt
    if st = stOk then d'.ok else d.fail st
def specTreeEnable : CmdSpec := { op := 0x0201, crit := true, lenOk := lenIs 0, body := bodyTreeEnable }

/-- Disables one channel: queued enables are cancelled, and one in service leaves with the first plan built at least two frames on. -/
def Dev.disableChan (d : Dev) (ch : Nat) : Dev :=
  let d := d.complete .chanEnable ch stState
  let c := d.chan ch
  if (c.st = .enabling || c.st = .enabled) && c.disableAt.isNone then d.updChan ch (fun c => { c with disableAt := some d.effFrame }) else d

def bodyChanDisable (c : Cmd) (d : Dev) : Res := d.onChan c.tgt ofsTgt fun _ => (d.disableChan c.tgt).ok
def specChanDisable : CmdSpec := { op := 0x0204, crit := true, lenOk := lenIs 0, body := bodyChanDisable }

def bodyTreeDisable (c : Cmd) (d : Dev) : Res :=
  d.onTree c.tgt ofsTgt fun _ => ((treeChans c.tgt).foldl Dev.disableChan (d.complete .treeEnable c.tgt stState)).ok
def specTreeDisable : CmdSpec := { op := 0x0202, crit := true, lenOk := lenIs 0, body := bodyTreeDisable }

/-- Table 15-14. -/
def bodyChanConfig (c : Cmd) (d : Dev) : Res :=
  d.onChan c.tgt ofsTgt fun _ =>
  if c.tgt % 4 < c.u8 0 then d.fail stRange (ofsP 0)
  else if (d.chan c.tgt).st ≠ .disabled || d.laneRefuses c.tgt (c.u8 0) then d.fail stState
  else Dev.ok (d.updChan c.tgt (fun x => { x with upRate := c.u8 0 }))
def specChanConfig : CmdSpec := { op := 0x0205, lenOk := lenIs 4, body := bodyChanConfig }

/-- The enables queued behind a drain that has ended: the channel passes through DISABLED to ENABLING (R143). The LASER that follows still
has its bit clear (R142). -/
def Dev.queuedEnables (d : Dev) (ch : Nat) : Dev :=
  if (d.jobsOf .chanEnable ch).isEmpty then d
  else if d.laneRefuses ch (d.chan ch).upRate then d.complete .chanEnable ch stState
  else ((d.chanEnabling ch).updChan ch (fun c => { c with lit := false })).complete .chanEnable ch stOk

/-- The enables queued for a tree, once its last channel has drained. -/
def Dev.queuedTree (d : Dev) (tree : Nat) : Dev :=
  if (treeChans tree).any d.shutting || (d.jobsOf .treeEnable tree).isEmpty then d
  else
    let (st, d) := d.treeEnableNow tree
    d.complete .treeEnable tree st

/-- CHANNEL_DRAIN_END (R142): frames still queued are discarded, the framer stops, the channel is DISABLED; queued enables follow. -/
def Dev.opChannelDrainEnd (d : Dev) (ch : Nat) : Dev :=
  if !d.chanOk ch || (d.chan ch).st ≠ .draining || !d.tileRun (tileOfChan ch) then d
  else
    let d := d.advanceTo (d.chan ch).drainEnd
    let d := (d.chanQueues ch).foldl (fun d k => d.discardQueue k .drainDiscard ch) d
    ((d.chanDisabled ch).queuedEnables ch).queuedTree (ch / 4)

/-! ## The frame of one channel -/

/-- The messages that tell a channel's terminals its profile, when it begins to carry frames (Table 7-3, log 34). -/
def Dev.profilesOut (d : Dev) (ch : Nat) : Dev :=
  let ms : List PloamMsg := if ch % 4 = 0 then [.burstProfile, .ponId, .berInterval, .extBurst] else [.burstProfile, .systemProfile, .channelProfile]
  ms.foldl (fun d m => d.ploam ch m allTids) d

/-- A disable comes into effect: the channel drains, and what its ranging had under way ends (R142, R190). -/
def Dev.startDrain (d : Dev) (ch : Nat) : Dev :=
  let d := (d.huntEnd ch).pmLeft ch
  d.updChan ch (fun c => { c with
    st := .draining, disableAt := none, drainEnd := d.now + rawMs (d.drainMs (ch / 4)), winReq := [], groups := [], darkFrame := none,
    mapNext := none, broadNext := none, darkNext := none })

/-- The state a channel takes at the boundary of frame `n`: DRAINING where a disable comes into effect, the origin of its periods where it
first carries frames (R175), ENABLED (R141). -/
def Dev.chanAt (d : Dev) (ch n : Nat) : Dev :=
  let c := d.chan ch
  if c.disableAt.any (fun f => frameGe n (plusF f 2)) then d.startDrain ch
  else if (c.st = .enabling || c.st = .enabled) && d.laneCarries ch then
    let d := if c.carryFrom.isSome then d
      else (d.updChan ch (fun c => { c with
        carryFrom := some n, mapNext := some n, broadNext := some n, darkNext := some n, groupNext := n })).profilesOut ch
    if c.st = .enabling && frameGe n (plusF c.enableAt 2) then d.updChan ch (fun c => { c with st := .enabled }) else d
  else d

/-- Entries of a plan's bandwidth map: AID, first byte of its burst, bytes. -/
def Plan.map (p : Plan) : List (Nat × Nat × Nat) := (p.bursts.map (fun b => b.grants.map (fun g => (g.aid, b.startB, g.bytes)))).flatten

/-- The downstream frame `n` of a channel (R144 to R146): idle frames end the frame before; then its header with superframe counter and map,
PLOAM messages, the rest of a frame broken off, circuit containers and OMCI; the queues' frames follow while there is room. A standby unit
sends no PLOAM and relays no OMCI (R431, R433). -/
def Dev.downFrame (d : Dev) (ch n : Nat) : Dev :=
  let c := d.chan ch
  let p := c.plans.find? (fun p => p.frame = n)
  let d := if p.isNone && c.st ≠ .draining then d.count .planMiss ch else d
  let map := p.elim [] Plan.map
  let d := (d.dsEnd ch (plusF n (2 ^ 48 - 1))).emit (.dsFrame ch n (superframe (ch % 4) n) map)
  let room (d : Dev) (ploams : Nat) : Dev := (d.updChan ch (fun c => { c with dsRoom := Config.dsPayload (ch % 4) map.length ploams })).gemRest ch
  if d.standbyTree (ch / 4) then room (d.updChan ch (fun c => { c with ploamQ := [] })) 0
  else
    let d := d.sleepBoundary ch
    let d := room (d.ploamDrain ch n) (min (if ch % 4 = 0 then 1 else 16) (d.chan ch).ploamQ.length)
    let d := match p with | some p => d.openDark ch p | none => d
    let d := ((d.chan ch).winGrants.filter (fun g => g.1 = n)).foldl (fun d g => d.emit (.winGrant ch n g.2.1 g.2.2)) d
    let d := d.updChan ch (fun c => { c with winGrants := c.winGrants.filter (fun g => frameGe g.1 (plusF n 1)) })
    let d := ((d.termsOf ch).filter (fun e => d.inService e.1)).foldl (fun d e => d.circuitsOut ch e.1) d
    d.omciDrain ch

/-- A deferred window counts, and 16 deferrals in a row raise a notice (R177). -/
def Dev.deferWin (d : Dev) (ch : Nat) (w : WinReq) : Dev :=
  let n := w.deferred + 1
  let d := (d.count .windowsDeferred ch).updChan ch (fun c => { c with winReq := c.winReq ++ [{ w with deferred := n % 16 }] })
  if n = 16 then d.raise 0x06 0x01 0 (tileOfChan ch) ch w.kind.code false else d

/-- The build at frame `n` of the plan for frame `n + 2` (R215), from the windows submitted before; during a hunt those that are not dark wait (R188). -/
def Dev.buildPlan (d : Dev) (ch n : Nat) (changed : Bool) : Dev :=
  let f := plusF n 2
  let d := if d.standbyTree (ch / 4) then d else d.submitWindows ch n f
  let (ws, wait) := (d.chan ch).winReq.partition (fun w => (d.chan ch).rogue ≠ .hunt || w.kind = .dark)
  let (p, keep, defer) := d.makePlan ch n f ws false
  let d := d.updChan ch (fun c => { c with
    winReq := wait, rot := c.rot + 1, tidRot := c.tidRot + 1, plans := c.plans ++ [{ p with changed := changed }] })
  let d := defer.foldl (fun d w => d.deferWin ch w) d
  (d.updChan ch (fun c => { c with winReq := c.winReq ++ keep })).clipCount ch

/-- Everything a channel does at the boundary of frame `n`. -/
def Dev.chanFrame (d : Dev) (n : Nat) (changed : List Nat) (ch : Nat) : Dev :=
  if !d.tileRun (tileOfChan ch) || (d.chan ch).st = .disabled then d
  else
    let d := d.chanAt ch n
    let d := if d.laneCarries ch then d.downFrame ch n else d
    let c := d.chan ch
    let d := if d.chanLive ch && d.laneCarries ch && !c.disableAt.any (frameGe n) then d.buildPlan ch n (changed.contains ch) else d
    d.updChan ch (fun c => { c with plans := c.plans.filter (fun p => frameGe p.frame (plusF n (2 ^ 48 - 1))) })

/-! ## The blocks of a tree lane (R104, R110, R111) -/

/-- Channels of a tree whose LASER enable bit is set. -/
def Dev.laserMask (d : Dev) (tree : Nat) : Nat :=
  (treeChans tree).foldl (fun m ch => if (d.chan ch).lit && (d.chan ch).st != .disabled then m + 2 ^ (ch % 4) else m) 0

/-- The LASER of a tree: enables and validity 160 while the tree is lit from here, else none and validity 0. A unit in CLAIM mode enables in
every frame while it is ready and not forced away (R430). -/
def Dev.laserOf (d : Dev) (tree : Nat) : Nat :=
  match mget d.groups tree with
  | none => if d.lights tree then laserBody (d.laserMask tree) false 0 160 else laserBody 0 false 0 0
  | some g =>
    let on := if g.claim then d.unitReady tree g && !g.forcedAway else d.lights tree
    laserBody (if on then d.laserMask tree else 0) g.claim (if g.claim then g.claimNo else g.number) (if on then 160 else 0)

/-- Body of an FS: frame number, streams and rates, generation. -/
def Dev.fsOf (d : Dev) (tree n gen : Nat) : Nat :=
  let on (k : Nat) : Nat := let ch := 4 * tree + k; b2n ((d.chan ch).st != .disabled && d.laneCarries ch)
  let b3 := on 0 + 2 * on 1 + 4 * on 2 + 8 * ((d.chan (4 * tree + 2)).upRate % 4) + 32 * ((d.chan (4 * tree + 1)).upRate % 2)
  n % 65536 + 65536 * b3 + 2 ^ 24 * gen

/-- FS and LASER of a tree lane at the boundary of frame `n`: sent while the lane is UP with the layout of a lane frame, none in a loop
(R99); FS in block 0 and LASER in the first C position (R102, R110); a lane that nothing uses goes to lull, both directions, after its last
LASER (R54). The blocks between stand where `laneBlock` says. -/
def Dev.treeFrame (d : Dev) (n tree : Nat) : Dev :=
  let t := tileOfTree tree
  let l := tree % 8
  let x := d.lane t l
  if !d.laneLive t l || x.txLull then d
  else
    let d :=
      if x.neg ≠ .up || x.gen < 2 || d.laneLoop t l ≠ 0 || x.farLoop then d
      else
        let fs := d.fsOf tree n x.gen
        let la := d.laserOf tree
        let d := (d.sendBlock t l 0x1E fs (some 0)).sendBlock t l 0x84 la (some (laserAt x.gen))
        d.updLane t l (fun y => { y with fsSent := BitVec.ofNat 64 fs, laser := BitVec.ofNat 64 la })
    let d := (treeChans tree).foldl (fun d ch => if (d.chan ch).lit = ((d.chan ch).st != .disabled) then d else d.updChan ch (fun c => { c with lit := c.st != .disabled })) d
    if d.laneUsed t l then d else (d.txDown t l).rxDown t l

/-- An FS was due since the last boundary (R105, R114): one that was not recognised is counted. -/
def Dev.fsDue (d : Dev) (t l : Nat) : Dev :=
  let x := d.lane t l
  if x.neg ≠ .up || x.gen < 2 || !d.rxOpen t l || x.partnerLull then d
  else
    let d := if x.fsGot then d else (d.count .fsMiss (laneObj t l)).updLane t l (fun x => { x with fsMiss := min 2 (x.fsMiss + 1) })
    d.updLane t l (fun x => { x with fsGot := false })

/-- A test lane that is UP sends a TEST block of PRBS31 at each frame boundary (R91, log 31). -/
def Dev.testFrame (d : Dev) (t l : Nat) : Dev :=
  if d.laneLive t l && d.laneRole t l = 2 && (d.lane t l).neg = .up then
    let (b, s) := prbs48 (d.lane t l).prbs
    (d.updLane t l (fun x => { x with prbs := s })).sendBlock t l 0x66 b
  else d

/-- Defects of a tree that are counted in frames (Table 6-6): LOSt after 8 frames with bursts granted and none accepted, LSF clear for 8. -/
def Dev.treeDefects (d : Dev) (n tree : Nat) : Dev :=
  if !d.tileRun (tileOfTree tree) then d
  else
    let l := d.lane (tileOfTree tree) (tree % 8)
    let d :=
      if (d.tree tree).lsf && l.phyFault = 0 then
        (if 7 ≤ l.lsfClear then d.updTree tree (fun x => { x with lsf := false })
         else d.updLane (tileOfTree tree) (tree % 8) (fun x => { x with lsfClear := x.lsfClear + 1 }))
      else d
    let granted := (d.treeOn tree).any (fun ch => (d.chan ch).plans.any (fun p => p.frame = plusF n (2 ^ 48 - 1) && !p.bursts.isEmpty))
    if !granted || d.standbyTree tree then d
    else
      let r := (d.tree tree).noBurstRun + 1
      let d := d.updTree tree (fun x => { x with noBurstRun := min 8 r })
      if r = 8 then (d.updTree tree (fun x => { x with lost := true })).treeDefect tree else d

/-! ## FRAME_BOUNDARY -/

/-- Advances raw time until the frame clock reads `f` frames. -/
def Dev.reachFrame (d : Dev) (f : Int) : Nat → Dev
  | 0 => d
  | n + 1 =>
    let gap := f * frameU - d.frameClockU
    if gap ≤ 0 then d else (d.tickBy (BitVec.ofInt 64 gap)).reachFrame f n

/-- The frame whose boundary comes next: the present one while its boundary is at hand and was not processed (log 4). -/
def Dev.nextFrame (d : Dev) : Int :=
  if d.frameClockU % frameU < 65536 && d.time.lastFrame ≠ some d.frame then d.frameI else d.frameI + 1

/-- Plans whose deadline has passed are assembled. -/
def Dev.assembleDue (d : Dev) (ch : Nat) : Dev :=
  match (d.chan ch).nextPlan with
  | some p => if reached d.now (d.planDeadline p.frame) then d.assemble ch p else d
  | none => d

/-- Channels that are not DISABLED, ascending. -/
def Dev.onList (d : Dev) : List Nat := (d.chans.filter (fun e => e.2.st != .disabled && d.chanOk e.1)).map (fun e => e.1)

/-- FRAME_BOUNDARY (R133): what falls due at the boundary of the next frame. Values and changes that builds see from this frame come first,
then each channel's downstream frame and build, then the blocks of every tree lane and the protection units. -/
def Dev.opFrameBoundary (d : Dev) : Dev :=
  if !d.ready then d
  else
    let d := d.reachFrame d.nextFrame 8
    let n := d.frame
    let d : Dev := { d with time := { d.time with lastFrame := some n } }
    let d := d.onList.foldl Dev.assembleDue d
    let d := (((d.trafficBoundary.ponBoundary).circuitBoundary).fmChanges n).fmBoundary n
    let changed := d.standingChanges n
    let d := d.grantChanges n
    let d := (d.groups.map (fun e => e.1)).foldl Dev.groupRefresh d
    let d := d.onList.foldl (fun d ch => d.chanFrame n changed ch) d
    let d := (List.range d.nTrees).foldl (fun d t => ((d.fsDue (tileOfTree t) (t % 8)).treeFrame n t).treeDefects n t) d
    let d := d.tileList.foldl (fun d t => (d.testFrame t 8).testFrame t 9) d
    (d.groups.map (fun e => e.1)).foldl (fun d t => d.protFrame t n) d

/-! ## SECOND_BOUNDARY (R117, R129, R135, R471) -/

/-- The periodic snapshot of a second; a snapshot requested for the same instant stands for both (R471). -/
def Dev.periodicSnap (d : Dev) (s : Nat) : Dev :=
  let p := d.snapPeriodS
  if p = 0 || s % p ≠ 0 then d
  else
    let t : Int := (s : Int) * 1000000000
    match d.join.snaps.find? (fun j => j.atT = t && !j.taken) with
    | some j => (d.capture j j.late).snapTaken j.id
    | none => d.capture { id := 0, atT := t, periodic := true } false

/-- SECOND_BOUNDARY: performance seconds and bins, the re-anchor, the rate history, PPS_OUT, the margin of the grant schedulers and the
periodic snapshot. -/
def Dev.opSecondBoundary (d : Dev) : Dev :=
  if !d.ready then d
  else
    let here := d.netU % secU < 65536 && d.time.topSecond < d.netSec
    let s := if here then d.netSec else max d.time.topSecond d.netSec + 1
    let d := if here then d else d.advanceTo (d.rawReach ((s : Int) * secU))
    let d : Dev := { d with time := { d.time with topSecond := s, rateHist := (d.time.rate.toInt :: d.time.rateHist).take 60 } }
    let d := ((d.pmSecond s).reanchor).slewDone
    let pulse := d.ppsOutMode = 1 || (d.ppsOutMode = 2 && (d.time.st = .locked || d.time.st = .holdover))
    let d := if pulse then Dev.emit { d with time := { d.time with ppsOutEnd := d.now + rawUs d.ppsWidthUs } } .pps else d
    let d : Dev := { d with tiles := d.tiles.map (fun e => (e.1, { e.2 with marginUs := e.2.marginCur.getD 0, marginCur := none })) }
    d.periodicSnap s

/-- Whether PPS_OUT is high. -/
def Dev.ppsHigh (d : Dev) : Bool := !reached d.now d.time.ppsOutEnd

/-! ## FAST_SES_INTERVAL (R167) -/

/-- One tree at the end of a 1 ms interval: a defect counts that was present at any time within it, so that one which clears in the interval in
which the hold expires still lets the request be raised. -/
def Dev.fastSes (d : Dev) (tree : Nat) : Dev :=
  let x := d.tree tree
  let bad := (0 < x.ivBlocks && 3 * x.ivBlocks ≤ 10 * x.ivErr) || x.ivDefect || x.lost || x.lfs || x.lsf
  let hold := d.protHoldMs tree
  let up := if bad then x.fastRun + 1 else 0
  let down := if bad then 0 else x.clearRun + 1
  let raised := hold ≠ 0 && hold ≤ up && !x.protReq
  let req := hold ≠ 0 && (raised || (x.protReq && down < hold))
  let d := d.updTree tree (fun x => { x with
    ivErr := 0, ivBlocks := 0, ivDefect := x.lost || x.lfs || x.lsf, fastSes := bad, fastRun := min 1000 up, clearRun := min 1000 down, protReq := req })
  let d := d.groupRefresh tree
  if raised then (d.count .protRequests tree).raiseCause tree 6 else d

/-- FAST_SES_INTERVAL: eight frames end. -/
def Dev.opFastSesInterval (d : Dev) : Dev :=
  if !d.ready then d
  else
    let i := d.frameI / 8
    let here := d.frameClockU % (8 * frameU) < 65536 && d.time.lastIv ≠ some (lowBits 45 i)
    let j := if here then i else i + 1
    let d := d.reachFrame (8 * j) 8
    let d : Dev := { d with time := { d.time with lastIv := some (lowBits 45 j) } }
    ((List.range d.nTrees).filter (fun t => d.tileRun (tileOfTree t))).foldl Dev.fastSes d

/-! ## Meanings -/

/-- CMD_TREE_ENABLE (R141). -/
def execCmdTreeEnable (p : Packet) (s : State) : Host.Outcome State Fault Refusal := live (Dev.runCommand specTreeEnable p) s

/-- CMD_TREE_DISABLE (R142). -/
def execCmdTreeDisable (p : Packet) (s : State) : Host.Outcome State Fault Refusal := live (Dev.runCommand specTreeDisable p) s

/-- CMD_CHAN_ENABLE (R143). -/
def execCmdChanEnable (p : Packet) (s : State) : Host.Outcome State Fault Refusal := live (Dev.runCommand specChanEnable p) s

/-- CMD_CHAN_DISABLE (R142). -/
def execCmdChanDisable (p : Packet) (s : State) : Host.Outcome State Fault Refusal := live (Dev.runCommand specChanDisable p) s

/-- CMD_CHAN_CONFIG (R139). -/
def execCmdChanConfig (p : Packet) (s : State) : Host.Outcome State Fault Refusal := live (Dev.runCommand specChanConfig p) s

/-- FRAME_BOUNDARY (R133). -/
def execFrameBoundary (s : State) : Host.Outcome State Fault Refusal :=
  live (fun d => d.opFrameBoundary) s

/-- SECOND_BOUNDARY (R135). -/
def execSecondBoundary (s : State) : Host.Outcome State Fault Refusal :=
  live (fun d => d.opSecondBoundary) s

/-- FAST_SES_INTERVAL (R167). -/
def execFastSesInterval (s : State) : Host.Outcome State Fault Refusal :=
  live (fun d => d.opFastSesInterval) s

/-- CHANNEL_DRAIN_END (R142). -/
def execChannelDrainEnd (ch : Nat) (s : State) : Host.Outcome State Fault Refusal :=
  live (fun d => d.opChannelDrainEnd ch) s

end Sys2Proof.Machine
end

