-- ==== Sys2Proof/Machine/Regs.lean ====
section
/-!
DEFINITION. The register window of BAR0 (chapter 21): the word every register reads, the reads with effects, and register writes.
-/

namespace Sys2Proof.Machine

/-- A word from fields, each a value placed at its lowest bit. -/
def word (fs : List (Nat × Nat)) : Nat := (fs.map (fun f => f.1 * 2 ^ f.2)).foldl (· + ·) 0

/-! ## Codes -/

def TileState.code : TileState → Nat
  | .boot => 1 | .run => 2 | .reset => 3 | .assay => 4 | .isolated => 5
def FeedState.code : FeedState → Nat
  | .off => 0 | .under => 1 | .qualifying => 2 | .good => 3 | .overV => 4 | .reversed => 5
def BootStage.code : BootStage → Nat
  | .rom => 0 | .links => 1 | .load => 2 | .waitHost => 3 | .meminit => 4 | .tiles => 5 | .ready => 6 | .failed => 15
def NegState.code : NegState → Nat
  | .down => 0 | .locking => 1 | .abil => 2 | .step => 3 | .up => 4
def ChanState.code : ChanState → Nat
  | .disabled => 0 | .enabling => 1 | .enabled => 2 | .draining => 3
def RogueState.code : RogueState → Nat
  | .normal => 0 | .hunt => 1 | .unknown => 2
def ChkState.code : ChkState → Nat
  | .idle => 0 | .queued => 1 | .running => 2 | .suspended => 3 | .waitData => 4 | .done => 5 | .error => 6

/-- Code of a variant in GLB_ID. -/
def Variant.code : Variant → Nat
  | .thz2 => 2 | .thz4 => 4 | .thz8 => 8

/-! ## Global window (Table 21-6) -/

/-- GLB_ID of the first issued stepping (R5). -/
def Dev.glbId (d : Dev) : Nat := word [(0x74, 24), (d.variant.code, 20), (d.nTiles, 16), (1, 8), (1, 4)]

/-- GLB_TILE_STATE: a tile that is not in the package reads ABSENT (R37). -/
def Dev.tileStates (d : Dev) : Nat := word (d.tileList.map (fun t => ((d.tile t).st.code, 4 * t)))

def Dev.feedStatus (d : Dev) : Nat :=
  word [(d.pwr.changeovers, 16), (d.pwr.feedB.st.code, 12), (d.pwr.feedA.st.code, 8), (b2n d.pwr.pfwSeen, 5)]
def Dev.feedVolt (d : Dev) : Nat := word [(min 0xFFFF d.pwr.feedB.mv, 16), (min 0xFFFF d.pwr.feedA.mv, 0)]
def Dev.feedCurr (d : Dev) : Nat := word [(min 0xFFFF d.pwr.feedB.cur, 16), (min 0xFFFF d.pwr.feedA.cur, 0)]

/-- PWR_DISC_STATUS: the filtered levels are those of the inputs, stuck ones included. -/
def Dev.discStatus (d : Dev) : Nat :=
  word ([(d.pwr.shortPulses, 24), (d.pwr.protStuck.toNat, 10), (b2n d.pwr.quenchStuck, 9), (b2n d.pwr.resetStuck, 8),
    (b2n d.pwr.pinQuench.asserted, 1), (b2n d.pwr.pinReset.asserted, 0)]
    ++ [0, 1, 2, 3].map (fun n => (b2n (mgetD d.pwr.pinProt n {}).asserted, 2 + n)))

def Dev.bootStatus (d : Dev) : Nat :=
  word [(d.rst.error, 24), (b2n (d.rst.strap = 3), 20), (d.rst.strap, 18), (d.rst.source, 16), (d.rst.stages, 12), (d.rst.stage.code, 0)]

def Dev.timeStatusWord (d : Dev) : Nat :=
  word [(d.time.st.code, 28), (if d.hostServo then 0 else d.time.source, 26), (b2n d.time.useB, 25), (b2n d.time.goodA, 24),
    (b2n d.time.goodB, 23), (b2n (d.phiU / 65536 ≠ 0), 22), (b2n d.time.stepRefused, 21), (b2n d.time.stepped, 20),
    (d.time.ppsRejected, 8), (d.time.ptpPort % 256, 0)]

/-- FM_STATUS; a rejection counts as of the last second while its second or the next runs. -/
def Dev.fmStatus (d : Dev) : Nat :=
  let n (f : TrainState → Bool) : Nat := (d.fm.trains.filter (fun e => f e.2.st)).length
  let recent (s : Nat) : Bool := s ≠ 0 && d.netSec ≤ s
  word [(n (fun s => s = .tracking || s = .stale), 21), (n (· = .lost), 10), (b2n (recent d.fm.overSec), 9), (b2n (recent d.fm.noSlotSec), 8)]

def Dev.cruStateWord (d : Dev) : Nat :=
  word [(d.cru.life.code, 24), (b2n (d.cru.ready && d.cru.root.isSome), 23), (b2n (d.cru.ready && d.cru.entropyOk), 22), (b2n d.cru.scheme, 21),
    (b2n d.cru.transition.isSome, 20), (b2n d.cru.jtag, 19), (min 255 d.cru.tokenFails, 8)]

def Dev.slotSummary (d : Dev) : Nat :=
  let used := d.cru.slots.filter (fun e => e.2.kind ≠ 0)
  word [((used.filter (fun e => !e.2.stale)).length, 23), ((used.filter (fun e => e.2.stale)).length, 14)]

def Dev.lckStatus (d : Dev) : Nat := word [(b2n d.host.lckBad, 31), (d.host.lckNum, 16), (d.host.lckWriter, 0)]

def Dev.fltFirst (d : Dev) : Nat :=
  match d.flt.first with
  | none => 0
  | some r => word [(r.cls, 29), (b2n r.esc, 28), (if r.tile = 0xFF then 0xF else r.tile % 16, 24), (r.block, 16), (r.event, 8), (1, 0)]

/-- FLT_STATUS; an F4 counts as latched until it is acknowledged. -/
def Dev.fltStatus (d : Dev) : Nat :=
  word [(b2n d.flt.quench, 31), (b2n (d.flt.quench && d.flt.extQuench), 30),
    (b2n (d.flt.ring.any (fun r => r.cls = 4 && r.latched && !r.acked)), 29), (b2n d.flt.overflow, 28), (b2n d.alive, 27), (b2n d.faultN, 26),
    (d.flt.seq % 65536, 0)]

def Dev.unackOf (d : Dev) (c : Nat) : Nat := min 0xFF (nth d.flt.unack c)

def Dev.asyCfg (d : Dev) : Nat :=
  word [(d.asy.set, 6), (d.asy.boot, 4), (b2n d.asy.forced, 3), (b2n d.asy.oneShot.isSome, 2)]

/-- The words of the global window; an address that no register has reads as zero. -/
def Dev.globalWord (d : Dev) (a : Nat) : Nat :=
  if a = 0x000 then d.glbId
  else if a = 0x008 then d.tileStates
  else if a = 0x010 then d.host.irq.toNat
  else if a = 0x100 then d.feedStatus
  else if a = 0x104 then d.feedVolt
  else if a = 0x108 then d.feedCurr
  else if a = 0x110 then word [(min 0xFFFF d.estimate.pwr.estW, 16), (d.reg 0x110 % 65536, 0)]
  else if a = 0x120 then d.discStatus
  else if a = 0x200 then d.rst.cause.toNat
  else if a = 0x204 then d.bootStatus
  else if 0x240 ≤ a && a < 0x270 then natAt d.rst.hallmark (a - 0x240) 4
  else if a = 0x300 then d.now.toNat % 2 ^ 32
  else if a = 0x304 then d.time.capRawHi.toNat
  else if a = 0x308 then lowBits 16 d.netU
  else if a = 0x30C then d.time.capNs.toNat
  else if a = 0x310 then d.time.capSLo.toNat
  else if a = 0x314 then d.time.capSHi.toNat % 65536
  else if a = 0x318 then d.time.rate.toNat
  else if a = 0x328 then d.timeStatusWord
  else if a = 0x32C then d.time.capFLo.toNat
  else if a = 0x330 then d.time.capFHi.toNat % 65536
  else if a = 0x334 then lowBits 32 d.time.frK
  else if a = 0x338 then lowBits 32 (d.phiU / 65536)
  else if a = 0x40C then d.fmStatus
  else if a = 0x800 then d.cruStateWord
  else if a = 0x804 then Config.deviceId.toNat % 2 ^ 32
  else if a = 0x808 then Config.deviceId.toNat / 2 ^ 32
  else if a = 0x80C then d.slotSummary
  else if a = 0x904 then d.lckStatus
  else if a = 0xA00 then d.sysStatus
  else if a = 0xA04 then d.sysOpTime
  else if a = 0xA08 then d.sysOpTimeNs
  else if 0xA10 ≤ a && a < 0xA20 then d.sysPortStatus ((a - 0xA10) / 4)
  else if a = 0xC00 then d.fltFirst
  else if a = 0xC04 then (match d.flt.first with | some r => r.inst | none => 0)
  else if a = 0xC08 then d.fltStatus
  else if a = 0xC0C then word [(d.unackOf 3, 24), (d.unackOf 2, 16), (d.unackOf 1, 8), (d.unackOf 0, 0)]
  else if a = 0xC10 then d.unackOf 4
  else if a = 0xC14 then word [(nth d.flt.recov 1, 16), (nth d.flt.recov 0, 0)]
  else if a = 0xC18 then word [(nth d.flt.recov 3, 16), (nth d.flt.recov 2, 0)]
  else if a = 0xC1C then word [(min 255 (lastHour d.flt.aon d.flt.f4At).length, 16), (nth d.flt.recov 4, 0)]
  else if a = 0xD00 then d.asyCfg
  else if 0xD20 ≤ a && a < 0xD20 + 0x20 * d.nTiles then
    let t := (a - 0xD20) / 0x20
    let o := (a - 0xD20) % 0x20
    if o = 0 then d.asyWord t
    else if 0x10 ≤ o then (d.asyTile t).sig.toNat / 2 ^ (8 * (o - 0x10)) % 2 ^ 32
    else 0
  else if a = 0x100C then word [(d.cnt.evtLost, 16), (d.cnt.smpLost, 0)]
  else if a = 0x10C || a = 0x124 || a = 0x208 || a = 0x20C || a = 0x280 || a = 0x31C || a = 0x320 || a = 0x324 || a = 0x33C
    || a = 0x400 || a = 0x404 || a = 0x408 || a = 0x500 || (0x600 ≤ a && a < 0x700) || (0x700 ≤ a && a < 0x710) || a = 0x900
    || a = 0xB00 || a = 0xC20 || (0x1000 ≤ a && a < 0x100C) || (0x1100 ≤ a && a < 0x1100 + 64 * d.nTiles) then d.reg a
  else 0

/-! ## Page registers (Table 21-7) -/

/-- What a lock reads: 0 when free, else busy and its owner; locks 240-255 through a host alias always read busy with owner 0
(R374, R375). -/
def Dev.lockWord (d : Dev) (lock master : Nat) : Nat :=
  if 240 ≤ lock && 0x100 ≤ master && master < 0x110 then 2 ^ 31
  else match mget d.host.locks lock with
    | some o => 2 ^ 31 + o
    | none => 0

def MboxChan.status (m : MboxChan) : Nat :=
  word [(b2n m.send.isSome, 31), (b2n m.recv.isSome, 30), (b2n m.collision, 29), (b2n m.badLen, 28), (b2n m.notifyLost, 27),
    (match m.recv with | some x => x.bytes.length | none => 0, 0)]

/-- A word of a mailbox page; the window returns the receive area, which keeps a message taken (R368, R370). -/
def MboxChan.page (m : MboxChan) (o : Nat) : Nat :=
  if o < 0xF00 then natAt m.recvOld o 4
  else if o = 0xF04 then m.status
  else if o = 0xF0C then 2 * b2n m.irqFree + b2n m.irqRecv
  else 0

/-- A word of a check-engine page; in verify mode the tag registers read as zero. -/
def ChkPage.page (x : ChkPage) (now : Raw) (o : Nat) : Nat :=
  if o = 0 then word [(b2n x.last, 30), (b2n x.verify, 29), (x.prio, 26), (x.tagLen, 16), (x.slot, 0)]
  else if o = 4 then x.len
  else if o = 8 then word [(x.st.code, 29), (b2n x.mtch, 28), (b2n x.collision, 27), (x.error, 24),
    ((if x.st = .running then min x.total (x.doneLen + x.held now / (25 * 65536)) else x.bytes) % 2 ^ 24, 0)]
  else if 0x10 ≤ o && o < 0x20 then (if x.verify then 0 else natAt x.mac (o - 0x10) 4)
  else 0

/-- A word of the table-access window. -/
def Tac.page (x : Tac) (o : Nat) : Nat :=
  if o = 4 then word [(b2n x.busy, 31), (b2n x.collision, 30), (b2n x.found, 29), (b2n x.replaced, 28), (b2n x.evicted, 27), (x.result, 0)]
  else if o = 8 then x.index.toNat
  else if 0x40 ≤ o && o < 0x60 then natAt x.key (o - 0x40) 4
  else if 0x60 ≤ o && o < 0x78 then natAt x.act (o - 0x60) 4
  else if 0x78 ≤ o && o < 0x80 then natAt x.metad (o - 0x78) 4
  else 0

/-! ## Tile windows (Table 21-8) -/

def Dev.tileRail (d : Dev) (t : Nat) : Nat := word [((d.tile t).railFault.toNat, 8), ((d.tile t).railOk.toNat, 0)]
def Dev.tileTemp (d : Dev) (t : Nat) : Nat := word [(lowBits 8 (d.tile t).peakC, 24), (lowBits 8 (d.tile t).nowC, 16), ((d.tile t).level, 0)]
def Dev.tileLog (d : Dev) (t : Nat) : Nat := word [((d.tile t).resets, 16), ((d.tile t).lastCause, 0)]
def Dev.cdcStatus (d : Dev) (t : Nat) : Nat := word [((d.tile t).cdcOvf.toNat, 16), ((d.tile t).cdcResync.toNat, 0)]
def Dev.tileTimeErr (d : Dev) (t : Nat) : Nat := word [(b2n (t = 0 || (d.tile t).aligned), 31), (lowBits 16 (d.tile t).timeErr, 0)]

/-- LANE_CFG: the role a bonded lane 8 or 9 is to take, UNUSED on an unbonded lane (R86). -/
def Dev.laneCfgWord (d : Dev) (t l : Nat) : Nat :=
  let role := if l < 8 then 0 else if d.laneBonded t l then d.laneRoleCfg t l else 3
  word [(role, 24), (fieldN (d.laneCfg t l) 23 16, 16)]

/-- Word of LANE_STATUS; a lane in a near-end loop, in a far-end loop its partner accepted, or serving one reads LOOP. -/
def Lane.status (x : Lane) (loop : Nat) : Nat :=
  word [(x.gen, 28), (x.partnerGens.toNat, 24), (x.failedGens.toNat, 20), (b2n x.locked, 19), (b2n x.frameSync, 18), (b2n x.txLull, 17),
    (b2n x.rxLull, 16), (b2n x.partnerLull, 15), (b2n x.farLoop, 14), (b2n x.sd, 13), (if loop = 1 || loop = 2 || x.farLoop || x.loopWait = 0x11 then 5 else x.neg.code, 8), (x.slipPos, 0)]

/-- Mode in force of an uplink: that of its first sub-port (Table 4-9). -/
def Dev.uplActive (d : Dev) (u : Nat) : Nat := (d.sub (4 * u)).mode

/-- Terminals of a channel in IN_SERVICE or LOW_POWER. -/
def Dev.serviceCount (d : Dev) (ch : Nat) : Nat :=
  ((d.termsOf ch).filter (fun e => e.2.st = .inService || e.2.st = .lowPower)).length

def Dev.treeStatus (d : Dev) (tree : Nat) : Nat :=
  let x := d.tree tree
  word [(min 255 (((treeChans tree).map d.serviceCount).foldl (· + ·) 0), 24), (b2n x.protReq, 15), (b2n x.fastSes, 14), (b2n x.lsf, 13),
    (b2n x.lfs, 12), (b2n x.lost, 11), (b2n x.pm.unavail, 10), ((d.lane (tileOfTree tree) (tree % 8)).phyLit.toNat, 7),
    (b2n (!(d.jobsOf .treeEnable tree).isEmpty), 6)]

def Dev.chanStatus (d : Dev) (ch : Nat) : Nat :=
  let c := d.chan ch
  word [(c.st.code, 30), (b2n (!(d.jobsOf .chanEnable ch).isEmpty), 29), (c.upRate, 27),
    (b2n ((d.termsOf ch).any (fun e => e.2.pm.unavail)), 26), (d.serviceCount ch, 0)]

def Dev.rngStatus (d : Dev) (ch : Nat) : Nat :=
  let c := d.chan ch
  word [(c.rogue.code, 30), (b2n c.calConst.isSome, 29), (c.lastEnergy, 16), (c.teqd, 0)]

/-- Guaranteed line load of a channel (R202). -/
def Dev.loadOf (d : Dev) (ch : Nat) : Nat := d.loadWith ch d.nAllocs none

def Dev.gsStatus (d : Dev) (ch : Nat) : Nat :=
  let c := d.chan ch
  let fb := (d.rate ch).fb
  word [(min 1000 (d.loadOf ch * 1000 / fb), 22), (b2n (fb * (100 - d.winReservePct ch) < d.loadOf ch * 100), 21), (b2n (0 < c.standingRun), 20),
    (b2n (d.engineOf ch).isNone, 19), (min 255 c.standingRun, 8), ((d.engineOf ch).getD 0, 0)]

/-- Cell parts of a tile that a train engages or a floor hold keeps (FM_TILE_STATUS). -/
def Dev.partsEngaged (d : Dev) (t : Nat) : Nat :=
  ((d.fm.trains.flatMap (fun e => (e.2.engaged.map (fun x => x.1) ++ e.2.floor ++ e.2.pre.map (fun x => x.1)).filter (fun x => x % 8 = t))).eraseDups).length

def Dev.fmTileStatus (d : Dev) (t : Nat) : Nat :=
  word [(d.partsEngaged t, 20), ((d.fm.clips.filter (fun x => d.tileOfAlloc x.1 = t)).length, 0)]

def Dev.msecTile (d : Dev) (t : Nat) : Nat :=
  word [((d.msec.sas.filter (fun e => e.2.st ≠ .empty && d.tileOfSa e.1 = t)).length, 21), ((d.msec.scs.filter (fun e => d.tileOfSc e.1 = t)).length, 11),
    ((d.msec.secys.filter (fun e => d.tileOfSecy e.1 = t)).length, 2)]

def Dev.rekeyStatus (d : Dev) (t : Nat) : Nat :=
  let txs := ((d.msec.scs.filter (fun e => e.2.tx && d.tileOfSc e.1 = t)).map (fun e => e.1))
  word [((txs.filter (fun s => d.pastMark s && (d.saIn s .ready).isNone)).length, 10), ((txs.filter (fun s => (d.saIn s .exhausted).isSome)).length, 0)]

def Dev.groupStatus (d : Dev) (tree : Nat) : Nat :=
  match mget d.groups tree with
  | none => 0
  | some g =>
    let heard (t : Option Raw) : Bool := match t with | some x => (d.now - x).toNat ≤ (rawMs (20 + d.guardMs)).toNat | none => false
    word [(g.st.code, 29), (b2n g.sideB, 28), (b2n g.dual, 27), (b2n g.claim, 26), (b2n g.lockout, 25), (b2n (g.force ≠ 0), 24),
      (b2n (g.request || g.digReq), 23), (b2n (match g.holdEnd with | some e => !reached d.now e | none => false), 22), (b2n (heard g.rxSys), 21),
      (b2n (heard g.rxIn), 20), (g.runs.foldl max 0, 16), (if g.claim then g.claimNo else g.number, 0)]

/-- Words of a tile window at an offset. Channel registers use the slot; slots with k = 3 read as zero (R477). -/
def Dev.tileWord (d : Dev) (t o : Nat) : Nat :=
  if o = 0x1000 then d.tileRail t
  else if o = 0x1004 then d.tileTemp t
  else if o = 0x1100 then d.tileLog t
  else if o = 0x1104 then d.cdcStatus t
  else if o = 0x3000 then d.tileTimeErr t
  else if !d.tileRun t then 0
  else if 0x2000 ≤ o && o < 0x2280 then
    (let l := (o - 0x2000) / 0x40
     if o % 0x40 = 0 then d.laneCfgWord t l else if o % 0x40 = 4 then (d.lane t l).status (d.laneLoop t l) else 0)
  else if o = 0x2400 || o = 0x2404 then
    (let u := 2 * t + (o - 0x2400) / 4
     word [(d.uplActive u, 4), (d.uplMode u, 0)])
  else if 0x4000 ≤ o && o < 0x4200 then
    (let tree := 8 * t + (o - 0x4000) / 0x40
     let r := o % 0x40
     if r = 0 then d.treeStatus tree
     else if 4 ≤ r && r < 0x10 then d.chanStatus (4 * tree + (r - 4) / 4)
     else if 0x10 ≤ r && r < 0x20 then d.reg (tileWin t + o)
     else 0)
  else if 0x5000 ≤ o && o < 0x5400 then
    (let ch := 32 * t + (o - 0x5000) / 0x20
     if ch % 4 = 3 then 0
     else if o % 0x20 = 0 || o % 0x20 = 4 then d.reg (tileWin t + o)
     else if o % 0x20 = 8 then d.rngStatus ch
     else 0)
  else if o = 0x5400 then d.reg (tileWin t + o)
  else if 0x6000 ≤ o && o < 0x6200 then
    (let ch := 32 * t + (o - 0x6000) / 0x10
     if ch % 4 = 3 then 0
     else if o % 0x10 = 0 then d.reg (tileWin t + o)
     else if o % 0x10 = 4 then d.gsStatus ch
     else 0)
  else if o = 0x6400 then d.reg (tileWin t + o)
  else if o = 0x6404 then word [((d.tile t).marginUs, 16), ((d.tile t).grantEngines, 0)]
  else if o = 0x7000 then d.fmTileStatus t
  else if o = 0x8000 then word [((d.clsTile t).overflow.length, 18), ((d.clsTile t).learns.length, 5)]
  else if o = 0x8004 then d.bucketsFree t
  else if o = 0x9000 then (d.pool t).free
  else if o = 0x9004 then (d.pool t).minFree
  else if o = 0x9008 then d.reg (tileWin t + o)
  else if o = 0x900C then (d.pool t).badPtr.toNat
  else if o = 0x9010 then word [(b2n (d.pool t).badValid, 31), ((d.pool t).badParty, 8), ((d.pool t).badReason, 0)]
  else if o = 0xA000 then word [(d.shapersOn t, 17), ((d.meters.filter (fun e => e.2.tile = t)).length, 1)]
  else if o = 0xA004 then d.pktModeOn t
  else if o = 0xB000 then d.msecTile t
  else if o = 0xB004 then d.rekeyStatus t
  else if 0xC000 ≤ o && o < 0xC080 then
    (let tree := 8 * t + (o - 0xC000) / 0x10
     if o % 0x10 = 0 then d.groupStatus tree
     else if o % 0x10 = 4 then (match mget d.groups tree with | some g => lowBits 32 (g.delta.getD g.pathOfs) | none => 0)
     else 0)
  else 0

/-- Whether the CXL endpoint answers reads of the global window (R72). -/
def Dev.endpointUp (d : Dev) : Bool := d.host.linkUp && !d.pwr.pfw && d.rst.stage ≠ .rom && d.rst.stage ≠ .links

/-- The word an aligned 32-bit read of BAR0 returns, without the effect it may have (R9, R362, R476 to R480, R484). -/
def Dev.regRead (d : Dev) (a : Nat) : Nat :=
  if a < 0x10000 then (if d.endpointUp then d.globalWord a else 0)
  else if !d.hostOk then 0
  else if a < 0x20000 then (if a % 0x1000 < 0x400 then d.lockWord (a % 0x1000 / 4) (0x100 + (a - 0x10000) / 0x1000) else 0)
  else if a < 0x60000 then (if a < 0x40000 then (d.mbox ((a - 0x20000) / 0x1000)).page (a % 0x1000) else 0)
  else if a < 0x70000 then (if 0x64000 ≤ a then (d.chkPage ((a - 0x60000) / 0x1000)).page d.now (a % 0x1000) else 0)
  else if a < 0x80000 then 0
  else if a < 0x100000 then (if d.variant = .thz8 then 0 else d.tac.page (a - 0x80000))
  else
    let t := a / 0x100000 - 1
    if t < d.nTiles then d.tileWord t (a % 0x100000) else 0

/-! ## Reads with effects (Table 21-3) -/

/-- A read that returns a word and leaves a state; a window that does not answer returns zero and nothing changes. -/
def Dev.readFx (d : Dev) (a : Nat) (f : Dev → Dev) : Dev :=
  let ok := if a < 0x10000 then d.endpointUp else d.hostOk
  if ok then { f d with lastRead := d.regRead a } else { d with lastRead := 0 }

/-- TIME_RAW_LO_READ (R480). -/
def Dev.opTimeRawLoRead (d : Dev) : Dev :=
  d.readFx 0x300 fun d => { d with time := { d.time with capRawHi := BitVec.ofNat 32 (d.now.toNat / 2 ^ 32) } }

/-- TIME_NOW_FRAC_READ (R480). -/
def Dev.opTimeNowFracRead (d : Dev) : Dev :=
  d.readFx 0x308 fun d => { d with time := { d.time with
    capNs := BitVec.ofNat 32 d.netSubNs, capSLo := BitVec.ofNat 32 d.netSec, capSHi := BitVec.ofNat 32 (d.netSec / 2 ^ 32),
    capFLo := BitVec.ofNat 32 d.frame, capFHi := BitVec.ofNat 32 (d.frame / 2 ^ 32) } }

/-- TIME_STATUS_READ (R480): clears pps_rejected. -/
def Dev.opTimeStatusRead (d : Dev) : Dev := d.readFx 0x328 fun d => { d with time := { d.time with ppsRejected := 0 } }

/-- PWR_DISC_STATUS_READ (R480): clears short_pulses. -/
def Dev.opPwrDiscStatusRead (d : Dev) : Dev := d.readFx 0x120 fun d => { d with pwr := { d.pwr with shortPulses := 0 } }

/-- PWR_TILE_TEMP_READ (R480): peak_c starts again with no reading. The lead tile answers for every present tile (R478). -/
def Dev.opPwrTileTempRead (d : Dev) (tile : Nat) : Dev :=
  if d.nTiles ≤ tile then { d with lastRead := 0 }
  else d.readFx (tileWin tile + 0x1004) fun d => d.updTile tile (fun x => { x with peakC := -128 })

/-- BPM_MIN_FREE_READ (R480): the minimum restarts from the free cells. -/
def Dev.opBpmMinFreeRead (d : Dev) (tile : Nat) : Dev :=
  if !d.tileRun tile then { d with lastRead := 0 }
  else d.readFx (tileWin tile + 0x9004) fun d => d.setPool tile { d.pool tile with minFree := (d.pool tile).free }

/-- CNT_LOST_READ (R480): clears both lost-record counts. -/
def Dev.opCntLostRead (d : Dev) : Dev := d.readFx 0x100C fun d => { d with cnt := { d.cnt with evtLost := 0, smpLost := 0 } }

/-! ## Meanings -/

/-- TIME_RAW_LO_READ (R480). -/
def execTimeRawLoRead (s : State) : Host.Outcome State Fault Refusal :=
  live (fun d => d.opTimeRawLoRead) s

/-- TIME_NOW_FRAC_READ (R480). -/
def execTimeNowFracRead (s : State) : Host.Outcome State Fault Refusal :=
  live (fun d => d.opTimeNowFracRead) s

/-- TIME_STATUS_READ (R480). -/
def execTimeStatusRead (s : State) : Host.Outcome State Fault Refusal :=
  live (fun d => d.opTimeStatusRead) s

/-- PWR_DISC_STATUS_READ (R480). -/
def execPwrDiscStatusRead (s : State) : Host.Outcome State Fault Refusal :=
  live (fun d => d.opPwrDiscStatusRead) s

/-- PWR_TILE_TEMP_READ (R480). -/
def execPwrTileTempRead (tile : Nat) (s : State) : Host.Outcome State Fault Refusal :=
  live (fun d => d.opPwrTileTempRead tile) s

/-- BPM_MIN_FREE_READ (R480). -/
def execBpmMinFreeRead (tile : Nat) (s : State) : Host.Outcome State Fault Refusal :=
  live (fun d => d.opBpmMinFreeRead tile) s

/-- CNT_LOST_READ (R480). -/
def execCntLostRead (s : State) : Host.Outcome State Fault Refusal :=
  live (fun d => d.opCntLostRead) s

end Sys2Proof.Machine
end

