-- ==== Sys2Proof/Machine/Attach.lean ====
section
/-!
DEFINITION. Host attachment (chapter 14): locks, receive areas, the CXL link, MSI-X, device memory, failed bulk transfers and the board
management SPI.
-/

namespace Sys2Proof.Machine

/-! ## Locks (R374 to R376) -/

/-- A master that is the host through one of its aliases (Table 14-7). -/
def hostMaster (m : Nat) : Bool := 0x100 ≤ m && m < 0x110

/-- Whether a master of Table 14-7 is there to make an access: the host over its link, a control-core pair or a work engine of a tile
in RUN. -/
def Dev.masterOk (d : Dev) (m : Nat) : Bool :=
  if hostMaster m then d.hostOk
  else if 1 ≤ m && m ≤ 16 then d.tileRun ((m - 1) / 2)
  else 0x400 ≤ m && m < 0x500 && d.tileRun ((m - 0x400) / 32)

/-- Locks 240-255 belong to firmware; a host alias never acquires one (R374). -/
def fwLock (lock master : Nat) : Bool := 240 ≤ lock && hostMaster master

/-- LCK_LOCK_READ (R375): a free lock makes the reader its owner and reads 0; a held one reads busy and its owner. -/
def Dev.opLckLockRead (d : Dev) (lock master : Nat) : Dev :=
  if 256 ≤ lock || !d.masterOk master then { d with lastRead := 0 }
  else
    let w := d.lockWord lock master
    if w = 0 then { d with host := { d.host with locks := mput d.host.locks lock master }, lastRead := 0 }
    else { d with lastRead := w }

/-- LCK_LOCK_WRITE (R376): the owner's own ID releases the lock; any other write is ignored, and the first one is latched. -/
def Dev.opLckLockWrite (d : Dev) (lock master : Nat) (value : BitVec 32) : Dev :=
  if 256 ≤ lock || !d.masterOk master then d
  else if mget d.host.locks lock = some master && value.toNat = master && !fwLock lock master then
    { d with host := { d.host with locks := mdel d.host.locks lock } }
  else if d.host.lckBad then d
  else { d with host := { d.host with lckBad := true, lckNum := lock, lckWriter := master } }

/-- LCK_BREAK_WRITE (R376): through alias 0 a lock that a host master holds is freed. -/
def Dev.opLckBreakWrite (d : Dev) (als : Nat) (value : BitVec 32) : Dev :=
  let lock := value.toNat % 256
  if d.hostOk && als = 0 && (mget d.host.locks lock).any hostMaster then { d with host := { d.host with locks := mdel d.host.locks lock } }
  else d

/-! ## Device memory (R363, R364, R473, R482, R483) -/

/-- Record of an area in the header (R482). -/
def Dev.areaRec (d : Dev) (a : Nat) : List Byte :=
  let x := mgetD d.host.areaAt a (0, 0)
  leBytes 8 (nth d.host.gens a) ++ leBytes 6 x.1 ++ zeroBytes 2 ++ leBytes 6 (x.2 / 1000000000).toNat ++ zeroBytes 2
    ++ leBytes 4 (x.2 % 1000000000).toNat ++ zeroBytes 36

/-- The header (Table 21-4), as far as its bytes are not zero. -/
def Dev.memHeader (d : Dev) : List Byte :=
  leBytes 4 1 ++ leBytes 4 d.glbId ++ leBytes 8 Config.deviceId.toNat ++ leBytes 1 d.cnt.newest ++ zeroBytes 47
    ++ (List.range 4).flatMap d.areaRec

/-- The head of a snapshot area (Table 20-3). -/
def SnapArea.head (a : SnapArea) : List Byte :=
  leBytes 4 a.id ++ leBytes 6 (a.atT / 1000000000).toNat ++ leBytes 4 (a.atT % 1000000000).toNat
    ++ leBytes 1 (b2n a.late + 2 * b2n a.join + 4 * b2n a.periodic) ++ leBytes 1 a.mask

/-- A byte of a snapshot area (Table 20-3). The records of the current seconds stand in the order of R483's object numbers (log 15). -/
def Dev.snapByte (d : Dev) (a : SnapArea) (o : Nat) : Byte :=
  if o < 0x1000 then byteAt a.head o
  else if o < 0x1000000 then byteAt (mgetD a.pm ((o - 0x1000) / 64) []) ((o - 0x1000) % 64)
  else
    let t := (o - 0x1000000) / 0x800000
    let n := (o - 0x1000000) % 0x800000 / 8
    match a.vals.find? (fun e => d.cntTile e.1 = t && d.cntNum e.1 = n) with
    | some e => byteAt (leBytes 8 e.2.toNat) (o % 8)
    | none => 0

/-- Record of a bandwidth window (Table 20-4). -/
def Window.record (w : Window) : List Byte :=
  let slot (s : Nat) : List Byte := match w.hist[(w.index + 64 - s) % 64]? with
    | some (bytes, frames, suspect) => leBytes 8 bytes ++ leBytes 6 frames ++ leBytes 1 (b2n suspect) ++ zeroBytes 1
    | none => zeroBytes 16
  leBytes 8 w.gen ++ leBytes 4 w.lenMs ++ leBytes 4 w.index ++ leBytes 8 w.endNs.toNat ++ leBytes 8 w.max ++ zeroBytes 32
    ++ (List.range 64).flatMap slot

/-- Bandwidth window whose record lies at an offset of its area (R473). -/
def winAt (o : Nat) : Nat :=
  if o < 0x40000 then winKey 0 (o / 4096) (o / 2048 % 2)
  else if o < 0x200000 then winKey 1 ((o - 0x40000) / 4096) (o / 2048 % 2)
  else winKey 2 ((o - 0x200000) / 4096) (o / 2048 % 2)

/-- A byte of the device-memory region (Table 14-3, R482); without CXL the region is not there and reads as zero. No row reads it: this is what
a read returns. -/
def Dev.memByte (d : Dev) (a : Nat) : Byte :=
  if !d.host.cxl || !d.hostOk then 0
  else if a < 0x100000 then byteAt d.memHeader a
  else if a < 0x8000000 then
    (match d.pmObj ((a - 0x100000) / 4096) with
     | some p => byteAt (p.slot ((a - 0x100000) / 64 % 64)) (a % 64)
     | none => 0)
  else if a < 0x20000000 then d.snapByte d.cnt.areaA (a - 0x8000000)
  else if a < 0x38000000 then d.snapByte d.cnt.areaB (a - 0x20000000)
  else match mget d.cnt.wins (winAt (a - 0x38000000)) with
    | some w => byteAt w.record (a % 2048)
    | none => 0

/-! ## Receive areas (R370, R372) -/

/-- MBX_TAKE_READ (R370): the length of the message waiting, and its full flag clears in the same cycle; the area takes the next message
queued. -/
def Dev.opMbxTakeRead (d : Dev) (ch : Nat) : Dev :=
  if 32 ≤ ch || !d.hostOk then { d with lastRead := 0 }
  else match (d.mbox ch).recv with
    | none => { d with lastRead := 0 }
    | some x =>
      let d : Dev := { d with lastRead := x.bytes.length }
      (d.updMbox ch (fun m => { m with recv := none, stall := false })).deliver ch

/-- MBX_DELIVERY_TIMEOUT (R372): the first of a stall raises F1, each further one is counted. -/
def Dev.opMbxDeliveryTimeout (d : Dev) (ch : Nat) : Dev :=
  let m := d.mbox ch
  if m.recv.isNone || !d.ready then d
  else
    let t := m.placedAt + rawMs d.mboxTimeoutMs
    let d := d.advanceTo t
    let d := d.updMbox ch (fun m => { m with placedAt := t, stall := true })
    if m.stall then d.count .mbxTimeouts ch else d.raise 0x0C 0x01 1 0 ch 0 false

/-! ## Interpreter timers (R392, R398) -/

/-- FRAGMENT_TIMEOUT (R398): 1 s after the last fragment the assembled command fails. -/
def Dev.opFragmentTimeout (d : Dev) (ch : Nat) : Dev :=
  match (d.mbox ch).asm with
  | none => d
  | some a => (d.advanceTo (a.atT + rawS 1)).abandonAsm ch stTimeout

/-- AUTH_REFUSAL_END (R392): the 1 s refusal ends, and the run with it. -/
def Dev.opAuthRefusalEnd (d : Dev) (ch : Nat) : Dev :=
  match (d.sender ch).refuseEnd with
  | none => d
  | some t => (d.advanceTo t).updSender ch (fun s => { s with refuseEnd := none, authRun := 0 })

/-! ## Messages that arrive (R369, R400, R416) -/

/-- INBAND_MESSAGE_RX (R400): a management frame of the bound remote manager's sub-port, VLAN and address. -/
def Dev.opInbandMessageRx (d : Dev) (sub vlan mac : Nat) (p : Packet) : Dev :=
  if !d.ready || !d.tileRun (tileOfSub sub) || !(d.sub sub).enabled then d
  else match (List.range 16).find? (fun i => (d.sender (32 + i)).remote = some (sub, vlan, mac)) with
    | none => d
    | some i => d.place { p with chan := 32 + i }

/-! ## The CXL link (R365, R366) -/

/-- CXL_LINK_DOWN (R365): host areas and queued replies are lost, channel 0's queued messages are kept; requests taken run on without a
reply; host locks are released; host check pages and bulk transfers are aborted; MSI-X resets. -/
def Dev.opCxlLinkDown (d : Dev) : Dev :=
  let d : Dev := { d with host := { d.host with
    linkUp := false, irq := 0, msix := [], msixOn := false, bulk := none,
    mbox := d.host.mbox.map (fun (k, m) => (k,
      if 32 ≤ k then m
      else { m with send := none, area := [], recv := none, recvOld := [], stall := false, queue := if k = 0 then m.queue else [] })),
    locks := d.host.locks.filter (fun e => !hostMaster e.2),
    jobs := d.host.jobs.map (fun j => if 1 ≤ j.chan && j.chan < 32 then { j with chan := 0 } else j) } }
  (List.range 12).foldl (fun d i => d.chkAbort (4 + i)) d

/-- CXL_LINK_UP (R360, R365): the link trains, with or without CXL.mem; channel 0's messages are delivered. -/
def Dev.opCxlLinkUp (d : Dev) (cxl : Bool) : Dev :=
  if d.host.linkUp then d else (Dev.deliver { d with host := { d.host with linkUp := true, cxl := cxl } } 0)

/-- MSI_X_ENABLE (R366, R508): MSI-X is on, no vector is masked, and each vector left pending is sent once. -/
def Dev.opMsiXEnable (d : Dev) : Dev :=
  if !d.host.linkUp then d
  else
    let due := (d.host.msix.filter (fun e => e.2.2)).map (fun e => e.1)
    due.foldl (fun d n => d.emit (.vector n)) { d with host := { d.host with msixOn := true, msix := [] } }

/-- MEM_WRITE_DROP (R363): the write has no effect and is counted; the region is absent without CXL.mem (R360). -/
def Dev.opMemWriteDrop (d : Dev) (addr : Nat) (_ : BitVec 64) : Dev :=
  if d.hostOk && d.host.cxl && addr < 2 ^ 30 then d.count .memWriteDrop 0 else d

/-! ## Bulk transfers that fail (R378) -/

/-- Ends the bulk transfer at a descriptor: the ones before it are done, it carries a status, the ones after it 4; the reply names it in
the count of Table 15-3 (log 43). -/
def Dev.bulkFail (d : Dev) (desc code st : Nat) : Dev :=
  match d.host.bulk with
  | none => d
  | some b =>
    let ds := (bulkDescs b.job.bulk b.job.params).getD []
    if ds.length ≤ desc then d
    else
      let outs := ds.zipIdx.map (fun (x, i) =>
        if i < desc then writeBack x x.2.len 1 else if i = desc then writeBack x 0 code else writeBack x 0 4)
      let d : Dev := { d with host := { d.host with bulk := none }, out := outs.reverse ++ d.out }
      let snd : Sender := { (d.sender b.chan) with caps := b.caps, doms := b.doms }
      d.answer { p := b.job, params := b.job.params, snd := snd, trailed := b.trailed, key := b.key } st 0xFFFF (desc % 65536) []

/-- DMA_HOST_READ_TIMEOUT (R378): 10 ms without an answer. -/
def Dev.opDmaHostReadTimeout (d : Dev) (desc : Nat) : Dev :=
  if d.host.bulk.isNone then d else (d.advanceTo (d.now + rawMs 10)).bulkFail desc 3 stTimeout

/-- DMA_HOST_ERROR (R378). -/
def Dev.opDmaHostError (d : Dev) (desc : Nat) : Dev := d.bulkFail desc 2 stBadParam

/-! ## Board management SPI (R379, R380) -/

/-- Whether the SPI target answers (Table 2-5). -/
def Dev.spiUp (d : Dev) : Bool := d.pwr.pstate ≠ .unpowered && d.pwr.aonRailsOk

/-- Bytes 0-62 of the status block (Table 14-10); values of blocks without power read as zero, a sensor not read as 0x80. -/
def Dev.spiBody (d : Dev) : List Byte :=
  let on := d.pwr.pstate = .boot || d.pwr.pstate = .operating || d.pwr.pstate = .halted
  let w (b : Bool) (v : Nat) : List Byte := leBytes 4 (if b then v else 0)
  leBytes 4 d.glbId ++ leBytes 4 d.feedStatus ++ leBytes 4 d.feedVolt ++ leBytes 4 d.feedCurr ++ w on d.tileStates
    ++ (List.range 8).map (fun t => BitVec.ofNat 8 (if t < d.nTiles then lowBits 8 (d.tile t).nowC else 0x80))
    ++ w on d.bootStatus ++ leBytes 4 d.rst.cause.toNat ++ leBytes 1 (if d.cru.ready then d.cru.life.code else 0)
    ++ leBytes 1 (b2n d.faultN + 2 * b2n d.alive + 4 * b2n d.flt.quench + 8 * b2n d.ready) ++ zeroBytes 2 ++ w on d.fltFirst
    ++ (List.range 5).map (fun c => BitVec.ofNat 8 (d.unackOf c)) ++ zeroBytes 3
    ++ leBytes 4 (d.time.up / 65536000000000) ++ zeroBytes 7

/-- The status block with its CRC-8. -/
def Dev.spiBlock (d : Dev) : List Byte := d.spiBody ++ [crc8 d.spiBody]

/-- `n` bytes of the block from an address, wrapping at 64. -/
def Dev.spiRead (d : Dev) (start n : Nat) : List Byte :=
  let b := d.spiBlock
  (List.range n).map (fun i => b.getD ((start + i) % 64) 0)

/-- READ_STATUS (R379, R380). -/
def Dev.opReadStatus (d : Dev) (start n : Nat) : Dev := { d with lastRead := if d.spiUp then leNat (d.spiRead start n) else 0 }

/-- READ_ID (R379). -/
def Dev.opReadId (d : Dev) : Dev := { d with lastRead := if d.spiUp then d.glbId else 0 }

/-- RESET_REQ (R379, R380): right bytes start a package warm reset; it is ignored in AON and RAMP and while a reset is in progress. -/
def Dev.opResetReq (d : Dev) (b1 b2 : Byte) : Dev :=
  if d.spiUp && !d.inReset && b1 = 0x5A#8 && b2 = 0xC3#8 then d.warmReset 4 else d

/-- BMS_UNKNOWN_COMMAND (R379): BMS_MISO stays low; no effect. -/
def Dev.opBmsUnknownCommand (d : Dev) (_ : Byte) : Dev := { d with lastRead := 0 }

/-! ## Meanings -/

/-- FRAGMENT_TIMEOUT (R398). -/
def execFragmentTimeout (ch : Nat) (s : State) : Host.Outcome State Fault Refusal :=
  live (fun d => d.opFragmentTimeout ch) s

/-- AUTH_REFUSAL_END (R392). -/
def execAuthRefusalEnd (ch : Nat) (s : State) : Host.Outcome State Fault Refusal :=
  live (fun d => d.opAuthRefusalEnd ch) s

/-- MBX_TAKE_READ (R370). -/
def execMbxTakeRead (ch : Nat) (s : State) : Host.Outcome State Fault Refusal :=
  live (fun d => d.opMbxTakeRead ch) s

/-- INBAND_MESSAGE_RX (R400). -/
def execInbandMessageRx (sub vlan mac : Nat) (p : Packet) (s : State) : Host.Outcome State Fault Refusal :=
  live (fun d => d.opInbandMessageRx sub vlan mac p) s

/-- MBX_DELIVERY_TIMEOUT (R372). -/
def execMbxDeliveryTimeout (ch : Nat) (s : State) : Host.Outcome State Fault Refusal :=
  live (fun d => d.opMbxDeliveryTimeout ch) s

/-- LCK_LOCK_READ (R375). -/
def execLckLockRead (lock master : Nat) (s : State) : Host.Outcome State Fault Refusal :=
  live (fun d => d.opLckLockRead lock master) s

/-- LCK_LOCK_WRITE (R376). -/
def execLckLockWrite (lock master : Nat) (value : BitVec 32) (s : State) : Host.Outcome State Fault Refusal :=
  live (fun d => d.opLckLockWrite lock master value) s

/-- LCK_BREAK_WRITE (R376). -/
def execLckBreakWrite (als : Nat) (value : BitVec 32) (s : State) : Host.Outcome State Fault Refusal :=
  live (fun d => d.opLckBreakWrite als value) s

/-- DMA_HOST_READ_TIMEOUT (R378). -/
def execDmaHostReadTimeout (desc : Nat) (s : State) : Host.Outcome State Fault Refusal :=
  live (fun d => d.opDmaHostReadTimeout desc) s

/-- DMA_HOST_ERROR (R378). -/
def execDmaHostError (desc : Nat) (s : State) : Host.Outcome State Fault Refusal :=
  live (fun d => d.opDmaHostError desc) s

/-- CXL_LINK_DOWN (R365). -/
def execCxlLinkDown (s : State) : Host.Outcome State Fault Refusal :=
  live (fun d => d.opCxlLinkDown) s

/-- MEM_WRITE_DROP (R363). -/
def execMemWriteDrop (addr : Nat) (value : BitVec 64) (s : State) : Host.Outcome State Fault Refusal :=
  live (fun d => d.opMemWriteDrop addr value) s

/-- READ_STATUS (R380). -/
def execReadStatus (start n : Nat) (s : State) : Host.Outcome State Fault Refusal :=
  live (fun d => d.opReadStatus start n) s

/-- READ_ID (R379). -/
def execReadId (s : State) : Host.Outcome State Fault Refusal :=
  live (fun d => d.opReadId) s

/-- RESET_REQ (R380). -/
def execResetReq (b1 b2 : Byte) (s : State) : Host.Outcome State Fault Refusal :=
  live (fun d => d.opResetReq b1 b2) s

/-- BMS_UNKNOWN_COMMAND (R379). -/
def execBmsUnknownCommand (b : Byte) (s : State) : Host.Outcome State Fault Refusal :=
  live (fun d => d.opBmsUnknownCommand b) s

/-- CXL_LINK_UP (R365). -/
def execCxlLinkUp (cxl : Bool) (s : State) : Host.Outcome State Fault Refusal :=
  live (fun d => d.opCxlLinkUp cxl) s

/-- MSI_X_ENABLE (R508). -/
def execMsiXEnable (s : State) : Host.Outcome State Fault Refusal :=
  live (fun d => d.opMsiXEnable) s

end Sys2Proof.Machine
end

