-- ==== Sys2Proof/Machine/System.lean ====
section
/-!
DEFINITION. The system class (chapter 15): device information, senders and remote managers, the resets, counters, echo, and the uplink
sub-ports with the end of their drain (R394, R400, R500, R503).
-/

namespace Sys2Proof.Machine

/-! ## Information (Tables 15-9, 15-13) -/

/-- Table 15-13. -/
def Dev.infoBody (d : Dev) (s : Sender) : List Byte :=
  leBytes 4 d.glbId ++ leBytes 4 d.rst.fwRelease.toNat ++ leBytes 4 d.tileStates ++ leBytes 4 d.rst.readyUs ++ leBytes 2 s.caps.toNat
    ++ zeroBytes 2 ++ leBytes 32 s.doms.toNat ++ bytesAt d.rst.hallmark 0 48

def bodySysInfo (c : Cmd) (d : Dev) : Res := d.ok (d.infoBody c.snd)
def specSysInfo : CmdSpec := { op := 0x0101, anyone := true, lenOk := lenIs 0, body := bodySysInfo }

def bodySysEcho (c : Cmd) (d : Dev) : Res := d.ok c.params
def specSysEcho : CmdSpec := { op := 0x0108, lenOk := fun _ _ => true, body := bodySysEcho }

/-- The channel a command names, 0 for the sender's own. -/
def Cmd.chanNamed (c : Cmd) : Nat := if c.tgt = 0 then c.p.chan else c.tgt

def bodySysCounter (c : Cmd) (d : Dev) : Res :=
  if 63 < c.tgt then d.fail stRange ofsTgt else d.ok (leBytes 8 (d.sender c.chanNamed).consumed)
def specSysCounter : CmdSpec :=
  { op := 0x0107, anyone := true, lenOk := lenIs 0, scope := fun c _ => c.chanNamed = c.p.chan || c.snd.pkg, body := bodySysCounter }

/-! ## Senders (R394) -/

/-- Masks of Table 15-5. -/
def Cmd.senderCaps (c : Cmd) : BitVec 16 := BitVec.ofNat 16 (c.u16 0)
def Cmd.senderDoms (c : Cmd) : BitVec 256 := BitVec.ofNat 256 (natAt c.params 8 32)

/-- A sender grants only what it holds (R394); package scope includes every domain. -/
def Cmd.mayGrant (c : Cmd) : Bool :=
  c.senderCaps &&& ~~~c.snd.caps = 0#16 && (c.snd.pkg || c.senderDoms &&& ~~~c.snd.doms = 0#256)

/-- Table 15-5. -/
def bodySysSender (c : Cmd) (d : Dev) : Res :=
  let x := d.pslot (c.u8 2)
  let bind := c.bit 3 0
  let unbind := c.bit 3 1
  if c.tgt < 1 || 63 < c.tgt then d.fail stRange ofsTgt
  else if bind && unbind then d.fail stBadParam (ofsP 3)
  else if bind && x.kind ≠ 1 then d.fail stBadParam (ofsP 2)
  else if bind && x.stale then d.fail stState (ofsP 2)
  else
    let d : Dev := if bind then { d with host := { d.host with boundOnce := true } } else d
    (d.updSender c.tgt (fun s => { s with
      caps := c.senderCaps, doms := c.senderDoms,
      slot := if bind then some (c.u8 2) else if unbind then none else s.slot,
      slotW := if bind then x.wcount else s.slotW })).ok
def specSysSender : CmdSpec :=
  { op := 0x0102, crit := true, lenOk := lenIs 40, scope := fun c _ => c.mayGrant, body := bodySysSender }

/-- Layout (log 15): 0 action, 0 bind, 1 unbind; 1 sub-port; 2-3 VLAN ID; 4-7 reserved; 8-13 MAC address; 14-15 reserved. Either action
clears the channel's masks. -/
def bodySysRemote (c : Cmd) (d : Dev) : Res :=
  let set (r : Option (Nat × Nat × Nat)) : Res := (d.updSender c.tgt (fun s => { s with remote := r, caps := 0, doms := 0 })).ok
  if c.tgt < 32 || 47 < c.tgt then d.fail stRange ofsTgt
  else if 1 < c.u8 0 then d.fail stBadParam (ofsP 0)
  else if c.u8 0 = 1 then set none
  else d.onSub (c.u8 1) (ofsP 1) fun _ =>
    if c.u16 2 < 1 || 4094 < c.u16 2 then d.fail stRange (ofsP 2)
    else set (some (c.u8 1, c.u16 2, c.u48 8))
def specSysRemote : CmdSpec := { op := 0x0103, crit := true, lenOk := lenIs 16, body := bodySysRemote }

/-! ## Resets (R63 to R66, R400, R500) -/

/-- The warm reset begins once the reply is in its receive area. -/
def bodySysWarmReset (_ : Cmd) (d : Dev) : Res := { (d.ok) with after := fun d => d.warmReset 3 }
def specSysWarmReset : CmdSpec := { op := 0x0104, crit := true, lenOk := lenIs 0, body := bodySysWarmReset }

/-- Whether a tile may start a tile reset by command: in RUN, or ISOLATED with the package out of quench and the tile below 100 °C (R57,
R445, R509). -/
def Dev.tileResetOk (d : Dev) (t : Nat) : Bool :=
  (d.tile t).st = .run || ((d.tile t).st = .isolated && !d.flt.quench && decide ((d.tile t).nowC < 100))

/-- A tile reset is accepted at step 1 of R77; naming tile 0 it is a warm reset (R64). -/
def bodySysTileReset (c : Cmd) (d : Dev) : Res :=
  if d.nTiles ≤ c.tgt then d.fail stRange ofsTgt
  else if c.tgt = 0 then bodySysWarmReset c d
  else if !d.tileResetOk c.tgt then d.fail stState ofsTgt
  else (d.startTileReset c.tgt 1).accepted stAccepted .tileReset c.tgt
def specSysTileReset : CmdSpec := { op := 0x0105, crit := true, lenOk := lenIs 0, body := bodySysTileReset }

/-- Function reset of a tree: its channels in service register their terminals afresh, and its lane retrains (R65). -/
def Dev.resetTree (d : Dev) (t : Nat) : Dev :=
  let d := ((treeChans t).filter (fun ch => (d.chan ch).st ≠ .disabled)).foldl Dev.resetChan d
  if d.laneUsed (tileOfTree t) (t % 8) then d.laneRestart (tileOfTree t) (t % 8) else d

/-- Function reset of an uplink sub-port: its line goes down and retrains. -/
def Dev.resetSub (d : Dev) (p : Nat) : Dev := (d.subDown p).updSub p (fun x => { x with busyUntil := 0 })

/-- Function reset of a system port: its lane takes the role that LANE_CFG holds and retrains from D1. -/
def Dev.resetPort (d : Dev) (port : Nat) : Dev :=
  let t := d.sysPortTile port
  let l := d.sysPortLane port
  let d := d.portDown port
  let d := d.updLane t l (fun x => { x with role := d.laneRoleCfg t l })
  if d.laneUsed t l then d.laneRestart t l else d

/-- R500. -/
def bodySysFuncReset (c : Cmd) (d : Dev) : Res :=
  if c.u8 0 = 0 then d.onTree c.tgt ofsTgt fun _ => (d.resetTree c.tgt).ok
  else if c.u8 0 = 1 then d.onChan c.tgt ofsTgt fun _ => (if (d.chan c.tgt).st = .disabled then d else d.resetChan c.tgt).ok
  else if c.u8 0 = 2 then d.onSub c.tgt ofsTgt fun _ => (d.resetSub c.tgt).ok
  else if c.u8 0 = 3 then
    if 4 ≤ c.tgt then d.fail stRange ofsTgt
    else if d.notRun (d.sysPortTile c.tgt) then d.fail stState ofsTgt
    else (d.resetPort c.tgt).ok
  else d.fail stBadParam (ofsP 0)
def specSysFuncReset : CmdSpec := { op := 0x0106, lenOk := lenIs 1, body := bodySysFuncReset }

/-! ## Uplink sub-ports (R113, R293, R400) -/

/-- Why an enable of a sub-port is refused: the uplink's mode has no such sub-port, or the other uplink of the tile has all eight lanes or
would lose its own (R113). -/
def Dev.uplRefused (d : Dev) (p : Nat) : Bool :=
  let u := p / 4
  let on (v : Nat) : Bool := (List.range 4).any (fun k => (d.sub (4 * v + k)).enabled)
  let m := if on u then d.uplActive u else d.uplMode u
  modeSubs m ≤ p % 4 || (if u % 2 = 1 then on (u - 1) && d.uplActive (u - 1) = 3 || !on (u - 1) && d.uplMode (u - 1) = 3
    else m = 3 && on (u + 1))

/-- Whether the tile has room for the default queues of a sub-port that is enabled for the first time (R21, R293). -/
def Dev.subRoom (d : Dev) (p : Nat) : Bool :=
  let t := tileOfSub p
  let own (k : Nat) : Bool := upBase + 4096 * t ≤ k && k < upBase + 4096 * (t + 1)
  (d.sub p).everEnabled || (d.upQueuesOn t + 8 ≤ 4096 && (d.queues.filter (fun e => own e.1)).length + 8 ≤ 4096)

/-- An enable takes the mode, creates the eight default queues the first time, and waits for the line. -/
def Dev.uplinkOn (d : Dev) (p : Nat) : Dev :=
  let d := d.subOn p
  if (d.sub p).everEnabled then d else (d.defaultQueues p).updSub p (fun x => { x with everEnabled := true })

/-- Outcome of an enable of a sub-port that is off and not draining. -/
def Dev.subEnable (d : Dev) (p : Nat) : Nat × Dev :=
  if d.uplRefused p then (stState, d) else if !d.subRoom p then (stNoResource, d) else (stOk, d.uplinkOn p)

/-- The enables queued for a sub-port, once it has drained or its tile is back. -/
def Dev.queuedSub (d : Dev) (p : Nat) : Dev :=
  if (d.jobsOf .uplinkEnable p).isEmpty then d
  else
    let (st, d) := d.subEnable p
    d.complete .uplinkEnable p st

/-- A disable: the queues drain for up to 10 ms; enables queued behind an earlier disable are cancelled. -/
def Dev.uplinkOff (d : Dev) (p : Nat) : Dev :=
  let d := d.complete .uplinkEnable p stState
  if (d.sub p).enabled then d.updSub p (fun x => { x with enabled := false, drainEnd := some (d.now + rawMs 10) }) else d

/-- The mode for the next enable; a reserved one, or 400G-8 on local uplink 1, leaves the field (R113). -/
def Dev.uplModeSet (d : Dev) (u m : Nat) : Dev :=
  if 8 < m || (m = 3 && u % 2 = 1) then d
  else d.setReg (tileWin (u / 2) + 0x2400 + (u % 2) * 4) m

/-- Layout (log 15): 0 action, 0 enable, 1 disable, 2 set mode; 1 mode; 2-3 reserved. -/
def bodySysUplink (c : Cmd) (d : Dev) : Res :=
  d.onSub c.tgt ofsTgt fun _ =>
  let x := d.sub c.tgt
  let u := c.tgt / 4
  if c.u8 0 = 0 then
    if x.enabled then d.ok
    else if x.drainEnd.isSome then d.accepted stPending .uplinkEnable c.tgt
    else
      let (st, d') := d.subEnable c.tgt
      if st = stOk then d'.ok else d.fail st ofsTgt
  else if c.u8 0 = 1 then (d.uplinkOff c.tgt).ok
  else if c.u8 0 = 2 then
    if 8 < c.u8 1 || (c.u8 1 = 3 && u % 2 = 1) then d.fail stBadParam (ofsP 1) else (d.uplModeSet u (c.u8 1)).ok
  else d.fail stBadParam (ofsP 0)
def specSysUplink : CmdSpec := { op := 0x0109, lenOk := lenIs 4, body := bodySysUplink }

/-- UPLINK_DRAIN_END (R400): what is left is discarded and counted, the line goes down, and the enables queued proceed. -/
def Dev.opUplinkDrainEnd (d : Dev) (sub : Nat) : Dev :=
  match (d.sub sub).drainEnd with
  | none => d
  | some t =>
    if d.nSubs ≤ sub then d
    else
      let d := d.advanceTo t
      let d := (d.subQueues sub).foldl (fun d k => d.discardQueue k .drainDiscard (subObj sub)) d
      ((d.subDown sub).updSub sub (fun x => { x with drainEnd := none })).queuedSub sub

/-! ## Meanings -/

/-- CMD_SYS_INFO (R503). -/
def execCmdSysInfo (p : Packet) (s : State) : Host.Outcome State Fault Refusal := live (Dev.runCommand specSysInfo p) s

/-- CMD_SYS_SENDER (R394). -/
def execCmdSysSender (p : Packet) (s : State) : Host.Outcome State Fault Refusal := live (Dev.runCommand specSysSender p) s

/-- CMD_SYS_REMOTE (R400). -/
def execCmdSysRemote (p : Packet) (s : State) : Host.Outcome State Fault Refusal := live (Dev.runCommand specSysRemote p) s

/-- CMD_SYS_WARM_RESET (R400). -/
def execCmdSysWarmReset (p : Packet) (s : State) : Host.Outcome State Fault Refusal := live (Dev.runCommand specSysWarmReset p) s

/-- CMD_SYS_TILE_RESET (R400). -/
def execCmdSysTileReset (p : Packet) (s : State) : Host.Outcome State Fault Refusal := live (Dev.runCommand specSysTileReset p) s

/-- CMD_SYS_FUNC_RESET (R500). -/
def execCmdSysFuncReset (p : Packet) (s : State) : Host.Outcome State Fault Refusal := live (Dev.runCommand specSysFuncReset p) s

/-- CMD_SYS_COUNTER (R390). -/
def execCmdSysCounter (p : Packet) (s : State) : Host.Outcome State Fault Refusal := live (Dev.runCommand specSysCounter p) s

/-- CMD_SYS_ECHO (R400). -/
def execCmdSysEcho (p : Packet) (s : State) : Host.Outcome State Fault Refusal := live (Dev.runCommand specSysEcho p) s

/-- CMD_SYS_UPLINK (R400). -/
def execCmdSysUplink (p : Packet) (s : State) : Host.Outcome State Fault Refusal := live (Dev.runCommand specSysUplink p) s

/-- UPLINK_DRAIN_END (R400). -/
def execUplinkDrainEnd (sub : Nat) (s : State) : Host.Outcome State Fault Refusal :=
  live (fun d => d.opUplinkDrainEnd sub) s

end Sys2Proof.Machine
end

