-- ==== Sys2Proof/Machine/Mailbox.lean ====
section
/-!
DEFINITION. Packets that name their opcode themselves: the opcode table, the interpreter's rotation, barriers with the packet they hold,
messages from peers, fragments, forwarded commands, bulk transfers, and writes of registers (chapters 14, 15, 16, 21).
-/

namespace Sys2Proof.Machine

/-! ## The opcode table (R399) -/

/-- Opcodes of Crucible.lean. -/
def specsCrucible : List CmdSpec :=
  [specCruSlotWrite, specCruSlotErase, specCruSlotStatus, specCruInfo, specCruChallenge, specCruLifecycle,
   specCruFwStage, specCruFwActivate]

/-- Opcodes of Boot.lean. -/
def specsBoot : List CmdSpec :=
  [specAssayStart, specAssayConfig, specAssayResult]

/-- Opcodes of Time.lean. -/
def specsTime : List CmdSpec :=
  [specTimePtpPort, specTimePhyLatency, specTimeTod, specTimeStep, specTimeStatus]

/-- Opcodes of Traffic.lean. -/
def specsTraffic : List CmdSpec :=
  [specQueueCreate, specQueueModify, specQueueDelete, specNodeConfig, specShaperSet, specGateSet, specQmStatus]

/-- Opcodes of Msec.lean. -/
def specsMsec : List CmdSpec :=
  [specMsecSecy, specMsecSc, specMsecMka, specMsecSaInstall, specMsecSaDisable, specMsecTxSwitch, specMsecTransit,
   specMsecBypass, specMsecStatus]

/-- Opcodes of Transmit.lean. -/
def specsTransmit : List CmdSpec :=
  [specQueueInject]

/-- Opcodes of Pon.lean. -/
def specsPon : List CmdSpec :=
  [specPonMsk, specPonKeyCfg, specPonKeyRoll, specPonKeyStatus]

/-- Opcodes of Tables.lean. -/
def specsTables : List CmdSpec :=
  [specTableInsert, specTableDelete, specTableLookup, specTableSearch, specTableNext, specTableFlushPort,
   specTableConfig, specTableStatus, specKeyProfile, specLookupList, specSpreadGroup, specMirrorSession, specClsPort,
   specMeterSet]

/-- Opcodes of Ranging.lean. -/
def specsRanging : List CmdSpec :=
  [specTermCreate, specTermDelete, specTermMap, specRngChanConfig, specTermRerange, specTermPower, specTermTxctrl,
   specTermStatus]

/-- Opcodes of Grant.lean. -/
def specsGrant : List CmdSpec :=
  [specAllocCreate, specAllocModify, specAllocDelete, specAllocStatus, specDomConfig, specTdomConfig, specGsStatus]

/-- Opcodes of FollowMe.lean. -/
def specsFollowMe : List CmdSpec :=
  [specFmRoute, specFmCell, specFmProfile, specFmTrainBind, specFmTrainClear, specFmPosition, specFmEvent,
   specFmSource, specFmStatus]

/-- Opcodes of Circuits.lean. -/
def specsCircuits : List CmdSpec :=
  [specOmciSend, specCircuitCreate, specCircuitDelete]

/-- Opcodes of Quality.lean. -/
def specsQuality : List CmdSpec :=
  [specPmRead, specPmConfig]

/-- Opcodes of Counter.lean. -/
def specsCounter : List CmdSpec :=
  [specCntRead, specCntWrite, specCntThreshold, specCntWindow, specCntSample]

/-- Opcodes of Join.lean. -/
def specsJoin : List CmdSpec :=
  [specJoinConfig, specJoinStatus, specJoinSnapshot, specJoinBroadcast, specJoinGroupReset]

/-- Opcodes of Prot.lean. -/
def specsProt : List CmdSpec :=
  [specProtGroup, specProtForce, specProtStatus]

/-- Opcodes of Fault.lean. -/
def specsFault : List CmdSpec :=
  [specFltAck, specFltQuenchRelease, specFltConfig, specFltLog]

/-- Opcodes of Tree.lean. -/
def specsTree : List CmdSpec :=
  [specChanEnable, specTreeEnable, specChanDisable, specTreeDisable, specChanConfig]

/-- Opcodes of System.lean. -/
def specsSystem : List CmdSpec :=
  [specSysInfo, specSysEcho, specSysCounter, specSysSender, specSysRemote, specSysWarmReset, specSysTileReset,
   specSysFuncReset, specSysUplink]

/-- Length of CMD_JOIN_BARRIER: the head alone, or with an enclosed packet of at least a header. -/
def lenBarrier : Packet → List Byte → Bool := fun _ ps => ps.length = 68 || 100 ≤ ps.length

/-- CMD_JOIN_BARRIER as the checks on entry of an enclosed packet see it; its body stands below. -/
def specBarrierForm : CmdSpec := { op := 0x0B03, lenOk := lenBarrier, body := fun _ d => d.fail stState }

/-- Every opcode but the barrier. -/
def plainSpecs : List CmdSpec := specsCrucible ++ specsBoot ++ specsTime ++ specsTraffic ++ specsMsec ++ specsTransmit ++ specsPon ++ specsTables ++ specsRanging ++ specsGrant ++ specsFollowMe ++ specsCircuits ++ specsQuality ++ specsCounter ++ specsJoin ++ specsProt ++ specsFault ++ specsTree ++ specsSystem

/-- What the checks of R396 and R389 need of an opcode. -/
def formOf (op : Nat) : Option CmdSpec := (plainSpecs ++ [specBarrierForm]).find? (fun s => s.op = op)

/-! ## Barriers (R410) -/

/-- The enclosed packet of the channel's sender, whose length its header gives; what pads it to a multiple of 4 is not part of it. -/
def Cmd.enclosed (c : Cmd) : Packet :=
  let bs := c.params.drop 68
  let n := 32 + natAt bs 10 2 + 16 * (natAt bs 3 1 % 2)
  Packet.ofBytes c.p.chan (if pad4 n = pad4 bs.length then bytesAt bs 0 n else bs)

/-- An enclosed packet goes through R396 and steps 1 to 4 of R389: the status and offset of a refusal, or ST_OK; whether its trailer
verified and its key. Fragments and bulk transfers cannot be enclosed. -/
def Dev.takeEnclosed (d : Dev) (p : Packet) : Nat × Nat × Cmd × Dev :=
  let c : Cmd := { p := p, params := p.body, snd := d.sender p.chan }
  match formStatus p (formOf p.op), formOf p.op with
  | (st, ofs), some sp =>
    if st ≠ stOk then (st, ofs, c, d)
    else if p.more || p.bulkFlag then (stBadParam, 3, c, d)
    else if !sp.lenOk p c.params then (stBadLength, 10, c, d)
    else
      let (st, ofs, k, d) := if p.crit then d.verify c else (stOk, 0xFFFF, [], d)
      if st ≠ stOk then (st, ofs, c, d)
      else if p.crit && p.counter.toNat ≤ (d.sender p.chan).consumed then (stReplay, 16, c, d)
      else
        let d := if p.crit then d.persist p.chan p.counter.toNat else d
        let c : Cmd := { c with trailed := p.crit, key := k }
        match d.unpermitted sp c with
        | some ofs => (stNotPermitted, ofs, c, d)
        | none => (stOk, 0xFFFF, c, d)
  | (st, ofs), none => (st, ofs, c, d)

/-- Opens or joins barrier `n` for this device: its own arrival is merged and goes upward; at the root another participant set aborts the
barrier, elsewhere the arrival travels up with the set it names (R411). -/
def Dev.barrierEnter (d : Dev) (n : Nat) (b : Barrier) : Dev :=
  let own := [d.join.ownId]
  match mget d.join.barriers n with
  | none => ({ d with join := { d.join with barriers := mput d.join.barriers n { b with firstAt := d.now } } } : Dev).barrierMerge n b.set b.timeoutMs own
  | some x =>
    let y : Barrier := { b with set := x.set, timeoutMs := x.timeoutMs, arrived := x.arrived, firstAt := x.firstAt }
    let d : Dev := { d with join := { d.join with barriers := mput d.join.barriers n y } }
    if d.samePart x.set b.set then d.barrierMerge n b.set b.timeoutMs own
    else if d.join.st = .root then d.barrierAbortDown n stBadParam
    else d.sysSend d.parents 0x11 0xFFFF true false (barrierVals { n := n, parts := b.set, arrived := own, timeoutMs := b.timeoutMs })

/-- Layout (log 15): 0 barrier number, 1 bit 0 every member, 2-65 participant bitmap, 66-67 timeout in ms with 0 for 1,000, 68 onward the
enclosed packet. -/
def bodyJoinBarrier (c : Cmd) (d : Dev) : Res :=
  let n := c.u8 0
  let t := c.u16 66
  if 63 < n then d.fail stRange (ofsP 0)
  else if 60000 < t then d.fail stRange (ofsP 66)
  else if !d.joined then d.fail stState
  else if (mget d.join.barriers n).any (fun b => b.job ≠ 0 || b.release.isSome) then d.fail stBusy
  else
    let b : Barrier := { job := d.host.jobNo, set := if c.bit 1 0 then none else some (c.bitmap 2 64), timeoutMs := if t = 0 then 1000 else t }
    if c.params.length = 68 then (d.barrierEnter n b).accepted stAccepted .barrier n
    else match d.takeEnclosed c.enclosed with
      | (st, ofs, e, d) =>
        if st ≠ stOk then d.fail st (if ofs = 0xFFFF then ofs else ofsP (68 + ofs))
        else (d.barrierEnter n { b with pkt := some e.p, caps := e.snd.caps, doms := e.snd.doms, trailed := e.trailed, key := e.key }).accepted
          stAccepted .barrier n
def specJoinBarrier : CmdSpec := { op := 0x0B03, lenOk := lenBarrier, body := bodyJoinBarrier }

/-- The opcode table, none for an unknown opcode. -/
def specOf (op : Nat) : Option CmdSpec := (plainSpecs ++ [specJoinBarrier]).find? (fun s => s.op = op)

/-- Runs a packet that was held or forwarded: its reply is returned, not sent, and what follows the reply with it. -/
def Dev.runHeld (d : Dev) (c : Cmd) : List Byte × Dev × (Dev → Dev) :=
  let reply (st ofs applied : Nat) (body : List Byte) : List Byte :=
    replyBytes c.p (d.senderId c.p.chan) c.trailed c.key false st ofs applied body
  match specOf c.p.op with
  | none => (reply stBadOpcode 4 0 [], d, id)
  | some sp =>
    let r := d.bodyResult sp c
    (reply r.st r.ofs r.applied r.body, r.dev.noteStatus c.p.chan r.st, r.after)

/-- Body of a barrier's completion (log 15): T_rel in seconds and ns, then the enclosed command's reply. -/
def relBytes (t : Int) : List Byte := leBytes 8 (t / 1000000000).toNat ++ leBytes 4 (t % 1000000000).toNat

/-- BARRIER_EXECUTE (R410): at the first frame boundary at or after T_rel the enclosed command runs, and the entry completes. -/
def Dev.opBarrierExecute (d : Dev) (n : Nat) : Dev :=
  match mget d.join.barriers n with
  | none => d
  | some b =>
    match b.release with
    | none => d
    | some t =>
      if !d.ready then d
      else
        let d := d.advanceTo b.raw
        let d := d.advanceTo (d.rawOfNs (d.boundaryAt d.netNs))
        let d : Dev := Dev.count { d with join := { d.join with barriers := mdel d.join.barriers n } } .barrierDone 0
        match b.pkt with
        | none => d.complete .barrier n stOk (relBytes t)
        | some p =>
          let c : Cmd := { p := p, params := p.body, snd := { d.sender p.chan with caps := b.caps, doms := b.doms }, trailed := b.trailed, key := b.key }
          let (reply, d, after) := d.runHeld c
          after (d.complete .barrier n stOk (relBytes t ++ reply))

/-! ## Taking and forwarding (R26, R369, R371, R396, R398) -/

/-- MBX_SEND_WRITE (R369): a sender sends the packet in its area; it waits for its turn. -/
def Dev.opMbxSendWrite (d : Dev) (p : Packet) : Dev := d.place p

/-- The interpreter takes a channel's request. -/
def Dev.takeFrom (d : Dev) (ch : Nat) (sp : Packet → Option CmdSpec) : Dev :=
  match (d.mbox ch).send with
  | some p => if d.canTake ch then (d.clearSend ch).process (sp p) p else d
  | none => d

/-- The channel served next: round robin over those whose request can be taken (R371). -/
def Dev.nextServed (d : Dev) : Option Nat := ((List.range 63).map (fun i => (d.host.rrNext + 62 + i) % 63 + 1)).find? d.canTake

/-- The interpreter serves one waiting request. -/
def Dev.serve (d : Dev) : Dev :=
  match d.nextServed with
  | some ch => d.takeFrom ch (fun p => specOf p.op)
  | none => d

/-- What the block does with no command waiting (log 3): the interpreter takes one request, and one cycle of the time clock passes. -/
def Dev.idle (d : Dev) : Dev := d.serve.clockCycle

/-- The row of a packet that names its own opcode: placed unless it waits already, and taken as soon as it may. -/
def Dev.runPacket (d : Dev) (sp : Packet → Option CmdSpec) (p : Packet) : Dev :=
  let d := if (d.mbox p.chan).send = some p then d else d.place p
  if (d.mbox p.chan).send = some p then d.takeFrom p.chan sp else d

/-- FRAGMENT_RX (R398). -/
def Dev.opFragmentRx (d : Dev) (p : Packet) : Dev := d.runPacket (fun q => specOf q.op) p

/-- TILE_FORWARD_DONE (R26): every owning tile has done its part, and the one reply is sent. -/
def Dev.opTileForwardDone (d : Dev) (p : Packet) : Dev := d.runPacket (fun q => specOf q.op) p

/-- TILE_FORWARD_TIMEOUT (R396): 200 ms pass without an answer; nothing is applied, and the counter stays consumed. -/
def Dev.opTileForwardTimeout (d : Dev) (p : Packet) : Dev :=
  d.runPacket (fun q => (specOf q.op).map (fun s => { s with body := fun _ d => (d.advanceTo (d.now + rawMs 200)).fail stTimeout })) p

/-- DMA_TRANSFER_DONE (R378): the last write-back, then the command runs on what was moved, and replies. -/
def Dev.opDmaTransferDone (d : Dev) : Dev :=
  match d.host.bulk with
  | none => d
  | some b =>
    let ds := (bulkDescs b.job.bulk b.job.params).getD []
    let outs := ds.map (fun x => writeBack x x.2.len 1)
    let d : Dev := { d with host := { d.host with bulk := none }, out := outs.reverse ++ d.out }
    let snd : Sender := { (d.sender b.chan) with caps := b.caps, doms := b.doms }
    let c : Cmd := { p := b.job, params := bytesAt b.job.params 0 16 ++ b.job.bulk.data, snd := snd, trailed := b.trailed, key := b.key }
    match specOf b.job.op with
    | some sp => d.runBody sp c
    | none => d

/-! ## Messages of peers (R416) -/

/-- COMMAND (R416): for this device it enters the channel bound to its source, or is discarded and counted; for another it is passed on. -/
def Dev.opCommand (d : Dev) (m : SysHdr) (p : Packet) : Dev :=
  d.treeIn m fun d =>
  if m.dst ≠ d.join.ownId then d.sysBytesTo ((d.routeTo m.dst).filter (fun q => q ≠ m.port)) 0x20 m.dst m.seq (p.bytes 0)
  else match d.join.peers.find? (fun e => e.2 = m.src) with
    | some e => d.place { p with chan := e.1 }
    | none => d.count .peerUnbound 0

/-- REPLY (R416): passed towards its destination; one for this device has arrived. -/
def Dev.opReply (d : Dev) (m : SysHdr) (body : List Byte) : Dev :=
  d.treeIn m fun d =>
  if m.dst ≠ d.join.ownId then d.sysBytesTo ((d.routeTo m.dst).filter (fun q => q ≠ m.port)) 0x21 m.dst m.seq body else d

/-! ## Meanings -/

/-- CMD_JOIN_BARRIER (R410). -/
def execCmdJoinBarrier (p : Packet) (s : State) : Host.Outcome State Fault Refusal := live (Dev.runCommand specJoinBarrier p) s

/-- FRAGMENT_RX (R398). -/
def execFragmentRx (p : Packet) (s : State) : Host.Outcome State Fault Refusal :=
  live (fun d => d.opFragmentRx p) s

/-- TILE_FORWARD_TIMEOUT (R396). -/
def execTileForwardTimeout (p : Packet) (s : State) : Host.Outcome State Fault Refusal :=
  live (fun d => d.opTileForwardTimeout p) s

/-- TILE_FORWARD_DONE (R26). -/
def execTileForwardDone (p : Packet) (s : State) : Host.Outcome State Fault Refusal :=
  live (fun d => d.opTileForwardDone p) s

/-- MBX_SEND_WRITE (R369). -/
def execMbxSendWrite (p : Packet) (s : State) : Host.Outcome State Fault Refusal :=
  live (fun d => d.opMbxSendWrite p) s

/-- DMA_TRANSFER_DONE (R378). -/
def execDmaTransferDone (s : State) : Host.Outcome State Fault Refusal :=
  live (fun d => d.opDmaTransferDone) s

/-- BARRIER_EXECUTE (R410). -/
def execBarrierExecute (n : Nat) (s : State) : Host.Outcome State Fault Refusal :=
  live (fun d => d.opBarrierExecute n) s

/-- COMMAND (R416). -/
def execCommand (m : SysHdr) (p : Packet) (s : State) : Host.Outcome State Fault Refusal :=
  live (fun d => d.opCommand m p) s

/-- REPLY (R416). -/
def execReply (m : SysHdr) (body : List Byte) (s : State) : Host.Outcome State Fault Refusal :=
  live (fun d => d.opReply m body) s

end Sys2Proof.Machine
end

