-- ==== Sys2Proof/Machine/RegWrite.lean ====
section
/-!
DEFINITION. REG_WRITE: what a host write of BAR0 does to the register it names (R9, R72, R361, R362, R476 to R479, R481, R484).
-/

namespace Sys2Proof.Machine

/-! ## Fields -/

/-- Bits of an RW register of the global window; none for a register without RW bits of its own here. -/
def rwGlobal (a nTiles : Nat) : Option (BitVec 32) :=
  if a = 0x110 || a = 0x900 then some 0x0000FFFF#32
  else if a = 0x124 || a = 0x70C then some 0xFFFF0000#32
  else if a = 0x280 then some 0x000001FF#32
  else if a = 0x20C || a = 0x31C || a = 0x400 || a = 0x404 || a = 0x700 || a = 0x708 || a = 0x1004 || a = 0x1008 then some 0xFFFFFFFF#32
  else if a = 0x33C then some 0x7FFFFFFF#32
  else if a = 0x408 then some 0x803FFFFF#32
  else if a = 0x500 then some 0xFFFF0007#32
  else if 0x600 ≤ a && a < 0x700 then some 0xFFFFFF0F#32
  else if a = 0xB00 then some 0xF0000FFF#32
  else if a = 0xC20 then some 0xFFFFF700#32
  else if a = 0x1000 then some 0xFFF00000#32
  else if 0x1100 ≤ a && a < 0x1100 + 64 * nTiles then some 0xFFFFFFFF#32
  else none

/-- Bits of an RW register of a tile window at an offset; slots with k = 3 are no registers (R477). -/
def rwTile (o : Nat) : Option (BitVec 32) :=
  if 0x4000 ≤ o && o < 0x4200 then
    (let r := o % 0x40
     if r = 0x1C then some 0x03FF03FF#32 else if 0x10 ≤ r && r < 0x1C then some 0x000F07FF#32 else none)
  else if 0x5000 ≤ o && o < 0x5400 then
    (if (o - 0x5000) / 0x20 % 4 = 3 then none else if o % 0x20 = 0 || o % 0x20 = 4 then some 0xFFFFFFFF#32 else none)
  else if o = 0x5400 then some 0xFFFFFFFF#32
  else if 0x6000 ≤ o && o < 0x6200 then
    (if (o - 0x6000) / 0x10 % 4 = 3 then none else if o % 0x10 = 0 then some 0x0000807F#32 else none)
  else if o = 0x6400 then some 0x00007F7F#32
  else if o = 0x9008 then some 0x0007FFFF#32
  else none

/-- Clears the bits of a field that a written value has set (W1C), from the field's lowest bit. -/
def w1c {n : Nat} (x : BitVec n) (v lo : Nat) : BitVec n := x &&& ~~~(BitVec.ofNat n (v / 2 ^ lo))

/-- Replaces the four bytes of a word in a byte list. -/
def setWord (bs : List Byte) (ofs : Nat) (v : BitVec 32) : List Byte := bs.take ofs ++ leBytes 4 v.toNat ++ bs.drop (ofs + 4)

/-! ## The global window -/

/-- TIME_CFG: a value 3 leaves pps_out_mode or refclk; a forced reference is selected at once, and the source in use is judged again. -/
def Dev.timeCfgWrite (d : Dev) (v : BitVec 32) : Dev :=
  let v1 : BitVec 32 := if fieldN v.toNat 30 29 = 3 then v &&& ~~~0x60000000#32 ||| (BitVec.ofNat 32 (d.reg 0x324) &&& 0x60000000#32) else v
  let v2 : BitVec 32 := if fieldN v.toNat 28 27 = 3 then v1 &&& ~~~0x18000000#32 ||| (BitVec.ofNat 32 (d.reg 0x324) &&& 0x18000000#32) else v1
  let d := d.setReg 0x324 (v2 &&& 0xF83FFFFF#32).toNat
  let d : Dev := if d.refclkCfg = 0 then d else { d with time := { d.time with useB := d.refclkCfg = 2 } }
  d.refSwitch.retime

/-- W1C fields of the global window. -/
def Dev.globalClear (d : Dev) (a v : Nat) : Dev :=
  if a = 0x010 then { d with host := { d.host with irq := w1c d.host.irq v 0 } }
  else if a = 0x100 then { d with pwr := { d.pwr with pfwSeen := d.pwr.pfwSeen && !bitN v 5 } }
  else if a = 0x120 then { d with pwr := { d.pwr with
    protStuck := w1c d.pwr.protStuck v 10, quenchStuck := d.pwr.quenchStuck && !bitN v 9, resetStuck := d.pwr.resetStuck && !bitN v 8 } }
  else if a = 0x200 then { d with rst := { d.rst with cause := d.rst.cause &&& ~~~(BitVec.ofNat 32 (v % 1024)) } }
  else if a = 0x328 then { d with time := { d.time with stepRefused := d.time.stepRefused && !bitN v 21, stepped := d.time.stepped && !bitN v 20 } }
  else if a = 0x904 then { d with host := { d.host with lckBad := d.host.lckBad && !bitN v 31 } }
  else d

/-- A word written to the global window. -/
def Dev.globalWrite (d : Dev) (a : Nat) (v : BitVec 32) : Dev :=
  if a = 0x10C then d.opFeedModeWrite v
  else if a = 0x208 then d.opRstBootDescGo v
  else if a = 0x318 then d.opTimeRateWrite v
  else if a = 0x320 then d.opTimeStepGo v
  else if a = 0x324 then d.timeCfgWrite v
  else if a = 0x704 then d.opMsecPnWmxLoWrite v
  else if a = 0x908 then d.opLckBreakWrite 0 v
  else match rwGlobal a d.nTiles with
    | some m => if 0x600 ≤ a && a < 0x700 then d.setAge ((a - 0x600) / 4) (v &&& m).toNat else d.setReg a (v &&& m).toNat
    | none => d.globalClear a v.toNat

/-! ## Pages (Table 21-7) -/

/-- A word written to a mailbox page of the host (R367 to R369): the message window, MBX_SEND, MBX_STATUS, MBX_CFG. -/
def Dev.mboxWrite (d : Dev) (ch o : Nat) (v : BitVec 32) : Dev :=
  let m := d.mbox ch
  if 32 ≤ ch then d
  else if o < 0xF00 then
    if ch = 0 then d
    else if m.send.isSome then d.setMbox ch { m with collision := true }
    else d.setMbox ch { m with area := if v = 0#32 then mdel m.area (o / 4) else mput m.area (o / 4) v }
  else if o = 0xF00 then
    if ch = 0 then d
    else
      let n := v.toNat % 4096
      let bs := ((List.range ((n + 3) / 4)).flatMap (fun i => leBytes 4 (mgetD m.area i 0#32).toNat)).take n
      d.place (Packet.ofBytes ch bs)
  else if o = 0xF04 then
    d.setMbox ch { m with
      collision := m.collision && !v.getLsbD 29, badLen := m.badLen && !v.getLsbD 28, notifyLost := m.notifyLost && !v.getLsbD 27 }
  else if o = 0xF0C then d.setMbox ch { m with irqFree := v.getLsbD 1, irqRecv := v.getLsbD 0 }
  else d

/-- A word written to a check-engine page of the host (R355 to R358). While its chunk is under way writes are ignored and set collision,
but for abort and for a priority, which the engine judges at the next block boundary (log 45). -/
def Dev.chkWrite (d : Dev) (page o : Nat) (v : BitVec 32) : Dev :=
  let x := d.chkPage page
  if page < 4 || 16 ≤ page then d
  else if o = 8 then d.setChk page { x with collision := x.collision && !v.getLsbD 27 }
  else if o = 0 then
    if v.getLsbD 28 then d.opCheckPageAbort page
    else if x.st.busy then (d.setChk page { x with collision := true, prio := fieldN v.toNat 27 26 }).chkSchedule
    else if v.getLsbD 31 then d.opCheckPageGo page v
    else d.setChk page (x.ctrl v.toNat)
  else if !(o = 4 || (0x10 ≤ o && o < 0x20) || 0x100 ≤ o) then d
  else if x.st.busy then d.setChk page { x with collision := true }
  else if o = 4 then d.setChk page { x with len := v.toNat % 4096 }
  else if 0x100 ≤ o then d.setChk page { x with data := setWord x.data (o - 0x100) v }
  else if x.st = .done && !x.verify then d
  else d.setChk page { x with mac := setWord x.mac (o - 0x10) v }

/-- An operation of the table-access window (R283); other values of op are ignored. -/
def Dev.tacCmd (d : Dev) (v : Nat) : Dev :=
  let table := fieldN v 13 8
  let op := v % 8
  if d.tac.busy then { d with tac := { d.tac with collision := true } }
  else if op = 1 then d.opInsert table (bitN v 3)
  else if op = 2 then d.opDelete table
  else if op = 3 then d.opLookup table
  else if op = 4 then d.opReadIndex table
  else if op = 5 then d.opWriteIndex table
  else d

/-- A word written to the table-access window, which THZ8 does not have (R4). -/
def Dev.tacWrite (d : Dev) (o : Nat) (v : BitVec 32) : Dev :=
  let x := d.tac
  if d.variant = .thz8 then d
  else if o = 0 then d.tacCmd v.toNat
  else if o = 4 then { d with tac := { x with collision := x.collision && !v.getLsbD 30 } }
  else if x.busy then d
  else if o = 8 then { d with tac := { x with index := v &&& 0x7803FFFF#32 } }
  else if 0x40 ≤ o && o < 0x60 then { d with tac := { x with key := setWord x.key (o - 0x40) v } }
  else if 0x60 ≤ o && o < 0x78 then { d with tac := { x with act := setWord x.act (o - 0x60) v } }
  else if 0x78 ≤ o && o < 0x80 then { d with tac := { x with metad := setWord x.metad (o - 0x78) v } }
  else d

/-! ## Tile windows (Table 21-8) -/

/-- LANE_CFG (R86, R99, R100): the role of a bonded lane 8 or 9, never tree; a loop only while the lane's function is disabled. A far-end
loop selected is requested from the partner, at once where the lane is UP and else when it comes UP; one left is ended; a lane that is
now in use leaves lull; retrain last. -/
def Dev.laneCfgWrite (d : Dev) (t l : Nat) (v : Nat) : Dev :=
  let c := d.laneCfg t l
  let role := if d.laneBonded t l && 8 ≤ l && fieldN v 25 24 ≠ 0 then fieldN v 25 24 else fieldN c 25 24
  let old := fieldN c 23 22
  let loop := if d.laneFn t l then old else fieldN v 23 22
  let d := d.setReg (tileWin t + 0x2000 + l * 0x40) (role * 2 ^ 24 + loop * 2 ^ 22 + fieldN v 21 16 * 2 ^ 16)
  let live := d.laneLive t l
  let d := if live && old = 3 && loop ≠ 3 then (d.updLane t l (fun x => { x with loopWait := 2 })).sendLoop t l 0x02 else d
  let d := if loop ≠ old then d.updLane t l (fun x => { x with loopQ := [] }) else d
  let d := if live && loop ≠ old && d.laneUsed t l then d.laneWake t l else d
  let d :=
    if live && loop = 3 && old ≠ 3 then
      (if (d.lane t l).neg = .up then (d.updLane t l (fun x => { x with loopWait := 1 })).sendLoop t l 0x01
       else d.updLane t l (fun x => { x with loopWait := 3 }))
    else d
  if bitN v 0 then d.opLaneRetrain t l else d

/-- A word written to a tile window (R477 to R479): what the lead tile answers is there in every tile state, the rest only in RUN. -/
def Dev.tileWrite (d : Dev) (t o : Nat) (v : BitVec 32) : Dev :=
  if d.nTiles ≤ t then d
  else if o = 0x1000 then d.updTile t (fun x => { x with railFault := w1c x.railFault v.toNat 8 })
  else if o = 0x1104 then d.updTile t (fun x => { x with cdcOvf := w1c x.cdcOvf v.toNat 16 })
  else if !d.tileRun t then d
  else if 0x2000 ≤ o && o < 0x2280 then
    (let l := (o - 0x2000) / 0x40
     if o % 0x40 = 0 then d.laneCfgWrite t l v.toNat
     else if o % 0x40 = 8 && v.getLsbD 0 then d.opLaneSlipWrite t l
     else d)
  else if o = 0x2400 || o = 0x2404 then d.uplModeSet (2 * t + (o - 0x2400) / 4) (v.toNat % 16)
  else if o = 0x9010 then d.setPool t { d.pool t with badValid := (d.pool t).badValid && !v.getLsbD 31 }
  else match rwTile o with
    | some m => d.setReg (tileWin t + o) (v &&& m).toNat
    | none => d

/-! ## One access -/

/-- An aligned 32-bit write of BAR0; before command-ready only the descriptor registers are written, in WAIT_HOST (R72). -/
def Dev.write32 (d : Dev) (a : Nat) (v : BitVec 32) : Dev :=
  if a = 0x208 then d.opRstBootDescGo v
  else if a = 0x20C && d.rst.stage = .waitHost && d.host.linkUp then d.setReg a v.toNat
  else if !d.hostOk then d
  else if a < 0x10000 then d.globalWrite a v
  else if a < 0x20000 then (if a % 0x1000 < 0x400 then d.opLckLockWrite (a % 0x1000 / 4) (0x100 + (a - 0x10000) / 0x1000) v else d)
  else if a < 0x60000 then (if a < 0x40000 then d.mboxWrite ((a - 0x20000) / 0x1000) (a % 0x1000) v else d)
  else if a < 0x70000 then d.chkWrite ((a - 0x60000) / 0x1000) (a % 0x1000) v
  else if a < 0x80000 then d
  else if a < 0x100000 then d.tacWrite (a - 0x80000) v
  else d.tileWrite (a / 0x100000 - 1) (a % 0x100000) v

/-- Whether every writable bit of a register is W1C. -/
def w1cReg (a : Nat) : Bool :=
  if a < 0x10000 then a = 0x010 || a = 0x100 || a = 0x120 || a = 0x200 || a = 0x328 || a = 0x904
  else if 0x20000 ≤ a && a < 0x40000 then a % 0x1000 = 0xF04
  else if 0x60000 ≤ a && a < 0x70000 then a % 0x1000 = 8
  else if a < 0x100000 then a = 0x80004
  else a % 0x100000 = 0x1000 || a % 0x100000 = 0x1104 || a % 0x100000 = 0x9010

/-- One word of a write. A W1C bit that a hardware event sets in the cycle of the write, a bit of `evt`, stays set (R11). -/
def Dev.writeWord (d : Dev) (a : Nat) (v evt : BitVec 32) : Dev := d.write32 a (if w1cReg a then v &&& ~~~evt else v)

/-- REG_WRITE (R361): aligned 32-bit and 64-bit writes; the latter is two of 32 bits in ascending address order; others are ignored. The
command of an event that sets W1C bits in the same cycle stands before this one, which names those bits in `evt` (R11). -/
def Dev.opRegWrite (d : Dev) (addr width : Nat) (value evt : BitVec 64) : Dev :=
  if width = 4 && addr % 4 = 0 then d.writeWord addr (value.setWidth 32) (evt.setWidth 32)
  else if width = 8 && addr % 8 = 0 then
    (d.writeWord addr (value.setWidth 32) (evt.setWidth 32)).writeWord (addr + 4) ((value >>> 32).setWidth 32) ((evt >>> 32).setWidth 32)
  else d

/-! ## Meanings -/

/-- REG_WRITE (R9). -/
def execRegWrite (addr width : Nat) (write : HostWrite) (s : State) : Host.Outcome State Fault Refusal :=
  live (fun d => d.opRegWrite addr width write.value write.evt) s

end Sys2Proof.Machine
end

