-- ==== Sys2Proof/Machine/Replay.lean ====
section
/-!
DEFINITION. The end of a tile reset: the configuration shadow is in force again, keys are loaded, what was enabled is enabled, and the tile
enters RUN (R28, R77 steps 8 and 9).
-/

namespace Sys2Proof.Machine

/-- Keys are loaded again by slot number (step 9 of R77). -/
def Dev.reloadKeys (d : Dev) (t : Nat) : Dev :=
  let d : Dev := { d with
    msec := { d.msec with sas := d.msec.sas.map (fun (k, x) => (k, if d.tileOfSa k = t && x.st ≠ .empty then { x with loaded := true } else x)) }
    pon := d.pon.map (fun (k, x) => (k, if d.onTile t k then { x with loaded := true } else x)) }
  let d := (d.msec.sas.filter (fun e => d.tileOfSa e.1 = t && e.2.loaded)).foldl (fun d e => d.emit (.keyBus 0 t e.1)) d
  (d.pon.filter (fun e => (d.placesOf (d.chanOfTerm e.1)).contains t)).foldl (fun d (k, x) =>
    let d := if x.key0.isSome then d.emit (.keyBus 0 t (8192 + 2 * k)) else d
    if x.key1.isSome then d.emit (.keyBus 0 t (8193 + 2 * k)) else d) d

/-- The lanes 8 and 9 of a tile take the role that LANE_CFG holds and leave lull where they are used. -/
def Dev.reopenLanes (d : Dev) (t : Nat) : Dev :=
  [8, 9].foldl (fun d l =>
    if !d.laneBonded t l then d
    else
      let d := d.updLane t l (fun x => { x with role := d.laneRoleCfg t l })
      if d.laneUsed t l then d.laneWake t l else d) d

/-- What the shadow holds as enabled is enabled again; each enable queued behind a drain proceeds, and completes with ST_OK or with the status
with which it fails (R28). -/
def Dev.reEnable (d : Dev) (t : Nat) : Dev :=
  let chs := (d.chans.filter (fun e => tileOfChan e.1 = t && e.2.st = .enabling)).map (fun e => e.1)
  let d := chs.foldl Dev.chanEnabling d
  let d := (List.range 32).foldl (fun d k => d.queuedEnables (32 * t + k)) d
  let d := (List.range 8).foldl (fun d k => d.queuedTree (8 * t + k)) d
  (List.range 8).foldl (fun d k => d.queuedSub (8 * t + k)) d

/-- Steps 8 and 9 of R77. The shadow is in the configuration already: the model keeps one copy of it. -/
def Dev.finishTileReset (d : Dev) (t : Nat) : Dev :=
  let d := (d.reloadKeys t).updTile t (fun x => { x with
    uplinkFault := false
    cdcResync := 0
    timeErr := 0 })
  ((((d.tileTo t .run).reopenLanes t).reEnable t).fmTileRun t).complete .tileReset t stOk

/-- TILE_RESET (R77): a tile whose images are loaded and whose time unit is aligned is brought to RUN; one whose anneal asks for it runs assay
again first (R457). -/
def Dev.opTileReset (d : Dev) (tile : Nat) : Dev :=
  let x := d.tile tile
  if d.ready && tile ≠ 0 && tile < d.nTiles then
    match x.assayAfter with
    | some set => if x.st = .reset then (d.updTile tile (fun x => { x with assayAfter := none })).assayOrDefer tile 2 set else d
    | none => if x.st = .boot && x.aligned then (d.finishTileReset tile).assayComplete else d
  else d

/-! ## Meanings -/

/-- TILE_RESET (R77). -/
def execTileReset (tile : Nat) (s : State) : Host.Outcome State Fault Refusal :=
  live (fun d => d.opTileReset tile) s

end Sys2Proof.Machine
end

