-- ==== Sys2Proof/Machine/Dispatch.lean ====
section
/-!
DEFINITION. One arm per command: the effect of each is the definition its arm names.
-/

namespace Sys2Proof.Machine

/-- The effect of a command on everything but the queue. -/
def exec (i : Instr) (s : State) : Host.Outcome State Fault Refusal :=
  match i with
  | .cmdSysInfo p => Sys2Proof.Machine.execCmdSysInfo p s
  | .cmdSysSender p => Sys2Proof.Machine.execCmdSysSender p s
  | .cmdSysRemote p => Sys2Proof.Machine.execCmdSysRemote p s
  | .cmdSysWarmReset p => Sys2Proof.Machine.execCmdSysWarmReset p s
  | .cmdSysTileReset p => Sys2Proof.Machine.execCmdSysTileReset p s
  | .cmdSysFuncReset p => Sys2Proof.Machine.execCmdSysFuncReset p s
  | .cmdSysCounter p => Sys2Proof.Machine.execCmdSysCounter p s
  | .cmdSysEcho p => Sys2Proof.Machine.execCmdSysEcho p s
  | .cmdSysUplink p => Sys2Proof.Machine.execCmdSysUplink p s
  | .cmdTreeEnable p => Sys2Proof.Machine.execCmdTreeEnable p s
  | .cmdTreeDisable p => Sys2Proof.Machine.execCmdTreeDisable p s
  | .cmdChanEnable p => Sys2Proof.Machine.execCmdChanEnable p s
  | .cmdChanDisable p => Sys2Proof.Machine.execCmdChanDisable p s
  | .cmdChanConfig p => Sys2Proof.Machine.execCmdChanConfig p s
  | .cmdCircuitCreate p => Sys2Proof.Machine.execCmdCircuitCreate p s
  | .cmdCircuitDelete p => Sys2Proof.Machine.execCmdCircuitDelete p s
  | .cmdOmciSend p => Sys2Proof.Machine.execCmdOmciSend p s
  | .cmdPmRead p => Sys2Proof.Machine.execCmdPmRead p s
  | .cmdPmConfig p => Sys2Proof.Machine.execCmdPmConfig p s
  | .cmdTermCreate p => Sys2Proof.Machine.execCmdTermCreate p s
  | .cmdTermDelete p => Sys2Proof.Machine.execCmdTermDelete p s
  | .cmdTermMap p => Sys2Proof.Machine.execCmdTermMap p s
  | .cmdRngChanConfig p => Sys2Proof.Machine.execCmdRngChanConfig p s
  | .cmdTermRerange p => Sys2Proof.Machine.execCmdTermRerange p s
  | .cmdTermPower p => Sys2Proof.Machine.execCmdTermPower p s
  | .cmdTermTxctrl p => Sys2Proof.Machine.execCmdTermTxctrl p s
  | .cmdTermStatus p => Sys2Proof.Machine.execCmdTermStatus p s
  | .cmdAllocCreate p => Sys2Proof.Machine.execCmdAllocCreate p s
  | .cmdAllocModify p => Sys2Proof.Machine.execCmdAllocModify p s
  | .cmdAllocDelete p => Sys2Proof.Machine.execCmdAllocDelete p s
  | .cmdAllocStatus p => Sys2Proof.Machine.execCmdAllocStatus p s
  | .cmdDomConfig p => Sys2Proof.Machine.execCmdDomConfig p s
  | .cmdTdomConfig p => Sys2Proof.Machine.execCmdTdomConfig p s
  | .cmdGsStatus p => Sys2Proof.Machine.execCmdGsStatus p s
  | .cmdFmRoute p => Sys2Proof.Machine.execCmdFmRoute p s
  | .cmdFmCell p => Sys2Proof.Machine.execCmdFmCell p s
  | .cmdFmProfile p => Sys2Proof.Machine.execCmdFmProfile p s
  | .cmdFmTrainBind p => Sys2Proof.Machine.execCmdFmTrainBind p s
  | .cmdFmTrainClear p => Sys2Proof.Machine.execCmdFmTrainClear p s
  | .cmdFmPosition p => Sys2Proof.Machine.execCmdFmPosition p s
  | .cmdFmEvent p => Sys2Proof.Machine.execCmdFmEvent p s
  | .cmdFmSource p => Sys2Proof.Machine.execCmdFmSource p s
  | .cmdFmStatus p => Sys2Proof.Machine.execCmdFmStatus p s
  | .cmdTableInsert p => Sys2Proof.Machine.execCmdTableInsert p s
  | .cmdTableDelete p => Sys2Proof.Machine.execCmdTableDelete p s
  | .cmdTableLookup p => Sys2Proof.Machine.execCmdTableLookup p s
  | .cmdTableSearch p => Sys2Proof.Machine.execCmdTableSearch p s
  | .cmdTableNext p => Sys2Proof.Machine.execCmdTableNext p s
  | .cmdTableFlushPort p => Sys2Proof.Machine.execCmdTableFlushPort p s
  | .cmdTableConfig p => Sys2Proof.Machine.execCmdTableConfig p s
  | .cmdTableStatus p => Sys2Proof.Machine.execCmdTableStatus p s
  | .cmdKeyProfile p => Sys2Proof.Machine.execCmdKeyProfile p s
  | .cmdLookupList p => Sys2Proof.Machine.execCmdLookupList p s
  | .cmdSpreadGroup p => Sys2Proof.Machine.execCmdSpreadGroup p s
  | .cmdMirrorSession p => Sys2Proof.Machine.execCmdMirrorSession p s
  | .cmdClsPort p => Sys2Proof.Machine.execCmdClsPort p s
  | .cmdQueueCreate p => Sys2Proof.Machine.execCmdQueueCreate p s
  | .cmdQueueModify p => Sys2Proof.Machine.execCmdQueueModify p s
  | .cmdQueueDelete p => Sys2Proof.Machine.execCmdQueueDelete p s
  | .cmdNodeConfig p => Sys2Proof.Machine.execCmdNodeConfig p s
  | .cmdShaperSet p => Sys2Proof.Machine.execCmdShaperSet p s
  | .cmdMeterSet p => Sys2Proof.Machine.execCmdMeterSet p s
  | .cmdGateSet p => Sys2Proof.Machine.execCmdGateSet p s
  | .cmdQueueInject p => Sys2Proof.Machine.execCmdQueueInject p s
  | .cmdQmStatus p => Sys2Proof.Machine.execCmdQmStatus p s
  | .cmdMsecSecy p => Sys2Proof.Machine.execCmdMsecSecy p s
  | .cmdMsecSc p => Sys2Proof.Machine.execCmdMsecSc p s
  | .cmdMsecMka p => Sys2Proof.Machine.execCmdMsecMka p s
  | .cmdMsecSaInstall p => Sys2Proof.Machine.execCmdMsecSaInstall p s
  | .cmdMsecSaDisable p => Sys2Proof.Machine.execCmdMsecSaDisable p s
  | .cmdMsecTxSwitch p => Sys2Proof.Machine.execCmdMsecTxSwitch p s
  | .cmdMsecTransit p => Sys2Proof.Machine.execCmdMsecTransit p s
  | .cmdMsecBypass p => Sys2Proof.Machine.execCmdMsecBypass p s
  | .cmdMsecStatus p => Sys2Proof.Machine.execCmdMsecStatus p s
  | .cmdPonMsk p => Sys2Proof.Machine.execCmdPonMsk p s
  | .cmdPonKeyCfg p => Sys2Proof.Machine.execCmdPonKeyCfg p s
  | .cmdPonKeyRoll p => Sys2Proof.Machine.execCmdPonKeyRoll p s
  | .cmdPonKeyStatus p => Sys2Proof.Machine.execCmdPonKeyStatus p s
  | .cmdCruInfo p => Sys2Proof.Machine.execCmdCruInfo p s
  | .cmdCruChallenge p => Sys2Proof.Machine.execCmdCruChallenge p s
  | .cmdCruLifecycle p => Sys2Proof.Machine.execCmdCruLifecycle p s
  | .cmdCruSlotWrite p => Sys2Proof.Machine.execCmdCruSlotWrite p s
  | .cmdCruSlotErase p => Sys2Proof.Machine.execCmdCruSlotErase p s
  | .cmdCruSlotStatus p => Sys2Proof.Machine.execCmdCruSlotStatus p s
  | .cmdCruFwStage p => Sys2Proof.Machine.execCmdCruFwStage p s
  | .cmdCruFwActivate p => Sys2Proof.Machine.execCmdCruFwActivate p s
  | .cmdTimePtpPort p => Sys2Proof.Machine.execCmdTimePtpPort p s
  | .cmdTimePhyLatency p => Sys2Proof.Machine.execCmdTimePhyLatency p s
  | .cmdTimeTod p => Sys2Proof.Machine.execCmdTimeTod p s
  | .cmdTimeStep p => Sys2Proof.Machine.execCmdTimeStep p s
  | .cmdTimeStatus p => Sys2Proof.Machine.execCmdTimeStatus p s
  | .cmdJoinConfig p => Sys2Proof.Machine.execCmdJoinConfig p s
  | .cmdJoinStatus p => Sys2Proof.Machine.execCmdJoinStatus p s
  | .cmdJoinBarrier p => Sys2Proof.Machine.execCmdJoinBarrier p s
  | .cmdJoinSnapshot p => Sys2Proof.Machine.execCmdJoinSnapshot p s
  | .cmdJoinBroadcast p => Sys2Proof.Machine.execCmdJoinBroadcast p s
  | .cmdJoinGroupReset p => Sys2Proof.Machine.execCmdJoinGroupReset p s
  | .cmdProtGroup p => Sys2Proof.Machine.execCmdProtGroup p s
  | .cmdProtForce p => Sys2Proof.Machine.execCmdProtForce p s
  | .cmdProtStatus p => Sys2Proof.Machine.execCmdProtStatus p s
  | .cmdFltAck p => Sys2Proof.Machine.execCmdFltAck p s
  | .cmdFltQuenchRelease p => Sys2Proof.Machine.execCmdFltQuenchRelease p s
  | .cmdFltConfig p => Sys2Proof.Machine.execCmdFltConfig p s
  | .cmdFltLog p => Sys2Proof.Machine.execCmdFltLog p s
  | .cmdAssayStart p => Sys2Proof.Machine.execCmdAssayStart p s
  | .cmdAssayConfig p => Sys2Proof.Machine.execCmdAssayConfig p s
  | .cmdAssayResult p => Sys2Proof.Machine.execCmdAssayResult p s
  | .cmdCntRead p => Sys2Proof.Machine.execCmdCntRead p s
  | .cmdCntWrite p => Sys2Proof.Machine.execCmdCntWrite p s
  | .cmdCntThreshold p => Sys2Proof.Machine.execCmdCntThreshold p s
  | .cmdCntWindow p => Sys2Proof.Machine.execCmdCntWindow p s
  | .cmdCntSample p => Sys2Proof.Machine.execCmdCntSample p s
  | .fragmentRx p => Sys2Proof.Machine.execFragmentRx p s
  | .fragmentTimeout ch => Sys2Proof.Machine.execFragmentTimeout ch s
  | .tileForwardTimeout p => Sys2Proof.Machine.execTileForwardTimeout p s
  | .tileForwardDone p => Sys2Proof.Machine.execTileForwardDone p s
  | .authRefusalEnd ch => Sys2Proof.Machine.execAuthRefusalEnd ch s
  | .mbxSendWrite p => Sys2Proof.Machine.execMbxSendWrite p s
  | .mbxTakeRead ch => Sys2Proof.Machine.execMbxTakeRead ch s
  | .inbandMessageRx sub vlan mac p => Sys2Proof.Machine.execInbandMessageRx sub vlan mac p s
  | .mbxDeliveryTimeout ch => Sys2Proof.Machine.execMbxDeliveryTimeout ch s
  | .lckLockRead lock master => Sys2Proof.Machine.execLckLockRead lock master s
  | .lckLockWrite lock master value => Sys2Proof.Machine.execLckLockWrite lock master value s
  | .lckBreakWrite als value => Sys2Proof.Machine.execLckBreakWrite als value s
  | .dmaTransferDone => Sys2Proof.Machine.execDmaTransferDone s
  | .dmaHostReadTimeout desc => Sys2Proof.Machine.execDmaHostReadTimeout desc s
  | .dmaHostError desc => Sys2Proof.Machine.execDmaHostError desc s
  | .cxlLinkDown => Sys2Proof.Machine.execCxlLinkDown s
  | .memWriteDrop addr value => Sys2Proof.Machine.execMemWriteDrop addr value s
  | .readStatus start n => Sys2Proof.Machine.execReadStatus start n s
  | .readId => Sys2Proof.Machine.execReadId s
  | .resetReq b1 b2 => Sys2Proof.Machine.execResetReq b1 b2 s
  | .bmsUnknownCommand b => Sys2Proof.Machine.execBmsUnknownCommand b s
  | .regWrite addr width write => Sys2Proof.Machine.execRegWrite addr width write s
  | .timeRawLoRead => Sys2Proof.Machine.execTimeRawLoRead s
  | .timeNowFracRead => Sys2Proof.Machine.execTimeNowFracRead s
  | .timeStatusRead => Sys2Proof.Machine.execTimeStatusRead s
  | .pwrDiscStatusRead => Sys2Proof.Machine.execPwrDiscStatusRead s
  | .pwrTileTempRead tile => Sys2Proof.Machine.execPwrTileTempRead tile s
  | .bpmMinFreeRead tile => Sys2Proof.Machine.execBpmMinFreeRead tile s
  | .cntLostRead => Sys2Proof.Machine.execCntLostRead s
  | .timeRateWrite value => Sys2Proof.Machine.execTimeRateWrite value s
  | .timeStepGo value => Sys2Proof.Machine.execTimeStepGo value s
  | .feedModeWrite value => Sys2Proof.Machine.execFeedModeWrite value s
  | .rstBootDescGo value => Sys2Proof.Machine.execRstBootDescGo value s
  | .hostImageLoaded load => Sys2Proof.Machine.execHostImageLoaded load s
  | .msecPnWmxLoWrite value => Sys2Proof.Machine.execMsecPnWmxLoWrite value s
  | .laneSlipWrite tile lane => Sys2Proof.Machine.execLaneSlipWrite tile lane s
  | .laneRetrain tile lane => Sys2Proof.Machine.execLaneRetrain tile lane s
  | .insert table noEvict => Sys2Proof.Machine.execInsert table noEvict s
  | .delete table => Sys2Proof.Machine.execDelete table s
  | .lookup table => Sys2Proof.Machine.execLookup table s
  | .readIndex table => Sys2Proof.Machine.execReadIndex table s
  | .writeIndex table => Sys2Proof.Machine.execWriteIndex table s
  | .tacOpDone => Sys2Proof.Machine.execTacOpDone s
  | .checkPageGo page value => Sys2Proof.Machine.execCheckPageGo page value s
  | .checkPageAbort page => Sys2Proof.Machine.execCheckPageAbort page s
  | .checkChunkDone page => Sys2Proof.Machine.execCheckChunkDone page s
  | .feedQualified feed => Sys2Proof.Machine.execFeedQualified feed s
  | .feedUnderVoltage feedB mv => Sys2Proof.Machine.execFeedUnderVoltage feedB mv s
  | .feedOverVoltage feedB mv => Sys2Proof.Machine.execFeedOverVoltage feedB mv s
  | .feedReversed feedB => Sys2Proof.Machine.execFeedReversed feedB s
  | .aonDomainDrop => Sys2Proof.Machine.execAonDomainDrop s
  | .railExcursion tile rail overV => Sys2Proof.Machine.execRailExcursion tile rail overV s
  | .railInRange tile rail => Sys2Proof.Machine.execRailInRange tile rail s
  | .railRampTimeout tile rail => Sys2Proof.Machine.execRailRampTimeout tile rail s
  | .tileRampStart tile => Sys2Proof.Machine.execTileRampStart tile s
  | .thermalSensorRead tile r => Sys2Proof.Machine.execThermalSensorRead tile r s
  | .thermalIsolate tile => Sys2Proof.Machine.execThermalIsolate tile s
  | .thermalTrip tile => Sys2Proof.Machine.execThermalTrip tile s
  | .powerCapExceeded watts => Sys2Proof.Machine.execPowerCapExceeded watts s
  | .assayHeadroomStart tile => Sys2Proof.Machine.execAssayHeadroomStart tile s
  | .resetNAssert => Sys2Proof.Machine.execResetNAssert s
  | .resetNRelease bootSrc refSel => Sys2Proof.Machine.execResetNRelease bootSrc refSel s
  | .extQuenchAssert => Sys2Proof.Machine.execExtQuenchAssert s
  | .extQuenchRelease => Sys2Proof.Machine.execExtQuenchRelease s
  | .protReqAssert n => Sys2Proof.Machine.execProtReqAssert n s
  | .protReqRelease n => Sys2Proof.Machine.execProtReqRelease n s
  | .discreteShortPulse input => Sys2Proof.Machine.execDiscreteShortPulse input s
  | .stuckTimeout pin => Sys2Proof.Machine.execStuckTimeout pin s
  | .warmResetStart => Sys2Proof.Machine.execWarmResetStart s
  | .imageStageVerified image => Sys2Proof.Machine.execImageStageVerified image s
  | .meminitDone failed => Sys2Proof.Machine.execMeminitDone failed s
  | .tileImageLoaded tile load => Sys2Proof.Machine.execTileImageLoaded tile load s
  | .commandReady => Sys2Proof.Machine.execCommandReady s
  | .tileReset tile => Sys2Proof.Machine.execTileReset tile s
  | .dieLinkTrained a b => Sys2Proof.Machine.execDieLinkTrained a b s
  | .dieLinkTrainTimeout a b => Sys2Proof.Machine.execDieLinkTrainTimeout a b s
  | .dieLinkLockLoss a b => Sys2Proof.Machine.execDieLinkLockLoss a b s
  | .lockstepDisagree tile pair => Sys2Proof.Machine.execLockstepDisagree tile pair s
  | .watchdogExpiry tile pair => Sys2Proof.Machine.execWatchdogExpiry tile pair s
  | .engineIsolate engine => Sys2Proof.Machine.execEngineIsolate engine s
  | .blockReceived tile lane header payload => Sys2Proof.Machine.execBlockReceived tile lane header payload s
  | .blockLockAcquired tile lane => Sys2Proof.Machine.execBlockLockAcquired tile lane s
  | .blockLockLost tile lane => Sys2Proof.Machine.execBlockLockLost tile lane s
  | .relockTimeout tile lane => Sys2Proof.Machine.execRelockTimeout tile lane s
  | .abil tile lane payload => Sys2Proof.Machine.execAbil tile lane payload s
  | .genStepSwitch tile lane => Sys2Proof.Machine.execGenStepSwitch tile lane s
  | .genStepConfirm tile lane => Sys2Proof.Machine.execGenStepConfirm tile lane s
  | .genStepTimeout tile lane => Sys2Proof.Machine.execGenStepTimeout tile lane s
  | .loop tile lane payload => Sys2Proof.Machine.execLoop tile lane payload s
  | .lull tile lane payload => Sys2Proof.Machine.execLull tile lane payload s
  | .lullEnter tile side => Sys2Proof.Machine.execLullEnter tile side s
  | .lullWake tile side => Sys2Proof.Machine.execLullWake tile side s
  | .fs tile lane payload => Sys2Proof.Machine.execFs tile lane payload s
  | .frameSyncLoss tile lane => Sys2Proof.Machine.execFrameSyncLoss tile lane s
  | .sdReport tile lane payload => Sys2Proof.Machine.execSdReport tile lane payload s
  | .phyStatus tile lane payload => Sys2Proof.Machine.execPhyStatus tile lane payload s
  | .frameBoundary => Sys2Proof.Machine.execFrameBoundary s
  | .planCommit ch => Sys2Proof.Machine.execPlanCommit ch s
  | .planCommitDeadline ch => Sys2Proof.Machine.execPlanCommitDeadline ch s
  | .secondBoundary => Sys2Proof.Machine.execSecondBoundary s
  | .binFinal => Sys2Proof.Machine.execBinFinal s
  | .fastSesInterval => Sys2Proof.Machine.execFastSesInterval s
  | .channelDrainEnd ch => Sys2Proof.Machine.execChannelDrainEnd ch s
  | .burstFound ch b => Sys2Proof.Machine.execBurstFound ch b s
  | .burstWindowClose ch => Sys2Proof.Machine.execBurstWindowClose ch s
  | .burstDecoded ch b => Sys2Proof.Machine.execBurstDecoded ch b s
  | .serialNumberOnu ch serial offsetNs => Sys2Proof.Machine.execSerialNumberOnu ch serial offsetNs s
  | .password tid cred rtt => Sys2Proof.Machine.execPassword tid cred rtt s
  | .encryptionKey tid k => Sys2Proof.Machine.execEncryptionKey tid k s
  | .acknowledge tid => Sys2Proof.Machine.execAcknowledge tid s
  | .sleepRequest tid awake => Sys2Proof.Machine.execSleepRequest tid awake s
  | .dyingGasp tid => Sys2Proof.Machine.execDyingGasp tid s
  | .ploamUnexpected p => Sys2Proof.Machine.execPloamUnexpected p s
  | .omciFrameRx tid msg trailer => Sys2Proof.Machine.execOmciFrameRx tid msg trailer s
  | .circuitContainerRx circuit bytes => Sys2Proof.Machine.execCircuitContainerRx circuit bytes s
  | .satopPacketRx circuit pkt => Sys2Proof.Machine.execSatopPacketRx circuit pkt s
  | .rangingWindowsExhausted tid => Sys2Proof.Machine.execRangingWindowsExhausted tid s
  | .reacquireTimeout tid => Sys2Proof.Machine.execReacquireTimeout tid s
  | .holdOffEnd tid => Sys2Proof.Machine.execHoldOffEnd tid s
  | .discMapPeriodStart ch => Sys2Proof.Machine.execDiscMapPeriodStart ch s
  | .discBroadPeriodStart ch => Sys2Proof.Machine.execDiscBroadPeriodStart ch s
  | .darkPeriodStart ch => Sys2Proof.Machine.execDarkPeriodStart ch s
  | .darkWindowVoid ch => Sys2Proof.Machine.execDarkWindowVoid ch s
  | .huntSettleExpiry ch => Sys2Proof.Machine.execHuntSettleExpiry ch s
  | .positionTelegramRx port payload => Sys2Proof.Machine.execPositionTelegramRx port payload s
  | .heldReportRelease trn => Sys2Proof.Machine.execHeldReportRelease trn s
  | .remoteReportRx record profile => Sys2Proof.Machine.execRemoteReportRx record profile s
  | .bandPublish => Sys2Proof.Machine.execBandPublish s
  | .trainStale trn => Sys2Proof.Machine.execTrainStale trn s
  | .trainLost trn => Sys2Proof.Machine.execTrainLost trn s
  | .floorHoldEnd trn => Sys2Proof.Machine.execFloorHoldEnd trn s
  | .preEngageHoldEnd trn cell => Sys2Proof.Machine.execPreEngageHoldEnd trn cell s
  | .frameClassify i0 frame => Sys2Proof.Machine.execFrameClassify i0 frame s
  | .secondPass tile pipe => Sys2Proof.Machine.execSecondPass tile pipe s
  | .learnApply tile => Sys2Proof.Machine.execLearnApply tile s
  | .tableUpdateRx tile u => Sys2Proof.Machine.execTableUpdateRx tile u s
  | .ageingSweep table => Sys2Proof.Machine.execAgeingSweep table s
  | .cursorTimeout cursor => Sys2Proof.Machine.execCursorTimeout cursor s
  | .flushPortDone => Sys2Proof.Machine.execFlushPortDone s
  | .subportDown sub => Sys2Proof.Machine.execSubportDown sub s
  | .subportUp sub => Sys2Proof.Machine.execSubportUp sub s
  | .frameEnqueue q => Sys2Proof.Machine.execFrameEnqueue q s
  | .frameRelease tile ptr party => Sys2Proof.Machine.execFrameRelease tile ptr party s
  | .frameDequeue sub node => Sys2Proof.Machine.execFrameDequeue sub node s
  | .shaperRefill => Sys2Proof.Machine.execShaperRefill s
  | .launchTimeReached queue => Sys2Proof.Machine.execLaunchTimeReached queue s
  | .gateBoundary sub => Sys2Proof.Machine.execGateBoundary sub s
  | .uplinkFrameRx f => Sys2Proof.Machine.execUplinkFrameRx f s
  | .saRetireEnd sa => Sys2Proof.Machine.execSaRetireEnd sa s
  | .pnBoundRaise sa => Sys2Proof.Machine.execPnBoundRaise sa s
  | .rxPnReport sa => Sys2Proof.Machine.execRxPnReport sa s
  | .transitVerdict sa queue ok pn head tail => Sys2Proof.Machine.execTransitVerdict sa queue ok pn head tail s
  | .mkpduRx secy m => Sys2Proof.Machine.execMkpduRx secy m s
  | .mkaHelloTx secy => Sys2Proof.Machine.execMkaHelloTx secy s
  | .mkaPeerExpire secy sci => Sys2Proof.Machine.execMkaPeerExpire secy sci s
  | .ponRekeyTimer tid => Sys2Proof.Machine.execPonRekeyTimer tid s
  | .ponKeyRetry tid => Sys2Proof.Machine.execPonKeyRetry tid s
  | .ponOldKeyZeroise tid => Sys2Proof.Machine.execPonOldKeyZeroise tid s
  | .keyLoadAck slot ack => Sys2Proof.Machine.execKeyLoadAck slot ack s
  | .entropyHealthFail => Sys2Proof.Machine.execEntropyHealthFail s
  | .challengeExpiry => Sys2Proof.Machine.execChallengeExpiry s
  | .tokenLockoutEnd => Sys2Proof.Machine.execTokenLockoutEnd s
  | .refclkLoss refB => Sys2Proof.Machine.execRefclkLoss refB s
  | .refclkDisagree ppm => Sys2Proof.Machine.execRefclkDisagree ppm s
  | .refclkHoldoverExpiry => Sys2Proof.Machine.execRefclkHoldoverExpiry s
  | .ppsInEdge => Sys2Proof.Machine.execPpsInEdge s
  | .ppsSourceLoss => Sys2Proof.Machine.execPpsSourceLoss s
  | .ptpFrameRx sub f => Sys2Proof.Machine.execPtpFrameRx sub f s
  | .ptpMessageTx sub kind => Sys2Proof.Machine.execPtpMessageTx sub kind s
  | .ptpSourceTimeout sub => Sys2Proof.Machine.execPtpSourceTimeout sub s
  | .servoLocked => Sys2Proof.Machine.execServoLocked s
  | .holdoverAlarm => Sys2Proof.Machine.execHoldoverAlarm s
  | .tileTimeCheck tile err16 => Sys2Proof.Machine.execTileTimeCheck tile err16 s
  | .tileTimeIsolate tile => Sys2Proof.Machine.execTileTimeIsolate tile s
  | .hello m h => Sys2Proof.Machine.execHello m h s
  | .helloTx port => Sys2Proof.Machine.execHelloTx port s
  | .helloMiss port => Sys2Proof.Machine.execHelloMiss port s
  | .delayReq m t1 => Sys2Proof.Machine.execDelayReq m t1 s
  | .delayResp m t1 t2 t3 => Sys2Proof.Machine.execDelayResp m t1 t2 t3 s
  | .delayMeasureTick port => Sys2Proof.Machine.execDelayMeasureTick port s
  | .attach m => Sys2Proof.Machine.execAttach m s
  | .attachAck m => Sys2Proof.Machine.execAttachAck m s
  | .detach m => Sys2Proof.Machine.execDetach m s
  | .regionRootTimeout => Sys2Proof.Machine.execRegionRootTimeout s
  | .time m departNs => Sys2Proof.Machine.execTime m departNs s
  | .timeMsgTx port => Sys2Proof.Machine.execTimeMsgTx port s
  | .opTime m tOp members => Sys2Proof.Machine.execOpTime m tOp members s
  | .broadcast m b => Sys2Proof.Machine.execBroadcast m b s
  | .positionBatchFlush => Sys2Proof.Machine.execPositionBatchFlush s
  | .barrierArrive m b => Sys2Proof.Machine.execBarrierArrive m b s
  | .barrierRelease m b => Sys2Proof.Machine.execBarrierRelease m b s
  | .barrierExecute n => Sys2Proof.Machine.execBarrierExecute n s
  | .barrierAbort m n status => Sys2Proof.Machine.execBarrierAbort m n status s
  | .barrierTimeout n => Sys2Proof.Machine.execBarrierTimeout n s
  | .snapshotReq m id at_ => Sys2Proof.Machine.execSnapshotReq m id at_ s
  | .snapshotInstant id => Sys2Proof.Machine.execSnapshotInstant id s
  | .snapshotWriteDone => Sys2Proof.Machine.execSnapshotWriteDone s
  | .snapshotDone m id => Sys2Proof.Machine.execSnapshotDone m id s
  | .snapshotTimeout id => Sys2Proof.Machine.execSnapshotTimeout id s
  | .groupReset m group at_ => Sys2Proof.Machine.execGroupReset m group at_ s
  | .groupResetInstant group => Sys2Proof.Machine.execGroupResetInstant group s
  | .groupResetDone m group => Sys2Proof.Machine.execGroupResetDone m group s
  | .command m p => Sys2Proof.Machine.execCommand m p s
  | .reply m body => Sys2Proof.Machine.execReply m body s
  | .leaseRenewTick tree => Sys2Proof.Machine.execLeaseRenewTick tree s
  | .renew tree inband l => Sys2Proof.Machine.execRenew tree inband l s
  | .release tree inband l => Sys2Proof.Machine.execRelease tree inband l s
  | .handover tree inband l => Sys2Proof.Machine.execHandover tree inband l s
  | .digest tree l g x f => Sys2Proof.Machine.execDigest tree l g x f s
  | .digestCompareGap tree k frame => Sys2Proof.Machine.execDigestCompareGap tree k frame s
  | .sync tree l recs => Sys2Proof.Machine.execSync tree l recs s
  | .leaseFailureTimeout tree => Sys2Proof.Machine.execLeaseFailureTimeout tree s
  | .quietPeriodExpiry seq => Sys2Proof.Machine.execQuietPeriodExpiry seq s
  | .assayScanDone tile patterns sig golden reason => Sys2Proof.Machine.execAssayScanDone tile patterns sig golden reason s
  | .assayThermalWaitExpiry tile => Sys2Proof.Machine.execAssayThermalWaitExpiry tile s
  | .bandwidthWindowClose key => Sys2Proof.Machine.execBandwidthWindowClose key s
  | .sampleIntervalExpiry engine => Sys2Proof.Machine.execSampleIntervalExpiry engine s
  | .sampleRetire engine r => Sys2Proof.Machine.execSampleRetire engine r s
  | .feedInRange feedB mv => Sys2Proof.Machine.execFeedInRange feedB mv s
  | .refclkReturn refB => Sys2Proof.Machine.execRefclkReturn refB s
  | .cxlLinkUp cxl => Sys2Proof.Machine.execCxlLinkUp cxl s
  | .uplinkDrainEnd sub => Sys2Proof.Machine.execUplinkDrainEnd sub s
  | .entropyHealthRestored => Sys2Proof.Machine.execEntropyHealthRestored s
  | .msiXEnable => Sys2Proof.Machine.execMsiXEnable s

end Sys2Proof.Machine
end

