-- ==== Sys2Proof/WellFormed.lean ====
section
/-!
DEFINITION. Well-formedness of the commands: an operand lies in the range its encoding or its handle admits on the largest
variant (Table 0-4), and a packet's opcode is the one its row names. Smaller variants are checked by the meanings.
-/

namespace Sys2Proof

/-- A packet as a sender can write it: a channel 1-63, an area of 4,096 bytes, a trailer of 0 or 16 bytes. -/
def Packet.wf (p : Packet) : Bool :=
  1 ≤ p.chan && p.chan < 64 && p.op < 65536 && p.plen < 65536 && p.sendLen < 65536 && p.params.length ≤ 3808
    && (p.trailer.length = 0 || p.trailer.length = 16)

/-- An image stage: its number as four bits hold it, a size of 32 bits (R69, R74). -/
def BootImage.wf (i : BootImage) : Bool := i.stage < 16 && i.size < 2 ^ 32

/-- An ingress as the extractors read it (Table 10-2). -/
def Ingress.wf (i : Ingress) : Bool :=
  i.pipe < 2 && i.handle < 256 && i.gem < 65536 && i.tid < 16384 && i.aid < 65536

/-- A change of an entry: key of 32 bytes, action of 24 (R260). -/
def TableUpdate.wf (u : TableUpdate) : Bool :=
  u.table < 64 && u.key.length = 32 && u.act.length = 24 && u.okind < 4 && u.tileFrom < 8

/-- A frame for a queue: requester port, colour and owner count (R288, R290, R294). -/
def EnqueueReq.wf (q : EnqueueReq) : Bool := q.port < 16 && q.src < 8 && q.color < 3 && q.sdom < 256 && 1 ≤ q.count && q.count < 16

/-- A frame of an uplink sub-port. -/
def UplinkFrame.wf (f : UplinkFrame) : Bool := f.sub < 64 && f.src < 2 ^ 48 && f.etherType < 65536 && f.an < 4

/-- A system message header (Table 16-1). -/
def SysHdr.wf (m : SysHdr) : Bool := m.port < 4 && m.src < 65536 && m.dst < 65536 && m.hops < 256 && m.root < 65536

/-- The stages of a host load. -/
def HostLoad.wf (l : HostLoad) : Bool := l.images.all BootImage.wf

/-- A discrete input (R58). -/
def StuckInput.wf (p : StuckInput) : Bool := p.input < 6

/-- A direction of a lane (R86). -/
def LaneSide.wf (s : LaneSide) : Bool := s.lane < 10

/-- A PLOAM message of a channel. -/
def PloamAt.wf (p : PloamAt) : Bool := p.ch < 256

/-- A key fragment (R334). -/
def KeyMsg.wf (k : KeyMsg) : Bool := k.slot < 2 && k.frag < k.frags

/-- A SAToP packet (R158). -/
def SatopPacket.wf (s : SatopPacket) : Bool := s.seq < 65536 && s.psn < 4

/-- A PTP frame (R126). -/
def PtpFrame.wf (f : PtpFrame) : Bool := f.domain < 256

/-- A broadcast body (Table 16-2). -/
def BroadcastBody.wf (b : BroadcastBody) : Bool := 1 ≤ b.kind && b.kind ≤ 3

/-- Well-formedness of a command. -/
def Instr.wf : Instr → Bool
  | .cmdSysInfo p => p.wf && p.op = 0x0101
  | .cmdSysSender p => p.wf && p.op = 0x0102
  | .cmdSysRemote p => p.wf && p.op = 0x0103
  | .cmdSysWarmReset p => p.wf && p.op = 0x0104
  | .cmdSysTileReset p => p.wf && p.op = 0x0105
  | .cmdSysFuncReset p => p.wf && p.op = 0x0106
  | .cmdSysCounter p => p.wf && p.op = 0x0107
  | .cmdSysEcho p => p.wf && p.op = 0x0108
  | .cmdSysUplink p => p.wf && p.op = 0x0109
  | .cmdTreeEnable p => p.wf && p.op = 0x0201
  | .cmdTreeDisable p => p.wf && p.op = 0x0202
  | .cmdChanEnable p => p.wf && p.op = 0x0203
  | .cmdChanDisable p => p.wf && p.op = 0x0204
  | .cmdChanConfig p => p.wf && p.op = 0x0205
  | .cmdCircuitCreate p => p.wf && p.op = 0x0210
  | .cmdCircuitDelete p => p.wf && p.op = 0x0211
  | .cmdOmciSend p => p.wf && p.op = 0x0220
  | .cmdPmRead p => p.wf && p.op = 0x0230
  | .cmdPmConfig p => p.wf && p.op = 0x0231
  | .cmdTermCreate p => p.wf && p.op = 0x0301
  | .cmdTermDelete p => p.wf && p.op = 0x0302
  | .cmdTermMap p => p.wf && p.op = 0x0303
  | .cmdRngChanConfig p => p.wf && p.op = 0x0304
  | .cmdTermRerange p => p.wf && p.op = 0x0305
  | .cmdTermPower p => p.wf && p.op = 0x0306
  | .cmdTermTxctrl p => p.wf && p.op = 0x0307
  | .cmdTermStatus p => p.wf && p.op = 0x0308
  | .cmdAllocCreate p => p.wf && p.op = 0x0401
  | .cmdAllocModify p => p.wf && p.op = 0x0402
  | .cmdAllocDelete p => p.wf && p.op = 0x0403
  | .cmdAllocStatus p => p.wf && p.op = 0x0404
  | .cmdDomConfig p => p.wf && p.op = 0x0405
  | .cmdTdomConfig p => p.wf && p.op = 0x0406
  | .cmdGsStatus p => p.wf && p.op = 0x0407
  | .cmdFmRoute p => p.wf && p.op = 0x0501
  | .cmdFmCell p => p.wf && p.op = 0x0502
  | .cmdFmProfile p => p.wf && p.op = 0x0503
  | .cmdFmTrainBind p => p.wf && p.op = 0x0504
  | .cmdFmTrainClear p => p.wf && p.op = 0x0505
  | .cmdFmPosition p => p.wf && p.op = 0x0506
  | .cmdFmEvent p => p.wf && p.op = 0x0507
  | .cmdFmSource p => p.wf && p.op = 0x0508
  | .cmdFmStatus p => p.wf && p.op = 0x0509
  | .cmdTableInsert p => p.wf && p.op = 0x0601
  | .cmdTableDelete p => p.wf && p.op = 0x0602
  | .cmdTableLookup p => p.wf && p.op = 0x0603
  | .cmdTableSearch p => p.wf && p.op = 0x0604
  | .cmdTableNext p => p.wf && p.op = 0x0605
  | .cmdTableFlushPort p => p.wf && p.op = 0x0606
  | .cmdTableConfig p => p.wf && p.op = 0x0607
  | .cmdTableStatus p => p.wf && p.op = 0x0608
  | .cmdKeyProfile p => p.wf && p.op = 0x0609
  | .cmdLookupList p => p.wf && p.op = 0x060A
  | .cmdSpreadGroup p => p.wf && p.op = 0x060B
  | .cmdMirrorSession p => p.wf && p.op = 0x060C
  | .cmdClsPort p => p.wf && p.op = 0x060D
  | .cmdQueueCreate p => p.wf && p.op = 0x0701
  | .cmdQueueModify p => p.wf && p.op = 0x0702
  | .cmdQueueDelete p => p.wf && p.op = 0x0703
  | .cmdNodeConfig p => p.wf && p.op = 0x0704
  | .cmdShaperSet p => p.wf && p.op = 0x0705
  | .cmdMeterSet p => p.wf && p.op = 0x0706
  | .cmdGateSet p => p.wf && p.op = 0x0707
  | .cmdQueueInject p => p.wf && p.op = 0x0708
  | .cmdQmStatus p => p.wf && p.op = 0x0709
  | .cmdMsecSecy p => p.wf && p.op = 0x0801
  | .cmdMsecSc p => p.wf && p.op = 0x0802
  | .cmdMsecMka p => p.wf && p.op = 0x0803
  | .cmdMsecSaInstall p => p.wf && p.op = 0x0804
  | .cmdMsecSaDisable p => p.wf && p.op = 0x0805
  | .cmdMsecTxSwitch p => p.wf && p.op = 0x0806
  | .cmdMsecTransit p => p.wf && p.op = 0x0807
  | .cmdMsecBypass p => p.wf && p.op = 0x0808
  | .cmdMsecStatus p => p.wf && p.op = 0x0809
  | .cmdPonMsk p => p.wf && p.op = 0x0811
  | .cmdPonKeyCfg p => p.wf && p.op = 0x0812
  | .cmdPonKeyRoll p => p.wf && p.op = 0x0813
  | .cmdPonKeyStatus p => p.wf && p.op = 0x0814
  | .cmdCruInfo p => p.wf && p.op = 0x0901
  | .cmdCruChallenge p => p.wf && p.op = 0x0902
  | .cmdCruLifecycle p => p.wf && p.op = 0x0903
  | .cmdCruSlotWrite p => p.wf && p.op = 0x0904
  | .cmdCruSlotErase p => p.wf && p.op = 0x0905
  | .cmdCruSlotStatus p => p.wf && p.op = 0x0906
  | .cmdCruFwStage p => p.wf && p.op = 0x0907
  | .cmdCruFwActivate p => p.wf && p.op = 0x0908
  | .cmdTimePtpPort p => p.wf && p.op = 0x0A01
  | .cmdTimePhyLatency p => p.wf && p.op = 0x0A02
  | .cmdTimeTod p => p.wf && p.op = 0x0A03
  | .cmdTimeStep p => p.wf && p.op = 0x0A04
  | .cmdTimeStatus p => p.wf && p.op = 0x0A05
  | .cmdJoinConfig p => p.wf && p.op = 0x0B01
  | .cmdJoinStatus p => p.wf && p.op = 0x0B02
  | .cmdJoinBarrier p => p.wf && p.op = 0x0B03
  | .cmdJoinSnapshot p => p.wf && p.op = 0x0B04
  | .cmdJoinBroadcast p => p.wf && p.op = 0x0B05
  | .cmdJoinGroupReset p => p.wf && p.op = 0x0B06
  | .cmdProtGroup p => p.wf && p.op = 0x0C01
  | .cmdProtForce p => p.wf && p.op = 0x0C02
  | .cmdProtStatus p => p.wf && p.op = 0x0C03
  | .cmdFltAck p => p.wf && p.op = 0x0D01
  | .cmdFltQuenchRelease p => p.wf && p.op = 0x0D02
  | .cmdFltConfig p => p.wf && p.op = 0x0D03
  | .cmdFltLog p => p.wf && p.op = 0x0D04
  | .cmdAssayStart p => p.wf && p.op = 0x0E01
  | .cmdAssayConfig p => p.wf && p.op = 0x0E02
  | .cmdAssayResult p => p.wf && p.op = 0x0E03
  | .cmdCntRead p => p.wf && p.op = 0x0F01
  | .cmdCntWrite p => p.wf && p.op = 0x0F02
  | .cmdCntThreshold p => p.wf && p.op = 0x0F03
  | .cmdCntWindow p => p.wf && p.op = 0x0F04
  | .cmdCntSample p => p.wf && p.op = 0x0F05
  | .fragmentRx p => p.wf
  | .fragmentTimeout ch => ch < 64
  | .tileForwardTimeout p => p.wf
  | .tileForwardDone p => p.wf
  | .authRefusalEnd ch => ch < 64
  | .mbxSendWrite p => p.wf
  | .mbxTakeRead ch => ch < 64
  | .inbandMessageRx sub vlan mac p => sub < 64 && vlan < 4096 && mac < 281474976710656 && p.wf
  | .mbxDeliveryTimeout ch => ch < 64
  | .lckLockRead lock master => lock < 256 && master < 65536
  | .lckLockWrite lock master _ => lock < 256 && master < 65536
  | .lckBreakWrite als _ => als < 16
  | .dmaTransferDone => true
  | .dmaHostReadTimeout desc => desc < 4294967296
  | .dmaHostError desc => desc < 4294967296
  | .cxlLinkDown => true
  | .memWriteDrop addr _ => addr < 1099511627776
  | .readStatus start n => start + n ≤ 64
  | .readId => true
  | .resetReq _ _ => true
  | .bmsUnknownCommand _ => true
  | .regWrite addr width _ => addr < 1099511627776 && width < 9
  | .timeRawLoRead => true
  | .timeNowFracRead => true
  | .timeStatusRead => true
  | .pwrDiscStatusRead => true
  | .pwrTileTempRead tile => tile < 8
  | .bpmMinFreeRead tile => tile < 8
  | .cntLostRead => true
  | .timeRateWrite _ => true
  | .timeStepGo _ => true
  | .feedModeWrite _ => true
  | .rstBootDescGo _ => true
  | .hostImageLoaded load => load.wf
  | .msecPnWmxLoWrite _ => true
  | .laneSlipWrite tile lane => tile < 8 && lane < 10
  | .laneRetrain tile lane => tile < 8 && lane < 10
  | .insert table _ => table < 64
  | .delete table => table < 64
  | .lookup table => table < 64
  | .readIndex table => table < 64
  | .writeIndex table => table < 64
  | .tacOpDone => true
  | .checkPageGo page _ => page < 16
  | .checkPageAbort page => page < 16
  | .checkChunkDone page => page < 16
  | .feedQualified _ => true
  | .feedUnderVoltage _ mv => mv < 65536
  | .feedOverVoltage _ mv => mv < 65536
  | .feedReversed _ => true
  | .aonDomainDrop => true
  | .railExcursion tile rail _ => tile < 8 && rail < 6
  | .railInRange tile rail => tile < 8 && rail < 6
  | .railRampTimeout tile rail => tile < 8 && rail < 6
  | .tileRampStart tile => tile < 8
  | .thermalSensorRead tile _ => tile < 8
  | .thermalIsolate tile => tile < 8
  | .thermalTrip tile => tile < 8
  | .powerCapExceeded watts => watts < 65536
  | .assayHeadroomStart tile => tile < 8
  | .resetNAssert => true
  | .resetNRelease _ _ => true
  | .extQuenchAssert => true
  | .extQuenchRelease => true
  | .protReqAssert n => n < 4
  | .protReqRelease n => n < 4
  | .discreteShortPulse input => input < 6
  | .stuckTimeout pin => pin.wf
  | .warmResetStart => true
  | .imageStageVerified image => image.wf
  | .meminitDone _ => true
  | .tileImageLoaded tile _ => tile < 8
  | .commandReady => true
  | .tileReset tile => tile < 8
  | .dieLinkTrained a b => a < 8 && b < 8
  | .dieLinkTrainTimeout a b => a < 8 && b < 8
  | .dieLinkLockLoss a b => a < 8 && b < 8
  | .lockstepDisagree tile pair => tile < 8 && pair < 2
  | .watchdogExpiry tile pair => tile < 8 && pair < 2
  | .engineIsolate engine => engine < 256
  | .blockReceived tile lane _ _ => tile < 8 && lane < 10
  | .blockLockAcquired tile lane => tile < 8 && lane < 10
  | .blockLockLost tile lane => tile < 8 && lane < 10
  | .relockTimeout tile lane => tile < 8 && lane < 10
  | .abil tile lane _ => tile < 8 && lane < 10
  | .genStepSwitch tile lane => tile < 8 && lane < 10
  | .genStepConfirm tile lane => tile < 8 && lane < 10
  | .genStepTimeout tile lane => tile < 8 && lane < 10
  | .loop tile lane _ => tile < 8 && lane < 10
  | .lull tile lane _ => tile < 8 && lane < 10
  | .lullEnter tile side => tile < 8 && side.wf
  | .lullWake tile side => tile < 8 && side.wf
  | .fs tile lane _ => tile < 8 && lane < 10
  | .frameSyncLoss tile lane => tile < 8 && lane < 10
  | .sdReport tile lane _ => tile < 8 && lane < 10
  | .phyStatus tile lane _ => tile < 8 && lane < 10
  | .frameBoundary => true
  | .planCommit ch => ch < 256
  | .planCommitDeadline ch => ch < 256
  | .secondBoundary => true
  | .binFinal => true
  | .fastSesInterval => true
  | .channelDrainEnd ch => ch < 256
  | .burstFound ch _ => ch < 256
  | .burstWindowClose ch => ch < 256
  | .burstDecoded ch _ => ch < 256
  | .serialNumberOnu ch serial _ => ch < 256 && serial.length = 8
  | .password tid _ _ => tid < 16384
  | .encryptionKey tid k => tid < 16384 && k.wf
  | .acknowledge tid => tid < 16384
  | .sleepRequest tid _ => tid < 16384
  | .dyingGasp tid => tid < 16384
  | .ploamUnexpected p => p.wf
  | .omciFrameRx tid _ _ => tid < 16384
  | .circuitContainerRx circuit _ => circuit < 4096
  | .satopPacketRx circuit pkt => circuit < 4096 && pkt.wf
  | .rangingWindowsExhausted tid => tid < 16384
  | .reacquireTimeout tid => tid < 16384
  | .holdOffEnd tid => tid < 16384
  | .discMapPeriodStart ch => ch < 256
  | .discBroadPeriodStart ch => ch < 256
  | .darkPeriodStart ch => ch < 256
  | .darkWindowVoid ch => ch < 256
  | .huntSettleExpiry ch => ch < 256
  | .positionTelegramRx port _ => port < 65536
  | .heldReportRelease trn => trn < 1024
  | .remoteReportRx _ profile => profile < 64
  | .bandPublish => true
  | .trainStale trn => trn < 1024
  | .trainLost trn => trn < 1024
  | .floorHoldEnd trn => trn < 1024
  | .preEngageHoldEnd trn cell => trn < 1024 && cell < 4096
  | .frameClassify i _ => i.wf
  | .secondPass tile pipe => tile < 8 && pipe < 2
  | .learnApply tile => tile < 8
  | .tableUpdateRx tile u => tile < 8 && u.wf
  | .ageingSweep table => table < 64
  | .cursorTimeout cursor => cursor < 16
  | .flushPortDone => true
  | .subportDown sub => sub < 64
  | .subportUp sub => sub < 64
  | .frameEnqueue q => q.wf
  | .frameRelease tile _ party => tile < 8 && party < 16
  | .frameDequeue _ node => node < 1048576
  | .shaperRefill => true
  | .launchTimeReached queue => queue < 131072
  | .gateBoundary sub => sub < 64
  | .uplinkFrameRx f => f.wf
  | .saRetireEnd sa => sa < 8192
  | .pnBoundRaise sa => sa < 8192
  | .rxPnReport sa => sa < 8192
  | .transitVerdict sa queue _ pn _ _ => sa < 8192 && queue < 131072 && pn < 18446744073709551616
  | .mkpduRx secy _ => secy < 4096
  | .mkaHelloTx secy => secy < 4096
  | .mkaPeerExpire secy sci => secy < 4096 && sci < 18446744073709551616
  | .ponRekeyTimer tid => tid < 16384
  | .ponKeyRetry tid => tid < 16384
  | .ponOldKeyZeroise tid => tid < 16384
  | .keyLoadAck slot _ => slot < 65536
  | .entropyHealthFail => true
  | .challengeExpiry => true
  | .tokenLockoutEnd => true
  | .refclkLoss _ => true
  | .refclkDisagree ppm => ppm < 1000000
  | .refclkHoldoverExpiry => true
  | .ppsInEdge => true
  | .ppsSourceLoss => true
  | .ptpFrameRx sub f => sub < 64 && f.wf
  | .ptpMessageTx sub _ => sub < 64
  | .ptpSourceTimeout sub => sub < 64
  | .servoLocked => true
  | .holdoverAlarm => true
  | .tileTimeCheck tile _ => tile < 8
  | .tileTimeIsolate tile => tile < 8
  | .hello m _ => m.wf
  | .helloTx port => port < 4
  | .helloMiss port => port < 4
  | .delayReq m _ => m.wf
  | .delayResp m _ _ _ => m.wf
  | .delayMeasureTick port => port < 4
  | .attach m => m.wf
  | .attachAck m => m.wf
  | .detach m => m.wf
  | .regionRootTimeout => true
  | .time m _ => m.wf
  | .timeMsgTx port => port < 4
  | .opTime m tOp members => m.wf && tOp < 4294967296 && members < 65536
  | .broadcast m b => m.wf && b.wf
  | .positionBatchFlush => true
  | .barrierArrive m _ => m.wf
  | .barrierRelease m _ => m.wf
  | .barrierExecute n => n < 64
  | .barrierAbort m n status => m.wf && n < 64 && status < 65536
  | .barrierTimeout n => n < 64
  | .snapshotReq m id _ => m.wf && id < 4294967296
  | .snapshotInstant id => id < 4294967296
  | .snapshotWriteDone => true
  | .snapshotDone m id => m.wf && id < 4294967296
  | .snapshotTimeout id => id < 4294967296
  | .groupReset m group _ => m.wf && group < 65536
  | .groupResetInstant group => group < 65536
  | .groupResetDone m group => m.wf && group < 65536
  | .command m p => m.wf && p.wf
  | .reply m _ => m.wf
  | .leaseRenewTick tree => tree < 64
  | .renew tree _ _ => tree < 64
  | .release tree _ _ => tree < 64
  | .handover tree _ _ => tree < 64
  | .digest tree _ _ _ _ => tree < 64
  | .digestCompareGap tree k frame => tree < 64 && k < 3 && frame < 281474976710656
  | .sync tree _ _ => tree < 64
  | .leaseFailureTimeout tree => tree < 64
  | .quietPeriodExpiry seq => seq < 4294967296
  | .assayScanDone tile patterns _ _ reason => tile < 8 && patterns < 4294967296 && reason < 256
  | .assayThermalWaitExpiry tile => tile < 8
  | .bandwidthWindowClose key => key < 1048576
  | .sampleIntervalExpiry engine => engine < 256
  | .sampleRetire engine _ => engine < 256
  | .feedInRange _ mv => mv < 65536
  | .refclkReturn _ => true
  | .cxlLinkUp _ => true
  | .uplinkDrainEnd sub => sub < 64
  | .entropyHealthRestored => true
  | .msiXEnable => true

end Sys2Proof
end

