-- ==== Sys2Proof/Safety.lean ====
section
/-!
DEFINITION. The terms the claims use: what a command leaves (Becomes, Leaves), a fault recorded and a notification raised, when a packet passes
every check before its body (passes) and the device in which its body then runs (devIn), and what counts as a safe state.
-/

namespace Sys2Proof.Machine

/-! ## Outcomes -/

/-- A command run on a device answers a next state: that device becomes another, whatever waits in the queue, which stays as it was. -/
def Becomes (i : Instr) (d e : Dev) : Prop := ∀ q : List Instr, exec i { dev := d, pending := q } = .next { dev := e, pending := q }

/-- A command run on a device answers a next state whose device has a property, and leaves the queue as it was. -/
def Leaves (i : Instr) (d : Dev) (P : Dev → Prop) : Prop := ∃ e : Dev, Becomes i d e ∧ P e

/-- The newest fault record is of an event, tile and instance (Table 18-2). -/
def Raised (e : Dev) (block event tile inst : Nat) : Prop :=
  e.flt.ring.head?.any (fun r => r.block = block && r.event = event && r.tile = tile && r.inst = inst % 2 ^ 32) = true

/-! ## Frames -/

/-- Everything but outputs, the host attachment, counters and message sequences is as it was: what counting, an interrupt or a message can change. -/
def Talks (d e : Dev) : Prop :=
  e = { d with out := e.out, host := e.host, cnt := e.cnt, join := { d.join with seqs := e.join.seqs } }

/-- Everything but those, the fault collector, the protection groups and the package power state, which an F4 leaves, is as it was: what
recording a fault can change. -/
def Raises (d e : Dev) : Prop :=
  e = { d with
    out := e.out
    host := e.host
    cnt := e.cnt
    flt := e.flt
    groups := e.groups
    pwr := { d.pwr with pstate := e.pwr.pstate }
    join := { d.join with seqs := e.join.seqs } }

/-! ## The path of a packet up to its body (R396, R389) -/

/-- A row's packet: its opcode is the row's. -/
def rowPacket (sp : CmdSpec) (p : Packet) : Packet := { p with op := sp.op }

/-- The device once a request is placed, taken and counted. -/
def Dev.takenBy (q : Packet) (d : Dev) : Dev := ((d.place q).clearSend q.chan).count .cmdTaken q.chan

/-- The command as it is taken. -/
def Dev.takenCmd (q : Packet) (d : Dev) : Cmd := { p := q, params := q.body, snd := (Dev.takenBy q d).sender q.chan }

/-- The command that a body sees, and the device in which it runs: the request is taken and counted, and a critical packet has its counter
persisted. -/
def Dev.entryOf (q : Packet) (d : Dev) : Cmd × Dev :=
  let v := (Dev.takenBy q d).verify (Dev.takenCmd q d)
  if q.crit then ({ Dev.takenCmd q d with trailed := true, key := v.2.2.1 }, v.2.2.2.persist q.chan q.counter.toNat)
  else (Dev.takenCmd q d, Dev.takenBy q d)

/-- Whether a whole packet, not a fragment, with bulk data or without, is taken at once and passes R396 and steps 1 to 3 of R389 as a packet
of an opcode: its channel is free and has room for the reply, its form and length are right, a critical one verifies with a fresh counter. -/
def Dev.entersAs (sp : CmdSpec) (bulk : Bool) (q : Packet) (d : Dev) : Bool :=
  d.ready && 1 ≤ q.chan && q.chan < 64 && (32 ≤ q.chan || d.host.linkUp) && (d.mbox q.chan).send.isNone && (d.mbox q.chan).asm.isNone
    && d.undelivered q.chan < 16 && (formStatus q (some sp)).1 = stOk && !q.more && q.bulkFlag = bulk && (if bulk then 16 ≤ q.plen else sp.lenOk q q.body)
    && (!q.crit || (((Dev.takenBy q d).verify (Dev.takenCmd q d)).1 = stOk && ((Dev.takenBy q d).sender q.chan).consumed < q.counter.toNat))

/-- The same, and its sender is permitted (step 4). -/
def Dev.passesAs (sp : CmdSpec) (bulk : Bool) (q : Packet) (d : Dev) : Bool :=
  Dev.entersAs sp bulk q d && ((Dev.entryOf q d).2.unpermitted sp (Dev.entryOf q d).1).isNone

/-- The same of a row's packet without bulk data, and of one with it. -/
def Dev.passes (sp : CmdSpec) (p : Packet) (d : Dev) : Bool := Dev.passesAs sp false (rowPacket sp p) d
def Dev.passesBulk (sp : CmdSpec) (p : Packet) (d : Dev) : Bool := Dev.passesAs sp true (rowPacket sp p) d

/-- The command of a row's body. -/
def Dev.cmdIn (sp : CmdSpec) (p : Packet) (d : Dev) : Cmd := (Dev.entryOf (rowPacket sp p) d).1

/-- The device of a row's body. -/
def Dev.devIn (sp : CmdSpec) (p : Packet) (d : Dev) : Dev := (Dev.entryOf (rowPacket sp p) d).2

/-- Joined parameters of the assembly that a channel's fragment continues, and its last counter. -/
def Dev.joinedSoFar (q : Packet) (d : Dev) : List Byte := ((d.mbox q.chan).asm.map (fun a => a.params)).getD []
def Dev.lastCounter (q : Packet) (d : Dev) : Nat := ((d.mbox q.chan).asm.map (fun a => a.lastCtr)).getD 0

/-- Whether a fragment is taken and accepted (R398): its channel is free, its form is right, it is the first or continues the channel's
assembly as one of at most 16, the last one completes the opcode's length, and a critical one verifies with a counter above every earlier one. -/
def Dev.passesFragment (sp : CmdSpec) (q : Packet) (d : Dev) : Bool :=
  d.ready && 1 ≤ q.chan && q.chan < 64 && (32 ≤ q.chan || d.host.linkUp) && (d.mbox q.chan).send.isNone && d.undelivered q.chan < 16
    && (formStatus q (some sp)).1 = stOk && (d.mbox q.chan).asm.all (fun a => a.sameAs q && a.count < 16)
    && (q.more || (d.mbox q.chan).asm.isSome && sp.lenOk q (Dev.joinedSoFar q d ++ q.body))
    && (!q.crit || (((Dev.takenBy q d).verify (Dev.takenCmd q d)).1 = stOk
      && max ((Dev.takenBy q d).sender q.chan).consumed (Dev.lastCounter q d) < q.counter.toNat))

/-- The device once a fragment is taken and verified. -/
def Dev.fragmentDev (q : Packet) (d : Dev) : Dev := if q.crit then ((Dev.takenBy q d).verify (Dev.takenCmd q d)).2.2.2 else Dev.takenBy q d

/-- The assembly with one fragment more. -/
def Dev.fragmentJoined (q : Packet) (d : Dev) : Assembly :=
  { ((d.mbox q.chan).asm.getD { op := q.op, tag := q.tag.toNat, target := q.target.toNat, crit := q.crit }) with
    params := Dev.joinedSoFar q d ++ q.body, count := ((d.mbox q.chan).asm.map (fun a => a.count)).getD 0 + 1
    lastCtr := if q.crit then q.counter.toNat else 0, flags := q.flags
    key := if q.crit then ((Dev.takenBy q d).verify (Dev.takenCmd q d)).2.2.1 else [], atT := (Dev.fragmentDev q d).now }

/-- The command that the last fragment completes, and the device in which it is executed: the assembly is gone, the counter persisted. -/
def Dev.wholeCmd (q : Packet) (d : Dev) : Cmd :=
  { Dev.takenCmd q d with
    params := Dev.joinedSoFar q d ++ q.body, trailed := q.crit, key := if q.crit then ((Dev.takenBy q d).verify (Dev.takenCmd q d)).2.2.1 else [] }
def Dev.wholeDev (q : Packet) (d : Dev) : Dev :=
  let e := (Dev.fragmentDev q d).updMbox q.chan (fun m => { m with asm := none })
  if q.crit then e.persist q.chan q.counter.toNat else e

/-- The device once a transfer for a command has begun. -/
def Dev.withBulk (d : Dev) (c : Cmd) : Dev :=
  { d with host := { d.host with
      bulk := some { job := { c.p with params := c.params, plen := c.params.length }, chan := c.p.chan, trailed := c.trailed, key := c.key, caps := c.snd.caps, doms := c.snd.doms } } }

/-- The result of a row that carries a packet: where the packet passes and a condition on the command and the device of its body holds, the
device becomes what `post` says, with a reply of a status whose body is `body`. -/
def Replies (i : Packet → Instr) (sp : CmdSpec) (st : Nat) (pre : Cmd → Dev → Prop) (post : Cmd → Dev → Dev) (body : Cmd → Dev → List Byte) : Prop :=
  ∀ (p : Packet) (d : Dev), Dev.passes sp p d = true → pre (Dev.cmdIn sp p d) (Dev.devIn sp p d) →
    Becomes (i p) d ((post (Dev.cmdIn sp p d) (Dev.devIn sp p d)).answer (Dev.cmdIn sp p d) st 0xFFFF 0 (body (Dev.cmdIn sp p d) (Dev.devIn sp p d)))

/-- The same for a command whose result, with a count of records applied, is given whole. -/
def Runs (i : Packet → Instr) (sp : CmdSpec) (pre : Cmd → Dev → Prop) (res : Cmd → Dev → Res) : Prop :=
  ∀ (p : Packet) (d : Dev), Dev.passes sp p d = true → pre (Dev.cmdIn sp p d) (Dev.devIn sp p d) →
    let r := res (Dev.cmdIn sp p d) (Dev.devIn sp p d)
    Becomes (i p) d (r.dev.answer (Dev.cmdIn sp p d) r.st r.ofs r.applied r.body)

/-- The same for a command that succeeds at once. -/
def Answers (i : Packet → Instr) (sp : CmdSpec) (pre : Cmd → Dev → Prop) (post : Cmd → Dev → Dev) (body : Cmd → Dev → List Byte) : Prop :=
  Replies i sp stOk pre post body

/-- The same, with a property of the device in which the reply is sent. -/
def AnswersWith (i : Packet → Instr) (sp : CmdSpec) (pre : Cmd → Dev → Prop) (P : Cmd → Dev → Dev → Prop) (body : Cmd → Dev → List Byte) : Prop :=
  ∀ (p : Packet) (d : Dev), Dev.passes sp p d = true → pre (Dev.cmdIn sp p d) (Dev.devIn sp p d) →
    ∃ e : Dev, P (Dev.cmdIn sp p d) (Dev.devIn sp p d) e ∧
      Becomes (i p) d (e.answer (Dev.cmdIn sp p d) stOk 0xFFFF 0 (body (Dev.cmdIn sp p d) (Dev.devIn sp p d)))

/-- The same for a command whose action begins once the reply is in its receive area. -/
def AnswersThen (i : Packet → Instr) (sp : CmdSpec) (pre : Cmd → Dev → Prop) (post : Cmd → Dev → Dev) (after : Cmd → Dev → Dev → Dev) : Prop :=
  ∀ (p : Packet) (d : Dev), Dev.passes sp p d = true → pre (Dev.cmdIn sp p d) (Dev.devIn sp p d) →
    Becomes (i p) d (after (Dev.cmdIn sp p d) (Dev.devIn sp p d)
      ((post (Dev.cmdIn sp p d) (Dev.devIn sp p d)).answer (Dev.cmdIn sp p d) stOk 0xFFFF 0 []))

/-- A row whose command carries its data in host memory: where the packet passes, no transfer is under way and the descriptors are right
(R378), the transfer is started and the reply waits for its end. -/
def Transfers (i : Packet → Instr) (sp : CmdSpec) : Prop :=
  ∀ (p : Packet) (d : Dev), Dev.passesBulk sp p d = true → (Dev.devIn sp p d).host.bulk = none →
    (bulkDescs p.bulk (Dev.cmdIn sp p d).params).isSome = true → Becomes (i p) d ((Dev.devIn sp p d).withBulk (Dev.cmdIn sp p d))

/-- A command registered for its completion (R397). -/
def Dev.withJob (d : Dev) (c : Cmd) (k : JobKind) (obj : Nat) : Dev :=
  { d with host := { d.host with
      jobs := d.host.jobs ++ [{ id := d.host.jobNo, chan := c.p.chan, pkt := c.p, trailed := c.trailed, key := c.key, kind := k, obj := obj }]
      jobNo := d.host.jobNo + 1 } }

/-- The same for a command whose completion follows: fewer than 64 of its channel await one, and it is registered for an object. -/
def Starts (i : Packet → Instr) (sp : CmdSpec) (st : Nat) (pre : Cmd → Dev → Prop) (post : Cmd → Dev → Dev) (k : JobKind) (obj : Cmd → Dev → Nat) : Prop :=
  Replies i sp st (fun c d => d.awaiting c.p.chan < 64 ∧ pre c d) (fun c d => (post c d).withJob c k (obj c d)) (fun _ _ => [])

/-- The same for a command whose action begins once its reply is in its receive area. -/
def StartsThen (i : Packet → Instr) (sp : CmdSpec) (st : Nat) (pre : Cmd → Dev → Prop) (post : Cmd → Dev → Dev) (k : JobKind) (obj : Cmd → Dev → Nat)
    (after : Cmd → Dev → Dev → Dev) : Prop :=
  ∀ (p : Packet) (d : Dev), Dev.passes sp p d = true → (Dev.devIn sp p d).awaiting (Dev.cmdIn sp p d).p.chan < 64 → pre (Dev.cmdIn sp p d) (Dev.devIn sp p d) →
    Becomes (i p) d (after (Dev.cmdIn sp p d) (Dev.devIn sp p d)
      (((post (Dev.cmdIn sp p d) (Dev.devIn sp p d)).withJob (Dev.cmdIn sp p d) k (obj (Dev.cmdIn sp p d) (Dev.devIn sp p d))).answer
        (Dev.cmdIn sp p d) st 0xFFFF 0 []))

/-! ## The rows that carry a command packet (R399), and the authority of a packet (R387 to R393) -/

/-- Rows of class 0x01. -/
def rowsSystem : List ((Packet → Instr) × CmdSpec) :=
  [(.cmdSysInfo, specSysInfo), (.cmdSysSender, specSysSender), (.cmdSysRemote, specSysRemote), (.cmdSysWarmReset, specSysWarmReset),
   (.cmdSysTileReset, specSysTileReset), (.cmdSysFuncReset, specSysFuncReset), (.cmdSysCounter, specSysCounter),
   (.cmdSysEcho, specSysEcho), (.cmdSysUplink, specSysUplink)]

/-- Rows of class 0x02. -/
def rowsTree : List ((Packet → Instr) × CmdSpec) :=
  [(.cmdTreeEnable, specTreeEnable), (.cmdTreeDisable, specTreeDisable), (.cmdChanEnable, specChanEnable),
   (.cmdChanDisable, specChanDisable), (.cmdChanConfig, specChanConfig), (.cmdCircuitCreate, specCircuitCreate),
   (.cmdCircuitDelete, specCircuitDelete), (.cmdOmciSend, specOmciSend), (.cmdPmRead, specPmRead), (.cmdPmConfig, specPmConfig)]

/-- Rows of class 0x03. -/
def rowsTerminal : List ((Packet → Instr) × CmdSpec) :=
  [(.cmdTermCreate, specTermCreate), (.cmdTermDelete, specTermDelete), (.cmdTermMap, specTermMap), (.cmdRngChanConfig, specRngChanConfig),
   (.cmdTermRerange, specTermRerange), (.cmdTermPower, specTermPower), (.cmdTermTxctrl, specTermTxctrl), (.cmdTermStatus, specTermStatus)]

/-- Rows of class 0x04. -/
def rowsGrant : List ((Packet → Instr) × CmdSpec) :=
  [(.cmdAllocCreate, specAllocCreate), (.cmdAllocModify, specAllocModify), (.cmdAllocDelete, specAllocDelete),
   (.cmdAllocStatus, specAllocStatus), (.cmdDomConfig, specDomConfig), (.cmdTdomConfig, specTdomConfig), (.cmdGsStatus, specGsStatus)]

/-- Rows of class 0x05. -/
def rowsFollowMe : List ((Packet → Instr) × CmdSpec) :=
  [(.cmdFmRoute, specFmRoute), (.cmdFmCell, specFmCell), (.cmdFmProfile, specFmProfile), (.cmdFmTrainBind, specFmTrainBind),
   (.cmdFmTrainClear, specFmTrainClear), (.cmdFmPosition, specFmPosition), (.cmdFmEvent, specFmEvent), (.cmdFmSource, specFmSource),
   (.cmdFmStatus, specFmStatus)]

/-- Rows of class 0x06. -/
def rowsTable : List ((Packet → Instr) × CmdSpec) :=
  [(.cmdTableInsert, specTableInsert), (.cmdTableDelete, specTableDelete), (.cmdTableLookup, specTableLookup),
   (.cmdTableSearch, specTableSearch), (.cmdTableNext, specTableNext), (.cmdTableFlushPort, specTableFlushPort),
   (.cmdTableConfig, specTableConfig), (.cmdTableStatus, specTableStatus), (.cmdKeyProfile, specKeyProfile),
   (.cmdLookupList, specLookupList), (.cmdSpreadGroup, specSpreadGroup), (.cmdMirrorSession, specMirrorSession), (.cmdClsPort, specClsPort)]

/-- Rows of class 0x07. -/
def rowsQueue : List ((Packet → Instr) × CmdSpec) :=
  [(.cmdQueueCreate, specQueueCreate), (.cmdQueueModify, specQueueModify), (.cmdQueueDelete, specQueueDelete),
   (.cmdNodeConfig, specNodeConfig), (.cmdShaperSet, specShaperSet), (.cmdMeterSet, specMeterSet), (.cmdGateSet, specGateSet),
   (.cmdQueueInject, specQueueInject), (.cmdQmStatus, specQmStatus)]

/-- Rows of class 0x08. -/
def rowsCipher : List ((Packet → Instr) × CmdSpec) :=
  [(.cmdMsecSecy, specMsecSecy), (.cmdMsecSc, specMsecSc), (.cmdMsecMka, specMsecMka), (.cmdMsecSaInstall, specMsecSaInstall),
   (.cmdMsecSaDisable, specMsecSaDisable), (.cmdMsecTxSwitch, specMsecTxSwitch), (.cmdMsecTransit, specMsecTransit),
   (.cmdMsecBypass, specMsecBypass), (.cmdMsecStatus, specMsecStatus), (.cmdPonMsk, specPonMsk), (.cmdPonKeyCfg, specPonKeyCfg),
   (.cmdPonKeyRoll, specPonKeyRoll), (.cmdPonKeyStatus, specPonKeyStatus)]

/-- Rows of class 0x09. -/
def rowsCrucible : List ((Packet → Instr) × CmdSpec) :=
  [(.cmdCruInfo, specCruInfo), (.cmdCruChallenge, specCruChallenge), (.cmdCruLifecycle, specCruLifecycle),
   (.cmdCruSlotWrite, specCruSlotWrite), (.cmdCruSlotErase, specCruSlotErase), (.cmdCruSlotStatus, specCruSlotStatus),
   (.cmdCruFwStage, specCruFwStage), (.cmdCruFwActivate, specCruFwActivate)]

/-- Rows of class 0x0A. -/
def rowsTime : List ((Packet → Instr) × CmdSpec) :=
  [(.cmdTimePtpPort, specTimePtpPort), (.cmdTimePhyLatency, specTimePhyLatency), (.cmdTimeTod, specTimeTod), (.cmdTimeStep, specTimeStep),
   (.cmdTimeStatus, specTimeStatus)]

/-- Rows of class 0x0B. -/
def rowsJoin : List ((Packet → Instr) × CmdSpec) :=
  [(.cmdJoinConfig, specJoinConfig), (.cmdJoinStatus, specJoinStatus), (.cmdJoinBarrier, specJoinBarrier),
   (.cmdJoinSnapshot, specJoinSnapshot), (.cmdJoinBroadcast, specJoinBroadcast), (.cmdJoinGroupReset, specJoinGroupReset)]

/-- Rows of class 0x0C. -/
def rowsProt : List ((Packet → Instr) × CmdSpec) :=
  [(.cmdProtGroup, specProtGroup), (.cmdProtForce, specProtForce), (.cmdProtStatus, specProtStatus)]

/-- Rows of class 0x0D. -/
def rowsFault : List ((Packet → Instr) × CmdSpec) :=
  [(.cmdFltAck, specFltAck), (.cmdFltQuenchRelease, specFltQuenchRelease), (.cmdFltConfig, specFltConfig), (.cmdFltLog, specFltLog)]

/-- Rows of class 0x0E. -/
def rowsAssay : List ((Packet → Instr) × CmdSpec) :=
  [(.cmdAssayStart, specAssayStart), (.cmdAssayConfig, specAssayConfig), (.cmdAssayResult, specAssayResult)]

/-- Rows of class 0x0F. -/
def rowsCounter : List ((Packet → Instr) × CmdSpec) :=
  [(.cmdCntRead, specCntRead), (.cmdCntWrite, specCntWrite), (.cmdCntThreshold, specCntThreshold), (.cmdCntWindow, specCntWindow),
   (.cmdCntSample, specCntSample)]

/-- Every row of the opcode table that carries a command packet, with its opcode, by class (Table 15-7). -/
def commandRows : List ((Packet → Instr) × CmdSpec) :=
  rowsSystem ++ rowsTree ++ rowsTerminal ++ rowsGrant ++ rowsFollowMe ++ rowsTable ++ rowsQueue ++ rowsCipher
    ++ rowsCrucible ++ rowsTime ++ rowsJoin ++ rowsProt ++ rowsFault ++ rowsAssay ++ rowsCounter

/-- A packet's channel is free and its sender reached, so that it is placed and taken at once (R369, R371). -/
def Dev.takes (d : Dev) (q : Packet) : Bool :=
  d.ready && 1 ≤ q.chan && q.chan < 64 && (32 ≤ q.chan || d.host.linkUp) && (d.mbox q.chan).send.isNone && d.undelivered q.chan < 16
    && 32 ≤ q.sendLen && q.sendLen ≤ 3840

/-- A packet's trailer is right under the key of its channel (R387). -/
def Dev.signs (d : Dev) (q : Packet) : Bool :=
  match d.trailerKey q.chan with
  | .ok k => q.trailer = cmac k (q.header (d.senderId q.chan) ++ q.body)
  | .error _ => false

/-- The counter of a packet is fresh (R389). -/
def Dev.freshCounter (d : Dev) (q : Packet) : Bool := (d.sender q.chan).consumed < q.counter.toNat

/-- The masks of a packet's channel allow the opcode's class, and package scope where it needs that (R393). -/
def Dev.capable (d : Dev) (sp : CmdSpec) (q : Packet) : Bool :=
  sp.anyone || ((d.sender q.chan).caps.getLsbD (sp.op / 256) && (!sp.pkg || (d.sender q.chan).pkg))

/-- A packet has authority for an opcode: it is critical where the opcode is, a critical one is signed and fresh, and its sender is capable. -/
def Dev.authorised (d : Dev) (sp : CmdSpec) (q : Packet) : Bool :=
  (!sp.crit || q.crit) && (!q.crit || (d.signs q && d.freshCounter q)) && d.capable sp q

/-- The packet's form is right up to its opcode (R396), and no fragments are being joined on its channel. -/
def Dev.wellTaken (d : Dev) (q : Packet) : Bool := d.takes q && (d.mbox q.chan).asm.isNone && q.magic = 0x7A5C#16 && q.version = 1

/-- The device once a packet that is taken is refused with a status that points at an offset, before any of its parameters is used. -/
def Dev.refusedWith (d : Dev) (q : Packet) (st ofs : Nat) : Dev := (Dev.takenBy q d).answer (Dev.takenCmd q d) st ofs 0 []

/-- Sent without the critical flag, a row's packet is refused with ST_AUTH_FAIL and consumes no counter (R388). -/
def NeedsCritical (i : Packet → Instr) (sp : CmdSpec) : Prop :=
  ∀ (p : Packet) (d : Dev), d.wellTaken (rowPacket sp p) = true → p.crit = false →
    Becomes (i p) d (d.refusedWith (rowPacket sp p) stAuthFail 3) ∧ ∀ ch, ((d.refusedWith (rowPacket sp p) stAuthFail 3).sender ch) = d.sender ch

/-- Everything but outputs, the host attachment, counters, senders' bookkeeping, the fault collector with the protection requests it raises,
and message sequences is as it was: what refusing a packet can change. -/
def Withheld (d e : Dev) : Prop :=
  e = { d with
    out := e.out, host := e.host, cnt := e.cnt, senders := e.senders, flt := e.flt, groups := e.groups, join := { d.join with seqs := e.join.seqs } }

/-- A packet is whole and its fields fit: what its bytes hold (Table 15-1). -/
def wholePacket (p : Packet) : Prop :=
  p.op < 2 ^ 16 ∧ p.plen < 2 ^ 16 ∧ p.params.length = p.plen ∧ p.trailer.length = 16 * b2n p.crit ∧ p.sendLen = 32 + p.plen + 16 * b2n p.crit ∧ p.bulk = {}

/-! ## Objects by handle -/

/-- Terminal, allocation, queue of a handle that is listed. -/
def Dev.term (d : Dev) (tid : Nat) : Terminal := mgetD d.terms tid {}
def Dev.alloc (d : Dev) (aid : Nat) : Alloc := mgetD d.allocs aid {}
def Dev.queue (d : Dev) (q : Nat) : Queue := mgetD d.queues q {}

/-- A command may act on a terminal: it exists, is not on its way out, and its tile runs (R29, R217). -/
def Dev.termNamed (d : Dev) (tid : Nat) : Bool :=
  tid < d.nTerms && mhas d.terms tid && (d.term tid).delAt.isNone && d.tileRun (tileOfChan (d.term tid).ch)

/-- A command may act on an allocation: it exists, is not on its way out, and its tile runs (R29, R217). -/
def Dev.allocNamed (d : Dev) (aid : Nat) : Bool :=
  aid < d.nAllocs && mhas d.allocs aid && (d.alloc aid).delAt.isNone && d.tileRun (d.tileOfTerm (d.alloc aid).tid)

/-- A command may act on a queue: its handle is one of the variant's, it exists, and its tile runs (R29). -/
def Dev.queueNamed (d : Dev) (q : Nat) : Bool := d.queueOk q && mhas d.queues q && d.tileRun (d.tileOfQueue q)

/-- SecY of a handle that is listed; a command may act on one that exists while its tile runs (R29), and on an SA slot of an SC that exists. -/
def Dev.secy (d : Dev) (h : Nat) : SecY := mgetD d.msec.secys h {}
def Dev.secyNamed (d : Dev) (h : Nat) : Bool := mhas d.msec.secys h && d.tileRun (tileOfSub (d.secy h).subport)
def Dev.saNamed (d : Dev) (n : Nat) : Bool := n < 1024 * d.nTiles && mhas d.msec.scs (n / 2) && d.tileRun (d.tileOfSa n)

/-- Table of a handle that is listed; a command may act on one that exists while its tiles run (R29). -/
def Dev.tab (d : Dev) (t : Nat) : Table := mgetD d.tables t {}
def Dev.tabNamed (d : Dev) (t : Nat) : Bool := t < 64 && mhas d.tables t && d.tabRun (d.tab t)

/-- The inline records of a command are whole, and an operation applies every one of them (R281). -/
def Dev.allRecords (c : Cmd) (d : Dev) (f : Dev → List Byte → Nat × List Byte × Dev) : Bool :=
  let n := c.records.1
  let r := eachRecord f n c.records.2.2 0 [] d
  !c.p.bulkFlag && 1 ≤ n && n ≤ 59 && c.records.2.2.length = 64 * n && r.1 = stOk && r.2.1 = n

/-- A command may use a persistent slot as one of a kind (R344, R343). -/
def Dev.slotUsable (d : Dev) (n kind : Nat) : Bool :=
  d.cru.ready && (d.cru.life = .provisioned || d.cru.life = .field) && (d.pslot n).kind = kind && !(d.pslot n).stale

/-- A message of another device is used: the block is ready and its port usable; one that only a tree link carries, on such a link (R402, R409). -/
def Dev.heard (d : Dev) (m : SysHdr) : Bool := d.ready && d.portUsable m.port
def Dev.heardOnTree (d : Dev) (m : SysHdr) : Bool := d.heard m && d.joined && d.treeLinks.contains m.port

/-- The device once the message is counted. -/
def Dev.hearing (d : Dev) (m : SysHdr) : Dev := d.count .msgRx m.port

/-- Group of a tree that is listed. -/
def Dev.group (d : Dev) (tree : Nat) : Group := mgetD d.groups tree {}

/-- The device with the group that a CMD_PROT_GROUP describes, dark and NOT_READY (R418). -/
def Cmd.protGroupMade (c : Cmd) (d : Dev) : Dev :=
  { d with groups := mput d.groups c.tgt {
      gid := c.u16 2, sideB := c.u8 4 = 1, tiles := c.u16 6 = 0xFFFF, pSys := c.u16 6, pTree := c.u8 8, dual := c.u8 9 = 1, claim := c.u8 10 = 1,
      claimNo := c.u8 11, inSub := if c.u8 12 = 0xFF then none else some (c.u8 12), inVlan := c.u16 14, inMac := c.u48 16, pathOfs := c.i32 24,
      pins := BitVec.ofNat 4 (c.u8 28), st := .notReady, number := if c.u8 10 = 1 then c.u8 11 else 0, darkHold := true, born := d.now } }

/-- A LEASE message is used: it is of the other side of the tree's group, in LEASE mode, and its path is up (R424). -/
def Dev.leaseHeard (d : Dev) (tree : Nat) (inband : Bool) (l : LeaseMsg) : Bool :=
  mhas d.groups tree && d.ready && !(d.group tree).claim && l.group = (d.group tree).gid && l.sideB ≠ (d.group tree).sideB
    && d.tileRun (tileOfTree tree) && (if inband then d.inPathUp (d.group tree) else d.sysPathUp (d.group tree))

/-- The group once such a message has arrived: its path is fresh, the partner's frame and phase are known, PARTNER_LOST ends (R426). -/
def Dev.leaseGroup (d : Dev) (tree : Nat) (inband : Bool) (l : LeaseMsg) : Group :=
  let g := d.group tree
  { g with
    rxSys := if inband then g.rxSys else some d.now, rxIn := if inband then some d.now else g.rxIn,
    pFrame := (l.frame + 2 ^ 48 - d.frame) % 2 ^ 48, pPhase := l.phase, st := if g.st = .partnerLost then .active else g.st }

/-- The device with it; a lease number is remembered (R423). -/
def Dev.leaseDev (d : Dev) (tree : Nat) (inband : Bool) (l : LeaseMsg) : Dev :=
  let e := d.updGroup tree (fun _ => d.leaseGroup tree inband l)
  if l.number = 0 then e else e.leaseNote tree l.number

/-- Life-cycle state that byte 0 of a command names; and whether its token is right under an anchor for the challenge in force (R352). -/
def Cmd.lifeNamed (c : Cmd) : Life := (Life.ofCode (c.u8 0)).getD .scrapped
def Dev.tokenRight (d : Dev) (c : Cmd) (anchor : List Byte) : Bool := d.tokenOk c anchor c.lifeNamed

/-! ## Safe states -/

/-- No host master owns a firmware lock 240-255 (R374). -/
def Dev.locksSafe (d : Dev) : Prop := ∀ e ∈ d.host.locks, 240 ≤ e.1 → e.2 < 0x100 ∨ 0x400 ≤ e.2

/-- Every command that waits is well formed. -/
def State.queueWf (s : State) : Prop := ∀ i ∈ s.pending, i.wf = true

end Sys2Proof.Machine
end

