-- ==== Sys2Proof/Certificates/Slice0/Obligations.lean ====
section
/-!
DEFINITION. The statements for the provers: what each command leaves, family by family, then what holds of every command and step.
-/

open Sys2Proof Sys2Proof.Machine

/-- O1. Feed states, carrying feed, changeovers and power-fail warning (R43, R44, R45, R46, R47, R49, R53). A feed whose voltage comes into the
range of Table 2-3 starts to qualify and is disconnected until then. A feed that has qualified is GOOD, the F2 of its loss has its condition
ended, and the carriers are settled anew; after power-fail warning its qualification begins a package cold reset in RAMP, unless RESET_N is
held. A GOOD feed under 2.55 V, or reversed, while the other is GOOD raises F2 feed lost, and the other feed carries; the former counts a
changeover if it carried. The loss of the last GOOD feed to over-voltage, with no assay under way, starts power-fail warning and raises no
fault. A feed mode 0 to 2 written while the host is served is in force and the carriers are settled. A drop of the always-on domain in
power-fail warning leaves the package unpowered with only the eMRAM of the fault ring kept. It rests on choices of the model: logs 70, 73. -/
def Obligations.FeedEventsChangeFeedAndCarrier : Prop :=
  (∀ (d : Dev) (feedB : Bool) (mv : Nat),
     ((d.feed feedB).st = .overV ∧ 2550 ≤ mv ∧ mv ≤ 14300) ∨ (((d.feed feedB).st = .off ∨ (d.feed feedB).st = .under ∨ (d.feed feedB).st = .reversed)
       ∧ 2650 ≤ mv ∧ mv ≤ 14600) →
     Becomes (.feedInRange feedB mv) d ((d.setFeed feedB { d.feed feedB with st := .qualifying, mv := mv }).irq 4)) ∧
  (∀ (d : Dev) (feed : FeedGood),
     (d.feed feed.feedB).st = .qualifying ∧ d.pwr.pfw = false ∧ d.pwr.pstate ≠ .unpowered →
     Becomes (.feedQualified feed) d
       ((((d.setFeed feed.feedB { d.feed feed.feedB with st := .good }).irq 4).endCond 0x01 0x01 0xFF (b2n feed.feedB)).settleCarry)) ∧
  (∀ (d : Dev) (feed : FeedGood),
     (d.feed feed.feedB).st = .qualifying ∧ d.pwr.pfw = true ∧ d.pwr.pstate ≠ .unpowered ∧ d.pwr.pinReset.asserted = false →
     Leaves (.feedQualified feed) d
       fun e =>
         (e.feed feed.feedB).st = .good ∧ e.pwr.pfw = false ∧ e.pwr.pfwSeen = true ∧ e.pwr.pstate = .ramp ∧ e.rst.strap = feed.straps.bootSrc.toNat ∧
           e.rst.refSel = feed.straps.refSel ∧ e.rst.cause = d.rst.cause ||| 4#32 ||| (if d.tileList.any (fun t => (d.tile t).st = .reset) then
           0x100#32 else 0#32)) ∧
  (∀ (d : Dev) (feedB : Bool) (mv : Nat),
     mv < 2550 ∧ (d.feed feedB).st = .good ∧ (d.feed (!feedB)).st = .good →
     Leaves (.feedUnderVoltage feedB mv) d
       fun e =>
         (e.feed feedB).st = (if mv < 500 then .off else .under) ∧ (e.feed feedB).mv = mv ∧ e.feed (!feedB) = d.feed (!feedB) ∧ e.pwr.carry = (if
           feedB then .a else .b) ∧ e.pwr.changeovers = (if d.pwr.carry.has feedB then min 0xFFFF (d.pwr.changeovers + 1) else d.pwr.changeovers) ∧
           e.pwr.pfw = d.pwr.pfw ∧ Raised e 0x01 0x01 0xFF (b2n feedB) ∧ Raises { d with pwr := e.pwr } e) ∧
  (∀ (d : Dev) (feedB : Bool) (mv : Nat),
     14600 < mv ∧ (d.feed feedB).st = .good ∧ (d.feed (!feedB)).st ≠ .good ∧ d.pwr.pstate ≠ .unpowered ∧ d.pwr.assayQueue = [] ∧ d.tileList.all (fun t
       => !(d.asyTile t).running) = true →
     Leaves (.feedOverVoltage feedB mv) d
       fun e =>
         (e.feed feedB).st = .overV ∧ (e.feed feedB).mv = mv ∧ e.pwr.carry = .none ∧ e.pwr.pfw = true ∧ e.pwr.changeovers = d.pwr.changeovers ∧ e.flt
           = d.flt) ∧
  (∀ (d : Dev) (feedB : Bool),
     (d.feed feedB).st = .good ∧ (d.feed (!feedB)).st = .good →
     Leaves (.feedReversed feedB) d
       fun e =>
         (e.feed feedB).st = .reversed ∧ (e.feed feedB).mv = 0 ∧ e.feed (!feedB) = d.feed (!feedB) ∧ e.pwr.carry = (if feedB then .a else .b) ∧
           e.pwr.pfw = d.pwr.pfw ∧ Raised e 0x01 0x01 0xFF (b2n feedB) ∧ Raises { d with pwr := e.pwr } e) ∧
  (∀ (d : Dev) (value : BitVec 32),
     d.hostOk = true ∧ value.toNat % 4 ≠ 3 →
     Becomes (.feedModeWrite value) d ((d.setReg 0x10C (value.toNat % 4)).settleCarry)) ∧
  (∀ (d : Dev),
     d.pwr.pfw = true →
     Leaves .aonDomainDrop d
       fun e =>
         e.pwr = { feedA := d.pwr.feedA, feedB := d.pwr.feedB, carry := .none, pstate := .unpowered, aonRailsOk := false } ∧ e.rst =
           { firstSlot := d.cru.flashFirst, copySlot := d.cru.flashCopy, cause := 0 } ∧ e.flt = { emram := d.flt.emram })

/-- O2. Rails, ramp order, thermal levels, power cap and assay headroom (R51, R52, R55, R56). In RAMP the first rail of a tile is enabled once
the tile before it has started, is up or is isolated. A rail in range that is not the tile's last is recorded and the next is enabled. An
excursion of a rail in range, or a rail that does not come up in time, on a tile other than the lead switches its rails off, isolates it and
raises F3; an excursion of an always-on rail raises F4. A hottest reading of 105 to 109 C from level 0 enters warn with F0, one of 110 to
124 C high with F2, and the reading and its peak are kept. At 118 C for 1 ms and at 125 C a tile other than the lead is isolated with its
rails off and F3. A package power above the cap, once command-ready, is an F0. The first waiting tile below level high starts its assay run
when the estimate leaves headroom. It rests on choices of the model: logs 66, 67, 72. -/
def Obligations.RailAndThermalEventsFollowTheirLevels : Prop :=
  (∀ (d : Dev) (tile : Nat),
     d.pwr.pstate = .ramp ∧ tile < d.nTiles ∧ (d.tile tile).ramping = none ∧ (d.tile tile).railOk = 0 ∧ (d.tile tile).st ≠ .isolated ∧ (tile = 0 ∨
       (d.tile (tile - 1)).ramping.isSome = true ∨ (d.tile (tile - 1)).railOk ≠ 0 ∨ (d.tile (tile - 1)).st = .isolated) →
     Becomes (.tileRampStart tile) d (d.updTile tile (fun x => { x with ramping := some 0 }))) ∧
  (∀ (d : Dev) (tile rail : Nat),
     tile < d.nTiles ∧ (d.tile tile).ramping = some rail ∧ rail < 5 ∧ (d.tile tile).railOk.getLsbD 5 = false ∧ (d.tile tile).st ≠ .isolated →
     Becomes (.railInRange tile rail) d (d.updTile tile (fun x => { x with railOk := x.railOk ||| (1#6 <<< rail), ramping := some (rail + 1) }))) ∧
  (∀ (d : Dev) (tile rail : Nat) (overV : Bool),
     (rail = 6 ∨ rail = 7) ∧ d.flt.unack.length = 5 →
     Leaves (.railExcursion tile rail overV) d
       fun e =>
         e.pwr = { d.pwr with aonRailsOk := false, pstate := if d.flt.quench then d.pwr.pstate else d.pwr.pstate.leave } ∧ Raised e 0x01 0x03 0xFF
           0xFFFFFFFF ∧ Raises { d with pwr := e.pwr } e ∧ nth e.flt.unack 4 = nth d.flt.unack 4 + 1) ∧
  (∀ (d : Dev) (tile rail : Nat) (overV : Bool),
     tile < d.nTiles ∧ tile ≠ 0 ∧ rail < 6 ∧ (d.tile tile).railOk.getLsbD rail = true ∧ d.pwr.pstate ≠ .ramp ∧ d.asy.bootRun.contains tile = false →
     Leaves (.railExcursion tile rail overV) d
       fun e =>
         (e.tile tile).st = .isolated ∧ (e.tile tile).railOk = 0 ∧ (e.tile tile).railFault = (d.tile tile).railFault ||| (1#6 <<< rail) ∧ Raised e
           0x01 0x02 tile tile) ∧
  (∀ (d : Dev) (tile rail : Nat),
     tile < d.nTiles ∧ tile ≠ 0 ∧ (d.tile tile).ramping = some rail ∧ rail < 6 ∧ d.pwr.pstate ≠ .ramp ∧ d.asy.bootRun.contains tile = false →
     Leaves (.railRampTimeout tile rail) d
       fun e => (e.tile tile).st = .isolated ∧ (e.tile tile).railOk = 0 ∧ (e.tile tile).ramping = none ∧ Raised e 0x01 0x02 tile tile) ∧
  (∀ (d : Dev) (tile : Nat) (r : Readings),
     tile < d.nTiles ∧ (d.tile tile).level = 0 ∧ (d.asyTile tile).waits = false ∧ 105 ≤ (hottestOf r).1 ∧ (hottestOf r).1 < 110 →
     Leaves (.thermalSensorRead tile r) d
       fun e =>
         (e.tile tile).level = 1 ∧ (e.tile tile).nowC = (hottestOf r).1 ∧ (e.tile tile).peakC = max (d.tile tile).peakC (hottestOf r).1 ∧ (e.tile
           tile).hot = (hottestOf r).2 ∧ Raised e 0x01 0x04 tile tile) ∧
  (∀ (d : Dev) (tile : Nat) (r : Readings),
     tile < d.nTiles ∧ (d.tile tile).level = 0 ∧ (d.asyTile tile).waits = false ∧ 110 ≤ (hottestOf r).1 ∧ (hottestOf r).1 < 125 →
     Leaves (.thermalSensorRead tile r) d
       fun e =>
         (e.tile tile).level = 2 ∧ (e.tile tile).nowC = (hottestOf r).1 ∧ (e.tile tile).peakC = max (d.tile tile).peakC (hottestOf r).1 ∧ (e.tile
           tile).hot = (hottestOf r).2 ∧ Raised e 0x01 0x05 tile tile) ∧
  (∀ (d : Dev) (tile : Nat),
     tile < d.nTiles ∧ tile ≠ 0 ∧ (d.tile tile).level < 3 ∧ d.asy.bootRun.contains tile = false →
     Leaves (.thermalIsolate tile) d
       fun e => (e.tile tile).st = .isolated ∧ (e.tile tile).level = 3 ∧ (e.tile tile).railOk = 0 ∧ Raised e 0x01 0x06 tile tile) ∧
  (∀ (d : Dev) (tile : Nat),
     tile < d.nTiles ∧ tile ≠ 0 ∧ (d.tile tile).level < 4 ∧ d.asy.bootRun.contains tile = false →
     Leaves (.thermalTrip tile) d
       fun e => (e.tile tile).st = .isolated ∧ (e.tile tile).level = 4 ∧ (e.tile tile).railOk = 0 ∧ Raised e 0x01 0x06 tile tile) ∧
  (∀ (d : Dev) (watts : Nat), d.powerCap < watts ∧ d.ready = true → Becomes (.powerCapExceeded watts) d (d.raise 0x01 0x09 0 0 0xFFFFFFFF watts false)) ∧
  (∀ (d : Dev) (tile : Nat),
     d.estimate.assayFits = true ∧ d.pwr.assayQueue.find? (fun t => (d.tile t).level < 2) = some tile →
     Leaves (.assayHeadroomStart tile) d
       fun e =>
         (e.tile tile).st = .assay ∧ e.asyTile tile =
           { running := true, source := (d.asyTile tile).source, set := (d.asyTile tile).set, since := d.now } ∧ e.pwr.assayQueue =
           d.pwr.assayQueue.filter (fun t => t ≠ tile))

/-- O3. The system class: information, senders, counters, echo and the reset levels (R390, R394, R395, R400, R500, R503, R64, R65, R77, R113).
CMD_SYS_INFO answers Table 15-13, CMD_SYS_ECHO its own parameters, CMD_SYS_COUNTER the highest counter consumed. CMD_SYS_SENDER gives a
channel its masks and binds its slot; CMD_SYS_REMOTE binds a remote manager and clears the masks. CMD_SYS_WARM_RESET answers and then begins
a warm reset; CMD_SYS_TILE_RESET of a tile in RUN other than tile 0 starts its tile reset and its completion follows; CMD_SYS_FUNC_RESET
resets a tree, a channel, a sub-port or a system port. CMD_SYS_UPLINK enables a sub-port, and the end of a drain takes its line down.
Nothing else of the package changes but through the reply. It rests on choices of the model: log 15. -/
def Obligations.SystemCommandsAnswerAndReset : Prop :=
  (Answers .cmdSysInfo specSysInfo (fun _ _ => True) (fun _ d => d) (fun c d => d.infoBody c.snd)) ∧
  (Answers .cmdSysEcho specSysEcho (fun _ _ => True) (fun _ d => d) (fun c d => c.params)) ∧
  (Answers .cmdSysCounter specSysCounter (fun c d => c.tgt ≤ 63) (fun _ d => d) (fun c d => leBytes 8 (d.sender c.chanNamed).consumed)) ∧
  (Answers .cmdSysSender specSysSender
     (fun c d => 1 ≤ c.tgt ∧ c.tgt ≤ 63 ∧ c.bit 3 0 = true ∧ c.bit 3 1 = false ∧ (d.pslot (c.u8 2)).kind = 1 ∧ (d.pslot (c.u8 2)).stale = false)
     (fun c d =>
        Dev.updSender { d with host := { d.host with boundOnce := true } } c.tgt (fun s =>
          { s with
            caps := BitVec.ofNat 16 (c.u16 0), doms := BitVec.ofNat 256 (natAt c.params 8 32), slot := some (c.u8 2),
            slotW := (d.pslot (c.u8 2)).wcount }))
     (fun _ _ => [])) ∧
  (Answers .cmdSysRemote specSysRemote
     (fun c d => 32 ≤ c.tgt ∧ c.tgt ≤ 47 ∧ c.u8 0 = 0 ∧ c.u8 1 < d.nSubs ∧ d.tileRun (tileOfSub (c.u8 1)) = true ∧ 1 ≤ c.u16 2 ∧ c.u16 2 ≤ 4094)
     (fun c d => d.updSender c.tgt (fun s => { s with remote := some (c.u8 1, c.u16 2, c.u48 8), caps := 0, doms := 0 })) (fun _ _ => [])) ∧
  (AnswersThen .cmdSysWarmReset specSysWarmReset (fun _ _ => True) (fun _ d => d) (fun c d => fun e => e.warmReset 3)) ∧
  (Starts .cmdSysTileReset specSysTileReset
     stAccepted (fun c d => 0 < c.tgt ∧ c.tgt < d.nTiles ∧ (d.tile c.tgt).st = .run) (fun c d => d.startTileReset c.tgt 1) .tileReset
     (fun c d => c.tgt)) ∧
  (Answers .cmdSysFuncReset specSysFuncReset
     (fun c d =>
        (c.u8 0 = 0 ∧ c.tgt < d.nTrees ∧ d.tileRun (tileOfTree c.tgt) = true) ∨ (c.u8 0 = 1 ∧ d.chanOk c.tgt = true ∧ d.tileRun (tileOfChan c.tgt) =
          true ∧ (d.chan c.tgt).st ≠ .disabled) ∨ (c.u8 0 = 2 ∧ c.tgt < d.nSubs ∧ d.tileRun (tileOfSub c.tgt) = true) ∨ (c.u8 0 = 3 ∧ c.tgt < 4 ∧
          d.tileRun (d.sysPortTile c.tgt) = true))
     (fun c d =>
        if c.u8 0 = 0 then d.resetTree c.tgt else if c.u8 0 = 1 then d.resetChan c.tgt else if c.u8 0 = 2 then d.resetSub c.tgt else d.resetPort c.tgt)
     (fun _ _ => [])) ∧
  (Answers .cmdSysUplink specSysUplink
     (fun c d =>
        c.tgt < d.nSubs ∧ d.tileRun (tileOfSub c.tgt) = true ∧ c.u8 0 = 0 ∧ (d.sub c.tgt).enabled = false ∧ (d.sub c.tgt).drainEnd = none ∧
          d.uplRefused c.tgt = false ∧ d.subRoom c.tgt = true)
     (fun c d => d.uplinkOn c.tgt) (fun _ _ => [])) ∧
  (∀ (d : Dev) (sub : Nat) (t : Raw),
     sub < d.nSubs ∧ (d.sub sub).drainEnd = some t ∧ reached d.now t = true ∧ d.subQueues sub = [] →
     Leaves (.uplinkDrainEnd sub) d fun e => (e.sub sub).drainEnd = none ∧ (e.sub sub).up = false)

/-- O4. Acknowledgement, release of quench, fault configuration, fault log and anneal (R443, R445, R446, R448, R452). CMD_FLT_ACK, while no
record is latched, acknowledges every record up to a number and does nothing else. CMD_FLT_QUENCH_RELEASE, while the condition of no F4 is
present, acknowledges the F4 records, answers ST_OK, and a warm reset follows the reply. CMD_FLT_CONFIG sets the quiet period, the anneal
limits and the FAULT_N class within their ranges. CMD_FLT_LOG of the volatile ring answers the number of records, the newest number and the
records from the first number asked for. At the end of its quiet period a fault of a class below F3 anneals: it is acknowledged, marked
annealed and counted. An F4 whose anneal is within f4_limit is counted, and a package warm reset ends quench. It rests on choices of the
model: log 15. -/
def Obligations.FaultCommandsAcknowledgeAndAnneal : Prop :=
  (Answers .cmdFltAck specFltAck (fun c d => ∀ r ∈ d.flt.ring, r.latched = false) (fun c d => { d with flt := d.flt.ackTo (c.u32 0) }) (fun _ _ => [])) ∧
  (AnswersThen .cmdFltQuenchRelease specFltQuenchRelease
     (fun c d => d.flt.ring.any (fun r => r.cls = 4 && r.cond) = false) (fun c d => { d with flt := d.flt.ack (fun r => r.cls = 4) })
     (fun c d => fun e => e.warmReset 3)) ∧
  (Answers .cmdFltConfig specFltConfig
     (fun c d => 1 ≤ c.u16 0 ∧ c.u16 0 ≤ 3600 ∧ c.u8 2 ≤ 15 ∧ c.u8 3 ≤ 15 ∧ c.u8 4 ≤ 4)
     (fun c d => d.setReg 0xC20 (c.u16 0 * 2 ^ 20 + c.u8 2 * 2 ^ 16 + c.u8 3 * 2 ^ 12 + c.u8 4 * 2 ^ 8)) (fun _ _ => [])) ∧
  (Answers .cmdFltLog specFltLog
     (fun c d => c.u8 4 = 0 ∧ 1 ≤ c.u8 5 ∧ c.u8 5 ≤ 112) (fun _ d => d)
     (fun c d =>
        leBytes 2 ((d.flt.ring.reverse.filter (fun r => c.u32 0 ≤ r.seq)).take (c.u8 5)).length ++ leBytes 2 0 ++ leBytes 4 d.flt.seq ++
          (((d.flt.ring.reverse.filter (fun r => c.u32 0 ≤ r.seq)).take (c.u8 5)).map FltRec.bytes).flatten)) ∧
  (∀ (d : Dev) (seq : Nat) (r : FltRec) (q : Raw),
     d.flt.ring.find? (fun x => x.seq = seq) = some r ∧ r.quietEnd = some q ∧ r.annealed = false ∧ r.cls < 3 ∧ d.ready = true ∧ d.flt.recov.length = 5
       →
     Leaves (.quietPeriodExpiry seq) d
       fun e =>
         (∃ x ∈ e.flt.ring, x.seq = seq ∧ x.acked = true ∧ x.annealed = true ∧ x.quietEnd = none) ∧ nth e.flt.recov r.cls = min 0xFFFF (nth
           d.flt.recov r.cls + 1)) ∧
  (∀ (d : Dev) (seq : Nat) (r : FltRec) (q : Raw),
     d.flt.ring.find? (fun x => x.seq = seq) = some r ∧ r.quietEnd = some q ∧ r.annealed = false ∧ r.cls = 4 ∧ d.ready = true ∧ d.inReset = false ∧
       d.flt.recov.length = 5 ∧ d.flt.f4At.length < d.f4Limit →
     Leaves (.quietPeriodExpiry seq) d
       fun e => e.flt.quench = false ∧ e.rst.cause.getLsbD 5 = true ∧ e.rst.warmBoot = true ∧ nth e.flt.recov 4 = min 0xFFFF (nth d.flt.recov 4 + 1))

/-- O5. Trees and channels: enable, disable, upstream rate, drain (R27, R95, R139, R141, R142, R143). CMD_CHAN_ENABLE of a DISABLED channel that
its lane can carry answers ST_OK with the channel ENABLING; CMD_TREE_ENABLE of a tree none of whose channels drains, each DISABLED one of
which its lane can carry, answers ST_OK with all of those ENABLING. While a channel of the tree drains, the tree's enable answers ST_PENDING
and is queued. CMD_CHAN_DISABLE, and CMD_TREE_DISABLE for each channel of the tree, answers ST_OK, completes the queued enables with
ST_STATE, and registers a channel in ENABLING or ENABLED for the first plan built at least two frames on. CMD_CHAN_CONFIG sets the upstream
rate of a DISABLED channel that its lane can carry at that rate. The end of a drain of a channel with empty queues disables it and lets
queued enables follow; without any, the channel is DISABLED. It rests on choices of the model: log 15. -/
def Obligations.ChannelsEnableDisableAndDrain : Prop :=
  (AnswersWith .cmdChanEnable specChanEnable (fun c d => d.chanOk c.tgt = true ∧ d.tileRun (tileOfChan c.tgt) = true ∧ (d.chan c.tgt).st = .disabled ∧
     (d.chan c.tgt).disableAt = none ∧ d.laneRefuses c.tgt (d.chan c.tgt).upRate = false) (fun c d e => e = d.chanEnabling c.tgt ∧ (e.chan c.tgt).st =
     .enabling) (fun _ _ => [])) ∧
  (AnswersWith .cmdTreeEnable specTreeEnable (fun c d => c.tgt < d.nTrees ∧ d.tileRun (tileOfTree c.tgt) = true ∧ (treeChans c.tgt).any d.shutting =
     false ∧ ∀ ch ∈ treeChans c.tgt, (d.chan ch).st = .disabled → d.laneRefuses ch (d.chan ch).upRate = false) (fun c d e => e = ((treeChans
     c.tgt).filter (fun ch => (d.chan ch).st = .disabled)).foldl Dev.chanEnabling d ∧ ∀ ch ∈ treeChans c.tgt, (d.chan ch).st = .disabled → (e.chan
     ch).st = .enabling) (fun _ _ => [])) ∧
  (Starts .cmdTreeEnable specTreeEnable
     stPending (fun c d => c.tgt < d.nTrees ∧ d.tileRun (tileOfTree c.tgt) = true ∧ (treeChans c.tgt).any d.shutting = true) (fun _ d => d)
     .treeEnable (fun c d => c.tgt)) ∧
  (AnswersWith .cmdChanDisable specChanDisable (fun c d => d.chanOk c.tgt = true ∧ d.tileRun (tileOfChan c.tgt) = true ∧ ((d.chan c.tgt).st = .enabled
     ∨ (d.chan c.tgt).st = .enabling) ∧ (d.chan c.tgt).disableAt = none) (fun c d e => e = (d.complete .chanEnable c.tgt stState).updChan c.tgt (fun x
     => { x with disableAt := some d.effFrame }) ∧ (e.chan c.tgt).disableAt = some d.effFrame) (fun _ _ => [])) ∧
  (AnswersWith .cmdTreeDisable specTreeDisable (fun c d => c.tgt < d.nTrees ∧ d.tileRun (tileOfTree c.tgt) = true) (fun c d e => e = (treeChans
     c.tgt).foldl Dev.disableChan (d.complete .treeEnable c.tgt stState) ∧ ∀ ch ∈ treeChans c.tgt, (d.chan ch).st = .enabled ∨ (d.chan ch).st =
     .enabling → (d.chan ch).disableAt = none → (e.chan ch).disableAt = some d.effFrame) (fun _ _ => [])) ∧
  (Answers .cmdChanConfig specChanConfig
     (fun c d =>
        d.chanOk c.tgt = true ∧ d.tileRun (tileOfChan c.tgt) = true ∧ c.u8 0 ≤ c.tgt % 4 ∧ (d.chan c.tgt).st = .disabled ∧ d.laneRefuses c.tgt (c.u8
          0) = false)
     (fun c d => d.updChan c.tgt (fun x => { x with upRate := c.u8 0 })) (fun _ _ => [])) ∧
  (∀ (d : Dev) (ch : Nat),
     d.chanOk ch = true ∧ (d.chan ch).st = .draining ∧ d.tileRun (tileOfChan ch) = true ∧ d.chanQueues ch = [] ∧ reached d.now (d.chan ch).drainEnd =
       true →
     Leaves (.channelDrainEnd ch) d
       fun e =>
         e = ((d.chanDisabled ch).queuedEnables ch).queuedTree (ch / 4) ∧ (d.jobsOf .chanEnable ch = [] ∧ d.jobsOf .treeEnable (ch / 4) = [] → (e.chan
           ch).st = .disabled))

/-- O6. The frame boundary, the second boundary and the fast SES interval (R117, R129, R133, R135, R165, R167, R215, R471). FRAME_BOUNDARY
brings the clock to the boundary of the next frame, records it, assembles the plans that are due, applies what takes effect at that frame,
then builds for each channel that is not DISABLED, sends the blocks of each tree lane, judges its defects and runs the protection units.
SECOND_BOUNDARY at the boundary of a second not reached before closes the second of line quality, re-anchors and keeps the rate; with
PPS_OUT always on it emits the pulse and sets its end; at a multiple of snap_period_s, with no snapshot asked for or under way, it takes a
periodic one. FAST_SES_INTERVAL, at its boundary, judges the fast SES condition of every tree of a running tile by the blocks and defects of
the interval and starts the counts of the next. It rests on choices of the model: logs 4, 11. -/
def Obligations.BoundariesAdvanceTheFrameAndTheSecond : Prop :=
  (∀ (d : Dev) (n : Nat) (a b : Dev),
     d.ready = true ∧ n = (d.reachFrame d.nextFrame 8).frame ∧ a =
       (({ d.reachFrame d.nextFrame 8 with time := { (d.reachFrame d.nextFrame 8).time with lastFrame := some n } } : Dev)) ∧ b = (((((a.onList.foldl
       Dev.assembleDue a).trafficBoundary.ponBoundary).circuitBoundary).fmChanges n).fmBoundary n) →
     Becomes .frameBoundary d
       (((b.grantChanges n).groups.map (fun x => x.1)).foldl Dev.groupRefresh (b.grantChanges n) |> fun e => e.onList.foldl (fun x ch => x.chanFrame n
          (b.standingChanges n) ch) e |> fun e => (List.range e.nTrees).foldl (fun x t => ((x.fsDue (tileOfTree t) (t % 8)).treeFrame n t).treeDefects
          n t) e |> fun e => e.tileList.foldl (fun x t => (x.testFrame t 8).testFrame t 9) e |> fun e => (e.groups.map (fun x => x.1)).foldl (fun x t
          => x.protFrame t n) e)) ∧
  (∀ (d : Dev) (a : Dev),
     d.ready = true ∧ d.ppsOutMode = 2 ∧ d.time.st = .freerun ∧ d.snapPeriodS = 0 ∧ d.netU % secU = 0 ∧ d.time.topSecond < d.netSec ∧ a =
       (Dev.pmSecond { d with time := { d.time with topSecond := d.netSec, rateHist := (d.time.rate.toInt :: d.time.rateHist).take 60 } }
       d.netSec).reanchor.slewDone →
     Leaves .secondBoundary d fun e => e.time = a.time ∧ e.terms = a.terms ∧ e.trees = a.trees) ∧
  (∀ (d : Dev),
     d.ready = true ∧ d.ppsOutMode = 1 ∧ d.snapPeriodS = 0 →
     Leaves .secondBoundary d fun e => e.out.head? = some .pps ∧ e.time.ppsOutEnd = e.now + rawUs e.ppsWidthUs) ∧
  (∀ (d : Dev),
     d.ready = true ∧ d.snapPeriodS ≠ 0 ∧ d.netU % secU = 0 ∧ d.time.topSecond < d.netSec ∧ d.netSec % d.snapPeriodS = 0 ∧ d.join.snaps = [] ∧
       d.cnt.writing = none →
     Leaves .secondBoundary d
       fun e => e.cnt.writing.map (fun a => (a.id, a.atT, a.late, a.join, a.periodic)) = some (0, (d.netSec : Int) * 1000000000, false, false, true)) ∧
  (∀ (d : Dev) (j : Int),
     d.ready = true ∧ d.frameClockU % (8 * frameU) = 0 ∧ d.time.lastIv ≠ some (lowBits 45 (d.frameI / 8)) ∧ j = d.frameI / 8 →
     Leaves .fastSesInterval d fun e => e.time.lastIv = some (lowBits 45 j) ∧ e.time.raw = d.time.raw ∧ ∀ t ∈ List.range d.nTrees, d.tileRun
       (tileOfTree t) = true →
     (e.tree t).ivErr = 0 ∧ (e.tree t).ivBlocks = 0 ∧ (e.tree t).fastSes = ((0 < (d.tree t).ivBlocks && 3 * (d.tree t).ivBlocks ≤ 10 * (d.tree
       t).ivErr) || (d.tree t).ivDefect || (d.tree t).lost || (d.tree t).lfs || (d.tree t).lsf))

/-- O7. Line quality: reading a record, setting thresholds, final bins (R165, R166, R483). CMD_PM_READ of a tree or of a terminal answers the
record of one of its slots 0 to 34. CMD_PM_CONFIG of either sets the four thresholds of its 15-minute or of its 24-hour bins and nothing
else. BIN_FINAL brings raw time to 10 s after the earliest close of a provisional bin, makes final every bin whose 10 s are over, and notes
the rewrite of the bins in device memory. It rests on choices of the model: logs 4, 15. -/
def Obligations.LineQualityIsReadConfiguredAndFinal : Prop :=
  (Answers .cmdPmRead specPmRead
     (fun c d => 16384 ≤ c.tgt ∧ c.tgt < 16384 + d.nTrees ∧ d.tileRun (tileOfTree (c.tgt - 16384)) = true ∧ c.u8 0 < 35) (fun _ d => d)
     (fun c d => (d.tree (c.tgt - 16384)).pm.slot (c.u8 0))) ∧
  (Answers .cmdPmRead specPmRead
     (fun c d => c.tgt < d.nTerms ∧ c.tgt < 16384 ∧ mhas d.terms c.tgt = true ∧ d.tileRun (d.tileOfTerm c.tgt) = true ∧ c.u8 0 < 35) (fun _ d => d)
     (fun c d => (d.term c.tgt).pm.slot (c.u8 0))) ∧
  (Answers .cmdPmConfig specPmConfig
     (fun c d => 16384 ≤ c.tgt ∧ c.tgt < 16384 + d.nTrees ∧ d.tileRun (tileOfTree (c.tgt - 16384)) = true ∧ c.u8 0 ≤ 1)
     (fun c d =>
        d.updTree (c.tgt - 16384) (fun x =>
          { x with
            pm :=
              if c.u8 0 = 0 then { x.pm with thr15 := [c.u32 4, c.u32 8, c.u32 12, c.u64 16] } else
                { x.pm with thr24 := [c.u32 4, c.u32 8, c.u32 12, c.u64 16] } }))
     (fun _ _ => [])) ∧
  (Answers .cmdPmConfig specPmConfig
     (fun c d => c.tgt < d.nTerms ∧ c.tgt < 16384 ∧ mhas d.terms c.tgt = true ∧ d.tileRun (d.tileOfTerm c.tgt) = true ∧ c.u8 0 ≤ 1)
     (fun c d =>
        d.updTerm c.tgt (fun x =>
          { x with
            pm :=
              if c.u8 0 = 0 then { x.pm with thr15 := [c.u32 4, c.u32 8, c.u32 12, c.u64 16] } else
                { x.pm with thr24 := [c.u32 4, c.u32 8, c.u32 12, c.u64 16] } }))
     (fun _ _ => [])) ∧
  (∀ (d : Dev) (x : Raw) (xs : List Raw),
     d.terms.flatMap (fun e => e.2.pm.provisional) ++ d.trees.flatMap (fun e => e.2.pm.provisional) = x :: xs →
     Becomes .binFinal d
       (d.advanceTo (xs.foldl earlier x) |> fun a => Dev.areaMade
          { a with
            terms := d.terms.map (fun e => (e.1, { e.2 with pm := e.2.pm.finalize a.now })),
            trees := d.trees.map (fun e => (e.1, { e.2 with pm := e.2.pm.finalize a.now })) } 0))

/-- O8. Legacy circuits and OMCI: create, delete, containers, SAToP packets, messages (R152, R153, R154, R155, R157, R158, R159, R160, R161).
CMD_CIRCUIT_CREATE lists a circuit of a FIXED every-frame allocation with room, defaults filled in; CMD_CIRCUIT_DELETE marks it for the next
frame boundary. A container whose number is not the circuit's is counted and dropped; one in sequence without justification adds its 256
data bits towards the pseudowire, one with AIS is counted and adds bits without valid input instead. A SAToP packet of the circuit's
pseudowire with an RTP header is counted and dropped; the first one, or one in sequence, adds its payload to the jitter buffer.
CMD_OMCI_SEND queues a message on the tile of its terminal, as given or with the trailer that the device computes. A received OMCI frame is
notified with its channel and the result of the trailer's check. Of what each changes the statement says all. It rests on choices of the
model: log 15. -/
def Obligations.CircuitsAndOmciPassTheirTraffic : Prop :=
  (Answers .cmdCircuitCreate specCircuitCreate
     (fun c d =>
        c.tgt < d.nCircuits ∧ c.u16 0 < d.nTerms ∧ c.u16 4 < d.nAllocs ∧ (c.u16 12 = 0 ∨ (32 ≤ c.u16 12 ∧ c.u16 12 ≤ 1024 ∧ c.u16 12 % 32 = 0)) ∧ c.u8
          14 ≤ 32 ∧ c.u8 15 ≤ 3 ∧ mhas d.circuits c.tgt = false ∧ mhas d.terms (c.u16 0) = true ∧ mhas d.allocs (c.u16 4) = true ∧ (d.term (c.u16
          0)).delAt = none ∧ (d.alloc (c.u16 4)).delAt = none ∧ d.tileRun (tileOfChan (d.term (c.u16 0)).ch) = true ∧ (d.alloc (c.u16 4)).tid = c.u16
          0 ∧ (d.alloc (c.u16 4)).p.typ = 0 ∧ (d.alloc (c.u16 4)).latest.1.period = 1 ∧ (d.circuits.filter (fun e => e.2.tid = c.u16 0 &&
          e.2.delAt.isNone)).length < 16 ∧ (d.circuits.filter (fun e => d.tileOfTerm e.2.tid = tileOfChan (d.term (c.u16 0)).ch)).length < 512 ∧ 36 *
          ((d.circuits.filter (fun e => e.2.tid = c.u16 0 && e.2.delAt.isNone)).length + 1) + gemHdr (d.term (c.u16 0)).ch ≤ (d.alloc (c.u16
          4)).latest.1.fixed)
     (fun c d =>
        { d with
          circuits :=
            mput d.circuits c.tgt
              {
                tid := c.u16 0, port := c.u16 2, aid := c.u16 4, pw := BitVec.ofNat 32 (c.u32 8), payload := if c.u16 12 = 0 then 256 else c.u16 12,
                jbMs := if c.u8 14 = 0 then 4 else c.u8 14, psn := c.u8 15 } })
     (fun _ _ => [])) ∧
  (∀ (d : Dev) (circuit : Nat) (bytes : List Byte) (x : Circuit),
     mget d.circuits circuit = some x ∧ d.chanLive (d.chanOfTerm x.tid) = true ∧ natAt bytes 0 1 * 16 + natAt bytes 1 1 / 16 ≠ circuit →
     Becomes (.circuitContainerRx circuit bytes) d (d.count .contMisrouted circuit)) ∧
  (∀ (d : Dev) (circuit : Nat) (bytes : List Byte) (x : Circuit) (seq : Nat),
     mget d.circuits circuit = some x ∧ d.chanLive (d.chanOfTerm x.tid) = true ∧ natAt bytes 0 1 * 16 + natAt bytes 1 1 / 16 = circuit ∧ seq = natAt
       bytes 1 1 % 16 ∧ x.rxSeq = some ((seq + 15) % 16) ∧ justVote (bytes.getD 2 0) = some 0 ∧ bitN (natAt bytes 2 1) 1 = false →
     Becomes (.circuitContainerRx circuit bytes) d
       (Dev.circuitIn { d with circuits := mput d.circuits circuit { x with rxSeq := some seq } } circuit ((containerBits bytes 0).map some))) ∧
  (∀ (d : Dev) (circuit : Nat) (bytes : List Byte) (x : Circuit) (seq : Nat),
     mget d.circuits circuit = some x ∧ d.chanLive (d.chanOfTerm x.tid) = true ∧ natAt bytes 0 1 * 16 + natAt bytes 1 1 / 16 = circuit ∧ seq = natAt
       bytes 1 1 % 16 ∧ x.rxSeq = some ((seq + 15) % 16) ∧ justVote (bytes.getD 2 0) = some 0 ∧ bitN (natAt bytes 2 1) 1 = true →
     Becomes (.circuitContainerRx circuit bytes) d
       (Dev.circuitIn (Dev.count { d with circuits := mput d.circuits circuit { x with rxSeq := some seq } } .aisRxUp circuit) circuit (lostBits 256))) ∧
  (∀ (d : Dev) (circuit : Nat) (pkt : SatopPacket) (x : Circuit),
     mget d.circuits circuit = some x ∧ d.tileRun (d.tileOfTerm x.tid) = true ∧ pkt.psn = x.psn ∧ pkt.pw = x.pw ∧ pkt.cw = true ∧ pkt.rtp = true →
     Becomes (.satopPacketRx circuit pkt) d (d.count .pwRtpDrop circuit)) ∧
  (∀ (d : Dev) (circuit : Nat) (pkt : SatopPacket) (x : Circuit),
     mget d.circuits circuit = some x ∧ d.tileRun (d.tileOfTerm x.tid) = true ∧ pkt.psn = x.psn ∧ pkt.pw = x.pw ∧ pkt.cw = true ∧ pkt.rtp = false ∧
       (x.pwSeqRx = none ∨ x.pwSeqRx = some ((pkt.seq + 65535) % 65536)) ∧ pkt.lBit = false →
     Becomes (.satopPacketRx circuit pkt) d
       (Dev.jbPut { d with circuits := mput d.circuits circuit { x with pwSeqRx := some (pkt.seq % 65536), pwLoss := false } } circuit (((bitsOf
          pkt.payload).map some ++ lostBits (8 * x.payload)).take (8 * x.payload)))) ∧
  (Answers .cmdCircuitDelete specCircuitDelete
     (fun c d =>
        c.tgt < d.nCircuits ∧ mhas d.circuits c.tgt = true ∧ (mgetD d.circuits c.tgt {}).delAt = none ∧ d.tileRun (d.tileOfTerm (mgetD d.circuits
          c.tgt {}).tid) = true)
     (fun c d => { d with circuits := mput d.circuits c.tgt { mgetD d.circuits c.tgt {} with delAt := some (plusF d.frame 1) } }) (fun _ _ => [])) ∧
  (Answers .cmdOmciSend specOmciSend
     (fun c d =>
        c.tgt < d.nTerms ∧ mhas d.terms c.tgt = true ∧ (mgetD d.terms c.tgt {}).delAt = none ∧ d.tileRun (d.tileOfTerm c.tgt) = true ∧ c.params.length
          = pad4 (4 + c.u16 2) ∧ (d.tile (d.tileOfTerm c.tgt)).omciQ.length < 256 ∧ c.bit 0 0 = false)
     (fun c d => d.updTile (d.tileOfTerm c.tgt) (fun x => { x with omciQ := x.omciQ ++ [{ tid := c.tgt, bytes := c.bs 4 (c.u16 2) }] }))
     (fun _ _ => [])) ∧
  (Answers .cmdOmciSend specOmciSend
     (fun c d =>
        c.tgt < d.nTerms ∧ mhas d.terms c.tgt = true ∧ (mgetD d.terms c.tgt {}).delAt = none ∧ d.tileRun (d.tileOfTerm c.tgt) = true ∧ c.params.length
          = pad4 (4 + c.u16 2) ∧ (d.tile (d.tileOfTerm c.tgt)).omciQ.length < 256 ∧ c.bit 0 0 = true ∧ (d.omciTrailer c.tgt (c.bs 4 (c.u16 2))).isSome
          = true)
     (fun c d =>
        d.updTile (d.tileOfTerm c.tgt) (fun x =>
          { x with omciQ := x.omciQ ++ [{ tid := c.tgt, bytes := c.bs 4 (c.u16 2) ++ (d.omciTrailer c.tgt (c.bs 4 (c.u16 2))).getD [] }] }))
     (fun _ _ => [])) ∧
  (∀ (d : Dev) (tid : Nat) (msg : List Byte) (trailer : List Byte) (t : Terminal),
     mget d.terms tid = some t ∧ d.chanLive t.ch = true →
     Becomes (.omciFrameRx tid msg trailer) d (d.notify 0x8280 tid (leBytes 4 t.ch ++ leBytes 4 (b2n (d.omciOk tid msg trailer)) ++ msg ++ trailer)))

/-- O9. Derbex lanes: received blocks, block lock, generation steps, slips and retraining (R87, R89, R92, R93, R94, R96, R97, R98). A block of
an open receiver whose lane is a system lane's or has a framer on: with header 00 or 11 its payload is descrambled, nothing of it is used,
and the header is counted as invalid; a control block on a locked lane outside a far-end loop is descrambled and taken. Block lock gained on
a lane at D1 with no slip pending leads to ABIL. Block lock lost above D1 on a tree lane leads to a search of 1 ms, and the lane restarts at
D1 at its end. An ABIL whose ack answers the leader's request sets the step, GEN_STEP_SWITCH goes to the new generation without lock and
with 2 ms to confirm, GEN_STEP_CONFIRM ends the step, and GEN_STEP_TIMEOUT counts the failure, marks the generation failed and goes back,
with 1 ms to find lock above D1. Under manual lock LANE_SLIP_WRITE registers a slip. LANE_RETRAIN of a used lane clears the failed
generations and restarts it. It rests on choices of the model: logs 4, 11. -/
def Obligations.LanesLockStepAndRestart : Prop :=
  (∀ (d : Dev) (tile lane : Nat) (header : BitVec 2) (payload : BitVec 64),
     d.rxOpen tile lane = true ∧ (8 ≤ lane ∨ (treeChans (8 * tile + lane)).all (fun ch => !d.framerOn ch) = false) ∧ (header = 0#2 ∨ header = 3#2) →
     Becomes (.blockReceived tile lane header payload) d
       (((d.updLane tile lane (fun x => { x with rxScr := (descramble (d.lane tile lane).rxScr payload).2, sd := true })).headerIn tile lane
          false).abilTick tile lane)) ∧
  (∀ (d : Dev) (tile lane : Nat) (header : BitVec 2) (payload : BitVec 64) (p : BitVec 64),
     d.rxOpen tile lane = true ∧ (8 ≤ lane ∨ (treeChans (8 * tile + lane)).all (fun ch => !d.framerOn ch) = false) ∧ header = 2#2 ∧ (d.lane tile
       lane).locked = true ∧ (d.lane tile lane).farLoop = false ∧ p = (descramble (d.lane tile lane).rxScr payload).1 →
     Becomes (.blockReceived tile lane header payload) d
       (((((d.updLane tile lane (fun x => { x with rxScr := (descramble (d.lane tile lane).rxScr payload).2, sd := true })).msgBlock tile lane true
          p).ctrlIn tile lane p).headerIn tile lane true).abilTick tile lane)) ∧
  (∀ (d : Dev) (tile lane : Nat),
     d.rxOpen tile lane = true ∧ (d.lane tile lane).locked = false ∧ (d.lane tile lane).slipPend = false ∧ (d.lane tile lane).stepTo = none ∧ (d.lane
       tile lane).gen ≤ 1 →
     Leaves (.blockLockAcquired tile lane) d
       fun e =>
         (e.lane tile lane).locked = true ∧ (e.lane tile lane).neg = .abil ∧ (e.lane tile lane).sd = true ∧ (e.lane tile lane).relockAt = none ∧ 64 ≤
           (e.lane tile lane).hdrRun) ∧
  (∀ (d : Dev) (tile lane : Nat),
     d.laneLive tile lane = true ∧ lane < 8 ∧ (d.lane tile lane).locked = true ∧ 1 < (d.lane tile lane).gen ∧ (d.lane tile lane).switched = false ∧
       (d.lane tile lane).partnerLull = false →
     Leaves (.blockLockLost tile lane) d
       fun e =>
         (e.lane tile lane).locked = false ∧ (e.lane tile lane).neg = .locking ∧ (e.lane tile lane).relockAt = some (d.now + rawMs 1) ∧ (e.lane tile
           lane).gen = (d.lane tile lane).gen ∧ Talks { d with lanes := e.lanes } e) ∧
  (∀ (d : Dev) (tile lane : Nat) (r : Raw),
     (d.lane tile lane).relockAt = some r ∧ d.laneLive tile lane = true →
     Becomes (.relockTimeout tile lane) d ((d.advanceTo r).laneRestart tile lane)) ∧
  (∀ (d : Dev) (tile lane : Nat) (payload : BitVec 64),
     d.rxOpen tile lane = true ∧ lane < 8 ∧ (d.lane tile lane).locked = true ∧ blkByte payload 0 = 0x2D ∧ blkByte payload 7 = blkCrc payload ∧ (d.lane
       tile lane).reqGen = some (blkByte payload 5 % 16) ∧ (d.lane tile lane).stepTo = none ∧ bitN (blkByte payload 5) 4 = true →
     Leaves (.abil tile lane payload) d
       fun e =>
         (e.lane tile lane).stepTo = some (blkByte payload 5 % 16) ∧ (e.lane tile lane).neg = .step ∧ (e.lane tile lane).partnerGens = BitVec.ofNat 4
           (blkByte payload 1 % 16) ∧ e = { d with lanes := e.lanes }) ∧
  (∀ (d : Dev) (tile lane : Nat) (g : Nat),
     (d.lane tile lane).stepTo = some g ∧ d.laneLive tile lane = true ∧ (d.lane tile lane).reqGen.isSome = true →
     Leaves (.genStepSwitch tile lane) d
       fun e =>
         (e.lane tile lane).gen = g ∧ (e.lane tile lane).stepFrom = (d.lane tile lane).gen ∧ (e.lane tile lane).locked = false ∧ (e.lane tile
           lane).reqGen = none ∧ (e.lane tile lane).ackSeen = false ∧ (e.lane tile lane).neg = .step ∧ (e.lane tile lane).stepEnd = d.now + rawMs 2 ∧
           e = { d with lanes := e.lanes, out := e.out }) ∧
  (∀ (d : Dev) (tile lane : Nat),
     d.laneLive tile lane = true ∧ (d.lane tile lane).switched = true ∧ reached d.now (d.lane tile lane).stepEnd = false →
     Becomes (.genStepConfirm tile lane) d
       ((d.updLane tile lane (fun x => { x with locked := true, hdrRun := 1024, ackSeen := true })).stepConfirm tile lane)) ∧
  (∀ (d : Dev) (tile lane : Nat),
     d.laneLive tile lane = true ∧ (d.lane tile lane).switched = true →
     Becomes (.genStepTimeout tile lane) d
       (((d.advanceTo (d.lane tile lane).stepEnd).count .stepFail (laneKey tile lane)).updLane tile lane (fun x =>
          { x with
            failedGens := x.failedGens ||| (1#4 <<< (x.gen - 1)), gen := x.stepFrom, stepTo := none, ackSeen := false, locked := false, hdrRun := 0,
            hdrHist := 0, neg := .locking,
            relockAt := if 1 < x.stepFrom then some ((d.advanceTo (d.lane tile lane).stepEnd).now + rawMs 1) else none }))) ∧
  (∀ (d : Dev) (tile lane : Nat),
     d.laneLive tile lane = true ∧ d.laneManual tile lane = true →
     Becomes (.laneSlipWrite tile lane) d (d.updLane tile lane (fun x => { x with slipPend := true }))) ∧
  (∀ (d : Dev) (tile lane : Nat),
     d.laneLive tile lane = true ∧ d.laneUsed tile lane = true →
     Becomes (.laneRetrain tile lane) d ((d.updLane tile lane (fun x => { x with failedGens := 0 })).laneRestart tile lane))

/-- O10. Derbex lanes: loops, lull, frame sync, signal detect and PHY status (R54, R88, R99, R100, R101, R105, R108, R109). A LOOP request for a
far-end loop on a lane that is not allowed one is answered with a refusal. LULL marks the partner. LULL_ENTER of a lane that nothing uses:
the transmitter sends 8 LULL blocks and stops, the receiver's lock is as it was; the receiver gives up lock and frame sync. LULL_WAKE brings
a used lane that is in lull back in both directions at D1, and the receiver alone of one that nothing uses. FS with a good check gives frame
sync and its fields. FRAME_SYNC_LOSS makes the missed frames two and raises LFS. An SD_REPORT that says signal gives a channel its signal
detect and energy. A PHY_STATUS without a fault leaves what Table 4-8 lists. It rests on choices of the model: log 11. -/
def Obligations.LanesLoopLullAndReport : Prop :=
  (∀ (d : Dev) (tile lane : Nat) (payload : BitVec 64),
     d.rxOpen tile lane = true ∧ (d.lane tile lane).locked = true ∧ blkByte payload 0 = 0x4B ∧ blkByte payload 7 = blkCrc payload ∧ blkByte payload 1
       = 1 ∧ d.laneAllowFar tile lane = false ∧ (d.lane tile lane).loopWait = 0 →
     Becomes (.loop tile lane payload) d ((d.updLane tile lane (fun x => { x with partnerLull := false })).sendLoop tile lane 0x21)) ∧
  (∀ (d : Dev) (tile lane : Nat) (payload : BitVec 64),
     d.rxOpen tile lane = true ∧ (d.lane tile lane).locked = true ∧ blkByte payload 0 = 0x55 ∧ blkByte payload 7 = blkCrc payload →
     Becomes (.lull tile lane payload) d (d.updLane tile lane (fun x => { x with partnerLull := true }))) ∧
  (∀ (d : Dev) (tile : Nat) (side : LaneSide),
     side.rx = false ∧ d.laneLive tile side.lane = true ∧ (d.lane tile side.lane).txLull = false ∧ d.laneUsed tile side.lane = false ∧ d.laneLoop tile
       side.lane = 0 →
     Leaves (.lullEnter tile side) d
       fun e =>
         e.out = List.replicate 8 (.block tile side.lane 0x55 0) ++ d.out ∧ (e.lane tile side.lane).txLull = true ∧ (e.lane tile side.lane).neg =
           .down ∧ (e.lane tile side.lane).rxLull = (d.lane tile side.lane).rxLull ∧ (e.lane tile side.lane).locked = (d.lane tile side.lane).locked ∧
           e = { d with lanes := e.lanes, out := e.out }) ∧
  (∀ (d : Dev) (tile : Nat) (side : LaneSide),
     side.rx = true ∧ d.laneLive tile side.lane = true ∧ (d.lane tile side.lane).rxLull = false ∧ d.laneUsed tile side.lane = false →
     Becomes (.lullEnter tile side) d
       (d.updLane tile side.lane (fun x =>
          { x with
            rxLull := true, locked := false, neg := .down, gen := 0, reqGen := none, stepTo := none, relockAt := none, frameSync := false,
            sd := false }))) ∧
  (∀ (d : Dev) (tile : Nat) (side : LaneSide),
     d.laneLive tile side.lane = true ∧ d.laneUsed tile side.lane = true ∧ side.lane < 8 ∧ (d.lane tile side.lane).txLull = true ∧ (d.lane tile
       side.lane).rxLull = true →
     Leaves (.lullWake tile side) d
       fun e =>
         (e.lane tile side.lane).neg = .locking ∧ (e.lane tile side.lane).gen = 1 ∧ (e.lane tile side.lane).txLull = false ∧ (e.lane tile
           side.lane).rxLull = false ∧ (e.lane tile side.lane).locked = false ∧ e = { d with lanes := e.lanes }) ∧
  (∀ (d : Dev) (tile : Nat) (side : LaneSide),
     side.rx = true ∧ d.laneLive tile side.lane = true ∧ d.laneUsed tile side.lane = false ∧ (d.lane tile side.lane).rxLull = true →
     Leaves (.lullWake tile side) d
       fun e =>
         (e.lane tile side.lane).rxLull = false ∧ (e.lane tile side.lane).sd = true ∧ (e.lane tile side.lane).gen = 1 ∧ (e.lane tile side.lane).neg =
           .locking ∧ (e.lane tile side.lane).txLull = (d.lane tile side.lane).txLull ∧ e = { d with lanes := e.lanes }) ∧
  (∀ (d : Dev) (tile lane : Nat) (payload : BitVec 64),
     d.rxOpen tile lane = true ∧ lane < 8 ∧ (d.lane tile lane).locked = true ∧ blkByte payload 0 = 0x1E ∧ blkByte payload 7 = blkCrc payload →
     Becomes (.fs tile lane payload) d
       ((d.updLane tile lane (fun x =>
          { x with
            frameSync := true, fsMiss := 0, fsGot := true, rxFrame := BitVec.ofNat 16 (blkByte payload 1 + 256 * blkByte payload 2),
            rxByte3 := BitVec.ofNat 8 (blkByte payload 3), rxByte4 := BitVec.ofNat 8 (blkByte payload 4) })).updTree (8 * tile + lane) (fun x =>
          { x with lfs := false }))) ∧
  (∀ (d : Dev) (tile lane : Nat),
     lane < 8 ∧ d.laneLive tile lane = true ∧ (d.lane tile lane).frameSync = true ∧ (d.lane tile lane).partnerLull = false →
     Becomes (.frameSyncLoss tile lane) d
       (((((d.count .fsMiss (laneKey tile lane) (2 - min 2 (d.lane tile lane).fsMiss)).updLane tile lane (fun x =>
          { x with frameSync := false, fsMiss := 2 })).updTree (8 * tile + lane) (fun x => { x with lfs := true }))).treeDefect (8 * tile + lane))) ∧
  (∀ (d : Dev) (tile lane : Nat) (payload : BitVec 64),
     d.rxOpen tile lane = true ∧ lane < 8 ∧ (d.lane tile lane).locked = true ∧ blkByte payload 0 = 0x83 ∧ blkByte payload 7 = blkCrc payload ∧ blkByte
       payload 5 % 4 ≠ 3 ∧ bitN (blkByte payload 5) 3 = false ∧ bitN (blkByte payload 5) 2 = true →
     Leaves (.sdReport tile lane payload) d
       fun e =>
         (e.lane tile lane).chSd = (d.lane tile lane).chSd ||| (1#3 <<< (blkByte payload 5 % 4)) ∧ (e.lane tile lane).chEnergy = (d.lane tile
           lane).chEnergy.set (blkByte payload 5 % 4) (blkByte payload 6) ∧ Talks { d with lanes := e.lanes } e) ∧
  (∀ (d : Dev) (tile lane : Nat) (payload : BitVec 64),
     d.rxOpen tile lane = true ∧ lane < 8 ∧ (d.lane tile lane).locked = true ∧ blkByte payload 0 = 0x85 ∧ blkByte payload 7 = blkCrc payload ∧ blkByte
       payload 1 / 8 = 0 →
     Becomes (.phyStatus tile lane payload) d
       ((d.updLane tile lane (fun x =>
          { x with
            partnerLull := false, phyLit := BitVec.ofNat 3 (blkByte payload 1), phyFault := 0, phyDual := false, phyOther := false,
            phyTemp := BitVec.ofNat 8 (blkByte payload 2), phyNum := BitVec.ofNat 8 (blkByte payload 3),
            phyLate := BitVec.ofNat 8 (blkByte payload 4), phyCrc := BitVec.ofNat 8 (blkByte payload 5) })).updGroup (8 * tile + lane) (fun g => if
          g.claim && g.yielded then { g with st := if g.st = .standby then .active else g.st, yielded := false } else { g with yielded := false })))

/-- O11. Class 0x03: create, delete, map, reach, rerange, power, transmitter, status (R169, R170, R184, R186, R192, R194, R217). CMD_TERM_CREATE
lists an ABSENT terminal in its channel's reach, with its counters' slot; CMD_TERM_DELETE marks the terminal and its allocations for the
frame of the change. CMD_TERM_MAP sets distance and tolerance, CMD_RNG_CHAN_CONFIG the reach of a disabled channel. CMD_TERM_RERANGE of a
terminal in service puts it to REACQUIRE. CMD_TERM_POWER sets mode 1 or 2 and its interval. CMD_TERM_TXCTRL disables a transmitter with
Disable_SN and keeps the ONU-ID; its enable of a disabled or held-off terminal sends the enabling, returns it to ABSENT and clears what led
to hold-off. CMD_TERM_STATUS answers the state, the ONU-ID, the delay, the round-trip time, the uncertainty and the distances. It rests on
choices of the model: log 15. -/
def Obligations.TerminalCommandsChangeTheTerminalNamed : Prop :=
  (Answers .cmdTermCreate specTermCreate
     (fun c d =>
        c.tgt < d.nTerms ∧ d.chanOk (c.u32 0) = true ∧ d.tileRun (tileOfChan (c.u32 0)) = true ∧ 10 ≤ c.u32 52 ∧ c.u32 52 ≤ 40000 ∧ d.mapOk (c.u32 0)
          (c.u32 48) (c.u32 52) = true ∧ mhas d.terms c.tgt = false ∧ d.terms.any (fun e => e.2.serial = c.bs 4 8 && e.1 ≠ c.tgt) = false ∧ (d.termsOf
          (c.u32 0)).length < 128 ∧ (d.terms.filter (fun e => e.2.ch / 4 = c.u32 0 / 4)).length < 512 ∧ (d.placesOf (c.u32 0)).any (fun t => 2048 ≤
          d.termsCount t) = false)
     (fun c d =>
        Dev.giveSlot
          { d with
            terms :=
              mput d.terms c.tgt
                {
                  ch := c.u32 0, serial := c.bs 4 8, cred := if c.u32 0 % 4 = 0 then c.bs 12 10 else c.bs 12 36, dist := c.u32 48, tol := c.u32 52,
                  fec := c.u32 0 % 4 = 2 || c.bit 56 0, pm := { cur15 := { key := d.netSec }, cur24 := { key := d.netSec } } } } 3 c.tgt)
     (fun _ _ => [])) ∧
  (Answers .cmdTermDelete specTermDelete
     (fun c d => d.termNamed c.tgt = true)
     (fun c d =>
        { d with
          terms := mmod d.terms c.tgt (fun t => { t with delAt := some d.effFrame }),
          allocs := d.allocs.map (fun e => (e.1, if e.2.tid = c.tgt then { e.2 with delAt := some (e.2.delAt.getD d.effFrame) } else e.2)) })
     (fun _ _ => [])) ∧
  (Answers .cmdTermMap specTermMap
     (fun c d => d.termNamed c.tgt = true ∧ d.mapOk (d.term c.tgt).ch (c.u32 0) (c.u32 4) = true ∧ 10 ≤ c.u32 4 ∧ c.u32 4 ≤ 40000)
     (fun c d => d.updTerm c.tgt (fun t => { t with dist := c.u32 0, tol := c.u32 4 })) (fun _ _ => [])) ∧
  (Answers .cmdRngChanConfig specRngChanConfig
     (fun c d =>
        d.chanOk c.tgt = true ∧ d.tileRun (tileOfChan c.tgt) = true ∧ c.u32 4 ≤ 60000 ∧ c.u32 0 ≤ c.u32 4 ∧ c.u32 4 - c.u32 0 ≤ 40000 ∧ (d.chan
          c.tgt).st = .disabled)
     (fun c d => d.updChan c.tgt (fun x => { x with reachMin := c.u32 0, reachMax := c.u32 4 })) (fun _ _ => [])) ∧
  (Answers .cmdTermRerange specTermRerange
     (fun c d => d.termNamed c.tgt = true ∧ (d.term c.tgt).st = .inService) (fun c d => d.toReacquire c.tgt) (fun _ _ => [])) ∧
  (Answers .cmdTermPower specTermPower
     (fun c d => d.termNamed c.tgt = true ∧ c.u8 0 = 0 ∧ 1 ≤ c.u8 1 ∧ c.u8 1 ≤ 2 ∧ 8 ≤ c.u16 2 ∧ c.u16 2 ≤ 4096)
     (fun c d => d.updTerm c.tgt (fun t => { t with mode := c.u8 1, interval := c.u16 2 })) (fun _ _ => [])) ∧
  (Answers .cmdTermTxctrl specTermTxctrl
     (fun c d => d.termNamed c.tgt = true ∧ c.u8 0 = 0 ∧ (d.term c.tgt).st ≠ .disabled)
     (fun c d =>
        Dev.ploam ((d.svcBreak c.tgt).updTerm c.tgt (fun t => { t.toAbsent with st := .disabled, onu := t.onu })) (d.term c.tgt).ch .disableSn c.tgt 1)
     (fun _ _ => [])) ∧
  (Answers .cmdTermTxctrl specTermTxctrl
     (fun c d => d.termNamed c.tgt = true ∧ c.u8 0 = 1 ∧ ((d.term c.tgt).st = .disabled ∨ (d.term c.tgt).st = .heldOff))
     (fun c d => (d.enableSn c.tgt).updTerm c.tgt (fun t => { t with holdS := 1, everHeld := false, losses := [] })) (fun _ _ => [])) ∧
  (Answers .cmdTermStatus specTermStatus
     (fun c d => d.termNamed c.tgt = true) (fun _ d => d)
     (fun c d =>
        leBytes 1 (d.term c.tgt).st.code ++ leBytes 1 0 ++ leBytes 2 ((d.term c.tgt).onu.getD 0xFFFF) ++ leBytes 4 (lowBits 32 ((d.term c.tgt).eqd /
          1000)) ++ leBytes 4 (lowBits 32 ((d.term c.tgt).rtt / 1000)) ++ leBytes 2 (d.term c.tgt).uncert ++ leBytes 2 0 ++ leBytes 4 (d.term
          c.tgt).dist ++ leBytes 4 (d.term c.tgt).tol))

/-- O12. Registration: serial number, password, windows exhausted, REACQUIRE, hold-off, dying gasp, sleep (R180, R181, R182, R184, R185, R191,
R192, R193). The serial number of an ABSENT terminal of the channel gives it the lowest free ONU-ID, four ranging windows, the state RANGING
and the messages Assign_ONU-ID and the request of its credential. A wrong password counts an authentication failure and deactivates. A
terminal in RANGING whose windows are spent counts a ranging failure and is deactivated. A REACQUIRE that times out is deactivated, a hold-
off that ends is enabled again, a dying gasp on G of a terminal in service leads to ABSENT, a PLOAM message that Table 7-3 does not list for
the channel is counted, a sleep request that is allowed leads to LOW_POWER, and one to stay awake wakes. It rests on choices of the model:
log 4. -/
def Obligations.TerminalsRegisterAndLeave : Prop :=
  (∀ (d : Dev) (ch : Nat) (serial : List Byte) (offsetNs : Int) (tid o : Nat),
     d.chanLive ch = true ∧ d.terms.find? (fun e => e.2.serial = serial) = some (tid, d.term tid) ∧ (d.term tid).ch = ch ∧ (d.term tid).st = .absent ∧
       (d.term tid).delAt = none ∧ d.freeOnu ch = some o →
     Becomes (.serialNumberOnu ch serial offsetNs) d
       ((((d.count .snReceived ch).updTerm tid (fun t =>
          { t with st := .ranging, onu := some o, omccPort := o, rngLeft := 4, rngFrom := none })).ploam ch .assignOnuId tid o).ploam ch .requestCred
          tid)) ∧
  (∀ (d : Dev) (tid : Nat) (cred : List Byte) (rtt : Int),
     mhas d.terms tid = true ∧ d.chanLive (d.term tid).ch = true ∧ (d.term tid).st = .ranging ∧ cred ≠ (d.term tid).cred →
     Becomes (.password tid cred rtt) d ((d.countCT .authFail (d.term tid).ch tid).deactivate tid)) ∧
  (∀ (d : Dev) (tid : Nat),
     mhas d.terms tid = true ∧ d.chanLive (d.term tid).ch = true ∧ (d.term tid).st = .ranging ∧ (d.term tid).rngLeft = 0 →
     Becomes (.rangingWindowsExhausted tid) d ((d.countCT .rngFail (d.term tid).ch tid).deactivate tid)) ∧
  (∀ (d : Dev) (tid : Nat),
     mhas d.terms tid = true ∧ d.chanLive (d.term tid).ch = true ∧ (d.term tid).st = .reacquire →
     Becomes (.reacquireTimeout tid) d ((d.advanceTo (d.term tid).reacqEnd).deactivate tid)) ∧
  (∀ (d : Dev) (tid : Nat),
     mhas d.terms tid = true ∧ d.tileRun (tileOfChan (d.term tid).ch) = true ∧ (d.term tid).st = .heldOff →
     Becomes (.holdOffEnd tid) d ((d.advanceTo (d.term tid).holdEnd).enableSn tid)) ∧
  (∀ (d : Dev) (tid : Nat),
     mhas d.terms tid = true ∧ d.tileRun (tileOfChan (d.term tid).ch) = true ∧ (d.term tid).ch % 4 = 0 ∧ (d.term tid).st = .inService →
     Becomes (.dyingGasp tid) d ((d.svcBreak tid).goAbsent tid)) ∧
  (∀ (d : Dev) (p : PloamAt),
     d.chanLive p.ch = true ∧ (p.msg = .other ∨ p.ch % 4 ≠ 0 ∧ (p.msg = .dyingGasp ∨ p.msg = .remoteError ∨ p.msg = .physicalError)) →
     Becomes (.ploamUnexpected p) d (d.count .ploamUnexpected p.ch)) ∧
  (∀ (d : Dev) (tid : Nat) (awake : Bool),
     mhas d.terms tid = true ∧ awake = false ∧ d.chanLive (d.term tid).ch = true ∧ (d.term tid).st = .inService ∧ (d.term tid).allowOn = true ∧
       d.maySleep tid (d.term tid) = true →
     Becomes (.sleepRequest tid awake) d
       (d.updTerm tid (fun t => { t with st := .lowPower, sleptAt := d.frame, wakeFrame := none, wakeReq := decide (t.wokeAt = some d.frame) }))) ∧
  (∀ (d : Dev) (tid : Nat) (awake : Bool),
     mhas d.terms tid = true ∧ awake = true ∧ d.chanLive (d.term tid).ch = true →
     Becomes (.sleepRequest tid awake) d ((d.wake tid).2))

/-- O13. Discovery periods, dark windows and hunts (R173, R175, R176, R187, R188). A map-guided period makes groups of the ABSENT terminals,
nearest first, and sets when the groups' windows and the next period begin; a broad period submits one broad window and sets its next; a
dark period draws its frame and its offset, and sets its next. The first seven dark windows in a row without a summary, outside a hunt and a
confirmation, are void and counted. The end of a hunt step's settle time opens its dark window. It rests on choices of the model: logs 4, 8. -/
def Obligations.WindowPeriodsAndDarkWindowsRun : Prop :=
  (∀ (d : Dev) (ch : Nat) (f : Nat) (e : Dev) (gs : List (List Nat)),
     d.chanLive ch = true ∧ d.periodAt (d.chan ch).mapNext (d.discMapMs ch * 8) = some (f, e) ∧ gs = (sortBy (fun (x : Nat × Terminal) => x.2.dist)
       ((e.termsOf ch).filter (fun x => x.2.st = .absent && x.2.delAt.isNone))).foldl (fun gs x => e.groupAdd ch gs x.1) [] →
     Becomes (.discMapPeriodStart ch) d
       (e.updChan ch (fun c =>
          { c with
            groups := gs.map (fun g => { kind := .map, members := g }), groupGap := e.discMapMs ch * 8 / max 1 gs.length, groupNext := f,
            mapNext := some (plusF f (e.discMapMs ch * 8)) }))) ∧
  (∀ (d : Dev) (ch : Nat) (f : Nat) (e : Dev),
     d.chanLive ch = true ∧ d.periodAt (d.chan ch).broadNext (d.discBroadS ch * 8000) = some (f, e) ∧ (e.chan ch).winReq.any (fun w => w.kind =
       .broad) = false →
     Becomes (.discBroadPeriodStart ch) d
       (e.updChan ch (fun c => { c with winReq := c.winReq ++ [{ kind := .broad }], broadNext := some (plusF f (e.discBroadS ch * 8000)) }))) ∧
  (∀ (d : Dev) (ch : Nat) (f : Nat),
     d.chanLive ch = true ∧ (d.chan ch).darkNext = some f ∧ d.darkMs ch ≠ 0 ∧ frameGe d.frame (plusF f (d.darkMs ch * 8)) = false →
     Leaves (.darkPeriodStart ch) d
       fun e =>
         (e.chan ch).darkFrame = some (plusF f (Config.freeNat d.freeCtr % (d.darkMs ch * 8))) ∧ (e.chan ch).darkOfs = Config.freeNat (d.freeCtr + 1)
           % (125000 - d.darkLenUs ch * 1000 + 1) ∧ (e.chan ch).darkNext = some (plusF f (d.darkMs ch * 8)) ∧ e.freeCtr = d.freeCtr + 2) ∧
  (∀ (d : Dev) (ch : Nat),
     (d.chan ch).darkOpen = true ∧ d.chanOk ch = true ∧ (d.chan ch).hunt = none ∧ (d.chan ch).darkConfirm = false ∧ (d.chan ch).darkVoidRun < 7 →
     Becomes (.darkWindowVoid ch) d
       (((d.advanceTo ((d.chan ch).darkEnd + rawUs 20)).count .darkVoid ch).updChan ch (fun c =>
          { c with darkOpen := false, darkVoidRun := c.darkVoidRun + 1 }))) ∧
  (∀ (d : Dev) (ch : Nat) (x : Hunt) (f : Nat) (q : Plan),
     d.chanLive ch = true ∧ (d.chan ch).hunt = some x ∧ x.darkFrame = some f ∧ x.darkOpen = false ∧ ((d.toFrame f).chan ch).plans.find? (fun p =>
       p.frame = f) = some q →
     Becomes (.huntSettleExpiry ch) d ((d.toFrame f).openDark ch q))

/-- O14. The plan's commit and deadline, and the search, the acceptance and the decoding of a burst (R147, R148, R149, R150, R151, R162, R203,
R204, R215, R218, R220). The engine's commit before the deadline marks the next plan committed and keeps the smallest margin of its tile; at
the deadline a committed plan becomes the one in effect and is issued; without a commit and without a standing plan there is none for that
frame. A delimiter at a position that the search still comes to, in the window of a granted burst and with its header right, closes the
window, takes the bits up to the end of the burst out of the search and is an accepted burst. The window of a granted burst that ends
without one is closed, and the burst is missed. The decoded burst is taken off the accepted list and adds its codewords, lost bytes, line
quality, key indices, reports and uses. It rests on choices of the model: log 4. -/
def Obligations.PlansAreCommittedAndBurstsFound : Prop :=
  (∀ (d : Dev) (ch : Nat) (p : Plan),
     (d.chan ch).nextPlan = some p ∧ d.chanLive ch = true ∧ (d.engineOf ch).isSome = true ∧ reached (d.planDeadline p.frame) d.now = true →
     Becomes (.planCommit ch) d
       ((d.updTile (tileOfChan ch) (fun x =>
          { x with
            marginCur :=
              some
                (match x.marginCur with
                 | some y => min y ((d.planDeadline p.frame - d.now).toNat / 65536000)
                 | none => (d.planDeadline p.frame - d.now).toNat / 65536000) })).updChan ch (fun c =>
          { c with plans := c.plans.map (fun x => if x.frame = p.frame then { x with committed := true } else x) }))) ∧
  (∀ (d : Dev) (ch : Nat) (p : Plan),
     (d.chan ch).nextPlan = some p ∧ d.chanLive ch = true ∧ p.committed = true →
     Becomes (.planCommitDeadline ch) d
       (((d.advanceTo (d.planDeadline p.frame)).updChan ch (fun c =>
          { c with
            standingValid := ((d.advanceTo (d.planDeadline p.frame)).chan ch).carryFrom.any (fun x => frameGe p.frame (plusF x 2)) && !p.changed,
            plans := c.plans.map (fun x => if x.frame = p.frame then { p with done := true } else x) })).issuePlan ch { p with done := true })) ∧
  (∀ (d : Dev) (ch : Nat) (p : Plan),
     (d.chan ch).nextPlan = some p ∧ d.chanLive ch = true ∧ p.committed = false ∧ ((d.advanceTo (d.planDeadline p.frame)).chan ch).carryFrom = none →
     Becomes (.planCommitDeadline ch) d
       ((d.advanceTo (d.planDeadline p.frame)).updChan ch (fun c =>
          { c with standingValid := false, standingRun := 0, fullRun := 0, plans := c.plans.filter (fun x => x.frame ≠ p.frame) }))) ∧
  (∀ (d : Dev) (ch : Nat) (b : BurstFound) (w : BurstWin),
     d.chanOk ch = true ∧ d.tileRun (tileOfChan ch) = true ∧ (d.chan ch).st ≠ .disabled ∧ (d.chan ch).win = some w ∧ w.kind = none ∧ w.holds b.offset
       = true ∧ b.hamming ≤ w.maxHam ∧ (d.chan ch).winNotBefore ≤ d.absBit ch w.frame (w.expect + b.offset) ∧ d.headerOk w b = true →
     Becomes (.burstFound ch b) d
       (((if 1 ≤ b.hamming then d.count .delimInexact ch else d).updChan ch (fun c =>
          { c with
            win := none, winNotBefore := (d.absBit ch w.frame (w.expect + b.offset) + w.lenBits).toNat,
            accepted := c.accepted ++ [(w.tid, w.frame)] })).acceptGranted ch w b.offset)) ∧
  (∀ (d : Dev) (ch : Nat) (w : BurstWin),
     d.chanOk ch = true ∧ d.tileRun (tileOfChan ch) = true ∧ (d.chan ch).st ≠ .disabled ∧ (d.chan ch).win = some w ∧ w.kind = none →
     Becomes (.burstWindowClose ch) d
       ((Dev.updChan (d.advanceTo (d.frameRaw w.frame + rawNs ((d.chan ch).teqd * 16) + (d.rate ch).rawOfBytes (ceilDiv (w.expect + (w.half + w.dlen))
          8))) ch (fun c => { c with win := none })).burstMissed ch w)) ∧
  (∀ (d : Dev) (ch : Nat) (b : BurstInfo) (x : Dev),
     d.chanOk ch = true ∧ d.tileRun (tileOfChan ch) = true ∧ (d.chan ch).accepted.contains (b.tid, b.frame) = true ∧ x = (((((d.updChan ch (fun c =>
       { c with accepted := c.accepted.erase (b.tid, b.frame) })).countCT .fecCw ch b.tid b.codewords).countCT .fecCorrected ch b.tid
       b.corrected).countCT .fecUncorrectable ch b.tid b.uncorrectable).countCT .fecBits ch b.tid b.bitsCorrected) →
     Becomes (.burstDecoded ch b) d
       (Dev.winAdd (Dev.winAdd (b.used.foldl (fun d u => d.noteUsed b.tid b.frame u) (b.reports.foldl (fun d r => d.noteReport b.tid b.frame r)
          (b.keyIndices.foldl (fun d i => d.ponIndex b.tid i) (((if ch % 4 = 0 then x.countCT .bipErr ch b.tid b.bipErr else x).count .delinLost ch
          b.lostBytes).pmCount b.tid (b.codewords + b.bipBlocks) (b.uncorrectable + b.bipErr))))) 1 ch 0 b.gemBytes b.gemFrames) 2 b.tid 0 b.gemBytes
          b.gemFrames))

/-- O15. Class 0x04: allocations, domain and terminal weights, status (R196, R197, R198, R199, R200, R201, R202, R216, R217, R222).
CMD_ALLOC_CREATE of an admitted allocation lists it with its parameters, its phase, the lowest free Alloc-ID, the frame from which it is
served and its counters' slot, and tells a terminal in service or in LOW_POWER its Alloc-ID. CMD_ALLOC_MODIFY of a legal, admitted change
queues the new parameters for the frame of their effect, with a new phase where the period changes; CMD_ALLOC_DELETE marks the allocation
for its own. CMD_DOM_CONFIG queues a channel's weight for a domain, the domain's priority, or the weight for every channel; CMD_TDOM_CONFIG
a terminal's. CMD_ALLOC_STATUS answers the parameters, Alloc-ID, phase, demand, follow-me values and counters, CMD_GS_STATUS the guaranteed
load, the plan counts and the engine. It rests on choices of the model: logs 8, 15. -/
def Obligations.AllocationCommandsSetWhatIsGranted : Prop :=
  (Answers .cmdAllocCreate specAllocCreate
     (fun c d =>
        c.tgt < d.nAllocs ∧ c.u32 0 < d.nTerms ∧ mhas d.terms (c.u32 0) = true ∧ (d.term (c.u32 0)).delAt = none ∧ mhas d.allocs c.tgt = false ∧
          d.tileRun (tileOfChan (d.term (c.u32 0)).ch) = true ∧ paramsRange c (paramsOf c (d.rate (d.term (c.u32 0)).ch).fb) (d.rate (d.term (c.u32
          0)).ch).fb = none ∧ paramsBad (paramsOf c (d.rate (d.term (c.u32 0)).ch).fb) (d.term (c.u32 0)).ch = false ∧ (d.allocs.filter (fun e =>
          e.2.tid = c.u32 0)).length < 32 ∧ (d.placesOf (d.term (c.u32 0)).ch).any (fun t => 8192 ≤ d.allocsCount t) = false ∧ d.admits (d.term (c.u32
          0)).ch c.tgt (c.u32 0) (paramsOf c (d.rate (d.term (c.u32 0)).ch).fb) = true ∧ d.standingFull (d.term (c.u32 0)).ch (paramsOf c (d.rate
          (d.term (c.u32 0)).ch).fb) = false)
     (fun c d =>
        if (d.term (c.u32 0)).st = .inService ∨ (d.term (c.u32 0)).st = .lowPower then Dev.ploam (Dev.giveSlot
          { d with
            allocs :=
              mput d.allocs c.tgt
                {
                  tid := c.u32 0, p := paramsOf c (d.rate (d.term (c.u32 0)).ch).fb, phase := d.choosePhase (d.term (c.u32 0)).ch c.tgt (c.u8 25),
                  allocId :=
                    (lowestFree ((d.allocsOf (d.term (c.u32 0)).ch).map (fun e => e.2.allocId)) (Config.allocIdLow ((d.term (c.u32 0)).ch % 4))
                      16384).getD 0, startAt := d.effFrame } } 2 c.tgt) (d.term (c.u32 0)).ch .assignAlloc (c.u32 0) ((lowestFree ((d.allocsOf (d.term
          (c.u32 0)).ch).map (fun e => e.2.allocId)) (Config.allocIdLow ((d.term (c.u32 0)).ch % 4)) 16384).getD 0) else Dev.giveSlot
          { d with
            allocs :=
              mput d.allocs c.tgt
                {
                  tid := c.u32 0, p := paramsOf c (d.rate (d.term (c.u32 0)).ch).fb, phase := d.choosePhase (d.term (c.u32 0)).ch c.tgt (c.u8 25),
                  allocId :=
                    (lowestFree ((d.allocsOf (d.term (c.u32 0)).ch).map (fun e => e.2.allocId)) (Config.allocIdLow ((d.term (c.u32 0)).ch % 4))
                      16384).getD 0, startAt := d.effFrame } } 2 c.tgt)
     (fun _ _ => [])) ∧
  (Answers .cmdAllocModify specAllocModify
     (fun c d =>
        d.allocNamed c.tgt = true ∧ paramsRange c (paramsOf c (d.rate (d.chanOfTerm (d.alloc c.tgt).tid)).fb) (d.rate (d.chanOfTerm (d.alloc
          c.tgt).tid)).fb = none ∧ c.u32 0 = (d.alloc c.tgt).tid ∧ c.u8 4 = (d.alloc c.tgt).p.sdom ∧ c.u8 5 = (d.alloc c.tgt).p.typ ∧ c.bit 27 0 =
          (d.alloc c.tgt).p.safety ∧ c.bit 27 1 = (d.alloc c.tgt).p.fm ∧ paramsBad (paramsOf c (d.rate (d.chanOfTerm (d.alloc c.tgt).tid)).fb)
          (d.chanOfTerm (d.alloc c.tgt).tid) = false ∧ d.admits (d.chanOfTerm (d.alloc c.tgt).tid) c.tgt (d.alloc c.tgt).tid (paramsOf c (d.rate
          (d.chanOfTerm (d.alloc c.tgt).tid)).fb) = true)
     (fun c d =>
        d.updAlloc c.tgt (fun a =>
          { a with
            next :=
              a.next ++ [(d.effFrame, paramsOf c (d.rate (d.chanOfTerm (d.alloc c.tgt).tid)).fb, if c.u8 25 = (d.alloc c.tgt).latest.1.period then
                (d.alloc c.tgt).latest.2 else d.choosePhase (d.chanOfTerm (d.alloc c.tgt).tid) c.tgt (c.u8 25))] }))
     (fun _ _ => [])) ∧
  (Answers .cmdAllocDelete specAllocDelete
     (fun c d => d.allocNamed c.tgt = true) (fun c d => d.updAlloc c.tgt (fun a => { a with delAt := some d.effFrame })) (fun _ _ => [])) ∧
  (Answers .cmdAllocStatus specAllocStatus
     (fun c d => d.allocNamed c.tgt = true) (fun _ d => d)
     (fun c d =>
        leBytes 4 (d.alloc c.tgt).tid ++ leBytes 1 (d.alloc c.tgt).p.sdom ++ leBytes 1 (d.alloc c.tgt).p.typ ++ leBytes 2 (d.alloc c.tgt).p.weight ++
          leBytes 4 (d.alloc c.tgt).p.fixed ++ leBytes 4 (d.alloc c.tgt).p.assured ++ leBytes 4 (d.alloc c.tgt).p.peak ++ leBytes 4 (d.alloc
          c.tgt).p.cap ++ leBytes 1 (b2n (d.alloc c.tgt).p.nonStatus) ++ leBytes 1 (d.alloc c.tgt).p.period ++ leBytes 1 (d.alloc c.tgt).p.cls ++
          leBytes 1 (b2n (d.alloc c.tgt).p.safety + 2 * b2n (d.alloc c.tgt).p.fm) ++ leBytes 4 0 ++ leBytes 2 (d.alloc c.tgt).allocId ++ leBytes 1
          (d.alloc c.tgt).phase ++ leBytes 1 0 ++ leBytes 4 (d.alloc c.tgt).lastDemand ++ leBytes 4 (d.alloc c.tgt).fmA ++ leBytes 4 (d.alloc
          c.tgt).fmP ++ [Cnt.grantedBytes, Cnt.grants, Cnt.polls, Cnt.assuredShort].flatMap (fun k => leBytes 8 (d.cntVal k c.tgt)))) ∧
  (Answers .cmdDomConfig specDomConfig
     (fun c d =>
        c.tgt < 256 ∧ d.chanOk (c.u32 0) = true ∧ c.u32 0 ≠ 0xFFFFFFFF ∧ c.u16 4 ≤ 1023 ∧ c.u8 6 ≤ 7 ∧ (c.bit 7 0 = true ∨ c.bit 7 1 = true) ∧
          d.tileRun (tileOfChan (c.u32 0)) = true)
     (fun c d =>
        { d with
          domNext :=
            d.domNext ++ (if c.bit 7 0 then [(d.effFrame, 0, 256 * c.u32 0 + c.tgt, c.u16 4)] else []) ++ (if c.bit 7 1 then [(d.effFrame, 1, c.tgt,
              c.u8 6)] else []) })
     (fun _ _ => [])) ∧
  (Answers .cmdDomConfig specDomConfig
     (fun c d => c.tgt < 256 ∧ c.u32 0 = 0xFFFFFFFF ∧ c.u16 4 ≤ 1023 ∧ c.u8 6 ≤ 7 ∧ c.bit 7 0 = true ∧ c.bit 7 1 = false)
     (fun c d => { d with domNext := d.domNext ++ d.chanList.map (fun x => (d.effFrame, 0, 256 * x + c.tgt, c.u16 4)) }) (fun _ _ => [])) ∧
  (Answers .cmdTdomConfig specTdomConfig
     (fun c d => d.termNamed c.tgt = true ∧ 1 ≤ c.u16 2 ∧ c.u16 2 ≤ 1023 ∧ d.allocs.any (fun e => e.2.tid = c.tgt && e.2.p.sdom = c.u8 0) = true)
     (fun c d => { d with domNext := d.domNext ++ [(d.effFrame, 2, 256 * c.tgt + c.u8 0, c.u16 2)] }) (fun _ _ => [])) ∧
  (Answers .cmdGsStatus specGsStatus
     (fun c d => d.chanOk c.tgt = true ∧ d.tileRun (tileOfChan c.tgt) = true) (fun _ d => d)
     (fun c d =>
        leBytes 4 (d.loadWith c.tgt d.nAllocs none) ++ leBytes 8 (d.cntVal .plansFull c.tgt) ++ leBytes 8 (d.cntVal .plansStanding c.tgt) ++ leBytes 1
          ((d.engineOf c.tgt).getD 0xFF) ++ zeroBytes 3))

/-- O16. PON encryption: the MSK, the key exchange, its renewal and retries, the switch and the old slot (R333, R334, R335, R336, R337, R505).
CMD_PON_MSK with the right result derives the MSK, the OMCI key and the KEK, starts the first exchange of a terminal in service, and answers
the OLT result. CMD_PON_KEY_CFG sets a renewal period, CMD_PON_KEY_ROLL starts an exchange and CMD_PON_KEY_STATUS answers the slots. A whole
key, on X and F unwrapped under the KEK, is written to the spare slot; the first of several fragments is kept. ACKNOWLEDGE on X and F sets
the switch at the next boundary. A renewal starts an exchange, a request unanswered for 1 s is repeated, the third fails the exchange, and
the old slot is zeroised on the key bus at its instant. It rests on choices of the model: logs 4, 13, 15. -/
def Obligations.PonKeysAreExchangedAndRolled : Prop :=
  (Answers .cmdPonMsk specPonMsk (fun c d => d.termNamed c.tgt = true ∧ (d.term c.tgt).ch % 4 ≠ 0 ∧ d.cru.ready = true ∧ (d.cru.life = .provisioned ∨ d.cru.life = .field) ∧ (d.pslot (c.u8 0)).kind = 4 ∧ (d.pslot (c.u8 0)).stale = false ∧ c.bs 33 16 = bytesAt (Config.ponOnuResult (d.pslot (c.u8 0)).key (c.bs 1 16) (c.bs 17 16) (d.term c.tgt).serial) 0 16) (fun c d => (fun (e : Dev) => if d.inService c.tgt && (d.ponKey c.tgt).use.isNone then e.ponStart c.tgt else e) ((d.setPon c.tgt { d.ponKey c.tgt with
       mskKey := some (bytesAt (Config.ponMsk (d.pslot (c.u8 0)).key (c.bs 1 16 ++ c.bs 17 16) (d.term c.tgt).serial) 0 16)
       omciKey := some (bytesAt (Config.ponOmciKey (bytesAt (Config.ponMsk (d.pslot (c.u8 0)).key (c.bs 1 16 ++ c.bs 17 16) (d.term c.tgt).serial) 0 16)) 0 16)
       kek := some (bytesAt (Config.ponKek (bytesAt (Config.ponMsk (d.pslot (c.u8 0)).key (c.bs 1 16 ++ c.bs 17 16) (d.term c.tgt).serial) 0 16)) 0 16)
       mskSlot := c.u8 0 }).updTerm c.tgt (fun t => { t with msk := some (c.u8 0) }))) (fun c d => padBytes (bytesAt (Config.ponOltResult (d.pslot (c.u8 0)).key (c.bs 1 16) (c.bs 17 16) (d.term c.tgt).serial) 0 16))) ∧
  (Answers .cmdPonKeyCfg specPonKeyCfg
     (fun c d =>
        (c.u8 0 = 0 ∧ d.chanOk c.tgt = true ∧ d.tileRun (tileOfChan c.tgt) = true ∨ c.u8 0 = 1 ∧ d.termNamed c.tgt = true) ∧ (c.u32 4 = 0 ∨ 60 ≤ c.u32
          4 ∧ c.u32 4 ≤ 86400))
     (fun c d =>
        if c.u8 0 = 0 then { d with msec := { d.msec with ponRekey := mput d.msec.ponRekey c.tgt (c.u32 4) } } else d.setPon c.tgt
          { d.ponKey c.tgt with rekeyS := some (c.u32 4) })
     (fun _ _ => [])) ∧
  (Answers .cmdPonKeyRoll specPonKeyRoll
     (fun c d => d.termNamed c.tgt = true ∧ d.inService c.tgt = true ∧ ((d.term c.tgt).ch % 4 = 0 ∨ (d.ponKey c.tgt).kek.isSome = true))
     (fun c d => d.ponStart c.tgt) (fun _ _ => [])) ∧
  (Answers .cmdPonKeyStatus specPonKeyStatus
     (fun c d => d.termNamed c.tgt = true) (fun _ d => d)
     (fun c d =>
        leBytes 1 (b2n (d.ponKey c.tgt).key0.isSome) ++ leBytes 1 (b2n (d.ponKey c.tgt).key1.isSome) ++ leBytes 1 ((d.ponKey c.tgt).use.getD 255) ++
          leBytes 1 ((d.ponKey c.tgt).pendSlot.getD 255))) ∧
  (∀ (d : Dev) (tid : Nat) (k : KeyMsg),
     d.inService tid = true ∧ d.tileRun (d.tileOfTerm tid) = true ∧ (d.ponKey tid).req ≠ 0 ∧ d.termKind tid = 0 ∧ k.ok = true ∧ k.frags ≤ 1 ∧
       (d.ponKey tid).frags = [] →
     Becomes (.encryptionKey tid k) d (d.ponWrite tid k.key)) ∧
  (∀ (d : Dev) (tid : Nat) (k : KeyMsg) (kek : List Byte),
     d.inService tid = true ∧ d.tileRun (d.tileOfTerm tid) = true ∧ (d.ponKey tid).req ≠ 0 ∧ d.termKind tid ≠ 0 ∧ (d.ponKey tid).kek = some kek ∧ k.ok
       = true ∧ k.frags ≤ 1 ∧ (d.ponKey tid).frags = [] →
     Becomes (.encryptionKey tid k) d (d.ponWrite tid (bytesAt (Config.ponKeyUnwrap kek k.key) 0 16))) ∧
  (∀ (d : Dev) (tid : Nat) (k : KeyMsg),
     d.inService tid = true ∧ d.tileRun (d.tileOfTerm tid) = true ∧ (d.ponKey tid).req ≠ 0 ∧ k.ok = true ∧ 1 < k.frags ∧ (d.ponKey tid).frags = [] →
     Becomes (.encryptionKey tid k) d (d.setPon tid { d.ponKey tid with frags := [(k.frag, k.key)], fragFrame := d.frame })) ∧
  (∀ (d : Dev) (tid : Nat),
     d.inService tid = true ∧ d.tileRun (d.tileOfTerm tid) = true ∧ d.termKind tid ≠ 0 ∧ (d.ponKey tid).pendSlot.isSome = true ∧ (d.ponKey
       tid).switchAt = none →
     Becomes (.acknowledge tid) d (d.setPon tid { d.ponKey tid with switchAt := some (lowBits 48 (d.frameI + 1)) })) ∧
  (∀ (d : Dev) (tid : Nat),
     d.inService tid = true ∧ d.tileRun (d.tileOfTerm tid) = true ∧ 0 < d.rekeyPeriod tid ∧ (d.ponKey tid).use.isSome = true →
     Becomes (.ponRekeyTimer tid) d ((d.advanceTo (d.ponKey tid).nextRoll).ponStart tid)) ∧
  (∀ (d : Dev) (tid : Nat),
     (d.ponKey tid).req ≠ 0 ∧ (d.ponKey tid).req < 3 ∧ d.tileRun (d.tileOfTerm tid) = true ∧ (d.advanceTo ((d.ponKey tid).reqAt + rawS 1)).inService
       tid = true →
     Becomes (.ponKeyRetry tid) d
       (Dev.ponAsk ((d.advanceTo ((d.ponKey tid).reqAt + rawS 1)).setPon tid
          { d.ponKey tid with req := (d.ponKey tid).req + 1, reqAt := (d.advanceTo ((d.ponKey tid).reqAt + rawS 1)).now }) tid)) ∧
  (∀ (d : Dev) (tid : Nat),
     (d.ponKey tid).req = 3 ∧ d.tileRun (d.tileOfTerm tid) = true ∧ (d.advanceTo ((d.ponKey tid).reqAt + rawS 1)).inService tid = true →
     Becomes (.ponKeyRetry tid) d ((d.advanceTo ((d.ponKey tid).reqAt + rawS 1)).ponFailed tid)) ∧
  (∀ (d : Dev) (tid : Nat) (s : Nat) (t : Raw),
     (d.ponKey tid).oldSlot = some s ∧ (d.ponKey tid).zeroAt = some t →
     Becomes (.ponOldKeyZeroise tid) d
       (((d.advanceTo t).setPon tid (if s = 0 then { d.ponKey tid with key0 := none, oldSlot := none, zeroAt := none, zeroFrame := none } else
          { d.ponKey tid with key1 := none, oldSlot := none, zeroAt := none, zeroFrame := none })).ponBus 1 tid s))

/-- O17. Class 0x05: routes, cells, profiles, trains, positions, events, sources, status (R225, R226, R227, R228, R229, R232, R239, R244, R246,
R250, R503). CMD_FM_ROUTE lists or removes a route on which no train is; CMD_FM_CELL and CMD_FM_EVENT, each in its creating and its deleting
form, and CMD_FM_PROFILE queue what takes effect at the frame of the change; CMD_FM_TRAIN_BIND binds a free slot or gives a bound train its
next profile; CMD_FM_TRAIN_CLEAR frees a slot, with its engagements released. CMD_FM_POSITION takes its records in order and answers one
reason each. CMD_FM_SOURCE binds a source to its slot, and CMD_FM_STATUS answers a cell's trains. It rests on choices of the model: log 15. -/
def Obligations.FollowMeCommandsSetTheCorridor : Prop :=
  (Answers .cmdFmRoute specFmRoute
     (fun c d =>
        c.tgt ≤ 255 ∧ d.fm.trains.any (fun e => e.2.last.any (fun r => r.route = c.tgt)) = false ∧ (c.u8 0 = 1 ∧ mhas d.fm.routes c.tgt = true ∨ c.u8
          0 = 0 ∧ c.u8 1 ≤ 4 ∧ c.u32 4 ≠ 0 ∧ (List.range (c.u8 1)).any (fun i => 1 < c.u8 (8 + 8 * i) || 1 < c.u8 (10 + 8 * i)) = false))
     (fun c d =>
        { d with
          fm :=
            { d.fm with
              routes :=
                if c.u8 0 = 1 then mdel d.fm.routes c.tgt else mput d.fm.routes c.tgt
                  {
                    len := c.u32 4,
                    links :=
                      (List.range (c.u8 1)).map (fun i =>
                        { high := c.u8 (8 + 8 * i) = 1, route := c.u8 (9 + 8 * i), rev := c.u8 (10 + 8 * i) = 1, atT := c.u32 (12 + 8 * i) }) } } })
     (fun _ _ => [])) ∧
  (Answers .cmdFmCell specFmCell
     (fun c d =>
        c.tgt ≤ 16383 ∧ c.u8 0 = 0 ∧ 1 ≤ c.u8 3 ∧ c.u8 3 ≤ 16 ∧ c.u8 2 ≤ 63 ∧ c.u32 4 < c.u32 8 ∧ mhas d.fm.routes (c.u8 1) = true ∧ ((List.range
          (c.u8 3)).map (fun i => c.u16 (12 + 2 * i))).any (fun t => d.nTerms ≤ t) = false ∧ ((List.range (c.u8 3)).map (fun i => c.u16 (12 + 2 *
          i))).any (fun t => !mhas d.terms t || d.notRun (d.tileOfTerm t)) = false ∧ (d.cellTiles
          { route := c.u8 1, lo := c.u32 4, hi := c.u32 8, floor := c.u8 2, tids := (List.range (c.u8 3)).map (fun i => c.u16 (12 + 2 * i)) }).any
          (fun t => 2048 ≤ d.partsOn c.tgt t) = false)
     (fun c d =>
        { d with
          fm :=
            { d.fm with
              cellNext :=
                d.fm.cellNext ++ [(d.effFrame, c.tgt, some
                  {
                    route := c.u8 1, lo := c.u32 4, hi := c.u32 8, floor := c.u8 2,
                    tids := (List.range (c.u8 3)).map (fun i => c.u16 (12 + 2 * i)) })] } })
     (fun _ _ => [])) ∧
  (Answers .cmdFmCell specFmCell
     (fun c d => c.tgt ≤ 16383 ∧ c.u8 0 = 1 ∧ (d.cellLatest c.tgt).isSome = true)
     (fun c d => { d with fm := { d.fm with cellNext := d.fm.cellNext ++ [(d.effFrame, c.tgt, none)] } }) (fun _ _ => [])) ∧
  (Answers .cmdFmProfile specFmProfile
     (fun c d =>
        c.tgt ≤ 63 ∧ 100 ≤ c.u16 0 ∧ c.u16 0 ≤ 15000 ∧ c.u16 2 ≤ 15000 ∧ c.u16 4 ≤ 60000 ∧ c.u8 6 ≤ 8 ∧ (List.range (c.u8 6)).any (fun i => c.u32 (16
          + 20 * i) < c.u32 (12 + 20 * i) || c.u32 (24 + 20 * i) < c.u32 (20 + 20 * i)) = false)
     (fun c d =>
        { d with
          fm :=
            { d.fm with
              profNext :=
                d.fm.profNext ++ [(d.effFrame, c.tgt,
                  {
                    vMax := c.u16 0, vRev := c.u16 2, lead := c.u16 4,
                    entries :=
                      (List.range (c.u8 6)).map (fun i =>
                        {
                          sdom := c.u8 (8 + 20 * i), upA := c.u32 (12 + 20 * i), upP := c.u32 (16 + 20 * i), dnA := c.u32 (20 + 20 * i),
                          dnP := c.u32 (24 + 20 * i) }) })] } })
     (fun _ _ => [])) ∧
  (Answers .cmdFmTrainBind specFmTrainBind
     (fun c d =>
        c.tgt ≤ 1023 ∧ c.u8 3 ≤ 63 ∧ d.tileRun (c.tgt % d.nTiles) = true ∧ mget d.fm.trains c.tgt = none ∧ d.fm.trains.any (fun e => e.2.train = c.u24
          0) = false)
     (fun c d => d.setTrain c.tgt { train := c.u24 0, profile := c.u8 3, st := .bound }) (fun _ _ => [])) ∧
  (Answers .cmdFmTrainBind specFmTrainBind
     (fun c d => c.tgt ≤ 1023 ∧ c.u8 3 ≤ 63 ∧ d.tileRun (c.tgt % d.nTiles) = true ∧ mhas d.fm.trains c.tgt = true ∧ (d.fmTrain c.tgt).train = c.u24 0)
     (fun c d => d.setTrain c.tgt { d.fmTrain c.tgt with profNext := some (c.u8 3) }) (fun _ _ => [])) ∧
  (Answers .cmdFmTrainClear specFmTrainClear
     (fun c d => c.tgt ≤ 1023 ∧ d.tileRun (c.tgt % d.nTiles) = true ∧ mhas d.fm.trains c.tgt = true)
     (fun c d =>
        Dev.fmApply
          { (d.fmTrain c.tgt).engaged.foldl (fun d e => d.count .releases (e.1 / 8)) d with
            fm :=
              { ((d.fmTrain c.tgt).engaged.foldl (fun d e => d.count .releases (e.1 / 8)) d).fm with
                trains := mdel ((d.fmTrain c.tgt).engaged.foldl (fun d e => d.count .releases (e.1 / 8)) d).fm.trains c.tgt } })
     (fun _ _ => [])) ∧
  (Answers .cmdFmPosition specFmPosition
     (fun _ _ => True) (fun c d => (d.fmTakeAll (records c.params 0 (c.params.length / 32)) false).2)
     (fun c d => padBytes ((d.fmTakeAll (records c.params 0 (c.params.length / 32)) false).1.flatMap (fun r => leBytes 1 r)))) ∧
  (Answers .cmdFmEvent specFmEvent
     (fun c d =>
        c.tgt ≤ 8191 ∧ c.u8 0 = 0 ∧ c.u8 8 ≤ 2 ∧ c.u8 9 ≤ 2 ∧ mhas d.fm.routes (c.u8 1) = true ∧ (c.u8 9 = 0 → c.u16 10 < d.nTerms ∧ mhas d.terms
          (c.u16 10) = true ∧ d.tileRun (d.tileOfTerm (c.u16 10)) = true) ∧ (c.u8 9 = 1 → c.u16 10 ≤ 16383 ∧ c.u16 12 ≤ 3600 ∧ (d.cellLatest (c.u16
          10)).isSome = true))
     (fun c d =>
        { d with
          fm :=
            { d.fm with
              evNext :=
                d.fm.evNext ++ [(d.effFrame, c.tgt, some
                  { route := c.u8 1, c := c.u32 4, dir := c.u8 8, act := c.u8 9, arg := c.u16 10, hold := if c.u16 12 = 0 then 60 else c.u16 12 })] }
              })
     (fun _ _ => [])) ∧
  (Answers .cmdFmEvent specFmEvent
     (fun c d => c.tgt ≤ 8191 ∧ c.u8 0 = 1 ∧ (d.eventLatest c.tgt).isSome = true)
     (fun c d => { d with fm := { d.fm with evNext := d.fm.evNext ++ [(d.effFrame, c.tgt, none)] } }) (fun _ _ => [])) ∧
  (Answers .cmdFmSource specFmSource
     (fun c d => c.tgt ≤ 63 ∧ d.slotUsable (c.u8 0) 3 = true)
     (fun c d =>
        { d with
          fm :=
            { d.fm with
              sources :=
                mput d.fm.sources c.tgt
                  { mgetD d.fm.sources c.tgt {} with slot := c.u8 0, slotW := (d.pslot (c.u8 0)).wcount, port := c.u16 2, enabled := c.bit 4 0 } } })
     (fun _ _ => [])) ∧
  (Answers .cmdFmStatus specFmStatus
     (fun c d => c.u8 0 = 1 ∧ c.tgt ≤ 16383 ∧ mhas d.fm.cells c.tgt = true) (fun _ d => d)
     (fun c d =>
        leBytes 1 (b2n (!(d.cellTrains c.tgt).isEmpty)) ++ zeroBytes 1 ++ leBytes 2 (d.cellTrains c.tgt).length ++ ((d.cellTrains c.tgt).take
          400).flatMap (fun x => leBytes 2 x.1 ++ leBytes 1 (b2n x.2.1 + 2 * b2n x.2.2) ++ zeroBytes 1 ++ leBytes 4 (((d.fm.clips.filter (fun y =>
          y.2.1 = x.1 && y.2.2.1 = c.tgt)).map (fun y => y.2.2.2)).foldl (· + ·) 0))))

/-- O18. Telegrams, remote and held reports, the band's publication, stale and lost trains, holds (R230, R231, R232, R234, R236, R243, R244,
R246, R249). A telegram of an enabled source with the right CMAC, a sequence number above the last one accepted and a right form has its
records taken in order and its number kept; one whose number is not above is counted as a replay and changes nothing else. A remote report
on no route known is counted and dropped; one that finds its slot on a running tile is processed. A held report is processed 10 ms after the
last one. Bands are published at the next whole millisecond. A train in tracking goes stale after t_stale; one in tracking or stale is lost
after t_lost, and its parts are released and go into its floor hold; the floor hold of a lost train and the pre-engagements of a cell end at
their instants. It rests on choices of the model: log 4. -/
def Obligations.TrainsAreFollowedAndLost : Prop :=
  (∀ (d : Dev) (port : Nat) (payload : List Byte) (s : FmSource),
     mget d.fm.sources (natAt payload 4 1) = some s ∧ s.enabled = true ∧ s.port = port ∧ d.ready = true ∧ (d.pslot s.slot).kind = 3 ∧ (d.pslot
       s.slot).stale = false ∧ s.slotW = (d.pslot s.slot).wcount ∧ d.cru.ready = true ∧ payload.length = 32 + 32 * natAt payload 3 1 ∧ 1 ≤ natAt
       payload 3 1 ∧ natAt payload 3 1 ≤ 40 ∧ payload.drop (payload.length - 16) = cmac (d.pslot s.slot).key (payload.take (payload.length - 16)) ∧
       s.seq.any (fun q => natAt payload 8 8 ≤ q) = false ∧ natAt payload 0 2 = 0x5F3A ∧ natAt payload 2 1 = 1 →
     Becomes (.positionTelegramRx port payload) d
       ((Dev.fmTakeAll { d with fm := { d.fm with sources := mput d.fm.sources (natAt payload 4 1) { s with seq := some (natAt payload 8 8) } } }
          (records payload 16 (natAt payload 3 1)) true).2)) ∧
  (∀ (d : Dev) (port : Nat) (payload : List Byte) (s : FmSource),
     mget d.fm.sources (natAt payload 4 1) = some s ∧ s.enabled = true ∧ s.port = port ∧ d.ready = true ∧ (d.pslot s.slot).kind = 3 ∧ (d.pslot
       s.slot).stale = false ∧ s.slotW = (d.pslot s.slot).wcount ∧ d.cru.ready = true ∧ 16 ≤ payload.length ∧ payload.drop (payload.length - 16) =
       cmac (d.pslot s.slot).key (payload.take (payload.length - 16)) ∧ s.seq.any (fun q => natAt payload 8 8 ≤ q) = true →
     Becomes (.positionTelegramRx port payload) d (d.count .telegramReplay (natAt payload 4 1))) ∧
  (∀ (d : Dev) (record : List Byte) (profile : Nat),
     d.ready = true ∧ mhas d.fm.routes (reportOf record).route = false →
     Becomes (.remoteReportRx record profile) d ((d.count .remoteReceived fmDevice).count .remoteOffroute fmDevice)) ∧
  (∀ (d : Dev) (record : List Byte) (profile : Nat) (trn : Nat) (e : Dev),
     d.ready = true ∧ mhas d.fm.routes (reportOf record).route = true ∧ (d.count .remoteReceived fmDevice).fmPlace (reportOf record) = 0 ∧ (d.count
       .remoteReceived fmDevice).fmSlot (reportOf record).train profile = some (trn, e) ∧ e.tileRun (e.fmHome trn) = true →
     Becomes (.remoteReportRx record profile) d ((e.fmProcess trn (reportOf record) true).2)) ∧
  (∀ (d : Dev) (trn : Nat) (r : FmReport) (t : Raw),
     (d.fmTrain trn).held = some r ∧ (d.fmTrain trn).procAt = some t ∧ d.tileRun (d.fmHome trn) = true →
     Becomes (.heldReportRelease trn) d ((d.advanceTo (t + rawMs 10)).fmDue trn)) ∧
  (∀ (d : Dev), d.ready = true → Becomes .bandPublish d ((d.advanceTo (d.rawReach ((d.netU / 65536000000 + 1) * 65536000000))).fmLoad.fmPublishAll)) ∧
  (∀ (d : Dev) (trn : Nat),
     (d.fmTrain trn).st = .tracking ∧ d.ready = true →
     Becomes (.trainStale trn) d
       (((d.advanceTo ((d.fmTrain trn).lastAt + rawMs d.tStaleMs)).setTrain trn { d.fmTrain trn with st := .stale }).notify 0x8580 trn (d.fmTrain
          trn).note)) ∧
  (∀ (d : Dev) (trn : Nat) (x : FmTrain) (a b : Dev),
     x = d.fmTrain trn ∧ (x.st = .tracking ∨ x.st = .stale) ∧ d.ready = true ∧ d.tileRun (d.fmHome trn) = true ∧ a = (x.engaged.map (fun e =>
       e.1)).foldl (fun d p => d.count .releases (p / 8)) (d.advanceTo (x.lastAt + rawS d.tLostS)) ∧ b = a.floorMissed a.fmHolds (x.engaged.map (fun e
       => e.1)) →
     Becomes (.trainLost trn) d
       ((((b.setTrain trn
          { x with
            st := .lost, band := [], engaged := [], pre := [], headPrev := [], fired := [], floor := x.engaged.map (fun e => e.1), lostAt := b.now,
            firstRep := true }).count .trainsLost fmDevice).notify 0x8581 trn x.note).fmApply)) ∧
  (∀ (d : Dev) (trn : Nat),
     (d.fmTrain trn).st = .lost ∧ (d.fmTrain trn).floor ≠ [] ∧ d.lostHoldS ≠ 0 ∧ d.ready = true →
     Becomes (.floorHoldEnd trn) d
       (((d.advanceTo ((d.fmTrain trn).lostAt + rawS d.lostHoldS)).setTrain trn { d.fmTrain trn with floor := [] }).fmApply)) ∧
  (∀ (d : Dev) (trn : Nat) (cell : Nat) (p : Nat × Raw) (ps : List (Nat × Raw)),
     (d.fmTrain trn).pre.filter (fun e => e.1 / 8 = cell) = p :: ps ∧ d.ready = true ∧ d.tileRun (d.fmHome trn) = true →
     Becomes (.preEngageHoldEnd trn cell) d (((p :: ps).foldl (fun d e => d.fmRelease trn e.1) (d.advanceTo p.2)).fmApply))

/-- O19. Class 0x06: records, searches, flushes, table and profile settings (R254, R255, R256, R263, R264, R267, R276, R277, R281, R282, R29).
CMD_TABLE_INSERT, CMD_TABLE_DELETE and CMD_TABLE_LOOKUP, where every record succeeds, apply them in order and answer what the lookups find.
CMD_TABLE_SEARCH answers the first 56 matches and keeps the lowest free cursor when more follow, CMD_TABLE_NEXT the next ones and frees the
cursor at the last. CMD_TABLE_FLUSH_PORT deletes an owner's learned entries in a table or in all of them and completes later.
CMD_TABLE_CONFIG creates a table with the buckets its tiles have free, with a seed drawn where it is 0, sets an age, or destroys a table
that no profile uses. CMD_KEY_PROFILE, CMD_LOOKUP_LIST, CMD_SPREAD_GROUP, CMD_MIRROR_SESSION and CMD_CLS_PORT set what classification uses,
and CMD_TABLE_STATUS answers the entries and counters. It rests on choices of the model: logs 8, 15. -/
def Obligations.TableCommandsActOnTables : Prop :=
  (Answers .cmdTableInsert specTableInsert
     (fun c d => d.tabNamed c.tgt = true ∧ Dev.allRecords c d (Dev.insertRec c.tgt (bitN c.records.2.1 0)) = true)
     (fun c d => (eachRecord (Dev.insertRec c.tgt (bitN c.records.2.1 0)) c.records.1 c.records.2.2 0 [] d).2.2.2)
     (fun c d => (eachRecord (Dev.insertRec c.tgt (bitN c.records.2.1 0)) c.records.1 c.records.2.2 0 [] d).2.2.1)) ∧
  (Answers .cmdTableDelete specTableDelete
     (fun c d => d.tabNamed c.tgt = true ∧ Dev.allRecords c d (Dev.deleteRec c.tgt) = true)
     (fun c d => (eachRecord (Dev.deleteRec c.tgt) c.records.1 c.records.2.2 0 [] d).2.2.2)
     (fun c d => (eachRecord (Dev.deleteRec c.tgt) c.records.1 c.records.2.2 0 [] d).2.2.1)) ∧
  (Answers .cmdTableLookup specTableLookup
     (fun c d => d.tabNamed c.tgt = true ∧ Dev.allRecords c d (Dev.lookupRec c.tgt) = true)
     (fun c d => (eachRecord (Dev.lookupRec c.tgt) c.records.1 c.records.2.2 0 [] d).2.2.2)
     (fun c d => (eachRecord (Dev.lookupRec c.tgt) c.records.1 c.records.2.2 0 [] d).2.2.1)) ∧
  (Answers .cmdTableSearch specTableSearch
     (fun c d => d.tabNamed c.tgt = true ∧ (lowestFree (d.cursors.map (fun e => e.1)) 0 4).isSome = true)
     (fun c d =>
        if (d.matches56 { table := c.tgt, value := c.bs 0 32, mask := c.bs 32 32, lastAt := d.now }).2 then
          { d with
            cursors :=
              mput d.cursors ((lowestFree (d.cursors.map (fun e => e.1)) 0 4).getD 0)
                {
                  table := c.tgt, value := c.bs 0 32, mask := c.bs 32 32, lastAt := d.now,
                  pos :=
                    ((d.matches56 { table := c.tgt, value := c.bs 0 32, mask := c.bs 32 32, lastAt := d.now }).1.getLast?.map (fun x => x.1 + 1)).getD
                      0 } } else d)
     (fun c d =>
        matchBody ((lowestFree (d.cursors.map (fun e => e.1)) 0 4).getD 0) c.tgt (d.matches56
          { table := c.tgt, value := c.bs 0 32, mask := c.bs 32 32, lastAt := d.now }).1 (d.matches56
          { table := c.tgt, value := c.bs 0 32, mask := c.bs 32 32, lastAt := d.now }).2)) ∧
  (Answers .cmdTableNext specTableNext
     (fun c d => c.tgt < 4 ∧ mhas d.cursors c.tgt = true ∧ d.tabNamed (mgetD d.cursors c.tgt {}).table = true)
     (fun c d =>
        { d with
          cursors :=
            if (d.matches56 (mgetD d.cursors c.tgt {})).2 then mput d.cursors c.tgt
              { mgetD d.cursors c.tgt {} with
                pos := ((d.matches56 (mgetD d.cursors c.tgt {})).1.getLast?.map (fun x => x.1 + 1)).getD (mgetD d.cursors c.tgt {}).pos,
                lastAt := d.now } else mdel d.cursors c.tgt })
     (fun c d =>
        matchBody c.tgt (mgetD d.cursors c.tgt {}).table (d.matches56 (mgetD d.cursors c.tgt {})).1 (d.matches56 (mgetD d.cursors c.tgt {})).2)) ∧
  (Starts .cmdTableFlushPort specTableFlushPort
     stAccepted (fun c d => d.tabNamed c.tgt = true ∧ c.tgt ≠ 0xFFFFFFFF ∧ c.u8 0 ≤ 3 ∧ d.ownerBad (c.u8 0) (c.u16 2) = stOk)
     (fun c d => d.flushOwner c.tgt (c.u8 0) (c.u16 2)) .flushPort (fun c d => 0)) ∧
  (Starts .cmdTableFlushPort specTableFlushPort
     stAccepted (fun c d => c.tgt = 0xFFFFFFFF ∧ c.u8 0 ≤ 3 ∧ d.ownerBad (c.u8 0) (c.u16 2) = stOk ∧ d.tables.any (fun e => !d.tabRun e.2) = false)
     (fun c d => (d.tables.map (fun e => e.1)).foldl (fun (d : Dev) t => d.flushOwner t (c.u8 0) (c.u16 2)) d) .flushPort (fun c d => 0)) ∧
  (Answers .cmdTableConfig specTableConfig
     (fun c d =>
        c.tgt < 64 ∧ c.u8 0 = 0 ∧ c.u8 1 ≠ 0 ∧ c.u8 1 < 2 ^ d.nTiles ∧ 4 ≤ c.u8 2 ∧ c.u8 2 ≤ 16 ∧ (c.u16 8 ≤ 255 ∨ c.u16 8 = 0xFFFF) ∧ mhas d.tables
          c.tgt = false ∧ d.tabRun
          {
            tiles := c.u8 1, n := c.u8 2, seed := BitVec.ofNat 32 (c.u32 4), owner := c.u16 8, sweepAt := d.now,
            cfg := BitVec.ofNat 32 (d.reg (0x600 + 4 * c.tgt)) } = true ∧ (Table.tileList
          {
            tiles := c.u8 1, n := c.u8 2, seed := BitVec.ofNat 32 (c.u32 4), owner := c.u16 8, sweepAt := d.now,
            cfg := BitVec.ofNat 32 (d.reg (0x600 + 4 * c.tgt)) }).any (fun i => d.bucketsFree i < 2 ^ c.u8 2) = false)
     (fun c d =>
        if c.u32 4 = 0 then
          { d.fresh.2 with
            tables :=
              mput d.tables c.tgt
                {
                  tiles := c.u8 1, n := c.u8 2, seed := BitVec.ofNat 32 (Config.freeNat d.freeCtr), owner := c.u16 8, sweepAt := d.now,
                  cfg := BitVec.ofNat 32 (d.reg (0x600 + 4 * c.tgt)) } } else
          { d with
            tables :=
              mput d.tables c.tgt
                {
                  tiles := c.u8 1, n := c.u8 2, seed := BitVec.ofNat 32 (c.u32 4), owner := c.u16 8, sweepAt := d.now,
                  cfg := BitVec.ofNat 32 (d.reg (0x600 + 4 * c.tgt)) } })
     (fun _ _ => [])) ∧
  (Answers .cmdTableConfig specTableConfig (fun c d => d.tabNamed c.tgt = true ∧ c.u8 0 = 1) (fun c d => d.setAge c.tgt (c.u32 12)) (fun _ _ => [])) ∧
  (Answers .cmdTableConfig specTableConfig
     (fun c d => d.tabNamed c.tgt = true ∧ c.u8 0 = 2 ∧ d.profiles.any (fun e => e.2.table = c.tgt) = false)
     (fun c d =>
        { d with
          tables := mdel d.tables c.tgt, cursors := d.cursors.filter (fun e => e.2.table ≠ c.tgt),
          cls :=
            d.cls.map (fun (k, x) => (k,
              { x with overflow := x.overflow.filter (fun e => e.2.1 ≠ c.tgt), learns := x.learns.filter (fun l => l.table ≠ c.tgt) })) })
     (fun _ _ => [])) ∧
  (Answers .cmdTableStatus specTableStatus
     (fun c d => d.tabNamed c.tgt = true) (fun _ d => d)
     (fun c d =>
        leBytes 4 ((d.tab c.tgt).slots.length + ((d.ovfEntries c.tgt (d.tab c.tgt)).length)) ++ leBytes 2 ((d.ovfEntries c.tgt (d.tab c.tgt)).length)
          ++ leBytes 2 0 ++ leBytes 8 (((d.tab c.tgt).tileList.map (fun i => d.cntVal .lookups (tabTileObj i c.tgt))).foldl (· + ·) 0) ++ leBytes 8
          (((d.tab c.tgt).tileList.map (fun i => d.cntVal .hits (tabTileObj i c.tgt))).foldl (· + ·) 0) ++ [Cnt.learned, Cnt.learnDrop, Cnt.moves,
          Cnt.staticViolation, Cnt.aged, Cnt.evicted].flatMap (fun k => leBytes 8 (d.cntVal k c.tgt)))) ∧
  (Answers .cmdKeyProfile specKeyProfile
     (fun c d =>
        c.tgt < 64 ∧ c.u8 1 ≤ 16 ∧ extsOk ((List.range (c.u8 1)).map (fun i => extOf (c.u8 (4 + 4 * i)) (c.u8 (5 + 4 * i)) (c.u8 (6 + 4 * i)) (c.u8 (7
          + 4 * i)))) = true ∧ (c.bit (4 + 4 * c.u8 1) 0 = true → d.actBad (c.bs (8 + 4 * c.u8 1) 24) true = stOk) ∧ d.tabNamed (c.u8 0) = true)
     (fun c d =>
        { d with
          profiles :=
            mput d.profiles c.tgt
              {
                table := c.u8 0,
                exts := (List.range (c.u8 1)).map (fun i => extOf (c.u8 (4 + 4 * i)) (c.u8 (5 + 4 * i)) (c.u8 (6 + 4 * i)) (c.u8 (7 + 4 * i))),
                learn := c.bit (4 + 4 * c.u8 1) 0, tmpl := c.bs (8 + 4 * c.u8 1) 24 } })
     (fun _ _ => [])) ∧
  (Answers .cmdLookupList specLookupList
     (fun c d =>
        c.tgt < 256 ∧ 1 ≤ c.u8 0 ∧ c.u8 0 ≤ 8 ∧ ((List.range (c.u8 0)).map (fun i => c.u8 (1 + i))).any (fun p => 64 ≤ p) = false ∧ d.actBad (c.bs 12
          24) = stOk ∧ ((List.range (c.u8 0)).map (fun i => c.u8 (1 + i))).any (fun p => !mhas d.profiles p) = false)
     (fun c d => { d with lookups := mput d.lookups c.tgt { profiles := (List.range (c.u8 0)).map (fun i => c.u8 (1 + i)), dflt := c.bs 12 24 } })
     (fun _ _ => [])) ∧
  (Answers .cmdSpreadGroup specSpreadGroup
     (fun c d =>
        c.tgt < 128 ∧ 1 ≤ c.u8 0 ∧ c.u8 0 ≤ 64 ∧ ((List.range (c.u8 0)).map (fun i => (c.u8 (2 + 2 * i), c.u8 (3 + 2 * i)))).any (fun x => 1 < x.1) =
          false ∧ ((List.range (c.u8 0)).map (fun i => (c.u8 (2 + 2 * i), c.u8 (3 + 2 * i)))).any (fun x => if x.1 = 0 then d.nSubs ≤ x.2 else match
          memberTile x.2 with | none => 15 < x.2 | some t => d.nTiles ≤ t) = false ∧ ((List.range (c.u8 0)).map (fun i => (c.u8 (2 + 2 * i), c.u8 (3 +
          2 * i)))).any (fun x => if x.1 = 0 then d.notRun (tileOfSub x.2) else (memberTile x.2).any d.notRun) = false ∧ ((c.bs (pad4 (2 + 2 * c.u8
          0)) 512).map (fun b => b.toNat)).any (fun i => c.u8 0 ≤ i) = false ∧ ((spreadLens.zipIdx).map (fun (l, i) => if (c.u16 (pad4 (2 + 2 * c.u8
          0) + 512)).testBit i then l else 0)).foldl (· + ·) 0 ≤ 36)
     (fun c d =>
        { d with
          spreads :=
            mput d.spreads c.tgt
              {
                members := (List.range (c.u8 0)).map (fun i => (c.u8 (2 + 2 * i), c.u8 (3 + 2 * i))),
                indir := (c.bs (pad4 (2 + 2 * c.u8 0)) 512).map (fun b => b.toNat), fields := c.u16 (pad4 (2 + 2 * c.u8 0) + 512),
                key := c.bs (pad4 (2 + 2 * c.u8 0) + 514) 40,
                live :=
                  d.liveTable
                    {
                      members := (List.range (c.u8 0)).map (fun i => (c.u8 (2 + 2 * i), c.u8 (3 + 2 * i))),
                      indir := (c.bs (pad4 (2 + 2 * c.u8 0)) 512).map (fun b => b.toNat), fields := c.u16 (pad4 (2 + 2 * c.u8 0) + 512),
                      key := c.bs (pad4 (2 + 2 * c.u8 0) + 514) 40 } } })
     (fun _ _ => [])) ∧
  (Answers .cmdMirrorSession specMirrorSession
     (fun c d =>
        1 ≤ c.tgt ∧ c.tgt ≤ 15 ∧ (c.u8 0 = 0 ∨ c.u8 0 = 2 ∨ c.u8 0 = 6) ∧ d.fwdOut (c.u8 0) (c.u32 4) = false ∧ (d.fwdTile (c.u8 0) (c.u32 4)).any
          d.notRun = false ∧ (c.u16 8 = 0 ∨ 64 ≤ c.u16 8 ∧ c.u16 8 ≤ 16000))
     (fun c d => { d with mirrors := mput d.mirrors c.tgt { kind := c.u8 0, target := c.u32 4, trunc := c.u16 8 } }) (fun _ _ => [])) ∧
  (Answers .cmdClsPort specClsPort
     (fun c d =>
        c.u8 0 ≤ 1 ∧ c.u8 2 ≤ 15 ∧ mhas d.lookups (c.u8 1) = true ∧ (c.u8 0 = 0 → c.tgt < d.nSubs ∧ d.tileRun (tileOfSub c.tgt) = true) ∧ (c.u8 0 = 1
          → d.chanOk c.tgt = true ∧ d.tileRun (tileOfChan c.tgt) = true))
     (fun c d =>
        if c.u8 0 = 0 then { d with binds := mput d.binds c.tgt { lookup := some (c.u8 1), mirror := c.u8 2, sdom := c.u8 3 } } else d.updChan c.tgt
          (fun x => { x with lookup := some (c.u8 1), mirror := c.u8 2 }))
     (fun _ _ => []))

/-- O20. The table-access window, learning, updates of other tiles, ageing, cursors, flushes and lines (R267, R269, R270, R272, R274, R276,
R278, R282, R283). A window operation on an idle window starts it busy with the result it will show, and TAC_OP_DONE shows it; INSERT while
busy sets the collision flag only. The oldest learn of a tile and an update of another tile are inserted unless an entry stands against
them. A sweep ends a tick, counts and removes what is too old and brings overflow entries back. A cursor left for 10 s is freed,
FLUSH_PORT_DONE completes the flush, and a sub-port's line going down or up repoints the spread groups, going down with the flushes that are
asked for. It rests on choices of the model: log 4. -/
def Obligations.TablesAreAccessedLearnedAndAged : Prop :=
  (∀ (d : Dev) (table : Nat) (noEvict : Bool), d.variant ≠ .thz8 ∧ d.ready = true ∧ d.tac.busy = false ∧ mhas d.tables table = true ∧ d.tabRun (d.tab table) = true → Becomes (.insert table noEvict) d ({ (d.tacPut table d.tac.key noEvict true { d.tac with found := false, replaced := false, evicted := false, result := stOk }).2 with
       tac := { (d.tacPut table d.tac.key noEvict true { d.tac with found := false, replaced := false, evicted := false, result := stOk }).2.tac with busy := true }
       tacDone := (d.tacPut table d.tac.key noEvict true { d.tac with found := false, replaced := false, evicted := false, result := stOk }).1 })) ∧
  (∀ (d : Dev) (table : Nat) (noEvict : Bool),
     d.variant ≠ .thz8 ∧ d.ready = true ∧ d.tac.busy = true →
     Becomes (.insert table noEvict) d ({ d with tac := { d.tac with collision := true } })) ∧
  (∀ (d : Dev) (table : Nat) (e : TEntry),
     d.variant ≠ .thz8 ∧ d.ready = true ∧ d.tac.busy = false ∧ mhas d.tables table = true ∧ d.tabRun (d.tab table) = true ∧ d.tabAny table (d.tab
       table) d.tac.key = some e →
     Becomes (.delete table) d
       ({ (d.tabDel table d.tac.key).hostChange table d.tac.key with
          tac := { d.tac with busy := true }, tacDone := { d.tac with found := true, replaced := false, evicted := false, result := stOk } })) ∧
  (∀ (d : Dev) (table : Nat) (e : TEntry),
     d.variant ≠ .thz8 ∧ d.ready = true ∧ d.tac.busy = false ∧ mhas d.tables table = true ∧ d.tabRun (d.tab table) = true ∧ d.tabHome table (d.tab
       table) d.tac.key = some e →
     Becomes (.lookup table) d
       ({ d with
          tac := { d.tac with busy := true },
          tacDone :=
            { d.tac with
              found := true, replaced := false, evicted := false, result := stOk, act := e.act, metad := e.metaBytes table,
              index := BitVec.ofNat 32 (d.tabIndex table d.tac.key) } })) ∧
  (∀ (d : Dev) (table : Nat) (e : TEntry),
     d.variant ≠ .thz8 ∧ d.ready = true ∧ d.tac.busy = false ∧ mhas d.tables table = true ∧ d.tabRun (d.tab table) = true ∧ d.tacSlot table (d.tab
       table) d.tac = some e →
     Becomes (.readIndex table) d
       ({ d with
          tac := { d.tac with busy := true },
          tacDone :=
            { d.tac with found := true, replaced := false, evicted := false, result := stOk, key := e.key, act := e.act, metad := e.metaBytes table }
              })) ∧
  (∀ (d : Dev) (table : Nat)  (e : TEntry), d.variant ≠ .thz8 ∧ d.ready = true ∧ d.tac.busy = false ∧ mhas d.tables table = true ∧ d.tabRun (d.tab table) = true ∧ d.tacSlot table (d.tab table) d.tac = some e → Becomes (.writeIndex table) d ({ (d.tacPut table e.key true false { d.tac with found := false, replaced := false, evicted := false, result := stOk }).2 with
       tac := { (d.tacPut table e.key true false { d.tac with found := false, replaced := false, evicted := false, result := stOk }).2.tac with busy := true }
       tacDone := (d.tacPut table e.key true false { d.tac with found := false, replaced := false, evicted := false, result := stOk }).1 })) ∧
  (∀ (d : Dev), d.tac.busy = true → Becomes .tacOpDone d ({ d with tac := { d.tacDone with busy := false, collision := d.tac.collision } })) ∧
  (∀ (d : Dev) (tile : Nat) (l : Learn) (ls : List Learn) (e : Dev),
     (d.clsTile tile).learns = l :: ls ∧ d.tileRun tile = true ∧ e = d.updCls tile (fun c => { c with learns := ls }) ∧ mhas e.tables l.table = true ∧
       (e.tab l.table).hostKeys.any (fun x => x.1 = l.key && x.2 = e.frame) = false ∧ (e.tabAny l.table (e.tab l.table) l.key).any (fun x =>
       e.learnStands (e.tab l.table) x l.atT tile) = false →
     Becomes (.learnApply tile) d
       (match e.tabInsert l.table { key := l.key, act := l.act, learned := true, okind := l.okind, owner := l.owner, seq := l.atT } false with
        | (.failed, e) => e.count .learnDrop l.table
        | (_, e) => e.count .learned l.table)) ∧
  (∀ (d : Dev) (tile : Nat) (u : TableUpdate),
     mhas d.tables u.table = true ∧ d.tileRun tile = true ∧ (d.tab u.table).tiles.testBit tile = true ∧ (d.tabAny u.table (d.tab u.table) u.key).any
       (fun x => d.learnStands (d.tab u.table) x u.stamp u.tileFrom) = false →
     Becomes (.tableUpdateRx tile u) d
       ((d.tabInsert u.table { key := u.key, act := u.act, learned := true, okind := u.okind, owner := u.owner, seq := u.stamp } false).2)) ∧
  (∀ (d : Dev) (table : Nat) (a : Dev) (t : Table) (n : Nat),
     mhas d.tables table = true ∧ d.ageTickMs table ≠ 0 ∧ d.ready = true ∧ a = d.advanceTo ((d.tab table).sweepAt + rawMs (d.ageTickMs table)) ∧ t =
       { d.tab table with epoch := ((d.tab table).epoch + 1) % 256, sweepAt := a.now, cfg := BitVec.ofNat 32 (a.reg (0x600 + 4 * table)) } ∧ n =
       (t.slots.filter (fun s => a.tooOld t s.2)).length + ((a.ovfEntries table t).filter (fun x => a.tooOld t x)).length →
     Becomes (.ageingSweep table) d
       ((fun (e : Dev) => (if n = 0 then e else e.count .aged table n).ovfReturn table)
          { a with
            tables := mput a.tables table { t with slots := t.slots.filter (fun s => !a.tooOld t s.2) },
            cls := a.cls.map (fun (k, c) => (k, { c with overflow := c.overflow.filter (fun e => !(e.2.1 = table && a.tooOld t e.2.2)) })) })) ∧
  (∀ (d : Dev) (cursor : Nat),
     mhas d.cursors cursor = true →
     Becomes (.cursorTimeout cursor) d
       ({ d.advanceTo ((mgetD d.cursors cursor {}).lastAt + rawS 10) with
          cursors := mdel (d.advanceTo ((mgetD d.cursors cursor {}).lastAt + rawS 10)).cursors cursor })) ∧
  (∀ (d : Dev), Becomes .flushPortDone d (d.complete .flushPort 0 stOk)) ∧
  (∀ (d : Dev) (sub : Nat),
     sub < d.nSubs ∧ (d.sub sub).up = true →
     Becomes (.subportDown sub) d
       ((d.tables.map (fun e => e.1)).foldl (fun d t => if d.flushOnDown t then d.flushOwner t 2 sub else d) ((d.updSub sub (fun x =>
          { x with up := false })).respread))) ∧
  (∀ (d : Dev) (sub : Nat),
     sub < d.nSubs ∧ (d.sub sub).enabled = true ∧ d.tileRun (tileOfSub sub) = true →
     Becomes (.subportUp sub) d ((d.updSub sub (fun x => { x with up := true })).respread))

/-- O21. The passes of a frame through the classifier (R252, R254, R257, R259, R284). A frame of an enabled sub-port whose lookup list is bound
has its parse flags counted and makes one pass with the sub-port's mirror session; one with no list bound is counted as having no forward
action. The oldest frame that waits in a pipe leaves it, is counted and makes its second pass with what its first pass left. -/
def Obligations.FramesAreClassified : Prop :=
  (∀ (d : Dev) (g : Ingress) (frame : List Byte) (l : Nat),
     g.channel = false ∧ g.handle < d.nSubs ∧ (d.sub g.handle).enabled = true ∧ d.tileRun (tileOfSub g.handle) = true ∧ (mgetD d.binds g.handle
       {}).lookup = some l →
     Becomes (.frameClassify g frame) d
       ((d.parseCounts (tileOfSub g.handle) (d.parse frame)).pass
          {
            tile := tileOfSub g.handle, pipe := g.pipe % 2, handle := g.handle, gem := g.gem, tid := g.tid, aid := g.aid,
            sdom := (mgetD d.binds g.handle {}).sdom } l frame none (mgetD d.binds g.handle {}).mirror)) ∧
  (∀ (d : Dev) (g : Ingress) (frame : List Byte),
     g.channel = false ∧ g.handle < d.nSubs ∧ (d.sub g.handle).enabled = true ∧ d.tileRun (tileOfSub g.handle) = true ∧ (mgetD d.binds g.handle
       {}).lookup = none →
     Becomes (.frameClassify g frame) d ((d.parseCounts (tileOfSub g.handle) (d.parse frame)).count .noForward (tileOfSub g.handle))) ∧
  (∀ (d : Dev) (tile : Nat) (pipe : Nat) (w : Waiting) (ws : List Waiting),
     pipe % 2 = 0 ∧ (d.clsTile tile).recirc0 = w :: ws ∧ d.tileRun tile = true →
     Becomes (.secondPass tile pipe) d
       (((d.updCls tile (fun c => { c with recirc0 := ws })).count .recirc tile).pass
          {
            tile := tile, pipe := 0, channel := w.ingKind = 1, handle := w.ing, gem := w.gem, tid := w.tid, aid := w.aid, sdom := w.sdom,
            second := true, hits := w.hits } w.list w.frame (some w.acts) 0)) ∧
  (∀ (d : Dev) (tile : Nat) (pipe : Nat) (w : Waiting) (ws : List Waiting),
     pipe % 2 = 1 ∧ (d.clsTile tile).recirc1 = w :: ws ∧ d.tileRun tile = true →
     Becomes (.secondPass tile pipe) d
       (((d.updCls tile (fun c => { c with recirc1 := ws })).count .recirc tile).pass
          {
            tile := tile, pipe := 1, channel := w.ingKind = 1, handle := w.ing, gem := w.gem, tid := w.tid, aid := w.aid, sdom := w.sdom,
            second := true, hits := w.hits } w.list w.frame (some w.acts) 0))

/-- O22. Class 0x07: queues, nodes, shapers, meters, gates, injection, status (R292, R293, R295, R296, R299, R300, R301, R302, R307, R309,
R310). A queue that is created, upstream or downstream, is listed with its counters' slot and the nodes above it; modified parameters,
deletions, node weights, shapers set or detached and meters set or deleted wait for the frame of the change; a gate schedule, or its
clearing, waits for the boundary at which it takes effect. CMD_QUEUE_INJECT enqueues its frames in order and reports how many, and
CMD_QM_STATUS answers a queue's occupancy, a shaper's levels or a node's children. It rests on choices of the model: logs 15, 23, 24. -/
def Obligations.TrafficCommandsTakeEffectAtTheirFrame : Prop :=
  (Answers .cmdQueueCreate specQueueCreate
     (fun c d =>
        upBase ≤ c.tgt ∧ d.queueOk c.tgt = true ∧ c.u16 0 < d.nSubs ∧ c.u8 2 < 64 ∧ c.u8 3 < 64 ∧ 1 ≤ c.u32 4 ∧ c.u32 4 ≤ 262144 ∧ c.u8 8 ≤ 100 ∧ c.u8
          9 ≤ 100 ∧ 1 ≤ c.u16 12 ∧ c.u16 12 ≤ 1023 ∧ c.u8 14 ≤ 2 ∧ c.u32 16 ≤ 1000000 ∧ c.u32 20 ≤ 1000000 ∧ mhas d.queues c.tgt = false ∧
          d.queues.any (fun e => !e.2.down && e.2.tid = 0 && e.2.sdom = 0 && e.2.subport = c.u16 0 && e.2.group = c.u8 2 && e.2.cls = c.u8 3) = false
          ∧ d.tileRun (tileOfSub (c.u16 0)) = true ∧ d.upQueuesOn (tileOfSub (c.u16 0)) < 4096)
     (fun c d =>
        Dev.syncNodes (Dev.giveSlot
          { d with
            queues :=
              mput d.queues c.tgt
                {
                  down := false, subport := c.u16 0, group := c.u8 2, cls := c.u8 3, maxCells := c.u32 4, yellow := c.u8 8, red := c.u8 9,
                  strict := bitN (c.u8 10) 0, priv := bitN (c.u8 10) 1, gated := bitN (c.u8 10) 2, weight := c.u16 12, launch := c.u8 14,
                  launchOfs := c.u32 16, lateTol := c.u32 20, startAt := d.qFrame } } 1 c.tgt))
     (fun _ _ => [])) ∧
  (Answers .cmdQueueCreate specQueueCreate
     (fun c d =>
        c.tgt < upBase ∧ d.queueOk c.tgt = true ∧ c.u16 0 < d.nTerms ∧ c.u8 3 < 8 ∧ 1 ≤ c.u32 4 ∧ c.u32 4 ≤ 262144 ∧ c.u8 8 ≤ 100 ∧ c.u8 9 ≤ 100 ∧ 1 ≤
          c.u16 12 ∧ c.u16 12 ≤ 1023 ∧ c.u8 14 = 0 ∧ bitN (c.u8 10) 2 = false ∧ c.u32 16 ≤ 1000000 ∧ c.u32 20 ≤ 1000000 ∧ mhas d.queues c.tgt = false
          ∧ mhas d.terms (c.u16 0) = true ∧ d.queues.any (fun e => e.2.down && e.2.tid = c.u16 0 && e.2.sdom = c.u8 2 && e.2.subport = 0 && e.2.group
          = 0 && e.2.cls = c.u8 3) = false ∧ d.tileRun (d.tileOfTerm (c.u16 0)) = true ∧ d.downQueuesOn (d.tileOfTerm (c.u16 0)) < 16384)
     (fun c d =>
        Dev.syncNodes (Dev.giveSlot
          { d with
            queues :=
              mput d.queues c.tgt
                {
                  down := true, tid := c.u16 0, sdom := c.u8 2, cls := c.u8 3, maxCells := c.u32 4, yellow := c.u8 8, red := c.u8 9,
                  strict := bitN (c.u8 10) 0, priv := bitN (c.u8 10) 1, gated := false, weight := c.u16 12, launch := 0, launchOfs := c.u32 16,
                  lateTol := c.u32 20, startAt := d.qFrame } } 1 c.tgt))
     (fun _ _ => [])) ∧
  (Answers .cmdQueueModify specQueueModify
     (fun c d =>
        d.queueNamed c.tgt = true ∧ 1 ≤ c.u32 0 ∧ c.u32 0 ≤ 262144 ∧ c.u8 4 ≤ 100 ∧ c.u8 5 ≤ 100 ∧ 1 ≤ c.u16 8 ∧ c.u16 8 ≤ 1023 ∧ c.u8 10 ≤ 2 ∧
          ((d.queue c.tgt).down = true → c.u8 10 = 0) ∧ c.u32 12 ≤ 1000000 ∧ c.u32 16 ≤ 1000000)
     (fun c d =>
        { d with
          queues :=
            mput d.queues c.tgt
              { d.queue c.tgt with
                next := (d.queue c.tgt).next ++ [(d.qFrame, [c.u32 0, c.u8 4, c.u8 5, c.u8 6 % 2, c.u16 8, c.u8 10, c.u32 12, c.u32 16])] } })
     (fun _ _ => [])) ∧
  (Answers .cmdQueueDelete specQueueDelete
     (fun c d => d.queueNamed c.tgt = true)
     (fun c d => { d with queues := mput d.queues c.tgt { d.queue c.tgt with delAt := some ((d.queue c.tgt).delAt.getD d.qFrame) } }) (fun _ _ => [])) ∧
  (Answers .cmdNodeConfig specNodeConfig
     (fun c d =>
        (c.u8 0 = 2 ∨ c.u8 0 = 3) ∧ d.nodeOut (c.u8 0) c.tgt 0 = false ∧ 1 ≤ c.u16 2 ∧ c.u16 2 ≤ 1023 ∧ mhas d.nodes (nodeOf (c.u8 0) c.tgt (c.u8 1))
          = true ∧ d.tileRun (d.tileOfNode (c.u8 0) c.tgt) = true)
     (fun c d =>
        { d with
          nodes :=
            mput d.nodes (nodeOf (c.u8 0) c.tgt (c.u8 1))
              { mgetD d.nodes (nodeOf (c.u8 0) c.tgt (c.u8 1)) {} with
                next := (mgetD d.nodes (nodeOf (c.u8 0) c.tgt (c.u8 1)) {}).next ++ [(d.qFrame, c.u16 2)] } })
     (fun _ _ => [])) ∧
  (Answers .cmdShaperSet specShaperSet
     (fun c d =>
        c.u8 0 ≤ 5 ∧ c.u8 2 = 0 ∧ d.nodeOut (c.u8 0) c.tgt (c.u8 1) = false ∧ d.nodeHere (c.u8 0) (nodeOf (c.u8 0) c.tgt (c.u8 1)) = true ∧ d.tileRun
          (d.tileOfNode (c.u8 0) c.tgt) = true ∧ bucketBad (c.bit 21 0) (c.u32 4) (c.u32 8) (c.u32 12) (c.u32 16) (c.i8 20) = stOk ∧ (c.bit 21 0 =
          true → c.u8 0 = 0 ∧ mhas d.queues c.tgt = true ∧ (d.queue c.tgt).priv = true ∧ ((mget d.shapers (nodeOf (c.u8 0) c.tgt (c.u8 1))).any (fun s
          => s.pkt) = true ∨ d.pktModeOn (d.tileOfNode (c.u8 0) c.tgt) < 1024)) ∧ (mhas d.shapers (nodeOf (c.u8 0) c.tgt (c.u8 1)) = true ∨
          d.shapersOn (d.tileOfNode (c.u8 0) c.tgt) < 24576))
     (fun c d =>
        { d with
          shaperNext :=
            d.shaperNext ++
              [{
                 atT := d.qFrame, target := nodeOf (c.u8 0) c.tgt (c.u8 1),
                 cfg :=
                   {
                     pkt := c.bit 21 0, cir := c.u32 4, cbs := c.u32 8, pir := c.u32 12, pbs := c.u32 16, overhead := c.i8 20, full := c.bit 21 1,
                     tile := d.tileOfNode (c.u8 0) c.tgt } }] })
     (fun _ _ => [])) ∧
  (Answers .cmdShaperSet specShaperSet
     (fun c d =>
        c.u8 0 ≤ 5 ∧ c.u8 2 = 1 ∧ d.nodeOut (c.u8 0) c.tgt (c.u8 1) = false ∧ d.nodeHere (c.u8 0) (nodeOf (c.u8 0) c.tgt (c.u8 1)) = true ∧ d.tileRun
          (d.tileOfNode (c.u8 0) c.tgt) = true ∧ mhas d.shapers (nodeOf (c.u8 0) c.tgt (c.u8 1)) = true)
     (fun c d =>
        { d with
          shaperNext :=
            d.shaperNext ++
              [{
                 atT := d.qFrame, target := nodeOf (c.u8 0) c.tgt (c.u8 1), detach := true,
                 cfg :=
                   {
                     pkt := c.bit 21 0, cir := c.u32 4, cbs := c.u32 8, pir := c.u32 12, pbs := c.u32 16, overhead := c.i8 20, full := c.bit 21 1,
                     tile := d.tileOfNode (c.u8 0) c.tgt } }] })
     (fun _ _ => [])) ∧
  (Answers .cmdMeterSet specMeterSet
     (fun c d =>
        c.tgt / 32768 < d.nTiles ∧ c.u8 0 = 0 ∧ d.tileRun (c.tgt / 32768) = true ∧ bucketBad (c.bit 21 0) (c.u32 4) (c.u32 8) (c.u32 12) (c.u32 16)
          (c.i8 20) = stOk ∧ (c.bit 21 0 = true → d.meterPriv c.tgt = true ∧ d.pktModeOn (c.tgt / 32768) < 1024))
     (fun c d =>
        { d with
          meterNext :=
            d.meterNext ++ [(d.qFrame, c.tgt, some
              {
                pkt := c.bit 21 0, cir := c.u32 4, cbs := c.u32 8, pir := c.u32 12, pbs := c.u32 16, overhead := c.i8 20, aware := c.bit 21 1,
                mark := c.bit 21 2, dei := c.bit 21 3, tile := c.tgt / 32768 })] })
     (fun _ _ => [])) ∧
  (Answers .cmdMeterSet specMeterSet
     (fun c d => c.tgt / 32768 < d.nTiles ∧ c.u8 0 = 1 ∧ d.tileRun (c.tgt / 32768) = true ∧ mhas d.meters c.tgt = true)
     (fun c d => { d with meterNext := d.meterNext ++ [(d.qFrame, c.tgt, none)] }) (fun _ _ => [])) ∧
  (Answers .cmdGateSet specGateSet
     (fun c d =>
        c.tgt < d.nSubs ∧ d.tileRun (tileOfSub c.tgt) = true ∧ c.u8 0 = 0 ∧ 1 ≤ c.u8 1 ∧ c.u8 1 ≤ 64 ∧ 10000 ≤ c.u32 4 ∧ c.u32 4 ≤ 1000000000 ∧ c.u32
          16 ≤ 999999999 ∧ ((c.u64 8 : Int) * 1000000000 + c.u32 16 - d.netNs).natAbs ≤ 140000 * 1000000000 ∧ (((List.range (c.u8 1)).map (fun i =>
          (c.u32 (20 + 8 * i), c.u8 (24 + 8 * i)))).map (fun e => e.1)).foldl (· + ·) 0 = c.u32 4)
     (fun c d =>
        { d with
          gateNext :=
            d.gateNext ++ [(c.tgt, some
              {
                cycle := c.u32 4, anchor := d.rawOfNs ((c.u64 8 : Int) * 1000000000 + c.u32 16),
                entries := (List.range (c.u8 1)).map (fun i => (c.u32 (20 + 8 * i), c.u8 (24 + 8 * i))) },
              (match mget d.gates c.tgt with | some old => old.boundary (d.now + rawMs 1) | none => d.now))] })
     (fun _ _ => [])) ∧
  (Answers .cmdGateSet specGateSet
     (fun c d => c.tgt < d.nSubs ∧ d.tileRun (tileOfSub c.tgt) = true ∧ c.u8 0 = 1)
     (fun c d =>
        { d with
          gateNext := d.gateNext ++ [(c.tgt, none, (match mget d.gates c.tgt with | some old => old.boundary (d.now + rawMs 1) | none => d.now))] })
     (fun _ _ => [])) ∧
  (Runs .cmdQueueInject specQueueInject
     (fun c d =>
        d.queueNamed c.tgt = true ∧ 1 ≤ c.u8 0 ∧ c.u8 0 ≤ 64 ∧ d.queueLive (d.queue c.tgt) = true ∧ (injectFrames c.params (c.u8 0) 4).isSome = true ∧
          (d.queue c.tgt).launch ≠ 2)
     (fun c d =>
        {
          dev := (Dev.inject c.tgt false ((injectFrames c.params (c.u8 0) 4).getD []) 0 d).2.2,
          st := if (Dev.inject c.tgt false ((injectFrames c.params (c.u8 0) 4).getD []) 0 d).2.1 then stNoResource else stOk,
          applied := (Dev.inject c.tgt false ((injectFrames c.params (c.u8 0) 4).getD []) 0 d).1 })) ∧
  (Answers .cmdQmStatus specQmStatus
     (fun c d => c.u8 0 = 0 ∧ c.u8 1 = 0 ∧ d.queueOk c.tgt = true ∧ mhas d.queues c.tgt = true ∧ d.tileRun (d.tileOfQueue c.tgt) = true)
     (fun _ d => d) (fun c d => leBytes 4 (d.queue c.tgt).occ)) ∧
  (Answers .cmdQmStatus specQmStatus
     (fun c d =>
        c.u8 0 = 1 ∧ c.u8 1 ≤ 5 ∧ d.nodeOut (c.u8 1) c.tgt (c.u8 2) = false ∧ d.nodeHere (c.u8 1) (nodeOf (c.u8 1) c.tgt (c.u8 2)) = true ∧ d.tileRun
          (d.tileOfNode (c.u8 1) c.tgt) = true ∧ (d.shaperNow (nodeOf (c.u8 1) c.tgt (c.u8 2))).isSome = true)
     (fun _ d => d) (fun c d => (fun (s : Shaper) => lvlBytes s.cLvl ++ lvlBytes s.pLvl) ((d.shaperNow (nodeOf (c.u8 1) c.tgt (c.u8 2))).getD {}))) ∧
  (Answers .cmdQmStatus specQmStatus
     (fun c d =>
        c.u8 0 = 2 ∧ 1 ≤ c.u8 1 ∧ c.u8 1 ≤ 5 ∧ d.nodeOut (c.u8 1) c.tgt (c.u8 2) = false ∧ d.nodeHere (c.u8 1) (nodeOf (c.u8 1) c.tgt (c.u8 2)) = true
          ∧ d.tileRun (d.tileOfNode (c.u8 1) c.tgt) = true)
     (fun _ d => d) (fun c d => (fun (l : List Nat) => leBytes 4 l.length ++ l.flatMap (leBytes 4)) ((d.childrenOf (c.u8 1) c.tgt (c.u8 2)).take 900)))

/-- O23. Admission, the cells of a frame, refill, dequeue, launch and gates (R285, R287, R289, R290, R291, R294, R295, R296, R304, R306, R307).
A frame within the limits of its queue and of the pool takes its cells, joins the end of the queue and is counted; one beyond the queue's
limit for its colour is counted as a tail drop and stored nowhere. A release of a stored frame gives back its cells or its share; one that
is refused leaves a fault record of the tile and, the first time, its details, and the pool otherwise as it was. Buckets refill at the next
tick; the transmitter of an open sub-port takes a launch frame that is due or else the frame that the hierarchy chooses, the framer of an
open channel the frame its hierarchy chooses; a launch queue is served when its head's time comes and the sub-port is idle; and a gate's
schedule goes to its next boundary, where schedules due take its place and frames whose gate closes are counted as waiting. It rests on
choices of the model: logs 4, 24. -/
def Obligations.FramesEnterAndLeaveQueues : Prop :=
  (∀ (d : Dev) (q : EnqueueReq) (x : Queue) (y z : Dev) (ptr : Nat) (e : Dev),
     mget d.queues q.queue = some x ∧ d.tileRun (d.tileOfQueue q.queue) = true ∧ d.queueLive x = true ∧ q.frame.length ≤ 16384 ∧ d.gateNever x
       (q.frame.length + d.growOf q.queue) = false ∧ y = (if x.down then (d.wake x.tid).2 else if d.macOn x.subport then d else d.crossHold
       (d.tileOfQueue q.queue) 2 (x.subport % 8)) ∧ x.occ + cellsOf q.frame.length ≤ x.limit (colorOf q.color) ∧ y.takeCells (d.tileOfQueue q.queue)
       (cellsOf q.frame.length) q.count q.last x.priv = (some ptr, z) ∧ e =
       { z with
         queues :=
           mput z.queues q.queue
             { x with
               frames :=
                 x.frames ++ [{ ptr := ptr, bytes := q.frame, len := q.frame.length, color := colorOf q.color, launch := d.launchOf x none }] } } →
     Becomes (.frameEnqueue q) d
       (((if x.down then e.updTerm x.tid (fun t => { t with lastDsFrame := e.frame }) else e).count .enqFrames q.queue).count .enqBytes q.queue
          q.frame.length)) ∧
  (∀ (d : Dev) (q : EnqueueReq) (x : Queue) (y : Dev),
     mget d.queues q.queue = some x ∧ d.tileRun (d.tileOfQueue q.queue) = true ∧ d.queueLive x = true ∧ q.frame.length ≤ 16384 ∧ d.gateNever x
       (q.frame.length + d.growOf q.queue) = false ∧ y = (if x.down then (d.wake x.tid).2 else if d.macOn x.subport then d else d.crossHold
       (d.tileOfQueue q.queue) 2 (x.subport % 8)) ∧ x.limit (colorOf q.color) < x.occ + cellsOf q.frame.length →
     Becomes (.frameEnqueue q) d (y.count (dropCnt (colorOf q.color)) q.queue)) ∧
  (∀ (d : Dev) (tile : Nat) (ptr : BitVec 32) (party : Nat),
     d.tileRun tile = true ∧ (d.pool tile).badRelease ptr.toNat party = 0 →
     Becomes (.frameRelease tile ptr party) d
       ((if party = 3 then d.updCls tile (fun c => { c with excQ := dropExc ptr.toNat c.excQ }) else d).setPool tile ((d.pool tile).release ptr.toNat
          party))) ∧
  (∀ (d : Dev) (tile : Nat) (ptr : BitVec 32) (party : Nat),
     d.tileRun tile = true ∧ (d.pool tile).badRelease ptr.toNat party ≠ 0 →
     Leaves (.frameRelease tile ptr party) d
       fun e =>
         Raised e 0x09 0x01 tile tile ∧ e.pool tile = (if (d.pool tile).badValid then d.pool tile else
           { d.pool tile with
             badValid := true, badPtr := BitVec.ofNat 32 ptr.toNat, badParty := party, badReason := (d.pool tile).badRelease ptr.toNat party }) ∧
           Raises { d with pools := e.pools } e) ∧
  (∀ (d : Dev), Becomes .shaperRefill d ((d.advanceTo (BitVec.ofNat 64 ((ticksOf d.now + 1) * 2 ^ 23))).refillAll)) ∧
  (∀ (d : Dev) (sub : Bool) (node : Nat),
     sub = true ∧ d.txOpen node = true →
     Becomes (.frameDequeue sub node) d
       (match Dev.launchTry ((d.advanceTo (d.sub node).busyUntil).launchOrder node) (d.advanceTo (d.sub node).busyUntil) with
        | (true, e) => e
        | (false, e) => (match e.pickSub node with | some (k, e) => e.sendUp k | none => e))) ∧
  (∀ (d : Dev) (sub : Bool) (node : Nat),
     sub = false ∧ d.dsOpen node = true →
     Becomes (.frameDequeue sub node) d (match d.pickDown node with | some (k, e) => e.sendDown node k | none => d)) ∧
  (∀ (d : Dev) (queue : Nat) (q : Queue) (x : QFrame) (xs : List QFrame) (t : Raw),
     mget d.queues queue = some q ∧ q.frames = x :: xs ∧ q.launch ≠ 0 ∧ d.txOpen q.subport = true ∧ x.launch = some t ∧ reached (d.advanceTo t).now
       ((d.advanceTo t).sub q.subport).busyUntil = true →
     Becomes (.launchTimeReached queue) d ((Dev.launchServe (q.frames.length + 1) queue (d.advanceTo t)).2)) ∧
  (∀ (d : Dev) (sub : Nat) (g : Gate) (a : Dev),
     mget d.gates sub = some g ∧ a = d.advanceTo (g.nextAt d.now) →
     Becomes (.gateBoundary sub) d
       (((d.queues.filter (fun e => !e.2.down && e.2.subport = sub && e.2.gated && e.2.group = 0 && !e.2.frames.isEmpty)).filter (fun e => d.gateLeft
          sub e.2.cls ≠ some 0)).foldl (fun d e => if d.gateLeft sub e.2.cls = some 0 then d.count .gateWaits e.1 else d) ((a.gateNext.filter (fun e
          => e.1 = sub && reached a.now e.2.2)).foldl (fun (d : Dev) e => d.putGate sub e.2.1)
          { a with gateNext := a.gateNext.filter (fun e => !(e.1 = sub && reached a.now e.2.2)) })))

/-- O24. Class 0x08: SecYs, SCs, MKA bindings, SA installs, switches, transit paths, bypass, status (R312, R313, R315, R317, R320, R321, R327,
R329, R337, R481). CMD_MSEC_SECY creates SecY 0 of a sub-port, or for a peer MAC address the lowest free SecY of 1 to 15, changes the
settings of one that exists, and deletes one with its channels; paths left without a Strict ingress fall back. CMD_MSEC_SC creates a secure
channel, deletes one, or names the SecY of a queue group. CMD_MSEC_MKA binds a CAK and derives the ICK and the KEK, or ends the binding and
clears both. CMD_MSEC_SA_INSTALL writes the key of a persistent slot into an SA slot, or waits behind a slot that retires;
CMD_MSEC_SA_DISABLE retires a slot; CMD_MSEC_TX_SWITCH makes the READY slot transmit. CMD_MSEC_TRANSIT sets a path, CMD_MSEC_BYPASS the
EtherTypes, CMD_MSEC_STATUS answers the slots. A write of the low watermark word sets the whole XPN watermark, a high word of 0 taken as 1.
It rests on choices of the model: logs 13, 15. -/
def Obligations.MsecCommandsSetSecuredLinks : Prop :=
  (Answers .cmdMsecSecy specMsecSecy
     (fun c d =>
        c.tgt < 256 * d.nTiles ∧ c.u8 0 = 0 ∧ c.u8 1 < d.nSubs ∧ c.u64 8 = 0 ∧ c.u8 16 ≤ 2 ∧ c.u32 20 ≤ 2 ^ 30 ∧ (c.u8 24 = 0 ∨ c.u8 24 = 30 ∨ c.u8 24
          = 50) ∧ c.u8 25 ≤ 3 ∧ d.tileRun (tileOfSub (c.u8 1)) = true ∧ mget d.msec.secys c.tgt = none ∧ ((d.msec.secys.filter (fun e => e.2.subport =
          c.u8 1)).map (fun e => e.2.index)).contains 0 = false)
     (fun c d =>
        Dev.transitFallback (d.setSecy c.tgt
          {
            subport := c.u8 1, validate := validateOf (c.u8 16), replay := bitN (c.u8 17) 0, protect := bitN (c.u8 17) 1, conf := bitN (c.u8 17) 2,
            sciAlways := bitN (c.u8 17) 3, window := c.u32 20, offset := c.u8 24, suite := c.u8 25 }))
     (fun _ _ => [])) ∧
  (Answers .cmdMsecSecy specMsecSecy
     (fun c d =>
        c.tgt < 256 * d.nTiles ∧ c.u8 0 = 0 ∧ c.u8 1 < d.nSubs ∧ c.u64 8 ≠ 0 ∧ c.u64 8 < 2 ^ 48 ∧ c.u8 16 ≤ 2 ∧ c.u32 20 ≤ 2 ^ 30 ∧ (c.u8 24 = 0 ∨
          c.u8 24 = 30 ∨ c.u8 24 = 50) ∧ c.u8 25 ≤ 3 ∧ d.tileRun (tileOfSub (c.u8 1)) = true ∧ mget d.msec.secys c.tgt = none ∧ (lowestFree
          ((d.msec.secys.filter (fun e => e.2.subport = c.u8 1)).map (fun e => e.2.index)) 1 15).isSome = true)
     (fun c d =>
        Dev.transitFallback (d.setSecy c.tgt
          {
            subport := c.u8 1, index := (lowestFree ((d.msec.secys.filter (fun e => e.2.subport = c.u8 1)).map (fun e => e.2.index)) 1 15).getD 0,
            peer := c.u64 8, validate := validateOf (c.u8 16), replay := bitN (c.u8 17) 0, protect := bitN (c.u8 17) 1, conf := bitN (c.u8 17) 2,
            sciAlways := bitN (c.u8 17) 3, window := c.u32 20, offset := c.u8 24, suite := c.u8 25 }))
     (fun _ _ => [])) ∧
  (Answers .cmdMsecSecy specMsecSecy
     (fun c d =>
        d.secyNamed c.tgt = true ∧ c.u8 0 = 0 ∧ c.u8 1 < d.nSubs ∧ (d.secy c.tgt).subport = c.u8 1 ∧ (d.secy c.tgt).peer = c.u64 8 ∧ c.u64 8 < 2 ^ 48
          ∧ c.u8 16 ≤ 2 ∧ c.u32 20 ≤ 2 ^ 30 ∧ (c.u8 24 = 0 ∨ c.u8 24 = 30 ∨ c.u8 24 = 50) ∧ c.u8 25 ≤ 3)
     (fun c d =>
        Dev.transitFallback (d.setSecy c.tgt
          { d.secy c.tgt with
            validate := validateOf (c.u8 16), replay := bitN (c.u8 17) 0, protect := bitN (c.u8 17) 1, conf := bitN (c.u8 17) 2,
            sciAlways := bitN (c.u8 17) 3, window := c.u32 20, offset := c.u8 24, suite := c.u8 25 }))
     (fun _ _ => [])) ∧
  (Answers .cmdMsecSecy specMsecSecy
     (fun c d => d.secyNamed c.tgt = true ∧ c.u8 0 = 1)
     (fun c d =>
        (fun (e : Dev) => Dev.transitFallback
          { e with msec := { e.msec with secys := mdel e.msec.secys c.tgt, groupSecy := e.msec.groupSecy.filter (fun x => x.2 ≠ c.tgt) } }) ((d.scsOf
          c.tgt).foldl Dev.scRemove d))
     (fun _ _ => [])) ∧
  (Answers .cmdMsecSc specMsecSc
     (fun c d =>
        c.u8 0 = 0 ∧ c.tgt < 512 * d.nTiles ∧ d.secyNamed (c.u16 2) = true ∧ c.u8 1 ≤ 1 ∧ mhas d.msec.scs c.tgt = false ∧ (d.msec.scs.filter (fun e =>
          e.2.secy = c.u16 2 && e.2.tx = decide (c.u8 1 = 0))).length < (if c.u8 1 = 0 then 1 else 16) ∧ (d.msec.scs.filter (fun e => d.tileOfSecy
          e.2.secy = tileOfSub (d.secy (c.u16 2)).subport)).length < 512)
     (fun c d => { d with msec := { d.msec with scs := mput d.msec.scs c.tgt { secy := c.u16 2, tx := decide (c.u8 1 = 0), sci := c.u64 8 } } })
     (fun _ _ => [])) ∧
  (Answers .cmdMsecSc specMsecSc
     (fun c d => c.u8 0 = 1 ∧ c.tgt < 512 * d.nTiles ∧ mhas d.msec.scs c.tgt = true ∧ d.tileRun (d.tileOfSc c.tgt) = true)
     (fun c d => d.scRemove c.tgt) (fun _ _ => [])) ∧
  (Answers .cmdMsecSc specMsecSc
     (fun c d =>
        c.u8 0 = 2 ∧ d.secyNamed (c.u16 2) = true ∧ c.u8 4 < d.nSubs ∧ c.u8 5 ≤ 63 ∧ c.u8 4 = (d.secy (c.u16 2)).subport ∧ (c.u8 5 ≠ 0 ∨ (d.secy
          (c.u16 2)).index = 0))
     (fun c d => { d with msec := { d.msec with groupSecy := mput d.msec.groupSecy (64 * c.u8 4 + c.u8 5) (c.u16 2) } }) (fun _ _ => [])) ∧
  (Answers .cmdMsecMka specMsecMka
     (fun c d => d.secyNamed c.tgt = true ∧ c.bit 35 0 = true ∧ 1 ≤ c.u8 1 ∧ c.u8 1 ≤ 32 ∧ d.slotUsable (c.u8 0) 2 = true)
     (fun c d =>
        d.setSecy c.tgt
          { d.secy c.tgt with
            mka := true, cak := some (c.u8 0), cakGen := (d.pslot (c.u8 0)).wcount, ckn := c.bs 2 (c.u8 1), prio := c.u8 34,
            ick := some (bytesAt (Config.mkaIck (d.pslot (c.u8 0)).key (c.bs 2 (c.u8 1))) 0 32),
            kek := some (bytesAt (Config.mkaKek (d.pslot (c.u8 0)).key (c.bs 2 (c.u8 1))) 0 32), peers := [], prios := [], server := true, mn := 0 })
     (fun _ _ => [])) ∧
  (Answers .cmdMsecMka specMsecMka
     (fun c d => d.secyNamed c.tgt = true ∧ c.bit 35 0 = false)
     (fun c d => d.setSecy c.tgt { d.secy c.tgt with mka := false, ick := none, kek := none, peers := [], prios := [], server := false })
     (fun _ _ => [])) ∧
  (Answers .cmdMsecSaInstall specMsecSaInstall
     (fun c d =>
        d.saNamed c.tgt = true ∧ c.u8 0 ≤ 3 ∧ d.slotUsable (c.u8 1) 5 = true ∧ (d.pslot (c.u8 1)).key.length = suiteKeyLen (d.suiteOf (c.tgt / 2)) ∧
          ((d.sa (otherSa c.tgt)).st = .empty ∨ (d.sa (otherSa c.tgt)).an ≠ c.u8 0) ∧ (d.sa c.tgt).st ≠ .tx ∧ (d.sa c.tgt).st ≠ .retiring)
     (fun c d => d.saWrite c.tgt (c.u8 0) (d.pslot (c.u8 1)).key (some (c.u8 1)) (c.u64 8) (c.u32 16) (c.bs 20 12)) (fun _ _ => [])) ∧
  (Starts .cmdMsecSaInstall specMsecSaInstall
     stPending
     (fun c d =>
        d.saNamed c.tgt = true ∧ c.u8 0 ≤ 3 ∧ d.slotUsable (c.u8 1) 5 = true ∧ (d.pslot (c.u8 1)).key.length = suiteKeyLen (d.suiteOf (c.tgt / 2)) ∧
          ((d.sa (otherSa c.tgt)).st = .empty ∨ (d.sa (otherSa c.tgt)).an ≠ c.u8 0) ∧ (d.sa c.tgt).st = .retiring)
     (fun c d =>
        d.saQueue c.tgt
          { job := 1, an := c.u8 0, key := (d.pslot (c.u8 1)).key, pn := c.u64 8, src := some (c.u8 1), ssci := c.u32 16, salt := c.bs 20 12 })
     .saInstall (fun c d => c.tgt)) ∧
  (Answers .cmdMsecSaDisable specMsecSaDisable (fun c d => d.saNamed c.tgt = true) (fun c d => d.saDisable c.tgt) (fun _ _ => [])) ∧
  (Answers .cmdMsecTxSwitch specMsecTxSwitch
     (fun c d =>
        c.tgt < 512 * d.nTiles ∧ mhas d.msec.scs c.tgt = true ∧ d.tileRun (d.tileOfSc c.tgt) = true ∧ (mgetD d.msec.scs c.tgt {}).tx = true ∧ (d.saIn
          c.tgt .ready).isSome = true)
     (fun c d => d.saSwitch c.tgt) (fun _ _ => [])) ∧
  (Answers .cmdMsecTransit specMsecTransit
     (fun c d =>
        c.u8 0 < d.nSubs ∧ c.u8 1 < d.nSubs ∧ c.u8 2 ≤ 1 ∧ d.tileRun (tileOfSub (c.u8 0)) = true ∧ d.tileRun (tileOfSub (c.u8 1)) = true ∧ d.strictOn
          (c.u8 0) = true)
     (fun c d => { d with msec := { d.msec with transit := mputD d.msec.transit (128 * c.u8 0 + c.u8 1) (c.u8 2 = 1) false } }) (fun _ _ => [])) ∧
  (Answers .cmdMsecBypass specMsecBypass
     (fun c d => d.secyNamed c.tgt = true ∧ c.u8 0 ≤ 4)
     (fun c d => d.setSecy c.tgt { d.secy c.tgt with extra := (List.range (c.u8 0)).map (fun i => c.u16 (2 + 2 * i)) }) (fun _ _ => [])) ∧
  (Answers .cmdMsecStatus specMsecStatus
     (fun c d => d.secyNamed c.tgt = true) (fun _ d => d)
     (fun c d =>
        leBytes 1 (b2n (d.secy c.tgt).server) ++ leBytes 1 (d.secy c.tgt).peers.length ++ leBytes 2 (d.scsOf c.tgt).length ++ (d.scsOf c.tgt).flatMap
          (fun s => leBytes 2 s ++ leBytes 1 (b2n (d.txSc c.tgt ≠ some s)) ++ zeroBytes 5 ++ SaSlot.record (d.sa (2 * s)) ++ SaSlot.record (d.sa (2 *
          s + 1))) ++ (d.secy c.tgt).peers.flatMap (fun e => leBytes 8 e.1))) ∧
  (∀ (d : Dev) (value : BitVec 32),
     d.hostOk = true →
     Becomes (.msecPnWmxLoWrite value) d
       ({ d.setReg 0x704 value.toNat with
          msec := { d.msec with wmx := BitVec.ofNat 64 (max 1 ((d.setReg 0x704 value.toNat).reg 0x708) * 2 ^ 32 + value.toNat) } }))

/-- O25. Slots that retire, PN bounds and reports, frames received and in transit, MKA (R313, R316, R317, R319, R322, R326, R328, R330, R332). A
retiring slot is emptied at its end and its queued install runs. A transmit PN within 2^19 of its bound raises the bound; a receive report
raises the recorded top. Of received secure frames of a known channel: one with no SA of its AN is counted so; a late one under replay
protection is counted late and moves nothing; one that validates is counted and moves the window; one whose ICV fails is counted and moves
nothing. A frame without a SecTAG on the controlled port, with a bad tag, or of an unknown SCI is counted. A frame in transit that is stored
is counted good, moves the window and is enqueued; one whose ICV fails is counted and kept out; one that cuts through takes a PN of the
egress channel and leaves on the line, poisoned where its ICV fails. An MKPDU without a right ICV is only counted; one with it renews its
peer and the election. Hellos count up, and the last peer that expires disables every SA of its SecY. It rests on choices of the model: logs
4, 11, 53. -/
def Obligations.SecureAssociationsLiveAndRetire : Prop :=
  (∀ (d : Dev) (sa : Nat),
     (d.sa sa).st = .retiring →
     Becomes (.saRetireEnd sa) d (((d.advanceTo (d.sa sa).retireEnd).saEmpty sa).saQueued sa (d.sa sa).queued)) ∧
  (∀ (d : Dev) (sa : Nat),
     mhas d.msec.scs (sa / 2) = true ∧ (mgetD d.msec.scs (sa / 2) {}).tx = true ∧ (d.sa sa).st = .tx ∧ (d.sa sa).bound ≤ (d.sa sa).pn + 2 ^ 19 →
     Becomes (.pnBoundRaise sa) d (d.raiseBound sa)) ∧
  (∀ (d : Dev) (sa : Nat),
     mhas d.msec.scs (sa / 2) = true ∧ (mgetD d.msec.scs (sa / 2) {}).tx = false ∧ (d.sa sa).st = .ready →
     Becomes (.rxPnReport sa) d (d.setSa sa { d.sa sa with top := max (d.sa sa).top (d.sa sa).best })) ∧
  (∀ (d : Dev) (f : UplinkFrame) (sc : Nat) (c : SecChan) (n : Nat),
     d.tileRun (tileOfSub f.sub) = true ∧ (d.sub f.sub).enabled = true ∧ (d.sub f.sub).up = true ∧ f.secTag = true ∧ f.badTag = false ∧ (f.sci = none
       ∨ (f.es = false ∧ f.scb = false)) ∧ d.msec.scs.find? (fun e => !e.2.tx && e.2.sci = Sys2Proof.Machine.UplinkFrame.sciOf f &&
       (match mget d.msec.secys e.2.secy with | some y => y.subport = f.sub | none => false)) = some (sc, c) ∧ mhas d.msec.secys c.secy = true ∧ [2 *
       sc, 2 * sc + 1].find? (fun n => ((d.sa n).st = .ready || (d.sa n).st = .retiring) && (d.sa n).an = f.an && (d.sa n).loaded) = some n ∧ (d.secy
       c.secy).validate ≠ .disabled ∧ f.icvOk = true ∧ ((d.secy c.secy).replay = false ∨ (d.sa n).low ≤ f.pn) →
     Becomes (.uplinkFrameRx f) d
       (Dev.rxAccept ((d.winAdd 0 f.sub 0 (f.frame.length + (if f.sci.isSome then 32 else 24)) 1).count (if f.pn < (d.sa n).low then .inDelayed else
          .inOk) n) n f.pn (d.secy c.secy).window)) ∧
  (∀ (d : Dev) (f : UplinkFrame) (sc : Nat) (c : SecChan) (n : Nat),
     d.tileRun (tileOfSub f.sub) = true ∧ (d.sub f.sub).enabled = true ∧ (d.sub f.sub).up = true ∧ f.secTag = true ∧ f.badTag = false ∧ (f.sci = none
       ∨ (f.es = false ∧ f.scb = false)) ∧ d.msec.scs.find? (fun e => !e.2.tx && e.2.sci = Sys2Proof.Machine.UplinkFrame.sciOf f &&
       (match mget d.msec.secys e.2.secy with | some y => y.subport = f.sub | none => false)) = some (sc, c) ∧ mhas d.msec.secys c.secy = true ∧ [2 *
       sc, 2 * sc + 1].find? (fun n => ((d.sa n).st = .ready || (d.sa n).st = .retiring) && (d.sa n).an = f.an && (d.sa n).loaded) = some n ∧ (d.secy
       c.secy).validate ≠ .disabled ∧ f.icvOk = false ∧ ((d.secy c.secy).replay = false ∨ (d.sa n).low ≤ f.pn) →
     Becomes (.uplinkFrameRx f) d
       ((d.winAdd 0 f.sub 0 (f.frame.length + (if f.sci.isSome then 32 else 24)) 1).count (if (d.secy c.secy).validate = .strict ∨ f.enc = true then
          .inNotValid else .inInvalid) n)) ∧
  (∀ (d : Dev) (f : UplinkFrame) (sc : Nat) (c : SecChan) (n : Nat),
     d.tileRun (tileOfSub f.sub) = true ∧ (d.sub f.sub).enabled = true ∧ (d.sub f.sub).up = true ∧ f.secTag = true ∧ f.badTag = false ∧ (f.sci = none
       ∨ (f.es = false ∧ f.scb = false)) ∧ d.msec.scs.find? (fun e => !e.2.tx && e.2.sci = Sys2Proof.Machine.UplinkFrame.sciOf f &&
       (match mget d.msec.secys e.2.secy with | some y => y.subport = f.sub | none => false)) = some (sc, c) ∧ mhas d.msec.secys c.secy = true ∧ [2 *
       sc, 2 * sc + 1].find? (fun n => ((d.sa n).st = .ready || (d.sa n).st = .retiring) && (d.sa n).an = f.an && (d.sa n).loaded) = some n ∧ (d.secy
       c.secy).replay = true ∧ f.pn < (d.sa n).low →
     Becomes (.uplinkFrameRx f) d ((d.winAdd 0 f.sub 0 (f.frame.length + (if f.sci.isSome then 32 else 24)) 1).count .inLate n)) ∧
  (∀ (d : Dev) (f : UplinkFrame) (sc : Nat) (c : SecChan),
     d.tileRun (tileOfSub f.sub) = true ∧ (d.sub f.sub).enabled = true ∧ (d.sub f.sub).up = true ∧ f.secTag = true ∧ f.badTag = false ∧ (f.sci = none
       ∨ (f.es = false ∧ f.scb = false)) ∧ d.msec.scs.find? (fun e => !e.2.tx && e.2.sci = Sys2Proof.Machine.UplinkFrame.sciOf f &&
       (match mget d.msec.secys e.2.secy with | some y => y.subport = f.sub | none => false)) = some (sc, c) ∧ mhas d.msec.secys c.secy = true ∧ [2 *
       sc, 2 * sc + 1].find? (fun n => ((d.sa n).st = .ready || (d.sa n).st = .retiring) && (d.sa n).an = f.an && (d.sa n).loaded) = none →
     Becomes (.uplinkFrameRx f) d
       ((d.winAdd 0 f.sub 0 (f.frame.length + (if f.sci.isSome then 32 else 24)) 1).count (if (d.secy c.secy).validate = .strict ∨ f.enc = true then
          .inNotUsingSa else .inUnusedSa) sc)) ∧
  (∀ (d : Dev) (f : UplinkFrame) (y : Nat) (z : SecY),
     d.tileRun (tileOfSub f.sub) = true ∧ (d.sub f.sub).enabled = true ∧ (d.sub f.sub).up = true ∧ f.secTag = false ∧ uncontrolled f.etherType = false
       ∧ d.secyOf f.sub 0 = some (y, z) ∧ f.etherType ∉ z.extra →
     Becomes (.uplinkFrameRx f) d ((d.winAdd 0 f.sub 0 f.frame.length 1).count (if z.validate = .strict then .inNoTag else .inUntagged) y)) ∧
  (∀ (d : Dev) (f : UplinkFrame) (y : Nat) (z : SecY),
     d.tileRun (tileOfSub f.sub) = true ∧ (d.sub f.sub).enabled = true ∧ (d.sub f.sub).up = true ∧ f.secTag = true ∧ (f.badTag = true ∨ (f.sci.isSome
       = true ∧ (f.es = true ∨ f.scb = true))) ∧ d.secyOf f.sub 0 = some (y, z) →
     Becomes (.uplinkFrameRx f) d ((d.winAdd 0 f.sub 0 (f.frame.length + (if f.sci.isSome then 32 else 24)) 1).count .inBadTag y)) ∧
  (∀ (d : Dev) (f : UplinkFrame) (y : Nat) (z : SecY),
     d.tileRun (tileOfSub f.sub) = true ∧ (d.sub f.sub).enabled = true ∧ (d.sub f.sub).up = true ∧ f.secTag = true ∧ f.badTag = false ∧ (f.sci = none
       ∨ (f.es = false ∧ f.scb = false)) ∧ d.msec.scs.find? (fun e => !e.2.tx && e.2.sci = Sys2Proof.Machine.UplinkFrame.sciOf f &&
       (match mget d.msec.secys e.2.secy with | some y => y.subport = f.sub | none => false)) = none ∧ d.secyOf f.sub 0 = some (y, z) →
     Becomes (.uplinkFrameRx f) d
       ((fun (e : Dev) => if z.validate = .strict ∨ f.enc = true then e.count .inNoSci y else e) ((d.winAdd 0 f.sub 0 (f.frame.length + (if
          f.sci.isSome then 32 else 24)) 1).count .inUnknownSci y))) ∧
  (∀ (d : Dev) (sa : Nat) (queue : Nat) (ok : Bool) (pn : Nat) (head : List Byte) (tail : List Byte) (c : SecChan) (q : Queue),
     d.scOf (sa / 2) = some c ∧ mget d.queues queue = some q ∧ c.tx = false ∧ q.down = false ∧ d.tileRun (d.tileOfSa sa) = true ∧ d.tileRun (tileOfSub
       q.subport) = true ∧ ((d.sa sa).st = .ready ∨ (d.sa sa).st = .retiring) ∧ ((d.secy c.secy).replay = false ∨ (d.sa sa).low ≤ pn) ∧ d.cutOk
       (d.subOfSc (sa / 2)) q ((d.groupSecyOf q.subport q.group).bind (fun e => d.txSc e.1)) = false ∧ ok = true →
     Becomes (.transitVerdict sa queue ok pn head tail) d
       ((fun (e : Dev) => (e.enqueue
          {
            port := if tileOfSub q.subport = tileOfSub (d.subOfSc (sa / 2)) then 0 else 2, src := tileOfSub (d.subOfSc (sa / 2)), queue := queue,
            frame := (head ++ tail), last := 1 } none (e.growOf queue)).2) (((if d.safPath (d.subOfSc (sa / 2)) q.subport then d else d.count
          .transitSfFallback (128 * d.subOfSc (sa / 2) + q.subport)).count .inOk sa).rxAccept sa pn (d.secy c.secy).window))) ∧
  (∀ (d : Dev) (sa : Nat) (queue : Nat) (ok : Bool) (pn : Nat) (head : List Byte) (tail : List Byte) (c : SecChan) (q : Queue),
     d.scOf (sa / 2) = some c ∧ mget d.queues queue = some q ∧ c.tx = false ∧ q.down = false ∧ d.tileRun (d.tileOfSa sa) = true ∧ d.tileRun (tileOfSub
       q.subport) = true ∧ ((d.sa sa).st = .ready ∨ (d.sa sa).st = .retiring) ∧ ((d.secy c.secy).replay = false ∨ (d.sa sa).low ≤ pn) ∧ d.cutOk
       (d.subOfSc (sa / 2)) q ((d.groupSecyOf q.subport q.group).bind (fun e => d.txSc e.1)) = false ∧ ok = false →
     Becomes (.transitVerdict sa queue ok pn head tail) d
       ((if d.safPath (d.subOfSc (sa / 2)) q.subport then d else d.count .transitSfFallback (128 * d.subOfSc (sa / 2) + q.subport)).count .inNotValid
          sa)) ∧
  (∀ (d : Dev) (sa : Nat) (queue : Nat) (ok : Bool) (pn : Nat) (head : List Byte) (tail : List Byte) (c : SecChan) (q : Queue) (n : Nat) (a : Dev) (b
     : Dev) (u : Option (Nat × Nat)),
     d.scOf (sa / 2) = some c ∧ mget d.queues queue = some q ∧ c.tx = false ∧ q.down = false ∧ d.tileRun (d.tileOfSa sa) = true ∧ d.tileRun (tileOfSub
       q.subport) = true ∧ ((d.sa sa).st = .ready ∨ (d.sa sa).st = .retiring) ∧ ((d.secy c.secy).replay = false ∨ (d.sa sa).low ≤ pn) ∧
       ((d.groupSecyOf q.subport q.group).bind (fun e => d.txSc e.1)) = some n ∧ d.cutOk (d.subOfSc (sa / 2)) q (some n) = true ∧ (u, a) = d.pnUse n
       (head ++ tail).length ((d.groupSecyOf q.subport q.group).any (fun e => e.2.conf)) ∧ b = a.onLine q.subport ((head ++ tail).length + a.msecGrow
       q.subport q.group) ∧ ok = true →
     Becomes (.transitVerdict sa queue ok pn head tail) d
       (((b.count .inOk sa).rxAccept sa pn (d.secy c.secy).window).emit (.frame q.subport (u.map (fun x => x.1)) ((u.map (fun x => x.2)).getD 0) (head
          ++ tail)))) ∧
  (∀ (d : Dev) (sa : Nat) (queue : Nat) (ok : Bool) (pn : Nat) (head : List Byte) (tail : List Byte) (c : SecChan) (q : Queue) (n : Nat) (a : Dev) (b
     : Dev) (u : Option (Nat × Nat)),
     d.scOf (sa / 2) = some c ∧ mget d.queues queue = some q ∧ c.tx = false ∧ q.down = false ∧ d.tileRun (d.tileOfSa sa) = true ∧ d.tileRun (tileOfSub
       q.subport) = true ∧ ((d.sa sa).st = .ready ∨ (d.sa sa).st = .retiring) ∧ ((d.secy c.secy).replay = false ∨ (d.sa sa).low ≤ pn) ∧
       ((d.groupSecyOf q.subport q.group).bind (fun e => d.txSc e.1)) = some n ∧ d.cutOk (d.subOfSc (sa / 2)) q (some n) = true ∧ (u, a) = d.pnUse n
       (head ++ tail).length ((d.groupSecyOf q.subport q.group).any (fun e => e.2.conf)) ∧ b = a.onLine q.subport ((head ++ tail).length + a.msecGrow
       q.subport q.group) ∧ ok = false →
     Becomes (.transitVerdict sa queue ok pn head tail) d
       ((((b.count .inNotValid sa).count .transitPoisoned sa).count .txPoisoned n).emit (.poisoned q.subport))) ∧
  (∀ (d : Dev) (secy : Nat) (m : Mkpdu),
     d.secyNamed secy = true ∧ (d.secy secy).mka = true ∧ m.icvOk = false →
     Becomes (.mkpduRx secy m) d ((d.count .mkaRx secy).count .mkaIcvFail secy)) ∧
  (∀ (d : Dev) (secy : Nat) (m : Mkpdu) (ick : List Byte) (kek : List Byte),
     d.secyNamed secy = true ∧ (d.secy secy).mka = true ∧ m.icvOk = true ∧ (d.secy secy).ick = some ick ∧ (d.secy secy).kek = some kek ∧ mhas (d.secy
       secy).peers m.sci = true ∧ m.prio < (d.secy secy).prio ∧ m.serverAn = none ∧ m.allPeersReceive = false →
     Becomes (.mkpduRx secy m) d
       ((d.count .mkaRx secy).setSecy secy
          { d.secy secy with
            peers := mput (d.secy secy).peers m.sci (d.count .mkaRx secy).now, prios := mput (d.secy secy).prios m.sci m.prio, server := false })) ∧
  (∀ (d : Dev) (secy : Nat),
     d.secyNamed secy = true ∧ (d.secy secy).mka = true ∧ (d.secy secy).ick.isSome = true ∧ (d.secy secy).server = false →
     Becomes (.mkaHelloTx secy) d
       (((d.setSecy secy { d.secy secy with mn := (d.secy secy).mn + 1 }).count .mkaTx secy).emit (.mkpdu secy ((d.secy secy).mn + 1) []))) ∧
  (∀ (d : Dev) (secy : Nat) (sci : Nat) (t : Raw),
     mhas d.msec.secys secy = true ∧ mget (d.secy secy).peers sci = some t ∧ mdel (d.secy secy).peers sci = [] ∧ mdel (d.secy secy).prios sci = [] →
     Becomes (.mkaPeerExpire secy sci) d
       ((((d.advanceTo (t + rawS 6)).setSecy secy { d.secy secy with peers := [], prios := [], server := true }).scsOf secy |>.foldl (fun d sc =>
          (d.saDisable (2 * sc)).saDisable (2 * sc + 1)) ((d.advanceTo (t + rawS 6)).setSecy secy
          { d.secy secy with peers := [], prios := [], server := true })).notify 0x8881 secy []))

/-- O26. Class 0x09: information, challenges, transitions, slots written, erased and reported, firmware staged and activated (R345, R346, R349,
R351, R352, R353, R354, R378, R503). CMD_CRU_INFO answers the device ID, life-cycle state, scheme, hallmark, transport key and attestation;
CMD_CRU_CHALLENGE a fresh challenge that lives 60 s. CMD_CRU_LIFECYCLE takes a transition of Table 13-6, whose token must be right where one
is needed, with the anchor it carries or the one held, and runs it once the reply is sent; in RETURNED a vendor token opens JTAG instead.
CMD_CRU_SLOT_WRITE stores and seals a key that unwraps with its known answer, and CMD_CRU_SLOT_ERASE forgets it; CMD_CRU_SLOT_STATUS answers
the slot records. CMD_CRU_FW_STAGE starts the transfer of its image as bulk data, and CMD_CRU_FW_ACTIVATE puts the staged slot first and
resets the package where asked. It rests on choices of the model: logs 8, 15. -/
def Obligations.CrucibleCommandsKeepKeys : Prop :=
  (Answers .cmdCruInfo specCruInfo
     (fun _ _ => True) (fun _ d => d)
     (fun c d =>
        padBytes (deviceIdB ++ leBytes 1 d.cru.life.code ++ leBytes 1 (b2n d.cru.scheme) ++ d.rst.hallmark ++ (if d.cru.life = .blank then
          d.transportPub false ++ d.transportPub true else d.transportPub d.cru.scheme) ++ d.attestation))) ∧
  (Answers .cmdCruChallenge specCruChallenge
     (fun c d => d.cru.ready = true ∧ d.cru.life ≠ .scrapped ∧ d.cru.lockEnd = none ∧ d.cru.entropyOk = true)
     (fun c d =>
        { (d.freshBytes 16).2 with
          cru := { (d.freshBytes 16).2.cru with challenge := some ((d.freshBytes 16).1, (d.freshBytes 16).2.now + rawS 60) } })
     (fun c d => (d.freshBytes 16).1)) ∧
  (AnswersThen .cmdCruLifecycle specCruLifecycle
     (fun c d =>
        d.cru.ready = true ∧ d.cru.life ≠ .scrapped ∧ c.params.length = 20 ∧ c.bit 2 0 = false ∧ c.u8 1 ≤ 1 ∧ c.u8 0 ≤ 4 ∧ ¬ (d.cru.life = .blank ∧
          c.u8 0 = 1) ∧ d.cru.entropyOk = true ∧ (transitionOk d.cru.life (c.lifeNamed) = some false ∨ transitionOk d.cru.life (c.lifeNamed) = some
          true ∧ (d.tokenRight c d.cru.anchor = true ∨ d.cru.life = .returned ∧ d.tokenRight c vendorAnchor = true)))
     (fun c d =>
        { d with
          cru :=
            { d.cru with
              challenge := none, transition := some c.lifeNamed,
              tokenFails := if transitionOk d.cru.life c.lifeNamed = some true then 0 else d.cru.tokenFails } })
     (fun c d => fun e => e.runTransition c.lifeNamed d.cru.anchor d.cru.scheme)) ∧
  (∀ (sch : Bool) (key : List Byte),
     key.length = 32 →
     AnswersThen .cmdCruLifecycle specCruLifecycle
       (fun c d =>
          d.cru.ready = true ∧ d.cru.life ≠ .scrapped ∧ c.params.length = pad4 (80 + partLen sch) ∧ c.u8 0 = 1 ∧ c.u8 1 ≤ 1 ∧ (d.cru.life = .blank →
            c.bit 2 0 = true) ∧ (if c.bit 2 0 = true then decide (c.u8 1 = 1) else d.cru.scheme) = sch ∧ d.cru.entropyOk = true ∧ (d.cru.life = .blank
            ∨ d.cru.life = .provisioned ∧ d.tokenRight c d.cru.anchor = true) ∧ c.bs (24 + partLen sch) 40 = keyWrap (d.transportKek sch (c.bs 24
            (partLen sch)) 0xFFFF (c.u32 20)) key ∧ c.bs (64 + partLen sch) 16 = cmac key (ascii "LNST-KAT" ++ leBytes 2 0xFFFF ++ leBytes 4 (c.u32
            20) ++ [0, 0]))
       (fun c d =>
          { d with
            cru :=
              { d.cru with
                challenge := none, transition := some .provisioned, tokenFails := if d.cru.life = .provisioned then 0 else d.cru.tokenFails } })
       (fun _ _ e => e.runTransition .provisioned key sch)) ∧
  (Answers .cmdCruLifecycle specCruLifecycle
     (fun c d => d.cru.ready = true ∧ d.cru.life = .returned ∧ Life.ofCode (c.u8 0) = some .returned ∧ d.tokenRight c vendorAnchor = true)
     (fun _ d => { d with cru := { d.cru with challenge := none, jtag := true, tokenFails := 0 } }) (fun _ _ => [])) ∧
  (Answers .cmdCruSlotErase specCruSlotErase
     (fun c d => d.cruOpen = true ∧ c.tgt < 256)
     (fun c d =>
        Dev.zeroCak (d.setPslot c.tgt { gen := (d.pslot c.tgt).gen, written := (d.pslot c.tgt).written, wcount := (d.pslot c.tgt).wcount + 1 }) c.tgt)
     (fun _ _ => [])) ∧
  (Answers .cmdCruSlotStatus specCruSlotStatus
     (fun c d => d.cruOpen = true ∧ 1 ≤ c.u8 0 ∧ c.u8 0 ≤ 64 ∧ c.tgt + c.u8 0 ≤ 256) (fun _ d => d)
     (fun c d => (List.range (c.u8 0)).flatMap (fun i => d.slotRecord (c.tgt + i)))) ∧
  (AnswersThen .cmdCruFwActivate specCruFwActivate
     (fun c d => d.cruOpen = true ∧ d.rst.strap = 0 ∧ d.cru.staged.isSome = true)
     (fun c d => { d with cru := { d.cru with flashFirst := d.cru.staged.getD 0, flashCopy := d.cru.staged.getD 0 } })
     (fun c d => if c.bit 0 0 then (fun e => e.warmReset 3) else id)) ∧
  (∀ (sch : Bool) (key : List Byte),
     key.length = 16 ∨ key.length = 32 →
     Answers .cmdCruSlotWrite specCruSlotWrite
       (fun c d =>
          d.cruOpen = true ∧ c.tgt < 256 ∧ 1 ≤ c.u8 0 ∧ c.u8 0 ≤ 6 ∧ (c.u8 0 = 4 → key.length = 16) ∧ (c.u8 0 ≠ 4 ∧ c.u8 0 ≠ 5 → key.length = 32) ∧
            c.params.length = pad4 (32 + partLen sch + key.length) ∧ d.cru.scheme = sch ∧ ((d.pslot c.tgt).written = true → (d.pslot c.tgt).gen <
            c.u32 4) ∧ c.bs (8 + partLen sch) (8 + key.length) = keyWrap (d.transportKek sch (c.bs 8 (partLen sch)) c.tgt (c.u32 4)) key ∧ c.bs (16 +
            partLen sch + key.length) 16 = cmac key (ascii "LNST-KAT" ++ leBytes 2 c.tgt ++ leBytes 4 (c.u32 4) ++ [0, 0]))
       (fun c d =>
          Dev.zeroCak
            { d.setPslot c.tgt { kind := c.u8 0, key := key, gen := c.u32 4, written := true, sealed := keyWrap (d.sealKey (c.u8 0)) key, wcount := (d.pslot c.tgt).wcount } with
              senders := d.senders.map (fun (n, s) => (n, if s.slot = some c.tgt then { s with consumed := 0, ring := [] } else s)) } c.tgt)
       (fun _ _ => [])) ∧
  (Transfers .cmdCruFwStage specCruFwStage)

/-- O27. Crucible timers, entropy, key loads, and the check pages: GO, a chunk's end, ABORT (R341, R347, R348, R352, R356, R357, R358). A
challenge ends at its deadline, and so does a token lock-out; a failed entropy test stops challenges and is recorded, and its end clears
that. A key load acknowledged with the first bytes of the MAC of the empty message under the key marks the working copy loaded; a mismatch
repeats the load up to three times and then raises F3. CHECK_PAGE_GO queues the first chunk of a message under the key of the page's slot
and a later chunk under the key the message has; a GO while the page is busy is a collision. At 25 ns a byte a last chunk leaves the tag or
the match, another WAIT_DATA. ABORT ends the message, and the engine goes on at the next block boundary. It rests on choices of the model:
logs 4, 11. -/
def Obligations.KeysLoadAndCheckPagesRun : Prop :=
  (∀ (d : Dev) (ch : List Byte) (t : Raw),
     d.cru.challenge = some (ch, t) →
     Becomes .challengeExpiry d ({ d.advanceTo t with cru := { (d.advanceTo t).cru with challenge := none } })) ∧
  (∀ (d : Dev) (t : Raw),
     d.cru.lockEnd = some t →
     Becomes .tokenLockoutEnd d ({ d.advanceTo t with cru := { (d.advanceTo t).cru with lockEnd := none } })) ∧
  (∀ (d : Dev),
     d.cru.entropyOk = true →
     Leaves .entropyHealthFail d fun e => Raised e 0x0B 0x02 0 0xFFFFFFFF ∧ Raises { d with cru := { d.cru with entropyOk := false } } e) ∧
  (∀ (d : Dev),
     d.cru.entropyOk = false →
     Becomes .entropyHealthRestored d (Dev.endCond { d with cru := { d.cru with entropyOk := true } } 0x0B 0x02 0 0xFFFFFFFF)) ∧
  (∀ (d : Dev) (slot : Nat) (ack : BitVec 32),
     d.volatileHeld slot = true ∧ (ack ≠ loadAck (d.volatileKey slot) → mgetD d.cru.loadFails slot 0 < 3) →
     Becomes (.keyLoadAck slot ack) d
       (if ack = loadAck (d.volatileKey slot) then Dev.markLoaded { d with cru := { d.cru with loadFails := mdel d.cru.loadFails slot } } slot else
          Dev.emit { d with cru := { d.cru with loadFails := mput d.cru.loadFails slot (mgetD d.cru.loadFails slot 0 + 1) } } (.keyBus 0
          (d.tileOfVolatile slot) slot))) ∧
  (∀ (d : Dev) (slot : Nat) (ack : BitVec 32),
     d.volatileHeld slot = true ∧ ack ≠ loadAck (d.volatileKey slot) ∧ 3 ≤ mgetD d.cru.loadFails slot 0 →
     Leaves (.keyLoadAck slot ack) d
       fun e =>
         Raised e 0x0B 0x03 (d.tileOfVolatile slot) (d.tileOfVolatile slot) ∧ Raises
           { d with cru := { d.cru with loadFails := mdel d.cru.loadFails slot } } e) ∧
  (∀ (d : Dev) (page : Nat) (value : BitVec 32) (key : List Byte),
     d.hostOk = true ∧ 4 ≤ page ∧ page < 16 ∧ (d.chkPage page).st.busy = false ∧ (d.chkPage page).st ≠ .waitData ∧ d.chkKey (value.toNat % 256) = some
       key ∧ 0 < (d.chkPage page).len ∧ (d.chkPage page).len ≤ 3840 ∧ (value.getLsbD 30 = true ∨ (d.chkPage page).len % 16 = 0) →
     Becomes (.checkPageGo page value) d
       (Dev.chkSchedule
          { d.setChk page { (Sys2Proof.Machine.ChkPage.ctrl { d.chkPage page with msg := [], bytes := 0, doneLen := 0, mtch := false, error := 0 } value.toNat) with st := .queued, key := some key, order := d.chkNo } with
            chkNo := d.chkNo + 1 })) ∧
  (∀ (d : Dev) (page : Nat) (value : BitVec 32) (key : List Byte),
     d.hostOk = true ∧ 4 ≤ page ∧ page < 16 ∧ (d.chkPage page).st = .waitData ∧ (d.chkPage page).key = some key ∧ 0 < (d.chkPage page).len ∧
       (d.chkPage page).len ≤ 3840 ∧ (value.getLsbD 30 = true ∨ (d.chkPage page).len % 16 = 0) →
     Becomes (.checkPageGo page value) d
       (Dev.chkSchedule
          { d.setChk page { (Sys2Proof.Machine.ChkPage.ctrl (d.chkPage page) value.toNat) with st := .queued, key := some key, order := d.chkNo } with
            chkNo := d.chkNo + 1 })) ∧
  (∀ (d : Dev) (page : Nat) (value : BitVec 32),
     d.hostOk = true ∧ 4 ≤ page ∧ page < 16 ∧ (d.chkPage page).st.busy = true →
     Becomes (.checkPageGo page value) d (d.setChk page { d.chkPage page with collision := true })) ∧
  (∀ (d : Dev) (page : Nat),
     d.hostOk = true ∧ 4 ≤ page ∧ page < 16 ∧ ((d.chkPage page).st.busy = true ∨ (d.chkPage page).st = .waitData) →
     Becomes (.checkPageAbort page) d
       (Dev.chkScheduleAt (d.chkEnd page { d.chkPage page with st := .error, error := 3, key := none, msg := [] }) (if (d.chkPage page).st = .running
          then (Sys2Proof.Machine.ChkPage.boundary (d.chkPage page) d.now).2 else d.now))) ∧
  (∀ (d : Dev) (page : Nat),
     (d.chkPage page).st = .running ∧ (d.chkPage page).last = false →
     Becomes (.checkChunkDone page) d
       (Dev.chkSchedule ((d.advanceTo (Sys2Proof.Machine.ChkPage.endAt (d.chkPage page))).setChk page
          { d.chkPage page with
            st := .waitData, msg := (d.chkPage page).msg ++ (d.chkPage page).data.take (d.chkPage page).len,
            bytes := ((d.chkPage page).msg ++ (d.chkPage page).data.take (d.chkPage page).len).length % 2 ^ 24,
            doneLen := ((d.chkPage page).msg ++ (d.chkPage page).data.take (d.chkPage page).len).length }))) ∧
  (∀ (d : Dev) (page : Nat) (key : List Byte) (msg : List Byte),
     (d.chkPage page).st = .running ∧ (d.chkPage page).last = true ∧ (d.chkPage page).key = some key ∧ msg = (d.chkPage page).msg ++ (d.chkPage
       page).data.take (d.chkPage page).len →
     Becomes (.checkChunkDone page) d
       (Dev.chkSchedule (if (d.chkPage page).verify then (d.advanceTo (Sys2Proof.Machine.ChkPage.endAt (d.chkPage page))).chkEnd page
          { d.chkPage page with
            st := .done, key := none, msg := [], bytes := msg.length % 2 ^ 24, doneLen := msg.length,
            mtch := decide ((cmac key msg).take (d.chkPage page).tagLen = (d.chkPage page).mac.take (d.chkPage page).tagLen) } else (d.advanceTo
          (Sys2Proof.Machine.ChkPage.endAt (d.chkPage page))).chkEnd page
          { d.chkPage page with st := .done, key := none, msg := [], bytes := msg.length % 2 ^ 24, doneLen := msg.length, mac := cmac key msg })))

/-- O28. RESET_N, the warm reset, and what a package reset keeps and loses (R58, R61, R63, R66, R391, R441). An accepted assertion of RESET_N
returns the package to AON, and its release starts the cold boot with the straps as sampled, or waits in AON while no feed is GOOD; the
release of an input ignored as stuck ends its fault and arms it again. A package warm reset returns channels, terminals, tables, queues,
mailboxes, groups and terminal keys to their reset values; it keeps the life cycle, the anchor, the root secret, the slots, the permissions
and journals, the eMRAM fault ring, the feeds and the always-on counts, and sets its bit of the cause. A reset of a lower level in progress
is absorbed and recorded. A warm reset requested while one runs is ignored; one requested during a cold reset is absorbed and recorded. It
rests on choices of the model: log 73. -/
def Obligations.ResetsReturnThePackage : Prop :=
  (∀ (d : Dev),
     d.pwr.pstate ≠ .unpowered ∧ d.pwr.pstate ≠ .aon ∧ d.pwr.pinReset.ignored = false →
     Leaves .resetNAssert d
       fun e =>
         e.pwr.pstate = .aon ∧ e.pwr.pinReset = { asserted := true, since := e.now } ∧ e.rst.cause = d.rst.cause ||| 2#32 ||| (if d.tileList.any (fun
           t => (d.tile t).st = .reset) || d.inWarm then 0x100#32 else 0#32) ∧ e.ready = false ∧ e.cru = d.cru.kept ∧ e.flt = d.flt.kept ∧ e.senders =
           d.senders.map (fun (k, s) => (k, s.kept)) ∧ e.chans = [] ∧ e.terms = [] ∧ e.queues = [] ∧ e.groups = [] ∧ e.host.mbox = []) ∧
  (∀ (d : Dev),
     d.pwr.pstate = .aon ∧ d.pwr.pinReset.ignored = false →
     Becomes .resetNAssert d ({ d with pwr := { d.pwr with pinReset := { asserted := true, since := d.now } } })) ∧
  (∀ (d : Dev) (bootSrc : BitVec 2) (refSel : Bool),
     d.pwr.pstate = .aon ∧ d.pwr.pinReset.ignored = false →
     Becomes (.resetNRelease bootSrc refSel) d
       ({ d with
          pwr := { d.pwr with pstate := if d.pwr.pfw then .aon else .ramp, pinReset := {} },
          rst :=
            { d.rst with
              strap := bootSrc.toNat, refSel := refSel, firstSlot := d.cru.flashFirst, copySlot := d.cru.flashCopy, resetAt := d.now,
              warmBoot := false }, time := { d.time with useB := refSel, up := 0 } })) ∧
  (∀ (d : Dev) (bootSrc : BitVec 2) (refSel : Bool),
     d.pwr.pstate ≠ .aon ∧ d.pwr.pinReset.ignored = true →
     Becomes (.resetNRelease bootSrc refSel) d (Dev.endCond { d with pwr := { d.pwr with pinReset := {} } } 0x01 0x08 0 0)) ∧
  (∀ (d : Dev),
     d.inReset = false →
     Leaves .warmResetStart d
       fun e =>
         e.pwr.pstate = .boot ∧ e.ready = false ∧ e.rst.cause = d.rst.cause ||| 0x40#32 ||| (if d.tileList.any (fun t => (d.tile t).st = .reset) then
           0x100#32 else 0#32) ∧ e.cru = d.cru.kept ∧ e.flt = d.flt.kept ∧ e.senders = d.senders.map (fun (k, s) => (k, s.kept)) ∧ e.pwr.feedA =
           d.pwr.feedA ∧ e.pwr.feedB = d.pwr.feedB ∧ e.pwr.changeovers = d.pwr.changeovers ∧ e.pwr.shortPulses = d.pwr.shortPulses ∧ e.chans = [] ∧
           e.terms = [] ∧ e.tables = [] ∧ e.queues = [] ∧ e.groups = [] ∧ e.host.mbox = [] ∧ e.host.locks = [] ∧ e.pon = []) ∧
  (∀ (d : Dev), d.inWarm = true → Becomes .warmResetStart d (d)) ∧
  (∀ (d : Dev), d.inReset = true ∧ d.inWarm = false → Becomes .warmResetStart d ({ d with rst := { d.rst with cause := d.rst.cause ||| 0x100#32 } }))

/-- O29. Die links, the boot image and its hallmark, memory, tiles, command-ready (R15, R68, R69, R70, R71, R72, R73, R74, R75, R76, R77, R351).
A trained die link is recorded with a new link key; one that fails or loses lock raises the F3 of its pair. A stage that verifies under the
provisioned scheme is measured and extended into the hallmark, and the last leads to memory initialisation; a rejected one leads to the
other slot or the host, whose load starts in WAIT_HOST and is verified in order. A failed lead tile ends the boot, others are isolated. A
tile whose images differ is isolated; one whose images are as measured is aligned. At command-ready every tile that is not isolated enters
RUN, the package operates unless quench holds, and a pending transition is run again. A reset tile goes on to RUN, or to the assay run that
its anneal asked for. It rests on choices of the model: logs 8, 11, 66, 68, 73. -/
def Obligations.ImagesAndTilesBoot : Prop :=
  (∀ (d : Dev) (a : Nat) (b : Nat),
     d.linkExists a b = true ∧ d.linksTrain = true →
     Becomes (.dieLinkTrained a b) d
       (Dev.crossSettled (Dev.linksDone
          { d.fresh.2 with
            rst := { d.fresh.2.rst with links := mput d.fresh.2.rst.links (linkKey a b) true },
            cru := { d.fresh.2.cru with linkKeys := mput d.fresh.2.cru.linkKeys b d.fresh.1 } }))) ∧
  (∀ (d : Dev) (a : Nat) (b : Nat),
     d.linkExists a b = true ∧ d.linkUpAB a b = false ∧ d.linksTrain = true →
     Becomes (.dieLinkTrainTimeout a b) d
       ((fun (r : Dev) => Dev.crossSettled (if d.rst.stage = .links then r.linksDone else r.dropUnreachable false)) (Dev.raise
          { d with rst := { d.rst with links := mput d.rst.links (linkKey a b) false } } 0x02 0x01 3 a a b false))) ∧
  (∀ (d : Dev) (a : Nat) (b : Nat),
     d.linkExists a b = true ∧ d.linkUpAB a b = true →
     Becomes (.dieLinkLockLoss a b) d
       (Dev.dropUnreachable (Dev.raise { d with rst := { d.rst with links := mput d.rst.links (linkKey a b) false } } 0x02 0x01 3 a a b false) false)) ∧
  (∀ (d : Dev) (image : BootImage) (a : Dev),
     d.rst.stage = .load ∧ d.rst.loadGo = false ∧ d.pwr.pfw = false ∧ a = d.flashAwake.directory image ∧ (a.rst.slotTry < 2 → image.answers = true ∧
       (a.rst.strap = 0 → image.dirOk = true ∨ image.copyOk = true)) ∧ image.size ≤ 2 ^ 24 ∧ (if a.cru.scheme then image.mldsaOk else image.ecdsaOk) =
       true ∧ image.stage = a.rst.stages + 1 ∧ image.stage ≤ 4 →
     Leaves (.imageStageVerified image) d
       fun e =>
         e.rst.hallmark = sha384 (a.rst.hallmark ++ [BitVec.ofNat 8 image.stage] ++ sha384 image.bytes) ∧ e.rst.mlog = a.rst.mlog ++ [sha384
           image.bytes] ∧ e.rst.stages = image.stage ∧ e.rst.stage = (if image.stage = 4 then .meminit else .load) ∧ (image.stage = 4 → e.rst.source =
           a.rst.slotTry) ∧ (image.stage = 2 → e.rst.fwRelease = image.release) ∧ e = { a with rst := e.rst }) ∧
  (∀ (d : Dev) (image : BootImage) (a : Dev),
     d.rst.stage = .load ∧ d.rst.loadGo = false ∧ d.pwr.pfw = false ∧ a = d.flashAwake.directory image ∧ a.stageError image ≠ 0 →
     Leaves (.imageStageVerified image) d
       fun e =>
         e.rst.error = a.stageError image ∧ e.rst.hallmark = zeroBytes 48 ∧ e.rst.mlog = [] ∧ e.rst.stages = 0 ∧ e.rst.slotBad = addUniq a.rst.slotBad
           a.rst.slotTry ∧ (if a.rst.strap = 0 ∧ a.rst.slotTry < 2 ∧ 2 < a.stageError image ∧ (1 - a.rst.slotTry) ∉ addUniq a.rst.slotBad
           a.rst.slotTry then e.rst.stage = .load ∧ e.rst.slotTry = 1 - a.rst.slotTry else e.rst.stage = .waitHost ∧ e.rst.slotTry = 2)) ∧
  (∀ (d : Dev) (value : BitVec 32),
     d.rst.stage = .waitHost ∧ d.host.linkUp = true ∧ d.pwr.pfw = false →
     Becomes (.rstBootDescGo value) d
       ((fun (r : Dev) => if value.getLsbD 0 then { r with rst := { r.rst with loadGo := true, stage := .load, slotTry := 2 } } else r) (d.setReg
          0x208 (value.toNat / 64 * 64)))) ∧
  (∀ (d : Dev) (value : BitVec 32),
     d.rst.stage ≠ .waitHost ∧ d.hostOk = true →
     Becomes (.rstBootDescGo value) d (d.setReg 0x208 (value.toNat / 64 * 64))) ∧
  (∀ (d : Dev) (load : HostLoad),
     d.rst.loadGo = true ∧ d.rst.stage = .load ∧ d.pwr.pfw = false →
     Becomes (.hostImageLoaded load) d
       ((fun (r : Dev) => if load.listOk then load.images.foldl Dev.stageRead r else r.slotRejected 7)
          { d with rst := { d.rst with loadGo := false } })) ∧
  (∀ (d : Dev) (failed : List Nat),
     d.rst.stage = .meminit ∧ d.pwr.pfw = false ∧ 0 ∈ failed →
     Becomes (.meminitDone failed) d ({ d with rst := { d.rst with stage := .failed, loadGo := false }, pwr := { d.pwr with pstate := .boot } })) ∧
  (∀ (d : Dev) (failed : List Nat) (r : Dev),
     d.rst.stage = .meminit ∧ d.pwr.pfw = false ∧ 0 ∉ failed ∧ r = (failed.filter (fun t => t < d.nTiles)).foldl (fun d t => (d.takeOut t).raise 0x02
       0x05 3 t t 0 false true) d →
     Becomes (.meminitDone failed) d
       ((fun (r : Dev) => Dev.bootRunTile
          { r with asy := { r.asy with bootRun := r.tileList.filter (fun t => (r.tile t).st ≠ .isolated && r.bootAssay t) } } 0)
          { r with rst := { r.rst with stage := .tiles } })) ∧
  (∀ (d : Dev) (tile : Nat) (load : TileLoad),
     0 < tile ∧ tile < d.nTiles ∧ d.ready = true ∧ (d.tile tile).st = .reset ∧ (d.tile tile).assayAfter = none ∧ d.linksBack tile = true ∧
       load.images.map sha384 = d.rst.mlog →
     Becomes (.tileImageLoaded tile load) d
       (((d.updTile tile (fun x =>
          { x with
            aligned := true, rawDiff := BitVec.ofInt 64 (((load.out + load.back) / 2 : Nat) - (load.out : Int)), corr := 0, timeErr := 0 })).endResync
          tile 0x80#9).tileTo tile .boot)) ∧
  (∀ (d : Dev) (tile : Nat) (load : TileLoad),
     0 < tile ∧ tile < d.nTiles ∧ d.rst.stage = .tiles ∧ d.pwr.pfw = false ∧ (d.tile tile).st = .boot ∧ (d.tile tile).aligned = false ∧
       load.images.map sha384 = d.rst.mlog →
     Becomes (.tileImageLoaded tile load) d
       (((d.updTile tile (fun x =>
          { x with
            aligned := true, rawDiff := BitVec.ofInt 64 (((load.out + load.back) / 2 : Nat) - (load.out : Int)), corr := 0, timeErr := 0 })).endResync
          tile 0x80#9).bootRunTile tile)) ∧
  (∀ (d : Dev) (tile : Nat) (load : TileLoad),
     0 < tile ∧ tile < d.nTiles ∧ d.rst.stage = .tiles ∧ d.pwr.pfw = false ∧ (d.tile tile).st = .boot ∧ (d.tile tile).aligned = false ∧
       load.images.map sha384 ≠ d.rst.mlog →
     Becomes (.tileImageLoaded tile load) d
       ((((d.updTile tile (fun x => { x with lastCause := 4 })).takeOut tile).raise 0x02 0x06 3 tile tile 0 false true).assayGone tile)) ∧
  (∀ (d : Dev),
     d.rst.stage = .tiles ∧ d.pwr.pfw = false ∧ (d.tileList.filter (fun t => t ≠ 0 && (d.tile t).st ≠ .isolated)).all (fun t => (d.tile t).aligned &&
       (d.tile t).st = .boot) = true ∧ d.asy.bootRun = [] ∧ d.asy.exitPend = false ∧ d.cru.transition = none →
     Leaves .commandReady d
       fun e =>
         e.rst.stage = .ready ∧ (e.flt.quench = false → e.pwr.pstate = .operating) ∧ e.rst.readyUs = (d.now - d.rst.resetAt).toNat / 65536000 ∧
           e.asy.oneShot = none ∧ e.cru.transition = none ∧ (d.tileList.filter (fun t => t = 0 || (d.tile t).st ≠ .isolated)).all (fun t => (e.tile
           t).st = .run) = true) ∧
  (∀ (d : Dev) (life : Life),
     d.rst.stage = .tiles ∧ d.pwr.pfw = false ∧ (d.tileList.filter (fun t => t ≠ 0 && (d.tile t).st ≠ .isolated)).all (fun t => (d.tile t).aligned &&
       (d.tile t).st = .boot) = true ∧ d.asy.bootRun = [] ∧ d.asy.exitPend = false ∧ d.cru.transition = some life →
     Leaves .commandReady d fun e => e.cru.life = life ∧ e.cru.transition = none ∧ e.cru.slots = [] ∧ e.rst.stage = .links ∧ e.pwr.pstate = .boot) ∧
  (∀ (d : Dev) (tile : Nat),
     d.ready = true ∧ tile ≠ 0 ∧ tile < d.nTiles ∧ (d.tile tile).st = .boot ∧ (d.tile tile).aligned = true ∧ (d.tile tile).assayAfter = none →
     Becomes (.tileReset tile) d ((d.finishTileReset tile).assayComplete)) ∧
  (∀ (d : Dev) (tile : Nat) (set : Nat),
     d.ready = true ∧ tile ≠ 0 ∧ tile < d.nTiles ∧ (d.tile tile).st = .reset ∧ (d.tile tile).assayAfter = some set →
     Becomes (.tileReset tile) d ((d.updTile tile (fun x => { x with assayAfter := none })).assayOrDefer tile 2 set))

/-- O30. Lockstep pairs, watchdogs and engines, the discrete inputs (R17, R19, R58, R61, R435, R447, R449). The loss of one lockstep pair of a
tile, by a disagreement or a watchdog expiry, is an F3 and leaves the other; the loss of both isolates the tile, and of the lead tile is an
F4. A bad engine is listed and its task moves to a free spare where there is one. The inputs EXT_QUENCH_N and PROT_REQ_N set and clear what
they ask for, a short pulse is counted, and one held past its time is ignored as stuck, with an F2; seen deasserted, it is armed again. It
rests on choices of the model: log 4. -/
def Obligations.LossesAreReported : Prop :=
  (∀ (d : Dev) (tile : Nat) (pair : Nat),
     tile < d.nTiles ∧ pair < 2 ∧ (d.tile tile).pairBad = 0#2 ∧ d.pwr.pstate ≠ .aon ∧ d.pwr.pstate ≠ .unpowered →
     Becomes (.lockstepDisagree tile pair) d
       ((d.updTile tile (fun x => { x with pairBad := 0#2 ||| (1#2 <<< pair) })).raise 0x02 0x02 3 tile tile pair false)) ∧
  (∀ (d : Dev) (tile : Nat) (pair : Nat),
     0 < tile ∧ tile < d.nTiles ∧ pair < 2 ∧ (d.tile tile).pairBad = 1#2 <<< (1 - pair) ∧ d.pwr.pstate ≠ .aon ∧ d.pwr.pstate ≠ .unpowered →
     Becomes (.lockstepDisagree tile pair) d
       ((((d.updTile tile (fun x => { x with pairBad := 3#2 })).takeOut tile).raise 0x02 0x02 3 tile tile 2 false true).assayGone tile)) ∧
  (∀ (d : Dev) (tile : Nat) (pair : Nat),
     tile = 0 ∧ pair < 2 ∧ (d.tile 0).pairBad = 1#2 <<< (1 - pair) ∧ d.pwr.pstate ≠ .aon ∧ d.pwr.pstate ≠ .unpowered →
     Becomes (.lockstepDisagree tile pair) d ((Dev.leadFails (d.updTile 0 (fun x => { x with pairBad := 3#2 }))).raise 0x02 0x03 4 0 0 2 false)) ∧
  (∀ (d : Dev) (tile : Nat) (pair : Nat),
     tile < d.nTiles ∧ pair < 2 ∧ (d.tile tile).pairBad = 0#2 ∧ d.pwr.pstate ≠ .aon ∧ d.pwr.pstate ≠ .unpowered →
     Becomes (.watchdogExpiry tile pair) d
       ((d.updTile tile (fun x => { x with pairBad := 0#2 ||| (1#2 <<< pair) })).raise 0x02 0x07 3 tile tile pair false)) ∧
  (∀ (d : Dev) (tile : Nat) (pair : Nat),
     0 < tile ∧ tile < d.nTiles ∧ pair < 2 ∧ (d.tile tile).pairBad = 1#2 <<< (1 - pair) ∧ d.pwr.pstate ≠ .aon ∧ d.pwr.pstate ≠ .unpowered →
     Becomes (.watchdogExpiry tile pair) d
       ((((d.updTile tile (fun x => { x with pairBad := 3#2 })).takeOut tile).raise 0x02 0x07 3 tile tile 2 false true).assayGone tile)) ∧
  (∀ (d : Dev) (tile : Nat) (pair : Nat),
     tile = 0 ∧ pair < 2 ∧ (d.tile 0).pairBad = 1#2 <<< (1 - pair) ∧ d.pwr.pstate ≠ .aon ∧ d.pwr.pstate ≠ .unpowered →
     Becomes (.watchdogExpiry tile pair) d ((Dev.leadFails (d.updTile 0 (fun x => { x with pairBad := 3#2 }))).raise 0x02 0x07 4 0 0 2 false)) ∧
  (∀ (d : Dev) (engine : Nat) (s : Nat) (l : List Nat),
     d.tileRun (engine / 32) = true ∧ engine % 32 ∉ (d.tile (engine / 32)).engBad ∧ engine % 32 < 30 ∧ [30, 31].filter (fun s => !((d.tile (engine /
       32)).engMove.map (fun m => m.2)).contains s && !(d.tile (engine / 32)).engBad.contains s) = s :: l →
     Becomes (.engineIsolate engine) d
       ((d.updTile (engine / 32) (fun x =>
          { x with
            engBad := insSorted x.engBad (engine % 32), engMove := x.engMove.filter (fun m => m.2 ≠ engine % 32) ++ [(engine % 32, s)] })).raise 0x02
          0x04 2 (engine / 32) engine (32 * (engine / 32) + s) false)) ∧
  (∀ (d : Dev) (engine : Nat),
     d.tileRun (engine / 32) = true ∧ engine % 32 ∉ (d.tile (engine / 32)).engBad ∧ engine % 32 < 30 ∧ [30, 31].filter (fun s => !((d.tile (engine /
       32)).engMove.map (fun m => m.2)).contains s && !(d.tile (engine / 32)).engBad.contains s) = [] →
     Becomes (.engineIsolate engine) d
       ((d.updTile (engine / 32) (fun x =>
          { x with engBad := insSorted x.engBad (engine % 32), engMove := x.engMove.filter (fun m => m.2 ≠ engine % 32) })).raise 0x02 0x04 2 (engine
          / 32) engine 0xFFFFFFFF false)) ∧
  (∀ (d : Dev),
     d.pwr.pinQuench.asserted = false ∧ d.ready = true →
     Leaves .extQuenchAssert d
       fun e => e.pwr.pinQuench = { asserted := true, since := d.now } ∧ e.flt.extQuench = true ∧ Raised e 0x0F 0x01 0xFF 0xFFFFFFFF) ∧
  (∀ (d : Dev),
     d.pwr.pinQuench.asserted = false ∧ d.ready = false →
     Becomes .extQuenchAssert d ({ d with pwr := { d.pwr with pinQuench := { asserted := true, since := d.now } } })) ∧
  (∀ (d : Dev),
     d.pwr.pinQuench.asserted = true →
     Becomes .extQuenchRelease d
       ((fun (r : Dev) => { r with pwr := { r.pwr with pinQuench := {} } }) (if d.pwr.pinQuench.ignored then d.endCond 0x01 0x08 0 1 else d.endCond
          0x0F 0x01 0xFF 0xFFFFFFFF))) ∧
  (∀ (d : Dev) (n : Nat),
     n < 4 ∧ (mgetD d.pwr.pinProt n {}).asserted = false →
     Becomes (.protReqAssert n) d
       (let r : Dev := { d with pwr := { d.pwr with pinProt := mput d.pwr.pinProt n { asserted := true, since := d.now } } }
        if d.ready then (r.pinTrees n).foldl (fun d t => (d.groupRefresh t).raiseCause t 6) r else r)) ∧
  (∀ (d : Dev) (n : Nat),
     n < 4 ∧ (mgetD d.pwr.pinProt n {}).asserted = true →
     Becomes (.protReqRelease n) d
       ((fun (r : Dev) => (r.pinTrees n).foldl (fun d t => d.groupRefresh t) r) ((fun (e : Dev) =>
          { e with pwr := { e.pwr with pinProt := mdel e.pwr.pinProt n } }) (if (mgetD d.pwr.pinProt n {}).ignored then d.endCond 0x01 0x08 0 (2 + n)
          else d)))) ∧
  (∀ (d : Dev) (input : Nat),
     input ≤ 5 →
     Becomes (.discreteShortPulse input) d ({ d with pwr := { d.pwr with shortPulses := min 255 (d.pwr.shortPulses + 1) } })) ∧
  (∀ (d : Dev) (pin : StuckInput) (p : Pin) (r : Dev),
     2 ≤ pin.input ∧ pin.input ≤ 5 ∧ mget d.pwr.pinProt (pin.input - 2) = some p ∧ p.asserted = true ∧ p.ignored = false ∧ d.ready = true ∧ r =
       d.advanceTo (p.since + rawS 10) →
     Becomes (.stuckTimeout pin) d
       ((fun (e : Dev) => (e.pinTrees (pin.input - 2)).foldl (fun d t => d.groupRefresh t) e) (Dev.raise
          { r with
            pwr :=
              { r.pwr with
                pinProt := mput r.pwr.pinProt (pin.input - 2) { p with ignored := true }, protStuck := r.pwr.protStuck ||| (1#4 <<< (pin.input - 2)) }
                } 0x01 0x08 2 0 pin.input 10 true))) ∧
  (∀ (d : Dev) (pin : StuckInput) (r : Dev),
     pin.input = 1 ∧ d.pwr.pinQuench.asserted = true ∧ d.pwr.pinQuench.ignored = false ∧ d.ready = true ∧ r = d.advanceTo (d.pwr.pinQuench.since +
       rawS d.quenchStuckS) →
     Becomes (.stuckTimeout pin) d
       ((Dev.raise { r with pwr := { r.pwr with pinQuench := { d.pwr.pinQuench with ignored := true }, quenchStuck := true } } 0x01 0x08 2 0 1
          d.quenchStuckS true).endCond 0x0F 0x01 0xFF 0xFFFFFFFF)) ∧
  (∀ (d : Dev) (pin : StuckInput) (r : Dev),
     pin.input = 0 ∧ d.pwr.pinReset.asserted = true ∧ d.pwr.pinReset.ignored = false ∧ d.pwr.pstate = .aon ∧ d.pwr.pfw = false ∧ d.rst.stage ≠ .ready
       ∧ r = d.advanceTo (d.pwr.pinReset.since + rawS 10) →
     Becomes (.stuckTimeout pin) d
       (Dev.coldBoot { r with pwr := { r.pwr with pinReset := { d.pwr.pinReset with ignored := true }, resetStuck := true } } pin.straps.bootSrc
          pin.straps.refSel))

/-- O31. Class 0x0E: a run started or aborted, its configuration, its results, and the end of a scan (R454, R455, R456, R457, R458, R459, R460).
CMD_ASSAY_START starts or defers a run of the named tiles and answers them once they have left it; with the lead tile among them it resets
the package for its run; its abort marks the runs under way and interrupts those that wait. CMD_ASSAY_CONFIG sets mode and set,
CMD_ASSAY_RESULT answers words and signatures. A scan with every pattern and the golden signature passes: its tile returns through its exit
reset, or stays isolated while quench holds; any other leaves the tile isolated with its fault; the lead tile returns to BOOT. A tile that
waited too long for its temperature boots without assay, and an F0 notes it. It rests on choices of the model: logs 4, 15, 66. -/
def Obligations.AssayTestsTiles : Prop :=
  (StartsThen .cmdAssayStart specAssayStart stAccepted (fun c d => c.u8 1 = 0 ∧ bitN (c.u8 0) 0 = false ∧ ((List.range 8).filter (fun t => bitN (c.u8
     0) t)).all (fun t => t < d.nTiles && d.tileRun t && (d.tile t).level < 2) = true) (fun c d => ((List.range 8).filter (fun t => bitN (c.u8 0)
     t)).foldl (fun d t => d.assayOrDefer t 1 d.asy.set) d) .assay (fun c d => c.u8 0) (fun c d => Dev.assayComplete)) ∧
  (AnswersThen .cmdAssayStart specAssayStart
     (fun c d =>
        c.u8 1 = 0 ∧ bitN (c.u8 0) 0 = true ∧ ((List.range 8).filter (fun t => bitN (c.u8 0) t)).all (fun t => t < d.nTiles && d.tileRun t && (d.tile
          t).level < 2) = true)
     (fun c d => { d with asy := { d.asy with oneShot := some (c.u8 0) } }) (fun c d => fun e => e.warmReset 3)) ∧
  (AnswersThen .cmdAssayStart specAssayStart
     (fun c d => c.u8 1 = 1 ∧ ((List.range 8).filter (fun t => bitN (c.u8 0) t)).all (fun t => t < d.nTiles) = true)
     (fun c d =>
        ((List.range 8).filter (fun t => bitN (c.u8 0) t)).foldl (fun d t => if (d.asyTile t).running then d.setAsyTile t
          { d.asyTile t with abort := true } else d.assayInterrupt t 1) d)
     (fun c d => Dev.assayComplete)) ∧
  (Answers .cmdAssayConfig specAssayConfig
     (fun c d => c.u8 0 ≤ 2 ∧ c.u8 1 ≤ 2) (fun c d => { d with asy := { d.asy with boot := c.u8 0, set := c.u8 1 } }) (fun _ _ => [])) ∧
  (Answers .cmdAssayResult specAssayResult
     (fun _ _ => True) (fun _ d => d) (fun c d => d.tileList.flatMap (fun t => leBytes 4 (d.asyWord t) ++ leBytes 16 (d.asyTile t).sig.toNat))) ∧
  (∀ (d : Dev) (tile : Nat) (patterns : Nat) (sig : BitVec 128) (golden : BitVec 128) (reason : Nat) (r : Dev),
     (d.asyTile tile).running = true ∧ tile ≠ 0 ∧ patterns = patternsOf (d.asyTile tile).set ∧ sig = golden ∧ r = d.advanceTo ((d.asyTile tile).since
       + rawMs (scanMs (d.asyTile tile).set)) →
     Becomes (.assayScanDone tile patterns sig golden reason) d
       (Dev.assayComplete (Dev.bootRunDone ((((r.setAsyTile tile
          { d.asyTile tile with
            running := false, done := true, complete := true, pass := true, reason := 0, patterns := 0, sig := sig, abort := false }).endCond 0x10
          0x01 tile tile).endCond 0x10 0x02 tile tile |>.endCond 0x10 0x03 tile tile).assayExit tile (if r.flt.quench then .isolated else .reset))
          tile true))) ∧
  (∀ (d : Dev) (tile : Nat) (patterns : Nat) (sig : BitVec 128) (golden : BitVec 128) (reason : Nat),
     (d.asyTile tile).running = true ∧ tile ≠ 0 ∧ patterns = patternsOf (d.asyTile tile).set ∧ sig ≠ golden ∧ d.asy.bootRun.contains tile = false →
     Leaves (.assayScanDone tile patterns sig golden reason) d
       fun e =>
         (e.tile tile).st = .isolated ∧ (e.asyTile tile).done = true ∧ (e.asyTile tile).complete = true ∧ (e.asyTile tile).pass = false ∧ (e.asyTile
           tile).sig = sig) ∧
  (∀ (d : Dev) (tile : Nat) (patterns : Nat) (sig : BitVec 128) (golden : BitVec 128) (reason : Nat),
     (d.asyTile tile).running = true ∧ tile ≠ 0 ∧ patterns ≠ patternsOf (d.asyTile tile).set ∧ d.asy.bootRun.contains tile = false →
     Leaves (.assayScanDone tile patterns sig golden reason) d
       fun e =>
         (e.tile tile).st = .isolated ∧ (e.asyTile tile).done = true ∧ (e.asyTile tile).complete = false ∧ (e.asyTile tile).pass = false ∧ (e.asyTile
           tile).patterns = patterns ∧ (e.asyTile tile).reason = (if (d.asyTile tile).abort then 1 else reason)) ∧
  (∀ (d : Dev) (tile : Nat) (patterns : Nat) (sig : BitVec 128) (golden : BitVec 128) (reason : Nat),
     (d.asyTile 0).running = true ∧ tile = 0 ∧ patterns = patternsOf (d.asyTile 0).set ∧ sig ≠ golden ∧ d.asy.bootRun.contains 0 = false →
     Leaves (.assayScanDone tile patterns sig golden reason) d
       fun e =>
         (e.tile 0).st = .boot ∧ (e.asyTile 0).done = true ∧ (e.asyTile 0).complete = true ∧ (e.asyTile 0).pass = false ∧ e.asy.forced = true ∧ Raised
           e 0x10 0x02 0 0) ∧
  (∀ (d : Dev) (tile : Nat),
     (d.asyTile tile).waits = true →
     Becomes (.assayThermalWaitExpiry tile) d
       (Dev.bootRunDone (Dev.raise ((d.advanceTo ((d.asyTile tile).since + rawS 10)).setAsyTile tile { d.asyTile tile with waits := false }) 0x10 0x04
          0 tile tile (lowBits 8 (d.tile tile).nowC) false) tile false))

/-- O32. Network time: a rate write bends it without a jump, a step moves it by what it says (R117, R118, R126, R127, R134, R135, R137). A write
of TIME_RATE while the host owns the servo changes the rate and leaves network time at the instant as it was; without ownership it only sets
step_refused. A step that R118 honours, by TIME_STEP_NS or by CMD_TIME_STEP, moves network time by its seconds and nanoseconds;
CMD_TIME_STEP's marks open bins suspect and keeps the frame clock; a refused one only sets step_refused. CMD_TIME_PTP_PORT sets a port, T-GM
where PPS_IN and the time of day are there; CMD_TIME_PHY_LATENCY sets latencies; CMD_TIME_TOD answers the next superframe or the one it
names, and its instant; CMD_TIME_STATUS answers the servo. It rests on choices of the model: logs 3, 8, 15. -/
def Obligations.TimeMovesOnlyByRateAndStep : Prop :=
  (∀ (d : Dev) (value : BitVec 32),
     d.hostOk = true ∧ d.hostServo = true ∧ 0 ≤ d.netU ∧ d.netU < 2 ^ 48 * 1000000000 * 65536 →
     Leaves (.timeRateWrite value) d fun e => e.time.rate = value ∧ e.netU = d.netU ∧ e = { d with time := e.time }) ∧
  (∀ (d : Dev) (value : BitVec 32),
     d.hostOk = true ∧ d.hostServo = false →
     Becomes (.timeRateWrite value) d ({ d with time := { d.time with stepRefused := true } })) ∧
  (∀ (d : Dev) (value : BitVec 32),
     d.hostOk = true ∧ value.getLsbD 31 = true ∧ d.stepAllowed (min 999999999 (value.toNat % 2 ^ 30)) = true →
     Leaves (.timeStepGo value) d
       fun e =>
         e.time.stepped = true ∧ e.time.todSet = true ∧ (0 ≤ d.netU + ((signedOf 32 (d.reg 0x31C) * 1000000000 + (min 999999999 (value.toNat % 2 ^ 30)
           : Nat)) * 65536) → d.netU + ((signedOf 32 (d.reg 0x31C) * 1000000000 + (min 999999999 (value.toNat % 2 ^ 30) : Nat)) * 65536) < 2 ^ 48 *
           1000000000 * 65536 → e.netU = d.netU + ((signedOf 32 (d.reg 0x31C) * 1000000000 + (min 999999999 (value.toNat % 2 ^ 30) : Nat)) * 65536))) ∧
  (∀ (d : Dev) (value : BitVec 32),
     d.hostOk = true ∧ value.getLsbD 31 = true ∧ d.stepAllowed (min 999999999 (value.toNat % 2 ^ 30)) = false →
     Becomes (.timeStepGo value) d ({ d.setReg 0x320 (value.toNat % 2 ^ 30) with time := { d.time with stepRefused := true } })) ∧
  (∀ (d : Dev) (value : BitVec 32), d.hostOk = true ∧ value.getLsbD 31 = false → Becomes (.timeStepGo value) d (d.setReg 0x320 (value.toNat % 2 ^ 30))) ∧
  (AnswersWith .cmdTimeStep specTimeStep (fun c d => c.u32 4 ≤ 999999999 ∧ d.stepAllowed (c.u32 4) = true) (fun c d e => e = (fun (r : Dev) =>
     { r with time := { r.time with todSet := true } }) (d.timeStep ((c.i32 0 * 1000000000 + c.u32 4) * 65536)) ∧ (0 ≤ d.netU + ((c.i32 0 * 1000000000
     + c.u32 4) * 65536) → d.netU + ((c.i32 0 * 1000000000 + c.u32 4) * 65536) < 2 ^ 48 * 1000000000 * 65536 → e.netU = d.netU + ((c.i32 0 *
     1000000000 + c.u32 4) * 65536))) (fun _ _ => [])) ∧
  (Answers .cmdTimePtpPort specTimePtpPort
     (fun c d =>
        c.tgt < d.nSubs ∧ d.tileRun (tileOfSub c.tgt) = true ∧ 24 ≤ c.u8 1 ∧ c.u8 1 ≤ 43 ∧ (c.u8 0 ≤ 1 ∨ c.u8 0 = 2 ∧ d.time.ppsOk = true ∧
          d.time.todSet = true))
     (fun c d => Dev.ptpSlave (d.setPtp c.tgt { enabled := c.bit 2 0, domain := c.u8 1, clockType := c.u8 0, twoStep := c.bit 2 1 }) c.tgt false)
     (fun _ _ => [])) ∧
  (Answers .cmdTimePhyLatency specTimePhyLatency
     (fun c d => c.tgt < d.nSubs ∧ d.tileRun (tileOfSub c.tgt) = true)
     (fun c d => { d with time := { d.time with phyLat := mput d.time.phyLat c.tgt { rxNs := c.u32 0, txNs := c.u32 4 } } }) (fun _ _ => [])) ∧
  (Answers .cmdTimeTod specTimeTod
     (fun c d => d.chanOk c.tgt = true ∧ d.tileRun (tileOfChan c.tgt) = true ∧ (d.chan c.tgt).st ≠ .disabled ∧ c.params.length = 0) (fun _ d => d)
     (fun c d =>
        leBytes 8 (superframe (c.tgt % 4) (lowBits 48 (d.frameI + 1))) ++ leBytes 8 (lowBits 48 ((d.frameNetNs (d.frameI + 1) + Config.todRefNs (c.tgt
          % 4)) / 1000000000)) ++ leBytes 4 ((d.frameNetNs (d.frameI + 1) + Config.todRefNs (c.tgt % 4)) % 1000000000).toNat)) ∧
  (Answers .cmdTimeTod specTimeTod
     (fun c d =>
        d.chanOk c.tgt = true ∧ d.tileRun (tileOfChan c.tgt) = true ∧ (d.chan c.tgt).st ≠ .disabled ∧ c.params.length = 8 ∧ 1 ≤ d.superAhead (c.tgt %
          4) (c.u64 0) ∧ d.superAhead (c.tgt % 4) (c.u64 0) ≤ 16000)
     (fun _ d => d)
     (fun c d =>
        (fun (n : Nat) => leBytes 8 (superframe (c.tgt % 4) (lowBits 48 (d.frameI + n))) ++ leBytes 8 (lowBits 48 ((d.frameNetNs (d.frameI + n) +
          Config.todRefNs (c.tgt % 4)) / 1000000000)) ++ leBytes 4 ((d.frameNetNs (d.frameI + n) + Config.todRefNs (c.tgt % 4)) % 1000000000).toNat)
          (d.superAhead (c.tgt % 4) (c.u64 0)))) ∧
  (Answers .cmdTimeStatus specTimeStatus
     (fun _ _ => True) (fun _ d => d)
     (fun c d => leBytes 1 d.time.st.code ++ leBytes 1 d.time.source ++ zeroBytes 2 ++ leBytes 4 (lowBits 32 (d.time.err / 10))))

/-- O33. References, PPS, PTP, the servo's states, the alignment of tiles (R122, R123, R124, R125, R126, R127, R130, R131, R132). The loss of
the selected reference switches to the other where that is good and the setting automatic; another loss leaves the selection; one that
returns is good again; a disagreement is an F0, and 10 ms without a reference an F4. A PPS edge 0.5 s or more after the last is timed, or
rejected far off a locked second, unless its pulse, whose width is a free value (log 8), is shorter than 20 ns; a nearer one is ignored;
three seconds without one end the source. A Sync, Follow_Up or Delay_Req of a port's domain is stamped, measured by a slave, and answered by
a master; an Announce makes or ends the slave; messages sent are stamped; a silent master ends the source. The servo locks after 16 s within
its bound; holdover past its time alarms. A tile's correction moves by at most 0.1 ppm of 10 ms at a measurement, which one in the cycle of
a re-anchor is not, and a tile off for a second is isolated. It rests on choices of the model: logs 4, 8, 11. -/
def Obligations.SourcesAndReferencesHold : Prop :=
  (∀ (d : Dev) (refB : Bool),
     d.refGood refB = true ∧ d.time.useB = refB ∧ d.refGood (!refB) = true ∧ d.refclkCfg = 0 →
     Leaves (.refclkLoss refB) d fun e => e.refGood refB = false ∧ e.refGood (!refB) = true ∧ e.time.useB = !refB ∧ Raised e 0x05 0x02 0xFF 0xFFFFFFFF) ∧
  (∀ (d : Dev) (refB : Bool),
     d.refGood refB = true ∧ d.refGood (!refB) = true ∧ (d.time.useB ≠ refB ∨ d.refclkCfg ≠ 0) →
     Becomes (.refclkLoss refB) d (d.setRef refB false)) ∧
  (∀ (d : Dev) (refB : Bool),
     d.refGood refB = true ∧ d.refGood (!refB) = false →
     Becomes (.refclkLoss refB) d ({ d.setRef refB false with time := { (d.setRef refB false).time with bothLostAt := some d.now } })) ∧
  (∀ (d : Dev) (refB : Bool),
     d.refGood refB = false →
     Becomes (.refclkReturn refB) d (Dev.refSwitch { d.setRef refB true with time := { (d.setRef refB true).time with bothLostAt := none } })) ∧
  (∀ (d : Dev) (ppm : Nat),
     d.time.goodA = true ∧ d.time.goodB = true ∧ 100 < ppm →
     Becomes (.refclkDisagree ppm) d (d.raise 0x05 0x01 0 0xFF 0xFFFFFFFF ppm false)) ∧
  (∀ (d : Dev) (t : Raw),
     d.time.bothLostAt = some t →
     Leaves .refclkHoldoverExpiry d fun e => e.time.bothLostAt = none ∧ Raised e 0x05 0x03 0xFF 0xFFFFFFFF) ∧
  (∀ (d : Dev),
     d.ready = true ∧ d.time.ppsLast.all (fun t => (rawMs 500).toNat ≤ (d.now - t).toNat) = true ∧ ¬ (d.time.st = .locked ∧ d.time.source = 3 ∧ 10000
       < (offSecond (stamp100 d.netU - 10 * d.ppsInDelay)).natAbs) →
     Becomes .ppsInEdge d
       (let e : Dev := d.fresh.2
        if Config.freeNat d.fresh.1 < 20 then e else Dev.measure (Dev.retime { e with time := { e.time with ppsLast := some d.now, ppsOk := true } })
          3 (offSecond (stamp100 d.netU - 10 * d.ppsInDelay)))) ∧
  (∀ (d : Dev),
     d.ready = true ∧ d.time.ppsLast.all (fun t => (rawMs 500).toNat ≤ (d.now - t).toNat) = true ∧ d.time.st = .locked ∧ d.time.source = 3 ∧ 10000 <
       (offSecond (stamp100 d.netU - 10 * d.ppsInDelay)).natAbs →
     Becomes .ppsInEdge d
       (let e : Dev := d.fresh.2
        if Config.freeNat d.fresh.1 < 20 then e else { e with time := { e.time with ppsRejected := min 0xFF (e.time.ppsRejected + 1) } })) ∧
  (∀ (d : Dev), d.ready = false ∨ d.time.ppsLast.any (fun t => (d.now - t).toNat < (rawMs 500).toNat) = true → Becomes .ppsInEdge d (d.fresh.2)) ∧
  (∀ (d : Dev) (t : Raw),
     d.time.ppsOk = true ∧ d.time.ppsLast = some t →
     Becomes .ppsSourceLoss d (Dev.retime { d.advanceTo (t + rawS 3) with time := { (d.advanceTo (t + rawS 3)).time with ppsOk := false } })) ∧
  (∀ (d : Dev) (subport : Nat) (f : PtpFrame) (p : PtpPort),
     d.ptpOf subport = some p ∧ f.domain = p.domain ∧ f.kind = .delayReq ∧ p.slave = false ∧ p.clockType ≠ 0 →
     Becomes (.ptpFrameRx subport f) d
       (Dev.emit (d.setPtp subport { p with rxStamp := d.ptpRx subport, seqTx := (p.seqTx + 1) % 65536 }) (.ptp subport .delayResp p.seqTx (d.ptpRx
          subport)))) ∧
  (∀ (d : Dev) (subport : Nat) (f : PtpFrame) (p : PtpPort),
     d.ptpOf subport = some p ∧ f.domain = p.domain ∧ f.kind = .sync →
     Becomes (.ptpFrameRx subport f) d
       ((fun (r : Dev) => if p.slave && !f.twoStep then r.measure 1 f.err else r) (d.setPtp subport
          { p with rxStamp := d.ptpRx subport, lastSync := d.now }))) ∧
  (∀ (d : Dev) (subport : Nat) (f : PtpFrame) (p : PtpPort),
     d.ptpOf subport = some p ∧ f.domain = p.domain ∧ f.kind = .followUp →
     Becomes (.ptpFrameRx subport f) d
       ((fun (r : Dev) => if p.slave then r.measure 1 f.err else r) (d.setPtp subport { p with rxStamp := d.ptpRx subport }))) ∧
  (∀ (d : Dev) (subport : Nat) (f : PtpFrame) (p : PtpPort),
     d.ptpOf subport = some p ∧ f.domain = p.domain ∧ f.kind = .announce →
     Becomes (.ptpFrameRx subport f) d
       ((d.setPtp subport
          { p with
            rxStamp := d.ptpRx subport, lastAnnounce := d.now, slave := f.best && p.clockType ≠ 2,
            lastSync := if p.slave then p.lastSync else d.now }).ptpSlave subport (f.best && p.clockType ≠ 2))) ∧
  (∀ (d : Dev) (subport : Nat) (kind : PtpKind) (p : PtpPort),
     d.ptpOf subport = some p ∧ (kind = .delayReq ∧ p.slave = true ∨ (kind = .announce ∨ kind = .sync ∨ kind = .followUp ∧ p.twoStep = true) ∧ p.slave
       = false ∧ p.clockType ≠ 0) →
     Becomes (.ptpMessageTx subport kind) d
       ((fun (t : BitVec 64) => Dev.emit (d.setPtp subport { p with seqTx := (p.seqTx + 1) % 65536, txStamp := t }) (.ptp subport kind p.seqTx (if
          kind = .followUp ∨ kind = .sync ∧ p.twoStep = false then t else 0))) (if kind = .sync ∨ kind = .delayReq then d.ptpTx subport else
          p.txStamp))) ∧
  (∀ (d : Dev) (subport : Nat) (p : PtpPort),
     mget d.time.ptp subport = some p ∧ p.slave = true →
     Becomes (.ptpSourceTimeout subport) d
       (let r := d.advanceTo (earlier (p.lastAnnounce + rawMs 375) (p.lastSync + rawS 1))
        (r.setPtp subport { p with slave := false }).ptpSlave subport false)) ∧
  (∀ (d : Dev) (t : Raw) (r : Dev),
     d.time.st = .acquiring ∧ d.time.goodSince = some t ∧ d.ready = true ∧ r = d.advanceTo (t + rawS 16) →
     Becomes .servoLocked d (Dev.endCond { r with time := { r.time with st := .locked } } 0x05 0x04 0xFF 0xFFFFFFFF)) ∧
  (∀ (d : Dev) (t : Raw),
     d.time.st = .holdover ∧ d.time.holdoverAt = some t ∧ d.condHolds 0x05 0x04 0xFF 0xFFFFFFFF = false →
     Becomes .holdoverAlarm d ((d.advanceTo (t + rawS d.holdoverAlarmS)).raise 0x05 0x04 2 0xFF 0xFFFFFFFF d.holdoverAlarmS true)) ∧
  (∀ (d : Dev) (tile : Nat) (err16 : Int),
     tile ≠ 0 ∧ d.tileRun tile = true ∧ d.thisCycle d.time.rawA = false →
     Leaves (.tileTimeCheck tile err16) d
       fun e =>
         (e.tile tile).timeErr = err16 ∧ (e.tile tile).corr - (d.tile tile).corr ≤ 65536 ∧ -65536 ≤ (e.tile tile).corr - (d.tile tile).corr ∧ (e.tile
           tile).timeErrAt = (if err16.natAbs ≤ 800 then none else some ((d.tile tile).timeErrAt.getD d.now)) ∧ (64 < err16.natAbs → d.condHolds 0x05
           0x05 tile tile = false → Raised e 0x05 0x05 tile tile)) ∧
  (∀ (d : Dev) (tile : Nat) (err16 : Int), d.thisCycle d.time.rawA = true → Becomes (.tileTimeCheck tile err16) d (d)) ∧
  (∀ (d : Dev) (tile : Nat) (t : Raw),
     tile ≠ 0 ∧ d.tileRun tile = true ∧ (d.tile tile).timeErrAt = some t →
     Becomes (.tileTimeIsolate tile) d
       (((d.advanceTo (t + rawS 1)).takeOut tile).raise 0x05 0x06 3 tile tile (lowBits 32 (d.tile tile).timeErr) false true))

/-- O34. Class 0x0B: configuration, status, snapshots, broadcasts, barriers and group resets (R404, R405, R406, R408, R409, R410, R411, R412,
R413, R416). CMD_JOIN_CONFIG sets the ID, the member list, the peers and the ports; a change of ID or members detaches the device, and one
of peers and ports alone keeps its place in the tree. CMD_JOIN_STATUS answers the status words. CMD_JOIN_SNAPSHOT asks the root for a
capture, CMD_JOIN_BROADCAST sends a message on every tree link and to channel 0, CMD_JOIN_BARRIER enters a barrier with its enclosed packet
checked, and CMD_JOIN_GROUP_RESET schedules the reset of a group at a frame boundary. It rests on choices of the model: logs 15, 33, 54, 55. -/
def Obligations.JoinCommandsActOnTheTree : Prop :=
  (Answers .cmdJoinConfig specJoinConfig
     (fun c d =>
        c.u16 0 ≤ 511 ∧ sysPorts.all (fun p => -1000 ≤ signedOf 16 (c.u16 (68 + 2 * p)) && signedOf 16 (c.u16 (68 + 2 * p)) ≤ 1000) = true ∧
          (List.range 16).all (fun i => c.u16 (76 + 2 * i) = 0xFFFF || c.u16 (76 + 2 * i) ≤ 511) = true ∧ sysPorts.all (fun p => d.tileRun
          (d.sysPortTile p)) = true ∧ c.u16 0 = d.join.ownId ∧ (if (c.bitmap 3 64).isEmpty then none else some (c.bitmap 3 64)) = d.join.members ∧
          d.join.members.isSome = true ∧ d.join.st ≠ .alone)
     (fun c d =>
        sysPorts.foldl (fun e p => e.enablePort p (c.bit 2 p) (signedOf 16 (c.u16 (68 + 2 * p))))
          { d with
            join :=
              { d.join with
                peers := (List.range 16).filterMap (fun i => if c.u16 (76 + 2 * i) = 0xFFFF then none else some (48 + i, c.u16 (76 + 2 * i))) } })
     (fun _ _ => [])) ∧
  (Answers .cmdJoinConfig specJoinConfig
     (fun c d =>
        c.u16 0 ≤ 511 ∧ sysPorts.all (fun p => -1000 ≤ signedOf 16 (c.u16 (68 + 2 * p)) && signedOf 16 (c.u16 (68 + 2 * p)) ≤ 1000) = true ∧
          (List.range 16).all (fun i => c.u16 (76 + 2 * i) = 0xFFFF || c.u16 (76 + 2 * i) ≤ 511) = true ∧ sysPorts.all (fun p => d.tileRun
          (d.sysPortTile p)) = true ∧ (c.u16 0 ≠ d.join.ownId ∨ (if (c.bitmap 3 64).isEmpty then none else some (c.bitmap 3 64)) ≠ d.join.members))
     (fun c d =>
        let r := d.detach none false
        let ms := c.bitmap 3 64
        sysPorts.foldl (fun e p => e.enablePort p (c.bit 2 p) (signedOf 16 (c.u16 (68 + 2 * p))))
          { r with
            join :=
              { r.join with
                ownId := c.u16 0, members := if ms.isEmpty then none else some ms,
                peers := (List.range 16).filterMap (fun i => if c.u16 (76 + 2 * i) = 0xFFFF then none else some (48 + i, c.u16 (76 + 2 * i))),
                st := if ms.isEmpty then .alone else .detached, low := if ms.isEmpty then r.join.low else c.u16 0,
                detachedAt := if ms.isEmpty then r.join.detachedAt else r.now } })
     (fun _ _ => [])) ∧
  (Answers .cmdJoinStatus specJoinStatus
     (fun _ _ => True) (fun _ d => d)
     (fun c d =>
        leBytes 4 d.sysStatus ++ leBytes 4 d.sysOpTime ++ leBytes 4 d.sysOpTimeNs ++ (sysPorts.map (fun p => leBytes 4 (d.sysPortStatus p))).flatten)) ∧
  (Answers .cmdJoinBroadcast specJoinBroadcast
     (fun c d => c.params.length ≤ 3804 ∧ d.joined = true)
     (fun c d => Dev.hostMessage (d.bcastSend { kind := 3, body := c.params }) d.join.ownId c.params) (fun _ _ => [])) ∧
  (Starts .cmdJoinGroupReset specJoinGroupReset
     stAccepted (fun c d => d.join.resets.any (fun r => r.group = c.u16 0) = false)
     (fun c d =>
        let t := d.boundaryAt (d.netNs + d.join.tOp)
        (d.sysSend d.treeLinks 0x16 0xFFFF true true [(c.u16 0 : Int), t]).groupSchedule (c.u16 0) t 1 d.join.ownId)
     .groupReset (fun c d => c.u16 0)) ∧
  (Starts .cmdJoinBarrier specJoinBarrier
     stAccepted
     (fun c d =>
        c.u8 0 ≤ 63 ∧ c.u16 66 ≤ 60000 ∧ d.joined = true ∧ (mget d.join.barriers (c.u8 0)).any (fun b => b.job ≠ 0 || b.release.isSome) = false ∧
          c.params.length = 68)
     (fun c d =>
        d.barrierEnter (c.u8 0)
          { job := d.host.jobNo, set := if c.bit 1 0 then none else some (c.bitmap 2 64), timeoutMs := if c.u16 66 = 0 then 1000 else c.u16 66 })
     .barrier (fun c d => c.u8 0)) ∧
  (Starts .cmdJoinBarrier specJoinBarrier
     stAccepted
     (fun c d =>
        c.u8 0 ≤ 63 ∧ c.u16 66 ≤ 60000 ∧ d.joined = true ∧ (mget d.join.barriers (c.u8 0)).any (fun b => b.job ≠ 0 || b.release.isSome) = false ∧
          c.params.length ≠ 68 ∧ (d.takeEnclosed c.enclosed).1 = stOk)
     (fun c d =>
        let t := (d.takeEnclosed c.enclosed).2.2
        Dev.barrierEnter t.2 (c.u8 0)
          {
            job := d.host.jobNo, set := if c.bit 1 0 then none else some (c.bitmap 2 64), timeoutMs := if c.u16 66 = 0 then 1000 else c.u16 66,
            pkt := some t.1.p, caps := t.1.snd.caps, doms := t.1.snd.doms, trailed := t.1.trailed, key := t.1.key })
     .barrier (fun c d => c.u8 0)) ∧
  (∀ t : Int,
     Starts .cmdJoinSnapshot specJoinSnapshot
       stAccepted (fun c d => d.joined = true ∧ d.snapInstant (c.u64 0 % 2 ^ 48) (c.u32 8) = .ok t)
       (fun _ d =>
          let e : Dev :=
            { d with
              join :=
                { d.join with
                  snaps :=
                    d.join.snaps ++
                      [{
                         id := 0, atT := t, raw := d.rawOfNs t, job := localSnap + d.join.snapNo,
                         deadline := d.rawOfNs t + rawNs (d.join.tOp + 100000000), join := true }], snapNo := d.join.snapNo + 1 } }
          if d.join.st = .root then e.snapAsk t else e.sysSend e.parents 0x14 0xFFFF true false [0, t])
       .snapshot (fun _ d => localSnap + d.join.snapNo))

/-- O35. HELLO, link delay, attaching and detaching, the root, SYS time and T_op (R404, R405, R406, R407, R408, R414). A HELLO from the parent
updates depth, root and path sum; one that names this device is a loop and an F2; one of a stranger refuses the link. A HELLO states the
sender's state, sums and member digest. Three missed HELLOs lose the link. A joined device below depth 12 takes a child while it has fewer
than three, and answers; the acknowledgement attaches; a DETACH of the parent or of a child detaches, and a parent is chosen anew. A
detached region's lowest ID becomes root after 2 ms. Delay exchanges are stamped, and the sixteenth gives the median; TIME disciplines the
servo by departure plus link delay and is sent to children with the network time, and T_op passes down the tree. It rests on choices of the
model: logs 4, 8, 54. -/
def Obligations.TreesFormAndKeepTime : Prop :=
  (∀ (d : Dev) (m : SysHdr) (h0 : HelloBody),
     d.heard m = true ∧ d.join.members.isSome = true ∧ m.src = d.join.ownId ∧ d.condHolds 0x0D 0x01 (d.sysPortTile m.port) m.port = false →
     Leaves (.hello m h0) d fun e => (e.sysPort m.port).role = .refused ∧ Raised e 0x0D 0x01 (d.sysPortTile m.port) m.port) ∧
  (∀ (d : Dev) (m : SysHdr) (h0 : HelloBody) (l : List Nat),
     d.heard m = true ∧ d.join.members = some l ∧ m.src ≠ d.join.ownId ∧ l.contains m.src = false ∧ d.condHolds 0x0D 0x01 (d.sysPortTile m.port)
       m.port = false →
     Becomes (.hello m h0) d ((d.hearing m).refuseLink m.port m.src)) ∧
  (∀ (d : Dev) (m : SysHdr) (h0 : HelloBody) (l : List Nat),
     d.heard m = true ∧ d.join.members = some l ∧ m.src ≠ d.join.ownId ∧ l.contains m.src = true ∧ l.contains d.join.ownId = true ∧ h0.bothListed =
       true ∧ (d.sysPort m.port).delay ≤ 1000000 ∧ d.condHolds 0x0D 0x01 (d.sysPortTile m.port) m.port = false ∧ d.join.st = .attached ∧ (d.sysPort
       m.port).role = .parent ∧ h0.attached = true →
     Leaves (.hello m h0) d
       fun e =>
         e.join.st = .attached ∧ e.join.depth = min 12 (m.hops + 1) ∧ e.join.root = m.root ∧ e.join.sum = h0.sum + (d.sysPort m.port).delay + 600 ∧
           (e.sysPort m.port).partner = m.src ∧ (e.sysPort m.port).helloAt = d.now) ∧
  (∀ (d : Dev) (port : Nat) (l : List Nat),
     d.join.members = some l ∧ d.ready = true →
     Becomes (.helloTx port) d
       (d.sysSend [port] 0x01 0xFFFF false false [((b2n d.joined : Nat) : Int), ((if d.joined then 0xFFFF else d.join.low : Nat) : Int), (d.join.sum :
          Int), (d.deepest : Int), (Config.memberDigest l : Int)])) ∧
  (∀ (d : Dev) (port : Nat),
     d.ready = true ∧ (d.sysPort port).role ≠ .down →
     Becomes (.helloMiss port) d
       (Dev.updSysPort (Dev.dropLink (d.advanceTo ((d.sysPort port).helloAt + rawUs 300)) port) port (fun x =>
          { x with role := .down, pJoined := false, asked := false, miss := 3 }))) ∧
  (∀ (d : Dev) (m : SysHdr) (t1 : BitVec 64),
     d.heard m = true →
     Becomes (.delayReq m t1) d
       ((d.hearing m).sysSend [m.port] 0x03 m.src false false [(t1.toNat : Int), ((d.hearing m).now.toNat : Int), ((d.hearing m).now.toNat : Int)])) ∧
  (∀ (d : Dev) (m : SysHdr) (t1 : BitVec 64) (t2 : BitVec 64) (t3 : BitVec 64),
     d.heard m = true ∧ (d.sysPort m.port).t1 = some t1 ∧ (d.sysPort m.port).delays.length < 15 →
     Becomes (.delayResp m t1 t2 t3) d
       (Dev.sendDelayReq ((d.hearing m).updSysPort m.port (fun x =>
          { x with delays := x.delays ++ [((d.now - t1).toInt - (t3 - t2).toInt) / 131072 + x.asym] })) m.port)) ∧
  (∀ (d : Dev) (m : SysHdr) (t1 : BitVec 64) (t2 : BitVec 64) (t3 : BitVec 64),
     d.heard m = true ∧ (d.sysPort m.port).t1 = some t1 ∧ (d.sysPort m.port).delays.length = 15 →
     Becomes (.delayResp m t1 t2 t3) d
       (let ds := (d.sysPort m.port).delays ++ [((d.now - t1).toInt - (t3 - t2).toInt) / 131072 + (d.sysPort m.port).asym]
        Dev.delayMeasured ((d.hearing m).updSysPort m.port (fun x => { x with delays := ds })) m.port (median16 ds))) ∧
  (∀ (d : Dev) (port : Nat), d.ready = true ∧ d.portUsable port = true → Becomes (.delayMeasureTick port) d (d.measureLink port)) ∧
  (∀ (d : Dev) (m : SysHdr),
     d.heard m = true ∧ d.joined = true ∧ ((d.sysPort m.port).role = .standby ∨ (d.sysPort m.port).role = .child) ∧ d.join.depth < 12 ∧
       (d.children.filter (· ≠ m.port)).length < 3 →
     Becomes (.attach m) d
       (let r := (d.hearing m).updSysPort m.port (fun x => { x with role := .child, pJoined := false })
        let r : Dev := { r with join := { r.join with below := mput r.join.below m.port [m.src] } }
        (r.sysSend [m.port] 0x05 m.src false true []).opTimeFresh true)) ∧
  (∀ (d : Dev) (m : SysHdr),
     d.heard m = true ∧ d.join.st = .detached ∧ (d.sysPort m.port).asked = true ∧ (d.sysPort m.port).role = .standby →
     Leaves (.attachAck m) d
       fun e =>
         e.join.st = .attached ∧ e.join.parent = m.port ∧ e.join.depth = min 12 (m.hops + 1) ∧ e.join.root = m.root % 512 ∧ e.join.sum = (d.sysPort
           m.port).pathSum ∧ (e.sysPort m.port).role = .parent ∧ e.join.inflight = []) ∧
  (∀ (d : Dev) (m : SysHdr),
     d.heardOnTree m = true ∧ (d.sysPort m.port).role = .parent →
     Becomes (.detach m) d (((d.hearing m).detach (some m.port) false).chooseParent)) ∧
  (∀ (d : Dev) (m : SysHdr),
     d.heardOnTree m = true ∧ (d.sysPort m.port).role ≠ .parent →
     Becomes (.detach m) d (((d.hearing m).detach (some m.port) true).chooseParent)) ∧
  (∀ (d : Dev),
     d.ready = true ∧ d.join.st = .detached ∧ sysPorts.any (fun p => d.portUsable p && (d.sysPort p).role = .standby && (d.sysPort p).pJoined) = false
       ∧ d.lowKnown = d.join.ownId →
     Leaves .regionRootTimeout d
       fun e => e.join.st = .root ∧ e.join.depth = 0 ∧ e.join.root = d.join.ownId ∧ e.join.sum = 0 ∧ e.join.nMembers = 1 ∧ e.join.tOp = 2000) ∧
  (∀ (d : Dev) (m : SysHdr) (departNs : Int),
     d.heard m = true ∧ d.join.st = .attached ∧ (d.sysPort m.port).role = .parent →
     Becomes (.time m departNs) d
       (Dev.measure (Dev.retime { d.hearing m with time := { (d.hearing m).time with sysOk := true } }) 2 (stamp100 (d.hearing m).netU - 10 *
          (departNs + (d.sysPort m.port).delay)))) ∧
  (∀ (d : Dev) (port : Nat),
     d.ready = true ∧ d.joined = true ∧ (d.sysPort port).role = .child →
     Becomes (.timeMsgTx port) d (d.sysSend [port] 0x07 (d.sysPort port).partner false true [d.netNs])) ∧
  (∀ (d : Dev) (m : SysHdr) (tOp : Nat) (members : Nat),
     d.heardOnTree m = true ∧ (d.sysPort m.port).role = .parent →
     Becomes (.opTime m tOp members) d
       (Dev.sysPass { d.hearing m with join := { (d.hearing m).join with tOp := tOp, nMembers := members } } d.children 0x08 m [(tOp : Int), (members
          : Int)]))

/-- O36. Broadcasts, barriers, snapshots, group resets, and packets of peers (R409, R410, R411, R412, R413, R416, R471). A broadcast is
delivered once and forwarded on every tree link but its own; a repeated one is only counted. Arrivals merge towards the root, which releases
a complete barrier at its time plus T_op; another participant set, aborts and time-outs end it; at its instant the enclosed command runs.
Reports of a batch leave in one broadcast. A snapshot request goes up to the root and down to every member, is captured at its instant,
written, reported and completed or timed out. A group reset travels along the tree, is applied at its instant and reported, and the command
that asked for it times out where reports are missing. A packet of a peer enters its channel; one for another member is passed on. It rests
on choices of the model: logs 4, 11, 33, 54, 55. -/
def Obligations.MessagesCoordinateMembers : Prop :=
  (∀ (d : Dev) (m : SysHdr) (b : BroadcastBody),
     d.heardOnTree m = true ∧ (m.src = d.join.ownId ∨ d.join.seen.contains (m.src, m.seq) = true) →
     Becomes (.broadcast m b) d ((d.hearing m).count .bcastDup 0)) ∧
  (∀ (d : Dev) (m : SysHdr) (b : BroadcastBody),
     d.heardOnTree m = true ∧ m.src ≠ d.join.ownId ∧ d.join.seen.contains (m.src, m.seq) = false →
     Becomes (.broadcast m b) d
       (let r : Dev := { d.hearing m with join := { (d.hearing m).join with seen := (m.src, m.seq) :: (d.hearing m).join.seen } }
        let r :=
          ((r.treeLinks.filter (fun p => p ≠ m.port && r.portUsable p)).foldl (fun d p => (d.emit (.sysBytes p 0x10 m.dst m.seq (bcastBytes b))).count
            .msgTx p) r).count .bcastRx 0
        r.bcastDeliver m.src b)) ∧
  (∀ (d : Dev) (x : Dev),
     d.ready = true ∧ d.joined = true ∧ d.join.batch ≠ [] ∧ x = (if 112 ≤ d.join.batch.length then d else d.advanceTo (d.join.batchAt + rawMs 1)) →
     Becomes .positionBatchFlush d
       ((fun (e : Dev) => e.bcastSend { kind := 1, records := (d.join.batch.take 112).map (fun r => (e.profileOf r.train, r.bytes)) })
          { x with join := { x.join with batch := d.join.batch.drop 112, batchAt := x.now } })) ∧
  (∀ (d : Dev) (m : SysHdr) (b : BarrierBody),
     d.heardOnTree m = true ∧ (d.sysPort m.port).role = .child ∧ b.n < 64 ∧ mget d.join.barriers b.n = none →
     Becomes (.barrierArrive m b) d ((d.hearing m).barrierMerge b.n b.parts b.timeoutMs b.arrived)) ∧
  (∀ (d : Dev) (m : SysHdr) (b : BarrierBody) (x : Barrier),
     d.heardOnTree m = true ∧ (d.sysPort m.port).role = .child ∧ b.n < 64 ∧ mget d.join.barriers b.n = some x ∧ d.samePart x.set b.parts = false ∧
       d.join.st = .root →
     Becomes (.barrierArrive m b) d ((d.hearing m).barrierAbortDown b.n stBadParam)) ∧
  (∀ (d : Dev) (m : SysHdr) (b : BarrierBody) (x : Barrier),
     d.heardOnTree m = true ∧ (d.sysPort m.port).role = .child ∧ b.n < 64 ∧ mget d.join.barriers b.n = some x ∧ d.samePart x.set b.parts = true →
     Becomes (.barrierArrive m b) d ((d.hearing m).barrierMerge b.n b.parts b.timeoutMs b.arrived)) ∧
  (∀ (d : Dev) (m : SysHdr) (b : BarrierBody),
     d.heardOnTree m = true ∧ (d.sysPort m.port).role = .parent →
     Becomes (.barrierRelease m b) d (((d.hearing m).sysPass d.children 0x12 m (barrierVals b)).barrierReleased b.n b.release)) ∧
  (∀ (d : Dev) (m : SysHdr) (n : Nat) (status : Nat),
     d.heardOnTree m = true ∧ (d.sysPort m.port).role = .parent →
     Becomes (.barrierAbort m n status) d (((d.hearing m).sysPass d.children 0x13 m [(n : Int), (status : Int)]).barrierDrop n status)) ∧
  (∀ (d : Dev) (n : Nat) (b : Barrier),
     mget d.join.barriers n = some b ∧ d.ready = true ∧ d.join.st = .root ∧ b.release = none →
     Becomes (.barrierTimeout n) d ((d.advanceTo (b.firstAt + rawMs b.timeoutMs)).barrierAbortDown n stTimeout)) ∧
  (∀ (d : Dev) (n : Nat) (b : Barrier) (t : Int),
     mget d.join.barriers n = some b ∧ b.release = some t ∧ d.ready = true ∧ b.pkt = none →
     Becomes (.barrierExecute n) d
       (let x := d.advanceTo b.raw
        let x := x.advanceTo (x.rawOfNs (x.boundaryAt x.netNs))
        (Dev.count { x with join := { x.join with barriers := mdel x.join.barriers n } } .barrierDone 0).complete .barrier n stOk (relBytes t))) ∧
  (∀ (d : Dev) (n : Nat) (b : Barrier) (t : Int) (p : Packet),
     mget d.join.barriers n = some b ∧ b.release = some t ∧ d.ready = true ∧ b.pkt = some p →
     Becomes (.barrierExecute n) d
       (let x := d.advanceTo b.raw
        let x := x.advanceTo (x.rawOfNs (x.boundaryAt x.netNs))
        let x : Dev := Dev.count { x with join := { x.join with barriers := mdel x.join.barriers n } } .barrierDone 0
        let y :=
          x.runHeld { p := p, params := p.body, snd := { x.sender p.chan with caps := b.caps, doms := b.doms }, trailed := b.trailed, key := b.key }
        y.2.2 (y.2.1.complete .barrier n stOk (relBytes t ++ y.1)))) ∧
  (∀ (d : Dev) (m : SysHdr) (id : Nat) (instant : Int),
     d.heardOnTree m = true →
     Becomes (.snapshotReq m id instant) d
       (if (d.sysPort m.port).role = .parent then ((d.hearing m).sysPass d.children 0x14 m [(id : Int), instant]).snapSchedule id instant else if
          d.join.st = .root then (d.hearing m).snapAsk instant else (d.hearing m).sysPass d.parents 0x14 m [(id : Int), instant])) ∧
  (∀ (d : Dev) (id : Nat) (j : SnapJob),
     d.ready = true ∧ d.join.snaps.find? (fun j => j.id = id && !j.taken && (id ≠ 0)) = some j →
     Becomes (.snapshotInstant id) d (((d.advanceTo j.raw).capture j j.late).snapTaken id)) ∧
  (∀ (d : Dev),
     d.cnt.writing.isSome = true ∧ d.cnt.queued = [] ∧ d.cnt.nextArea < d.host.gens.length →
     Leaves .snapshotWriteDone d
       fun e => e.cnt.newest = d.cnt.nextArea ∧ e.cnt.writing = none ∧ nth e.host.gens d.cnt.nextArea = nth d.host.gens d.cnt.nextArea + 1) ∧
  (∀ (d : Dev) (m : SysHdr) (id : Nat),
     d.heardOnTree m = true →
     Becomes (.snapshotDone m id) d (((d.hearing m).sysPass ((d.hearing m).treeLinks.filter (· ≠ m.port)) 0x15 m [(id : Int)]).snapDone id m.src)) ∧
  (∀ (d : Dev) (id : Nat) (j : SnapJob),
     d.ready = true ∧ d.join.snaps.find? (fun j => j.id = id && j.join && j.job ≠ 0) = some j →
     Becomes (.snapshotTimeout id) d
       (let x := d.advanceTo j.deadline
        Dev.completeDetail { x with join := { x.join with snaps := x.join.snaps.map (fun y => if y.id = id then { y with job := 0 } else y) } }
          .snapshot j.job stTimeout (leBytes 4 id) (x.memberList.filter (fun i => !j.done.contains i)).length)) ∧
  (∀ (d : Dev) (m : SysHdr) (group : Nat) (instant : Int),
     d.heardOnTree m = true →
     Becomes (.groupReset m group instant) d
       (((d.hearing m).sysPass ((d.hearing m).treeLinks.filter (· ≠ m.port)) 0x16 m [(group : Int), instant]).groupSchedule group instant 0 m.src)) ∧
  (∀ (d : Dev) (group : Nat) (r : GroupReset),
     d.ready = true ∧ d.join.resets.find? (fun r => r.group = group) = some r ∧ r.applied = false ∧ d.groupTrees group ≠ [] →
     Becomes (.groupResetInstant group) d
       (let x := d.advanceTo r.raw
        let x := ((x.groupTrees group).filter (fun t => x.tileRun (tileOfTree t))).foldl Dev.groupResetTree x
        let x : Dev :=
          { x with join := { x.join with resets := x.join.resets.map (fun y => if y.group = group then { y with applied := true } else y) } }
        (x.sysSend x.treeLinks 0x17 0xFFFF true true [(group : Int)]).groupDone group x.join.ownId)) ∧
  (∀ (d : Dev) (group : Nat) (r : GroupReset) (x : Dev),
     d.ready = true ∧ d.join.resets.find? (fun r => r.group = group) = some r ∧ r.applied = true ∧ r.job ≠ 0 ∧ x = d.advanceTo (r.raw + rawNs
       d.join.tOp + rawMs 100) →
     Becomes (.groupResetInstant group) d
       (Dev.completeDetail { x with join := { x.join with resets := x.join.resets.filter (fun y => y.group ≠ group) } } .groupReset group stTimeout []
          (((x.groupMembers group).getD [0, 1]).length - r.done.length))) ∧
  (∀ (d : Dev) (m : SysHdr) (group : Nat),
     d.heardOnTree m = true →
     Becomes (.groupResetDone m group) d
       (((d.hearing m).sysPass ((d.hearing m).treeLinks.filter (· ≠ m.port)) 0x17 m [(group : Int)]).groupDone group m.src)) ∧
  (∀ (d : Dev) (m : SysHdr) (p : Packet) (ch : Nat),
     d.heardOnTree m = true ∧ m.dst = d.join.ownId ∧ d.join.peers.find? (fun e => e.2 = m.src) = some (ch, m.src) →
     Becomes (.command m p) d ((d.hearing m).place { p with chan := ch })) ∧
  (∀ (d : Dev) (m : SysHdr) (p : Packet),
     d.heardOnTree m = true ∧ m.dst ≠ d.join.ownId →
     Becomes (.command m p) d ((d.hearing m).sysBytesTo ((d.routeTo m.dst).filter (fun q => q ≠ m.port)) 0x20 m.dst m.seq (p.bytes 0))) ∧
  (∀ (d : Dev) (m : SysHdr) (body : List Byte),
     d.heardOnTree m = true →
     Becomes (.reply m body) d
       (if m.dst ≠ d.join.ownId then (d.hearing m).sysBytesTo ((d.routeTo m.dst).filter (fun q => q ≠ m.port)) 0x21 m.dst m.seq body else d.hearing m))

/-- O37. Class 0x0C and the LEASE messages: groups, forces, leases, claims, SYNC and digests (R418, R423, R424, R426, R427, R428, R431, R434,
R436, R439). CMD_PROT_GROUP puts a dark group in NOT_READY or deletes one; CMD_PROT_FORCE sets or clears a force or a lockout,
CMD_PROT_STATUS answers the group. Each unit renews every 5 ms. A RENEW brings the partner's readiness, lease, SYNC and later command; of
two holders of a SPLIT group the lower number yields. A RELEASE, or in DUAL a HANDOVER, gives the standby the lease; silence on both paths
for 20 ms plus the guard makes the active PARTNER_LOST, and the standby, or a unit not ready whose lane is UP and channels are ENABLED,
takes over. SYNC records are applied on a unit that does not hold the lease; digests are entered, and one whose partner's does not come
within 4 frames is dropped and, where digests are compared, counted as a gap. It rests on choices of the model: logs 4, 15, 41, 57. -/
def Obligations.ProtectionGroupsKeepTheLease : Prop :=
  (Answers .cmdProtGroup specProtGroup
     (fun c d =>
        c.tgt < d.nTrees ∧ d.tileRun (tileOfTree c.tgt) = true ∧ d.treeOn c.tgt = [] ∧ c.u8 0 = 0 ∧ c.u8 4 ≤ 1 ∧ c.u8 9 ≤ 1 ∧ c.u8 10 ≤ 1 ∧ (c.u16 6 =
          0xFFFF → c.u8 8 < d.nTrees ∧ tileOfTree (c.u8 8) ≠ tileOfTree c.tgt ∧ c.u8 10 = 0 ∧ (c.protGroupMade d).termsCount (tileOfTree (c.u8 8)) ≤
          2048 ∧ (c.protGroupMade d).allocsCount (tileOfTree (c.u8 8)) ≤ 8192) ∧ (c.u16 6 ≠ 0xFFFF → c.u16 6 < 512 ∧ c.u8 8 < 64) ∧ (c.u8 10 = 1 →
          c.u8 11 ≠ 0 ∧ c.u8 9 = 1) ∧ (c.u8 12 ≠ 0xFF → c.u8 12 < d.nSubs ∧ 1 ≤ c.u16 14 ∧ c.u16 14 ≤ 4094) ∧ (c.u16 6 ≠ 0xFFFF ∧ c.u8 10 = 0 → c.u8
          12 ≠ 0xFF) ∧ -100000 ≤ c.i32 24 ∧ c.i32 24 ≤ 100000 ∧ c.u8 28 ≤ 15)
     (fun c d => c.protGroupMade d) (fun _ _ => [])) ∧
  (Answers .cmdProtGroup specProtGroup
     (fun c d => c.tgt < d.nTrees ∧ d.tileRun (tileOfTree c.tgt) = true ∧ d.treeOn c.tgt = [] ∧ c.u8 0 = 1 ∧ mhas d.groups c.tgt = true)
     (fun c d => { d with groups := mdel d.groups c.tgt }) (fun _ _ => [])) ∧
  (Answers .cmdProtForce specProtForce
     (fun c d =>
        c.tgt < d.nTrees ∧ d.tileRun (tileOfTree c.tgt) = true ∧ mhas d.groups c.tgt = true ∧ c.u8 0 ≤ 3 ∧ (c.u8 0 = 1 → ((d.group c.tgt).holding ||
          d.unitReady c.tgt (d.group c.tgt)) = true) ∧ (c.u8 0 = 2 → ((d.group c.tgt).claim || (d.group c.tgt).pReady || (d.group c.tgt).pHolds) =
          true))
     (fun c d =>
        Dev.actForce (Dev.groupRefresh (d.updGroup c.tgt (fun g =>
          { g with
            force :=
              if c.u8 0 = 0 then 0 else if c.u8 0 = 1 then (d.group c.tgt).own else if c.u8 0 = 2 then 3 - (d.group c.tgt).own else (d.group
                c.tgt).force, lockout := if c.u8 0 = 0 then false else decide (c.u8 0 = 3) || (d.group c.tgt).lockout, cmdSec := d.netSec % 2 ^ 32 }))
          c.tgt) c.tgt)
     (fun _ _ => [])) ∧
  (Answers .cmdProtStatus specProtStatus
     (fun c d => c.tgt < d.nTrees ∧ d.tileRun (tileOfTree c.tgt) = true) (fun _ d => d)
     (fun c d =>
        leBytes 1 (d.group c.tgt).st.code ++ leBytes 1 (d.holder c.tgt) ++ leBytes 2 (d.group c.tgt).number ++ leBytes 4 (lowBits 32 ((d.group
          c.tgt).delta.getD (d.group c.tgt).pathOfs)) ++ ((d.group c.tgt).runs.map (fun r => leBytes 1 r)).flatten ++ leBytes 1 (d.causes (d.group
          c.tgt) c.tgt))) ∧
  (∀ (d : Dev) (tree : Nat),
     mhas d.groups tree = true ∧ d.ready = true ∧ (d.group tree).claim = false ∧ d.tileRun (tileOfTree tree) = true →
     Becomes (.leaseRenewTick tree) d
       (let x := (d.advanceTo (BitVec.ofNat 64 ((d.now.toNat + (rawMs 5).toNat - 1) / (rawMs 5).toNat * (rawMs 5).toNat))).groupRefresh tree
        x.leaseSend tree 0 (x.unitReady tree ((mget x.groups tree).getD (d.group tree))))) ∧
  (∀ (d : Dev) (tree : Nat) (inband : Bool) (l : LeaseMsg),
     d.leaseHeard tree inband l = true ∧ ((d.leaseGroup tree inband l).holding && l.holds && !(d.group tree).dual && leaseHigher l.number (d.group
       tree).number) = true →
     Becomes (.renew tree inband l) d
       (let x := (d.leaseDev tree inband l).count (if inband then .renewRxInband else .renewRxSys) tree
        let g := (d.leaseGroup tree inband l).merge l
        let x :=
          (x.updGroup tree (fun _ =>
            { g with
              pReady := l.ready, pHolds := true, pSyncSent := l.sync, syncLag := none, st := .notReady,
              holdEnd := some (x.now + rawS x.protHoldS) })).count .yields tree
        (x.groupRefresh tree).actForce tree)) ∧
  (∀ (d : Dev) (tree : Nat) (inband : Bool) (l : LeaseMsg) (x : Dev) (g : Group),
     d.leaseHeard tree inband l = true ∧ ((d.leaseGroup tree inband l).holding && l.holds && !(d.group tree).dual && leaseHigher l.number (d.group
       tree).number) = false ∧ x = (d.leaseDev tree inband l).count (if inband then .renewRxInband else .renewRxSys) tree ∧ g = (d.leaseGroup tree
       inband l).merge l →
     Becomes (.renew tree inband l) d
       (((x.updGroup tree (fun _ =>
          { g with
            pReady := l.ready, pHolds := l.holds, pSyncSent := l.sync,
            syncLag :=
              if (d.leaseGroup tree inband l).holding || !l.holds || l.sync = g.syncSeq then none else if g.syncLag.isSome then g.syncLag else some
                x.now })).groupRefresh tree).actForce tree)) ∧
  (∀ (d : Dev) (tree : Nat) (inband : Bool) (l : LeaseMsg) (g : Group),
     d.leaseHeard tree inband l = true ∧ mget (((d.leaseDev tree inband l).updGroup tree (fun g => { g with pHolds := false })).groupRefresh
       tree).groups tree = some g ∧ g.st = .standby ∧ g.mayTake = true →
     Becomes (.release tree inband l) d
       ((((d.leaseDev tree inband l).updGroup tree (fun g => { g with pHolds := false })).groupRefresh tree).takeLease tree 1)) ∧
  (∀ (d : Dev) (tree : Nat) (inband : Bool) (l : LeaseMsg) (g : Group),
     d.leaseHeard tree inband l = true ∧ mget ((d.leaseDev tree inband l).groupRefresh tree).groups tree = some g ∧ g.st = .standby ∧ g.dual = true ∧
       g.mayTake = true →
     Becomes (.handover tree inband l) d (((d.leaseDev tree inband l).groupRefresh tree).takeLease tree 1)) ∧
  (∀ (d : Dev) (tree : Nat) (x : Dev) (g : Group),
     mhas d.groups tree = true ∧ d.ready = true ∧ (d.group tree).claim = false ∧ d.tileRun (tileOfTree tree) = true ∧ x = (d.advanceTo ((d.group
       tree).lastHeard + rawMs (20 + d.guardMs))).groupRefresh tree ∧ mget x.groups tree = some g ∧ (g.st = .active ∨ (g.st = .standby ∨ g.st =
       .notReady ∧ (x.lane (tileOfTree tree) (tree % 8)).neg = .up ∧ x.chansReady tree = true) ∧ g.mayTake = true) →
     Becomes (.leaseFailureTimeout tree) d
       (if g.st = .active then x.updGroup tree (fun g => { g with st := .partnerLost, pReady := false, pHolds := false }) else x.takeLease tree 2)) ∧
  (∀ (d : Dev) (tree : Nat) (l : LeaseMsg) (recs : List SyncRec),
     d.leaseHeard tree false l = true ∧ (d.leaseGroup tree false l).holding = false ∧ (d.group tree).tiles = false →
     Becomes (.sync tree l recs) d
       (((recs.foldl (fun d r => d.syncApply tree r) (d.leaseDev tree false l)).updGroup tree (fun g =>
          { g with syncSeq := l.sync, syncLag := if g.pSyncSent = l.sync then none else g.syncLag })).groupRefresh tree)) ∧
  (∀ (d : Dev) (tree : Nat) (l : LeaseMsg) (g0 : Option (BitVec 64)) (x0 : Option (BitVec 64)) (f0 : Option (BitVec 64)),
     d.leaseHeard tree false l = true →
     Becomes (.digest tree l g0 x0 f0) d
       ([(0, g0), (1, x0), (2, f0)].foldl (fun d e => match e.2 with | some v => d.digPeerIn tree l.frame e.1 v.toNat | none => d) (d.leaseDev tree
          false l))) ∧
  (∀ (d : Dev) (tree : Nat) (k : Nat) (frame : Nat) (v : Group),
     mget d.groups tree = some v ∧ v.digOwn.any (fun x => x.1 = frame && x.2.1 = k) = true ∧ v.compares = false →
     Becomes (.digestCompareGap tree k frame) d
       ((d.toFrame (plusF frame 4)).updGroup tree (fun g => { g with digOwn := g.digOwn.filter (fun x => !(x.1 = frame && x.2.1 = k)) }))) ∧
  (∀ (d : Dev) (tree : Nat) (k : Nat) (frame : Nat) (v : Group),
     mget d.groups tree = some v ∧ v.digOwn.any (fun x => x.1 = frame && x.2.1 = k) = true ∧ v.compares = true →
     Becomes (.digestCompareGap tree k frame) d
       (((d.toFrame (plusF frame 4)).updGroup tree (fun g => { g with digOwn := g.digOwn.filter (fun x => !(x.1 = frame && x.2.1 = k)) })).count
          .compareGap (2 ^ 20 + 4 * tree + k)))

/-- O38. Class 0x0F: reads, writes, thresholds, windows and sampling, with their events (R462, R463, R464, R466, R467, R468, R469, R471, R472,
R473, R474, R475). CMD_CNT_READ answers the addresses and values of the counters named, or enters a snapshot at an instant that R412 admits;
CMD_CNT_WRITE sets counters. CMD_CNT_THRESHOLD sets periods and the event ring, CMD_CNT_WINDOW a bandwidth window, which closes at the next
multiple of its length; CMD_CNT_SAMPLE starts or stops sampling. An interval's end tags the next instruction, or defers where a tag is in
flight; a tagged instruction retires into the ring, or is dropped and counted where it is full. A BAR2 read of eight aligned bytes at
counter n of a tile gives that counter where its page is enabled; any other width or alignment, a page not enabled and an absent tile read
zero. It rests on choices of the model: logs 4, 8, 11, 15, 21, 54. -/
def Obligations.CountersAreReadAndWatched : Prop :=
  (Answers .cmdCntRead specCntRead
     (fun c d =>
        c.bit 0 0 = false ∧ d.cntsBad ((List.range (c.u8 1)).map (fun i => c.cntAt (20 + 8 * i))) = none ∧ (((List.range (c.u8 1)).map (fun i =>
          c.cntAt (20 + 8 * i))).map d.cntReply).flatten.length ≤ 3808)
     (fun c d => d) (fun c d => (((List.range (c.u8 1)).map (fun i => c.cntAt (20 + 8 * i))).map d.cntReply).flatten)) ∧
  (∀ t : Int,
     Starts .cmdCntRead specCntRead
       stAccepted
       (fun c d =>
          d.cntsBad ((List.range (c.u8 1)).map (fun i => c.cntAt (20 + 8 * i))) = none ∧ c.bit 0 0 = true ∧ d.snapInstant (c.u64 4 % 2 ^ 48) (c.u32
            12) = .ok t)
       (fun _ d =>
          { d with
            join :=
              { d.join with
                snaps := d.join.snaps ++ [{ id := localSnap + d.join.snapNo, atT := t, raw := d.rawOfNs t, job := localSnap + d.join.snapNo }],
                snapNo := d.join.snapNo + 1 } })
       .cntSnapshot (fun _ d => localSnap + d.join.snapNo)) ∧
  (Answers .cmdCntWrite specCntWrite
     (fun c d => d.cntsBad (((List.range (c.u8 0)).map (fun i => (c.cntAt (8 + 16 * i), c.u64 (16 + 16 * i)))).map (fun x => x.1)) = none)
     (fun c d =>
        ((List.range (c.u8 0)).map (fun i => (c.cntAt (8 + 16 * i), c.u64 (16 + 16 * i)))).foldl (fun d x => (d.cntKeys x.1.1 x.1.2).foldl (fun d k =>
          d.cntSet k x.2) d) d)
     (fun _ _ => [])) ∧
  (Answers .cmdCntThreshold specCntThreshold
     (fun c d =>
        ringBad c 24 = none ∧ d.cntBad (c.cntAt 0).1 (c.cntAt 0).2 = stOk ∧ 1 ≤ c.u64 8 ∧ c.u64 8 ≤ 2 ^ 63 ∧ 64 ≤ c.u8 16 ∧ (d.cntKeys (c.cntAt 0).1
          (c.cntAt 0).2).any (fun k => !mhas d.cnt.thr k && 4096 ≤ (d.cnt.thr.filter (fun e => d.cntTile e.1 = d.cntTile k)).length) = false)
     (fun c d =>
        { d with
          cnt :=
            { d.cnt with
              thr :=
                (d.cntKeys (c.cntAt 0).1 (c.cntAt 0).2).foldl (fun m k => mput m k ({ period := c.u64 8, vec := c.u8 16 } : Threshold)) d.cnt.thr,
              evt := d.cnt.evt.setTo (BitVec.ofNat 64 (c.u64 24)) (c.u8 32) } })
     (fun _ _ => [])) ∧
  (Answers .cmdCntWindow specCntWindow
     (fun c d =>
        c.u16 0 ≤ 60000 ∧ c.u8 3 ≤ 1 ∧ (c.u8 2 = 0 ∧ c.tgt < d.nSubs ∧ d.tileRun (tileOfSub c.tgt) = true ∨ c.u8 2 = 1 ∧ d.chanOk c.tgt = true ∧
          d.tileRun (tileOfChan c.tgt) = true ∨ c.u8 2 = 2 ∧ c.tgt < d.nTerms ∧ mhas d.terms c.tgt = true ∧ d.tileRun (d.tileOfTerm c.tgt) = true))
     (fun c d => d.winSet (winKey (c.u8 2) c.tgt (c.u8 3)) (c.u16 0)) (fun _ _ => [])) ∧
  (Answers .cmdCntSample specCntSample
     (fun c d => c.engineMask.all (fun e => e < d.nEngines) = true ∧ (c.u8 0 = 0 ∨ 4 ≤ c.u8 0 ∧ c.u8 0 ≤ 24 ∧ ringBad c 40 = none))
     (fun c d =>
        if c.u8 0 = 0 then { d with cnt := { d.cnt with samp := d.cnt.samp.filter (fun e => !c.engineMask.contains e.1) } } else c.engineMask.foldl
          (Dev.sampStart (c.u8 0)) { d with cnt := { d.cnt with smp := d.cnt.smp.setTo (BitVec.ofNat 64 (c.u64 40)) (c.u8 48) } })
     (fun _ _ => [])) ∧
  (∀ (d : Dev) (key : Nat) (w : Window),
     mget d.cnt.wins key = some w ∧ w.lenMs ≠ 0 ∧ d.ready = true →
     Becomes (.bandwidthWindowClose key) d
       (let t :=
          max ((w.endNs / (w.lenMs * 1000000) + 1) * (w.lenMs * 1000000)) ((d.netNs + w.lenMs * 1000000 - 1) / (w.lenMs * 1000000) * (w.lenMs *
            1000000))
        let x := d.advanceTo (d.rawReach (t * 65536))
        { x with cnt := { x.cnt with wins := mput x.cnt.wins key (w.close t) } })) ∧
  (∀ (d : Dev) (engine : Nat) (s : Sampling),
     d.tileRun (engine / 32) = true ∧ mget d.cnt.samp engine = some s →
     Leaves (.sampleIntervalExpiry engine) d
       fun e =>
         mget e.cnt.samp engine = some
           (let x := Config.lfsrNext s.lfsr % 2 ^ 32
            if s.tag then { s with lfsr := x, left := sampInterval s.k x, deferred := true } else
              { s with lfsr := x, left := sampInterval s.k x, tag := true, curDef := false }) ∧ e = { d with cnt := e.cnt }) ∧
  (∀ (d : Dev) (engine : Nat) (r : SampleRec) (s : Sampling) (ring : Ring) (os : List Output),
     mget d.cnt.samp engine = some s ∧ s.tag = true ∧ d.tileRun (engine / 32) = true ∧ ringPut d.cnt.smp (d.reg 0x1008) (SampleRec.bytes r d.now
       engine s.curDef) = some (ring, os) →
     Becomes (.sampleRetire engine r) d
       (let x := d.updSamp engine (fun s => { s with tag := s.deferred, curDef := s.deferred, deferred := false })
        { x with cnt := { x.cnt with smp := ring }, out := os.reverse ++ x.out })) ∧
  (∀ (d : Dev) (engine : Nat) (r : SampleRec) (s : Sampling),
     mget d.cnt.samp engine = some s ∧ s.tag = true ∧ d.tileRun (engine / 32) = true ∧ ringPut d.cnt.smp (d.reg 0x1008) (SampleRec.bytes r d.now
       engine s.curDef) = none →
     Becomes (.sampleRetire engine r) d
       (let x := d.updSamp engine (fun s => { s with tag := s.deferred, curDef := s.deferred, deferred := false })
        { x with cnt := { x.cnt with smpLost := min 0xFFFF (x.cnt.smpLost + 1) } })) ∧
  (∀ (d : Dev) (t n key : Nat) (v : BitVec 64),
     n < 262144 →
     t < d.nTiles →
     (d.reg (0x1100 + 4 * ((t * 512 + n / 512) / 32))).testBit ((t * 512 + n / 512) % 32) = true →
     d.cnt.vals.find? (fun e => d.cntTile e.1 = t && d.cntNum e.1 = n) = some (key, v) →
     d.bar2Read ((t * 512 + n / 512) * 4096 + n % 512 * 8) 8 = v) ∧
  (∀ (d : Dev) (ofs width : Nat),
     (width ≠ 8 ∨ ofs % 8 ≠ 0 ∨ d.nTiles ≤ ofs / 4096 / 512 ∨ (d.reg (0x1100 + 4 * (ofs / 4096 / 32))).testBit (ofs / 4096 % 32) = false) →
     d.bar2Read ofs width = 0#64)

/-- O39. Sending and taking, fragments, forwarded commands, messages of remote managers, and the timers of the interpreter (R26, R369, R370,
R371, R372, R392, R396, R398, R400). A sender's whole packet of 32 to 3,840 bytes fills its free send area; into a full one it only sets
collision, and a wrong length sets bad_len. A read of MBX_TAKE returns the length of the message waiting, clears the full flag and lets the
next one in; with none waiting it returns 0. A management frame of a bound manager fills the area of its channel. A fragment that passes its
checks joins its assembly, and the last one completes the command. A forwarded command runs, or fails with ST_TIMEOUT after 200 ms with
nothing applied and its counter consumed. The first delivery timeout of a stall raises F1, a further one is counted. A refusal run ends
after its 1 s, an assembly fails with ST_TIMEOUT 1 s after its last fragment. It rests on choices of the model: logs 4, 11. -/
def Obligations.MailboxesCarryPacketsFragmentsAndMessages : Prop :=
  (∀ (d : Dev) (p : Packet),
     d.ready = true ∧ d.host.linkUp = true ∧ 1 ≤ p.chan ∧ p.chan < 32 ∧ (d.mbox p.chan).send = none ∧ 32 ≤ p.sendLen ∧ p.sendLen ≤ 3840 →
     Becomes (.mbxSendWrite p) d (d.setMbox p.chan { d.mbox p.chan with send := some p, area := areaOf (p.bytes (d.senderId p.chan)) })) ∧
  (∀ (d : Dev) (p : Packet),
     d.ready = true ∧ d.host.linkUp = true ∧ 1 ≤ p.chan ∧ p.chan < 32 ∧ ((d.mbox p.chan).send.isSome = true ∨ p.sendLen < 32 ∨ 3840 < p.sendLen) →
     Becomes (.mbxSendWrite p) d
       (d.setMbox p.chan (if (d.mbox p.chan).send.isSome then { d.mbox p.chan with collision := true } else { d.mbox p.chan with badLen := true }))) ∧
  (∀ (d : Dev) (ch : Nat) (x : Msg),
     ch < 32 ∧ d.hostOk = true ∧ (d.mbox ch).recv = some x →
     Becomes (.mbxTakeRead ch) d
       (let e : Dev := { d with lastRead := x.bytes.length }; (e.setMbox ch { d.mbox ch with recv := none, stall := false }).deliver ch)) ∧
  (∀ (d : Dev) (ch : Nat), 32 ≤ ch ∨ d.hostOk = false ∨ (d.mbox ch).recv = none → Becomes (.mbxTakeRead ch) d ({ d with lastRead := 0 })) ∧
  (∀ (d : Dev) (sub : Nat) (vlan : Nat) (mac : Nat) (p : Packet) (i : Nat),
     d.ready = true ∧ d.tileRun (tileOfSub sub) = true ∧ (d.sub sub).enabled = true ∧ (List.range 16).find? (fun i => (d.sender (32 + i)).remote =
       some (sub, vlan, mac)) = some i ∧ i < 16 ∧ (d.mbox (32 + i)).send = none ∧ 32 ≤ p.sendLen ∧ p.sendLen ≤ 3840 →
     Becomes (.inbandMessageRx sub vlan mac p) d
       (let q : Packet := { p with chan := 32 + i }
        d.setMbox (32 + i) { d.mbox (32 + i) with send := some q, area := areaOf (q.bytes (d.senderId (32 + i))) })) ∧
  (∀ (d : Dev) (p : Packet) (sp : CmdSpec),
     specOf p.op = some sp ∧ Dev.passesFragment sp p d = true →
     Becomes (.fragmentRx p) d
       (if p.more then (Dev.fragmentDev p d).updMbox p.chan (fun m => { m with asm := some (Dev.fragmentJoined p d) }) else Dev.execute sp
          (Dev.wholeCmd p d) (Dev.wholeDev p d))) ∧
  (∀ (d : Dev) (p : Packet) (sp : CmdSpec),
     specOf p.op = some sp ∧ Dev.passesAs sp false p d = true →
     Becomes (.tileForwardDone p) d (Dev.runBody sp (Dev.entryOf p d).1 (Dev.entryOf p d).2)) ∧
  (∀ (d : Dev) (p : Packet) (sp : CmdSpec),
     specOf p.op = some sp ∧ Dev.passesAs sp false p d = true →
     Becomes (.tileForwardTimeout p) d
       (((Dev.entryOf p d).2.advanceTo ((Dev.entryOf p d).2.now + rawMs 200)).answer (Dev.entryOf p d).1 stTimeout 0xFFFF 0 [])) ∧
  (∀ (d : Dev) (ch : Nat),
     (d.mbox ch).recv.isSome = true ∧ (d.mbox ch).stall = false ∧ d.ready = true →
     Leaves (.mbxDeliveryTimeout ch) d
       fun e => (e.mbox ch).stall = true ∧ (e.mbox ch).placedAt = (d.mbox ch).placedAt + rawMs d.mboxTimeoutMs ∧ Raised e 0x0C 0x01 0 ch) ∧
  (∀ (d : Dev) (ch : Nat),
     (d.mbox ch).recv.isSome = true ∧ (d.mbox ch).stall = true ∧ d.ready = true →
     Becomes (.mbxDeliveryTimeout ch) d
       (let x := d.advanceTo ((d.mbox ch).placedAt + rawMs d.mboxTimeoutMs)
        (x.updMbox ch (fun m => { m with placedAt := (d.mbox ch).placedAt + rawMs d.mboxTimeoutMs, stall := true })).count .mbxTimeouts ch)) ∧
  (∀ (d : Dev) (ch : Nat) (a : Assembly),
     (d.mbox ch).asm = some a →
     Becomes (.fragmentTimeout ch) d ((d.advanceTo (a.atT + rawS 1)).abandonAsm ch stTimeout)) ∧
  (∀ (d : Dev) (ch : Nat) (t : Raw),
     (d.sender ch).refuseEnd = some t →
     Becomes (.authRefusalEnd ch) d ((d.advanceTo t).updSender ch (fun s => { s with refuseEnd := none, authRun := 0 })))

/-- O40. The locks, the CXL link with its vectors and device memory, and the ends of a bulk transfer (R363, R365, R366, R374, R375, R376, R378,
R508). A read of a free lock makes the reader its owner and returns 0; of a held one it returns busy and the owner and changes nothing; a
firmware lock reads busy with owner 0 through a host alias. A write of the owner's own ID by the owner frees the lock; any other write is
ignored and the first is latched. LCK_BREAK through alias 0 frees a lock that a host holds and no other. A link-down frees the hosts' locks,
drops bulk transfers and clears interrupt causes; a link-up delivers channel 0; MSI-X enabled sends each vector left pending once. A write
of the device memory is dropped and counted. A transfer that ends runs its command on the data moved; one that fails marks its descriptors
and replies ST_TIMEOUT or ST_BAD_PARAM. It rests on choices of the model: logs 4, 11. -/
def Obligations.LocksLinkAndBulkTransfers : Prop :=
  (∀ (d : Dev) (lock : Nat) (master : Nat),
     lock < 256 ∧ d.masterOk master = true ∧ fwLock lock master = false ∧ mget d.host.locks lock = none →
     Becomes (.lckLockRead lock master) d ({ d with host := { d.host with locks := mput d.host.locks lock master }, lastRead := 0 })) ∧
  (∀ (d : Dev) (lock : Nat) (master : Nat) (o : Nat),
     lock < 256 ∧ d.masterOk master = true ∧ fwLock lock master = false ∧ mget d.host.locks lock = some o →
     Becomes (.lckLockRead lock master) d ({ d with lastRead := 2 ^ 31 + o })) ∧
  (∀ (d : Dev) (lock : Nat) (master : Nat),
     lock < 256 ∧ d.masterOk master = true ∧ fwLock lock master = true →
     Becomes (.lckLockRead lock master) d ({ d with lastRead := 2 ^ 31 })) ∧
  (∀ (d : Dev) (lock : Nat) (master : Nat) (value : BitVec 32),
     lock < 256 ∧ d.masterOk master = true ∧ fwLock lock master = false ∧ mget d.host.locks lock = some master ∧ value.toNat = master →
     Becomes (.lckLockWrite lock master value) d ({ d with host := { d.host with locks := mdel d.host.locks lock } })) ∧
  (∀ (d : Dev) (lock : Nat) (master : Nat) (value : BitVec 32),
     lock < 256 ∧ d.masterOk master = true ∧ (mget d.host.locks lock ≠ some master ∨ value.toNat ≠ master ∨ fwLock lock master = true) →
     Becomes (.lckLockWrite lock master value) d
       (if d.host.lckBad then d else { d with host := { d.host with lckBad := true, lckNum := lock, lckWriter := master } })) ∧
  (∀ (d : Dev) (als : Nat) (value : BitVec 32),
     d.hostOk = true ∧ als = 0 ∧ (mget d.host.locks (value.toNat % 256)).any hostMaster = true →
     Becomes (.lckBreakWrite als value) d ({ d with host := { d.host with locks := mdel d.host.locks (value.toNat % 256) } })) ∧
  (∀ (d : Dev) (als : Nat) (value : BitVec 32),
     als ≠ 0 ∨ (mget d.host.locks (value.toNat % 256)).any hostMaster = false →
     Becomes (.lckBreakWrite als value) d (d)) ∧
  (∀ (d : Dev),
     Leaves .cxlLinkDown d
       fun e =>
         e.host.linkUp = false ∧ e.host.bulk = none ∧ e.host.irq = 0 ∧ e.host.msixOn = false ∧ e.host.locks = d.host.locks.filter (fun x =>
           !hostMaster x.2) ∧ e.terms = d.terms ∧ e.allocs = d.allocs ∧ e.queues = d.queues ∧ e.time = d.time ∧ e.rst = d.rst) ∧
  (∀ (d : Dev) (cxl : Bool),
     d.host.linkUp = false →
     Becomes (.cxlLinkUp cxl) d (let e : Dev := { d with host := { d.host with linkUp := true, cxl := cxl } }; e.deliver 0)) ∧
  (∀ (d : Dev),
     d.host.linkUp = true →
     Becomes .msiXEnable d
       (((d.host.msix.filter (fun x => x.2.2)).map (fun x => x.1)).foldl (fun d n => d.emit (.vector n))
          { d with host := { d.host with msixOn := true, msix := [] } })) ∧
  (∀ (d : Dev) (addr : Nat) (value : BitVec 64),
     d.hostOk = true ∧ d.host.cxl = true ∧ addr < 2 ^ 30 →
     Becomes (.memWriteDrop addr value) d (d.count .memWriteDrop 0)) ∧
  (∀ (d : Dev) (b : Bulk) (ds : List (BitVec 64 × Desc)) (sp : CmdSpec),
     d.host.bulk = some b ∧ specOf b.job.op = some sp ∧ bulkDescs b.job.bulk b.job.params = some ds →
     Becomes .dmaTransferDone d
       (let e : Dev := { d with host := { d.host with bulk := none }, out := (ds.map (fun x => writeBack x x.2.len 1)).reverse ++ d.out }
        e.runBody sp
          {
            p := b.job, params := bytesAt b.job.params 0 16 ++ b.job.bulk.data, snd := { e.sender b.chan with caps := b.caps, doms := b.doms },
            trailed := b.trailed, key := b.key })) ∧
  (∀ (d : Dev) (desc : Nat) (b : Bulk) (ds : List (BitVec 64 × Desc)),
     d.host.bulk = some b ∧ bulkDescs b.job.bulk b.job.params = some ds ∧ desc < ds.length →
     Becomes (.dmaHostReadTimeout desc) d
       (let e := d.advanceTo (d.now + rawMs 10)
        let e : Dev :=
          { e with
            host := { e.host with bulk := none },
            out :=
              (ds.zipIdx.map (fun x => if x.2 < desc then writeBack x.1 x.1.2.len 1 else if x.2 = desc then writeBack x.1 0 3 else writeBack x.1 0
                4)).reverse ++ e.out }
        e.answer
          { p := b.job, params := b.job.params, snd := { e.sender b.chan with caps := b.caps, doms := b.doms }, trailed := b.trailed, key := b.key }
          stTimeout 0xFFFF (desc % 65536) [])) ∧
  (∀ (d : Dev) (desc : Nat) (b : Bulk) (ds : List (BitVec 64 × Desc)),
     d.host.bulk = some b ∧ bulkDescs b.job.bulk b.job.params = some ds ∧ desc < ds.length →
     Becomes (.dmaHostError desc) d
       (let e : Dev :=
          { d with
            host := { d.host with bulk := none },
            out :=
              (ds.zipIdx.map (fun x => if x.2 < desc then writeBack x.1 x.1.2.len 1 else if x.2 = desc then writeBack x.1 0 2 else writeBack x.1 0
                4)).reverse ++ d.out }
        e.answer
          { p := b.job, params := b.job.params, snd := { e.sender b.chan with caps := b.caps, doms := b.doms }, trailed := b.trailed, key := b.key }
          stBadParam 0xFFFF (desc % 65536) []))

/-- O41. The reads of Table 21-3 that change state, and the commands of the board management SPI (R379, R380, R480). Each of the reads returns
its word and has its effect: TIME_RAW_LO captures the high half, TIME_NOW_FRAC the network time and frame, TIME_STATUS clears pps_rejected,
PWR_DISC_STATUS clears short_pulses, PWR_TILE_TEMP restarts peak_c, BPM_MIN_FREE restarts from the free cells, CNT_LOST clears both counts.
READ_STATUS returns the status block, READ_ID the identification, RESET_REQ with bytes 5AH and C3H starts a package warm reset and with
others does nothing, an unknown command does nothing. It rests on choices of the model: log 11. -/
def Obligations.ReadsWithEffectsAndBoardManagement : Prop :=
  (∀ (d : Dev),
     d.endpointUp = true →
     Becomes .timeRawLoRead d
       ({ d with time := { d.time with capRawHi := BitVec.ofNat 32 (d.now.toNat / 2 ^ 32) }, lastRead := d.now.toNat % 2 ^ 32 })) ∧
  (∀ (d : Dev),
     d.endpointUp = true →
     Becomes .timeNowFracRead d
       ({ d with
          time :=
            { d.time with
              capNs := BitVec.ofNat 32 d.netSubNs, capSLo := BitVec.ofNat 32 d.netSec, capSHi := BitVec.ofNat 32 (d.netSec / 2 ^ 32),
              capFLo := BitVec.ofNat 32 d.frame, capFHi := BitVec.ofNat 32 (d.frame / 2 ^ 32) }, lastRead := lowBits 16 d.netU })) ∧
  (∀ (d : Dev), d.endpointUp = true → Becomes .timeStatusRead d ({ d with time := { d.time with ppsRejected := 0 }, lastRead := d.timeStatusWord })) ∧
  (∀ (d : Dev), d.endpointUp = true → Becomes .pwrDiscStatusRead d ({ d with pwr := { d.pwr with shortPulses := 0 }, lastRead := d.discStatus })) ∧
  (∀ (d : Dev) (tile : Nat),
     tile < d.nTiles ∧ d.hostOk = true →
     Becomes (.pwrTileTempRead tile) d
       (let e := d.updTile tile (fun x => { x with peakC := -128 })
        { e with lastRead := word [(lowBits 8 (d.tile tile).peakC, 24), (lowBits 8 (d.tile tile).nowC, 16), ((d.tile tile).level, 0)] })) ∧
  (∀ (d : Dev) (tile : Nat),
     tile < d.nTiles ∧ d.hostOk = true ∧ d.tileRun tile = true →
     Becomes (.bpmMinFreeRead tile) d
       (let e := d.setPool tile { d.pool tile with minFree := (d.pool tile).free }; { e with lastRead := (d.pool tile).minFree })) ∧
  (∀ (d : Dev),
     d.endpointUp = true →
     Becomes .cntLostRead d ({ d with cnt := { d.cnt with evtLost := 0, smpLost := 0 }, lastRead := word [(d.cnt.evtLost, 16), (d.cnt.smpLost, 0)] })) ∧
  (∀ (d : Dev) (start : Nat) (n : Nat),
     d.spiUp = true →
     Becomes (.readStatus start n) d ({ d with lastRead := leNat ((List.range n).map (fun i => d.spiBlock.getD ((start + i) % 64) 0)) })) ∧
  (∀ (d : Dev), d.spiUp = true → Becomes .readId d ({ d with lastRead := d.glbId })) ∧
  (∀ (d : Dev) (b1 : Byte) (b2 : Byte),
     d.spiUp = true ∧ b1 = 0x5A#8 ∧ b2 = 0xC3#8 ∧ d.inReset = false →
     Leaves (.resetReq b1 b2) d fun e => e.inReset = true ∧ e.rst.cause.getLsbD 4 = true ∧ e.ready = false) ∧
  (∀ (d : Dev) (b1 : Byte) (b2 : Byte), d.spiUp = false ∨ b1 ≠ 0x5A#8 ∨ b2 ≠ 0xC3#8 ∨ d.inReset = true → Becomes (.resetReq b1 b2) d (d)) ∧
  (∀ (d : Dev) (b : Byte), Becomes (.bmsUnknownCommand b) d ({ d with lastRead := 0 }))

/-- O42. Host writes of BAR0: access sizes, RW words, W1C words, pages and tile windows (R9, R72, R358, R361, R362, R368, R376, R477, R479). An
aligned 64-bit write acts as two 32-bit writes in ascending address order; any other size or alignment, and every write before command-ready
but those of the descriptor registers, is ignored. A write of an RW register stores the word cut to its RW bits, in the global window and,
while the tile runs, in its window. A write of GLB_IRQ_CAUSE clears the bits written as one. A page of a lock alias writes that lock; a word
of a free send area is stored in it and one of a full area sets collision; MBX_CFG and a word of a check page that is not busy are stored. -/
def Obligations.HostWritesOfRegisters : Prop :=
  (∀ (d : Dev) (addr : Nat) (width : Nat) (write : HostWrite),
     ¬ (width = 4 ∧ addr % 4 = 0) ∧ ¬ (width = 8 ∧ addr % 8 = 0) →
     Becomes (.regWrite addr width write) d (d)) ∧
  (∀ (d : Dev) (addr : Nat) (width : Nat) (write : HostWrite) (x : Dev) (y : Dev),
     width = 8 ∧ addr % 8 = 0 ∧ Becomes (.regWrite addr 4
       { value := write.value.setWidth 32 |>.setWidth 64, evt := write.evt.setWidth 32 |>.setWidth 64 }) d x ∧ Becomes (.regWrite (addr + 4) 4
       { value := write.value >>> 32, evt := write.evt >>> 32 }) x y →
     Becomes (.regWrite addr width write) d (y)) ∧
  (∀ (d : Dev) (addr : Nat) (width : Nat) (write : HostWrite),
     width = 4 ∧ d.ready = false ∧ addr ≠ 0x208 ∧ ¬ (addr = 0x20C ∧ d.rst.stage = .waitHost) →
     Becomes (.regWrite addr width write) d (d)) ∧
  (∀ (d : Dev) (addr : Nat) (width : Nat) (write : HostWrite) (m : BitVec 32),
     width = 4 ∧ addr % 4 = 0 ∧ d.hostOk = true ∧ addr < 0x10000 ∧ rwGlobal addr d.nTiles = some m →
     Becomes (.regWrite addr width write) d
       (if 0x600 ≤ addr ∧ addr < 0x700 then d.setAge ((addr - 0x600) / 4) (write.value.setWidth 32 &&& m).toNat else d.setReg addr
          (write.value.setWidth 32 &&& m).toNat)) ∧
  (∀ (d : Dev) (addr : Nat) (width : Nat) (write : HostWrite),
     width = 4 ∧ addr = 0x010 ∧ d.hostOk = true →
     Becomes (.regWrite addr width write) d
       ({ d with host := { d.host with irq := w1c d.host.irq (write.value.setWidth 32 &&& ~~~(write.evt.setWidth 32 : BitVec 32)).toNat 0 } })) ∧
  (∀ (d : Dev) (addr : Nat) (width : Nat) (write : HostWrite) (tile : Nat) (o : Nat) (m : BitVec 32),
     width = 4 ∧ o % 4 = 0 ∧ d.hostOk = true ∧ tile < d.nTiles ∧ d.tileRun tile = true ∧ o < 0x100000 ∧ addr = tileWin tile + o ∧ rwTile o = some m →
     Becomes (.regWrite addr width write) d (d.setReg addr (write.value.setWidth 32 &&& m).toNat)) ∧
  (∀ (d : Dev) (addr : Nat) (width : Nat) (write : HostWrite) (als : Nat) (lock : Nat) (e : Dev),
     width = 4 ∧ als < 16 ∧ lock < 256 ∧ addr = 0x10000 + als * 0x1000 + lock * 4 ∧ d.hostOk = true ∧ Becomes (.lckLockWrite lock (0x100 + als)
       (write.value.setWidth 32)) d e →
     Becomes (.regWrite addr width write) d (e)) ∧
  (∀ (d : Dev) (addr : Nat) (width : Nat) (write : HostWrite) (ch : Nat) (i : Nat),
     width = 4 ∧ 1 ≤ ch ∧ ch < 32 ∧ i < 960 ∧ addr = 0x20000 + ch * 0x1000 + i * 4 ∧ d.hostOk = true →
     Becomes (.regWrite addr width write) d
       (d.setMbox ch (if (d.mbox ch).send.isSome then { d.mbox ch with collision := true } else
          { d.mbox ch with
            area := if write.value.setWidth 32 = 0#32 then mdel (d.mbox ch).area i else mput (d.mbox ch).area i (write.value.setWidth 32) }))) ∧
  (∀ (d : Dev) (addr : Nat) (width : Nat) (write : HostWrite) (ch : Nat),
     width = 4 ∧ ch < 32 ∧ addr = 0x20F0C + ch * 0x1000 ∧ d.hostOk = true →
     Becomes (.regWrite addr width write) d (d.setMbox ch { d.mbox ch with irqFree := write.value.getLsbD 1, irqRecv := write.value.getLsbD 0 })) ∧
  (∀ (d : Dev) (addr : Nat) (width : Nat) (write : HostWrite) (page : Nat) (o : Nat),
     width = 4 ∧ 4 ≤ page ∧ page < 16 ∧ 0x100 ≤ o ∧ o < 0x1000 ∧ o % 4 = 0 ∧ addr = 0x60000 + page * 0x1000 + o ∧ d.hostOk = true →
     Becomes (.regWrite addr width write) d
       (if (d.chkPage page).st.busy then d.setChk page { d.chkPage page with collision := true } else d.setChk page
          { d.chkPage page with data := setWord (d.chkPage page).data (o - 0x100) (write.value.setWidth 32) }))

/-- O43. Tile reset of tile 0 is a package warm reset; tile-reset and warm-reset are critical, function-reset is not (R64). A CMD_SYS_TILE_RESET
that names tile 0 answers and then begins a package warm reset, as CMD_SYS_WARM_RESET does. Both commands are refused with ST_AUTH_FAIL
without the critical flag. A CMD_SYS_FUNC_RESET without the flag whose function reset its rules admit is carried out. -/
def Obligations.ResetCommandsAreCritical : Prop :=
  (AnswersThen .cmdSysTileReset specSysTileReset (fun c d => c.tgt = 0) (fun _ d => d) (fun c d => fun e => e.warmReset 3)) ∧
  (AnswersThen .cmdSysWarmReset specSysWarmReset (fun _ _ => True) (fun _ d => d) (fun c d => fun e => e.warmReset 3)) ∧
  (NeedsCritical .cmdSysTileReset specSysTileReset) ∧
  (NeedsCritical .cmdSysWarmReset specSysWarmReset) ∧
  (Answers .cmdSysFuncReset specSysFuncReset
     (fun c d => c.p.crit = false ∧ bodySysFuncReset c d = (bodySysFuncReset c d).dev.ok) (fun c d => (bodySysFuncReset c d).dev) (fun _ _ => []))

/-- O44. Non-critical opcodes may be sent critical; critical opcodes must be (R388). Over every row that carries a packet: one whose opcode is
not critical, sent with the critical flag, goes the path of a critical opcode exactly; one whose opcode is critical, sent without the flag,
is refused with ST_AUTH_FAIL, and no channel's counter changes. -/
def Obligations.CriticalFlagDecidesAuthentication : Prop :=
  ∀ r ∈ commandRows,
    (r.2.crit = false → ∀ (p : Packet) (d : Dev), p.crit = true → Becomes (r.1 p) d (Dev.runCommand { r.2 with crit := true } p d)) ∧ (r.2.crit = true
      → NeedsCritical r.1 r.2)

/-- O45. A packet without authority changes nothing of the package (R387, R388, R389, R392, R393). Over every row that carries a packet, in
every state: a packet that is not critical although its opcode is, that is critical and not signed under its channel's key or not above the
consumed counter, or whose sender the masks do not allow, leaves everything of the package as it was but the host attachment, outputs,
counters, the senders' bookkeeping and the fault records of refused authentication; and a packet that is not a signed and fresh critical one
consumes no counter of any channel. -/
def Obligations.NothingWithoutAuthority : Prop :=
  ∀ r ∈ commandRows,
    ∀ (p : Packet) (d : Dev), d.authorised r.2 (rowPacket r.2 p) = false →
    Leaves (r.1 p) d
      fun e =>
        Withheld d e ∧ ((p.crit && d.signs (rowPacket r.2 p) && d.freshCounter (rowPacket r.2 p)) = false → ∀ ch, (e.sender ch).consumed = (d.sender
          ch).consumed)

/-- O46. The checks of a packet in their order, each with its status (R383, R389, R393, R395, R396). Over every row that carries a packet: a
wrong magic or version is ST_BAD_PARAM, a missing critical flag ST_AUTH_FAIL, a wrong length ST_BAD_LENGTH; a verified packet whose counter
is not above the consumed one is ST_REPLAY with its counter untouched; a packet that its sender may not send is ST_NOT_PERMITTED, and a
critical one has its counter consumed. -/
def Obligations.PacketsAreRefusedInOrder : Prop :=
  (∀ r ∈ commandRows,
     ∀ (p : Packet) (d : Dev), let q := rowPacket r.2 p; d.takes q = true →
     (d.mbox q.chan).asm = none →
     (q.magic ≠ 0x7A5C#16 → Becomes (r.1 p) d (d.refusedWith q stBadParam 0)) ∧ (q.magic = 0x7A5C#16 → q.version ≠ 1 → Becomes (r.1 p) d
       (d.refusedWith q stBadParam 2)) ∧ (q.magic = 0x7A5C#16 → q.version = 1 → (r.2.crit && !q.crit) = true → Becomes (r.1 p) d (d.refusedWith q
       stAuthFail 3)) ∧ (q.magic = 0x7A5C#16 → q.version = 1 → (r.2.crit && !q.crit) = false → (q.sendLen ≠ 32 + q.plen + 16 * b2n q.crit ∨ (if q.crit
       then 3792 else 3808) < q.plen) → Becomes (r.1 p) d (d.refusedWith q stBadLength 10)) ∧ ((formStatus q (some r.2)).1 = stOk → q.more = false →
       q.bulkFlag = false → r.2.lenOk q q.body = false → Becomes (r.1 p) d (d.refusedWith q stBadLength 10))) ∧
  (∀ r ∈ commandRows,
     ∀ (p : Packet) (d : Dev), let q := rowPacket r.2 p; let v := (Dev.takenBy q d).verify (Dev.takenCmd q d); d.takes q = true →
     (d.mbox q.chan).asm = none →
     (formStatus q (some r.2)).1 = stOk →
     q.more = false →
     (if q.bulkFlag then decide (16 ≤ q.plen) else r.2.lenOk q q.body) = true →
     q.crit = true →
     v.1 = stOk →
     q.counter.toNat ≤ (d.sender q.chan).consumed →
     Becomes (r.1 p) d
       (v.2.2.2.answer { Dev.takenCmd q d with trailed := true, key := v.2.2.1 } stReplay 16 0 []) ∧ (v.2.2.2.sender q.chan).consumed =
       (d.sender q.chan).consumed) ∧
  (∀ r ∈ commandRows,
     ∀ (p : Packet) (d : Dev) (ofs : Nat), let q := rowPacket r.2 p; Dev.entersAs r.2 q.bulkFlag q d = true →
     (Dev.entryOf q d).2.unpermitted r.2 (Dev.entryOf q d).1 = some ofs →
     Becomes (r.1 p) d
       ((Dev.entryOf q d).2.answer (Dev.entryOf q d).1 stNotPermitted ofs 0 []) ∧
       (q.crit = true → ((Dev.entryOf q d).2.sender q.chan).consumed = q.counter.toNat))

/-- O47. A step runs the command at the front of the queue (R371). In every state whose queue begins with a command, a step is the command's
effect on the state with the rest of the queue. -/
def Obligations.StepRunsTheFrontCommand : Prop :=
  ∀ (c : Instr) (cs : List Instr) (d : Dev), step { dev := d, pending := c :: cs } = exec c { dev := d, pending := cs }

/-- O48. On an empty queue a step serves one waiting request and lets one clock cycle pass (R115, R371). The model's choice (log 3): with no
command waiting, the interpreter takes the request of the next channel in its rotation, and one cycle of the time clock passes; the queue
stays empty. -/
def Obligations.EmptyQueueServesARequest : Prop :=
  (∀ d : Dev, step { dev := d, pending := [] } = .next { dev := d.serve.clockCycle, pending := [] }) ∧
  (∀ (d : Dev) (ch : Nat), d.nextServed = none → d.serve = d) ∧
  (∀ (d : Dev) (ch : Nat) (p : Packet) (sp : CmdSpec),
     d.nextServed = some ch →
     (d.mbox ch).send = some p →
     d.canTake ch = true →
     specOf p.op = some sp →
     d.serve = Dev.process (some sp) p (d.clearSend ch))

/-- O49. Every command answers a next state and leaves the queue to the step (R371). Over every command and state: the command never stops the
block and never touches the queue. -/
def Obligations.EveryCommandAnswersANextState : Prop :=
  ∀ (c : Instr) (s : State), ∃ d : Dev, exec c s = .next { dev := d, pending := s.pending }

/-- O50. A step removes the front command only, and the waiting commands stay well formed (R371). From every state whose waiting commands are
well formed, a step leaves the rest of the queue in its order, still well formed. -/
def Obligations.QueueKeepsItsOrderAndForm : Prop :=
  ∀ s t : State, s.queueWf → step s = .next t → t.queueWf ∧ t.pending = s.pending.tail

/-- O51. What reset leaves: the registers with a reset value of the spec, an empty queue, and locks that are safe (R53, R54, R376, R485, R9).
State.reset holds no waiting command and no lock; the RW registers read as their tables give them at reset; no tile runs and the interpreter
accepts nothing yet. -/
def Obligations.ResetLeavesTheSpecsValues : Prop :=
  State.reset.queueWf ∧ State.reset.pending = [] ∧ State.reset.dev.locksSafe ∧ State.reset.dev.host.locks = [] ∧ State.reset.dev.ready = false ∧
    State.reset.dev.host.irq = 0 ∧ State.reset.dev.senders = [] ∧ ∀ x ∈ [(0x124, 0x0E100000), (0x280, 0xE1), (0x324, 0x4003841B), (0x33C, 0x64000),
    (0x400, 0x1E07D0), (0x404, 0x138807D0), (0x408, 0x8000012C), (0x500, 0x91000005), (0x600, 0x07D0960C), (0x700, 0xC0000000), (0x708, 0xFFFFFFFF),
    (0x70C, 0x03E80000), (0x900, 100), (0xB00, 0x2000000A), (0xC20, 0x00A42200), (0x102000, 0x40000), (0x104010, 0x30040), (0x10401C, 0xA0032),
    (0x105000, 0xA0FA64), (0x105004, 0x3E81428), (0x105400, 0xC8403E8), (0x106000, 10), (0x106400, 0x325A), (0x109008, 2048)], State.reset.dev.reg x.1
    = x.2

/-- O52. No lock command gives a firmware lock to a host (R374, R375, R376, R365). From every device in which no host owns a lock 240 to 255, a
lock read, a lock write, a break, a link-down or link-up of the host, a read of MBX_TAKE and an enable of MSI-X leave it so. -/
def Obligations.LocksOfFirmwareStayFirmwares : Prop :=
  ∀ (d e : Dev) (lock master als ch : Nat) (value : BitVec 32) (cxl : Bool),
    d.locksSafe →
    (Becomes (.lckLockRead lock master) d e ∨ Becomes (.lckLockWrite lock master value) d e ∨ Becomes (.lckBreakWrite als value) d e ∨ Becomes
      .cxlLinkDown d e ∨ Becomes (.cxlLinkUp cxl) d e ∨ Becomes (.mbxTakeRead ch) d e ∨ Becomes .msiXEnable d e) →
    e.locksSafe

/-- O53. A whole packet is read back from its bytes as it was sent (R369, R381, R382, R383). For every packet whose fields fit the header of
Table 15-1, with parameters and, where critical, a trailer of 16 bytes, the packet read from its bytes on its channel is the packet: every
field at every value, whatever sender ID the hardware stamped. A later change of the sender ID changes no field. -/
def Obligations.PacketBytesRoundTrip : Prop :=
  ∀ (p : Packet) (sid : Nat), wholePacket p → Packet.ofBytes p.chan (p.bytes sid) = p

/-- O54. A descrambler gives back what was scrambled, and synchronises itself in one block (R89). For every scrambler state and payload,
descrambling the scrambled block from the same state gives back the payload and leaves both at the same state; from any two states, one
received block leaves a descrambler at the same state. -/
def Obligations.ScramblersSynchronise : Prop :=
  (∀ (s : BitVec 58) (p : BitVec 64), descramble s (scramble s p).1 = (p, (scramble s p).2)) ∧
  (∀ (s t : BitVec 58) (r : BitVec 64), (descramble s r).2 = (descramble t r).2)

/-- O55. The opcode table gives no command bits, so that a word spells none (R399). For every width and word the decoder answers no command, and
putting a word in front of the queue changes nothing. -/
def Obligations.NoWordSpellsACommand : Prop :=
  ∀ (s : State) (nbits w : Nat), decodeTableWord nbits w = none ∧ s.withFetchWord nbits w = s

/-- O56. The opcodes and the critical opcodes are those of the catalogue; any other fails with ST_BAD_OPCODE (R399). The rows that carry packets
have, class by class, exactly the opcodes of Table 15-7 and the tables it names, each once; exactly those of Table 15-8 are critical; the
interpreter knows an opcode if and only if a row has it; and a packet with any other opcode that is taken is refused with ST_BAD_OPCODE. -/
def Obligations.CatalogueOfOpcodes : Prop :=
  ((commandRows.map (fun r => r.2.op)) = (List.range 9).map (0x0101 + ·) ++ ((List.range 5).map (0x0201 + ·) ++ [0x0210, 0x0211, 0x0220, 0x0230,
     0x0231]) ++ (List.range 8).map (0x0301 + ·) ++ (List.range 7).map (0x0401 + ·) ++ (List.range 9).map (0x0501 + ·) ++ (List.range 13).map (0x0601
     + ·) ++ (List.range 9).map (0x0701 + ·) ++ ((List.range 9).map (0x0801 + ·) ++ (List.range 4).map (0x0811 + ·)) ++ (List.range 8).map (0x0901 +
     ·) ++ (List.range 5).map (0x0A01 + ·) ++ (List.range 6).map (0x0B01 + ·) ++ (List.range 3).map (0x0C01 + ·) ++ (List.range 4).map (0x0D01 + ·) ++
     (List.range 3).map (0x0E01 + ·) ++ (List.range 5).map (0x0F01 + ·)) ∧
  (∀ r ∈ commandRows,
     r.2.crit = true ↔ r.2.op ∈ [0x0102, 0x0103, 0x0104, 0x0105, 0x0201, 0x0202, 0x0203, 0x0204, 0x0307, 0x0508, 0x0801, 0x0808, 0x0903, 0x0904,
       0x0905, 0x0908, 0x0B01, 0x0B06, 0x0C01, 0x0C02, 0x0D02, 0x0E01, 0x0E02]) ∧
  ((∀ r ∈ commandRows, specOf r.2.op = some r.2) ∧ ∀ op, specOf op = none ↔ op ∉ commandRows.map (fun r => r.2.op)) ∧
  (∀ (p : Packet) (d : Dev),
     specOf p.op = none →
     d.wellTaken p = true →
     Becomes (.fragmentRx p) d (d.refusedWith p stBadOpcode 4) ∧ Becomes (.tileForwardDone p) d (d.refusedWith p stBadOpcode 4))
end

