-- ==== Sys2Proof/Laws/Entry.lean ====
section
/-!
SUPPORT. What a packet that passes every check does: its row runs its body in `Dev.devIn` (runCommand_passed).
-/

namespace Sys2Proof.Machine

theorem place_free (d : Dev) (q : Packet) (hr : d.ready = true) (h1 : 1 ≤ q.chan) (h2 : q.chan < 64)
    (hl : 32 ≤ q.chan ∨ d.host.linkUp = true) (hs : (d.mbox q.chan).send = none) (hn : 32 ≤ q.sendLen) (hm : q.sendLen ≤ 3840) :
    d.place q = d.setMbox q.chan { d.mbox q.chan with send := some q, area := areaOf (q.bytes (d.senderId q.chan)) } := by
  have a : ¬ q.chan = 0 := by omega
  have b : ¬ 64 ≤ q.chan := by omega
  have c : ¬ q.sendLen < 32 := by omega
  have e : ¬ 3840 < q.sendLen := by omega
  simp only [Dev.place, a, b, c, e, hr, hs, decide_false, Bool.or_false, Bool.not_true, Option.isSome_none, if_false, Bool.false_eq_true]
  rcases hl with hl | hl
  · simp [Nat.not_lt.mpr hl]
  · by_cases g : q.chan < 32 <;> simp [g, hl]

theorem lookup_mput {α : Type} (m : List (Nat × α)) (k : Nat) (v : α) : (mput m k v).lookup k = some v := by
  induction m with
  | nil => simp [mput]
  | cons e m ih =>
    obtain ⟨j, w⟩ := e
    simp only [mput]
    split
    · simp [List.lookup]
    · split
      · simp [List.lookup]
      · next h =>
        have hk : (k == j) = false := by simp [h]
        simp [List.lookup, hk, ih]

theorem lookup_mput_ne {α : Type} (m : List (Nat × α)) (k j : Nat) (v : α) (h : j ≠ k) : (mput m k v).lookup j = m.lookup j := by
  have hjk : (j == k) = false := by simp [h]
  induction m with
  | nil => simp [mput, List.lookup, hjk]
  | cons e m ih =>
    obtain ⟨i, w⟩ := e
    simp only [mput]
    split
    · simp [List.lookup, hjk]
    · split
      · next g => subst g; simp [List.lookup, hjk]
      · simp only [List.lookup]; split <;> simp_all

@[simp] theorem mgetD_mput {α : Type} (m : List (Nat × α)) (k : Nat) (v x : α) : mgetD (mput m k v) k x = v := by
  simp [mgetD, lookup_mput]
@[simp] theorem mget_mput {α : Type} (m : List (Nat × α)) (k : Nat) (v : α) : mget (mput m k v) k = some v := by
  simp [mget, lookup_mput]
theorem mgetD_mput_ne {α : Type} (m : List (Nat × α)) (k j : Nat) (v x : α) (h : j ≠ k) : mgetD (mput m k v) j x = mgetD m j x := by
  simp [mgetD, lookup_mput_ne _ _ _ _ h]
theorem mget_mput_ne {α : Type} (m : List (Nat × α)) (k j : Nat) (v : α) (h : j ≠ k) : mget (mput m k v) j = mget m j := by
  simp [mget, lookup_mput_ne _ _ _ _ h]

/-- A listed key has a value, and a read with any default answers it. -/
theorem get_of_has {α : Type} {m : List (Nat × α)} {k : Nat} (h : mhas m k = true) : ∃ v, mget m k = some v := by
  unfold mhas at h; unfold mget
  cases g : m.lookup k with
  | none => rw [g] at h; cases h
  | some v => exact ⟨v, rfl⟩
theorem mgetD_of_get {α : Type} {m : List (Nat × α)} {k : Nat} {v : α} (h : mget m k = some v) (x : α) : mgetD m k x = v := by
  unfold mget at h; unfold mgetD; rw [h]; rfl

/-! ## What the small shared operations leave unchanged -/

theorem vector_same (d : Dev) (n : Nat) :
    d.vector n = { d with out := (d.vector n).out, host := { d.host with msix := (d.vector n).host.msix } } := by
  simp only [Dev.vector]; split <;> rfl

theorem overflowEvent_same (d : Dev) (key : Nat) (t : Threshold) (k : Nat) (w m : Bool) (v : Nat) :
    ∃ o x c, d.overflowEvent key t k w m v = { d with out := o, host := { d.host with msix := x }, cnt := c } := by
  simp only [Dev.overflowEvent]
  split
  · rw [vector_same]; exact ⟨_, _, _, rfl⟩
  · exact ⟨d.out, d.host.msix, _, rfl⟩

theorem crossEvent_same (d : Dev) (key v n : Nat) (m : Bool) :
    ∃ o x c, d.crossEvent key v n m = { d with out := o, host := { d.host with msix := x }, cnt := c } := by
  simp only [Dev.crossEvent]
  split
  · exact ⟨d.out, d.host.msix, _, rfl⟩
  · split
    · exact overflowEvent_same ..
    · split
      · exact overflowEvent_same ..
      · exact ⟨d.out, d.host.msix, _, rfl⟩

/-- Counting changes counters, and through an overflow event outputs and pending vectors; nothing else. -/
theorem count_same (d : Dev) (c : Cnt) (obj n : Nat) :
    ∃ o x v, d.count c obj n = { d with out := o, host := { d.host with msix := x }, cnt := v } := by
  simp only [Dev.count, Dev.addKey]
  split
  · obtain ⟨o, x, v, h⟩ := crossEvent_same { d with cnt := _ } _ _ _ _
    exact ⟨o, x, v, h⟩
  · obtain ⟨o, x, v, h⟩ := crossEvent_same { d with cnt := _ } _ _ _ _
    exact ⟨o, x, v, h⟩

@[simp] theorem count_mbox (d : Dev) (c : Cnt) (obj n ch : Nat) : (d.count c obj n).mbox ch = d.mbox ch := by
  obtain ⟨o, x, v, h⟩ := count_same d c obj n
  rw [h]; rfl

@[simp] theorem count_sender (d : Dev) (c : Cnt) (obj n ch : Nat) : (d.count c obj n).sender ch = d.sender ch := by
  obtain ⟨o, x, v, h⟩ := count_same d c obj n
  rw [h]; rfl

@[simp] theorem vector_mbox (d : Dev) (n ch : Nat) : (d.vector n).mbox ch = d.mbox ch := by rw [vector_same]; rfl

@[simp] theorem setMbox_mbox (d : Dev) (ch : Nat) (m : MboxChan) : (d.setMbox ch m).mbox ch = m := by
  simp [Dev.mbox, Dev.setMbox]

theorem clearSend_same (d : Dev) (ch : Nat) :
    ∃ o h, d.clearSend ch = { d with out := o, host := h } ∧ h.mbox = mput d.host.mbox ch { d.mbox ch with send := none } := by
  simp only [Dev.clearSend]
  split
  · rw [vector_same]; exact ⟨_, _, rfl, rfl⟩
  · exact ⟨d.out, _, rfl, rfl⟩

theorem clearSend_asm (d : Dev) (ch : Nat) : ((d.clearSend ch).mbox ch).asm = (d.mbox ch).asm := by
  obtain ⟨o, h, e, hm⟩ := clearSend_same d ch
  rw [e]; simp [Dev.mbox, hm]

theorem formStatus_len (q : Packet) (sp : CmdSpec) (h : (formStatus q (some sp)).1 = stOk) : 32 ≤ q.sendLen ∧ q.sendLen ≤ 3840 := by
  by_cases g : q.sendLen = 32 + q.plen + 16 * b2n q.crit ∧ q.plen ≤ (if q.crit then 3792 else 3808)
  · obtain ⟨g1, g2⟩ := g
    cases hc : q.crit <;> simp [hc, b2n] at g1 g2 <;> omega
  · exfalso
    have g' : (decide (q.sendLen ≠ 32 + q.plen + 16 * b2n q.crit) || decide ((if q.crit then 3792 else 3808) < q.plen)) = true := by
      simp only [Bool.or_eq_true, decide_eq_true_eq]
      rcases Decidable.not_and_iff_or_not.mp g with n | n
      · exact Or.inl n
      · exact Or.inr (Nat.lt_of_not_le n)
    revert h
    simp only [formStatus, g', if_true]
    split
    · decide
    · split
      · decide
      · split <;> decide

@[simp] theorem setSender_sender (d : Dev) (ch : Nat) (x : Sender) : (d.setSender ch x).sender ch = x := by
  simp [Dev.sender, Dev.setSender]

theorem mget_mmod {α : Type} (m : List (Nat × α)) (k : Nat) (f : α → α) : mget (mmod m k f) k = (mget m k).map f := by
  unfold mget mmod
  induction m with
  | nil => rfl
  | cons e m ih =>
    obtain ⟨a, v⟩ := e
    by_cases h : a = k
    · subst h; simp
    · have h' : (k == a) = false := by simpa using fun x => h x.symm
      simpa [List.lookup, h, h'] using ih
theorem mput_mput {α : Type} (m : List (Nat × α)) (k : Nat) (v w : α) : mput (mput m k v) k w = mput m k w := by
  induction m with
  | nil => simp [mput]
  | cons e m ih =>
    obtain ⟨j, u⟩ := e
    by_cases h1 : k < j
    · simp [mput, h1]
    · by_cases h2 : k = j
      · simp [mput, h2]
      · simp [mput, h1, h2, ih]

theorem setSender_setSender (d : Dev) (ch : Nat) (x y : Sender) : (d.setSender ch x).setSender ch y = d.setSender ch y := by
  simp only [Dev.setSender, mput_mput]

/-- A channel without a key is refused with a status that is not ST_OK. -/
theorem trailerKey_error (d : Dev) (ch st : Nat) (h : d.trailerKey ch = .error st) : st ≠ stOk := by
  intro hs
  rw [hs] at h
  simp only [Dev.trailerKey] at h
  split at h
  · cases h
  · cases h
  · split at h
    · split at h <;> cases h
    · split at h <;> cases h

/-- A packet that verifies changes its channel's sender in what the ceilings remember, and nothing else. -/
theorem verify_ok (d : Dev) (c : Cmd) (h : (d.verify c).1 = stOk) :
    ∃ x : Sender, (d.verify c).2.2.2 = d.setSender c.p.chan x ∧ x.consumed = (d.sender c.p.chan).consumed := by
  unfold Dev.verify at h ⊢
  dsimp only at h ⊢
  split
  · next g => rw [if_pos g] at h; cases h
  · next g =>
    rw [if_neg g] at h
    split
    · next g2 => rw [if_pos g2] at h; cases h
    · next g2 =>
      rw [if_neg g2] at h
      split
      · next st e =>
        rw [e] at h
        exact absurd h (trailerKey_error _ _ _ e)
      · next k e =>
        rw [e] at h
        dsimp only at h
        split
        · next g3 => rw [if_pos g3] at h; cases h
        · simp only [Dev.updSender, setSender_sender, setSender_setSender]
          exact ⟨_, rfl, rfl⟩

/-- The interpreter's path for a whole packet that passes its checks (R396, R389). -/
theorem process_passed (sp : CmdSpec) (q : Packet) (d : Dev) (c : Cmd) (hcd : c = { p := q, params := q.body, snd := (d.count .cmdTaken q.chan).sender q.chan })
    (hf : (formStatus q (some sp)).1 = stOk) (ha : ((d.count .cmdTaken q.chan).mbox q.chan).asm = none) (hm : q.more = false)
    (hlen : (if q.bulkFlag then decide (16 ≤ q.plen) else sp.lenOk q q.body) = true)
    (hv : q.crit = true → ((d.count .cmdTaken q.chan).verify c).1 = stOk ∧ ((d.count .cmdTaken q.chan).sender q.chan).consumed < q.counter.toNat) :
    Dev.process (some sp) q d = (if q.crit then
      Dev.execute sp { c with trailed := true, key := ((d.count .cmdTaken q.chan).verify c).2.2.1 }
        (((d.count .cmdTaken q.chan).verify c).2.2.2.persist q.chan q.counter.toNat)
      else Dev.execute sp c (d.count .cmdTaken q.chan)) := by
  obtain ⟨o, e1⟩ : ∃ o, formStatus q (some sp) = (stOk, o) := ⟨_, Prod.ext hf rfl⟩
  simp only [Dev.process, e1, ha, Option.isSome_none, Option.any_none, Bool.false_and, if_false, Bool.not_true, ne_eq,
    not_true_eq_false, Bool.false_eq_true, Option.isNone_none, hm, Bool.not_false, Bool.true_and, hlen]
  rw [← hcd]
  cases hc : q.crit with
  | false =>
    simp only [Bool.false_eq_true, if_false]
    subst hcd
    simp only [Dev.accept, hc, hm, Bool.false_and, Option.map_none, Option.getD_none, List.nil_append, Option.isSome_none,
      Bool.false_eq_true, if_false]
  | true =>
    obtain ⟨v1, v2⟩ := hv hc
    obtain ⟨x, vx, vc⟩ := verify_ok _ c v1
    have hp : c.p = q := by rw [hcd]
    have hq : c.params = q.body := by rw [hcd]
    simp only [Dev.authenticate, if_true, v1]
    have fl : ¬ (q.counter.toNat ≤ max ((((d.count .cmdTaken q.chan).verify c).2.2.2.sender q.chan).consumed) 0) := by
      rw [vx, hp, setSender_sender, vc, hp]; omega
    simp only [Dev.accept, hp, hc, hm, Option.map_none, Option.getD_none, fl, decide_false, Bool.and_false, Bool.false_eq_true, if_false,
      List.nil_append, Option.isSome_none, Bool.false_and, if_true]

/-- What a row does with its packet, once the packet carries the row's opcode. -/
def runRow (sp : CmdSpec) (q : Packet) (d : Dev) : Dev :=
  let d := if (d.mbox q.chan).send = some q then d else d.place q
  if (d.mbox q.chan).send = some q && d.canTake q.chan then (d.clearSend q.chan).process (some sp) q else d

/-- A packet that enters is executed. -/
theorem runRow_enters (sp : CmdSpec) (bulk : Bool) (q : Packet) (d : Dev) (h : Dev.entersAs sp bulk q d = true) :
    runRow sp q d = Dev.execute sp (Dev.entryOf q d).1 (Dev.entryOf q d).2 := by
  simp only [Dev.entersAs, Bool.and_eq_true, Bool.or_eq_true, Bool.not_eq_true', decide_eq_true_eq, Option.isNone_iff_eq_none] at h
  obtain ⟨⟨⟨⟨⟨⟨⟨⟨⟨⟨⟨hr, h1⟩, h2⟩, hl⟩, hs⟩, ha⟩, hu⟩, hf⟩, hm⟩, hb⟩, hlen⟩, hv⟩ := h
  obtain ⟨n1, n2⟩ := formStatus_len _ sp hf
  have hp := place_free d q hr h1 h2 hl hs n1 n2
  have tk : Dev.canTake (d.place q) q.chan = true := by
    rw [hp]
    simp only [Dev.canTake, Dev.undelivered, setMbox_mbox, Option.isSome_some, Bool.and_true, Bool.and_eq_true, decide_eq_true_eq]
    exact ⟨hr, hu⟩
  have sd : ((d.place q).mbox q.chan).send = some q := by rw [hp]; simp
  have am : (((((d.place q).clearSend q.chan).count .cmdTaken q.chan).mbox q.chan)).asm = none := by
    rw [count_mbox, clearSend_asm, hp, setMbox_mbox]; exact ha
  have hs' : ¬ (d.mbox q.chan).send = some q := by rw [hs]; simp
  have hlen' : (if q.bulkFlag then decide (16 ≤ q.plen) else sp.lenOk q q.body) = true := by
    rw [hb]; cases bulk <;> simpa using hlen
  simp only [runRow, hs', if_false, sd, tk, decide_true, Bool.and_self, if_true]
  rw [process_passed sp q _ _ rfl hf am hm hlen' (by
    intro hc
    rcases hv with hv | hv
    · rw [hc] at hv; exact absurd hv (by decide)
    · exact hv)]
  cases hc : q.crit <;> simp only [Dev.entryOf, hc, Bool.false_eq_true, if_false, if_true] <;> rfl

theorem runRow_passed (sp : CmdSpec) (bulk : Bool) (q : Packet) (d : Dev) (h : Dev.passesAs sp bulk q d = true) :
    runRow sp q d = Dev.execute sp (Dev.entryOf q d).1 (Dev.entryOf q d).2 := by
  unfold Dev.passesAs at h
  rw [Bool.and_eq_true] at h
  exact runRow_enters sp bulk q d h.1

/-- A packet that passes is permitted, and says whether it carries bulk data. -/
theorem passesAs_parts (sp : CmdSpec) (bulk : Bool) (q : Packet) (d : Dev) (h : Dev.passesAs sp bulk q d = true) :
    (Dev.entryOf q d).2.unpermitted sp (Dev.entryOf q d).1 = none ∧ (Dev.entryOf q d).1.p.bulkFlag = bulk := by
  simp only [Dev.passesAs, Dev.entersAs, Bool.and_eq_true, decide_eq_true_eq, Option.isNone_iff_eq_none] at h
  refine ⟨h.2, ?_⟩
  have e : (Dev.entryOf q d).1.p = q := by unfold Dev.entryOf; split <;> rfl
  rw [e]; exact h.1.1.1.2

/-- A packet that verifies leaves every mailbox as it was. -/
theorem verify_mbox (d : Dev) (c : Cmd) (h : (d.verify c).1 = stOk) (ch : Nat) : ((d.verify c).2.2.2).mbox ch = d.mbox ch := by
  obtain ⟨x, vx, _⟩ := verify_ok d c h
  rw [vx]; rfl

/-- A fragment that is accepted joins the assembly, or completes it. -/
theorem runRow_fragment (sp : CmdSpec) (q : Packet) (d : Dev) (h : Dev.passesFragment sp q d = true) :
    runRow sp q d = (if q.more then (Dev.fragmentDev q d).updMbox q.chan (fun m => { m with asm := some (Dev.fragmentJoined q d) })
      else Dev.execute sp (Dev.wholeCmd q d) (Dev.wholeDev q d)) := by
  simp only [Dev.passesFragment, Bool.and_eq_true, Bool.or_eq_true, Bool.not_eq_true', decide_eq_true_eq, Option.isNone_iff_eq_none] at h
  obtain ⟨⟨⟨⟨⟨⟨⟨⟨⟨hr, h1⟩, h2⟩, hl⟩, hs⟩, hu⟩, hf⟩, hall⟩, hlen⟩, hv⟩ := h
  obtain ⟨n1, n2⟩ := formStatus_len _ sp hf
  have hp := place_free d q hr h1 h2 hl hs n1 n2
  have tk : Dev.canTake (d.place q) q.chan = true := by
    rw [hp]
    simp only [Dev.canTake, Dev.undelivered, setMbox_mbox, Option.isSome_some, Bool.and_true, Bool.and_eq_true, decide_eq_true_eq]
    exact ⟨hr, hu⟩
  have sd : ((d.place q).mbox q.chan).send = some q := by rw [hp]; simp
  have am : ((Dev.takenBy q d).mbox q.chan).asm = (d.mbox q.chan).asm := by
    unfold Dev.takenBy
    rw [count_mbox, clearSend_asm, hp, setMbox_mbox]
  have hs' : ¬ (d.mbox q.chan).send = some q := by rw [hs]; simp
  simp only [runRow, hs', if_false, sd, tk, decide_true, Bool.and_self, if_true]
  obtain ⟨o, e1⟩ : ∃ o, formStatus q (some sp) = (stOk, o) := ⟨_, Prod.ext hf rfl⟩
  have same : (d.mbox q.chan).asm.isSome = true → (d.mbox q.chan).asm.any (fun a => a.sameAs q) = true := by
    cases ha : (d.mbox q.chan).asm with
    | none => intro h; cases h
    | some a => intro _; rw [ha] at hall; simp at hall; simp [hall.1]
  have few : (d.mbox q.chan).asm.any (fun a => decide (16 ≤ a.count)) = false := by
    cases ha : (d.mbox q.chan).asm with
    | none => rfl
    | some a => rw [ha] at hall; simp at hall; simp; omega
  have drop : ((d.mbox q.chan).asm.isSome && !((d.mbox q.chan).asm.any (fun a => a.sameAs q))) = false := by
    cases ha : (d.mbox q.chan).asm.isSome with
    | false => rfl
    | true => simp [same ha]
  have lens : ((d.mbox q.chan).asm.isNone && !q.more && !(if q.bulkFlag then decide (16 ≤ q.plen) else sp.lenOk q q.body)) = false := by
    cases ha : (d.mbox q.chan).asm with
    | none => rw [ha] at hlen; rcases hlen with hlen | hlen
              · simp [hlen]
              · exact absurd hlen.1 (by decide)
    | some a => simp
  change Dev.process (some sp) q (((d.place q).clearSend q.chan)) = _
  unfold Dev.process
  dsimp only
  rw [show (((d.place q).clearSend q.chan).count .cmdTaken q.chan) = Dev.takenBy q d from rfl, e1]
  simp only [am, ne_eq, not_true_eq_false, if_false, drop, Bool.false_eq_true, few, lens]
  have base : ∀ (tr : Bool) (k : List Byte) (e : Dev), (e.mbox q.chan) = (Dev.takenBy q d).mbox q.chan → (q.crit = true → max (e.sender q.chan).consumed (Dev.lastCounter q d) < q.counter.toNat) →
      Dev.accept sp { Dev.takenCmd q d with trailed := tr, key := k } (d.mbox q.chan).asm e = (if q.more then
        e.updMbox q.chan (fun m => { m with asm := some { ((d.mbox q.chan).asm.getD { op := q.op, tag := q.tag.toNat, target := q.target.toNat, crit := q.crit }) with
    params := Dev.joinedSoFar q d ++ q.body, count := ((d.mbox q.chan).asm.map (fun a => a.count)).getD 0 + 1
    lastCtr := if q.crit then q.counter.toNat else 0, flags := q.flags, key := k, atT := e.now } })
       else Dev.execute sp { Dev.takenCmd q d with params := Dev.joinedSoFar q d ++ q.body, trailed := tr, key := k }
         (if q.crit then (e.updMbox q.chan (fun m => { m with asm := none })).persist q.chan q.counter.toNat else e.updMbox q.chan (fun m => { m with asm := none }))) := by
    intro tr k e hm hc
    have fl : (q.crit && decide (q.counter.toNat ≤ max (e.sender q.chan).consumed (((d.mbox q.chan).asm.map (fun a => a.lastCtr)).getD 0))) = false := by
      cases g : q.crit with
      | false => rfl
      | true => simp only [Bool.true_and, decide_eq_false_iff_not]; have := hc g; unfold Dev.lastCounter at this; omega
    unfold Dev.accept
    dsimp only [Dev.takenCmd]
    simp only [fl, Bool.false_eq_true, if_false]
    by_cases g : q.more = true
    · refine (if_pos g).trans (Eq.trans ?_ (if_pos g).symm)
      cases ha : (d.mbox q.chan).asm with
      | none => simp only [Dev.joinedSoFar, ha, Option.getD_none, Option.map_none, List.nil_append, Nat.zero_add]; rfl
      | some a => simp only [Dev.joinedSoFar, ha, Option.getD_some, Option.map_some]; rfl
    · refine (if_neg g).trans (Eq.trans ?_ (if_neg g).symm)
      simp only [g, false_or, Bool.false_eq_true] at hlen
      simp only [hlen.1, if_true, Bool.true_and, show ((d.mbox q.chan).asm.map (fun a => a.params)).getD [] = Dev.joinedSoFar q d from rfl, hlen.2, Bool.not_true, Bool.false_eq_true, if_false]
  cases hc : q.crit with
  | false =>
    simp only [Bool.false_eq_true, if_false]
    have b := base (Dev.takenCmd q d).trailed (Dev.takenCmd q d).key (Dev.takenBy q d) rfl (by rw [hc]; intro h; cases h)
    simp only [hc, Bool.false_eq_true, if_false] at b
    refine Eq.trans b ?_
    simp only [Dev.fragmentDev, Dev.fragmentJoined, Dev.wholeCmd, Dev.wholeDev, hc, Bool.false_eq_true, if_false, Dev.takenCmd]
  | true =>
    rw [hc] at hv
    rcases hv with hv | ⟨v1, v2⟩
    · cases hv
    simp only [if_true]
    obtain ⟨x, vx, vc⟩ := verify_ok _ _ v1
    have b := base true ((Dev.takenBy q d).verify (Dev.takenCmd q d)).2.2.1 ((Dev.takenBy q d).verify (Dev.takenCmd q d)).2.2.2 (verify_mbox _ _ v1 _) (by
      intro _; rw [vx]; rw [show (Dev.takenCmd q d).p.chan = q.chan from rfl, setSender_sender, vc]; exact v2)
    unfold Dev.authenticate
    rw [show ({ p := q, params := q.body, snd := (Dev.takenBy q d).sender q.chan } : Cmd) = Dev.takenCmd q d from rfl]
    rcases hx : (Dev.takenBy q d).verify (Dev.takenCmd q d) with ⟨st, ofs, k, e⟩
    rw [hx] at v1 b
    simp only at v1 b
    simp only [v1, if_true]
    refine Eq.trans b ?_
    simp only [Dev.fragmentDev, Dev.fragmentJoined, Dev.wholeCmd, Dev.wholeDev, hc, if_true, hx]

/-- A row whose packet names its own opcode does what that opcode's row does. -/
theorem runPacket_row (d : Dev) (f : Packet → Option CmdSpec) (sp : CmdSpec) (p : Packet) (h : f p = some sp) : Dev.runPacket d f p = runRow sp p d := by
  unfold Dev.runPacket runRow
  dsimp only
  by_cases g : ((if (d.mbox p.chan).send = some p then d else d.place p).mbox p.chan).send = some p
  · rw [if_pos g]
    unfold Dev.takeFrom
    rw [g]
    simp only [h, decide_true, Bool.true_and]
  · rw [if_neg g]
    simp only [g, decide_false, Bool.false_and, Bool.false_eq_true, if_false]

theorem runCommand_row (sp : CmdSpec) (p : Packet) (d : Dev) : Dev.runCommand sp p d = runRow sp (rowPacket sp p) d := rfl

/-- A packet that passes every check runs its row's body in `Dev.devIn`. -/
theorem runCommand_passed (sp : CmdSpec) (p : Packet) (d : Dev) (h : Dev.passes sp p d = true) :
    Dev.runCommand sp p d = Dev.runBody sp (Dev.cmdIn sp p d) (Dev.devIn sp p d) := by
  obtain ⟨h1, h2⟩ := passesAs_parts sp false _ d h
  rw [runCommand_row, runRow_passed sp false (rowPacket sp p) d h]
  simp only [Dev.execute, h1, h2, Bool.false_eq_true, if_false, Dev.cmdIn, Dev.devIn]

/-- One with bulk data starts its transfer, where the row takes such data, none is under way and its descriptors are right. -/
theorem runCommand_bulk (sp : CmdSpec) (p : Packet) (d : Dev) (h : Dev.passesBulk sp p d = true) (hb : sp.bulk = true)
    (h0 : (Dev.devIn sp p d).host.bulk = none) (hd : (bulkDescs (Dev.cmdIn sp p d).p.bulk (Dev.cmdIn sp p d).params).isSome = true) :
    Dev.runCommand sp p d = (Dev.devIn sp p d).withBulk (Dev.cmdIn sp p d) := by
  obtain ⟨h1, h2⟩ := passesAs_parts sp true _ d h
  obtain ⟨v, hv⟩ := Option.isSome_iff_exists.mp hd
  rw [runCommand_row, runRow_passed sp true (rowPacket sp p) d h]
  unfold Dev.cmdIn Dev.devIn at *
  simp only [Dev.execute, h1, h2, hb, h0, hv, Option.isSome_none, Bool.not_true, Bool.false_eq_true, if_false, if_true, Dev.withBulk]

end Sys2Proof.Machine
end

