-- ==== Sys2Proof/Laws/Frame.lean ====
section
/-!
SUPPORT. What the shared operations can change, said once: counting, interrupts and messages change counters, outputs, the host attachment
and message sequences (Talks); recording a fault changes the fault collector and, through quench, the groups as well (Raises).
-/

namespace Sys2Proof.Machine

theorem Talks.refl (d : Dev) : Talks d d := rfl
theorem Raises.refl (d : Dev) : Raises d d := rfl
theorem Talks.trans {d e f : Dev} (h : Talks d e) (g : Talks e f) : Talks d f := by
  unfold Talks at *; rw [g]; rw [h]
theorem Raises.trans {d e f : Dev} (h : Raises d e) (g : Raises e f) : Raises d f := by
  unfold Raises at *; rw [g]; rw [h]
theorem Talks.raises {d e : Dev} (h : Talks d e) : Raises d e := by
  unfold Talks Raises at *; rw [h]

theorem Talks.foldl {α : Type} (f : Dev → α → Dev) (h : ∀ d x, Talks d (f d x)) (l : List α) (d : Dev) : Talks d (l.foldl f d) := by
  induction l generalizing d with
  | nil => exact Talks.refl d
  | cons a l ih => exact (h d a).trans (ih (f d a))
theorem Raises.foldl {α : Type} (f : Dev → α → Dev) (h : ∀ d x, Raises d (f d x)) (l : List α) (d : Dev) : Raises d (l.foldl f d) := by
  induction l generalizing d with
  | nil => exact Raises.refl d
  | cons a l ih => exact (h d a).trans (ih (f d a))

theorem Raises.variant {d e : Dev} (h : Raises d e) : e.variant = d.variant := by unfold Raises at h; rw [h]
theorem Raises.time {d e : Dev} (h : Raises d e) : e.time = d.time := by unfold Raises at h; rw [h]
theorem Raises.pwr {d e : Dev} (h : Raises d e) : e.pwr = { d.pwr with pstate := e.pwr.pstate } := by unfold Raises at h; rw [h]
theorem Raises.rst {d e : Dev} (h : Raises d e) : e.rst = d.rst := by unfold Raises at h; rw [h]
theorem Raises.tiles {d e : Dev} (h : Raises d e) : e.tiles = d.tiles := by unfold Raises at h; rw [h]
theorem Raises.lanes {d e : Dev} (h : Raises d e) : e.lanes = d.lanes := by unfold Raises at h; rw [h]
theorem Raises.subs {d e : Dev} (h : Raises d e) : e.subs = d.subs := by unfold Raises at h; rw [h]
theorem Raises.trees {d e : Dev} (h : Raises d e) : e.trees = d.trees := by unfold Raises at h; rw [h]
theorem Raises.chans {d e : Dev} (h : Raises d e) : e.chans = d.chans := by unfold Raises at h; rw [h]
theorem Raises.terms {d e : Dev} (h : Raises d e) : e.terms = d.terms := by unfold Raises at h; rw [h]
theorem Raises.circuits {d e : Dev} (h : Raises d e) : e.circuits = d.circuits := by unfold Raises at h; rw [h]
theorem Raises.allocs {d e : Dev} (h : Raises d e) : e.allocs = d.allocs := by unfold Raises at h; rw [h]
theorem Raises.domW {d e : Dev} (h : Raises d e) : e.domW = d.domW := by unfold Raises at h; rw [h]
theorem Raises.domPrio {d e : Dev} (h : Raises d e) : e.domPrio = d.domPrio := by unfold Raises at h; rw [h]
theorem Raises.tdomW {d e : Dev} (h : Raises d e) : e.tdomW = d.tdomW := by unfold Raises at h; rw [h]
theorem Raises.domNext {d e : Dev} (h : Raises d e) : e.domNext = d.domNext := by unfold Raises at h; rw [h]
theorem Raises.fm {d e : Dev} (h : Raises d e) : e.fm = d.fm := by unfold Raises at h; rw [h]
theorem Raises.tables {d e : Dev} (h : Raises d e) : e.tables = d.tables := by unfold Raises at h; rw [h]
theorem Raises.profiles {d e : Dev} (h : Raises d e) : e.profiles = d.profiles := by unfold Raises at h; rw [h]
theorem Raises.lookups {d e : Dev} (h : Raises d e) : e.lookups = d.lookups := by unfold Raises at h; rw [h]
theorem Raises.spreads {d e : Dev} (h : Raises d e) : e.spreads = d.spreads := by unfold Raises at h; rw [h]
theorem Raises.mirrors {d e : Dev} (h : Raises d e) : e.mirrors = d.mirrors := by unfold Raises at h; rw [h]
theorem Raises.binds {d e : Dev} (h : Raises d e) : e.binds = d.binds := by unfold Raises at h; rw [h]
theorem Raises.cls {d e : Dev} (h : Raises d e) : e.cls = d.cls := by unfold Raises at h; rw [h]
theorem Raises.cursors {d e : Dev} (h : Raises d e) : e.cursors = d.cursors := by unfold Raises at h; rw [h]
theorem Raises.tac {d e : Dev} (h : Raises d e) : e.tac = d.tac := by unfold Raises at h; rw [h]
theorem Raises.tacDone {d e : Dev} (h : Raises d e) : e.tacDone = d.tacDone := by unfold Raises at h; rw [h]
theorem Raises.queues {d e : Dev} (h : Raises d e) : e.queues = d.queues := by unfold Raises at h; rw [h]
theorem Raises.nodes {d e : Dev} (h : Raises d e) : e.nodes = d.nodes := by unfold Raises at h; rw [h]
theorem Raises.shapers {d e : Dev} (h : Raises d e) : e.shapers = d.shapers := by unfold Raises at h; rw [h]
theorem Raises.shaperNext {d e : Dev} (h : Raises d e) : e.shaperNext = d.shaperNext := by unfold Raises at h; rw [h]
theorem Raises.meters {d e : Dev} (h : Raises d e) : e.meters = d.meters := by unfold Raises at h; rw [h]
theorem Raises.meterNext {d e : Dev} (h : Raises d e) : e.meterNext = d.meterNext := by unfold Raises at h; rw [h]
theorem Raises.gates {d e : Dev} (h : Raises d e) : e.gates = d.gates := by unfold Raises at h; rw [h]
theorem Raises.gateNext {d e : Dev} (h : Raises d e) : e.gateNext = d.gateNext := by unfold Raises at h; rw [h]
theorem Raises.pools {d e : Dev} (h : Raises d e) : e.pools = d.pools := by unfold Raises at h; rw [h]
theorem Raises.msec {d e : Dev} (h : Raises d e) : e.msec = d.msec := by unfold Raises at h; rw [h]
theorem Raises.pon {d e : Dev} (h : Raises d e) : e.pon = d.pon := by unfold Raises at h; rw [h]
theorem Raises.cru {d e : Dev} (h : Raises d e) : e.cru = d.cru := by unfold Raises at h; rw [h]
theorem Raises.chk {d e : Dev} (h : Raises d e) : e.chk = d.chk := by unfold Raises at h; rw [h]
theorem Raises.chkNo {d e : Dev} (h : Raises d e) : e.chkNo = d.chkNo := by unfold Raises at h; rw [h]
theorem Raises.senders {d e : Dev} (h : Raises d e) : e.senders = d.senders := by unfold Raises at h; rw [h]
theorem Raises.leaseSeen {d e : Dev} (h : Raises d e) : e.leaseSeen = d.leaseSeen := by unfold Raises at h; rw [h]
theorem Raises.asy {d e : Dev} (h : Raises d e) : e.asy = d.asy := by unfold Raises at h; rw [h]
theorem Raises.regs {d e : Dev} (h : Raises d e) : e.regs = d.regs := by unfold Raises at h; rw [h]
theorem Raises.lastRead {d e : Dev} (h : Raises d e) : e.lastRead = d.lastRead := by unfold Raises at h; rw [h]
theorem Raises.freeCtr {d e : Dev} (h : Raises d e) : e.freeCtr = d.freeCtr := by unfold Raises at h; rw [h]
theorem Talks.variant {d e : Dev} (h : Talks d e) : e.variant = d.variant := h.raises.variant
theorem Talks.time {d e : Dev} (h : Talks d e) : e.time = d.time := h.raises.time
theorem Talks.pwr {d e : Dev} (h : Talks d e) : e.pwr = d.pwr := by unfold Talks at h; rw [h]
theorem Talks.rst {d e : Dev} (h : Talks d e) : e.rst = d.rst := h.raises.rst
theorem Talks.tiles {d e : Dev} (h : Talks d e) : e.tiles = d.tiles := h.raises.tiles
theorem Talks.lanes {d e : Dev} (h : Talks d e) : e.lanes = d.lanes := h.raises.lanes
theorem Talks.subs {d e : Dev} (h : Talks d e) : e.subs = d.subs := h.raises.subs
theorem Talks.trees {d e : Dev} (h : Talks d e) : e.trees = d.trees := h.raises.trees
theorem Talks.chans {d e : Dev} (h : Talks d e) : e.chans = d.chans := h.raises.chans
theorem Talks.terms {d e : Dev} (h : Talks d e) : e.terms = d.terms := h.raises.terms
theorem Talks.circuits {d e : Dev} (h : Talks d e) : e.circuits = d.circuits := h.raises.circuits
theorem Talks.allocs {d e : Dev} (h : Talks d e) : e.allocs = d.allocs := h.raises.allocs
theorem Talks.domW {d e : Dev} (h : Talks d e) : e.domW = d.domW := h.raises.domW
theorem Talks.domPrio {d e : Dev} (h : Talks d e) : e.domPrio = d.domPrio := h.raises.domPrio
theorem Talks.tdomW {d e : Dev} (h : Talks d e) : e.tdomW = d.tdomW := h.raises.tdomW
theorem Talks.domNext {d e : Dev} (h : Talks d e) : e.domNext = d.domNext := h.raises.domNext
theorem Talks.fm {d e : Dev} (h : Talks d e) : e.fm = d.fm := h.raises.fm
theorem Talks.tables {d e : Dev} (h : Talks d e) : e.tables = d.tables := h.raises.tables
theorem Talks.profiles {d e : Dev} (h : Talks d e) : e.profiles = d.profiles := h.raises.profiles
theorem Talks.lookups {d e : Dev} (h : Talks d e) : e.lookups = d.lookups := h.raises.lookups
theorem Talks.spreads {d e : Dev} (h : Talks d e) : e.spreads = d.spreads := h.raises.spreads
theorem Talks.mirrors {d e : Dev} (h : Talks d e) : e.mirrors = d.mirrors := h.raises.mirrors
theorem Talks.binds {d e : Dev} (h : Talks d e) : e.binds = d.binds := h.raises.binds
theorem Talks.cls {d e : Dev} (h : Talks d e) : e.cls = d.cls := h.raises.cls
theorem Talks.cursors {d e : Dev} (h : Talks d e) : e.cursors = d.cursors := h.raises.cursors
theorem Talks.tac {d e : Dev} (h : Talks d e) : e.tac = d.tac := h.raises.tac
theorem Talks.tacDone {d e : Dev} (h : Talks d e) : e.tacDone = d.tacDone := h.raises.tacDone
theorem Talks.queues {d e : Dev} (h : Talks d e) : e.queues = d.queues := h.raises.queues
theorem Talks.nodes {d e : Dev} (h : Talks d e) : e.nodes = d.nodes := h.raises.nodes
theorem Talks.shapers {d e : Dev} (h : Talks d e) : e.shapers = d.shapers := h.raises.shapers
theorem Talks.shaperNext {d e : Dev} (h : Talks d e) : e.shaperNext = d.shaperNext := h.raises.shaperNext
theorem Talks.meters {d e : Dev} (h : Talks d e) : e.meters = d.meters := h.raises.meters
theorem Talks.meterNext {d e : Dev} (h : Talks d e) : e.meterNext = d.meterNext := h.raises.meterNext
theorem Talks.gates {d e : Dev} (h : Talks d e) : e.gates = d.gates := h.raises.gates
theorem Talks.gateNext {d e : Dev} (h : Talks d e) : e.gateNext = d.gateNext := h.raises.gateNext
theorem Talks.pools {d e : Dev} (h : Talks d e) : e.pools = d.pools := h.raises.pools
theorem Talks.msec {d e : Dev} (h : Talks d e) : e.msec = d.msec := h.raises.msec
theorem Talks.pon {d e : Dev} (h : Talks d e) : e.pon = d.pon := h.raises.pon
theorem Talks.cru {d e : Dev} (h : Talks d e) : e.cru = d.cru := h.raises.cru
theorem Talks.chk {d e : Dev} (h : Talks d e) : e.chk = d.chk := h.raises.chk
theorem Talks.chkNo {d e : Dev} (h : Talks d e) : e.chkNo = d.chkNo := h.raises.chkNo
theorem Talks.senders {d e : Dev} (h : Talks d e) : e.senders = d.senders := h.raises.senders
theorem Talks.leaseSeen {d e : Dev} (h : Talks d e) : e.leaseSeen = d.leaseSeen := h.raises.leaseSeen
theorem Talks.asy {d e : Dev} (h : Talks d e) : e.asy = d.asy := h.raises.asy
theorem Talks.regs {d e : Dev} (h : Talks d e) : e.regs = d.regs := h.raises.regs
theorem Talks.lastRead {d e : Dev} (h : Talks d e) : e.lastRead = d.lastRead := h.raises.lastRead
theorem Talks.freeCtr {d e : Dev} (h : Talks d e) : e.freeCtr = d.freeCtr := h.raises.freeCtr
theorem Talks.flt {d e : Dev} (h : Talks d e) : e.flt = d.flt := by unfold Talks at h; rw [h]
theorem Talks.groups {d e : Dev} (h : Talks d e) : e.groups = d.groups := by unfold Talks at h; rw [h]

/-! ## Counters, vectors and messages -/

theorem emit_talks (d : Dev) (x : Output) : Talks d (d.emit x) := rfl
theorem vector_talks (d : Dev) (n : Nat) : Talks d (d.vector n) := by
  simp only [Dev.vector]; split <;> rfl
theorem count_talks (d : Dev) (c : Cnt) (obj n : Nat) : Talks d (d.count c obj n) := by
  obtain ⟨o, x, v, h⟩ := count_same d c obj n
  rw [h]; rfl
theorem countCT_talks (d : Dev) (c : Cnt) (ch tid n : Nat) : Talks d (d.countCT c ch tid n) := (count_talks _ _ _ _).trans (count_talks _ _ _ _)
theorem irq_talks (d : Dev) (b : Nat) : Talks d (d.irq b) := by
  simp only [Dev.irq]
  split
  · exact Talks.refl d
  · exact Talks.trans (e := { d with host := _ }) rfl (vector_talks _ _)
theorem setMbox_talks (d : Dev) (ch : Nat) (m : MboxChan) : Talks d (d.setMbox ch m) := rfl
theorem deliver_talks (d : Dev) (ch : Nat) : Talks d (d.deliver ch) := by
  simp only [Dev.deliver]
  split
  · split
    · split
      · exact (setMbox_talks _ _ _).trans (vector_talks _ _)
      · rfl
    · rfl
  · rfl
theorem sendTo_talks (d : Dev) (ch : Nat) (b : List Byte) : Talks d (d.sendTo ch b) := by
  simp only [Dev.sendTo]
  generalize (d.mbox ch).queue.length + (if (d.mbox ch).recv.isSome then 1 else 0) = held
  split
  · rfl
  · split
    · rfl
    · exact (setMbox_talks _ _ _).trans (deliver_talks _ _)
theorem notify_talks (d : Dev) (op tgt : Nat) (b : List Byte) : Talks d (d.notify op tgt b) :=
  Talks.trans (e := { d with host := _ }) rfl (sendTo_talks _ _ _)
theorem sysBytesTo_talks (d : Dev) (ps : List Nat) (typ dst seq : Nat) (b : List Byte) : Talks d (d.sysBytesTo ps typ dst seq b) :=
  Talks.foldl _ (fun d _ => (emit_talks d _).trans (count_talks _ _ _ _)) _ d
theorem sysPut_talks (d : Dev) (ps : List Nat) (typ dst seq : Nat) (v : List Int) : Talks d (d.sysPut ps typ dst seq v) :=
  Talks.foldl _ (fun d _ => (emit_talks d _).trans (count_talks _ _ _ _)) _ d
theorem sysSend_talks (d : Dev) (ps : List Nat) (typ dst : Nat) (u w : Bool) (v : List Int) : Talks d (d.sysSend ps typ dst u w v) :=
  Talks.trans (e := { d with join := { d.join with seqs := _ } }) rfl (sysPut_talks _ _ _ _ _ _)
theorem toSender_talks (d : Dev) (ch : Nat) (b : List Byte) : Talks d (d.toSender ch b) := by
  simp only [Dev.toSender]
  split
  · rfl
  · split
    · exact Talks.trans (e := { d with join := { d.join with seqs := _ } }) rfl (sysBytesTo_talks _ _ _ _ _ _)
    · exact sendTo_talks _ _ _
theorem noteStatus_talks (d : Dev) (ch st : Nat) : Talks d (d.noteStatus ch st) := by
  simp only [Dev.noteStatus]
  repeat' split
  all_goals first | exact count_talks _ _ _ _ | rfl
theorem answer_talks (d : Dev) (c : Cmd) (st ofs n : Nat) (b : List Byte) : Talks d (d.answer c st ofs n b) := by
  simp only [Dev.answer]
  split
  · exact (noteStatus_talks _ _ _).trans (toSender_talks _ _ _)
  · exact noteStatus_talks _ _ _
theorem completeJob_talks (d : Dev) (j : Job) (st : Nat) (b : List Byte) (n : Nat) : Talks d (d.completeJob j st b n) := by
  simp only [Dev.completeJob]
  split
  · rfl
  · exact toSender_talks _ _ _
theorem complete_talks (d : Dev) (k : JobKind) (obj st : Nat) (b : List Byte) : Talks d (d.complete k obj st b) :=
  Talks.trans (e := { d with host := _ }) rfl (Talks.foldl _ (fun d j => completeJob_talks d j st b 0) _ _)
theorem clearSend_talks (d : Dev) (ch : Nat) : Talks d (d.clearSend ch) := by
  obtain ⟨o, h, e, _⟩ := clearSend_same d ch
  rw [e]; rfl
theorem place_talks (d : Dev) (p : Packet) : Talks d (d.place p) := by
  simp only [Dev.place]
  repeat' split
  all_goals first | exact count_talks _ _ _ _ | rfl

/-! ## Faults and quench -/

theorem leaseSend_talks (d : Dev) (t k : Nat) (r : Bool) : Talks d (d.leaseSend t k r) := by
  simp only [Dev.leaseSend]
  repeat' split
  all_goals rfl
theorem updGroup_raises (d : Dev) (t : Nat) (f : Group → Group) : Raises d (d.updGroup t f) := rfl
theorem setFlt_raises (d : Dev) (f : FaultState) : Raises d (d.setFlt f) := rfl
theorem releaseAll_raises (d : Dev) : Raises d d.releaseAll :=
  Raises.foldl _ (fun d (x : Nat × Group) => ((leaseSend_talks d x.1 1 false).raises).trans (updGroup_raises _ _ _)) _ d
theorem localFaults_talks (d : Dev) : Talks d d.localFaults := Talks.foldl _ (fun d p => by split <;> rfl) _ d
theorem laserOff_talks (d : Dev) (t : Nat) : Talks d (d.laserOff t) := by
  simp only [Dev.laserOff]
  split <;> rfl
theorem lasersOff_talks (d : Dev) (l : List Nat) : Talks d (l.foldl (fun d t => d.laserOff t) d) := Talks.foldl _ laserOff_talks _ d
theorem quenchNow_raises (d : Dev) (r : FltRec) : Raises d (d.quenchNow r) := by
  unfold Dev.quenchNow
  split
  · exact Raises.refl d
  · have q : Raises d { d with flt := { d.flt with quench := true }, pwr := { d.pwr with pstate := d.pwr.pstate.leave } } := rfl
    exact ((((q.trans (releaseAll_raises _)).trans (lasersOff_talks _ _).raises).trans (localFaults_talks _).raises).trans
      (irq_talks _ _).raises).trans (notify_talks _ _ _ _).raises
theorem recordFault_raises (d : Dev) (r : FltRec) : Raises d (d.recordFault r) := by
  have h := (setFlt_raises d (d.flt.enter r (d.now + rawS d.quietS) (!d.pwr.pfw))).trans (notify_talks _ 0x8D80 r.inst r.bytes).raises
  unfold Dev.recordFault
  cases hl : r.latched
  · simp only [Bool.false_eq_true, if_false]
    split
    · exact h.trans (quenchNow_raises _ _)
    · exact h
  · simp only [if_true]
    split
    · exact (h.trans (notify_talks _ _ _ _).raises).trans (quenchNow_raises _ _)
    · exact h.trans (notify_talks _ _ _ _).raises
theorem raise_raises (d : Dev) (b ev cls tile inst detail : Nat) (cond iso : Bool) :
    Raises d (d.raise b ev cls tile inst detail cond iso) := recordFault_raises d _
theorem endCond_raises (d : Dev) (b ev t i : Nat) : Raises d (d.endCond b ev t i) := rfl

theorem releaseAll_ring (d : Dev) : d.releaseAll.flt = d.flt := by
  have h : ∀ (l : List (Nat × Group)) (e : Dev), (l.foldl (fun d (x : Nat × Group) =>
      (d.leaseSend x.1 1).updGroup x.1 (fun g => if g.st = .unpaired then g else { g with st := .notReady, handover := false })) e).flt = e.flt := by
    intro l
    induction l with
    | nil => intro e; rfl
    | cons a l ih => intro e; rw [List.foldl_cons, ih]; exact (leaseSend_talks e a.1 1 false).flt
  exact h d.groups d
theorem quenchNow_ring (d : Dev) (r : FltRec) : (d.quenchNow r).flt.ring = d.flt.ring := by
  unfold Dev.quenchNow
  split
  · rfl
  · rw [(notify_talks _ _ _ _).flt, (irq_talks _ _).flt, (localFaults_talks _).flt, (lasersOff_talks _ _).flt, releaseAll_ring]
theorem enter_ring (f : FaultState) (r : FltRec) (qe : Raw) (m : Bool) : (f.enter r qe m).ring.head? = some r := by
  unfold FaultState.enter
  dsimp only
  split
  · unfold FaultState.toEmram
    dsimp only
    split <;> rfl
  · rfl
/-- A fault raised is the newest record. -/
theorem raise_head (d : Dev) (b ev cls tile inst detail : Nat) (cond iso : Bool) :
    (d.raise b ev cls tile inst detail cond iso).flt.ring.head? = some (d.faultRec b ev cls tile inst detail cond iso) := by
  unfold Dev.raise
  generalize d.faultRec b ev cls tile inst detail cond iso = r
  have k : ∀ op t y, ((d.setFlt (d.flt.enter r (d.now + rawS d.quietS) (!d.pwr.pfw))).notify op t y).flt =
      d.flt.enter r (d.now + rawS d.quietS) (!d.pwr.pfw) := by
    intro op t y; rw [(notify_talks _ _ _ _).flt]; rfl
  unfold Dev.recordFault
  dsimp only
  split
  · rw [quenchNow_ring]
    split
    · rw [(notify_talks _ _ _ _).flt, k, enter_ring]
    · rw [k, enter_ring]
  · split
    · rw [(notify_talks _ _ _ _).flt, k, enter_ring]
    · rw [k, enter_ring]
theorem raise_raised (d : Dev) (b ev cls tile inst detail : Nat) (cond iso : Bool) :
    Raised (d.raise b ev cls tile inst detail cond iso) b ev tile inst := by
  unfold Raised; rw [raise_head]; simp [Dev.faultRec]

end Sys2Proof.Machine
end

