-- ==== Sys2Proof/Laws/Rows.lean ====
section
/-!
SUPPORT. The rows that carry a packet: the device in which a body runs differs from the one before only in what taking the packet touches
(Enters), and what its row leaves is the body's result with the reply sent.
-/

namespace Sys2Proof.Machine

/-- Everything but outputs, the host attachment, counters and the senders is as it was. -/
def Enters (d e : Dev) : Prop := e = { d with out := e.out, host := e.host, cnt := e.cnt, senders := e.senders }

theorem Enters.refl (d : Dev) : Enters d d := rfl
theorem Enters.trans {d e f : Dev} (h : Enters d e) (g : Enters e f) : Enters d f := by unfold Enters at *; rw [g]; rw [h]

theorem Enters.variant {d e : Dev} (h : Enters d e) : e.variant = d.variant := by unfold Enters at h; rw [h]
theorem Enters.time {d e : Dev} (h : Enters d e) : e.time = d.time := by unfold Enters at h; rw [h]
theorem Enters.pwr {d e : Dev} (h : Enters d e) : e.pwr = d.pwr := by unfold Enters at h; rw [h]
theorem Enters.rst {d e : Dev} (h : Enters d e) : e.rst = d.rst := by unfold Enters at h; rw [h]
theorem Enters.tiles {d e : Dev} (h : Enters d e) : e.tiles = d.tiles := by unfold Enters at h; rw [h]
theorem Enters.lanes {d e : Dev} (h : Enters d e) : e.lanes = d.lanes := by unfold Enters at h; rw [h]
theorem Enters.subs {d e : Dev} (h : Enters d e) : e.subs = d.subs := by unfold Enters at h; rw [h]
theorem Enters.trees {d e : Dev} (h : Enters d e) : e.trees = d.trees := by unfold Enters at h; rw [h]
theorem Enters.chans {d e : Dev} (h : Enters d e) : e.chans = d.chans := by unfold Enters at h; rw [h]
theorem Enters.terms {d e : Dev} (h : Enters d e) : e.terms = d.terms := by unfold Enters at h; rw [h]
theorem Enters.circuits {d e : Dev} (h : Enters d e) : e.circuits = d.circuits := by unfold Enters at h; rw [h]
theorem Enters.allocs {d e : Dev} (h : Enters d e) : e.allocs = d.allocs := by unfold Enters at h; rw [h]
theorem Enters.domW {d e : Dev} (h : Enters d e) : e.domW = d.domW := by unfold Enters at h; rw [h]
theorem Enters.domPrio {d e : Dev} (h : Enters d e) : e.domPrio = d.domPrio := by unfold Enters at h; rw [h]
theorem Enters.tdomW {d e : Dev} (h : Enters d e) : e.tdomW = d.tdomW := by unfold Enters at h; rw [h]
theorem Enters.domNext {d e : Dev} (h : Enters d e) : e.domNext = d.domNext := by unfold Enters at h; rw [h]
theorem Enters.fm {d e : Dev} (h : Enters d e) : e.fm = d.fm := by unfold Enters at h; rw [h]
theorem Enters.tables {d e : Dev} (h : Enters d e) : e.tables = d.tables := by unfold Enters at h; rw [h]
theorem Enters.profiles {d e : Dev} (h : Enters d e) : e.profiles = d.profiles := by unfold Enters at h; rw [h]
theorem Enters.lookups {d e : Dev} (h : Enters d e) : e.lookups = d.lookups := by unfold Enters at h; rw [h]
theorem Enters.spreads {d e : Dev} (h : Enters d e) : e.spreads = d.spreads := by unfold Enters at h; rw [h]
theorem Enters.mirrors {d e : Dev} (h : Enters d e) : e.mirrors = d.mirrors := by unfold Enters at h; rw [h]
theorem Enters.binds {d e : Dev} (h : Enters d e) : e.binds = d.binds := by unfold Enters at h; rw [h]
theorem Enters.cls {d e : Dev} (h : Enters d e) : e.cls = d.cls := by unfold Enters at h; rw [h]
theorem Enters.cursors {d e : Dev} (h : Enters d e) : e.cursors = d.cursors := by unfold Enters at h; rw [h]
theorem Enters.tac {d e : Dev} (h : Enters d e) : e.tac = d.tac := by unfold Enters at h; rw [h]
theorem Enters.tacDone {d e : Dev} (h : Enters d e) : e.tacDone = d.tacDone := by unfold Enters at h; rw [h]
theorem Enters.queues {d e : Dev} (h : Enters d e) : e.queues = d.queues := by unfold Enters at h; rw [h]
theorem Enters.nodes {d e : Dev} (h : Enters d e) : e.nodes = d.nodes := by unfold Enters at h; rw [h]
theorem Enters.shapers {d e : Dev} (h : Enters d e) : e.shapers = d.shapers := by unfold Enters at h; rw [h]
theorem Enters.shaperNext {d e : Dev} (h : Enters d e) : e.shaperNext = d.shaperNext := by unfold Enters at h; rw [h]
theorem Enters.meters {d e : Dev} (h : Enters d e) : e.meters = d.meters := by unfold Enters at h; rw [h]
theorem Enters.meterNext {d e : Dev} (h : Enters d e) : e.meterNext = d.meterNext := by unfold Enters at h; rw [h]
theorem Enters.gates {d e : Dev} (h : Enters d e) : e.gates = d.gates := by unfold Enters at h; rw [h]
theorem Enters.gateNext {d e : Dev} (h : Enters d e) : e.gateNext = d.gateNext := by unfold Enters at h; rw [h]
theorem Enters.pools {d e : Dev} (h : Enters d e) : e.pools = d.pools := by unfold Enters at h; rw [h]
theorem Enters.msec {d e : Dev} (h : Enters d e) : e.msec = d.msec := by unfold Enters at h; rw [h]
theorem Enters.pon {d e : Dev} (h : Enters d e) : e.pon = d.pon := by unfold Enters at h; rw [h]
theorem Enters.cru {d e : Dev} (h : Enters d e) : e.cru = d.cru := by unfold Enters at h; rw [h]
theorem Enters.chk {d e : Dev} (h : Enters d e) : e.chk = d.chk := by unfold Enters at h; rw [h]
theorem Enters.chkNo {d e : Dev} (h : Enters d e) : e.chkNo = d.chkNo := by unfold Enters at h; rw [h]
theorem Enters.join {d e : Dev} (h : Enters d e) : e.join = d.join := by unfold Enters at h; rw [h]
theorem Enters.groups {d e : Dev} (h : Enters d e) : e.groups = d.groups := by unfold Enters at h; rw [h]
theorem Enters.leaseSeen {d e : Dev} (h : Enters d e) : e.leaseSeen = d.leaseSeen := by unfold Enters at h; rw [h]
theorem Enters.flt {d e : Dev} (h : Enters d e) : e.flt = d.flt := by unfold Enters at h; rw [h]
theorem Enters.asy {d e : Dev} (h : Enters d e) : e.asy = d.asy := by unfold Enters at h; rw [h]
theorem Enters.regs {d e : Dev} (h : Enters d e) : e.regs = d.regs := by unfold Enters at h; rw [h]
theorem Enters.lastRead {d e : Dev} (h : Enters d e) : e.lastRead = d.lastRead := by unfold Enters at h; rw [h]
theorem Enters.freeCtr {d e : Dev} (h : Enters d e) : e.freeCtr = d.freeCtr := by unfold Enters at h; rw [h]

theorem count_enters (d : Dev) (c : Cnt) (obj n : Nat) : Enters d (d.count c obj n) := by
  obtain ⟨o, x, v, h⟩ := count_same d c obj n
  rw [h]; rfl
theorem setSender_enters (d : Dev) (ch : Nat) (x : Sender) : Enters d (d.setSender ch x) := rfl
theorem setMbox_enters (d : Dev) (ch : Nat) (m : MboxChan) : Enters d (d.setMbox ch m) := rfl
theorem place_enters (d : Dev) (q : Packet) : Enters d (d.place q) := by
  simp only [Dev.place]
  repeat' split
  all_goals first | exact count_enters _ _ _ _ | rfl
theorem clearSend_enters (d : Dev) (ch : Nat) : Enters d (d.clearSend ch) := by
  obtain ⟨o, h, e, _⟩ := clearSend_same d ch
  rw [e]; rfl
theorem takenBy_enters (q : Packet) (d : Dev) : Enters d (Dev.takenBy q d) :=
  ((place_enters d q).trans (clearSend_enters _ _)).trans (count_enters _ _ _ _)
theorem persist_enters (d : Dev) (ch n : Nat) : Enters d (d.persist ch n) := (setSender_enters _ _ _).trans (count_enters _ _ _ _)

/-- The device of a body is the one before it but for what taking its packet touches. -/
theorem devIn_enters (sp : CmdSpec) (p : Packet) (d : Dev) (h : Dev.passes sp p d = true) : Enters d (Dev.devIn sp p d) := by
  unfold Dev.passes Dev.passesAs Dev.entersAs at h
  simp only [Bool.and_eq_true, Bool.or_eq_true, Bool.not_eq_true', decide_eq_true_eq] at h
  obtain ⟨⟨_, hv⟩, _⟩ := h
  unfold Dev.devIn Dev.entryOf
  cases hc : (rowPacket sp p).crit with
  | false => simp only [Bool.false_eq_true, if_false]; exact takenBy_enters _ _
  | true =>
    rcases hv with hv | hv
    · rw [hc] at hv; exact absurd hv (by decide)
    · obtain ⟨x, vx, _⟩ := verify_ok _ _ hv.1
      simp only [if_true]
      rw [vx]
      exact ((takenBy_enters _ _).trans (setSender_enters _ _ _)).trans (persist_enters _ _ _)

/-- The packet and the parameters that a body sees. -/
theorem cmdIn_p (sp : CmdSpec) (p : Packet) (d : Dev) : (Dev.cmdIn sp p d).p = rowPacket sp p := by
  unfold Dev.cmdIn Dev.entryOf; split <;> rfl
theorem cmdIn_params (sp : CmdSpec) (p : Packet) (d : Dev) : (Dev.cmdIn sp p d).params = p.body := by
  unfold Dev.cmdIn Dev.entryOf; split <;> rfl
theorem cmdIn_tgt (sp : CmdSpec) (p : Packet) (d : Dev) : (Dev.cmdIn sp p d).tgt = p.target.toNat := by
  unfold Cmd.tgt; rw [cmdIn_p]; rfl

/-- A body that answers a status and a reply body, and awaits nothing: the reply is sent. -/
theorem runBody_res (sp : CmdSpec) (c : Cmd) (d e : Dev) (st : Nat) (b : List Byte) (h : sp.body c d = { dev := e, st := st, body := b }) :
    Dev.runBody sp c d = e.answer c st 0xFFFF 0 b := by
  simp [Dev.runBody, Dev.bodyResult, h]

theorem get_term {d : Dev} {t : Nat} (h : mhas d.terms t = true) : mget d.terms t = some (d.term t) := by
  obtain ⟨v, hv⟩ := get_of_has h; rw [hv]; unfold Dev.term; rw [mgetD_of_get hv]
theorem get_alloc {d : Dev} {t : Nat} (h : mhas d.allocs t = true) : mget d.allocs t = some (d.alloc t) := by
  obtain ⟨v, hv⟩ := get_of_has h; rw [hv]; unfold Dev.alloc; rw [mgetD_of_get hv]
theorem get_queue {d : Dev} {t : Nat} (h : mhas d.queues t = true) : mget d.queues t = some (d.queue t) := by
  obtain ⟨v, hv⟩ := get_of_has h; rw [hv]; unfold Dev.queue; rw [mgetD_of_get hv]
theorem termNamed_get {d : Dev} {t : Nat} (h : d.termNamed t = true) : mget d.terms t = some (d.term t) := by
  simp only [Dev.termNamed, Bool.and_eq_true] at h; exact get_term h.1.1.2

/-- A command that may act on a terminal goes on with it. -/
theorem withTerm_named {d : Dev} {t : Nat} (h : d.termNamed t = true) (k : Terminal → Res) : d.withTerm t k = k (d.term t) := by
  have g := termNamed_get h
  simp only [Dev.termNamed, Bool.and_eq_true, decide_eq_true_eq, Option.isNone_iff_eq_none] at h
  obtain ⟨⟨⟨h1, h2⟩, h3⟩, h4⟩ := h
  simp [Dev.withTerm, g, h3, h4, Dev.notRun, Nat.not_le.mpr h1]

/-- A command that may act on an allocation goes on with it. -/
theorem withAlloc_named {d : Dev} {t : Nat} (h : d.allocNamed t = true) (k : Alloc → Res) : d.withAlloc t k = k (d.alloc t) := by
  simp only [Dev.allocNamed, Bool.and_eq_true, decide_eq_true_eq, Option.isNone_iff_eq_none] at h
  obtain ⟨⟨⟨h1, h2⟩, h3⟩, h4⟩ := h
  simp [Dev.withAlloc, get_alloc h2, h3, h4, Dev.notRun, Nat.not_le.mpr h1]

theorem slotFor_usable {d : Dev} {n kind : Nat} (h : d.slotUsable n kind = true) : d.slotFor n kind = .ok (d.pslot n) := by
  simp only [Dev.slotUsable, Bool.and_eq_true, Bool.or_eq_true, decide_eq_true_eq, Bool.not_eq_true'] at h
  obtain ⟨⟨⟨h1, h2⟩, h3⟩, h4⟩ := h
  rcases h2 with h2 | h2 <;> simp [Dev.slotFor, h1, h2, h3, h4]

/-- A command that may act on a table goes on with it. -/
theorem onTable_named {d : Dev} {t : Nat} (h : d.tabNamed t = true) (k : Table → Res) : d.onTable t k = k (d.tab t) := by
  simp only [Dev.tabNamed, Bool.and_eq_true, decide_eq_true_eq] at h
  obtain ⟨⟨h1, h2⟩, h3⟩ := h
  obtain ⟨v, hv⟩ := get_of_has h2
  have e : d.tab t = v := mgetD_of_get hv _
  rw [e] at h3
  simp [Dev.onTable, hv, e, h3, Nat.not_le.mpr h1]

/-- Records that are all applied: what the operation leaves and answers. -/
theorem records_all {c : Cmd} {d : Dev} {f : Dev → List Byte → Nat × List Byte × Dev} (h : d.tabNamed c.tgt = true) (g : Dev.allRecords c d f = true) :
    d.tabRecords c f = (eachRecord f c.records.1 c.records.2.2 0 [] d).2.2.2.ok (eachRecord f c.records.1 c.records.2.2 0 [] d).2.2.1 := by
  simp only [Dev.allRecords, Bool.and_eq_true, decide_eq_true_eq, Bool.not_eq_true'] at g
  obtain ⟨⟨⟨⟨⟨g1, g2⟩, g3⟩, g4⟩, g5⟩, g6⟩ := g
  have k : ¬ c.records.1 < 1 ∧ ¬ 59 < c.records.1 := by omega
  simp [Dev.tabRecords, onTable_named h, g1, k.1, k.2, g4, g5, g6, Dev.ok]

/-- A command that may act on a queue goes on with it. -/
theorem withQueue_named {d : Dev} {t : Nat} (h : d.queueNamed t = true) (k : Queue → Res) : d.withQueue t k = k (d.queue t) := by
  simp only [Dev.queueNamed, Bool.and_eq_true] at h
  obtain ⟨⟨h1, h2⟩, h3⟩ := h
  simp [Dev.withQueue, get_queue h2, h1, Dev.notRun, h3]

theorem get_secy {d : Dev} {h : Nat} (g : d.secyNamed h = true) : mget d.msec.secys h = some (d.secy h) ∧ d.tileRun (tileOfSub (d.secy h).subport) = true := by
  simp only [Dev.secyNamed, Bool.and_eq_true] at g
  obtain ⟨v, hv⟩ := get_of_has g.1
  refine ⟨?_, g.2⟩
  rw [hv]; unfold Dev.secy; rw [mgetD_of_get hv]

/-- A command that may act on an SA slot goes on with it. -/
theorem withSa_named {d : Dev} {n : Nat} (h : d.saNamed n = true) (k : SecChan → Res) : d.withSa n k = k (mgetD d.msec.scs (n / 2) {}) := by
  simp only [Dev.saNamed, Bool.and_eq_true, decide_eq_true_eq] at h
  obtain ⟨⟨h1, h2⟩, h3⟩ := h
  obtain ⟨v, hv⟩ := get_of_has h2
  simp [Dev.withSa, Dev.scOf, hv, mgetD_of_get hv, Dev.notRun, h3, Nat.not_le.mpr h1]

/-- A message that is used goes on in the device that has counted it. -/
theorem sysIn_heard {d : Dev} {m : SysHdr} (h : d.heard m = true) (k : Dev → Dev) : d.sysIn m k = k (d.hearing m) := by
  simp only [Dev.heard, Bool.and_eq_true] at h
  simp [Dev.sysIn, h.1, h.2, Dev.hearing]
theorem hearing_enters (d : Dev) (m : SysHdr) : Enters d (d.hearing m) := count_enters _ _ _ _
theorem treeIn_heard {d : Dev} {m : SysHdr} (h : d.heardOnTree m = true) (k : Dev → Dev) : d.treeIn m k = k (d.hearing m) := by
  simp only [Dev.heardOnTree, Bool.and_eq_true] at h
  unfold Dev.treeIn
  rw [sysIn_heard h.1.1]
  have e := (hearing_enters d m).join
  have j : (d.hearing m).joined = d.joined := by unfold Dev.joined; rw [e]
  have t : (d.hearing m).treeLinks = d.treeLinks := by unfold Dev.treeLinks Dev.parents Dev.children Dev.portsIn Dev.sysPort; rw [e]
  simp only [j, t, h.1.2, h.2, Bool.and_self, if_true]

/-- A LEASE message that is used goes on in the device that has entered it. -/
theorem leaseIn_heard {d : Dev} {tree : Nat} {inband : Bool} {l : LeaseMsg} (h : d.leaseHeard tree inband l = true) (k : Group → Dev → Dev) :
    d.leaseIn tree inband l k = k (d.leaseGroup tree inband l) (d.leaseDev tree inband l) := by
  simp only [Dev.leaseHeard, Bool.and_eq_true, decide_eq_true_eq, Bool.not_eq_true', decide_not] at h
  obtain ⟨⟨⟨⟨⟨⟨h0, h1⟩, h2⟩, h3⟩, h4⟩, h5⟩, h6⟩ := h
  obtain ⟨v, hv⟩ := get_of_has h0
  have e : d.group tree = v := mgetD_of_get hv _
  rw [e] at h2 h3 h4 h6
  simp only [decide_eq_false_iff_not] at h4
  have k1 : (!d.ready || v.claim || decide (l.group ≠ v.gid) || decide (l.sideB = v.sideB) || !d.tileRun (tileOfTree tree)
      || !(if inband then d.inPathUp v else d.sysPathUp v)) = false := by simp [h1, h2, h3, h4, h5, h6]
  simp only [Dev.leaseIn, hv, k1, Dev.leaseGroup, Dev.leaseDev, e, Bool.false_eq_true, if_false]

/-- Every row that carries a packet runs its opcode's path on it. -/
theorem rows_exec : ∀ r ∈ commandRows, ∀ (p : Packet) (s : State), exec (r.1 p) s = live (Dev.runCommand r.2 p) s := by
  intro r hr p s
  unfold commandRows at hr
  simp only [rowsSystem, rowsTree, rowsTerminal, rowsGrant, rowsFollowMe, rowsTable, rowsQueue, rowsCipher, rowsCrucible, rowsTime, rowsJoin,
    rowsProt, rowsFault, rowsAssay, rowsCounter, List.mem_append, List.mem_cons, List.not_mem_nil, or_false, or_assoc] at hr
  iterate 111 (rcases hr with hr | hr; · subst hr; rfl)
  subst hr; rfl

/-- A row that is an event: its operation says what becomes of the device. -/
theorem becomes_of {i : Instr} {d e : Dev} {f : Dev → Dev} (hi : ∀ s, exec i s = live f s) (he : f d = e) : Becomes i d e := by
  intro q; rw [hi]; simp only [live, he]

/-- A row that is an event: what its operation leaves has the property. -/
theorem leaves_of {i : Instr} {d : Dev} {f : Dev → Dev} {P : Dev → Prop} (hi : ∀ s, exec i s = live f s) (he : P (f d)) : Leaves i d P :=
  ⟨f d, becomes_of hi rfl, he⟩

/-- A row whose packet passes every check leaves what its body and its reply leave. -/
theorem replies_row (i : Packet → Instr) (sp : CmdSpec) (st : Nat) (pre : Cmd → Dev → Prop) (post : Cmd → Dev → Dev)
    (body : Cmd → Dev → List Byte) (hi : ∀ p s, exec (i p) s = live (Dev.runCommand sp p) s)
    (hb : ∀ c d, c.p.op = sp.op → pre c d → Dev.runBody sp c d = (post c d).answer c st 0xFFFF 0 (body c d)) : Replies i sp st pre post body := by
  intro p d hp hc q
  rw [hi]
  simp only [live, runCommand_passed sp p d hp, hb _ _ (by rw [cmdIn_p]; rfl) hc]

/-- A command whose whole result is given. -/
theorem runs_row (i : Packet → Instr) (sp : CmdSpec) (pre : Cmd → Dev → Prop) (res : Cmd → Dev → Res)
    (hi : ∀ p s, exec (i p) s = live (Dev.runCommand sp p) s)
    (hb : ∀ c d, c.p.op = sp.op → pre c d → sp.body c d = { dev := (res c d).dev, st := (res c d).st, body := (res c d).body, ofs := (res c d).ofs, applied := (res c d).applied }) :
    Runs i sp pre res := by
  intro p d hp hc r q
  rw [hi]
  simp only [live, runCommand_passed sp p d hp, Dev.runBody, Dev.bodyResult, hb _ _ (by rw [cmdIn_p]; rfl) hc, Bool.false_eq_true, if_false]
  rfl

/-- A command that succeeds: its body says what becomes of the device. -/
theorem answers_row (i : Packet → Instr) (sp : CmdSpec) (pre : Cmd → Dev → Prop) (post : Cmd → Dev → Dev)
    (body : Cmd → Dev → List Byte) (hi : ∀ p s, exec (i p) s = live (Dev.runCommand sp p) s)
    (hb : ∀ c d, c.p.op = sp.op → pre c d → sp.body c d = (post c d).ok (body c d)) : Answers i sp pre post body :=
  replies_row i sp stOk pre post body hi (fun c d ho h => runBody_res sp c d _ _ _ (hb c d ho h))

/-- A command of whose device a property is stated. -/
theorem with_row (i : Packet → Instr) (sp : CmdSpec) (pre : Cmd → Dev → Prop) (P : Cmd → Dev → Dev → Prop)
    (body : Cmd → Dev → List Byte) (hi : ∀ p s, exec (i p) s = live (Dev.runCommand sp p) s)
    (hb : ∀ c d, c.p.op = sp.op → pre c d → ∃ e, P c d e ∧ sp.body c d = e.ok (body c d)) : AnswersWith i sp pre P body := by
  intro p d hp hc
  obtain ⟨e, he, hs⟩ := hb _ _ (by rw [cmdIn_p]; rfl) hc
  refine ⟨e, he, fun q => ?_⟩
  rw [hi]
  simp only [live, runCommand_passed sp p d hp, Dev.runBody, Dev.bodyResult, hs, Dev.ok, Bool.false_eq_true, if_false]
  rfl

/-- A command whose action begins once its reply is sent. -/
theorem then_row (i : Packet → Instr) (sp : CmdSpec) (pre : Cmd → Dev → Prop) (post : Cmd → Dev → Dev) (after : Cmd → Dev → Dev → Dev)
    (hi : ∀ p s, exec (i p) s = live (Dev.runCommand sp p) s)
    (hb : ∀ c d, c.p.op = sp.op → pre c d → sp.body c d = { (post c d).ok with after := after c d }) : AnswersThen i sp pre post after := by
  intro p d hp hc q
  rw [hi]
  simp only [live, runCommand_passed sp p d hp, Dev.runBody, Dev.bodyResult, hb _ _ (by rw [cmdIn_p]; rfl) hc, Dev.ok, Bool.false_eq_true, if_false]

/-- A row that may carry its data in host memory starts the transfer. -/
theorem transfers_row (i : Packet → Instr) (sp : CmdSpec) (hb : sp.bulk = true)
    (hi : ∀ p s, exec (i p) s = live (Dev.runCommand sp p) s) : Transfers i sp := by
  intro p d hp h0 h1 q
  have hc : (Dev.cmdIn sp p d).p = rowPacket sp p := cmdIn_p sp p d
  have e : (bulkDescs (Dev.cmdIn sp p d).p.bulk (Dev.cmdIn sp p d).params).isSome = true := by rw [hc]; exact h1
  rw [hi]
  simp only [live, runCommand_bulk sp p d hp hb h0 e]

/-- A command whose completion follows. -/
theorem starts_row (i : Packet → Instr) (sp : CmdSpec) (st : Nat) (pre : Cmd → Dev → Prop) (post : Cmd → Dev → Dev) (k : JobKind)
    (obj : Cmd → Dev → Nat) (hi : ∀ p s, exec (i p) s = live (Dev.runCommand sp p) s)
    (hb : ∀ c d, c.p.op = sp.op → pre c d → sp.body c d = (post c d).accepted st k (obj c d)) : Starts i sp st pre post k obj := by
  refine replies_row i sp st _ _ _ hi (fun c d ho h => ?_)
  have g : ¬ 64 ≤ d.awaiting c.p.chan := by omega
  simp only [Dev.runBody, Dev.bodyResult, hb c d ho h.2, Dev.accepted, if_neg g, Dev.withJob, Bool.false_eq_true, if_false]
  rfl

/-- A command whose action begins once its reply is sent and whose completion follows. -/
theorem startsThen_row (i : Packet → Instr) (sp : CmdSpec) (st : Nat) (pre : Cmd → Dev → Prop) (post : Cmd → Dev → Dev) (k : JobKind)
    (obj : Cmd → Dev → Nat) (after : Cmd → Dev → Dev → Dev) (hi : ∀ p s, exec (i p) s = live (Dev.runCommand sp p) s)
    (hb : ∀ c d, c.p.op = sp.op → pre c d → sp.body c d = { (post c d).accepted st k (obj c d) with after := after c d }) :
    StartsThen i sp st pre post k obj after := by
  intro p d hp hw hc q
  have g : ¬ 64 ≤ (Dev.devIn sp p d).awaiting (Dev.cmdIn sp p d).p.chan := by omega
  rw [hi]
  simp only [live, runCommand_passed sp p d hp, Dev.runBody, Dev.bodyResult, hb _ _ (by rw [cmdIn_p]; rfl) hc, Dev.accepted, if_neg g, Dev.withJob,
    Bool.false_eq_true, if_false]

end Sys2Proof.Machine
end

