-- ==== Sys2Proof/Laws/Wrap.lean ====
section
/-!
SUPPORT. Decryption undoes encryption: the AES rounds (FIPS 197), the key-wrap ladder, and key unwrap after key wrap (RFC 3394).
-/

namespace Sys2Proof.Machine

/-! ## Bytes -/

theorem invSubB_subB (b : Byte) : invSubB (subB b) = b := by
  have h : ∀ n : Fin 256, invSubB (subB (BitVec.ofNat 8 n.val)) = BitVec.ofNat 8 n.val := by decide +kernel
  have e : b = BitVec.ofNat 8 b.toNat := by simp
  rw [e]; exact h ⟨b.toNat, b.isLt⟩

theorem xor_left (a b c : Byte) : a ^^^ (b ^^^ c) = b ^^^ (a ^^^ c) := by rw [← BitVec.xor_assoc, BitVec.xor_comm a b, BitVec.xor_assoc]
theorem xor_pair (a b : Byte) : a ^^^ (a ^^^ b) = b := by rw [← BitVec.xor_assoc]; simp

theorem xtime_xor (a b : Byte) : xtime (a ^^^ b) = xtime a ^^^ xtime b := by
  have h : ∀ (p q : Bool) (x y : Byte),
      (x ^^^ y) ^^^ (if (p ^^ q) then 0x1B#8 else 0) = (x ^^^ (if p then 0x1B#8 else 0)) ^^^ (y ^^^ (if q then 0x1B#8 else 0)) := by
    intro p q x y
    cases p <;> cases q <;> simp [BitVec.xor_assoc, BitVec.xor_comm, xor_left]
  unfold xtime
  rw [BitVec.msb_xor, BitVec.shiftLeft_xor_distrib]
  exact h _ _ _ _

/-! ## Rounds -/

/-- A block of 16 bytes is its bytes. -/
theorem block16 {s : List Byte} (h : s.length = 16) : s = (List.range 16).map (fun i => s.getD i 0) := by
  apply List.ext_getElem
  · simp [h]
  · intro i h1 h2; simp at h2; simp [List.getD_eq_getElem?_getD, h1]

theorem xorB_length {a b : List Byte} (ha : a.length = 16) (hb : b.length = 16) : (xorB a b).length = 16 := by simp [xorB, ha, hb]

theorem xorB_cancel : ∀ {a b : List Byte}, a.length = b.length → xorB (xorB a b) b = a
  | [], [], _ => rfl
  | x :: a, y :: b, h => by
    have := xorB_cancel (a := a) (b := b) (by simpa using h)
    simp only [xorB, List.zipWith_cons_cons] at this ⊢
    rw [this, BitVec.xor_assoc]; simp

theorem sub_length {s : List Byte} (h : s.length = 16) : (s.map subB).length = 16 := by simp [h]
theorem shiftRows_length (s : List Byte) : (shiftRows s).length = 16 := by simp [shiftRows]

theorem unsub (s : List Byte) : (s.map subB).map invSubB = s := by
  rw [List.map_map]
  conv => rhs; rw [← List.map_id s]
  congr 1; funext b; exact invSubB_subB b

theorem unshift {s : List Byte} (h : s.length = 16) : invShiftRows (shiftRows s) = s := by
  rw [block16 h]; generalize s.getD = g
  rfl

theorem four_eq {a b c e a' b' c' e' : Byte} (h1 : a = a') (h2 : b = b') (h3 : c = c') (h4 : e = e') : [a, b, c, e] = [a', b', c', e'] := by
  rw [h1, h2, h3, h4]

theorem mixCol_twice (a b c e : Byte) :
    mixCol (mixCol [a, b, c, e]) =
      [a ^^^ xtime (xtime (a ^^^ c)), b ^^^ xtime (xtime (b ^^^ e)), c ^^^ xtime (xtime (a ^^^ c)), e ^^^ xtime (xtime (b ^^^ e))] := by
  simp only [mixCol, xtime_xor]
  generalize xtime (xtime a) = a2
  generalize xtime a = a1
  generalize xtime (xtime b) = b2
  generalize xtime b = b1
  generalize xtime (xtime c) = c2
  generalize xtime c = c1
  generalize xtime (xtime e) = e2
  generalize xtime e = e1
  refine four_eq ?_ ?_ ?_ ?_ <;> simp only [BitVec.xor_assoc, BitVec.xor_comm, xor_left, xor_pair, BitVec.xor_self, BitVec.xor_zero]

theorem pre_twice (a b c e : Byte) :
    (fun (l : List Byte) => match l with
      | [a, b, c, e] => [a ^^^ xtime (xtime (a ^^^ c)), b ^^^ xtime (xtime (b ^^^ e)), c ^^^ xtime (xtime (a ^^^ c)), e ^^^ xtime (xtime (b ^^^ e))]
      | l => l) [a ^^^ xtime (xtime (a ^^^ c)), b ^^^ xtime (xtime (b ^^^ e)), c ^^^ xtime (xtime (a ^^^ c)), e ^^^ xtime (xtime (b ^^^ e))]
      = [a, b, c, e] := by
  simp only [xtime_xor]
  generalize xtime (xtime (xtime (xtime a))) = a4
  generalize xtime (xtime a) = a2
  generalize xtime (xtime (xtime (xtime b))) = b4
  generalize xtime (xtime b) = b2
  generalize xtime (xtime (xtime (xtime c))) = c4
  generalize xtime (xtime c) = c2
  generalize xtime (xtime (xtime (xtime e))) = e4
  generalize xtime (xtime e) = e2
  refine four_eq ?_ ?_ ?_ ?_ <;> simp only [BitVec.xor_assoc, BitVec.xor_comm, xor_left, xor_pair, BitVec.xor_self, BitVec.xor_zero]

/-- invMixCol is mixCol after mixCol twice. -/
theorem invMixCol_eq (a b c e : Byte) : invMixCol [a, b, c, e] = mixCol (mixCol (mixCol [a, b, c, e])) := by
  rw [mixCol_twice]; rfl

theorem unmix (a b c e : Byte) : invMixCol (mixCol [a, b, c, e]) = [a, b, c, e] := by
  have h : ∃ p q r t, mixCol [a, b, c, e] = [p, q, r, t] := ⟨_, _, _, _, rfl⟩
  obtain ⟨p, q, r, t, h⟩ := h
  rw [h, invMixCol_eq, ← h]
  rw [mixCol_twice a b c e, mixCol_twice]
  exact pre_twice a b c e

theorem mixCol_four (a b c e : Byte) : (mixCol [a, b, c, e]).length = 4 := rfl

theorem mapCols_mix_length {s : List Byte} : (mapCols mixCol s).length = 16 := by
  unfold mapCols
  have h : ∀ c, ∃ p q r t, bytesAt s c 4 = [p, q, r, t] := fun c => ⟨_, _, _, _, rfl⟩
  simp only [List.range, List.range.loop, List.map_cons, List.map_nil, List.flatten_cons, List.flatten_nil, List.length_append, List.length_nil]
  obtain ⟨_, _, _, _, h0⟩ := h (4 * 0)
  obtain ⟨_, _, _, _, h1⟩ := h (4 * 1)
  obtain ⟨_, _, _, _, h2⟩ := h (4 * 2)
  obtain ⟨_, _, _, _, h3⟩ := h (4 * 3)
  rw [h0, h1, h2, h3]
  rfl

theorem unmixCols {s : List Byte} (h : s.length = 16) : mapCols invMixCol (mapCols mixCol s) = s := by
  rw [block16 h]
  generalize s.getD = g
  show invMixCol (mixCol [g 0 0, g 1 0, g 2 0, g 3 0]) ++ (invMixCol (mixCol [g 4 0, g 5 0, g 6 0, g 7 0]) ++
    (invMixCol (mixCol [g 8 0, g 9 0, g 10 0, g 11 0]) ++ (invMixCol (mixCol [g 12 0, g 13 0, g 14 0, g 15 0]) ++ []))) = _
  simp only [unmix]
  rfl

/-! ## The cipher -/

/-- One round, and the last one. -/
def encR (s k : List Byte) : List Byte := xorB (mapCols mixCol (shiftRows (s.map subB))) k
def encL (s k : List Byte) : List Byte := xorB (shiftRows (s.map subB)) k
/-- One round of decryption, and the last one. -/
def decR (s k : List Byte) : List Byte := mapCols invMixCol (xorB ((invShiftRows s).map invSubB) k)
def decL (s k : List Byte) : List Byte := xorB ((invShiftRows s).map invSubB) k

theorem encR_length {s k : List Byte} (hk : k.length = 16) : (encR s k).length = 16 := xorB_length mapCols_mix_length hk

/-- A round of decryption takes the shifted and substituted result of a round back to that of the round before. -/
theorem decR_encR {s k : List Byte} (hk : k.length = 16) :
    decR (shiftRows ((encR s k).map subB)) k = shiftRows (s.map subB) := by
  unfold decR
  rw [unshift (sub_length (encR_length hk)), unsub]
  unfold encR
  rw [xorB_cancel (by rw [mapCols_mix_length, hk]), unmixCols (shiftRows_length _)]

theorem decL_first {s k : List Byte} (hs : s.length = 16) (hk : k.length = 16) : decL (shiftRows ((xorB s k).map subB)) k = s := by
  unfold decL
  rw [unshift (sub_length (xorB_length hs hk)), unsub, xorB_cancel (by rw [hs, hk])]

/-- AES-256: decryption under fifteen round keys undoes encryption. -/
theorem aesDec_aesEnc (ks : List (List Byte)) (s : List Byte) (hn : ks.length = 15) (hk : ∀ k ∈ ks, k.length = 16) (hs : s.length = 16) :
    aesDecK ks (aesEncK ks s) = s := by
  match ks, hn with
  | [k0, k1, k2, k3, k4, k5, k6, k7, k8, k9, k10, k11, k12, k13, k14], _ =>
    have h0 := hk k0 (by simp)
    have h1 := hk k1 (by simp)
    have h2 := hk k2 (by simp)
    have h3 := hk k3 (by simp)
    have h4 := hk k4 (by simp)
    have h5 := hk k5 (by simp)
    have h6 := hk k6 (by simp)
    have h7 := hk k7 (by simp)
    have h8 := hk k8 (by simp)
    have h9 := hk k9 (by simp)
    have h10 := hk k10 (by simp)
    have h11 := hk k11 (by simp)
    have h12 := hk k12 (by simp)
    have h13 := hk k13 (by simp)
    have h14 := hk k14 (by simp)
    have e : aesEncK [k0, k1, k2, k3, k4, k5, k6, k7, k8, k9, k10, k11, k12, k13, k14] s
        = encL (encR (encR (encR (encR (encR (encR (encR (encR (encR (encR (encR (encR (encR (xorB s k0) k1) k2) k3) k4) k5) k6) k7) k8) k9) k10) k11) k12) k13) k14 := rfl
    have d : ∀ x, aesDecK [k0, k1, k2, k3, k4, k5, k6, k7, k8, k9, k10, k11, k12, k13, k14] x
        = decL (decR (decR (decR (decR (decR (decR (decR (decR (decR (decR (decR (decR (decR (xorB x k14) k13) k12) k11) k10) k9) k8) k7) k6) k5) k4) k3) k2) k1) k0 := fun _ => rfl
    rw [e, d]
    unfold encL
    rw [xorB_cancel (by rw [shiftRows_length, h14])]
    rw [decR_encR h13, decR_encR h12, decR_encR h11, decR_encR h10, decR_encR h9, decR_encR h8, decR_encR h7, decR_encR h6, decR_encR h5,
      decR_encR h4, decR_encR h3, decR_encR h2, decR_encR h1, decL_first hs h0]

/-! ## The key schedule -/

theorem getD_four {w : List (List Byte)} (h : ∀ x ∈ w, x.length = 4) {i : Nat} (hi : i < w.length) : (w.getD i []).length = 4 := by
  rw [List.getD_eq_getElem?_getD, List.getElem?_eq_getElem hi]
  exact h _ (List.getElem_mem hi)

theorem aesNextWord_length {w : List (List Byte)} {nk i : Nat} (h : ∀ x ∈ w, x.length = 4) (hi : i = w.length) (hk : nk ≤ i) (hp : 0 < nk)
    (rc : Byte) : (aesNextWord nk i w rc).length = 4 := by
  have h1 := getD_four h (i := i - 1) (by omega)
  have h2 := getD_four h (i := i - nk) (by omega)
  unfold aesNextWord
  simp only [xorB, List.length_zipWith, h2]
  have ht : ∀ (l : List Byte), l.length = 4 → (if i % nk = 0 then (match l with | [a, b, c, e] => [subB b ^^^ rc, subB c, subB e, subB a] | _ => l)
      else if 6 < nk && i % nk = 4 then l.map subB else l).length = 4 := by
    intro l hl
    split
    · split
      · rfl
      · exact hl
    · split
      · simpa using hl
      · exact hl
  exact (congrArg (min 4) (ht _ h1)).trans rfl

/-- The words of a schedule. -/
theorem schedule_words (nk n : Nat) (w0 : List (List Byte)) (h0 : ∀ x ∈ w0, x.length = 4) (hl : w0.length = nk) (hp : 0 < nk) (rc : Byte) :
    let r := (List.range n).foldl (fun (w, rc) j =>
      let i := nk + j
      (w ++ [aesNextWord nk i w rc], if i % nk = 0 then xtime rc else rc)) (w0, rc)
    r.1.length = nk + n ∧ ∀ x ∈ r.1, x.length = 4 := by
  induction n with
  | zero => exact ⟨hl, h0⟩
  | succ n ih =>
    simp only [List.range_succ, List.foldl_append, List.foldl_cons, List.foldl_nil]
    obtain ⟨h1, h2⟩ := ih
    refine ⟨by simp only [List.length_append, h1]; rfl, ?_⟩
    intro x hx
    rcases List.mem_append.mp hx with hx | hx
    · exact h2 x hx
    · rw [List.mem_singleton.mp hx]
      exact aesNextWord_length h2 h1.symm (Nat.le_add_right _ _) hp _

theorem flatten_fours : ∀ (l : List (List Byte)), (∀ x ∈ l, x.length = 4) → l.flatten.length = 4 * l.length
  | [], _ => rfl
  | x :: l, h => by
    rw [List.flatten_cons, List.length_append, h x (by simp), flatten_fours l (fun y hy => h y (by simp [hy]))]
    simp; omega

/-- A key of 32 bytes has fifteen round keys of 16 bytes. -/
theorem aesKeys_shape {key : List Byte} (h : key.length = 32) : (aesKeys key).length = 15 ∧ ∀ k ∈ aesKeys key, k.length = 16 := by
  unfold aesKeys
  simp only [h, (by decide : 32 / 4 = 8)]
  have hw : ∀ x ∈ (List.range 8).map (fun i => bytesAt key (4 * i) 4), x.length = 4 := by
    intro x hx
    obtain ⟨i, _, rfl⟩ := List.mem_map.mp hx
    simp [bytesAt]
  obtain ⟨h1, h2⟩ := schedule_words 8 52 _ hw (by simp) (by decide) 1
  refine ⟨by simp, ?_⟩
  intro k hk
  obtain ⟨r, hr, rfl⟩ := List.mem_map.mp hk
  have hr' : r < 15 := List.mem_range.mp hr
  rw [flatten_fours]
  · simp only [List.length_take, List.length_drop]
    have : (((List.range (4 * (8 + 6 + 1) - 8)).foldl (fun (w, rc) j =>
      let i := 8 + j
      (w ++ [aesNextWord 8 i w rc], if i % 8 = 0 then xtime rc else rc)) ((List.range 8).map (fun i => bytesAt key (4 * i) 4), (1 : Byte))).1).length = 60 := h1
    simp only [this]; omega
  · intro x hx
    exact h2 x (List.mem_of_mem_drop (List.mem_of_mem_take hx))

theorem aesEncK_length {ks : List (List Byte)} {s : List Byte} (hn : ks.length = 15) (hk : ∀ k ∈ ks, k.length = 16) :
    (aesEncK ks s).length = 16 := by
  match ks, hn with
  | [k0, k1, k2, k3, k4, k5, k6, k7, k8, k9, k10, k11, k12, k13, k14], _ =>
    have h14 := hk k14 (by simp)
    exact xorB_length (a := shiftRows _) (shiftRows_length _) h14

/-! ## The wrap ladder -/

/-- Registers of eight bytes each. -/
def Regs8 (n : Nat) (ar : List Byte × List (List Byte)) : Prop := ar.1.length = 8 ∧ ar.2.length = n ∧ ∀ x ∈ ar.2, x.length = 8

theorem getD_eight {n : Nat} {ar : List Byte × List (List Byte)} (h : Regs8 n ar) {i : Nat} (hi : i < n) : (ar.2.getD i []).length = 8 := by
  have hl : i < ar.2.length := by rw [h.2.1]; exact hi
  rw [List.getD_eq_getElem?_getD, List.getElem?_eq_getElem hl]
  exact h.2.2 _ (List.getElem_mem hl)

theorem beBytes_length (n v : Nat) : (beBytes n v).length = n := by simp [beBytes, leBytes]

theorem wrapStep_regs {ks : List (List Byte)} {n t : Nat} {ar : List Byte × List (List Byte)} (hn : ks.length = 15)
    (hk : ∀ k ∈ ks, k.length = 16) (h : Regs8 n ar) : Regs8 n (wrapStep ks n ar t) := by
  have hb := aesEncK_length (s := ar.1 ++ ar.2.getD ((t - 1) % n) []) hn hk
  refine ⟨?_, ?_, ?_⟩
  · simp only [wrapStep, xorB, List.length_zipWith, List.length_take, hb, beBytes_length]; rfl
  · simp [wrapStep, h.2.1]
  · intro x hx
    rcases List.mem_or_eq_of_mem_set hx with hx | rfl
    · exact h.2.2 x hx
    · rw [List.length_drop, hb]

/-- An inverse step undoes a step. -/
theorem unwrapStep_wrapStep {ks : List (List Byte)} {n t : Nat} {ar : List Byte × List (List Byte)} (hn : ks.length = 15)
    (hk : ∀ k ∈ ks, k.length = 16) (h : Regs8 n ar) (hp : 0 < n) : unwrapStep ks n (wrapStep ks n ar t) t = ar := by
  obtain ⟨a, r⟩ := ar
  have hi : (t - 1) % n < n := Nat.mod_lt _ hp
  have hr := getD_eight h hi
  have hb := aesEncK_length (s := a ++ r.getD ((t - 1) % n) []) hn hk
  have ha : a.length = 8 := h.1
  have hl : (t - 1) % n < r.length := by rw [h.2.1]; exact hi
  unfold unwrapStep wrapStep
  simp only
  rw [xorB_cancel (by rw [List.length_take, hb, beBytes_length]; rfl)]
  have e : ((r.set ((t - 1) % n) ((aesEncK ks (a ++ r.getD ((t - 1) % n) [])).drop 8)).getD ((t - 1) % n) [])
      = (aesEncK ks (a ++ r.getD ((t - 1) % n) [])).drop 8 := by
    rw [List.getD_eq_getElem?_getD, List.getElem?_set_self hl]; rfl
  rw [e, List.take_append_drop, aesDec_aesEnc ks _ hn hk (by simp only [List.length_append]; rw [ha, hr])]
  refine Prod.ext ?_ ?_
  · simp [ha]
  · simp only [List.set_set]
    rw [List.drop_append, ha, Nat.sub_self, List.drop_zero, List.drop_of_length_le (by omega), List.nil_append]
    rw [List.getD_eq_getElem?_getD, List.getElem?_eq_getElem hl]
    simp

theorem unwrap_wrap {ks : List (List Byte)} {n : Nat} (hn : ks.length = 15) (hk : ∀ k ∈ ks, k.length = 16) (hp : 0 < n) (m : Nat)
    (ar : List Byte × List (List Byte)) (h : Regs8 n ar) :
    Regs8 n ((List.range m).foldl (fun ar t => wrapStep ks n ar (t + 1)) ar) ∧
      (List.range m).foldl (fun ar t => unwrapStep ks n ar (m - t)) ((List.range m).foldl (fun ar t => wrapStep ks n ar (t + 1)) ar) = ar := by
  induction m with
  | zero => exact ⟨h, rfl⟩
  | succ m ih =>
    have e : (List.range (m + 1)).foldl (fun ar t => wrapStep ks n ar (t + 1)) ar
        = wrapStep ks n ((List.range m).foldl (fun ar t => wrapStep ks n ar (t + 1)) ar) (m + 1) := by
      rw [List.range_succ, List.foldl_append]; rfl
    refine ⟨by rw [e]; exact wrapStep_regs hn hk ih.1, ?_⟩
    rw [e, List.range_succ_eq_map, List.foldl_cons, Nat.sub_zero, unwrapStep_wrapStep hn hk ih.1 hp, List.foldl_map]
    simp only [Nat.succ_eq_add_one, Nat.add_sub_add_right]
    exact ih.2

/-! ## Key unwrap after key wrap -/

/-- Bytes that lie inside a string. -/
theorem bytesAt_inside {l : List Byte} {o n : Nat} (h : o + n ≤ l.length) : bytesAt l o n = (l.drop o).take n := by
  apply List.ext_getElem
  · simp [bytesAt]; omega
  · intro i h1 h2
    have hi : i < n := by simpa [bytesAt] using h1
    have ho : o + i < l.length := by omega
    simp [bytesAt, ho]

/-- The middle of three strings. -/
theorem bytesAt_mid (a b c : List Byte) {o n : Nat} (ho : o = a.length) (hn : n = b.length) : bytesAt (a ++ b ++ c) o n = b := by
  subst ho; subst hn
  rw [bytesAt_inside (by simp)]
  simp

theorem flatten_eights : ∀ (l : List (List Byte)), (∀ x ∈ l, x.length = 8) → l.flatten.length = 8 * l.length
  | [], _ => rfl
  | x :: l, h => by
    rw [List.flatten_cons, List.length_append, h x (by simp), flatten_eights l (fun y hy => h y (by simp [hy]))]
    simp; omega

/-- Cutting joined registers apart gives them back. -/
theorem cut_flatten : ∀ (l : List (List Byte)) (a : List Byte), (∀ x ∈ l, x.length = 8) →
    (List.range l.length).map (fun i => bytesAt (a ++ l.flatten) (a.length + 8 * i) 8) = l
  | [], _, _ => rfl
  | x :: l, a, h => by
    have hx := h x (by simp)
    rw [List.length_cons, List.range_succ_eq_map, List.map_cons, List.map_map, List.flatten_cons]
    refine List.cons_eq_cons.mpr ⟨?_, ?_⟩
    · rw [← List.append_assoc]; exact bytesAt_mid a x _ (by simp) hx.symm
    · have := cut_flatten l (a ++ x) (fun y hy => h y (by simp [hy]))
      rw [List.length_append, hx, List.append_assoc] at this
      conv => rhs; rw [← this]
      refine List.map_congr_left ?_
      intro i _
      simp only [Function.comp_apply, Nat.succ_eq_add_one]
      congr 1; omega

/-- Joining the registers cut from a string gives it back. -/
theorem flatten_cut (n : Nat) (key : List Byte) (h : key.length = 8 * n) : ((List.range n).map (fun i => bytesAt key (8 * i) 8)).flatten = key := by
  induction n generalizing key with
  | zero => have : key = [] := List.length_eq_zero_iff.mp (by omega)
            subst this; rfl
  | succ n ih =>
    rw [List.range_succ_eq_map, List.map_cons, List.map_map, List.flatten_cons]
    have hd : (key.drop 8).length = 8 * n := by simp [h]; omega
    have e : (List.range n).map ((fun i => bytesAt key (8 * i) 8) ∘ Nat.succ) = (List.range n).map (fun i => bytesAt (key.drop 8) (8 * i) 8) := by
      refine List.map_congr_left ?_
      intro i hi
      have hi' : i < n := List.mem_range.mp hi
      simp only [Function.comp_apply, Nat.succ_eq_add_one]
      rw [bytesAt_inside (by omega), bytesAt_inside (by omega), List.drop_drop]
      congr 2; omega
    rw [e, ih _ hd, bytesAt_inside (by omega)]
    simp

/-- A wrapped key is eight bytes longer, and the registers of a wrap. -/
theorem keyWrap_parts {kek key : List Byte} {n : Nat} (hk : kek.length = 32) (hl : key.length = 8 * n) (hn : 0 < n) :
    ∃ ar, Regs8 n ar ∧ keyWrap kek key = ar.1 ++ ar.2.flatten ∧
      (List.range (6 * n)).foldl (fun ar t => unwrapStep (aesKeys kek) n ar (6 * n - t)) ar
        = (List.replicate 8 0xA6#8, (List.range n).map (fun i => bytesAt key (8 * i) 8)) := by
  obtain ⟨h1, h2⟩ := aesKeys_shape hk
  have h0 : Regs8 n (List.replicate 8 0xA6#8, (List.range n).map (fun i => bytesAt key (8 * i) 8)) := by
    refine ⟨by simp, by simp, ?_⟩
    intro x hx
    obtain ⟨i, _, rfl⟩ := List.mem_map.mp hx
    simp [bytesAt]
  obtain ⟨h3, h4⟩ := unwrap_wrap h1 h2 hn (6 * n) _ h0
  refine ⟨_, h3, ?_, h4⟩
  have e : key.length / 8 = n := by omega
  unfold keyWrap
  rw [e]

theorem keyWrap_length {kek key : List Byte} {n : Nat} (hk : kek.length = 32) (hl : key.length = 8 * n) (hn : 0 < n) :
    (keyWrap kek key).length = 8 + 8 * n := by
  obtain ⟨ar, h, e, _⟩ := keyWrap_parts hk hl hn
  rw [e, List.length_append, h.1, flatten_eights _ h.2.2, h.2.1]

/-- Unwrapping a wrapped key of two or more registers gives it back. -/
theorem keyUnwrap_keyWrap {kek key : List Byte} {n : Nat} (hk : kek.length = 32) (hl : key.length = 8 * n) (hn : 2 ≤ n) :
    keyUnwrap kek (keyWrap kek key) = some key := by
  obtain ⟨ar, h, e, u⟩ := keyWrap_parts hk hl (by omega)
  have hw : (keyWrap kek key).length = 8 + 8 * n := keyWrap_length hk hl (by omega)
  have en : (keyWrap kek key).length / 8 - 1 = n := by omega
  have c := cut_flatten ar.2 ar.1 h.2.2
  rw [h.2.1, h.1] at c
  have c' : (List.range n).map (fun i => bytesAt (keyWrap kek key) (8 * (i + 1)) 8) = ar.2 := by
    rw [e]; conv => rhs; rw [← c]
    refine List.map_congr_left ?_
    intro i _; congr 1; omega
  have t : (keyWrap kek key).take 8 = ar.1 := by
    rw [e, List.take_append, h.1]
    simp [List.take_of_length_le (Nat.le_of_eq h.1)]
  unfold keyUnwrap
  simp only [en, c', t]
  rw [show (ar.1, ar.2) = ar from rfl, u]
  simp only [hw, true_and, flatten_cut n key hl]
  rw [if_pos (by omega)]

/-! ## Lengths -/

theorem foldl_keeps {α β : Type} {f : α → β → α} (P : α → Prop) (h : ∀ a b, P a → P (f a b)) (l : List β) (a : α) (ha : P a) : P (l.foldl f a) := by
  induction l generalizing a with
  | nil => exact ha
  | cons x l ih => exact ih _ (h _ _ ha)
theorem shaBlock_length {h : List (BitVec 64)} (b : List Byte) (hh : h.length = 8) : (shaBlock h b).length = 8 := by
  have r : ((List.zipWith (· + ·) shaK (shaSchedule b)).foldl shaRound h).length = 8 := by
    refine foldl_keeps (fun v : List (BitVec 64) => v.length = 8) ?_ _ _ hh
    intro v k hv
    unfold shaRound
    split
    · simp
    · exact hv
  simp [shaBlock, r, hh]
theorem sha384_length (m : List Byte) : (sha384 m).length = 48 := by
  have r : ∀ l : List Nat, ∀ p : List Byte, (l.foldl (fun h i => shaBlock h (bytesAt p (128 * i) 128)) shaH0).length = 8 := fun l p =>
    foldl_keeps (fun v : List (BitVec 64) => v.length = 8) (fun v k hv => shaBlock_length _ hv) _ _ (by decide)
  simp only [sha384, List.length_flatMap, beBytes_length, List.map_const', List.length_take, r, List.sum_replicate_nat]
  decide
theorem aesEncK_len {key s : List Byte} (hk : key.length = 32) : (aesEncK (aesKeys key) s).length = 16 := aesEncK_length (aesKeys_shape hk).1 (aesKeys_shape hk).2
theorem cmac_len {key : List Byte} (m : List Byte) (hk : key.length = 32) : (cmac key m).length = 16 := aesEncK_len hk

end Sys2Proof.Machine
end

