-- ==== Sys2Proof/Laws/Witness.lean ====
section
/-!
SUPPORT. Packets for the witnesses of claims about rows that carry one: plain packets, and packets signed under a key of zeros, the
published BLANK key (Table 15-4) or the one in the sender's slot, for which the trailer need not be computed to know that it verifies.
-/

namespace Sys2Proof.Machine

/-- A row's packet passes on a device, and a condition on the command and the device of its body holds. -/
def WitOk (sp : CmdSpec) (p : Packet) (d : Dev) (pre : Cmd → Dev → Prop) : Prop :=
  Dev.passes sp p d = true ∧ pre (Dev.cmdIn sp p d) (Dev.devIn sp p d)

theorem wit_plain (sp : CmdSpec) (p : Packet) (d : Dev) (pre : Cmd → Dev → Prop) (h : Dev.passes sp p d = true)
    (g : pre (Dev.cmdIn sp p d) (Dev.devIn sp p d)) : WitOk sp p d pre := ⟨h, g⟩

/-- A packet without the critical flag is taken on a device as a row's packet. -/
def WitTaken (sp : CmdSpec) (p : Packet) (d : Dev) : Prop := d.wellTaken (rowPacket sp p) = true ∧ p.crit = false

/-- A packet of channel 1 with a target and parameters, asking for a reply. -/
def pkt (sp : CmdSpec) (target : Nat) (ps : List Byte) : Packet :=
  { chan := 1, op := sp.op, flags := 2, target := BitVec.ofNat 32 target, params := ps, plen := ps.length, sendLen := 32 + ps.length }

/-- The same as a critical packet with counter 1, before it is signed. -/
def cpkt (sp : CmdSpec) (target : Nat) (ps : List Byte) : Packet :=
  { pkt sp target ps with flags := 3, counter := 1, sendLen := 48 + ps.length }

/-- A packet signed under the key of zeros. -/
def signed (p : Packet) : Packet := { p with trailer := cmac (zeroBytes 32) (p.header p.chan ++ p.body) }

/-- A critical packet of channel 1, signed. -/
def sg (sp : CmdSpec) (target : Nat) (ps : List Byte) : Packet := signed (cpkt sp target ps)

/-- The command and the device of the body of a packet signed under the key of zeros. -/
def signedCmd (q : Packet) (d : Dev) : Cmd := { Dev.takenCmd q d with trailed := true, key := zeroBytes 32 }
def signedDev (q : Packet) (d : Dev) : Dev :=
  ((Dev.takenBy q d).setSender q.chan { (Dev.takenBy q d).sender q.chan with rate := [(Dev.takenBy q d).now], authRun := 0 }).persist q.chan
    q.counter.toNat

/-- The trailer of a packet is under the key of zeros. -/
def zeroKeyed (q : Packet) (d : Dev) : Bool :=
  match ((Dev.takenBy q d).setSender q.chan { (Dev.takenBy q d).sender q.chan with rate := [(Dev.takenBy q d).now] }).trailerKey q.chan with
  | .ok k => k = zeroBytes 32
  | .error _ => false

/-- The conditions on which a packet signed under the key of zeros passes. -/
def signedOk (sp : CmdSpec) (p : Packet) (d : Dev) : Bool :=
  let q := signed p
  q.op = sp.op && q.crit && q.chan < 48 && zeroKeyed q d && d.host.linkUp && d.ready && 1 ≤ q.chan && (d.mbox q.chan).send.isNone && (d.mbox q.chan).asm.isNone
    && d.undelivered q.chan < 16 && (formStatus q (some sp)).1 = stOk && !q.more && !q.bulkFlag && sp.lenOk q q.body
    && ((Dev.takenBy q d).sender q.chan).rate = [] && ((Dev.takenBy q d).sender q.chan).refuseEnd.isNone
    && ((Dev.takenBy q d).sender q.chan).consumed < q.counter.toNat && ((signedDev q d).unpermitted sp (signedCmd q d)).isNone

theorem signed_verify (p : Packet) (d : Dev) (hc : p.chan < 48) (hl : zeroKeyed (signed p) d = true)
    (hr : ((Dev.takenBy (signed p) d).sender p.chan).rate = []) (he : ((Dev.takenBy (signed p) d).sender p.chan).refuseEnd.isNone = true) :
    (Dev.takenBy (signed p) d).verify (Dev.takenCmd (signed p) d) = (stOk, 0xFFFF, zeroBytes 32,
      (Dev.takenBy (signed p) d).setSender p.chan { (Dev.takenBy (signed p) d).sender p.chan with rate := [(Dev.takenBy (signed p) d).now], authRun := 0 }) := by
  have h48 : ¬ 48 ≤ p.chan := by omega
  have ht : (signed p).trailer = cmac (zeroBytes 32) ((signed p).header p.chan ++ (signed p).body) := rfl
  have hn : ∀ e : Dev, e.senderId p.chan = p.chan := by intro e; simp [Dev.senderId, h48]
  have hch : (signed p).chan = p.chan := rfl
  have hk : ((Dev.takenBy (signed p) d).setSender p.chan { (Dev.takenBy (signed p) d).sender p.chan with rate := [(Dev.takenBy (signed p) d).now] }).trailerKey
      p.chan = .ok (zeroBytes 32) := by
    unfold zeroKeyed at hl
    simp only [hch] at hl
    split at hl
    · next k e => simp only [decide_eq_true_eq] at hl; rw [e, hl]
    · cases hl
  have he' : ((Dev.takenBy (signed p) d).sender p.chan).refuseEnd.isSome = false := by
    cases h : ((Dev.takenBy (signed p) d).sender p.chan).refuseEnd <;> simp_all
  unfold Dev.verify
  simp only [Dev.takenCmd, hch, hr, List.filter_nil, List.length_nil, if_false, he', Bool.false_eq_true, (by decide : ¬ 64 ≤ 0)]
  rw [hk]
  simp only [hn, ← ht, ne_eq, not_true_eq_false, if_false, Dev.updSender, setSender_sender, setSender_setSender]

theorem signed_entry (sp : CmdSpec) (p : Packet) (d : Dev) (h : signedOk sp p d = true) :
    Dev.entryOf (rowPacket sp (signed p)) d = (signedCmd (signed p) d, signedDev (signed p) d) ∧ rowPacket sp (signed p) = signed p := by
  simp only [signedOk, Bool.and_eq_true, decide_eq_true_eq] at h
  obtain ⟨⟨⟨⟨⟨⟨⟨⟨⟨⟨⟨⟨⟨⟨⟨⟨⟨ho, hcr⟩, hch⟩, hlf⟩, hlu⟩, hrd⟩, h1⟩, hs⟩, ha⟩, hu⟩, hf⟩, hm⟩, hb⟩, hlen⟩, hr⟩, hre⟩, hcs⟩, hp⟩ := h
  have hq : rowPacket sp (signed p) = signed p := by unfold rowPacket; rw [← ho]
  refine ⟨?_, hq⟩
  rw [hq]
  unfold Dev.entryOf
  rw [if_pos hcr, signed_verify p d hch hlf hr hre]
  rfl

/-- A packet signed under the key of zeros passes. -/
theorem signed_passes (sp : CmdSpec) (p : Packet) (d : Dev) (h : signedOk sp p d = true) : Dev.passes sp (signed p) d = true := by
  obtain ⟨he, hq⟩ := signed_entry sp p d h
  rw [hq] at he
  simp only [signedOk, Bool.and_eq_true, decide_eq_true_eq] at h
  obtain ⟨⟨⟨⟨⟨⟨⟨⟨⟨⟨⟨⟨⟨⟨⟨⟨⟨ho, hcr⟩, hch⟩, hlf⟩, hlu⟩, hrd⟩, h1⟩, hs⟩, ha⟩, hu⟩, hf⟩, hm⟩, hb⟩, hlen⟩, hr⟩, hre⟩, hcs⟩, hp⟩ := h
  unfold Dev.passes
  rw [hq]
  have h64 : (signed p).chan < 64 := by omega
  have hv := signed_verify p d hch hlf hr hre
  unfold Dev.passesAs Dev.entersAs
  rw [he, hv]
  simp [hrd, h1, h64, hlu, hs, ha, hu, hf, hm, hb, hlen, hcr, hcs, hp]

theorem wit_signed (sp : CmdSpec) (p : Packet) (d : Dev) (pre : Cmd → Dev → Prop) (h : signedOk sp p d = true)
    (g : pre (signedCmd (signed p) d) (signedDev (signed p) d)) : WitOk sp (signed p) d pre := by
  refine ⟨signed_passes sp p d h, ?_⟩
  unfold Dev.cmdIn Dev.devIn
  rw [(signed_entry sp p d h).1]
  exact g

/-- The parameters of a signed packet are those it was made with. -/
theorem signed_params (sp : CmdSpec) (target : Nat) (ps : List Byte) (d : Dev) : (signedCmd (sg sp target ps) d).params = ps := by
  have e : (signedCmd (sg sp target ps) d).params = bytesAt ps 0 ps.length := rfl
  rw [e, bytesAt_inside (by omega)]; simp

theorem signedDev_enters (q : Packet) (d : Dev) : Enters d (signedDev q d) :=
  ((takenBy_enters _ _).trans (setSender_enters _ _ _)).trans (persist_enters _ _ _)

/-- Taking a packet changes no key-encryption key. -/
theorem signedDev_kek (q : Packet) (d : Dev) (scheme : Bool) (part : List Byte) (slot gen : Nat) :
    (signedDev q d).transportKek scheme part slot gen = d.transportKek scheme part slot gen := by
  have h := signedDev_enters q d
  simp only [Dev.transportKek, Dev.transportPriv, h.cru, h.rst]

/-- A result that is a value, read off by a decision. -/
theorem ok_of {α β : Type} [DecidableEq β] {x : Except α β} {t : β} (h : (match x with | .ok y => decide (y = t) | .error _ => false) = true) : x = .ok t := by
  cases x with
  | error _ => simp at h
  | ok y => simp only [decide_eq_true_eq] at h; rw [h]

end Sys2Proof.Machine
end

