-- ==== Sys2Proof/Laws/State.lean ====
section
/-!
SUPPORT. What each update of the state leaves: one lemma per field of the package and named update, the value read back from the entry just
written, and the canonical form of the sparse maps, which every map operation keeps.
-/

namespace Sys2Proof.Machine

/-! ## Sparse maps -/

/-- A canonical map read at its head: every later key lies above. -/
theorem mwf_cons {α : Type} (e : Nat × α) (m : List (Nat × α)) : mwf (e :: m) = true ↔ (∀ x ∈ m.head?, e.1 < x.1) ∧ mwf m = true := by
  cases m with
  | nil => simp [mwf]
  | cons b m => simp [mwf]

theorem mput_head {α : Type} (m : List (Nat × α)) (k : Nat) (v : α) (x : Nat × α) (h : x ∈ (mput m k v).head?) : x.1 = k ∨ x ∈ m.head? := by
  cases m with
  | nil => simp [mput] at h; exact .inl (by rw [← h])
  | cons b m =>
    simp only [mput] at h
    split at h
    · simp at h; exact .inl (by rw [← h])
    · split at h
      · simp at h; exact .inl (by rw [← h])
      · exact .inr (by simpa using h)

/-- Setting a value keeps the canonical form. -/
theorem mwf_mput {α : Type} (m : List (Nat × α)) (k : Nat) (v : α) (h : mwf m = true) : mwf (mput m k v) = true := by
  induction m with
  | nil => rfl
  | cons b m ih =>
    have hb := (mwf_cons b m).1 h
    simp only [mput]
    split
    · rename_i hk; exact (mwf_cons _ _).2 ⟨by simpa using hk, h⟩
    · split
      · rename_i hk; exact (mwf_cons _ _).2 ⟨by simpa [hk] using hb.1, hb.2⟩
      · rename_i h1 h2
        refine (mwf_cons _ _).2 ⟨?_, ih hb.2⟩
        intro x hx
        rcases mput_head m k v x hx with e | e
        · omega
        · exact hb.1 x e

/-- A map is canonical exactly when its keys rise strictly throughout. -/
theorem mwf_pairwise {α : Type} (m : List (Nat × α)) : mwf m = true ↔ m.Pairwise (fun a b => a.1 < b.1) := by
  induction m with
  | nil => simp [mwf]
  | cons b m ih =>
    rw [mwf_cons, List.pairwise_cons, ← ih]
    refine ⟨fun ⟨h, w⟩ => ⟨?_, w⟩, fun ⟨h, w⟩ => ⟨fun x hx => h x (List.mem_of_mem_head? hx), w⟩⟩
    cases m with
    | nil => simp
    | cons c m =>
      have hc : b.1 < c.1 := h c (by simp)
      have hp := List.pairwise_cons.1 (ih.1 w)
      intro x hx
      rcases List.mem_cons.1 hx with e | e
      · rw [e]; exact hc
      · exact Nat.lt_trans hc (hp.1 x e)

/-- Removing a key keeps the canonical form. -/
theorem mwf_mdel {α : Type} (m : List (Nat × α)) (k : Nat) (h : mwf m = true) : mwf (mdel m k) = true :=
  (mwf_pairwise _).2 (((mwf_pairwise _).1 h).filter _)

/-- Changing a listed value keeps the canonical form. -/
theorem mwf_mmod {α : Type} (m : List (Nat × α)) (k : Nat) (f : α → α) (h : mwf m = true) : mwf (mmod m k f) = true := by
  rw [mwf_pairwise] at h ⊢
  have e (x : Nat × α) : (if x.1 = k then (x.1, f x.2) else x).1 = x.1 := by split <;> rfl
  exact List.Pairwise.map _ (fun a b hab => by rw [e, e]; exact hab) h

/-- Setting or removing by value keeps the canonical form. -/
theorem mwf_mputD {α : Type} [DecidableEq α] (m : List (Nat × α)) (k : Nat) (v x : α) (h : mwf m = true) : mwf (mputD m k v x) = true := by
  unfold mputD; split
  · exact mwf_mdel m k h
  · exact mwf_mput m k v h

/-! ## Fields after an update -/

@[simp] theorem Dev.setTile_variant (d : Dev) (t : Nat) (x : Tile) : (d.setTile t x).variant = d.variant := rfl
@[simp] theorem Dev.setTile_time (d : Dev) (t : Nat) (x : Tile) : (d.setTile t x).time = d.time := rfl
@[simp] theorem Dev.setTile_pwr (d : Dev) (t : Nat) (x : Tile) : (d.setTile t x).pwr = d.pwr := rfl
@[simp] theorem Dev.setTile_rst (d : Dev) (t : Nat) (x : Tile) : (d.setTile t x).rst = d.rst := rfl
@[simp] theorem Dev.setTile_tiles (d : Dev) (t : Nat) (x : Tile) : (d.setTile t x).tiles = mput d.tiles t x := rfl
@[simp] theorem Dev.setTile_lanes (d : Dev) (t : Nat) (x : Tile) : (d.setTile t x).lanes = d.lanes := rfl
@[simp] theorem Dev.setTile_subs (d : Dev) (t : Nat) (x : Tile) : (d.setTile t x).subs = d.subs := rfl
@[simp] theorem Dev.setTile_trees (d : Dev) (t : Nat) (x : Tile) : (d.setTile t x).trees = d.trees := rfl
@[simp] theorem Dev.setTile_chans (d : Dev) (t : Nat) (x : Tile) : (d.setTile t x).chans = d.chans := rfl
@[simp] theorem Dev.setTile_terms (d : Dev) (t : Nat) (x : Tile) : (d.setTile t x).terms = d.terms := rfl
@[simp] theorem Dev.setTile_circuits (d : Dev) (t : Nat) (x : Tile) : (d.setTile t x).circuits = d.circuits := rfl
@[simp] theorem Dev.setTile_allocs (d : Dev) (t : Nat) (x : Tile) : (d.setTile t x).allocs = d.allocs := rfl
@[simp] theorem Dev.setTile_domW (d : Dev) (t : Nat) (x : Tile) : (d.setTile t x).domW = d.domW := rfl
@[simp] theorem Dev.setTile_domPrio (d : Dev) (t : Nat) (x : Tile) : (d.setTile t x).domPrio = d.domPrio := rfl
@[simp] theorem Dev.setTile_tdomW (d : Dev) (t : Nat) (x : Tile) : (d.setTile t x).tdomW = d.tdomW := rfl
@[simp] theorem Dev.setTile_domNext (d : Dev) (t : Nat) (x : Tile) : (d.setTile t x).domNext = d.domNext := rfl
@[simp] theorem Dev.setTile_fm (d : Dev) (t : Nat) (x : Tile) : (d.setTile t x).fm = d.fm := rfl
@[simp] theorem Dev.setTile_tables (d : Dev) (t : Nat) (x : Tile) : (d.setTile t x).tables = d.tables := rfl
@[simp] theorem Dev.setTile_profiles (d : Dev) (t : Nat) (x : Tile) : (d.setTile t x).profiles = d.profiles := rfl
@[simp] theorem Dev.setTile_lookups (d : Dev) (t : Nat) (x : Tile) : (d.setTile t x).lookups = d.lookups := rfl
@[simp] theorem Dev.setTile_spreads (d : Dev) (t : Nat) (x : Tile) : (d.setTile t x).spreads = d.spreads := rfl
@[simp] theorem Dev.setTile_mirrors (d : Dev) (t : Nat) (x : Tile) : (d.setTile t x).mirrors = d.mirrors := rfl
@[simp] theorem Dev.setTile_binds (d : Dev) (t : Nat) (x : Tile) : (d.setTile t x).binds = d.binds := rfl
@[simp] theorem Dev.setTile_cls (d : Dev) (t : Nat) (x : Tile) : (d.setTile t x).cls = d.cls := rfl
@[simp] theorem Dev.setTile_cursors (d : Dev) (t : Nat) (x : Tile) : (d.setTile t x).cursors = d.cursors := rfl
@[simp] theorem Dev.setTile_tac (d : Dev) (t : Nat) (x : Tile) : (d.setTile t x).tac = d.tac := rfl
@[simp] theorem Dev.setTile_tacDone (d : Dev) (t : Nat) (x : Tile) : (d.setTile t x).tacDone = d.tacDone := rfl
@[simp] theorem Dev.setTile_queues (d : Dev) (t : Nat) (x : Tile) : (d.setTile t x).queues = d.queues := rfl
@[simp] theorem Dev.setTile_nodes (d : Dev) (t : Nat) (x : Tile) : (d.setTile t x).nodes = d.nodes := rfl
@[simp] theorem Dev.setTile_shapers (d : Dev) (t : Nat) (x : Tile) : (d.setTile t x).shapers = d.shapers := rfl
@[simp] theorem Dev.setTile_shaperNext (d : Dev) (t : Nat) (x : Tile) : (d.setTile t x).shaperNext = d.shaperNext := rfl
@[simp] theorem Dev.setTile_meters (d : Dev) (t : Nat) (x : Tile) : (d.setTile t x).meters = d.meters := rfl
@[simp] theorem Dev.setTile_meterNext (d : Dev) (t : Nat) (x : Tile) : (d.setTile t x).meterNext = d.meterNext := rfl
@[simp] theorem Dev.setTile_gates (d : Dev) (t : Nat) (x : Tile) : (d.setTile t x).gates = d.gates := rfl
@[simp] theorem Dev.setTile_gateNext (d : Dev) (t : Nat) (x : Tile) : (d.setTile t x).gateNext = d.gateNext := rfl
@[simp] theorem Dev.setTile_pools (d : Dev) (t : Nat) (x : Tile) : (d.setTile t x).pools = d.pools := rfl
@[simp] theorem Dev.setTile_msec (d : Dev) (t : Nat) (x : Tile) : (d.setTile t x).msec = d.msec := rfl
@[simp] theorem Dev.setTile_pon (d : Dev) (t : Nat) (x : Tile) : (d.setTile t x).pon = d.pon := rfl
@[simp] theorem Dev.setTile_cru (d : Dev) (t : Nat) (x : Tile) : (d.setTile t x).cru = d.cru := rfl
@[simp] theorem Dev.setTile_chk (d : Dev) (t : Nat) (x : Tile) : (d.setTile t x).chk = d.chk := rfl
@[simp] theorem Dev.setTile_chkNo (d : Dev) (t : Nat) (x : Tile) : (d.setTile t x).chkNo = d.chkNo := rfl
@[simp] theorem Dev.setTile_host (d : Dev) (t : Nat) (x : Tile) : (d.setTile t x).host = d.host := rfl
@[simp] theorem Dev.setTile_senders (d : Dev) (t : Nat) (x : Tile) : (d.setTile t x).senders = d.senders := rfl
@[simp] theorem Dev.setTile_join (d : Dev) (t : Nat) (x : Tile) : (d.setTile t x).join = d.join := rfl
@[simp] theorem Dev.setTile_groups (d : Dev) (t : Nat) (x : Tile) : (d.setTile t x).groups = d.groups := rfl
@[simp] theorem Dev.setTile_leaseSeen (d : Dev) (t : Nat) (x : Tile) : (d.setTile t x).leaseSeen = d.leaseSeen := rfl
@[simp] theorem Dev.setTile_flt (d : Dev) (t : Nat) (x : Tile) : (d.setTile t x).flt = d.flt := rfl
@[simp] theorem Dev.setTile_asy (d : Dev) (t : Nat) (x : Tile) : (d.setTile t x).asy = d.asy := rfl
@[simp] theorem Dev.setTile_cnt (d : Dev) (t : Nat) (x : Tile) : (d.setTile t x).cnt = d.cnt := rfl
@[simp] theorem Dev.setTile_regs (d : Dev) (t : Nat) (x : Tile) : (d.setTile t x).regs = d.regs := rfl
@[simp] theorem Dev.setTile_lastRead (d : Dev) (t : Nat) (x : Tile) : (d.setTile t x).lastRead = d.lastRead := rfl
@[simp] theorem Dev.setTile_out (d : Dev) (t : Nat) (x : Tile) : (d.setTile t x).out = d.out := rfl
@[simp] theorem Dev.setTile_freeCtr (d : Dev) (t : Nat) (x : Tile) : (d.setTile t x).freeCtr = d.freeCtr := rfl

@[simp] theorem Dev.setLane_variant (d : Dev) (t l : Nat) (x : Lane) : (d.setLane t l x).variant = d.variant := rfl
@[simp] theorem Dev.setLane_time (d : Dev) (t l : Nat) (x : Lane) : (d.setLane t l x).time = d.time := rfl
@[simp] theorem Dev.setLane_pwr (d : Dev) (t l : Nat) (x : Lane) : (d.setLane t l x).pwr = d.pwr := rfl
@[simp] theorem Dev.setLane_rst (d : Dev) (t l : Nat) (x : Lane) : (d.setLane t l x).rst = d.rst := rfl
@[simp] theorem Dev.setLane_tiles (d : Dev) (t l : Nat) (x : Lane) : (d.setLane t l x).tiles = d.tiles := rfl
@[simp] theorem Dev.setLane_lanes (d : Dev) (t l : Nat) (x : Lane) : (d.setLane t l x).lanes = mput d.lanes (laneKey t l) x := rfl
@[simp] theorem Dev.setLane_subs (d : Dev) (t l : Nat) (x : Lane) : (d.setLane t l x).subs = d.subs := rfl
@[simp] theorem Dev.setLane_trees (d : Dev) (t l : Nat) (x : Lane) : (d.setLane t l x).trees = d.trees := rfl
@[simp] theorem Dev.setLane_chans (d : Dev) (t l : Nat) (x : Lane) : (d.setLane t l x).chans = d.chans := rfl
@[simp] theorem Dev.setLane_terms (d : Dev) (t l : Nat) (x : Lane) : (d.setLane t l x).terms = d.terms := rfl
@[simp] theorem Dev.setLane_circuits (d : Dev) (t l : Nat) (x : Lane) : (d.setLane t l x).circuits = d.circuits := rfl
@[simp] theorem Dev.setLane_allocs (d : Dev) (t l : Nat) (x : Lane) : (d.setLane t l x).allocs = d.allocs := rfl
@[simp] theorem Dev.setLane_domW (d : Dev) (t l : Nat) (x : Lane) : (d.setLane t l x).domW = d.domW := rfl
@[simp] theorem Dev.setLane_domPrio (d : Dev) (t l : Nat) (x : Lane) : (d.setLane t l x).domPrio = d.domPrio := rfl
@[simp] theorem Dev.setLane_tdomW (d : Dev) (t l : Nat) (x : Lane) : (d.setLane t l x).tdomW = d.tdomW := rfl
@[simp] theorem Dev.setLane_domNext (d : Dev) (t l : Nat) (x : Lane) : (d.setLane t l x).domNext = d.domNext := rfl
@[simp] theorem Dev.setLane_fm (d : Dev) (t l : Nat) (x : Lane) : (d.setLane t l x).fm = d.fm := rfl
@[simp] theorem Dev.setLane_tables (d : Dev) (t l : Nat) (x : Lane) : (d.setLane t l x).tables = d.tables := rfl
@[simp] theorem Dev.setLane_profiles (d : Dev) (t l : Nat) (x : Lane) : (d.setLane t l x).profiles = d.profiles := rfl
@[simp] theorem Dev.setLane_lookups (d : Dev) (t l : Nat) (x : Lane) : (d.setLane t l x).lookups = d.lookups := rfl
@[simp] theorem Dev.setLane_spreads (d : Dev) (t l : Nat) (x : Lane) : (d.setLane t l x).spreads = d.spreads := rfl
@[simp] theorem Dev.setLane_mirrors (d : Dev) (t l : Nat) (x : Lane) : (d.setLane t l x).mirrors = d.mirrors := rfl
@[simp] theorem Dev.setLane_binds (d : Dev) (t l : Nat) (x : Lane) : (d.setLane t l x).binds = d.binds := rfl
@[simp] theorem Dev.setLane_cls (d : Dev) (t l : Nat) (x : Lane) : (d.setLane t l x).cls = d.cls := rfl
@[simp] theorem Dev.setLane_cursors (d : Dev) (t l : Nat) (x : Lane) : (d.setLane t l x).cursors = d.cursors := rfl
@[simp] theorem Dev.setLane_tac (d : Dev) (t l : Nat) (x : Lane) : (d.setLane t l x).tac = d.tac := rfl
@[simp] theorem Dev.setLane_tacDone (d : Dev) (t l : Nat) (x : Lane) : (d.setLane t l x).tacDone = d.tacDone := rfl
@[simp] theorem Dev.setLane_queues (d : Dev) (t l : Nat) (x : Lane) : (d.setLane t l x).queues = d.queues := rfl
@[simp] theorem Dev.setLane_nodes (d : Dev) (t l : Nat) (x : Lane) : (d.setLane t l x).nodes = d.nodes := rfl
@[simp] theorem Dev.setLane_shapers (d : Dev) (t l : Nat) (x : Lane) : (d.setLane t l x).shapers = d.shapers := rfl
@[simp] theorem Dev.setLane_shaperNext (d : Dev) (t l : Nat) (x : Lane) : (d.setLane t l x).shaperNext = d.shaperNext := rfl
@[simp] theorem Dev.setLane_meters (d : Dev) (t l : Nat) (x : Lane) : (d.setLane t l x).meters = d.meters := rfl
@[simp] theorem Dev.setLane_meterNext (d : Dev) (t l : Nat) (x : Lane) : (d.setLane t l x).meterNext = d.meterNext := rfl
@[simp] theorem Dev.setLane_gates (d : Dev) (t l : Nat) (x : Lane) : (d.setLane t l x).gates = d.gates := rfl
@[simp] theorem Dev.setLane_gateNext (d : Dev) (t l : Nat) (x : Lane) : (d.setLane t l x).gateNext = d.gateNext := rfl
@[simp] theorem Dev.setLane_pools (d : Dev) (t l : Nat) (x : Lane) : (d.setLane t l x).pools = d.pools := rfl
@[simp] theorem Dev.setLane_msec (d : Dev) (t l : Nat) (x : Lane) : (d.setLane t l x).msec = d.msec := rfl
@[simp] theorem Dev.setLane_pon (d : Dev) (t l : Nat) (x : Lane) : (d.setLane t l x).pon = d.pon := rfl
@[simp] theorem Dev.setLane_cru (d : Dev) (t l : Nat) (x : Lane) : (d.setLane t l x).cru = d.cru := rfl
@[simp] theorem Dev.setLane_chk (d : Dev) (t l : Nat) (x : Lane) : (d.setLane t l x).chk = d.chk := rfl
@[simp] theorem Dev.setLane_chkNo (d : Dev) (t l : Nat) (x : Lane) : (d.setLane t l x).chkNo = d.chkNo := rfl
@[simp] theorem Dev.setLane_host (d : Dev) (t l : Nat) (x : Lane) : (d.setLane t l x).host = d.host := rfl
@[simp] theorem Dev.setLane_senders (d : Dev) (t l : Nat) (x : Lane) : (d.setLane t l x).senders = d.senders := rfl
@[simp] theorem Dev.setLane_join (d : Dev) (t l : Nat) (x : Lane) : (d.setLane t l x).join = d.join := rfl
@[simp] theorem Dev.setLane_groups (d : Dev) (t l : Nat) (x : Lane) : (d.setLane t l x).groups = d.groups := rfl
@[simp] theorem Dev.setLane_leaseSeen (d : Dev) (t l : Nat) (x : Lane) : (d.setLane t l x).leaseSeen = d.leaseSeen := rfl
@[simp] theorem Dev.setLane_flt (d : Dev) (t l : Nat) (x : Lane) : (d.setLane t l x).flt = d.flt := rfl
@[simp] theorem Dev.setLane_asy (d : Dev) (t l : Nat) (x : Lane) : (d.setLane t l x).asy = d.asy := rfl
@[simp] theorem Dev.setLane_cnt (d : Dev) (t l : Nat) (x : Lane) : (d.setLane t l x).cnt = d.cnt := rfl
@[simp] theorem Dev.setLane_regs (d : Dev) (t l : Nat) (x : Lane) : (d.setLane t l x).regs = d.regs := rfl
@[simp] theorem Dev.setLane_lastRead (d : Dev) (t l : Nat) (x : Lane) : (d.setLane t l x).lastRead = d.lastRead := rfl
@[simp] theorem Dev.setLane_out (d : Dev) (t l : Nat) (x : Lane) : (d.setLane t l x).out = d.out := rfl
@[simp] theorem Dev.setLane_freeCtr (d : Dev) (t l : Nat) (x : Lane) : (d.setLane t l x).freeCtr = d.freeCtr := rfl

@[simp] theorem Dev.setSub_variant (d : Dev) (p : Nat) (x : SubPort) : (d.setSub p x).variant = d.variant := rfl
@[simp] theorem Dev.setSub_time (d : Dev) (p : Nat) (x : SubPort) : (d.setSub p x).time = d.time := rfl
@[simp] theorem Dev.setSub_pwr (d : Dev) (p : Nat) (x : SubPort) : (d.setSub p x).pwr = d.pwr := rfl
@[simp] theorem Dev.setSub_rst (d : Dev) (p : Nat) (x : SubPort) : (d.setSub p x).rst = d.rst := rfl
@[simp] theorem Dev.setSub_tiles (d : Dev) (p : Nat) (x : SubPort) : (d.setSub p x).tiles = d.tiles := rfl
@[simp] theorem Dev.setSub_lanes (d : Dev) (p : Nat) (x : SubPort) : (d.setSub p x).lanes = d.lanes := rfl
@[simp] theorem Dev.setSub_subs (d : Dev) (p : Nat) (x : SubPort) : (d.setSub p x).subs = mput d.subs p x := rfl
@[simp] theorem Dev.setSub_trees (d : Dev) (p : Nat) (x : SubPort) : (d.setSub p x).trees = d.trees := rfl
@[simp] theorem Dev.setSub_chans (d : Dev) (p : Nat) (x : SubPort) : (d.setSub p x).chans = d.chans := rfl
@[simp] theorem Dev.setSub_terms (d : Dev) (p : Nat) (x : SubPort) : (d.setSub p x).terms = d.terms := rfl
@[simp] theorem Dev.setSub_circuits (d : Dev) (p : Nat) (x : SubPort) : (d.setSub p x).circuits = d.circuits := rfl
@[simp] theorem Dev.setSub_allocs (d : Dev) (p : Nat) (x : SubPort) : (d.setSub p x).allocs = d.allocs := rfl
@[simp] theorem Dev.setSub_domW (d : Dev) (p : Nat) (x : SubPort) : (d.setSub p x).domW = d.domW := rfl
@[simp] theorem Dev.setSub_domPrio (d : Dev) (p : Nat) (x : SubPort) : (d.setSub p x).domPrio = d.domPrio := rfl
@[simp] theorem Dev.setSub_tdomW (d : Dev) (p : Nat) (x : SubPort) : (d.setSub p x).tdomW = d.tdomW := rfl
@[simp] theorem Dev.setSub_domNext (d : Dev) (p : Nat) (x : SubPort) : (d.setSub p x).domNext = d.domNext := rfl
@[simp] theorem Dev.setSub_fm (d : Dev) (p : Nat) (x : SubPort) : (d.setSub p x).fm = d.fm := rfl
@[simp] theorem Dev.setSub_tables (d : Dev) (p : Nat) (x : SubPort) : (d.setSub p x).tables = d.tables := rfl
@[simp] theorem Dev.setSub_profiles (d : Dev) (p : Nat) (x : SubPort) : (d.setSub p x).profiles = d.profiles := rfl
@[simp] theorem Dev.setSub_lookups (d : Dev) (p : Nat) (x : SubPort) : (d.setSub p x).lookups = d.lookups := rfl
@[simp] theorem Dev.setSub_spreads (d : Dev) (p : Nat) (x : SubPort) : (d.setSub p x).spreads = d.spreads := rfl
@[simp] theorem Dev.setSub_mirrors (d : Dev) (p : Nat) (x : SubPort) : (d.setSub p x).mirrors = d.mirrors := rfl
@[simp] theorem Dev.setSub_binds (d : Dev) (p : Nat) (x : SubPort) : (d.setSub p x).binds = d.binds := rfl
@[simp] theorem Dev.setSub_cls (d : Dev) (p : Nat) (x : SubPort) : (d.setSub p x).cls = d.cls := rfl
@[simp] theorem Dev.setSub_cursors (d : Dev) (p : Nat) (x : SubPort) : (d.setSub p x).cursors = d.cursors := rfl
@[simp] theorem Dev.setSub_tac (d : Dev) (p : Nat) (x : SubPort) : (d.setSub p x).tac = d.tac := rfl
@[simp] theorem Dev.setSub_tacDone (d : Dev) (p : Nat) (x : SubPort) : (d.setSub p x).tacDone = d.tacDone := rfl
@[simp] theorem Dev.setSub_queues (d : Dev) (p : Nat) (x : SubPort) : (d.setSub p x).queues = d.queues := rfl
@[simp] theorem Dev.setSub_nodes (d : Dev) (p : Nat) (x : SubPort) : (d.setSub p x).nodes = d.nodes := rfl
@[simp] theorem Dev.setSub_shapers (d : Dev) (p : Nat) (x : SubPort) : (d.setSub p x).shapers = d.shapers := rfl
@[simp] theorem Dev.setSub_shaperNext (d : Dev) (p : Nat) (x : SubPort) : (d.setSub p x).shaperNext = d.shaperNext := rfl
@[simp] theorem Dev.setSub_meters (d : Dev) (p : Nat) (x : SubPort) : (d.setSub p x).meters = d.meters := rfl
@[simp] theorem Dev.setSub_meterNext (d : Dev) (p : Nat) (x : SubPort) : (d.setSub p x).meterNext = d.meterNext := rfl
@[simp] theorem Dev.setSub_gates (d : Dev) (p : Nat) (x : SubPort) : (d.setSub p x).gates = d.gates := rfl
@[simp] theorem Dev.setSub_gateNext (d : Dev) (p : Nat) (x : SubPort) : (d.setSub p x).gateNext = d.gateNext := rfl
@[simp] theorem Dev.setSub_pools (d : Dev) (p : Nat) (x : SubPort) : (d.setSub p x).pools = d.pools := rfl
@[simp] theorem Dev.setSub_msec (d : Dev) (p : Nat) (x : SubPort) : (d.setSub p x).msec = d.msec := rfl
@[simp] theorem Dev.setSub_pon (d : Dev) (p : Nat) (x : SubPort) : (d.setSub p x).pon = d.pon := rfl
@[simp] theorem Dev.setSub_cru (d : Dev) (p : Nat) (x : SubPort) : (d.setSub p x).cru = d.cru := rfl
@[simp] theorem Dev.setSub_chk (d : Dev) (p : Nat) (x : SubPort) : (d.setSub p x).chk = d.chk := rfl
@[simp] theorem Dev.setSub_chkNo (d : Dev) (p : Nat) (x : SubPort) : (d.setSub p x).chkNo = d.chkNo := rfl
@[simp] theorem Dev.setSub_host (d : Dev) (p : Nat) (x : SubPort) : (d.setSub p x).host = d.host := rfl
@[simp] theorem Dev.setSub_senders (d : Dev) (p : Nat) (x : SubPort) : (d.setSub p x).senders = d.senders := rfl
@[simp] theorem Dev.setSub_join (d : Dev) (p : Nat) (x : SubPort) : (d.setSub p x).join = d.join := rfl
@[simp] theorem Dev.setSub_groups (d : Dev) (p : Nat) (x : SubPort) : (d.setSub p x).groups = d.groups := rfl
@[simp] theorem Dev.setSub_leaseSeen (d : Dev) (p : Nat) (x : SubPort) : (d.setSub p x).leaseSeen = d.leaseSeen := rfl
@[simp] theorem Dev.setSub_flt (d : Dev) (p : Nat) (x : SubPort) : (d.setSub p x).flt = d.flt := rfl
@[simp] theorem Dev.setSub_asy (d : Dev) (p : Nat) (x : SubPort) : (d.setSub p x).asy = d.asy := rfl
@[simp] theorem Dev.setSub_cnt (d : Dev) (p : Nat) (x : SubPort) : (d.setSub p x).cnt = d.cnt := rfl
@[simp] theorem Dev.setSub_regs (d : Dev) (p : Nat) (x : SubPort) : (d.setSub p x).regs = d.regs := rfl
@[simp] theorem Dev.setSub_lastRead (d : Dev) (p : Nat) (x : SubPort) : (d.setSub p x).lastRead = d.lastRead := rfl
@[simp] theorem Dev.setSub_out (d : Dev) (p : Nat) (x : SubPort) : (d.setSub p x).out = d.out := rfl
@[simp] theorem Dev.setSub_freeCtr (d : Dev) (p : Nat) (x : SubPort) : (d.setSub p x).freeCtr = d.freeCtr := rfl

@[simp] theorem Dev.setTree_variant (d : Dev) (t : Nat) (x : Tree) : (d.setTree t x).variant = d.variant := rfl
@[simp] theorem Dev.setTree_time (d : Dev) (t : Nat) (x : Tree) : (d.setTree t x).time = d.time := rfl
@[simp] theorem Dev.setTree_pwr (d : Dev) (t : Nat) (x : Tree) : (d.setTree t x).pwr = d.pwr := rfl
@[simp] theorem Dev.setTree_rst (d : Dev) (t : Nat) (x : Tree) : (d.setTree t x).rst = d.rst := rfl
@[simp] theorem Dev.setTree_tiles (d : Dev) (t : Nat) (x : Tree) : (d.setTree t x).tiles = d.tiles := rfl
@[simp] theorem Dev.setTree_lanes (d : Dev) (t : Nat) (x : Tree) : (d.setTree t x).lanes = d.lanes := rfl
@[simp] theorem Dev.setTree_subs (d : Dev) (t : Nat) (x : Tree) : (d.setTree t x).subs = d.subs := rfl
@[simp] theorem Dev.setTree_trees (d : Dev) (t : Nat) (x : Tree) : (d.setTree t x).trees = mput d.trees t x := rfl
@[simp] theorem Dev.setTree_chans (d : Dev) (t : Nat) (x : Tree) : (d.setTree t x).chans = d.chans := rfl
@[simp] theorem Dev.setTree_terms (d : Dev) (t : Nat) (x : Tree) : (d.setTree t x).terms = d.terms := rfl
@[simp] theorem Dev.setTree_circuits (d : Dev) (t : Nat) (x : Tree) : (d.setTree t x).circuits = d.circuits := rfl
@[simp] theorem Dev.setTree_allocs (d : Dev) (t : Nat) (x : Tree) : (d.setTree t x).allocs = d.allocs := rfl
@[simp] theorem Dev.setTree_domW (d : Dev) (t : Nat) (x : Tree) : (d.setTree t x).domW = d.domW := rfl
@[simp] theorem Dev.setTree_domPrio (d : Dev) (t : Nat) (x : Tree) : (d.setTree t x).domPrio = d.domPrio := rfl
@[simp] theorem Dev.setTree_tdomW (d : Dev) (t : Nat) (x : Tree) : (d.setTree t x).tdomW = d.tdomW := rfl
@[simp] theorem Dev.setTree_domNext (d : Dev) (t : Nat) (x : Tree) : (d.setTree t x).domNext = d.domNext := rfl
@[simp] theorem Dev.setTree_fm (d : Dev) (t : Nat) (x : Tree) : (d.setTree t x).fm = d.fm := rfl
@[simp] theorem Dev.setTree_tables (d : Dev) (t : Nat) (x : Tree) : (d.setTree t x).tables = d.tables := rfl
@[simp] theorem Dev.setTree_profiles (d : Dev) (t : Nat) (x : Tree) : (d.setTree t x).profiles = d.profiles := rfl
@[simp] theorem Dev.setTree_lookups (d : Dev) (t : Nat) (x : Tree) : (d.setTree t x).lookups = d.lookups := rfl
@[simp] theorem Dev.setTree_spreads (d : Dev) (t : Nat) (x : Tree) : (d.setTree t x).spreads = d.spreads := rfl
@[simp] theorem Dev.setTree_mirrors (d : Dev) (t : Nat) (x : Tree) : (d.setTree t x).mirrors = d.mirrors := rfl
@[simp] theorem Dev.setTree_binds (d : Dev) (t : Nat) (x : Tree) : (d.setTree t x).binds = d.binds := rfl
@[simp] theorem Dev.setTree_cls (d : Dev) (t : Nat) (x : Tree) : (d.setTree t x).cls = d.cls := rfl
@[simp] theorem Dev.setTree_cursors (d : Dev) (t : Nat) (x : Tree) : (d.setTree t x).cursors = d.cursors := rfl
@[simp] theorem Dev.setTree_tac (d : Dev) (t : Nat) (x : Tree) : (d.setTree t x).tac = d.tac := rfl
@[simp] theorem Dev.setTree_tacDone (d : Dev) (t : Nat) (x : Tree) : (d.setTree t x).tacDone = d.tacDone := rfl
@[simp] theorem Dev.setTree_queues (d : Dev) (t : Nat) (x : Tree) : (d.setTree t x).queues = d.queues := rfl
@[simp] theorem Dev.setTree_nodes (d : Dev) (t : Nat) (x : Tree) : (d.setTree t x).nodes = d.nodes := rfl
@[simp] theorem Dev.setTree_shapers (d : Dev) (t : Nat) (x : Tree) : (d.setTree t x).shapers = d.shapers := rfl
@[simp] theorem Dev.setTree_shaperNext (d : Dev) (t : Nat) (x : Tree) : (d.setTree t x).shaperNext = d.shaperNext := rfl
@[simp] theorem Dev.setTree_meters (d : Dev) (t : Nat) (x : Tree) : (d.setTree t x).meters = d.meters := rfl
@[simp] theorem Dev.setTree_meterNext (d : Dev) (t : Nat) (x : Tree) : (d.setTree t x).meterNext = d.meterNext := rfl
@[simp] theorem Dev.setTree_gates (d : Dev) (t : Nat) (x : Tree) : (d.setTree t x).gates = d.gates := rfl
@[simp] theorem Dev.setTree_gateNext (d : Dev) (t : Nat) (x : Tree) : (d.setTree t x).gateNext = d.gateNext := rfl
@[simp] theorem Dev.setTree_pools (d : Dev) (t : Nat) (x : Tree) : (d.setTree t x).pools = d.pools := rfl
@[simp] theorem Dev.setTree_msec (d : Dev) (t : Nat) (x : Tree) : (d.setTree t x).msec = d.msec := rfl
@[simp] theorem Dev.setTree_pon (d : Dev) (t : Nat) (x : Tree) : (d.setTree t x).pon = d.pon := rfl
@[simp] theorem Dev.setTree_cru (d : Dev) (t : Nat) (x : Tree) : (d.setTree t x).cru = d.cru := rfl
@[simp] theorem Dev.setTree_chk (d : Dev) (t : Nat) (x : Tree) : (d.setTree t x).chk = d.chk := rfl
@[simp] theorem Dev.setTree_chkNo (d : Dev) (t : Nat) (x : Tree) : (d.setTree t x).chkNo = d.chkNo := rfl
@[simp] theorem Dev.setTree_host (d : Dev) (t : Nat) (x : Tree) : (d.setTree t x).host = d.host := rfl
@[simp] theorem Dev.setTree_senders (d : Dev) (t : Nat) (x : Tree) : (d.setTree t x).senders = d.senders := rfl
@[simp] theorem Dev.setTree_join (d : Dev) (t : Nat) (x : Tree) : (d.setTree t x).join = d.join := rfl
@[simp] theorem Dev.setTree_groups (d : Dev) (t : Nat) (x : Tree) : (d.setTree t x).groups = d.groups := rfl
@[simp] theorem Dev.setTree_leaseSeen (d : Dev) (t : Nat) (x : Tree) : (d.setTree t x).leaseSeen = d.leaseSeen := rfl
@[simp] theorem Dev.setTree_flt (d : Dev) (t : Nat) (x : Tree) : (d.setTree t x).flt = d.flt := rfl
@[simp] theorem Dev.setTree_asy (d : Dev) (t : Nat) (x : Tree) : (d.setTree t x).asy = d.asy := rfl
@[simp] theorem Dev.setTree_cnt (d : Dev) (t : Nat) (x : Tree) : (d.setTree t x).cnt = d.cnt := rfl
@[simp] theorem Dev.setTree_regs (d : Dev) (t : Nat) (x : Tree) : (d.setTree t x).regs = d.regs := rfl
@[simp] theorem Dev.setTree_lastRead (d : Dev) (t : Nat) (x : Tree) : (d.setTree t x).lastRead = d.lastRead := rfl
@[simp] theorem Dev.setTree_out (d : Dev) (t : Nat) (x : Tree) : (d.setTree t x).out = d.out := rfl
@[simp] theorem Dev.setTree_freeCtr (d : Dev) (t : Nat) (x : Tree) : (d.setTree t x).freeCtr = d.freeCtr := rfl

@[simp] theorem Dev.setChan_variant (d : Dev) (c : Nat) (x : Chan) : (d.setChan c x).variant = d.variant := rfl
@[simp] theorem Dev.setChan_time (d : Dev) (c : Nat) (x : Chan) : (d.setChan c x).time = d.time := rfl
@[simp] theorem Dev.setChan_pwr (d : Dev) (c : Nat) (x : Chan) : (d.setChan c x).pwr = d.pwr := rfl
@[simp] theorem Dev.setChan_rst (d : Dev) (c : Nat) (x : Chan) : (d.setChan c x).rst = d.rst := rfl
@[simp] theorem Dev.setChan_tiles (d : Dev) (c : Nat) (x : Chan) : (d.setChan c x).tiles = d.tiles := rfl
@[simp] theorem Dev.setChan_lanes (d : Dev) (c : Nat) (x : Chan) : (d.setChan c x).lanes = d.lanes := rfl
@[simp] theorem Dev.setChan_subs (d : Dev) (c : Nat) (x : Chan) : (d.setChan c x).subs = d.subs := rfl
@[simp] theorem Dev.setChan_trees (d : Dev) (c : Nat) (x : Chan) : (d.setChan c x).trees = d.trees := rfl
@[simp] theorem Dev.setChan_chans (d : Dev) (c : Nat) (x : Chan) : (d.setChan c x).chans = mput d.chans c x := rfl
@[simp] theorem Dev.setChan_terms (d : Dev) (c : Nat) (x : Chan) : (d.setChan c x).terms = d.terms := rfl
@[simp] theorem Dev.setChan_circuits (d : Dev) (c : Nat) (x : Chan) : (d.setChan c x).circuits = d.circuits := rfl
@[simp] theorem Dev.setChan_allocs (d : Dev) (c : Nat) (x : Chan) : (d.setChan c x).allocs = d.allocs := rfl
@[simp] theorem Dev.setChan_domW (d : Dev) (c : Nat) (x : Chan) : (d.setChan c x).domW = d.domW := rfl
@[simp] theorem Dev.setChan_domPrio (d : Dev) (c : Nat) (x : Chan) : (d.setChan c x).domPrio = d.domPrio := rfl
@[simp] theorem Dev.setChan_tdomW (d : Dev) (c : Nat) (x : Chan) : (d.setChan c x).tdomW = d.tdomW := rfl
@[simp] theorem Dev.setChan_domNext (d : Dev) (c : Nat) (x : Chan) : (d.setChan c x).domNext = d.domNext := rfl
@[simp] theorem Dev.setChan_fm (d : Dev) (c : Nat) (x : Chan) : (d.setChan c x).fm = d.fm := rfl
@[simp] theorem Dev.setChan_tables (d : Dev) (c : Nat) (x : Chan) : (d.setChan c x).tables = d.tables := rfl
@[simp] theorem Dev.setChan_profiles (d : Dev) (c : Nat) (x : Chan) : (d.setChan c x).profiles = d.profiles := rfl
@[simp] theorem Dev.setChan_lookups (d : Dev) (c : Nat) (x : Chan) : (d.setChan c x).lookups = d.lookups := rfl
@[simp] theorem Dev.setChan_spreads (d : Dev) (c : Nat) (x : Chan) : (d.setChan c x).spreads = d.spreads := rfl
@[simp] theorem Dev.setChan_mirrors (d : Dev) (c : Nat) (x : Chan) : (d.setChan c x).mirrors = d.mirrors := rfl
@[simp] theorem Dev.setChan_binds (d : Dev) (c : Nat) (x : Chan) : (d.setChan c x).binds = d.binds := rfl
@[simp] theorem Dev.setChan_cls (d : Dev) (c : Nat) (x : Chan) : (d.setChan c x).cls = d.cls := rfl
@[simp] theorem Dev.setChan_cursors (d : Dev) (c : Nat) (x : Chan) : (d.setChan c x).cursors = d.cursors := rfl
@[simp] theorem Dev.setChan_tac (d : Dev) (c : Nat) (x : Chan) : (d.setChan c x).tac = d.tac := rfl
@[simp] theorem Dev.setChan_tacDone (d : Dev) (c : Nat) (x : Chan) : (d.setChan c x).tacDone = d.tacDone := rfl
@[simp] theorem Dev.setChan_queues (d : Dev) (c : Nat) (x : Chan) : (d.setChan c x).queues = d.queues := rfl
@[simp] theorem Dev.setChan_nodes (d : Dev) (c : Nat) (x : Chan) : (d.setChan c x).nodes = d.nodes := rfl
@[simp] theorem Dev.setChan_shapers (d : Dev) (c : Nat) (x : Chan) : (d.setChan c x).shapers = d.shapers := rfl
@[simp] theorem Dev.setChan_shaperNext (d : Dev) (c : Nat) (x : Chan) : (d.setChan c x).shaperNext = d.shaperNext := rfl
@[simp] theorem Dev.setChan_meters (d : Dev) (c : Nat) (x : Chan) : (d.setChan c x).meters = d.meters := rfl
@[simp] theorem Dev.setChan_meterNext (d : Dev) (c : Nat) (x : Chan) : (d.setChan c x).meterNext = d.meterNext := rfl
@[simp] theorem Dev.setChan_gates (d : Dev) (c : Nat) (x : Chan) : (d.setChan c x).gates = d.gates := rfl
@[simp] theorem Dev.setChan_gateNext (d : Dev) (c : Nat) (x : Chan) : (d.setChan c x).gateNext = d.gateNext := rfl
@[simp] theorem Dev.setChan_pools (d : Dev) (c : Nat) (x : Chan) : (d.setChan c x).pools = d.pools := rfl
@[simp] theorem Dev.setChan_msec (d : Dev) (c : Nat) (x : Chan) : (d.setChan c x).msec = d.msec := rfl
@[simp] theorem Dev.setChan_pon (d : Dev) (c : Nat) (x : Chan) : (d.setChan c x).pon = d.pon := rfl
@[simp] theorem Dev.setChan_cru (d : Dev) (c : Nat) (x : Chan) : (d.setChan c x).cru = d.cru := rfl
@[simp] theorem Dev.setChan_chk (d : Dev) (c : Nat) (x : Chan) : (d.setChan c x).chk = d.chk := rfl
@[simp] theorem Dev.setChan_chkNo (d : Dev) (c : Nat) (x : Chan) : (d.setChan c x).chkNo = d.chkNo := rfl
@[simp] theorem Dev.setChan_host (d : Dev) (c : Nat) (x : Chan) : (d.setChan c x).host = d.host := rfl
@[simp] theorem Dev.setChan_senders (d : Dev) (c : Nat) (x : Chan) : (d.setChan c x).senders = d.senders := rfl
@[simp] theorem Dev.setChan_join (d : Dev) (c : Nat) (x : Chan) : (d.setChan c x).join = d.join := rfl
@[simp] theorem Dev.setChan_groups (d : Dev) (c : Nat) (x : Chan) : (d.setChan c x).groups = d.groups := rfl
@[simp] theorem Dev.setChan_leaseSeen (d : Dev) (c : Nat) (x : Chan) : (d.setChan c x).leaseSeen = d.leaseSeen := rfl
@[simp] theorem Dev.setChan_flt (d : Dev) (c : Nat) (x : Chan) : (d.setChan c x).flt = d.flt := rfl
@[simp] theorem Dev.setChan_asy (d : Dev) (c : Nat) (x : Chan) : (d.setChan c x).asy = d.asy := rfl
@[simp] theorem Dev.setChan_cnt (d : Dev) (c : Nat) (x : Chan) : (d.setChan c x).cnt = d.cnt := rfl
@[simp] theorem Dev.setChan_regs (d : Dev) (c : Nat) (x : Chan) : (d.setChan c x).regs = d.regs := rfl
@[simp] theorem Dev.setChan_lastRead (d : Dev) (c : Nat) (x : Chan) : (d.setChan c x).lastRead = d.lastRead := rfl
@[simp] theorem Dev.setChan_out (d : Dev) (c : Nat) (x : Chan) : (d.setChan c x).out = d.out := rfl
@[simp] theorem Dev.setChan_freeCtr (d : Dev) (c : Nat) (x : Chan) : (d.setChan c x).freeCtr = d.freeCtr := rfl

@[simp] theorem Dev.updTerm_variant (d : Dev) (t : Nat) (f : Terminal → Terminal) : (d.updTerm t f).variant = d.variant := rfl
@[simp] theorem Dev.updTerm_time (d : Dev) (t : Nat) (f : Terminal → Terminal) : (d.updTerm t f).time = d.time := rfl
@[simp] theorem Dev.updTerm_pwr (d : Dev) (t : Nat) (f : Terminal → Terminal) : (d.updTerm t f).pwr = d.pwr := rfl
@[simp] theorem Dev.updTerm_rst (d : Dev) (t : Nat) (f : Terminal → Terminal) : (d.updTerm t f).rst = d.rst := rfl
@[simp] theorem Dev.updTerm_tiles (d : Dev) (t : Nat) (f : Terminal → Terminal) : (d.updTerm t f).tiles = d.tiles := rfl
@[simp] theorem Dev.updTerm_lanes (d : Dev) (t : Nat) (f : Terminal → Terminal) : (d.updTerm t f).lanes = d.lanes := rfl
@[simp] theorem Dev.updTerm_subs (d : Dev) (t : Nat) (f : Terminal → Terminal) : (d.updTerm t f).subs = d.subs := rfl
@[simp] theorem Dev.updTerm_trees (d : Dev) (t : Nat) (f : Terminal → Terminal) : (d.updTerm t f).trees = d.trees := rfl
@[simp] theorem Dev.updTerm_chans (d : Dev) (t : Nat) (f : Terminal → Terminal) : (d.updTerm t f).chans = d.chans := rfl
@[simp] theorem Dev.updTerm_terms (d : Dev) (t : Nat) (f : Terminal → Terminal) : (d.updTerm t f).terms = mmod d.terms t f := rfl
@[simp] theorem Dev.updTerm_circuits (d : Dev) (t : Nat) (f : Terminal → Terminal) : (d.updTerm t f).circuits = d.circuits := rfl
@[simp] theorem Dev.updTerm_allocs (d : Dev) (t : Nat) (f : Terminal → Terminal) : (d.updTerm t f).allocs = d.allocs := rfl
@[simp] theorem Dev.updTerm_domW (d : Dev) (t : Nat) (f : Terminal → Terminal) : (d.updTerm t f).domW = d.domW := rfl
@[simp] theorem Dev.updTerm_domPrio (d : Dev) (t : Nat) (f : Terminal → Terminal) : (d.updTerm t f).domPrio = d.domPrio := rfl
@[simp] theorem Dev.updTerm_tdomW (d : Dev) (t : Nat) (f : Terminal → Terminal) : (d.updTerm t f).tdomW = d.tdomW := rfl
@[simp] theorem Dev.updTerm_domNext (d : Dev) (t : Nat) (f : Terminal → Terminal) : (d.updTerm t f).domNext = d.domNext := rfl
@[simp] theorem Dev.updTerm_fm (d : Dev) (t : Nat) (f : Terminal → Terminal) : (d.updTerm t f).fm = d.fm := rfl
@[simp] theorem Dev.updTerm_tables (d : Dev) (t : Nat) (f : Terminal → Terminal) : (d.updTerm t f).tables = d.tables := rfl
@[simp] theorem Dev.updTerm_profiles (d : Dev) (t : Nat) (f : Terminal → Terminal) : (d.updTerm t f).profiles = d.profiles := rfl
@[simp] theorem Dev.updTerm_lookups (d : Dev) (t : Nat) (f : Terminal → Terminal) : (d.updTerm t f).lookups = d.lookups := rfl
@[simp] theorem Dev.updTerm_spreads (d : Dev) (t : Nat) (f : Terminal → Terminal) : (d.updTerm t f).spreads = d.spreads := rfl
@[simp] theorem Dev.updTerm_mirrors (d : Dev) (t : Nat) (f : Terminal → Terminal) : (d.updTerm t f).mirrors = d.mirrors := rfl
@[simp] theorem Dev.updTerm_binds (d : Dev) (t : Nat) (f : Terminal → Terminal) : (d.updTerm t f).binds = d.binds := rfl
@[simp] theorem Dev.updTerm_cls (d : Dev) (t : Nat) (f : Terminal → Terminal) : (d.updTerm t f).cls = d.cls := rfl
@[simp] theorem Dev.updTerm_cursors (d : Dev) (t : Nat) (f : Terminal → Terminal) : (d.updTerm t f).cursors = d.cursors := rfl
@[simp] theorem Dev.updTerm_tac (d : Dev) (t : Nat) (f : Terminal → Terminal) : (d.updTerm t f).tac = d.tac := rfl
@[simp] theorem Dev.updTerm_tacDone (d : Dev) (t : Nat) (f : Terminal → Terminal) : (d.updTerm t f).tacDone = d.tacDone := rfl
@[simp] theorem Dev.updTerm_queues (d : Dev) (t : Nat) (f : Terminal → Terminal) : (d.updTerm t f).queues = d.queues := rfl
@[simp] theorem Dev.updTerm_nodes (d : Dev) (t : Nat) (f : Terminal → Terminal) : (d.updTerm t f).nodes = d.nodes := rfl
@[simp] theorem Dev.updTerm_shapers (d : Dev) (t : Nat) (f : Terminal → Terminal) : (d.updTerm t f).shapers = d.shapers := rfl
@[simp] theorem Dev.updTerm_shaperNext (d : Dev) (t : Nat) (f : Terminal → Terminal) : (d.updTerm t f).shaperNext = d.shaperNext := rfl
@[simp] theorem Dev.updTerm_meters (d : Dev) (t : Nat) (f : Terminal → Terminal) : (d.updTerm t f).meters = d.meters := rfl
@[simp] theorem Dev.updTerm_meterNext (d : Dev) (t : Nat) (f : Terminal → Terminal) : (d.updTerm t f).meterNext = d.meterNext := rfl
@[simp] theorem Dev.updTerm_gates (d : Dev) (t : Nat) (f : Terminal → Terminal) : (d.updTerm t f).gates = d.gates := rfl
@[simp] theorem Dev.updTerm_gateNext (d : Dev) (t : Nat) (f : Terminal → Terminal) : (d.updTerm t f).gateNext = d.gateNext := rfl
@[simp] theorem Dev.updTerm_pools (d : Dev) (t : Nat) (f : Terminal → Terminal) : (d.updTerm t f).pools = d.pools := rfl
@[simp] theorem Dev.updTerm_msec (d : Dev) (t : Nat) (f : Terminal → Terminal) : (d.updTerm t f).msec = d.msec := rfl
@[simp] theorem Dev.updTerm_pon (d : Dev) (t : Nat) (f : Terminal → Terminal) : (d.updTerm t f).pon = d.pon := rfl
@[simp] theorem Dev.updTerm_cru (d : Dev) (t : Nat) (f : Terminal → Terminal) : (d.updTerm t f).cru = d.cru := rfl
@[simp] theorem Dev.updTerm_chk (d : Dev) (t : Nat) (f : Terminal → Terminal) : (d.updTerm t f).chk = d.chk := rfl
@[simp] theorem Dev.updTerm_chkNo (d : Dev) (t : Nat) (f : Terminal → Terminal) : (d.updTerm t f).chkNo = d.chkNo := rfl
@[simp] theorem Dev.updTerm_host (d : Dev) (t : Nat) (f : Terminal → Terminal) : (d.updTerm t f).host = d.host := rfl
@[simp] theorem Dev.updTerm_senders (d : Dev) (t : Nat) (f : Terminal → Terminal) : (d.updTerm t f).senders = d.senders := rfl
@[simp] theorem Dev.updTerm_join (d : Dev) (t : Nat) (f : Terminal → Terminal) : (d.updTerm t f).join = d.join := rfl
@[simp] theorem Dev.updTerm_groups (d : Dev) (t : Nat) (f : Terminal → Terminal) : (d.updTerm t f).groups = d.groups := rfl
@[simp] theorem Dev.updTerm_leaseSeen (d : Dev) (t : Nat) (f : Terminal → Terminal) : (d.updTerm t f).leaseSeen = d.leaseSeen := rfl
@[simp] theorem Dev.updTerm_flt (d : Dev) (t : Nat) (f : Terminal → Terminal) : (d.updTerm t f).flt = d.flt := rfl
@[simp] theorem Dev.updTerm_asy (d : Dev) (t : Nat) (f : Terminal → Terminal) : (d.updTerm t f).asy = d.asy := rfl
@[simp] theorem Dev.updTerm_cnt (d : Dev) (t : Nat) (f : Terminal → Terminal) : (d.updTerm t f).cnt = d.cnt := rfl
@[simp] theorem Dev.updTerm_regs (d : Dev) (t : Nat) (f : Terminal → Terminal) : (d.updTerm t f).regs = d.regs := rfl
@[simp] theorem Dev.updTerm_lastRead (d : Dev) (t : Nat) (f : Terminal → Terminal) : (d.updTerm t f).lastRead = d.lastRead := rfl
@[simp] theorem Dev.updTerm_out (d : Dev) (t : Nat) (f : Terminal → Terminal) : (d.updTerm t f).out = d.out := rfl
@[simp] theorem Dev.updTerm_freeCtr (d : Dev) (t : Nat) (f : Terminal → Terminal) : (d.updTerm t f).freeCtr = d.freeCtr := rfl

@[simp] theorem Dev.updAlloc_variant (d : Dev) (a : Nat) (f : Alloc → Alloc) : (d.updAlloc a f).variant = d.variant := rfl
@[simp] theorem Dev.updAlloc_time (d : Dev) (a : Nat) (f : Alloc → Alloc) : (d.updAlloc a f).time = d.time := rfl
@[simp] theorem Dev.updAlloc_pwr (d : Dev) (a : Nat) (f : Alloc → Alloc) : (d.updAlloc a f).pwr = d.pwr := rfl
@[simp] theorem Dev.updAlloc_rst (d : Dev) (a : Nat) (f : Alloc → Alloc) : (d.updAlloc a f).rst = d.rst := rfl
@[simp] theorem Dev.updAlloc_tiles (d : Dev) (a : Nat) (f : Alloc → Alloc) : (d.updAlloc a f).tiles = d.tiles := rfl
@[simp] theorem Dev.updAlloc_lanes (d : Dev) (a : Nat) (f : Alloc → Alloc) : (d.updAlloc a f).lanes = d.lanes := rfl
@[simp] theorem Dev.updAlloc_subs (d : Dev) (a : Nat) (f : Alloc → Alloc) : (d.updAlloc a f).subs = d.subs := rfl
@[simp] theorem Dev.updAlloc_trees (d : Dev) (a : Nat) (f : Alloc → Alloc) : (d.updAlloc a f).trees = d.trees := rfl
@[simp] theorem Dev.updAlloc_chans (d : Dev) (a : Nat) (f : Alloc → Alloc) : (d.updAlloc a f).chans = d.chans := rfl
@[simp] theorem Dev.updAlloc_terms (d : Dev) (a : Nat) (f : Alloc → Alloc) : (d.updAlloc a f).terms = d.terms := rfl
@[simp] theorem Dev.updAlloc_circuits (d : Dev) (a : Nat) (f : Alloc → Alloc) : (d.updAlloc a f).circuits = d.circuits := rfl
@[simp] theorem Dev.updAlloc_allocs (d : Dev) (a : Nat) (f : Alloc → Alloc) : (d.updAlloc a f).allocs = mmod d.allocs a f := rfl
@[simp] theorem Dev.updAlloc_domW (d : Dev) (a : Nat) (f : Alloc → Alloc) : (d.updAlloc a f).domW = d.domW := rfl
@[simp] theorem Dev.updAlloc_domPrio (d : Dev) (a : Nat) (f : Alloc → Alloc) : (d.updAlloc a f).domPrio = d.domPrio := rfl
@[simp] theorem Dev.updAlloc_tdomW (d : Dev) (a : Nat) (f : Alloc → Alloc) : (d.updAlloc a f).tdomW = d.tdomW := rfl
@[simp] theorem Dev.updAlloc_domNext (d : Dev) (a : Nat) (f : Alloc → Alloc) : (d.updAlloc a f).domNext = d.domNext := rfl
@[simp] theorem Dev.updAlloc_fm (d : Dev) (a : Nat) (f : Alloc → Alloc) : (d.updAlloc a f).fm = d.fm := rfl
@[simp] theorem Dev.updAlloc_tables (d : Dev) (a : Nat) (f : Alloc → Alloc) : (d.updAlloc a f).tables = d.tables := rfl
@[simp] theorem Dev.updAlloc_profiles (d : Dev) (a : Nat) (f : Alloc → Alloc) : (d.updAlloc a f).profiles = d.profiles := rfl
@[simp] theorem Dev.updAlloc_lookups (d : Dev) (a : Nat) (f : Alloc → Alloc) : (d.updAlloc a f).lookups = d.lookups := rfl
@[simp] theorem Dev.updAlloc_spreads (d : Dev) (a : Nat) (f : Alloc → Alloc) : (d.updAlloc a f).spreads = d.spreads := rfl
@[simp] theorem Dev.updAlloc_mirrors (d : Dev) (a : Nat) (f : Alloc → Alloc) : (d.updAlloc a f).mirrors = d.mirrors := rfl
@[simp] theorem Dev.updAlloc_binds (d : Dev) (a : Nat) (f : Alloc → Alloc) : (d.updAlloc a f).binds = d.binds := rfl
@[simp] theorem Dev.updAlloc_cls (d : Dev) (a : Nat) (f : Alloc → Alloc) : (d.updAlloc a f).cls = d.cls := rfl
@[simp] theorem Dev.updAlloc_cursors (d : Dev) (a : Nat) (f : Alloc → Alloc) : (d.updAlloc a f).cursors = d.cursors := rfl
@[simp] theorem Dev.updAlloc_tac (d : Dev) (a : Nat) (f : Alloc → Alloc) : (d.updAlloc a f).tac = d.tac := rfl
@[simp] theorem Dev.updAlloc_tacDone (d : Dev) (a : Nat) (f : Alloc → Alloc) : (d.updAlloc a f).tacDone = d.tacDone := rfl
@[simp] theorem Dev.updAlloc_queues (d : Dev) (a : Nat) (f : Alloc → Alloc) : (d.updAlloc a f).queues = d.queues := rfl
@[simp] theorem Dev.updAlloc_nodes (d : Dev) (a : Nat) (f : Alloc → Alloc) : (d.updAlloc a f).nodes = d.nodes := rfl
@[simp] theorem Dev.updAlloc_shapers (d : Dev) (a : Nat) (f : Alloc → Alloc) : (d.updAlloc a f).shapers = d.shapers := rfl
@[simp] theorem Dev.updAlloc_shaperNext (d : Dev) (a : Nat) (f : Alloc → Alloc) : (d.updAlloc a f).shaperNext = d.shaperNext := rfl
@[simp] theorem Dev.updAlloc_meters (d : Dev) (a : Nat) (f : Alloc → Alloc) : (d.updAlloc a f).meters = d.meters := rfl
@[simp] theorem Dev.updAlloc_meterNext (d : Dev) (a : Nat) (f : Alloc → Alloc) : (d.updAlloc a f).meterNext = d.meterNext := rfl
@[simp] theorem Dev.updAlloc_gates (d : Dev) (a : Nat) (f : Alloc → Alloc) : (d.updAlloc a f).gates = d.gates := rfl
@[simp] theorem Dev.updAlloc_gateNext (d : Dev) (a : Nat) (f : Alloc → Alloc) : (d.updAlloc a f).gateNext = d.gateNext := rfl
@[simp] theorem Dev.updAlloc_pools (d : Dev) (a : Nat) (f : Alloc → Alloc) : (d.updAlloc a f).pools = d.pools := rfl
@[simp] theorem Dev.updAlloc_msec (d : Dev) (a : Nat) (f : Alloc → Alloc) : (d.updAlloc a f).msec = d.msec := rfl
@[simp] theorem Dev.updAlloc_pon (d : Dev) (a : Nat) (f : Alloc → Alloc) : (d.updAlloc a f).pon = d.pon := rfl
@[simp] theorem Dev.updAlloc_cru (d : Dev) (a : Nat) (f : Alloc → Alloc) : (d.updAlloc a f).cru = d.cru := rfl
@[simp] theorem Dev.updAlloc_chk (d : Dev) (a : Nat) (f : Alloc → Alloc) : (d.updAlloc a f).chk = d.chk := rfl
@[simp] theorem Dev.updAlloc_chkNo (d : Dev) (a : Nat) (f : Alloc → Alloc) : (d.updAlloc a f).chkNo = d.chkNo := rfl
@[simp] theorem Dev.updAlloc_host (d : Dev) (a : Nat) (f : Alloc → Alloc) : (d.updAlloc a f).host = d.host := rfl
@[simp] theorem Dev.updAlloc_senders (d : Dev) (a : Nat) (f : Alloc → Alloc) : (d.updAlloc a f).senders = d.senders := rfl
@[simp] theorem Dev.updAlloc_join (d : Dev) (a : Nat) (f : Alloc → Alloc) : (d.updAlloc a f).join = d.join := rfl
@[simp] theorem Dev.updAlloc_groups (d : Dev) (a : Nat) (f : Alloc → Alloc) : (d.updAlloc a f).groups = d.groups := rfl
@[simp] theorem Dev.updAlloc_leaseSeen (d : Dev) (a : Nat) (f : Alloc → Alloc) : (d.updAlloc a f).leaseSeen = d.leaseSeen := rfl
@[simp] theorem Dev.updAlloc_flt (d : Dev) (a : Nat) (f : Alloc → Alloc) : (d.updAlloc a f).flt = d.flt := rfl
@[simp] theorem Dev.updAlloc_asy (d : Dev) (a : Nat) (f : Alloc → Alloc) : (d.updAlloc a f).asy = d.asy := rfl
@[simp] theorem Dev.updAlloc_cnt (d : Dev) (a : Nat) (f : Alloc → Alloc) : (d.updAlloc a f).cnt = d.cnt := rfl
@[simp] theorem Dev.updAlloc_regs (d : Dev) (a : Nat) (f : Alloc → Alloc) : (d.updAlloc a f).regs = d.regs := rfl
@[simp] theorem Dev.updAlloc_lastRead (d : Dev) (a : Nat) (f : Alloc → Alloc) : (d.updAlloc a f).lastRead = d.lastRead := rfl
@[simp] theorem Dev.updAlloc_out (d : Dev) (a : Nat) (f : Alloc → Alloc) : (d.updAlloc a f).out = d.out := rfl
@[simp] theorem Dev.updAlloc_freeCtr (d : Dev) (a : Nat) (f : Alloc → Alloc) : (d.updAlloc a f).freeCtr = d.freeCtr := rfl

@[simp] theorem Dev.setMbox_variant (d : Dev) (c : Nat) (x : MboxChan) : (d.setMbox c x).variant = d.variant := rfl
@[simp] theorem Dev.setMbox_time (d : Dev) (c : Nat) (x : MboxChan) : (d.setMbox c x).time = d.time := rfl
@[simp] theorem Dev.setMbox_pwr (d : Dev) (c : Nat) (x : MboxChan) : (d.setMbox c x).pwr = d.pwr := rfl
@[simp] theorem Dev.setMbox_rst (d : Dev) (c : Nat) (x : MboxChan) : (d.setMbox c x).rst = d.rst := rfl
@[simp] theorem Dev.setMbox_tiles (d : Dev) (c : Nat) (x : MboxChan) : (d.setMbox c x).tiles = d.tiles := rfl
@[simp] theorem Dev.setMbox_lanes (d : Dev) (c : Nat) (x : MboxChan) : (d.setMbox c x).lanes = d.lanes := rfl
@[simp] theorem Dev.setMbox_subs (d : Dev) (c : Nat) (x : MboxChan) : (d.setMbox c x).subs = d.subs := rfl
@[simp] theorem Dev.setMbox_trees (d : Dev) (c : Nat) (x : MboxChan) : (d.setMbox c x).trees = d.trees := rfl
@[simp] theorem Dev.setMbox_chans (d : Dev) (c : Nat) (x : MboxChan) : (d.setMbox c x).chans = d.chans := rfl
@[simp] theorem Dev.setMbox_terms (d : Dev) (c : Nat) (x : MboxChan) : (d.setMbox c x).terms = d.terms := rfl
@[simp] theorem Dev.setMbox_circuits (d : Dev) (c : Nat) (x : MboxChan) : (d.setMbox c x).circuits = d.circuits := rfl
@[simp] theorem Dev.setMbox_allocs (d : Dev) (c : Nat) (x : MboxChan) : (d.setMbox c x).allocs = d.allocs := rfl
@[simp] theorem Dev.setMbox_domW (d : Dev) (c : Nat) (x : MboxChan) : (d.setMbox c x).domW = d.domW := rfl
@[simp] theorem Dev.setMbox_domPrio (d : Dev) (c : Nat) (x : MboxChan) : (d.setMbox c x).domPrio = d.domPrio := rfl
@[simp] theorem Dev.setMbox_tdomW (d : Dev) (c : Nat) (x : MboxChan) : (d.setMbox c x).tdomW = d.tdomW := rfl
@[simp] theorem Dev.setMbox_domNext (d : Dev) (c : Nat) (x : MboxChan) : (d.setMbox c x).domNext = d.domNext := rfl
@[simp] theorem Dev.setMbox_fm (d : Dev) (c : Nat) (x : MboxChan) : (d.setMbox c x).fm = d.fm := rfl
@[simp] theorem Dev.setMbox_tables (d : Dev) (c : Nat) (x : MboxChan) : (d.setMbox c x).tables = d.tables := rfl
@[simp] theorem Dev.setMbox_profiles (d : Dev) (c : Nat) (x : MboxChan) : (d.setMbox c x).profiles = d.profiles := rfl
@[simp] theorem Dev.setMbox_lookups (d : Dev) (c : Nat) (x : MboxChan) : (d.setMbox c x).lookups = d.lookups := rfl
@[simp] theorem Dev.setMbox_spreads (d : Dev) (c : Nat) (x : MboxChan) : (d.setMbox c x).spreads = d.spreads := rfl
@[simp] theorem Dev.setMbox_mirrors (d : Dev) (c : Nat) (x : MboxChan) : (d.setMbox c x).mirrors = d.mirrors := rfl
@[simp] theorem Dev.setMbox_binds (d : Dev) (c : Nat) (x : MboxChan) : (d.setMbox c x).binds = d.binds := rfl
@[simp] theorem Dev.setMbox_cls (d : Dev) (c : Nat) (x : MboxChan) : (d.setMbox c x).cls = d.cls := rfl
@[simp] theorem Dev.setMbox_cursors (d : Dev) (c : Nat) (x : MboxChan) : (d.setMbox c x).cursors = d.cursors := rfl
@[simp] theorem Dev.setMbox_tac (d : Dev) (c : Nat) (x : MboxChan) : (d.setMbox c x).tac = d.tac := rfl
@[simp] theorem Dev.setMbox_tacDone (d : Dev) (c : Nat) (x : MboxChan) : (d.setMbox c x).tacDone = d.tacDone := rfl
@[simp] theorem Dev.setMbox_queues (d : Dev) (c : Nat) (x : MboxChan) : (d.setMbox c x).queues = d.queues := rfl
@[simp] theorem Dev.setMbox_nodes (d : Dev) (c : Nat) (x : MboxChan) : (d.setMbox c x).nodes = d.nodes := rfl
@[simp] theorem Dev.setMbox_shapers (d : Dev) (c : Nat) (x : MboxChan) : (d.setMbox c x).shapers = d.shapers := rfl
@[simp] theorem Dev.setMbox_shaperNext (d : Dev) (c : Nat) (x : MboxChan) : (d.setMbox c x).shaperNext = d.shaperNext := rfl
@[simp] theorem Dev.setMbox_meters (d : Dev) (c : Nat) (x : MboxChan) : (d.setMbox c x).meters = d.meters := rfl
@[simp] theorem Dev.setMbox_meterNext (d : Dev) (c : Nat) (x : MboxChan) : (d.setMbox c x).meterNext = d.meterNext := rfl
@[simp] theorem Dev.setMbox_gates (d : Dev) (c : Nat) (x : MboxChan) : (d.setMbox c x).gates = d.gates := rfl
@[simp] theorem Dev.setMbox_gateNext (d : Dev) (c : Nat) (x : MboxChan) : (d.setMbox c x).gateNext = d.gateNext := rfl
@[simp] theorem Dev.setMbox_pools (d : Dev) (c : Nat) (x : MboxChan) : (d.setMbox c x).pools = d.pools := rfl
@[simp] theorem Dev.setMbox_msec (d : Dev) (c : Nat) (x : MboxChan) : (d.setMbox c x).msec = d.msec := rfl
@[simp] theorem Dev.setMbox_pon (d : Dev) (c : Nat) (x : MboxChan) : (d.setMbox c x).pon = d.pon := rfl
@[simp] theorem Dev.setMbox_cru (d : Dev) (c : Nat) (x : MboxChan) : (d.setMbox c x).cru = d.cru := rfl
@[simp] theorem Dev.setMbox_chk (d : Dev) (c : Nat) (x : MboxChan) : (d.setMbox c x).chk = d.chk := rfl
@[simp] theorem Dev.setMbox_chkNo (d : Dev) (c : Nat) (x : MboxChan) : (d.setMbox c x).chkNo = d.chkNo := rfl
@[simp] theorem Dev.setMbox_host (d : Dev) (c : Nat) (x : MboxChan) : (d.setMbox c x).host = { d.host with mbox := mput d.host.mbox c x } := rfl
@[simp] theorem Dev.setMbox_senders (d : Dev) (c : Nat) (x : MboxChan) : (d.setMbox c x).senders = d.senders := rfl
@[simp] theorem Dev.setMbox_join (d : Dev) (c : Nat) (x : MboxChan) : (d.setMbox c x).join = d.join := rfl
@[simp] theorem Dev.setMbox_groups (d : Dev) (c : Nat) (x : MboxChan) : (d.setMbox c x).groups = d.groups := rfl
@[simp] theorem Dev.setMbox_leaseSeen (d : Dev) (c : Nat) (x : MboxChan) : (d.setMbox c x).leaseSeen = d.leaseSeen := rfl
@[simp] theorem Dev.setMbox_flt (d : Dev) (c : Nat) (x : MboxChan) : (d.setMbox c x).flt = d.flt := rfl
@[simp] theorem Dev.setMbox_asy (d : Dev) (c : Nat) (x : MboxChan) : (d.setMbox c x).asy = d.asy := rfl
@[simp] theorem Dev.setMbox_cnt (d : Dev) (c : Nat) (x : MboxChan) : (d.setMbox c x).cnt = d.cnt := rfl
@[simp] theorem Dev.setMbox_regs (d : Dev) (c : Nat) (x : MboxChan) : (d.setMbox c x).regs = d.regs := rfl
@[simp] theorem Dev.setMbox_lastRead (d : Dev) (c : Nat) (x : MboxChan) : (d.setMbox c x).lastRead = d.lastRead := rfl
@[simp] theorem Dev.setMbox_out (d : Dev) (c : Nat) (x : MboxChan) : (d.setMbox c x).out = d.out := rfl
@[simp] theorem Dev.setMbox_freeCtr (d : Dev) (c : Nat) (x : MboxChan) : (d.setMbox c x).freeCtr = d.freeCtr := rfl

@[simp] theorem Dev.setSender_variant (d : Dev) (c : Nat) (x : Sender) : (d.setSender c x).variant = d.variant := rfl
@[simp] theorem Dev.setSender_time (d : Dev) (c : Nat) (x : Sender) : (d.setSender c x).time = d.time := rfl
@[simp] theorem Dev.setSender_pwr (d : Dev) (c : Nat) (x : Sender) : (d.setSender c x).pwr = d.pwr := rfl
@[simp] theorem Dev.setSender_rst (d : Dev) (c : Nat) (x : Sender) : (d.setSender c x).rst = d.rst := rfl
@[simp] theorem Dev.setSender_tiles (d : Dev) (c : Nat) (x : Sender) : (d.setSender c x).tiles = d.tiles := rfl
@[simp] theorem Dev.setSender_lanes (d : Dev) (c : Nat) (x : Sender) : (d.setSender c x).lanes = d.lanes := rfl
@[simp] theorem Dev.setSender_subs (d : Dev) (c : Nat) (x : Sender) : (d.setSender c x).subs = d.subs := rfl
@[simp] theorem Dev.setSender_trees (d : Dev) (c : Nat) (x : Sender) : (d.setSender c x).trees = d.trees := rfl
@[simp] theorem Dev.setSender_chans (d : Dev) (c : Nat) (x : Sender) : (d.setSender c x).chans = d.chans := rfl
@[simp] theorem Dev.setSender_terms (d : Dev) (c : Nat) (x : Sender) : (d.setSender c x).terms = d.terms := rfl
@[simp] theorem Dev.setSender_circuits (d : Dev) (c : Nat) (x : Sender) : (d.setSender c x).circuits = d.circuits := rfl
@[simp] theorem Dev.setSender_allocs (d : Dev) (c : Nat) (x : Sender) : (d.setSender c x).allocs = d.allocs := rfl
@[simp] theorem Dev.setSender_domW (d : Dev) (c : Nat) (x : Sender) : (d.setSender c x).domW = d.domW := rfl
@[simp] theorem Dev.setSender_domPrio (d : Dev) (c : Nat) (x : Sender) : (d.setSender c x).domPrio = d.domPrio := rfl
@[simp] theorem Dev.setSender_tdomW (d : Dev) (c : Nat) (x : Sender) : (d.setSender c x).tdomW = d.tdomW := rfl
@[simp] theorem Dev.setSender_domNext (d : Dev) (c : Nat) (x : Sender) : (d.setSender c x).domNext = d.domNext := rfl
@[simp] theorem Dev.setSender_fm (d : Dev) (c : Nat) (x : Sender) : (d.setSender c x).fm = d.fm := rfl
@[simp] theorem Dev.setSender_tables (d : Dev) (c : Nat) (x : Sender) : (d.setSender c x).tables = d.tables := rfl
@[simp] theorem Dev.setSender_profiles (d : Dev) (c : Nat) (x : Sender) : (d.setSender c x).profiles = d.profiles := rfl
@[simp] theorem Dev.setSender_lookups (d : Dev) (c : Nat) (x : Sender) : (d.setSender c x).lookups = d.lookups := rfl
@[simp] theorem Dev.setSender_spreads (d : Dev) (c : Nat) (x : Sender) : (d.setSender c x).spreads = d.spreads := rfl
@[simp] theorem Dev.setSender_mirrors (d : Dev) (c : Nat) (x : Sender) : (d.setSender c x).mirrors = d.mirrors := rfl
@[simp] theorem Dev.setSender_binds (d : Dev) (c : Nat) (x : Sender) : (d.setSender c x).binds = d.binds := rfl
@[simp] theorem Dev.setSender_cls (d : Dev) (c : Nat) (x : Sender) : (d.setSender c x).cls = d.cls := rfl
@[simp] theorem Dev.setSender_cursors (d : Dev) (c : Nat) (x : Sender) : (d.setSender c x).cursors = d.cursors := rfl
@[simp] theorem Dev.setSender_tac (d : Dev) (c : Nat) (x : Sender) : (d.setSender c x).tac = d.tac := rfl
@[simp] theorem Dev.setSender_tacDone (d : Dev) (c : Nat) (x : Sender) : (d.setSender c x).tacDone = d.tacDone := rfl
@[simp] theorem Dev.setSender_queues (d : Dev) (c : Nat) (x : Sender) : (d.setSender c x).queues = d.queues := rfl
@[simp] theorem Dev.setSender_nodes (d : Dev) (c : Nat) (x : Sender) : (d.setSender c x).nodes = d.nodes := rfl
@[simp] theorem Dev.setSender_shapers (d : Dev) (c : Nat) (x : Sender) : (d.setSender c x).shapers = d.shapers := rfl
@[simp] theorem Dev.setSender_shaperNext (d : Dev) (c : Nat) (x : Sender) : (d.setSender c x).shaperNext = d.shaperNext := rfl
@[simp] theorem Dev.setSender_meters (d : Dev) (c : Nat) (x : Sender) : (d.setSender c x).meters = d.meters := rfl
@[simp] theorem Dev.setSender_meterNext (d : Dev) (c : Nat) (x : Sender) : (d.setSender c x).meterNext = d.meterNext := rfl
@[simp] theorem Dev.setSender_gates (d : Dev) (c : Nat) (x : Sender) : (d.setSender c x).gates = d.gates := rfl
@[simp] theorem Dev.setSender_gateNext (d : Dev) (c : Nat) (x : Sender) : (d.setSender c x).gateNext = d.gateNext := rfl
@[simp] theorem Dev.setSender_pools (d : Dev) (c : Nat) (x : Sender) : (d.setSender c x).pools = d.pools := rfl
@[simp] theorem Dev.setSender_msec (d : Dev) (c : Nat) (x : Sender) : (d.setSender c x).msec = d.msec := rfl
@[simp] theorem Dev.setSender_pon (d : Dev) (c : Nat) (x : Sender) : (d.setSender c x).pon = d.pon := rfl
@[simp] theorem Dev.setSender_cru (d : Dev) (c : Nat) (x : Sender) : (d.setSender c x).cru = d.cru := rfl
@[simp] theorem Dev.setSender_chk (d : Dev) (c : Nat) (x : Sender) : (d.setSender c x).chk = d.chk := rfl
@[simp] theorem Dev.setSender_chkNo (d : Dev) (c : Nat) (x : Sender) : (d.setSender c x).chkNo = d.chkNo := rfl
@[simp] theorem Dev.setSender_host (d : Dev) (c : Nat) (x : Sender) : (d.setSender c x).host = d.host := rfl
@[simp] theorem Dev.setSender_senders (d : Dev) (c : Nat) (x : Sender) : (d.setSender c x).senders = mput d.senders c x := rfl
@[simp] theorem Dev.setSender_join (d : Dev) (c : Nat) (x : Sender) : (d.setSender c x).join = d.join := rfl
@[simp] theorem Dev.setSender_groups (d : Dev) (c : Nat) (x : Sender) : (d.setSender c x).groups = d.groups := rfl
@[simp] theorem Dev.setSender_leaseSeen (d : Dev) (c : Nat) (x : Sender) : (d.setSender c x).leaseSeen = d.leaseSeen := rfl
@[simp] theorem Dev.setSender_flt (d : Dev) (c : Nat) (x : Sender) : (d.setSender c x).flt = d.flt := rfl
@[simp] theorem Dev.setSender_asy (d : Dev) (c : Nat) (x : Sender) : (d.setSender c x).asy = d.asy := rfl
@[simp] theorem Dev.setSender_cnt (d : Dev) (c : Nat) (x : Sender) : (d.setSender c x).cnt = d.cnt := rfl
@[simp] theorem Dev.setSender_regs (d : Dev) (c : Nat) (x : Sender) : (d.setSender c x).regs = d.regs := rfl
@[simp] theorem Dev.setSender_lastRead (d : Dev) (c : Nat) (x : Sender) : (d.setSender c x).lastRead = d.lastRead := rfl
@[simp] theorem Dev.setSender_out (d : Dev) (c : Nat) (x : Sender) : (d.setSender c x).out = d.out := rfl
@[simp] theorem Dev.setSender_freeCtr (d : Dev) (c : Nat) (x : Sender) : (d.setSender c x).freeCtr = d.freeCtr := rfl

@[simp] theorem Dev.updCls_variant (d : Dev) (t : Nat) (f : ClsTile → ClsTile) : (d.updCls t f).variant = d.variant := rfl
@[simp] theorem Dev.updCls_time (d : Dev) (t : Nat) (f : ClsTile → ClsTile) : (d.updCls t f).time = d.time := rfl
@[simp] theorem Dev.updCls_pwr (d : Dev) (t : Nat) (f : ClsTile → ClsTile) : (d.updCls t f).pwr = d.pwr := rfl
@[simp] theorem Dev.updCls_rst (d : Dev) (t : Nat) (f : ClsTile → ClsTile) : (d.updCls t f).rst = d.rst := rfl
@[simp] theorem Dev.updCls_tiles (d : Dev) (t : Nat) (f : ClsTile → ClsTile) : (d.updCls t f).tiles = d.tiles := rfl
@[simp] theorem Dev.updCls_lanes (d : Dev) (t : Nat) (f : ClsTile → ClsTile) : (d.updCls t f).lanes = d.lanes := rfl
@[simp] theorem Dev.updCls_subs (d : Dev) (t : Nat) (f : ClsTile → ClsTile) : (d.updCls t f).subs = d.subs := rfl
@[simp] theorem Dev.updCls_trees (d : Dev) (t : Nat) (f : ClsTile → ClsTile) : (d.updCls t f).trees = d.trees := rfl
@[simp] theorem Dev.updCls_chans (d : Dev) (t : Nat) (f : ClsTile → ClsTile) : (d.updCls t f).chans = d.chans := rfl
@[simp] theorem Dev.updCls_terms (d : Dev) (t : Nat) (f : ClsTile → ClsTile) : (d.updCls t f).terms = d.terms := rfl
@[simp] theorem Dev.updCls_circuits (d : Dev) (t : Nat) (f : ClsTile → ClsTile) : (d.updCls t f).circuits = d.circuits := rfl
@[simp] theorem Dev.updCls_allocs (d : Dev) (t : Nat) (f : ClsTile → ClsTile) : (d.updCls t f).allocs = d.allocs := rfl
@[simp] theorem Dev.updCls_domW (d : Dev) (t : Nat) (f : ClsTile → ClsTile) : (d.updCls t f).domW = d.domW := rfl
@[simp] theorem Dev.updCls_domPrio (d : Dev) (t : Nat) (f : ClsTile → ClsTile) : (d.updCls t f).domPrio = d.domPrio := rfl
@[simp] theorem Dev.updCls_tdomW (d : Dev) (t : Nat) (f : ClsTile → ClsTile) : (d.updCls t f).tdomW = d.tdomW := rfl
@[simp] theorem Dev.updCls_domNext (d : Dev) (t : Nat) (f : ClsTile → ClsTile) : (d.updCls t f).domNext = d.domNext := rfl
@[simp] theorem Dev.updCls_fm (d : Dev) (t : Nat) (f : ClsTile → ClsTile) : (d.updCls t f).fm = d.fm := rfl
@[simp] theorem Dev.updCls_tables (d : Dev) (t : Nat) (f : ClsTile → ClsTile) : (d.updCls t f).tables = d.tables := rfl
@[simp] theorem Dev.updCls_profiles (d : Dev) (t : Nat) (f : ClsTile → ClsTile) : (d.updCls t f).profiles = d.profiles := rfl
@[simp] theorem Dev.updCls_lookups (d : Dev) (t : Nat) (f : ClsTile → ClsTile) : (d.updCls t f).lookups = d.lookups := rfl
@[simp] theorem Dev.updCls_spreads (d : Dev) (t : Nat) (f : ClsTile → ClsTile) : (d.updCls t f).spreads = d.spreads := rfl
@[simp] theorem Dev.updCls_mirrors (d : Dev) (t : Nat) (f : ClsTile → ClsTile) : (d.updCls t f).mirrors = d.mirrors := rfl
@[simp] theorem Dev.updCls_binds (d : Dev) (t : Nat) (f : ClsTile → ClsTile) : (d.updCls t f).binds = d.binds := rfl
@[simp] theorem Dev.updCls_cls (d : Dev) (t : Nat) (f : ClsTile → ClsTile) : (d.updCls t f).cls = mput d.cls t (f (d.clsTile t)) := rfl
@[simp] theorem Dev.updCls_cursors (d : Dev) (t : Nat) (f : ClsTile → ClsTile) : (d.updCls t f).cursors = d.cursors := rfl
@[simp] theorem Dev.updCls_tac (d : Dev) (t : Nat) (f : ClsTile → ClsTile) : (d.updCls t f).tac = d.tac := rfl
@[simp] theorem Dev.updCls_tacDone (d : Dev) (t : Nat) (f : ClsTile → ClsTile) : (d.updCls t f).tacDone = d.tacDone := rfl
@[simp] theorem Dev.updCls_queues (d : Dev) (t : Nat) (f : ClsTile → ClsTile) : (d.updCls t f).queues = d.queues := rfl
@[simp] theorem Dev.updCls_nodes (d : Dev) (t : Nat) (f : ClsTile → ClsTile) : (d.updCls t f).nodes = d.nodes := rfl
@[simp] theorem Dev.updCls_shapers (d : Dev) (t : Nat) (f : ClsTile → ClsTile) : (d.updCls t f).shapers = d.shapers := rfl
@[simp] theorem Dev.updCls_shaperNext (d : Dev) (t : Nat) (f : ClsTile → ClsTile) : (d.updCls t f).shaperNext = d.shaperNext := rfl
@[simp] theorem Dev.updCls_meters (d : Dev) (t : Nat) (f : ClsTile → ClsTile) : (d.updCls t f).meters = d.meters := rfl
@[simp] theorem Dev.updCls_meterNext (d : Dev) (t : Nat) (f : ClsTile → ClsTile) : (d.updCls t f).meterNext = d.meterNext := rfl
@[simp] theorem Dev.updCls_gates (d : Dev) (t : Nat) (f : ClsTile → ClsTile) : (d.updCls t f).gates = d.gates := rfl
@[simp] theorem Dev.updCls_gateNext (d : Dev) (t : Nat) (f : ClsTile → ClsTile) : (d.updCls t f).gateNext = d.gateNext := rfl
@[simp] theorem Dev.updCls_pools (d : Dev) (t : Nat) (f : ClsTile → ClsTile) : (d.updCls t f).pools = d.pools := rfl
@[simp] theorem Dev.updCls_msec (d : Dev) (t : Nat) (f : ClsTile → ClsTile) : (d.updCls t f).msec = d.msec := rfl
@[simp] theorem Dev.updCls_pon (d : Dev) (t : Nat) (f : ClsTile → ClsTile) : (d.updCls t f).pon = d.pon := rfl
@[simp] theorem Dev.updCls_cru (d : Dev) (t : Nat) (f : ClsTile → ClsTile) : (d.updCls t f).cru = d.cru := rfl
@[simp] theorem Dev.updCls_chk (d : Dev) (t : Nat) (f : ClsTile → ClsTile) : (d.updCls t f).chk = d.chk := rfl
@[simp] theorem Dev.updCls_chkNo (d : Dev) (t : Nat) (f : ClsTile → ClsTile) : (d.updCls t f).chkNo = d.chkNo := rfl
@[simp] theorem Dev.updCls_host (d : Dev) (t : Nat) (f : ClsTile → ClsTile) : (d.updCls t f).host = d.host := rfl
@[simp] theorem Dev.updCls_senders (d : Dev) (t : Nat) (f : ClsTile → ClsTile) : (d.updCls t f).senders = d.senders := rfl
@[simp] theorem Dev.updCls_join (d : Dev) (t : Nat) (f : ClsTile → ClsTile) : (d.updCls t f).join = d.join := rfl
@[simp] theorem Dev.updCls_groups (d : Dev) (t : Nat) (f : ClsTile → ClsTile) : (d.updCls t f).groups = d.groups := rfl
@[simp] theorem Dev.updCls_leaseSeen (d : Dev) (t : Nat) (f : ClsTile → ClsTile) : (d.updCls t f).leaseSeen = d.leaseSeen := rfl
@[simp] theorem Dev.updCls_flt (d : Dev) (t : Nat) (f : ClsTile → ClsTile) : (d.updCls t f).flt = d.flt := rfl
@[simp] theorem Dev.updCls_asy (d : Dev) (t : Nat) (f : ClsTile → ClsTile) : (d.updCls t f).asy = d.asy := rfl
@[simp] theorem Dev.updCls_cnt (d : Dev) (t : Nat) (f : ClsTile → ClsTile) : (d.updCls t f).cnt = d.cnt := rfl
@[simp] theorem Dev.updCls_regs (d : Dev) (t : Nat) (f : ClsTile → ClsTile) : (d.updCls t f).regs = d.regs := rfl
@[simp] theorem Dev.updCls_lastRead (d : Dev) (t : Nat) (f : ClsTile → ClsTile) : (d.updCls t f).lastRead = d.lastRead := rfl
@[simp] theorem Dev.updCls_out (d : Dev) (t : Nat) (f : ClsTile → ClsTile) : (d.updCls t f).out = d.out := rfl
@[simp] theorem Dev.updCls_freeCtr (d : Dev) (t : Nat) (f : ClsTile → ClsTile) : (d.updCls t f).freeCtr = d.freeCtr := rfl

@[simp] theorem Dev.setPool_variant (d : Dev) (t : Nat) (x : Pool) : (d.setPool t x).variant = d.variant := rfl
@[simp] theorem Dev.setPool_time (d : Dev) (t : Nat) (x : Pool) : (d.setPool t x).time = d.time := rfl
@[simp] theorem Dev.setPool_pwr (d : Dev) (t : Nat) (x : Pool) : (d.setPool t x).pwr = d.pwr := rfl
@[simp] theorem Dev.setPool_rst (d : Dev) (t : Nat) (x : Pool) : (d.setPool t x).rst = d.rst := rfl
@[simp] theorem Dev.setPool_tiles (d : Dev) (t : Nat) (x : Pool) : (d.setPool t x).tiles = d.tiles := rfl
@[simp] theorem Dev.setPool_lanes (d : Dev) (t : Nat) (x : Pool) : (d.setPool t x).lanes = d.lanes := rfl
@[simp] theorem Dev.setPool_subs (d : Dev) (t : Nat) (x : Pool) : (d.setPool t x).subs = d.subs := rfl
@[simp] theorem Dev.setPool_trees (d : Dev) (t : Nat) (x : Pool) : (d.setPool t x).trees = d.trees := rfl
@[simp] theorem Dev.setPool_chans (d : Dev) (t : Nat) (x : Pool) : (d.setPool t x).chans = d.chans := rfl
@[simp] theorem Dev.setPool_terms (d : Dev) (t : Nat) (x : Pool) : (d.setPool t x).terms = d.terms := rfl
@[simp] theorem Dev.setPool_circuits (d : Dev) (t : Nat) (x : Pool) : (d.setPool t x).circuits = d.circuits := rfl
@[simp] theorem Dev.setPool_allocs (d : Dev) (t : Nat) (x : Pool) : (d.setPool t x).allocs = d.allocs := rfl
@[simp] theorem Dev.setPool_domW (d : Dev) (t : Nat) (x : Pool) : (d.setPool t x).domW = d.domW := rfl
@[simp] theorem Dev.setPool_domPrio (d : Dev) (t : Nat) (x : Pool) : (d.setPool t x).domPrio = d.domPrio := rfl
@[simp] theorem Dev.setPool_tdomW (d : Dev) (t : Nat) (x : Pool) : (d.setPool t x).tdomW = d.tdomW := rfl
@[simp] theorem Dev.setPool_domNext (d : Dev) (t : Nat) (x : Pool) : (d.setPool t x).domNext = d.domNext := rfl
@[simp] theorem Dev.setPool_fm (d : Dev) (t : Nat) (x : Pool) : (d.setPool t x).fm = d.fm := rfl
@[simp] theorem Dev.setPool_tables (d : Dev) (t : Nat) (x : Pool) : (d.setPool t x).tables = d.tables := rfl
@[simp] theorem Dev.setPool_profiles (d : Dev) (t : Nat) (x : Pool) : (d.setPool t x).profiles = d.profiles := rfl
@[simp] theorem Dev.setPool_lookups (d : Dev) (t : Nat) (x : Pool) : (d.setPool t x).lookups = d.lookups := rfl
@[simp] theorem Dev.setPool_spreads (d : Dev) (t : Nat) (x : Pool) : (d.setPool t x).spreads = d.spreads := rfl
@[simp] theorem Dev.setPool_mirrors (d : Dev) (t : Nat) (x : Pool) : (d.setPool t x).mirrors = d.mirrors := rfl
@[simp] theorem Dev.setPool_binds (d : Dev) (t : Nat) (x : Pool) : (d.setPool t x).binds = d.binds := rfl
@[simp] theorem Dev.setPool_cls (d : Dev) (t : Nat) (x : Pool) : (d.setPool t x).cls = d.cls := rfl
@[simp] theorem Dev.setPool_cursors (d : Dev) (t : Nat) (x : Pool) : (d.setPool t x).cursors = d.cursors := rfl
@[simp] theorem Dev.setPool_tac (d : Dev) (t : Nat) (x : Pool) : (d.setPool t x).tac = d.tac := rfl
@[simp] theorem Dev.setPool_tacDone (d : Dev) (t : Nat) (x : Pool) : (d.setPool t x).tacDone = d.tacDone := rfl
@[simp] theorem Dev.setPool_queues (d : Dev) (t : Nat) (x : Pool) : (d.setPool t x).queues = d.queues := rfl
@[simp] theorem Dev.setPool_nodes (d : Dev) (t : Nat) (x : Pool) : (d.setPool t x).nodes = d.nodes := rfl
@[simp] theorem Dev.setPool_shapers (d : Dev) (t : Nat) (x : Pool) : (d.setPool t x).shapers = d.shapers := rfl
@[simp] theorem Dev.setPool_shaperNext (d : Dev) (t : Nat) (x : Pool) : (d.setPool t x).shaperNext = d.shaperNext := rfl
@[simp] theorem Dev.setPool_meters (d : Dev) (t : Nat) (x : Pool) : (d.setPool t x).meters = d.meters := rfl
@[simp] theorem Dev.setPool_meterNext (d : Dev) (t : Nat) (x : Pool) : (d.setPool t x).meterNext = d.meterNext := rfl
@[simp] theorem Dev.setPool_gates (d : Dev) (t : Nat) (x : Pool) : (d.setPool t x).gates = d.gates := rfl
@[simp] theorem Dev.setPool_gateNext (d : Dev) (t : Nat) (x : Pool) : (d.setPool t x).gateNext = d.gateNext := rfl
@[simp] theorem Dev.setPool_pools (d : Dev) (t : Nat) (x : Pool) : (d.setPool t x).pools = mput d.pools t x := rfl
@[simp] theorem Dev.setPool_msec (d : Dev) (t : Nat) (x : Pool) : (d.setPool t x).msec = d.msec := rfl
@[simp] theorem Dev.setPool_pon (d : Dev) (t : Nat) (x : Pool) : (d.setPool t x).pon = d.pon := rfl
@[simp] theorem Dev.setPool_cru (d : Dev) (t : Nat) (x : Pool) : (d.setPool t x).cru = d.cru := rfl
@[simp] theorem Dev.setPool_chk (d : Dev) (t : Nat) (x : Pool) : (d.setPool t x).chk = d.chk := rfl
@[simp] theorem Dev.setPool_chkNo (d : Dev) (t : Nat) (x : Pool) : (d.setPool t x).chkNo = d.chkNo := rfl
@[simp] theorem Dev.setPool_host (d : Dev) (t : Nat) (x : Pool) : (d.setPool t x).host = d.host := rfl
@[simp] theorem Dev.setPool_senders (d : Dev) (t : Nat) (x : Pool) : (d.setPool t x).senders = d.senders := rfl
@[simp] theorem Dev.setPool_join (d : Dev) (t : Nat) (x : Pool) : (d.setPool t x).join = d.join := rfl
@[simp] theorem Dev.setPool_groups (d : Dev) (t : Nat) (x : Pool) : (d.setPool t x).groups = d.groups := rfl
@[simp] theorem Dev.setPool_leaseSeen (d : Dev) (t : Nat) (x : Pool) : (d.setPool t x).leaseSeen = d.leaseSeen := rfl
@[simp] theorem Dev.setPool_flt (d : Dev) (t : Nat) (x : Pool) : (d.setPool t x).flt = d.flt := rfl
@[simp] theorem Dev.setPool_asy (d : Dev) (t : Nat) (x : Pool) : (d.setPool t x).asy = d.asy := rfl
@[simp] theorem Dev.setPool_cnt (d : Dev) (t : Nat) (x : Pool) : (d.setPool t x).cnt = d.cnt := rfl
@[simp] theorem Dev.setPool_regs (d : Dev) (t : Nat) (x : Pool) : (d.setPool t x).regs = d.regs := rfl
@[simp] theorem Dev.setPool_lastRead (d : Dev) (t : Nat) (x : Pool) : (d.setPool t x).lastRead = d.lastRead := rfl
@[simp] theorem Dev.setPool_out (d : Dev) (t : Nat) (x : Pool) : (d.setPool t x).out = d.out := rfl
@[simp] theorem Dev.setPool_freeCtr (d : Dev) (t : Nat) (x : Pool) : (d.setPool t x).freeCtr = d.freeCtr := rfl

@[simp] theorem Dev.setChk_variant (d : Dev) (p : Nat) (x : ChkPage) : (d.setChk p x).variant = d.variant := rfl
@[simp] theorem Dev.setChk_time (d : Dev) (p : Nat) (x : ChkPage) : (d.setChk p x).time = d.time := rfl
@[simp] theorem Dev.setChk_pwr (d : Dev) (p : Nat) (x : ChkPage) : (d.setChk p x).pwr = d.pwr := rfl
@[simp] theorem Dev.setChk_rst (d : Dev) (p : Nat) (x : ChkPage) : (d.setChk p x).rst = d.rst := rfl
@[simp] theorem Dev.setChk_tiles (d : Dev) (p : Nat) (x : ChkPage) : (d.setChk p x).tiles = d.tiles := rfl
@[simp] theorem Dev.setChk_lanes (d : Dev) (p : Nat) (x : ChkPage) : (d.setChk p x).lanes = d.lanes := rfl
@[simp] theorem Dev.setChk_subs (d : Dev) (p : Nat) (x : ChkPage) : (d.setChk p x).subs = d.subs := rfl
@[simp] theorem Dev.setChk_trees (d : Dev) (p : Nat) (x : ChkPage) : (d.setChk p x).trees = d.trees := rfl
@[simp] theorem Dev.setChk_chans (d : Dev) (p : Nat) (x : ChkPage) : (d.setChk p x).chans = d.chans := rfl
@[simp] theorem Dev.setChk_terms (d : Dev) (p : Nat) (x : ChkPage) : (d.setChk p x).terms = d.terms := rfl
@[simp] theorem Dev.setChk_circuits (d : Dev) (p : Nat) (x : ChkPage) : (d.setChk p x).circuits = d.circuits := rfl
@[simp] theorem Dev.setChk_allocs (d : Dev) (p : Nat) (x : ChkPage) : (d.setChk p x).allocs = d.allocs := rfl
@[simp] theorem Dev.setChk_domW (d : Dev) (p : Nat) (x : ChkPage) : (d.setChk p x).domW = d.domW := rfl
@[simp] theorem Dev.setChk_domPrio (d : Dev) (p : Nat) (x : ChkPage) : (d.setChk p x).domPrio = d.domPrio := rfl
@[simp] theorem Dev.setChk_tdomW (d : Dev) (p : Nat) (x : ChkPage) : (d.setChk p x).tdomW = d.tdomW := rfl
@[simp] theorem Dev.setChk_domNext (d : Dev) (p : Nat) (x : ChkPage) : (d.setChk p x).domNext = d.domNext := rfl
@[simp] theorem Dev.setChk_fm (d : Dev) (p : Nat) (x : ChkPage) : (d.setChk p x).fm = d.fm := rfl
@[simp] theorem Dev.setChk_tables (d : Dev) (p : Nat) (x : ChkPage) : (d.setChk p x).tables = d.tables := rfl
@[simp] theorem Dev.setChk_profiles (d : Dev) (p : Nat) (x : ChkPage) : (d.setChk p x).profiles = d.profiles := rfl
@[simp] theorem Dev.setChk_lookups (d : Dev) (p : Nat) (x : ChkPage) : (d.setChk p x).lookups = d.lookups := rfl
@[simp] theorem Dev.setChk_spreads (d : Dev) (p : Nat) (x : ChkPage) : (d.setChk p x).spreads = d.spreads := rfl
@[simp] theorem Dev.setChk_mirrors (d : Dev) (p : Nat) (x : ChkPage) : (d.setChk p x).mirrors = d.mirrors := rfl
@[simp] theorem Dev.setChk_binds (d : Dev) (p : Nat) (x : ChkPage) : (d.setChk p x).binds = d.binds := rfl
@[simp] theorem Dev.setChk_cls (d : Dev) (p : Nat) (x : ChkPage) : (d.setChk p x).cls = d.cls := rfl
@[simp] theorem Dev.setChk_cursors (d : Dev) (p : Nat) (x : ChkPage) : (d.setChk p x).cursors = d.cursors := rfl
@[simp] theorem Dev.setChk_tac (d : Dev) (p : Nat) (x : ChkPage) : (d.setChk p x).tac = d.tac := rfl
@[simp] theorem Dev.setChk_tacDone (d : Dev) (p : Nat) (x : ChkPage) : (d.setChk p x).tacDone = d.tacDone := rfl
@[simp] theorem Dev.setChk_queues (d : Dev) (p : Nat) (x : ChkPage) : (d.setChk p x).queues = d.queues := rfl
@[simp] theorem Dev.setChk_nodes (d : Dev) (p : Nat) (x : ChkPage) : (d.setChk p x).nodes = d.nodes := rfl
@[simp] theorem Dev.setChk_shapers (d : Dev) (p : Nat) (x : ChkPage) : (d.setChk p x).shapers = d.shapers := rfl
@[simp] theorem Dev.setChk_shaperNext (d : Dev) (p : Nat) (x : ChkPage) : (d.setChk p x).shaperNext = d.shaperNext := rfl
@[simp] theorem Dev.setChk_meters (d : Dev) (p : Nat) (x : ChkPage) : (d.setChk p x).meters = d.meters := rfl
@[simp] theorem Dev.setChk_meterNext (d : Dev) (p : Nat) (x : ChkPage) : (d.setChk p x).meterNext = d.meterNext := rfl
@[simp] theorem Dev.setChk_gates (d : Dev) (p : Nat) (x : ChkPage) : (d.setChk p x).gates = d.gates := rfl
@[simp] theorem Dev.setChk_gateNext (d : Dev) (p : Nat) (x : ChkPage) : (d.setChk p x).gateNext = d.gateNext := rfl
@[simp] theorem Dev.setChk_pools (d : Dev) (p : Nat) (x : ChkPage) : (d.setChk p x).pools = d.pools := rfl
@[simp] theorem Dev.setChk_msec (d : Dev) (p : Nat) (x : ChkPage) : (d.setChk p x).msec = d.msec := rfl
@[simp] theorem Dev.setChk_pon (d : Dev) (p : Nat) (x : ChkPage) : (d.setChk p x).pon = d.pon := rfl
@[simp] theorem Dev.setChk_cru (d : Dev) (p : Nat) (x : ChkPage) : (d.setChk p x).cru = d.cru := rfl
@[simp] theorem Dev.setChk_chk (d : Dev) (p : Nat) (x : ChkPage) : (d.setChk p x).chk = mput d.chk p x := rfl
@[simp] theorem Dev.setChk_chkNo (d : Dev) (p : Nat) (x : ChkPage) : (d.setChk p x).chkNo = d.chkNo := rfl
@[simp] theorem Dev.setChk_host (d : Dev) (p : Nat) (x : ChkPage) : (d.setChk p x).host = d.host := rfl
@[simp] theorem Dev.setChk_senders (d : Dev) (p : Nat) (x : ChkPage) : (d.setChk p x).senders = d.senders := rfl
@[simp] theorem Dev.setChk_join (d : Dev) (p : Nat) (x : ChkPage) : (d.setChk p x).join = d.join := rfl
@[simp] theorem Dev.setChk_groups (d : Dev) (p : Nat) (x : ChkPage) : (d.setChk p x).groups = d.groups := rfl
@[simp] theorem Dev.setChk_leaseSeen (d : Dev) (p : Nat) (x : ChkPage) : (d.setChk p x).leaseSeen = d.leaseSeen := rfl
@[simp] theorem Dev.setChk_flt (d : Dev) (p : Nat) (x : ChkPage) : (d.setChk p x).flt = d.flt := rfl
@[simp] theorem Dev.setChk_asy (d : Dev) (p : Nat) (x : ChkPage) : (d.setChk p x).asy = d.asy := rfl
@[simp] theorem Dev.setChk_cnt (d : Dev) (p : Nat) (x : ChkPage) : (d.setChk p x).cnt = d.cnt := rfl
@[simp] theorem Dev.setChk_regs (d : Dev) (p : Nat) (x : ChkPage) : (d.setChk p x).regs = d.regs := rfl
@[simp] theorem Dev.setChk_lastRead (d : Dev) (p : Nat) (x : ChkPage) : (d.setChk p x).lastRead = d.lastRead := rfl
@[simp] theorem Dev.setChk_out (d : Dev) (p : Nat) (x : ChkPage) : (d.setChk p x).out = d.out := rfl
@[simp] theorem Dev.setChk_freeCtr (d : Dev) (p : Nat) (x : ChkPage) : (d.setChk p x).freeCtr = d.freeCtr := rfl

@[simp] theorem Dev.setPslot_variant (d : Dev) (n : Nat) (x : PSlot) : (d.setPslot n x).variant = d.variant := rfl
@[simp] theorem Dev.setPslot_time (d : Dev) (n : Nat) (x : PSlot) : (d.setPslot n x).time = d.time := rfl
@[simp] theorem Dev.setPslot_pwr (d : Dev) (n : Nat) (x : PSlot) : (d.setPslot n x).pwr = d.pwr := rfl
@[simp] theorem Dev.setPslot_rst (d : Dev) (n : Nat) (x : PSlot) : (d.setPslot n x).rst = d.rst := rfl
@[simp] theorem Dev.setPslot_tiles (d : Dev) (n : Nat) (x : PSlot) : (d.setPslot n x).tiles = d.tiles := rfl
@[simp] theorem Dev.setPslot_lanes (d : Dev) (n : Nat) (x : PSlot) : (d.setPslot n x).lanes = d.lanes := rfl
@[simp] theorem Dev.setPslot_subs (d : Dev) (n : Nat) (x : PSlot) : (d.setPslot n x).subs = d.subs := rfl
@[simp] theorem Dev.setPslot_trees (d : Dev) (n : Nat) (x : PSlot) : (d.setPslot n x).trees = d.trees := rfl
@[simp] theorem Dev.setPslot_chans (d : Dev) (n : Nat) (x : PSlot) : (d.setPslot n x).chans = d.chans := rfl
@[simp] theorem Dev.setPslot_terms (d : Dev) (n : Nat) (x : PSlot) : (d.setPslot n x).terms = d.terms := rfl
@[simp] theorem Dev.setPslot_circuits (d : Dev) (n : Nat) (x : PSlot) : (d.setPslot n x).circuits = d.circuits := rfl
@[simp] theorem Dev.setPslot_allocs (d : Dev) (n : Nat) (x : PSlot) : (d.setPslot n x).allocs = d.allocs := rfl
@[simp] theorem Dev.setPslot_domW (d : Dev) (n : Nat) (x : PSlot) : (d.setPslot n x).domW = d.domW := rfl
@[simp] theorem Dev.setPslot_domPrio (d : Dev) (n : Nat) (x : PSlot) : (d.setPslot n x).domPrio = d.domPrio := rfl
@[simp] theorem Dev.setPslot_tdomW (d : Dev) (n : Nat) (x : PSlot) : (d.setPslot n x).tdomW = d.tdomW := rfl
@[simp] theorem Dev.setPslot_domNext (d : Dev) (n : Nat) (x : PSlot) : (d.setPslot n x).domNext = d.domNext := rfl
@[simp] theorem Dev.setPslot_fm (d : Dev) (n : Nat) (x : PSlot) : (d.setPslot n x).fm = d.fm := rfl
@[simp] theorem Dev.setPslot_tables (d : Dev) (n : Nat) (x : PSlot) : (d.setPslot n x).tables = d.tables := rfl
@[simp] theorem Dev.setPslot_profiles (d : Dev) (n : Nat) (x : PSlot) : (d.setPslot n x).profiles = d.profiles := rfl
@[simp] theorem Dev.setPslot_lookups (d : Dev) (n : Nat) (x : PSlot) : (d.setPslot n x).lookups = d.lookups := rfl
@[simp] theorem Dev.setPslot_spreads (d : Dev) (n : Nat) (x : PSlot) : (d.setPslot n x).spreads = d.spreads := rfl
@[simp] theorem Dev.setPslot_mirrors (d : Dev) (n : Nat) (x : PSlot) : (d.setPslot n x).mirrors = d.mirrors := rfl
@[simp] theorem Dev.setPslot_binds (d : Dev) (n : Nat) (x : PSlot) : (d.setPslot n x).binds = d.binds := rfl
@[simp] theorem Dev.setPslot_cls (d : Dev) (n : Nat) (x : PSlot) : (d.setPslot n x).cls = d.cls := rfl
@[simp] theorem Dev.setPslot_cursors (d : Dev) (n : Nat) (x : PSlot) : (d.setPslot n x).cursors = d.cursors := rfl
@[simp] theorem Dev.setPslot_tac (d : Dev) (n : Nat) (x : PSlot) : (d.setPslot n x).tac = d.tac := rfl
@[simp] theorem Dev.setPslot_tacDone (d : Dev) (n : Nat) (x : PSlot) : (d.setPslot n x).tacDone = d.tacDone := rfl
@[simp] theorem Dev.setPslot_queues (d : Dev) (n : Nat) (x : PSlot) : (d.setPslot n x).queues = d.queues := rfl
@[simp] theorem Dev.setPslot_nodes (d : Dev) (n : Nat) (x : PSlot) : (d.setPslot n x).nodes = d.nodes := rfl
@[simp] theorem Dev.setPslot_shapers (d : Dev) (n : Nat) (x : PSlot) : (d.setPslot n x).shapers = d.shapers := rfl
@[simp] theorem Dev.setPslot_shaperNext (d : Dev) (n : Nat) (x : PSlot) : (d.setPslot n x).shaperNext = d.shaperNext := rfl
@[simp] theorem Dev.setPslot_meters (d : Dev) (n : Nat) (x : PSlot) : (d.setPslot n x).meters = d.meters := rfl
@[simp] theorem Dev.setPslot_meterNext (d : Dev) (n : Nat) (x : PSlot) : (d.setPslot n x).meterNext = d.meterNext := rfl
@[simp] theorem Dev.setPslot_gates (d : Dev) (n : Nat) (x : PSlot) : (d.setPslot n x).gates = d.gates := rfl
@[simp] theorem Dev.setPslot_gateNext (d : Dev) (n : Nat) (x : PSlot) : (d.setPslot n x).gateNext = d.gateNext := rfl
@[simp] theorem Dev.setPslot_pools (d : Dev) (n : Nat) (x : PSlot) : (d.setPslot n x).pools = d.pools := rfl
@[simp] theorem Dev.setPslot_msec (d : Dev) (n : Nat) (x : PSlot) : (d.setPslot n x).msec = d.msec := rfl
@[simp] theorem Dev.setPslot_pon (d : Dev) (n : Nat) (x : PSlot) : (d.setPslot n x).pon = d.pon := rfl
@[simp] theorem Dev.setPslot_cru (d : Dev) (n : Nat) (x : PSlot) : (d.setPslot n x).cru = { d.cru with slots := mput d.cru.slots n x } := rfl
@[simp] theorem Dev.setPslot_chk (d : Dev) (n : Nat) (x : PSlot) : (d.setPslot n x).chk = d.chk := rfl
@[simp] theorem Dev.setPslot_chkNo (d : Dev) (n : Nat) (x : PSlot) : (d.setPslot n x).chkNo = d.chkNo := rfl
@[simp] theorem Dev.setPslot_host (d : Dev) (n : Nat) (x : PSlot) : (d.setPslot n x).host = d.host := rfl
@[simp] theorem Dev.setPslot_senders (d : Dev) (n : Nat) (x : PSlot) : (d.setPslot n x).senders = d.senders := rfl
@[simp] theorem Dev.setPslot_join (d : Dev) (n : Nat) (x : PSlot) : (d.setPslot n x).join = d.join := rfl
@[simp] theorem Dev.setPslot_groups (d : Dev) (n : Nat) (x : PSlot) : (d.setPslot n x).groups = d.groups := rfl
@[simp] theorem Dev.setPslot_leaseSeen (d : Dev) (n : Nat) (x : PSlot) : (d.setPslot n x).leaseSeen = d.leaseSeen := rfl
@[simp] theorem Dev.setPslot_flt (d : Dev) (n : Nat) (x : PSlot) : (d.setPslot n x).flt = d.flt := rfl
@[simp] theorem Dev.setPslot_asy (d : Dev) (n : Nat) (x : PSlot) : (d.setPslot n x).asy = d.asy := rfl
@[simp] theorem Dev.setPslot_cnt (d : Dev) (n : Nat) (x : PSlot) : (d.setPslot n x).cnt = d.cnt := rfl
@[simp] theorem Dev.setPslot_regs (d : Dev) (n : Nat) (x : PSlot) : (d.setPslot n x).regs = d.regs := rfl
@[simp] theorem Dev.setPslot_lastRead (d : Dev) (n : Nat) (x : PSlot) : (d.setPslot n x).lastRead = d.lastRead := rfl
@[simp] theorem Dev.setPslot_out (d : Dev) (n : Nat) (x : PSlot) : (d.setPslot n x).out = d.out := rfl
@[simp] theorem Dev.setPslot_freeCtr (d : Dev) (n : Nat) (x : PSlot) : (d.setPslot n x).freeCtr = d.freeCtr := rfl

@[simp] theorem Dev.setPon_variant (d : Dev) (t : Nat) (x : PonKey) : (d.setPon t x).variant = d.variant := rfl
@[simp] theorem Dev.setPon_time (d : Dev) (t : Nat) (x : PonKey) : (d.setPon t x).time = d.time := rfl
@[simp] theorem Dev.setPon_pwr (d : Dev) (t : Nat) (x : PonKey) : (d.setPon t x).pwr = d.pwr := rfl
@[simp] theorem Dev.setPon_rst (d : Dev) (t : Nat) (x : PonKey) : (d.setPon t x).rst = d.rst := rfl
@[simp] theorem Dev.setPon_tiles (d : Dev) (t : Nat) (x : PonKey) : (d.setPon t x).tiles = d.tiles := rfl
@[simp] theorem Dev.setPon_lanes (d : Dev) (t : Nat) (x : PonKey) : (d.setPon t x).lanes = d.lanes := rfl
@[simp] theorem Dev.setPon_subs (d : Dev) (t : Nat) (x : PonKey) : (d.setPon t x).subs = d.subs := rfl
@[simp] theorem Dev.setPon_trees (d : Dev) (t : Nat) (x : PonKey) : (d.setPon t x).trees = d.trees := rfl
@[simp] theorem Dev.setPon_chans (d : Dev) (t : Nat) (x : PonKey) : (d.setPon t x).chans = d.chans := rfl
@[simp] theorem Dev.setPon_terms (d : Dev) (t : Nat) (x : PonKey) : (d.setPon t x).terms = d.terms := rfl
@[simp] theorem Dev.setPon_circuits (d : Dev) (t : Nat) (x : PonKey) : (d.setPon t x).circuits = d.circuits := rfl
@[simp] theorem Dev.setPon_allocs (d : Dev) (t : Nat) (x : PonKey) : (d.setPon t x).allocs = d.allocs := rfl
@[simp] theorem Dev.setPon_domW (d : Dev) (t : Nat) (x : PonKey) : (d.setPon t x).domW = d.domW := rfl
@[simp] theorem Dev.setPon_domPrio (d : Dev) (t : Nat) (x : PonKey) : (d.setPon t x).domPrio = d.domPrio := rfl
@[simp] theorem Dev.setPon_tdomW (d : Dev) (t : Nat) (x : PonKey) : (d.setPon t x).tdomW = d.tdomW := rfl
@[simp] theorem Dev.setPon_domNext (d : Dev) (t : Nat) (x : PonKey) : (d.setPon t x).domNext = d.domNext := rfl
@[simp] theorem Dev.setPon_fm (d : Dev) (t : Nat) (x : PonKey) : (d.setPon t x).fm = d.fm := rfl
@[simp] theorem Dev.setPon_tables (d : Dev) (t : Nat) (x : PonKey) : (d.setPon t x).tables = d.tables := rfl
@[simp] theorem Dev.setPon_profiles (d : Dev) (t : Nat) (x : PonKey) : (d.setPon t x).profiles = d.profiles := rfl
@[simp] theorem Dev.setPon_lookups (d : Dev) (t : Nat) (x : PonKey) : (d.setPon t x).lookups = d.lookups := rfl
@[simp] theorem Dev.setPon_spreads (d : Dev) (t : Nat) (x : PonKey) : (d.setPon t x).spreads = d.spreads := rfl
@[simp] theorem Dev.setPon_mirrors (d : Dev) (t : Nat) (x : PonKey) : (d.setPon t x).mirrors = d.mirrors := rfl
@[simp] theorem Dev.setPon_binds (d : Dev) (t : Nat) (x : PonKey) : (d.setPon t x).binds = d.binds := rfl
@[simp] theorem Dev.setPon_cls (d : Dev) (t : Nat) (x : PonKey) : (d.setPon t x).cls = d.cls := rfl
@[simp] theorem Dev.setPon_cursors (d : Dev) (t : Nat) (x : PonKey) : (d.setPon t x).cursors = d.cursors := rfl
@[simp] theorem Dev.setPon_tac (d : Dev) (t : Nat) (x : PonKey) : (d.setPon t x).tac = d.tac := rfl
@[simp] theorem Dev.setPon_tacDone (d : Dev) (t : Nat) (x : PonKey) : (d.setPon t x).tacDone = d.tacDone := rfl
@[simp] theorem Dev.setPon_queues (d : Dev) (t : Nat) (x : PonKey) : (d.setPon t x).queues = d.queues := rfl
@[simp] theorem Dev.setPon_nodes (d : Dev) (t : Nat) (x : PonKey) : (d.setPon t x).nodes = d.nodes := rfl
@[simp] theorem Dev.setPon_shapers (d : Dev) (t : Nat) (x : PonKey) : (d.setPon t x).shapers = d.shapers := rfl
@[simp] theorem Dev.setPon_shaperNext (d : Dev) (t : Nat) (x : PonKey) : (d.setPon t x).shaperNext = d.shaperNext := rfl
@[simp] theorem Dev.setPon_meters (d : Dev) (t : Nat) (x : PonKey) : (d.setPon t x).meters = d.meters := rfl
@[simp] theorem Dev.setPon_meterNext (d : Dev) (t : Nat) (x : PonKey) : (d.setPon t x).meterNext = d.meterNext := rfl
@[simp] theorem Dev.setPon_gates (d : Dev) (t : Nat) (x : PonKey) : (d.setPon t x).gates = d.gates := rfl
@[simp] theorem Dev.setPon_gateNext (d : Dev) (t : Nat) (x : PonKey) : (d.setPon t x).gateNext = d.gateNext := rfl
@[simp] theorem Dev.setPon_pools (d : Dev) (t : Nat) (x : PonKey) : (d.setPon t x).pools = d.pools := rfl
@[simp] theorem Dev.setPon_msec (d : Dev) (t : Nat) (x : PonKey) : (d.setPon t x).msec = d.msec := rfl
@[simp] theorem Dev.setPon_pon (d : Dev) (t : Nat) (x : PonKey) : (d.setPon t x).pon = mput d.pon t x := rfl
@[simp] theorem Dev.setPon_cru (d : Dev) (t : Nat) (x : PonKey) : (d.setPon t x).cru = d.cru := rfl
@[simp] theorem Dev.setPon_chk (d : Dev) (t : Nat) (x : PonKey) : (d.setPon t x).chk = d.chk := rfl
@[simp] theorem Dev.setPon_chkNo (d : Dev) (t : Nat) (x : PonKey) : (d.setPon t x).chkNo = d.chkNo := rfl
@[simp] theorem Dev.setPon_host (d : Dev) (t : Nat) (x : PonKey) : (d.setPon t x).host = d.host := rfl
@[simp] theorem Dev.setPon_senders (d : Dev) (t : Nat) (x : PonKey) : (d.setPon t x).senders = d.senders := rfl
@[simp] theorem Dev.setPon_join (d : Dev) (t : Nat) (x : PonKey) : (d.setPon t x).join = d.join := rfl
@[simp] theorem Dev.setPon_groups (d : Dev) (t : Nat) (x : PonKey) : (d.setPon t x).groups = d.groups := rfl
@[simp] theorem Dev.setPon_leaseSeen (d : Dev) (t : Nat) (x : PonKey) : (d.setPon t x).leaseSeen = d.leaseSeen := rfl
@[simp] theorem Dev.setPon_flt (d : Dev) (t : Nat) (x : PonKey) : (d.setPon t x).flt = d.flt := rfl
@[simp] theorem Dev.setPon_asy (d : Dev) (t : Nat) (x : PonKey) : (d.setPon t x).asy = d.asy := rfl
@[simp] theorem Dev.setPon_cnt (d : Dev) (t : Nat) (x : PonKey) : (d.setPon t x).cnt = d.cnt := rfl
@[simp] theorem Dev.setPon_regs (d : Dev) (t : Nat) (x : PonKey) : (d.setPon t x).regs = d.regs := rfl
@[simp] theorem Dev.setPon_lastRead (d : Dev) (t : Nat) (x : PonKey) : (d.setPon t x).lastRead = d.lastRead := rfl
@[simp] theorem Dev.setPon_out (d : Dev) (t : Nat) (x : PonKey) : (d.setPon t x).out = d.out := rfl
@[simp] theorem Dev.setPon_freeCtr (d : Dev) (t : Nat) (x : PonKey) : (d.setPon t x).freeCtr = d.freeCtr := rfl

@[simp] theorem Dev.setSa_variant (d : Dev) (n : Nat) (x : SaSlot) : (d.setSa n x).variant = d.variant := rfl
@[simp] theorem Dev.setSa_time (d : Dev) (n : Nat) (x : SaSlot) : (d.setSa n x).time = d.time := rfl
@[simp] theorem Dev.setSa_pwr (d : Dev) (n : Nat) (x : SaSlot) : (d.setSa n x).pwr = d.pwr := rfl
@[simp] theorem Dev.setSa_rst (d : Dev) (n : Nat) (x : SaSlot) : (d.setSa n x).rst = d.rst := rfl
@[simp] theorem Dev.setSa_tiles (d : Dev) (n : Nat) (x : SaSlot) : (d.setSa n x).tiles = d.tiles := rfl
@[simp] theorem Dev.setSa_lanes (d : Dev) (n : Nat) (x : SaSlot) : (d.setSa n x).lanes = d.lanes := rfl
@[simp] theorem Dev.setSa_subs (d : Dev) (n : Nat) (x : SaSlot) : (d.setSa n x).subs = d.subs := rfl
@[simp] theorem Dev.setSa_trees (d : Dev) (n : Nat) (x : SaSlot) : (d.setSa n x).trees = d.trees := rfl
@[simp] theorem Dev.setSa_chans (d : Dev) (n : Nat) (x : SaSlot) : (d.setSa n x).chans = d.chans := rfl
@[simp] theorem Dev.setSa_terms (d : Dev) (n : Nat) (x : SaSlot) : (d.setSa n x).terms = d.terms := rfl
@[simp] theorem Dev.setSa_circuits (d : Dev) (n : Nat) (x : SaSlot) : (d.setSa n x).circuits = d.circuits := rfl
@[simp] theorem Dev.setSa_allocs (d : Dev) (n : Nat) (x : SaSlot) : (d.setSa n x).allocs = d.allocs := rfl
@[simp] theorem Dev.setSa_domW (d : Dev) (n : Nat) (x : SaSlot) : (d.setSa n x).domW = d.domW := rfl
@[simp] theorem Dev.setSa_domPrio (d : Dev) (n : Nat) (x : SaSlot) : (d.setSa n x).domPrio = d.domPrio := rfl
@[simp] theorem Dev.setSa_tdomW (d : Dev) (n : Nat) (x : SaSlot) : (d.setSa n x).tdomW = d.tdomW := rfl
@[simp] theorem Dev.setSa_domNext (d : Dev) (n : Nat) (x : SaSlot) : (d.setSa n x).domNext = d.domNext := rfl
@[simp] theorem Dev.setSa_fm (d : Dev) (n : Nat) (x : SaSlot) : (d.setSa n x).fm = d.fm := rfl
@[simp] theorem Dev.setSa_tables (d : Dev) (n : Nat) (x : SaSlot) : (d.setSa n x).tables = d.tables := rfl
@[simp] theorem Dev.setSa_profiles (d : Dev) (n : Nat) (x : SaSlot) : (d.setSa n x).profiles = d.profiles := rfl
@[simp] theorem Dev.setSa_lookups (d : Dev) (n : Nat) (x : SaSlot) : (d.setSa n x).lookups = d.lookups := rfl
@[simp] theorem Dev.setSa_spreads (d : Dev) (n : Nat) (x : SaSlot) : (d.setSa n x).spreads = d.spreads := rfl
@[simp] theorem Dev.setSa_mirrors (d : Dev) (n : Nat) (x : SaSlot) : (d.setSa n x).mirrors = d.mirrors := rfl
@[simp] theorem Dev.setSa_binds (d : Dev) (n : Nat) (x : SaSlot) : (d.setSa n x).binds = d.binds := rfl
@[simp] theorem Dev.setSa_cls (d : Dev) (n : Nat) (x : SaSlot) : (d.setSa n x).cls = d.cls := rfl
@[simp] theorem Dev.setSa_cursors (d : Dev) (n : Nat) (x : SaSlot) : (d.setSa n x).cursors = d.cursors := rfl
@[simp] theorem Dev.setSa_tac (d : Dev) (n : Nat) (x : SaSlot) : (d.setSa n x).tac = d.tac := rfl
@[simp] theorem Dev.setSa_tacDone (d : Dev) (n : Nat) (x : SaSlot) : (d.setSa n x).tacDone = d.tacDone := rfl
@[simp] theorem Dev.setSa_queues (d : Dev) (n : Nat) (x : SaSlot) : (d.setSa n x).queues = d.queues := rfl
@[simp] theorem Dev.setSa_nodes (d : Dev) (n : Nat) (x : SaSlot) : (d.setSa n x).nodes = d.nodes := rfl
@[simp] theorem Dev.setSa_shapers (d : Dev) (n : Nat) (x : SaSlot) : (d.setSa n x).shapers = d.shapers := rfl
@[simp] theorem Dev.setSa_shaperNext (d : Dev) (n : Nat) (x : SaSlot) : (d.setSa n x).shaperNext = d.shaperNext := rfl
@[simp] theorem Dev.setSa_meters (d : Dev) (n : Nat) (x : SaSlot) : (d.setSa n x).meters = d.meters := rfl
@[simp] theorem Dev.setSa_meterNext (d : Dev) (n : Nat) (x : SaSlot) : (d.setSa n x).meterNext = d.meterNext := rfl
@[simp] theorem Dev.setSa_gates (d : Dev) (n : Nat) (x : SaSlot) : (d.setSa n x).gates = d.gates := rfl
@[simp] theorem Dev.setSa_gateNext (d : Dev) (n : Nat) (x : SaSlot) : (d.setSa n x).gateNext = d.gateNext := rfl
@[simp] theorem Dev.setSa_pools (d : Dev) (n : Nat) (x : SaSlot) : (d.setSa n x).pools = d.pools := rfl
@[simp] theorem Dev.setSa_msec (d : Dev) (n : Nat) (x : SaSlot) : (d.setSa n x).msec = { d.msec with sas := mput d.msec.sas n x } := rfl
@[simp] theorem Dev.setSa_pon (d : Dev) (n : Nat) (x : SaSlot) : (d.setSa n x).pon = d.pon := rfl
@[simp] theorem Dev.setSa_cru (d : Dev) (n : Nat) (x : SaSlot) : (d.setSa n x).cru = d.cru := rfl
@[simp] theorem Dev.setSa_chk (d : Dev) (n : Nat) (x : SaSlot) : (d.setSa n x).chk = d.chk := rfl
@[simp] theorem Dev.setSa_chkNo (d : Dev) (n : Nat) (x : SaSlot) : (d.setSa n x).chkNo = d.chkNo := rfl
@[simp] theorem Dev.setSa_host (d : Dev) (n : Nat) (x : SaSlot) : (d.setSa n x).host = d.host := rfl
@[simp] theorem Dev.setSa_senders (d : Dev) (n : Nat) (x : SaSlot) : (d.setSa n x).senders = d.senders := rfl
@[simp] theorem Dev.setSa_join (d : Dev) (n : Nat) (x : SaSlot) : (d.setSa n x).join = d.join := rfl
@[simp] theorem Dev.setSa_groups (d : Dev) (n : Nat) (x : SaSlot) : (d.setSa n x).groups = d.groups := rfl
@[simp] theorem Dev.setSa_leaseSeen (d : Dev) (n : Nat) (x : SaSlot) : (d.setSa n x).leaseSeen = d.leaseSeen := rfl
@[simp] theorem Dev.setSa_flt (d : Dev) (n : Nat) (x : SaSlot) : (d.setSa n x).flt = d.flt := rfl
@[simp] theorem Dev.setSa_asy (d : Dev) (n : Nat) (x : SaSlot) : (d.setSa n x).asy = d.asy := rfl
@[simp] theorem Dev.setSa_cnt (d : Dev) (n : Nat) (x : SaSlot) : (d.setSa n x).cnt = d.cnt := rfl
@[simp] theorem Dev.setSa_regs (d : Dev) (n : Nat) (x : SaSlot) : (d.setSa n x).regs = d.regs := rfl
@[simp] theorem Dev.setSa_lastRead (d : Dev) (n : Nat) (x : SaSlot) : (d.setSa n x).lastRead = d.lastRead := rfl
@[simp] theorem Dev.setSa_out (d : Dev) (n : Nat) (x : SaSlot) : (d.setSa n x).out = d.out := rfl
@[simp] theorem Dev.setSa_freeCtr (d : Dev) (n : Nat) (x : SaSlot) : (d.setSa n x).freeCtr = d.freeCtr := rfl

@[simp] theorem Dev.setSysPort_variant (d : Dev) (p : Nat) (x : SysPort) : (d.setSysPort p x).variant = d.variant := rfl
@[simp] theorem Dev.setSysPort_time (d : Dev) (p : Nat) (x : SysPort) : (d.setSysPort p x).time = d.time := rfl
@[simp] theorem Dev.setSysPort_pwr (d : Dev) (p : Nat) (x : SysPort) : (d.setSysPort p x).pwr = d.pwr := rfl
@[simp] theorem Dev.setSysPort_rst (d : Dev) (p : Nat) (x : SysPort) : (d.setSysPort p x).rst = d.rst := rfl
@[simp] theorem Dev.setSysPort_tiles (d : Dev) (p : Nat) (x : SysPort) : (d.setSysPort p x).tiles = d.tiles := rfl
@[simp] theorem Dev.setSysPort_lanes (d : Dev) (p : Nat) (x : SysPort) : (d.setSysPort p x).lanes = d.lanes := rfl
@[simp] theorem Dev.setSysPort_subs (d : Dev) (p : Nat) (x : SysPort) : (d.setSysPort p x).subs = d.subs := rfl
@[simp] theorem Dev.setSysPort_trees (d : Dev) (p : Nat) (x : SysPort) : (d.setSysPort p x).trees = d.trees := rfl
@[simp] theorem Dev.setSysPort_chans (d : Dev) (p : Nat) (x : SysPort) : (d.setSysPort p x).chans = d.chans := rfl
@[simp] theorem Dev.setSysPort_terms (d : Dev) (p : Nat) (x : SysPort) : (d.setSysPort p x).terms = d.terms := rfl
@[simp] theorem Dev.setSysPort_circuits (d : Dev) (p : Nat) (x : SysPort) : (d.setSysPort p x).circuits = d.circuits := rfl
@[simp] theorem Dev.setSysPort_allocs (d : Dev) (p : Nat) (x : SysPort) : (d.setSysPort p x).allocs = d.allocs := rfl
@[simp] theorem Dev.setSysPort_domW (d : Dev) (p : Nat) (x : SysPort) : (d.setSysPort p x).domW = d.domW := rfl
@[simp] theorem Dev.setSysPort_domPrio (d : Dev) (p : Nat) (x : SysPort) : (d.setSysPort p x).domPrio = d.domPrio := rfl
@[simp] theorem Dev.setSysPort_tdomW (d : Dev) (p : Nat) (x : SysPort) : (d.setSysPort p x).tdomW = d.tdomW := rfl
@[simp] theorem Dev.setSysPort_domNext (d : Dev) (p : Nat) (x : SysPort) : (d.setSysPort p x).domNext = d.domNext := rfl
@[simp] theorem Dev.setSysPort_fm (d : Dev) (p : Nat) (x : SysPort) : (d.setSysPort p x).fm = d.fm := rfl
@[simp] theorem Dev.setSysPort_tables (d : Dev) (p : Nat) (x : SysPort) : (d.setSysPort p x).tables = d.tables := rfl
@[simp] theorem Dev.setSysPort_profiles (d : Dev) (p : Nat) (x : SysPort) : (d.setSysPort p x).profiles = d.profiles := rfl
@[simp] theorem Dev.setSysPort_lookups (d : Dev) (p : Nat) (x : SysPort) : (d.setSysPort p x).lookups = d.lookups := rfl
@[simp] theorem Dev.setSysPort_spreads (d : Dev) (p : Nat) (x : SysPort) : (d.setSysPort p x).spreads = d.spreads := rfl
@[simp] theorem Dev.setSysPort_mirrors (d : Dev) (p : Nat) (x : SysPort) : (d.setSysPort p x).mirrors = d.mirrors := rfl
@[simp] theorem Dev.setSysPort_binds (d : Dev) (p : Nat) (x : SysPort) : (d.setSysPort p x).binds = d.binds := rfl
@[simp] theorem Dev.setSysPort_cls (d : Dev) (p : Nat) (x : SysPort) : (d.setSysPort p x).cls = d.cls := rfl
@[simp] theorem Dev.setSysPort_cursors (d : Dev) (p : Nat) (x : SysPort) : (d.setSysPort p x).cursors = d.cursors := rfl
@[simp] theorem Dev.setSysPort_tac (d : Dev) (p : Nat) (x : SysPort) : (d.setSysPort p x).tac = d.tac := rfl
@[simp] theorem Dev.setSysPort_tacDone (d : Dev) (p : Nat) (x : SysPort) : (d.setSysPort p x).tacDone = d.tacDone := rfl
@[simp] theorem Dev.setSysPort_queues (d : Dev) (p : Nat) (x : SysPort) : (d.setSysPort p x).queues = d.queues := rfl
@[simp] theorem Dev.setSysPort_nodes (d : Dev) (p : Nat) (x : SysPort) : (d.setSysPort p x).nodes = d.nodes := rfl
@[simp] theorem Dev.setSysPort_shapers (d : Dev) (p : Nat) (x : SysPort) : (d.setSysPort p x).shapers = d.shapers := rfl
@[simp] theorem Dev.setSysPort_shaperNext (d : Dev) (p : Nat) (x : SysPort) : (d.setSysPort p x).shaperNext = d.shaperNext := rfl
@[simp] theorem Dev.setSysPort_meters (d : Dev) (p : Nat) (x : SysPort) : (d.setSysPort p x).meters = d.meters := rfl
@[simp] theorem Dev.setSysPort_meterNext (d : Dev) (p : Nat) (x : SysPort) : (d.setSysPort p x).meterNext = d.meterNext := rfl
@[simp] theorem Dev.setSysPort_gates (d : Dev) (p : Nat) (x : SysPort) : (d.setSysPort p x).gates = d.gates := rfl
@[simp] theorem Dev.setSysPort_gateNext (d : Dev) (p : Nat) (x : SysPort) : (d.setSysPort p x).gateNext = d.gateNext := rfl
@[simp] theorem Dev.setSysPort_pools (d : Dev) (p : Nat) (x : SysPort) : (d.setSysPort p x).pools = d.pools := rfl
@[simp] theorem Dev.setSysPort_msec (d : Dev) (p : Nat) (x : SysPort) : (d.setSysPort p x).msec = d.msec := rfl
@[simp] theorem Dev.setSysPort_pon (d : Dev) (p : Nat) (x : SysPort) : (d.setSysPort p x).pon = d.pon := rfl
@[simp] theorem Dev.setSysPort_cru (d : Dev) (p : Nat) (x : SysPort) : (d.setSysPort p x).cru = d.cru := rfl
@[simp] theorem Dev.setSysPort_chk (d : Dev) (p : Nat) (x : SysPort) : (d.setSysPort p x).chk = d.chk := rfl
@[simp] theorem Dev.setSysPort_chkNo (d : Dev) (p : Nat) (x : SysPort) : (d.setSysPort p x).chkNo = d.chkNo := rfl
@[simp] theorem Dev.setSysPort_host (d : Dev) (p : Nat) (x : SysPort) : (d.setSysPort p x).host = d.host := rfl
@[simp] theorem Dev.setSysPort_senders (d : Dev) (p : Nat) (x : SysPort) : (d.setSysPort p x).senders = d.senders := rfl
@[simp] theorem Dev.setSysPort_join (d : Dev) (p : Nat) (x : SysPort) : (d.setSysPort p x).join = { d.join with ports := mput d.join.ports p x } := rfl
@[simp] theorem Dev.setSysPort_groups (d : Dev) (p : Nat) (x : SysPort) : (d.setSysPort p x).groups = d.groups := rfl
@[simp] theorem Dev.setSysPort_leaseSeen (d : Dev) (p : Nat) (x : SysPort) : (d.setSysPort p x).leaseSeen = d.leaseSeen := rfl
@[simp] theorem Dev.setSysPort_flt (d : Dev) (p : Nat) (x : SysPort) : (d.setSysPort p x).flt = d.flt := rfl
@[simp] theorem Dev.setSysPort_asy (d : Dev) (p : Nat) (x : SysPort) : (d.setSysPort p x).asy = d.asy := rfl
@[simp] theorem Dev.setSysPort_cnt (d : Dev) (p : Nat) (x : SysPort) : (d.setSysPort p x).cnt = d.cnt := rfl
@[simp] theorem Dev.setSysPort_regs (d : Dev) (p : Nat) (x : SysPort) : (d.setSysPort p x).regs = d.regs := rfl
@[simp] theorem Dev.setSysPort_lastRead (d : Dev) (p : Nat) (x : SysPort) : (d.setSysPort p x).lastRead = d.lastRead := rfl
@[simp] theorem Dev.setSysPort_out (d : Dev) (p : Nat) (x : SysPort) : (d.setSysPort p x).out = d.out := rfl
@[simp] theorem Dev.setSysPort_freeCtr (d : Dev) (p : Nat) (x : SysPort) : (d.setSysPort p x).freeCtr = d.freeCtr := rfl

@[simp] theorem Dev.setAsyTile_variant (d : Dev) (t : Nat) (x : AssayTile) : (d.setAsyTile t x).variant = d.variant := rfl
@[simp] theorem Dev.setAsyTile_time (d : Dev) (t : Nat) (x : AssayTile) : (d.setAsyTile t x).time = d.time := rfl
@[simp] theorem Dev.setAsyTile_pwr (d : Dev) (t : Nat) (x : AssayTile) : (d.setAsyTile t x).pwr = d.pwr := rfl
@[simp] theorem Dev.setAsyTile_rst (d : Dev) (t : Nat) (x : AssayTile) : (d.setAsyTile t x).rst = d.rst := rfl
@[simp] theorem Dev.setAsyTile_tiles (d : Dev) (t : Nat) (x : AssayTile) : (d.setAsyTile t x).tiles = d.tiles := rfl
@[simp] theorem Dev.setAsyTile_lanes (d : Dev) (t : Nat) (x : AssayTile) : (d.setAsyTile t x).lanes = d.lanes := rfl
@[simp] theorem Dev.setAsyTile_subs (d : Dev) (t : Nat) (x : AssayTile) : (d.setAsyTile t x).subs = d.subs := rfl
@[simp] theorem Dev.setAsyTile_trees (d : Dev) (t : Nat) (x : AssayTile) : (d.setAsyTile t x).trees = d.trees := rfl
@[simp] theorem Dev.setAsyTile_chans (d : Dev) (t : Nat) (x : AssayTile) : (d.setAsyTile t x).chans = d.chans := rfl
@[simp] theorem Dev.setAsyTile_terms (d : Dev) (t : Nat) (x : AssayTile) : (d.setAsyTile t x).terms = d.terms := rfl
@[simp] theorem Dev.setAsyTile_circuits (d : Dev) (t : Nat) (x : AssayTile) : (d.setAsyTile t x).circuits = d.circuits := rfl
@[simp] theorem Dev.setAsyTile_allocs (d : Dev) (t : Nat) (x : AssayTile) : (d.setAsyTile t x).allocs = d.allocs := rfl
@[simp] theorem Dev.setAsyTile_domW (d : Dev) (t : Nat) (x : AssayTile) : (d.setAsyTile t x).domW = d.domW := rfl
@[simp] theorem Dev.setAsyTile_domPrio (d : Dev) (t : Nat) (x : AssayTile) : (d.setAsyTile t x).domPrio = d.domPrio := rfl
@[simp] theorem Dev.setAsyTile_tdomW (d : Dev) (t : Nat) (x : AssayTile) : (d.setAsyTile t x).tdomW = d.tdomW := rfl
@[simp] theorem Dev.setAsyTile_domNext (d : Dev) (t : Nat) (x : AssayTile) : (d.setAsyTile t x).domNext = d.domNext := rfl
@[simp] theorem Dev.setAsyTile_fm (d : Dev) (t : Nat) (x : AssayTile) : (d.setAsyTile t x).fm = d.fm := rfl
@[simp] theorem Dev.setAsyTile_tables (d : Dev) (t : Nat) (x : AssayTile) : (d.setAsyTile t x).tables = d.tables := rfl
@[simp] theorem Dev.setAsyTile_profiles (d : Dev) (t : Nat) (x : AssayTile) : (d.setAsyTile t x).profiles = d.profiles := rfl
@[simp] theorem Dev.setAsyTile_lookups (d : Dev) (t : Nat) (x : AssayTile) : (d.setAsyTile t x).lookups = d.lookups := rfl
@[simp] theorem Dev.setAsyTile_spreads (d : Dev) (t : Nat) (x : AssayTile) : (d.setAsyTile t x).spreads = d.spreads := rfl
@[simp] theorem Dev.setAsyTile_mirrors (d : Dev) (t : Nat) (x : AssayTile) : (d.setAsyTile t x).mirrors = d.mirrors := rfl
@[simp] theorem Dev.setAsyTile_binds (d : Dev) (t : Nat) (x : AssayTile) : (d.setAsyTile t x).binds = d.binds := rfl
@[simp] theorem Dev.setAsyTile_cls (d : Dev) (t : Nat) (x : AssayTile) : (d.setAsyTile t x).cls = d.cls := rfl
@[simp] theorem Dev.setAsyTile_cursors (d : Dev) (t : Nat) (x : AssayTile) : (d.setAsyTile t x).cursors = d.cursors := rfl
@[simp] theorem Dev.setAsyTile_tac (d : Dev) (t : Nat) (x : AssayTile) : (d.setAsyTile t x).tac = d.tac := rfl
@[simp] theorem Dev.setAsyTile_tacDone (d : Dev) (t : Nat) (x : AssayTile) : (d.setAsyTile t x).tacDone = d.tacDone := rfl
@[simp] theorem Dev.setAsyTile_queues (d : Dev) (t : Nat) (x : AssayTile) : (d.setAsyTile t x).queues = d.queues := rfl
@[simp] theorem Dev.setAsyTile_nodes (d : Dev) (t : Nat) (x : AssayTile) : (d.setAsyTile t x).nodes = d.nodes := rfl
@[simp] theorem Dev.setAsyTile_shapers (d : Dev) (t : Nat) (x : AssayTile) : (d.setAsyTile t x).shapers = d.shapers := rfl
@[simp] theorem Dev.setAsyTile_shaperNext (d : Dev) (t : Nat) (x : AssayTile) : (d.setAsyTile t x).shaperNext = d.shaperNext := rfl
@[simp] theorem Dev.setAsyTile_meters (d : Dev) (t : Nat) (x : AssayTile) : (d.setAsyTile t x).meters = d.meters := rfl
@[simp] theorem Dev.setAsyTile_meterNext (d : Dev) (t : Nat) (x : AssayTile) : (d.setAsyTile t x).meterNext = d.meterNext := rfl
@[simp] theorem Dev.setAsyTile_gates (d : Dev) (t : Nat) (x : AssayTile) : (d.setAsyTile t x).gates = d.gates := rfl
@[simp] theorem Dev.setAsyTile_gateNext (d : Dev) (t : Nat) (x : AssayTile) : (d.setAsyTile t x).gateNext = d.gateNext := rfl
@[simp] theorem Dev.setAsyTile_pools (d : Dev) (t : Nat) (x : AssayTile) : (d.setAsyTile t x).pools = d.pools := rfl
@[simp] theorem Dev.setAsyTile_msec (d : Dev) (t : Nat) (x : AssayTile) : (d.setAsyTile t x).msec = d.msec := rfl
@[simp] theorem Dev.setAsyTile_pon (d : Dev) (t : Nat) (x : AssayTile) : (d.setAsyTile t x).pon = d.pon := rfl
@[simp] theorem Dev.setAsyTile_cru (d : Dev) (t : Nat) (x : AssayTile) : (d.setAsyTile t x).cru = d.cru := rfl
@[simp] theorem Dev.setAsyTile_chk (d : Dev) (t : Nat) (x : AssayTile) : (d.setAsyTile t x).chk = d.chk := rfl
@[simp] theorem Dev.setAsyTile_chkNo (d : Dev) (t : Nat) (x : AssayTile) : (d.setAsyTile t x).chkNo = d.chkNo := rfl
@[simp] theorem Dev.setAsyTile_host (d : Dev) (t : Nat) (x : AssayTile) : (d.setAsyTile t x).host = d.host := rfl
@[simp] theorem Dev.setAsyTile_senders (d : Dev) (t : Nat) (x : AssayTile) : (d.setAsyTile t x).senders = d.senders := rfl
@[simp] theorem Dev.setAsyTile_join (d : Dev) (t : Nat) (x : AssayTile) : (d.setAsyTile t x).join = d.join := rfl
@[simp] theorem Dev.setAsyTile_groups (d : Dev) (t : Nat) (x : AssayTile) : (d.setAsyTile t x).groups = d.groups := rfl
@[simp] theorem Dev.setAsyTile_leaseSeen (d : Dev) (t : Nat) (x : AssayTile) : (d.setAsyTile t x).leaseSeen = d.leaseSeen := rfl
@[simp] theorem Dev.setAsyTile_flt (d : Dev) (t : Nat) (x : AssayTile) : (d.setAsyTile t x).flt = d.flt := rfl
@[simp] theorem Dev.setAsyTile_asy (d : Dev) (t : Nat) (x : AssayTile) : (d.setAsyTile t x).asy = { d.asy with tiles := mput d.asy.tiles t x } := rfl
@[simp] theorem Dev.setAsyTile_cnt (d : Dev) (t : Nat) (x : AssayTile) : (d.setAsyTile t x).cnt = d.cnt := rfl
@[simp] theorem Dev.setAsyTile_regs (d : Dev) (t : Nat) (x : AssayTile) : (d.setAsyTile t x).regs = d.regs := rfl
@[simp] theorem Dev.setAsyTile_lastRead (d : Dev) (t : Nat) (x : AssayTile) : (d.setAsyTile t x).lastRead = d.lastRead := rfl
@[simp] theorem Dev.setAsyTile_out (d : Dev) (t : Nat) (x : AssayTile) : (d.setAsyTile t x).out = d.out := rfl
@[simp] theorem Dev.setAsyTile_freeCtr (d : Dev) (t : Nat) (x : AssayTile) : (d.setAsyTile t x).freeCtr = d.freeCtr := rfl

@[simp] theorem Dev.setTrain_variant (d : Dev) (t : Nat) (x : FmTrain) : (d.setTrain t x).variant = d.variant := rfl
@[simp] theorem Dev.setTrain_time (d : Dev) (t : Nat) (x : FmTrain) : (d.setTrain t x).time = d.time := rfl
@[simp] theorem Dev.setTrain_pwr (d : Dev) (t : Nat) (x : FmTrain) : (d.setTrain t x).pwr = d.pwr := rfl
@[simp] theorem Dev.setTrain_rst (d : Dev) (t : Nat) (x : FmTrain) : (d.setTrain t x).rst = d.rst := rfl
@[simp] theorem Dev.setTrain_tiles (d : Dev) (t : Nat) (x : FmTrain) : (d.setTrain t x).tiles = d.tiles := rfl
@[simp] theorem Dev.setTrain_lanes (d : Dev) (t : Nat) (x : FmTrain) : (d.setTrain t x).lanes = d.lanes := rfl
@[simp] theorem Dev.setTrain_subs (d : Dev) (t : Nat) (x : FmTrain) : (d.setTrain t x).subs = d.subs := rfl
@[simp] theorem Dev.setTrain_trees (d : Dev) (t : Nat) (x : FmTrain) : (d.setTrain t x).trees = d.trees := rfl
@[simp] theorem Dev.setTrain_chans (d : Dev) (t : Nat) (x : FmTrain) : (d.setTrain t x).chans = d.chans := rfl
@[simp] theorem Dev.setTrain_terms (d : Dev) (t : Nat) (x : FmTrain) : (d.setTrain t x).terms = d.terms := rfl
@[simp] theorem Dev.setTrain_circuits (d : Dev) (t : Nat) (x : FmTrain) : (d.setTrain t x).circuits = d.circuits := rfl
@[simp] theorem Dev.setTrain_allocs (d : Dev) (t : Nat) (x : FmTrain) : (d.setTrain t x).allocs = d.allocs := rfl
@[simp] theorem Dev.setTrain_domW (d : Dev) (t : Nat) (x : FmTrain) : (d.setTrain t x).domW = d.domW := rfl
@[simp] theorem Dev.setTrain_domPrio (d : Dev) (t : Nat) (x : FmTrain) : (d.setTrain t x).domPrio = d.domPrio := rfl
@[simp] theorem Dev.setTrain_tdomW (d : Dev) (t : Nat) (x : FmTrain) : (d.setTrain t x).tdomW = d.tdomW := rfl
@[simp] theorem Dev.setTrain_domNext (d : Dev) (t : Nat) (x : FmTrain) : (d.setTrain t x).domNext = d.domNext := rfl
@[simp] theorem Dev.setTrain_fm (d : Dev) (t : Nat) (x : FmTrain) : (d.setTrain t x).fm = { d.fm with trains := mput d.fm.trains t x } := rfl
@[simp] theorem Dev.setTrain_tables (d : Dev) (t : Nat) (x : FmTrain) : (d.setTrain t x).tables = d.tables := rfl
@[simp] theorem Dev.setTrain_profiles (d : Dev) (t : Nat) (x : FmTrain) : (d.setTrain t x).profiles = d.profiles := rfl
@[simp] theorem Dev.setTrain_lookups (d : Dev) (t : Nat) (x : FmTrain) : (d.setTrain t x).lookups = d.lookups := rfl
@[simp] theorem Dev.setTrain_spreads (d : Dev) (t : Nat) (x : FmTrain) : (d.setTrain t x).spreads = d.spreads := rfl
@[simp] theorem Dev.setTrain_mirrors (d : Dev) (t : Nat) (x : FmTrain) : (d.setTrain t x).mirrors = d.mirrors := rfl
@[simp] theorem Dev.setTrain_binds (d : Dev) (t : Nat) (x : FmTrain) : (d.setTrain t x).binds = d.binds := rfl
@[simp] theorem Dev.setTrain_cls (d : Dev) (t : Nat) (x : FmTrain) : (d.setTrain t x).cls = d.cls := rfl
@[simp] theorem Dev.setTrain_cursors (d : Dev) (t : Nat) (x : FmTrain) : (d.setTrain t x).cursors = d.cursors := rfl
@[simp] theorem Dev.setTrain_tac (d : Dev) (t : Nat) (x : FmTrain) : (d.setTrain t x).tac = d.tac := rfl
@[simp] theorem Dev.setTrain_tacDone (d : Dev) (t : Nat) (x : FmTrain) : (d.setTrain t x).tacDone = d.tacDone := rfl
@[simp] theorem Dev.setTrain_queues (d : Dev) (t : Nat) (x : FmTrain) : (d.setTrain t x).queues = d.queues := rfl
@[simp] theorem Dev.setTrain_nodes (d : Dev) (t : Nat) (x : FmTrain) : (d.setTrain t x).nodes = d.nodes := rfl
@[simp] theorem Dev.setTrain_shapers (d : Dev) (t : Nat) (x : FmTrain) : (d.setTrain t x).shapers = d.shapers := rfl
@[simp] theorem Dev.setTrain_shaperNext (d : Dev) (t : Nat) (x : FmTrain) : (d.setTrain t x).shaperNext = d.shaperNext := rfl
@[simp] theorem Dev.setTrain_meters (d : Dev) (t : Nat) (x : FmTrain) : (d.setTrain t x).meters = d.meters := rfl
@[simp] theorem Dev.setTrain_meterNext (d : Dev) (t : Nat) (x : FmTrain) : (d.setTrain t x).meterNext = d.meterNext := rfl
@[simp] theorem Dev.setTrain_gates (d : Dev) (t : Nat) (x : FmTrain) : (d.setTrain t x).gates = d.gates := rfl
@[simp] theorem Dev.setTrain_gateNext (d : Dev) (t : Nat) (x : FmTrain) : (d.setTrain t x).gateNext = d.gateNext := rfl
@[simp] theorem Dev.setTrain_pools (d : Dev) (t : Nat) (x : FmTrain) : (d.setTrain t x).pools = d.pools := rfl
@[simp] theorem Dev.setTrain_msec (d : Dev) (t : Nat) (x : FmTrain) : (d.setTrain t x).msec = d.msec := rfl
@[simp] theorem Dev.setTrain_pon (d : Dev) (t : Nat) (x : FmTrain) : (d.setTrain t x).pon = d.pon := rfl
@[simp] theorem Dev.setTrain_cru (d : Dev) (t : Nat) (x : FmTrain) : (d.setTrain t x).cru = d.cru := rfl
@[simp] theorem Dev.setTrain_chk (d : Dev) (t : Nat) (x : FmTrain) : (d.setTrain t x).chk = d.chk := rfl
@[simp] theorem Dev.setTrain_chkNo (d : Dev) (t : Nat) (x : FmTrain) : (d.setTrain t x).chkNo = d.chkNo := rfl
@[simp] theorem Dev.setTrain_host (d : Dev) (t : Nat) (x : FmTrain) : (d.setTrain t x).host = d.host := rfl
@[simp] theorem Dev.setTrain_senders (d : Dev) (t : Nat) (x : FmTrain) : (d.setTrain t x).senders = d.senders := rfl
@[simp] theorem Dev.setTrain_join (d : Dev) (t : Nat) (x : FmTrain) : (d.setTrain t x).join = d.join := rfl
@[simp] theorem Dev.setTrain_groups (d : Dev) (t : Nat) (x : FmTrain) : (d.setTrain t x).groups = d.groups := rfl
@[simp] theorem Dev.setTrain_leaseSeen (d : Dev) (t : Nat) (x : FmTrain) : (d.setTrain t x).leaseSeen = d.leaseSeen := rfl
@[simp] theorem Dev.setTrain_flt (d : Dev) (t : Nat) (x : FmTrain) : (d.setTrain t x).flt = d.flt := rfl
@[simp] theorem Dev.setTrain_asy (d : Dev) (t : Nat) (x : FmTrain) : (d.setTrain t x).asy = d.asy := rfl
@[simp] theorem Dev.setTrain_cnt (d : Dev) (t : Nat) (x : FmTrain) : (d.setTrain t x).cnt = d.cnt := rfl
@[simp] theorem Dev.setTrain_regs (d : Dev) (t : Nat) (x : FmTrain) : (d.setTrain t x).regs = d.regs := rfl
@[simp] theorem Dev.setTrain_lastRead (d : Dev) (t : Nat) (x : FmTrain) : (d.setTrain t x).lastRead = d.lastRead := rfl
@[simp] theorem Dev.setTrain_out (d : Dev) (t : Nat) (x : FmTrain) : (d.setTrain t x).out = d.out := rfl
@[simp] theorem Dev.setTrain_freeCtr (d : Dev) (t : Nat) (x : FmTrain) : (d.setTrain t x).freeCtr = d.freeCtr := rfl

@[simp] theorem Dev.updGroup_variant (d : Dev) (t : Nat) (f : Group → Group) : (d.updGroup t f).variant = d.variant := rfl
@[simp] theorem Dev.updGroup_time (d : Dev) (t : Nat) (f : Group → Group) : (d.updGroup t f).time = d.time := rfl
@[simp] theorem Dev.updGroup_pwr (d : Dev) (t : Nat) (f : Group → Group) : (d.updGroup t f).pwr = d.pwr := rfl
@[simp] theorem Dev.updGroup_rst (d : Dev) (t : Nat) (f : Group → Group) : (d.updGroup t f).rst = d.rst := rfl
@[simp] theorem Dev.updGroup_tiles (d : Dev) (t : Nat) (f : Group → Group) : (d.updGroup t f).tiles = d.tiles := rfl
@[simp] theorem Dev.updGroup_lanes (d : Dev) (t : Nat) (f : Group → Group) : (d.updGroup t f).lanes = d.lanes := rfl
@[simp] theorem Dev.updGroup_subs (d : Dev) (t : Nat) (f : Group → Group) : (d.updGroup t f).subs = d.subs := rfl
@[simp] theorem Dev.updGroup_trees (d : Dev) (t : Nat) (f : Group → Group) : (d.updGroup t f).trees = d.trees := rfl
@[simp] theorem Dev.updGroup_chans (d : Dev) (t : Nat) (f : Group → Group) : (d.updGroup t f).chans = d.chans := rfl
@[simp] theorem Dev.updGroup_terms (d : Dev) (t : Nat) (f : Group → Group) : (d.updGroup t f).terms = d.terms := rfl
@[simp] theorem Dev.updGroup_circuits (d : Dev) (t : Nat) (f : Group → Group) : (d.updGroup t f).circuits = d.circuits := rfl
@[simp] theorem Dev.updGroup_allocs (d : Dev) (t : Nat) (f : Group → Group) : (d.updGroup t f).allocs = d.allocs := rfl
@[simp] theorem Dev.updGroup_domW (d : Dev) (t : Nat) (f : Group → Group) : (d.updGroup t f).domW = d.domW := rfl
@[simp] theorem Dev.updGroup_domPrio (d : Dev) (t : Nat) (f : Group → Group) : (d.updGroup t f).domPrio = d.domPrio := rfl
@[simp] theorem Dev.updGroup_tdomW (d : Dev) (t : Nat) (f : Group → Group) : (d.updGroup t f).tdomW = d.tdomW := rfl
@[simp] theorem Dev.updGroup_domNext (d : Dev) (t : Nat) (f : Group → Group) : (d.updGroup t f).domNext = d.domNext := rfl
@[simp] theorem Dev.updGroup_fm (d : Dev) (t : Nat) (f : Group → Group) : (d.updGroup t f).fm = d.fm := rfl
@[simp] theorem Dev.updGroup_tables (d : Dev) (t : Nat) (f : Group → Group) : (d.updGroup t f).tables = d.tables := rfl
@[simp] theorem Dev.updGroup_profiles (d : Dev) (t : Nat) (f : Group → Group) : (d.updGroup t f).profiles = d.profiles := rfl
@[simp] theorem Dev.updGroup_lookups (d : Dev) (t : Nat) (f : Group → Group) : (d.updGroup t f).lookups = d.lookups := rfl
@[simp] theorem Dev.updGroup_spreads (d : Dev) (t : Nat) (f : Group → Group) : (d.updGroup t f).spreads = d.spreads := rfl
@[simp] theorem Dev.updGroup_mirrors (d : Dev) (t : Nat) (f : Group → Group) : (d.updGroup t f).mirrors = d.mirrors := rfl
@[simp] theorem Dev.updGroup_binds (d : Dev) (t : Nat) (f : Group → Group) : (d.updGroup t f).binds = d.binds := rfl
@[simp] theorem Dev.updGroup_cls (d : Dev) (t : Nat) (f : Group → Group) : (d.updGroup t f).cls = d.cls := rfl
@[simp] theorem Dev.updGroup_cursors (d : Dev) (t : Nat) (f : Group → Group) : (d.updGroup t f).cursors = d.cursors := rfl
@[simp] theorem Dev.updGroup_tac (d : Dev) (t : Nat) (f : Group → Group) : (d.updGroup t f).tac = d.tac := rfl
@[simp] theorem Dev.updGroup_tacDone (d : Dev) (t : Nat) (f : Group → Group) : (d.updGroup t f).tacDone = d.tacDone := rfl
@[simp] theorem Dev.updGroup_queues (d : Dev) (t : Nat) (f : Group → Group) : (d.updGroup t f).queues = d.queues := rfl
@[simp] theorem Dev.updGroup_nodes (d : Dev) (t : Nat) (f : Group → Group) : (d.updGroup t f).nodes = d.nodes := rfl
@[simp] theorem Dev.updGroup_shapers (d : Dev) (t : Nat) (f : Group → Group) : (d.updGroup t f).shapers = d.shapers := rfl
@[simp] theorem Dev.updGroup_shaperNext (d : Dev) (t : Nat) (f : Group → Group) : (d.updGroup t f).shaperNext = d.shaperNext := rfl
@[simp] theorem Dev.updGroup_meters (d : Dev) (t : Nat) (f : Group → Group) : (d.updGroup t f).meters = d.meters := rfl
@[simp] theorem Dev.updGroup_meterNext (d : Dev) (t : Nat) (f : Group → Group) : (d.updGroup t f).meterNext = d.meterNext := rfl
@[simp] theorem Dev.updGroup_gates (d : Dev) (t : Nat) (f : Group → Group) : (d.updGroup t f).gates = d.gates := rfl
@[simp] theorem Dev.updGroup_gateNext (d : Dev) (t : Nat) (f : Group → Group) : (d.updGroup t f).gateNext = d.gateNext := rfl
@[simp] theorem Dev.updGroup_pools (d : Dev) (t : Nat) (f : Group → Group) : (d.updGroup t f).pools = d.pools := rfl
@[simp] theorem Dev.updGroup_msec (d : Dev) (t : Nat) (f : Group → Group) : (d.updGroup t f).msec = d.msec := rfl
@[simp] theorem Dev.updGroup_pon (d : Dev) (t : Nat) (f : Group → Group) : (d.updGroup t f).pon = d.pon := rfl
@[simp] theorem Dev.updGroup_cru (d : Dev) (t : Nat) (f : Group → Group) : (d.updGroup t f).cru = d.cru := rfl
@[simp] theorem Dev.updGroup_chk (d : Dev) (t : Nat) (f : Group → Group) : (d.updGroup t f).chk = d.chk := rfl
@[simp] theorem Dev.updGroup_chkNo (d : Dev) (t : Nat) (f : Group → Group) : (d.updGroup t f).chkNo = d.chkNo := rfl
@[simp] theorem Dev.updGroup_host (d : Dev) (t : Nat) (f : Group → Group) : (d.updGroup t f).host = d.host := rfl
@[simp] theorem Dev.updGroup_senders (d : Dev) (t : Nat) (f : Group → Group) : (d.updGroup t f).senders = d.senders := rfl
@[simp] theorem Dev.updGroup_join (d : Dev) (t : Nat) (f : Group → Group) : (d.updGroup t f).join = d.join := rfl
@[simp] theorem Dev.updGroup_groups (d : Dev) (t : Nat) (f : Group → Group) : (d.updGroup t f).groups = mmod d.groups t f := rfl
@[simp] theorem Dev.updGroup_leaseSeen (d : Dev) (t : Nat) (f : Group → Group) : (d.updGroup t f).leaseSeen = d.leaseSeen := rfl
@[simp] theorem Dev.updGroup_flt (d : Dev) (t : Nat) (f : Group → Group) : (d.updGroup t f).flt = d.flt := rfl
@[simp] theorem Dev.updGroup_asy (d : Dev) (t : Nat) (f : Group → Group) : (d.updGroup t f).asy = d.asy := rfl
@[simp] theorem Dev.updGroup_cnt (d : Dev) (t : Nat) (f : Group → Group) : (d.updGroup t f).cnt = d.cnt := rfl
@[simp] theorem Dev.updGroup_regs (d : Dev) (t : Nat) (f : Group → Group) : (d.updGroup t f).regs = d.regs := rfl
@[simp] theorem Dev.updGroup_lastRead (d : Dev) (t : Nat) (f : Group → Group) : (d.updGroup t f).lastRead = d.lastRead := rfl
@[simp] theorem Dev.updGroup_out (d : Dev) (t : Nat) (f : Group → Group) : (d.updGroup t f).out = d.out := rfl
@[simp] theorem Dev.updGroup_freeCtr (d : Dev) (t : Nat) (f : Group → Group) : (d.updGroup t f).freeCtr = d.freeCtr := rfl

@[simp] theorem Dev.setReg_variant (d : Dev) (a v : Nat) : (d.setReg a v).variant = d.variant := rfl
@[simp] theorem Dev.setReg_time (d : Dev) (a v : Nat) : (d.setReg a v).time = d.time := rfl
@[simp] theorem Dev.setReg_pwr (d : Dev) (a v : Nat) : (d.setReg a v).pwr = d.pwr := rfl
@[simp] theorem Dev.setReg_rst (d : Dev) (a v : Nat) : (d.setReg a v).rst = d.rst := rfl
@[simp] theorem Dev.setReg_tiles (d : Dev) (a v : Nat) : (d.setReg a v).tiles = d.tiles := rfl
@[simp] theorem Dev.setReg_lanes (d : Dev) (a v : Nat) : (d.setReg a v).lanes = d.lanes := rfl
@[simp] theorem Dev.setReg_subs (d : Dev) (a v : Nat) : (d.setReg a v).subs = d.subs := rfl
@[simp] theorem Dev.setReg_trees (d : Dev) (a v : Nat) : (d.setReg a v).trees = d.trees := rfl
@[simp] theorem Dev.setReg_chans (d : Dev) (a v : Nat) : (d.setReg a v).chans = d.chans := rfl
@[simp] theorem Dev.setReg_terms (d : Dev) (a v : Nat) : (d.setReg a v).terms = d.terms := rfl
@[simp] theorem Dev.setReg_circuits (d : Dev) (a v : Nat) : (d.setReg a v).circuits = d.circuits := rfl
@[simp] theorem Dev.setReg_allocs (d : Dev) (a v : Nat) : (d.setReg a v).allocs = d.allocs := rfl
@[simp] theorem Dev.setReg_domW (d : Dev) (a v : Nat) : (d.setReg a v).domW = d.domW := rfl
@[simp] theorem Dev.setReg_domPrio (d : Dev) (a v : Nat) : (d.setReg a v).domPrio = d.domPrio := rfl
@[simp] theorem Dev.setReg_tdomW (d : Dev) (a v : Nat) : (d.setReg a v).tdomW = d.tdomW := rfl
@[simp] theorem Dev.setReg_domNext (d : Dev) (a v : Nat) : (d.setReg a v).domNext = d.domNext := rfl
@[simp] theorem Dev.setReg_fm (d : Dev) (a v : Nat) : (d.setReg a v).fm = d.fm := rfl
@[simp] theorem Dev.setReg_tables (d : Dev) (a v : Nat) : (d.setReg a v).tables = d.tables := rfl
@[simp] theorem Dev.setReg_profiles (d : Dev) (a v : Nat) : (d.setReg a v).profiles = d.profiles := rfl
@[simp] theorem Dev.setReg_lookups (d : Dev) (a v : Nat) : (d.setReg a v).lookups = d.lookups := rfl
@[simp] theorem Dev.setReg_spreads (d : Dev) (a v : Nat) : (d.setReg a v).spreads = d.spreads := rfl
@[simp] theorem Dev.setReg_mirrors (d : Dev) (a v : Nat) : (d.setReg a v).mirrors = d.mirrors := rfl
@[simp] theorem Dev.setReg_binds (d : Dev) (a v : Nat) : (d.setReg a v).binds = d.binds := rfl
@[simp] theorem Dev.setReg_cls (d : Dev) (a v : Nat) : (d.setReg a v).cls = d.cls := rfl
@[simp] theorem Dev.setReg_cursors (d : Dev) (a v : Nat) : (d.setReg a v).cursors = d.cursors := rfl
@[simp] theorem Dev.setReg_tac (d : Dev) (a v : Nat) : (d.setReg a v).tac = d.tac := rfl
@[simp] theorem Dev.setReg_tacDone (d : Dev) (a v : Nat) : (d.setReg a v).tacDone = d.tacDone := rfl
@[simp] theorem Dev.setReg_queues (d : Dev) (a v : Nat) : (d.setReg a v).queues = d.queues := rfl
@[simp] theorem Dev.setReg_nodes (d : Dev) (a v : Nat) : (d.setReg a v).nodes = d.nodes := rfl
@[simp] theorem Dev.setReg_shapers (d : Dev) (a v : Nat) : (d.setReg a v).shapers = d.shapers := rfl
@[simp] theorem Dev.setReg_shaperNext (d : Dev) (a v : Nat) : (d.setReg a v).shaperNext = d.shaperNext := rfl
@[simp] theorem Dev.setReg_meters (d : Dev) (a v : Nat) : (d.setReg a v).meters = d.meters := rfl
@[simp] theorem Dev.setReg_meterNext (d : Dev) (a v : Nat) : (d.setReg a v).meterNext = d.meterNext := rfl
@[simp] theorem Dev.setReg_gates (d : Dev) (a v : Nat) : (d.setReg a v).gates = d.gates := rfl
@[simp] theorem Dev.setReg_gateNext (d : Dev) (a v : Nat) : (d.setReg a v).gateNext = d.gateNext := rfl
@[simp] theorem Dev.setReg_pools (d : Dev) (a v : Nat) : (d.setReg a v).pools = d.pools := rfl
@[simp] theorem Dev.setReg_msec (d : Dev) (a v : Nat) : (d.setReg a v).msec = d.msec := rfl
@[simp] theorem Dev.setReg_pon (d : Dev) (a v : Nat) : (d.setReg a v).pon = d.pon := rfl
@[simp] theorem Dev.setReg_cru (d : Dev) (a v : Nat) : (d.setReg a v).cru = d.cru := rfl
@[simp] theorem Dev.setReg_chk (d : Dev) (a v : Nat) : (d.setReg a v).chk = d.chk := rfl
@[simp] theorem Dev.setReg_chkNo (d : Dev) (a v : Nat) : (d.setReg a v).chkNo = d.chkNo := rfl
@[simp] theorem Dev.setReg_host (d : Dev) (a v : Nat) : (d.setReg a v).host = d.host := rfl
@[simp] theorem Dev.setReg_senders (d : Dev) (a v : Nat) : (d.setReg a v).senders = d.senders := rfl
@[simp] theorem Dev.setReg_join (d : Dev) (a v : Nat) : (d.setReg a v).join = d.join := rfl
@[simp] theorem Dev.setReg_groups (d : Dev) (a v : Nat) : (d.setReg a v).groups = d.groups := rfl
@[simp] theorem Dev.setReg_leaseSeen (d : Dev) (a v : Nat) : (d.setReg a v).leaseSeen = d.leaseSeen := rfl
@[simp] theorem Dev.setReg_flt (d : Dev) (a v : Nat) : (d.setReg a v).flt = d.flt := rfl
@[simp] theorem Dev.setReg_asy (d : Dev) (a v : Nat) : (d.setReg a v).asy = d.asy := rfl
@[simp] theorem Dev.setReg_cnt (d : Dev) (a v : Nat) : (d.setReg a v).cnt = d.cnt := rfl
@[simp] theorem Dev.setReg_regs (d : Dev) (a v : Nat) : (d.setReg a v).regs = mput d.regs a (BitVec.ofNat 32 v) := rfl
@[simp] theorem Dev.setReg_lastRead (d : Dev) (a v : Nat) : (d.setReg a v).lastRead = d.lastRead := rfl
@[simp] theorem Dev.setReg_out (d : Dev) (a v : Nat) : (d.setReg a v).out = d.out := rfl
@[simp] theorem Dev.setReg_freeCtr (d : Dev) (a v : Nat) : (d.setReg a v).freeCtr = d.freeCtr := rfl

@[simp] theorem Dev.emit_variant (d : Dev) (o : Output) : (d.emit o).variant = d.variant := rfl
@[simp] theorem Dev.emit_time (d : Dev) (o : Output) : (d.emit o).time = d.time := rfl
@[simp] theorem Dev.emit_pwr (d : Dev) (o : Output) : (d.emit o).pwr = d.pwr := rfl
@[simp] theorem Dev.emit_rst (d : Dev) (o : Output) : (d.emit o).rst = d.rst := rfl
@[simp] theorem Dev.emit_tiles (d : Dev) (o : Output) : (d.emit o).tiles = d.tiles := rfl
@[simp] theorem Dev.emit_lanes (d : Dev) (o : Output) : (d.emit o).lanes = d.lanes := rfl
@[simp] theorem Dev.emit_subs (d : Dev) (o : Output) : (d.emit o).subs = d.subs := rfl
@[simp] theorem Dev.emit_trees (d : Dev) (o : Output) : (d.emit o).trees = d.trees := rfl
@[simp] theorem Dev.emit_chans (d : Dev) (o : Output) : (d.emit o).chans = d.chans := rfl
@[simp] theorem Dev.emit_terms (d : Dev) (o : Output) : (d.emit o).terms = d.terms := rfl
@[simp] theorem Dev.emit_circuits (d : Dev) (o : Output) : (d.emit o).circuits = d.circuits := rfl
@[simp] theorem Dev.emit_allocs (d : Dev) (o : Output) : (d.emit o).allocs = d.allocs := rfl
@[simp] theorem Dev.emit_domW (d : Dev) (o : Output) : (d.emit o).domW = d.domW := rfl
@[simp] theorem Dev.emit_domPrio (d : Dev) (o : Output) : (d.emit o).domPrio = d.domPrio := rfl
@[simp] theorem Dev.emit_tdomW (d : Dev) (o : Output) : (d.emit o).tdomW = d.tdomW := rfl
@[simp] theorem Dev.emit_domNext (d : Dev) (o : Output) : (d.emit o).domNext = d.domNext := rfl
@[simp] theorem Dev.emit_fm (d : Dev) (o : Output) : (d.emit o).fm = d.fm := rfl
@[simp] theorem Dev.emit_tables (d : Dev) (o : Output) : (d.emit o).tables = d.tables := rfl
@[simp] theorem Dev.emit_profiles (d : Dev) (o : Output) : (d.emit o).profiles = d.profiles := rfl
@[simp] theorem Dev.emit_lookups (d : Dev) (o : Output) : (d.emit o).lookups = d.lookups := rfl
@[simp] theorem Dev.emit_spreads (d : Dev) (o : Output) : (d.emit o).spreads = d.spreads := rfl
@[simp] theorem Dev.emit_mirrors (d : Dev) (o : Output) : (d.emit o).mirrors = d.mirrors := rfl
@[simp] theorem Dev.emit_binds (d : Dev) (o : Output) : (d.emit o).binds = d.binds := rfl
@[simp] theorem Dev.emit_cls (d : Dev) (o : Output) : (d.emit o).cls = d.cls := rfl
@[simp] theorem Dev.emit_cursors (d : Dev) (o : Output) : (d.emit o).cursors = d.cursors := rfl
@[simp] theorem Dev.emit_tac (d : Dev) (o : Output) : (d.emit o).tac = d.tac := rfl
@[simp] theorem Dev.emit_tacDone (d : Dev) (o : Output) : (d.emit o).tacDone = d.tacDone := rfl
@[simp] theorem Dev.emit_queues (d : Dev) (o : Output) : (d.emit o).queues = d.queues := rfl
@[simp] theorem Dev.emit_nodes (d : Dev) (o : Output) : (d.emit o).nodes = d.nodes := rfl
@[simp] theorem Dev.emit_shapers (d : Dev) (o : Output) : (d.emit o).shapers = d.shapers := rfl
@[simp] theorem Dev.emit_shaperNext (d : Dev) (o : Output) : (d.emit o).shaperNext = d.shaperNext := rfl
@[simp] theorem Dev.emit_meters (d : Dev) (o : Output) : (d.emit o).meters = d.meters := rfl
@[simp] theorem Dev.emit_meterNext (d : Dev) (o : Output) : (d.emit o).meterNext = d.meterNext := rfl
@[simp] theorem Dev.emit_gates (d : Dev) (o : Output) : (d.emit o).gates = d.gates := rfl
@[simp] theorem Dev.emit_gateNext (d : Dev) (o : Output) : (d.emit o).gateNext = d.gateNext := rfl
@[simp] theorem Dev.emit_pools (d : Dev) (o : Output) : (d.emit o).pools = d.pools := rfl
@[simp] theorem Dev.emit_msec (d : Dev) (o : Output) : (d.emit o).msec = d.msec := rfl
@[simp] theorem Dev.emit_pon (d : Dev) (o : Output) : (d.emit o).pon = d.pon := rfl
@[simp] theorem Dev.emit_cru (d : Dev) (o : Output) : (d.emit o).cru = d.cru := rfl
@[simp] theorem Dev.emit_chk (d : Dev) (o : Output) : (d.emit o).chk = d.chk := rfl
@[simp] theorem Dev.emit_chkNo (d : Dev) (o : Output) : (d.emit o).chkNo = d.chkNo := rfl
@[simp] theorem Dev.emit_host (d : Dev) (o : Output) : (d.emit o).host = d.host := rfl
@[simp] theorem Dev.emit_senders (d : Dev) (o : Output) : (d.emit o).senders = d.senders := rfl
@[simp] theorem Dev.emit_join (d : Dev) (o : Output) : (d.emit o).join = d.join := rfl
@[simp] theorem Dev.emit_groups (d : Dev) (o : Output) : (d.emit o).groups = d.groups := rfl
@[simp] theorem Dev.emit_leaseSeen (d : Dev) (o : Output) : (d.emit o).leaseSeen = d.leaseSeen := rfl
@[simp] theorem Dev.emit_flt (d : Dev) (o : Output) : (d.emit o).flt = d.flt := rfl
@[simp] theorem Dev.emit_asy (d : Dev) (o : Output) : (d.emit o).asy = d.asy := rfl
@[simp] theorem Dev.emit_cnt (d : Dev) (o : Output) : (d.emit o).cnt = d.cnt := rfl
@[simp] theorem Dev.emit_regs (d : Dev) (o : Output) : (d.emit o).regs = d.regs := rfl
@[simp] theorem Dev.emit_lastRead (d : Dev) (o : Output) : (d.emit o).lastRead = d.lastRead := rfl
@[simp] theorem Dev.emit_out (d : Dev) (o : Output) : (d.emit o).out = o :: d.out := rfl
@[simp] theorem Dev.emit_freeCtr (d : Dev) (o : Output) : (d.emit o).freeCtr = d.freeCtr := rfl

@[simp] theorem Dev.setFlt_variant (d : Dev) (f : FaultState) : (d.setFlt f).variant = d.variant := rfl
@[simp] theorem Dev.setFlt_time (d : Dev) (f : FaultState) : (d.setFlt f).time = d.time := rfl
@[simp] theorem Dev.setFlt_pwr (d : Dev) (f : FaultState) : (d.setFlt f).pwr = d.pwr := rfl
@[simp] theorem Dev.setFlt_rst (d : Dev) (f : FaultState) : (d.setFlt f).rst = d.rst := rfl
@[simp] theorem Dev.setFlt_tiles (d : Dev) (f : FaultState) : (d.setFlt f).tiles = d.tiles := rfl
@[simp] theorem Dev.setFlt_lanes (d : Dev) (f : FaultState) : (d.setFlt f).lanes = d.lanes := rfl
@[simp] theorem Dev.setFlt_subs (d : Dev) (f : FaultState) : (d.setFlt f).subs = d.subs := rfl
@[simp] theorem Dev.setFlt_trees (d : Dev) (f : FaultState) : (d.setFlt f).trees = d.trees := rfl
@[simp] theorem Dev.setFlt_chans (d : Dev) (f : FaultState) : (d.setFlt f).chans = d.chans := rfl
@[simp] theorem Dev.setFlt_terms (d : Dev) (f : FaultState) : (d.setFlt f).terms = d.terms := rfl
@[simp] theorem Dev.setFlt_circuits (d : Dev) (f : FaultState) : (d.setFlt f).circuits = d.circuits := rfl
@[simp] theorem Dev.setFlt_allocs (d : Dev) (f : FaultState) : (d.setFlt f).allocs = d.allocs := rfl
@[simp] theorem Dev.setFlt_domW (d : Dev) (f : FaultState) : (d.setFlt f).domW = d.domW := rfl
@[simp] theorem Dev.setFlt_domPrio (d : Dev) (f : FaultState) : (d.setFlt f).domPrio = d.domPrio := rfl
@[simp] theorem Dev.setFlt_tdomW (d : Dev) (f : FaultState) : (d.setFlt f).tdomW = d.tdomW := rfl
@[simp] theorem Dev.setFlt_domNext (d : Dev) (f : FaultState) : (d.setFlt f).domNext = d.domNext := rfl
@[simp] theorem Dev.setFlt_fm (d : Dev) (f : FaultState) : (d.setFlt f).fm = d.fm := rfl
@[simp] theorem Dev.setFlt_tables (d : Dev) (f : FaultState) : (d.setFlt f).tables = d.tables := rfl
@[simp] theorem Dev.setFlt_profiles (d : Dev) (f : FaultState) : (d.setFlt f).profiles = d.profiles := rfl
@[simp] theorem Dev.setFlt_lookups (d : Dev) (f : FaultState) : (d.setFlt f).lookups = d.lookups := rfl
@[simp] theorem Dev.setFlt_spreads (d : Dev) (f : FaultState) : (d.setFlt f).spreads = d.spreads := rfl
@[simp] theorem Dev.setFlt_mirrors (d : Dev) (f : FaultState) : (d.setFlt f).mirrors = d.mirrors := rfl
@[simp] theorem Dev.setFlt_binds (d : Dev) (f : FaultState) : (d.setFlt f).binds = d.binds := rfl
@[simp] theorem Dev.setFlt_cls (d : Dev) (f : FaultState) : (d.setFlt f).cls = d.cls := rfl
@[simp] theorem Dev.setFlt_cursors (d : Dev) (f : FaultState) : (d.setFlt f).cursors = d.cursors := rfl
@[simp] theorem Dev.setFlt_tac (d : Dev) (f : FaultState) : (d.setFlt f).tac = d.tac := rfl
@[simp] theorem Dev.setFlt_tacDone (d : Dev) (f : FaultState) : (d.setFlt f).tacDone = d.tacDone := rfl
@[simp] theorem Dev.setFlt_queues (d : Dev) (f : FaultState) : (d.setFlt f).queues = d.queues := rfl
@[simp] theorem Dev.setFlt_nodes (d : Dev) (f : FaultState) : (d.setFlt f).nodes = d.nodes := rfl
@[simp] theorem Dev.setFlt_shapers (d : Dev) (f : FaultState) : (d.setFlt f).shapers = d.shapers := rfl
@[simp] theorem Dev.setFlt_shaperNext (d : Dev) (f : FaultState) : (d.setFlt f).shaperNext = d.shaperNext := rfl
@[simp] theorem Dev.setFlt_meters (d : Dev) (f : FaultState) : (d.setFlt f).meters = d.meters := rfl
@[simp] theorem Dev.setFlt_meterNext (d : Dev) (f : FaultState) : (d.setFlt f).meterNext = d.meterNext := rfl
@[simp] theorem Dev.setFlt_gates (d : Dev) (f : FaultState) : (d.setFlt f).gates = d.gates := rfl
@[simp] theorem Dev.setFlt_gateNext (d : Dev) (f : FaultState) : (d.setFlt f).gateNext = d.gateNext := rfl
@[simp] theorem Dev.setFlt_pools (d : Dev) (f : FaultState) : (d.setFlt f).pools = d.pools := rfl
@[simp] theorem Dev.setFlt_msec (d : Dev) (f : FaultState) : (d.setFlt f).msec = d.msec := rfl
@[simp] theorem Dev.setFlt_pon (d : Dev) (f : FaultState) : (d.setFlt f).pon = d.pon := rfl
@[simp] theorem Dev.setFlt_cru (d : Dev) (f : FaultState) : (d.setFlt f).cru = d.cru := rfl
@[simp] theorem Dev.setFlt_chk (d : Dev) (f : FaultState) : (d.setFlt f).chk = d.chk := rfl
@[simp] theorem Dev.setFlt_chkNo (d : Dev) (f : FaultState) : (d.setFlt f).chkNo = d.chkNo := rfl
@[simp] theorem Dev.setFlt_host (d : Dev) (f : FaultState) : (d.setFlt f).host = d.host := rfl
@[simp] theorem Dev.setFlt_senders (d : Dev) (f : FaultState) : (d.setFlt f).senders = d.senders := rfl
@[simp] theorem Dev.setFlt_join (d : Dev) (f : FaultState) : (d.setFlt f).join = d.join := rfl
@[simp] theorem Dev.setFlt_groups (d : Dev) (f : FaultState) : (d.setFlt f).groups = d.groups := rfl
@[simp] theorem Dev.setFlt_leaseSeen (d : Dev) (f : FaultState) : (d.setFlt f).leaseSeen = d.leaseSeen := rfl
@[simp] theorem Dev.setFlt_flt (d : Dev) (f : FaultState) : (d.setFlt f).flt = f := rfl
@[simp] theorem Dev.setFlt_asy (d : Dev) (f : FaultState) : (d.setFlt f).asy = d.asy := rfl
@[simp] theorem Dev.setFlt_cnt (d : Dev) (f : FaultState) : (d.setFlt f).cnt = d.cnt := rfl
@[simp] theorem Dev.setFlt_regs (d : Dev) (f : FaultState) : (d.setFlt f).regs = d.regs := rfl
@[simp] theorem Dev.setFlt_lastRead (d : Dev) (f : FaultState) : (d.setFlt f).lastRead = d.lastRead := rfl
@[simp] theorem Dev.setFlt_out (d : Dev) (f : FaultState) : (d.setFlt f).out = d.out := rfl
@[simp] theorem Dev.setFlt_freeCtr (d : Dev) (f : FaultState) : (d.setFlt f).freeCtr = d.freeCtr := rfl

/-! ## Reading back what was written -/

@[simp] theorem Dev.setTile_tile (d : Dev) (t : Nat) (x : Tile) : (d.setTile t x).tile t = x := by simp [Dev.setTile, Dev.tile]
@[simp] theorem Dev.setLane_lane (d : Dev) (t l : Nat) (x : Lane) : (d.setLane t l x).lane t l = x := by simp [Dev.setLane, Dev.lane]
@[simp] theorem Dev.setSub_sub (d : Dev) (p : Nat) (x : SubPort) : (d.setSub p x).sub p = x := by simp [Dev.setSub, Dev.sub]
@[simp] theorem Dev.setTree_tree (d : Dev) (t : Nat) (x : Tree) : (d.setTree t x).tree t = x := by simp [Dev.setTree, Dev.tree]
@[simp] theorem Dev.setChan_chan (d : Dev) (c : Nat) (x : Chan) : (d.setChan c x).chan c = x := by simp [Dev.setChan, Dev.chan]
@[simp] theorem Dev.setPool_pool (d : Dev) (t : Nat) (x : Pool) : (d.setPool t x).pool t = x := by simp [Dev.setPool, Dev.pool]
@[simp] theorem Dev.setPslot_pslot (d : Dev) (n : Nat) (x : PSlot) : (d.setPslot n x).pslot n = x := by simp [Dev.setPslot, Dev.pslot]
@[simp] theorem Dev.setPon_ponKey (d : Dev) (t : Nat) (x : PonKey) : (d.setPon t x).ponKey t = x := by simp [Dev.setPon, Dev.ponKey]
@[simp] theorem Dev.setSa_sa (d : Dev) (n : Nat) (x : SaSlot) : (d.setSa n x).sa n = x := by simp [Dev.setSa, Dev.sa]
@[simp] theorem Dev.setSysPort_sysPort (d : Dev) (p : Nat) (x : SysPort) : (d.setSysPort p x).sysPort p = x := by simp [Dev.setSysPort, Dev.sysPort]
@[simp] theorem Dev.setAsyTile_asyTile (d : Dev) (t : Nat) (x : AssayTile) : (d.setAsyTile t x).asyTile t = x := by simp [Dev.setAsyTile, Dev.asyTile]
@[simp] theorem Dev.setTrain_fmTrain (d : Dev) (t : Nat) (x : FmTrain) : (d.setTrain t x).fmTrain t = x := by simp [Dev.setTrain, Dev.fmTrain]

end Sys2Proof.Machine
end

