-- ==== Sys2Proof/Tests/Slice0.lean ====
section
/-!
SUPPORT. This model's own tests: ill-formed terms that WellFormed refuses, worked values of the spec, and for every clause of a statement that has
hypotheses a concrete state and operands that meet them all.
-/

set_option Elab.async false

namespace Sys2Proof.Tests

open Sys2Proof Sys2Proof.Machine

/-! ## Devices of the tests -/

/-- A command-ready device with four tiles in RUN whose host channel 1 may do everything. -/
def rdy : Dev :=
  { rst := { stage := .ready }
    pwr := { pstate := .operating }
    tiles := [(0, { st := .run }), (1, { st := .run }), (2, { st := .run }), (3, { st := .run })]
    senders := [(1, { caps := 0xFFFF#16 })] }

/-- The same with channels 0 and 1 of tree 0 in service on an UP lane, terminals 5 (X) and 6 (G) in service, and allocations 7 and 8. -/
def svc : Dev :=
  { rdy with
    lanes := [(0, { gen := 4, locked := true, frameSync := true, txLull := false, rxLull := false, sd := true, neg := .up })]
    chans := [(0, { st := .enabled, carryFrom := some 0, lit := true, calConst := some 0, teqd := 15000 }), (1, { st := .enabled, carryFrom := some 0, lit := true, calConst := some 0, teqd := 15000 })]
    terms := [(5, { ch := 1, serial := [0x41, 0x42, 0x43, 0x44, 1, 2, 3, 4], cred := List.replicate 36 7, dist := 100, tol := 100, fec := true, st := .inService, onu := some 5, sendFrom := some 0, rtt := 1000000, eqd := 240000000 }),
      (6, { ch := 0, serial := [0x41, 0x42, 0x43, 0x44, 1, 2, 3, 5], cred := List.replicate 10 7, dist := 100, tol := 100, fec := false, st := .inService, onu := some 6, sendFrom := some 0, rtt := 1000000, eqd := 240000000 })]
    allocs := [(7, { tid := 5, allocId := 1030, p := { sdom := 1, typ := 0, fixed := 400, period := 1 } }), (8, { tid := 6, allocId := 300, p := { sdom := 1, typ := 1, assured := 400, peak := 400, period := 1 } })] }
/-- The ready device in FIELD, whose sender 1 is bound to slot 200 with a key of zeros. -/
def fld : Dev :=
  { rdy with
    cru := { ready := true, life := .field, slots := [(200, { kind := 1, key := zeroBytes 32 })] }
    senders := [(1, { caps := 0xFFFF#16, slot := some 200 })] }
/-- A CMD_CRU_FW_STAGE packet of channel 1 whose 8 bytes of image lie in one descriptor. -/
def stagePacket : Packet :=
  { pkt specCruFwStage 0 (zeroBytes 8 ++ [8, 0, 0, 0, 0, 0, 0, 0]) with
    flags := 0x0A
    bulk := { lists := [(0, [{ len := 8, last := true }])], data := zeroBytes 8 } }
/-- Parameters of a CMD_CRU_SLOT_WRITE that carry a key of zeros to slot 9 as kind 3, generation 5. -/
def slotParams : List Byte :=
  ([3, 0, 0, 0] ++ leBytes 4 5 ++ zeroBytes 97) ++ keyWrap (fld.transportKek false (zeroBytes 97) 9 5) (zeroBytes 32)
    ++ (cmac (zeroBytes 32) (ascii "LNST-KAT" ++ leBytes 2 9 ++ leBytes 4 5 ++ [0, 0]) ++ zeroBytes 3)
/-- A device in RETURNED with a challenge outstanding, and the parameters of the command that opens its JTAG (R352). -/
def jtagDev : Dev := { fld with cru := { fld.cru with life := .returned, challenge := some (zeroBytes 16, 5) } }
def jtagParams : List Byte := [3, 0, 0, 0] ++ jtagDev.token vendorAnchor (zeroBytes 16) .returned ++ []
/-- A device in BLANK, and the parameters of the command that provisions it with an anchor of zeros under ECDSA (R351, R353). -/
def blankDev : Dev := { rdy with cru := { ready := true } }
def anchorParams : List Byte :=
  ([1, 0, 1, 0] ++ zeroBytes 16 ++ leBytes 4 5 ++ zeroBytes 97) ++ keyWrap (blankDev.transportKek false (zeroBytes 97) 0xFFFF 5) (zeroBytes 32)
    ++ (cmac (zeroBytes 32) (ascii "LNST-KAT" ++ leBytes 2 0xFFFF ++ leBytes 4 5 ++ [0, 0]) ++ zeroBytes 3)
/-- The ready device 7 in a joined system of members 1, 7 and 9, with usable ports 0 towards 1 and 1 towards 9. -/
def linked (st : JoinSt) (r0 r1 : PortRole) : Dev :=
  { rdy with
    lanes := [(laneKey 0 8, { role := 1, neg := .up }), (laneKey 1 8, { role := 1, neg := .up })]
    join := { ownId := 7, members := some [1, 7, 9], st := st, low := 7
              ports := [(0, { en := true, role := r0, partner := 1, measured := true }), (1, { en := true, role := r1, partner := 9, measured := true })] } }

/-- The same as the root with child 9, and attached to the root 1 with child 9. -/
def asRoot : Dev := linked .root .standby .child
def asChild : Dev := let d : Dev := linked .attached .parent .child; { d with join := { d.join with depth := 1, root := 1 } }
/-- A detached device that has asked its neighbour 1 to attach. -/
def asking : Dev :=
  let d : Dev := linked .detached .standby .standby
  { d with join := { d.join with ports := [(0, { en := true, role := .standby, asked := true, partner := 1 })] } }
/-- A ready standby of side B on tree 2, between tiles, whose lane is UP in frame sync and whose channel 8 is ENABLED. -/
def stby : Dev :=
  { rdy with
    time := { st := .locked }
    lanes := [(laneKey 0 2, { gen := 4, locked := true, frameSync := true, txLull := false, rxLull := false, sd := true, neg := .up })]
    chans := [(8, { st := .enabled })]
    groups := [(2, { gid := 3, sideB := true, tiles := true, dual := true, st := .standby, pHolds := true })] }

/-- Its group after a LEASE message and a refresh. -/
def stbyGroup : Group :=
  { gid := 3, sideB := true, tiles := true, dual := true, st := .standby, pHolds := false, rxIn := some 0 }

/-- An active unit whose partner is silent. -/
def lonely : Dev := { rdy with groups := [(2, { gid := 3, tiles := true, st := .active })] }

/-! ## Well-formedness: each check refuses an ill-formed term -/

theorem test_wf_packet : ([{ chan := 0 }, { chan := 64 }, { op := 65536 }, { plen := 65536 }, { sendLen := 65536 }, { params := List.replicate 3809 0 }, { trailer := [0] }] : List Packet).all (fun x => !x.wf) = true := by decide +kernel
theorem test_wf_image : ([{ stage := 16 }, { size := 4294967296 }] : List BootImage).all (fun x => !x.wf) = true := by decide +kernel
theorem test_wf_ingress : ([{ pipe := 2 }, { handle := 256 }, { gem := 65536 }, { tid := 16384 }, { aid := 65536 }] : List Ingress).all (fun x => !x.wf) = true := by decide +kernel
theorem test_wf_update : ([{ table := 64, key := List.replicate 32 0, act := List.replicate 24 0 }, { key := List.replicate 31 0, act := List.replicate 24 0 }, { key := List.replicate 32 0, act := List.replicate 25 0 }, { okind := 4, key := List.replicate 32 0, act := List.replicate 24 0 }, { tileFrom := 8, key := List.replicate 32 0, act := List.replicate 24 0 }] : List TableUpdate).all (fun x => !x.wf) = true := by decide +kernel
theorem test_wf_enqueue : ([{ count := 1, port := 16 }, { count := 1, color := 3 }, { count := 1, sdom := 256 }, { count := 0 }, { count := 16 }] : List EnqueueReq).all (fun x => !x.wf) = true := by decide +kernel
theorem test_wf_uplink : ([{ sub := 64 }, { src := 2 ^ 48 }, { etherType := 65536 }, { an := 4 }] : List UplinkFrame).all (fun x => !x.wf) = true := by decide +kernel
theorem test_wf_header : ([{ port := 4 }, { src := 65536 }, { dst := 65536 }, { hops := 256 }, { root := 65536 }] : List SysHdr).all (fun x => !x.wf) = true := by decide +kernel
theorem test_wf_key : ([{ slot := 2, frag := 0, frags := 1 }, { frag := 1, frags := 1 }] : List KeyMsg).all (fun x => !x.wf) = true := by decide +kernel
theorem test_wf_satop : ([{ seq := 65536 }] : List SatopPacket).all (fun x => !x.wf) = true := by decide +kernel
theorem test_wf_ptp : ([{ domain := 256 }] : List PtpFrame).all (fun x => !x.wf) = true := by decide +kernel
theorem test_wf_broadcast : ([{ kind := 0 }, { kind := 4 }] : List BroadcastBody).all (fun x => !x.wf) = true := by decide +kernel

/-- Commands whose operands lie in their ranges. -/
theorem test_wf_0 :
    ([.cmdSysInfo { op := 0x0101 }, .cmdCntSample { op := 0x0F05 }, .fragmentRx {}, .fragmentTimeout 0, .tileForwardTimeout {},
      .tileForwardDone {}, .authRefusalEnd 0, .mbxSendWrite {}, .mbxTakeRead 0, .inbandMessageRx 0 0 0 {}, .mbxDeliveryTimeout 0,
      .lckLockRead 0 0, .lckLockWrite 0 0 0, .lckBreakWrite 0 0, .dmaHostReadTimeout 0, .dmaHostError 0, .memWriteDrop 0 0, .readStatus 0 0,
      .regWrite 0 0 {}, .pwrTileTempRead 0, .bpmMinFreeRead 0, .hostImageLoaded {}, .laneSlipWrite 0 0,
      .laneRetrain 0 0] : List Instr).all Instr.wf = true := by decide +kernel
theorem test_wf_1 :
    ([.insert 0 false, .delete 0, .lookup 0, .readIndex 0, .writeIndex 0, .checkPageGo 0 0, .checkPageAbort 0, .checkChunkDone 0,
      .feedUnderVoltage false 0, .feedOverVoltage false 0, .railExcursion 0 0 false, .railInRange 0 0, .railRampTimeout 0 0, .tileRampStart 0,
      .thermalSensorRead 0 {}, .thermalIsolate 0, .thermalTrip 0, .powerCapExceeded 0, .assayHeadroomStart 0, .protReqAssert 0,
      .protReqRelease 0, .discreteShortPulse 0, .stuckTimeout {}, .imageStageVerified {}] : List Instr).all Instr.wf = true := by decide +kernel
theorem test_wf_2 :
    ([.tileImageLoaded 0 {}, .tileReset 0, .dieLinkTrained 0 0, .dieLinkTrainTimeout 0 0, .dieLinkLockLoss 0 0, .lockstepDisagree 0 0,
      .watchdogExpiry 0 0, .engineIsolate 0, .blockReceived 0 0 0 0, .blockLockAcquired 0 0, .blockLockLost 0 0, .relockTimeout 0 0, .abil 0 0 0,
      .genStepSwitch 0 0, .genStepConfirm 0 0, .genStepTimeout 0 0, .loop 0 0 0, .lull 0 0 0, .lullEnter 0 {}, .lullWake 0 {}, .fs 0 0 0,
      .frameSyncLoss 0 0, .sdReport 0 0 0, .phyStatus 0 0 0] : List Instr).all Instr.wf = true := by decide +kernel
theorem test_wf_3 :
    ([.planCommit 0, .planCommitDeadline 0, .channelDrainEnd 0, .burstFound 0 {}, .burstWindowClose 0, .burstDecoded 0 {},
      .serialNumberOnu 0 (List.replicate 8 0) 0, .password 0 [] 0, .encryptionKey 0 { frag := 0, frags := 1 }, .acknowledge 0,
      .sleepRequest 0 false, .dyingGasp 0, .ploamUnexpected {}, .omciFrameRx 0 [] [], .circuitContainerRx 0 [], .satopPacketRx 0 {},
      .rangingWindowsExhausted 0, .reacquireTimeout 0, .holdOffEnd 0, .discMapPeriodStart 0, .discBroadPeriodStart 0, .darkPeriodStart 0,
      .darkWindowVoid 0, .huntSettleExpiry 0] : List Instr).all Instr.wf = true := by decide +kernel
theorem test_wf_4 :
    ([.positionTelegramRx 0 [], .heldReportRelease 0, .remoteReportRx [] 0, .trainStale 0, .trainLost 0, .floorHoldEnd 0, .preEngageHoldEnd 0 0,
      .frameClassify {} [], .secondPass 0 0, .learnApply 0, .tableUpdateRx 0 { key := List.replicate 32 0, act := List.replicate 24 0 },
      .ageingSweep 0, .cursorTimeout 0, .subportDown 0, .subportUp 0, .frameEnqueue { count := 1 }, .frameRelease 0 0 0, .frameDequeue false 0,
      .launchTimeReached 0, .gateBoundary 0, .uplinkFrameRx {}, .saRetireEnd 0, .pnBoundRaise 0,
      .rxPnReport 0] : List Instr).all Instr.wf = true := by decide +kernel
theorem test_wf_5 :
    ([.transitVerdict 0 0 false 0 [] [], .mkpduRx 0 {}, .mkaHelloTx 0, .mkaPeerExpire 0 0, .ponRekeyTimer 0, .ponKeyRetry 0, .ponOldKeyZeroise 0,
      .keyLoadAck 0 0, .refclkDisagree 0, .ptpFrameRx 0 {}, .ptpMessageTx 0 .sync, .ptpSourceTimeout 0, .tileTimeCheck 0 0, .tileTimeIsolate 0,
      .hello {} {}, .helloTx 0, .helloMiss 0, .delayReq {} 0, .delayResp {} 0 0 0, .delayMeasureTick 0, .attach {}, .attachAck {}, .detach {},
      .time {} 0] : List Instr).all Instr.wf = true := by decide +kernel
theorem test_wf_6 :
    ([.timeMsgTx 0, .opTime {} 0 0, .broadcast {} { kind := 1 }, .barrierArrive {} {}, .barrierRelease {} {}, .barrierExecute 0,
      .barrierAbort {} 0 0, .barrierTimeout 0, .snapshotReq {} 0 0, .snapshotInstant 0, .snapshotDone {} 0, .snapshotTimeout 0,
      .groupReset {} 0 0, .groupResetInstant 0, .groupResetDone {} 0, .command {} {}, .reply {} [], .leaseRenewTick 0, .renew 0 false {},
      .release 0 false {}, .handover 0 false {}, .digest 0 {} none none none, .digestCompareGap 0 0 0,
      .sync 0 {} []] : List Instr).all Instr.wf = true := by decide +kernel
theorem test_wf_7 :
    ([.leaseFailureTimeout 0, .quietPeriodExpiry 0, .assayScanDone 0 0 0 0 0, .assayThermalWaitExpiry 0, .bandwidthWindowClose 0,
      .sampleIntervalExpiry 0, .sampleRetire 0 {}, .feedInRange false 0, .uplinkDrainEnd 0] : List Instr).all Instr.wf = true := by decide +kernel

/-- The same commands with one operand outside its range, and packets with the wrong opcode or channel. -/
theorem test_ill_0 :
    ([.cmdSysInfo { chan := 0, op := 0x0101 }, .cmdSysInfo { op := 0 }, .cmdSysSender { op := 0 }, .cmdSysRemote { op := 0 },
      .cmdSysWarmReset { op := 0 }, .cmdSysTileReset { op := 0 }, .cmdSysFuncReset { op := 0 }, .cmdSysCounter { op := 0 },
      .cmdSysEcho { op := 0 }, .cmdSysUplink { op := 0 }, .cmdTreeEnable { op := 0 }, .cmdTreeDisable { op := 0 }, .cmdChanEnable { op := 0 },
      .cmdChanDisable { op := 0 }, .cmdChanConfig { op := 0 }, .cmdCircuitCreate { op := 0 }, .cmdCircuitDelete { op := 0 },
      .cmdOmciSend { op := 0 }, .cmdPmRead { op := 0 }, .cmdPmConfig { op := 0 }, .cmdTermCreate { op := 0 }, .cmdTermDelete { op := 0 },
      .cmdTermMap { op := 0 }, .cmdRngChanConfig { op := 0 }] : List Instr).all (fun i => !i.wf) = true := by decide +kernel
theorem test_ill_1 :
    ([.cmdTermRerange { op := 0 }, .cmdTermPower { op := 0 }, .cmdTermTxctrl { op := 0 }, .cmdTermStatus { op := 0 },
      .cmdAllocCreate { op := 0 }, .cmdAllocModify { op := 0 }, .cmdAllocDelete { op := 0 }, .cmdAllocStatus { op := 0 },
      .cmdDomConfig { op := 0 }, .cmdTdomConfig { op := 0 }, .cmdGsStatus { op := 0 }, .cmdFmRoute { op := 0 }, .cmdFmCell { op := 0 },
      .cmdFmProfile { op := 0 }, .cmdFmTrainBind { op := 0 }, .cmdFmTrainClear { op := 0 }, .cmdFmPosition { op := 0 }, .cmdFmEvent { op := 0 },
      .cmdFmSource { op := 0 }, .cmdFmStatus { op := 0 }, .cmdTableInsert { op := 0 }, .cmdTableDelete { op := 0 }, .cmdTableLookup { op := 0 },
      .cmdTableSearch { op := 0 }] : List Instr).all (fun i => !i.wf) = true := by decide +kernel
theorem test_ill_2 :
    ([.cmdTableNext { op := 0 }, .cmdTableFlushPort { op := 0 }, .cmdTableConfig { op := 0 }, .cmdTableStatus { op := 0 },
      .cmdKeyProfile { op := 0 }, .cmdLookupList { op := 0 }, .cmdSpreadGroup { op := 0 }, .cmdMirrorSession { op := 0 },
      .cmdClsPort { op := 0 }, .cmdQueueCreate { op := 0 }, .cmdQueueModify { op := 0 }, .cmdQueueDelete { op := 0 }, .cmdNodeConfig { op := 0 },
      .cmdShaperSet { op := 0 }, .cmdMeterSet { op := 0 }, .cmdGateSet { op := 0 }, .cmdQueueInject { op := 0 }, .cmdQmStatus { op := 0 },
      .cmdMsecSecy { op := 0 }, .cmdMsecSc { op := 0 }, .cmdMsecMka { op := 0 }, .cmdMsecSaInstall { op := 0 }, .cmdMsecSaDisable { op := 0 },
      .cmdMsecTxSwitch { op := 0 }] : List Instr).all (fun i => !i.wf) = true := by decide +kernel
theorem test_ill_3 :
    ([.cmdMsecTransit { op := 0 }, .cmdMsecBypass { op := 0 }, .cmdMsecStatus { op := 0 }, .cmdPonMsk { op := 0 }, .cmdPonKeyCfg { op := 0 },
      .cmdPonKeyRoll { op := 0 }, .cmdPonKeyStatus { op := 0 }, .cmdCruInfo { op := 0 }, .cmdCruChallenge { op := 0 },
      .cmdCruLifecycle { op := 0 }, .cmdCruSlotWrite { op := 0 }, .cmdCruSlotErase { op := 0 }, .cmdCruSlotStatus { op := 0 },
      .cmdCruFwStage { op := 0 }, .cmdCruFwActivate { op := 0 }, .cmdTimePtpPort { op := 0 }, .cmdTimePhyLatency { op := 0 },
      .cmdTimeTod { op := 0 }, .cmdTimeStep { op := 0 }, .cmdTimeStatus { op := 0 }, .cmdJoinConfig { op := 0 }, .cmdJoinStatus { op := 0 },
      .cmdJoinBarrier { op := 0 }, .cmdJoinSnapshot { op := 0 }] : List Instr).all (fun i => !i.wf) = true := by decide +kernel
theorem test_ill_4 :
    ([.cmdJoinBroadcast { op := 0 }, .cmdJoinGroupReset { op := 0 }, .cmdProtGroup { op := 0 }, .cmdProtForce { op := 0 },
      .cmdProtStatus { op := 0 }, .cmdFltAck { op := 0 }, .cmdFltQuenchRelease { op := 0 }, .cmdFltConfig { op := 0 }, .cmdFltLog { op := 0 },
      .cmdAssayStart { op := 0 }, .cmdAssayConfig { op := 0 }, .cmdAssayResult { op := 0 }, .cmdCntRead { op := 0 }, .cmdCntWrite { op := 0 },
      .cmdCntThreshold { op := 0 }, .cmdCntWindow { op := 0 }, .cmdCntSample { chan := 0, op := 0x0F05 }, .cmdCntSample { op := 0 },
      .fragmentRx { chan := 64 }, .fragmentTimeout 64, .tileForwardTimeout { chan := 64 }, .tileForwardDone { chan := 64 }, .authRefusalEnd 64,
      .mbxSendWrite { chan := 64 }] : List Instr).all (fun i => !i.wf) = true := by decide +kernel
theorem test_ill_5 :
    ([.mbxTakeRead 64, .inbandMessageRx 64 0 0 {}, .inbandMessageRx 0 4096 0 {}, .inbandMessageRx 0 0 281474976710656 {},
      .inbandMessageRx 0 0 0 { chan := 64 }, .mbxDeliveryTimeout 64, .lckLockRead 256 0, .lckLockRead 0 65536, .lckLockWrite 256 0 0,
      .lckLockWrite 0 65536 0, .lckBreakWrite 16 0, .dmaHostReadTimeout 4294967296, .dmaHostError 4294967296, .memWriteDrop 1099511627776 0,
      .readStatus 60 5, .regWrite 1099511627776 0 {}, .regWrite 0 9 {}, .pwrTileTempRead 8, .bpmMinFreeRead 8,
      .hostImageLoaded { images := [{ stage := 16 }] }, .laneSlipWrite 8 0, .laneSlipWrite 0 10, .laneRetrain 8 0,
      .laneRetrain 0 10] : List Instr).all (fun i => !i.wf) = true := by decide +kernel
theorem test_ill_6 :
    ([.insert 64 false, .delete 64, .lookup 64, .readIndex 64, .writeIndex 64, .checkPageGo 16 0, .checkPageAbort 16, .checkChunkDone 16,
      .feedUnderVoltage false 65536, .feedOverVoltage false 65536, .railExcursion 8 0 false, .railExcursion 0 6 false, .railInRange 8 0,
      .railInRange 0 6, .railRampTimeout 8 0, .railRampTimeout 0 6, .tileRampStart 8, .thermalSensorRead 8 {}, .thermalIsolate 8, .thermalTrip 8,
      .powerCapExceeded 65536, .assayHeadroomStart 8, .protReqAssert 4,
      .protReqRelease 4] : List Instr).all (fun i => !i.wf) = true := by decide +kernel
theorem test_ill_7 :
    ([.discreteShortPulse 6, .stuckTimeout { input := 6 }, .imageStageVerified { stage := 16 }, .tileImageLoaded 8 {}, .tileReset 8,
      .dieLinkTrained 8 0, .dieLinkTrained 0 8, .dieLinkTrainTimeout 8 0, .dieLinkTrainTimeout 0 8, .dieLinkLockLoss 8 0, .dieLinkLockLoss 0 8,
      .lockstepDisagree 8 0, .lockstepDisagree 0 2, .watchdogExpiry 8 0, .watchdogExpiry 0 2, .engineIsolate 256, .blockReceived 8 0 0 0,
      .blockReceived 0 10 0 0, .blockLockAcquired 8 0, .blockLockAcquired 0 10, .blockLockLost 8 0, .blockLockLost 0 10, .relockTimeout 8 0,
      .relockTimeout 0 10] : List Instr).all (fun i => !i.wf) = true := by decide +kernel
theorem test_ill_8 :
    ([.abil 8 0 0, .abil 0 10 0, .genStepSwitch 8 0, .genStepSwitch 0 10, .genStepConfirm 8 0, .genStepConfirm 0 10, .genStepTimeout 8 0,
      .genStepTimeout 0 10, .loop 8 0 0, .loop 0 10 0, .lull 8 0 0, .lull 0 10 0, .lullEnter 8 {}, .lullEnter 0 { lane := 10 }, .lullWake 8 {},
      .lullWake 0 { lane := 10 }, .fs 8 0 0, .fs 0 10 0, .frameSyncLoss 8 0, .frameSyncLoss 0 10, .sdReport 8 0 0, .sdReport 0 10 0,
      .phyStatus 8 0 0, .phyStatus 0 10 0] : List Instr).all (fun i => !i.wf) = true := by decide +kernel
theorem test_ill_9 :
    ([.planCommit 256, .planCommitDeadline 256, .channelDrainEnd 256, .burstFound 256 {}, .burstWindowClose 256, .burstDecoded 256 {},
      .serialNumberOnu 256 (List.replicate 8 0) 0, .serialNumberOnu 0 [] 0, .password 16384 [] 0, .encryptionKey 16384 { frag := 0, frags := 1 },
      .encryptionKey 0 { slot := 2 }, .acknowledge 16384, .sleepRequest 16384 false, .dyingGasp 16384, .ploamUnexpected { ch := 256 },
      .omciFrameRx 16384 [] [], .circuitContainerRx 4096 [], .satopPacketRx 4096 {}, .satopPacketRx 0 { seq := 65536 },
      .rangingWindowsExhausted 16384, .reacquireTimeout 16384, .holdOffEnd 16384, .discMapPeriodStart 256,
      .discBroadPeriodStart 256] : List Instr).all (fun i => !i.wf) = true := by decide +kernel
theorem test_ill_10 :
    ([.darkPeriodStart 256, .darkWindowVoid 256, .huntSettleExpiry 256, .positionTelegramRx 65536 [], .heldReportRelease 1024,
      .remoteReportRx [] 64, .trainStale 1024, .trainLost 1024, .floorHoldEnd 1024, .preEngageHoldEnd 1024 0, .preEngageHoldEnd 0 4096,
      .frameClassify { pipe := 2 } [], .secondPass 8 0, .secondPass 0 2, .learnApply 8,
      .tableUpdateRx 8 { key := List.replicate 32 0, act := List.replicate 24 0 }, .tableUpdateRx 0 { table := 64 }, .ageingSweep 64,
      .cursorTimeout 16, .subportDown 64, .subportUp 64, .frameEnqueue { count := 0 }, .frameRelease 8 0 0,
      .frameRelease 0 0 16] : List Instr).all (fun i => !i.wf) = true := by decide +kernel
theorem test_ill_11 :
    ([.frameDequeue false 1048576, .launchTimeReached 131072, .gateBoundary 64, .uplinkFrameRx { sub := 64 }, .saRetireEnd 8192,
      .pnBoundRaise 8192, .rxPnReport 8192, .transitVerdict 8192 0 false 0 [] [], .transitVerdict 0 131072 false 0 [] [],
      .transitVerdict 0 0 false 18446744073709551616 [] [], .mkpduRx 4096 {}, .mkaHelloTx 4096, .mkaPeerExpire 4096 0,
      .mkaPeerExpire 0 18446744073709551616, .ponRekeyTimer 16384, .ponKeyRetry 16384, .ponOldKeyZeroise 16384, .keyLoadAck 65536 0,
      .refclkDisagree 1000000, .ptpFrameRx 64 {}, .ptpFrameRx 0 { domain := 256 }, .ptpMessageTx 64 .sync, .ptpSourceTimeout 64,
      .tileTimeCheck 8 0] : List Instr).all (fun i => !i.wf) = true := by decide +kernel
theorem test_ill_12 :
    ([.tileTimeIsolate 8, .hello { port := 4 } {}, .helloTx 4, .helloMiss 4, .delayReq { port := 4 } 0, .delayResp { port := 4 } 0 0 0,
      .delayMeasureTick 4, .attach { port := 4 }, .attachAck { port := 4 }, .detach { port := 4 }, .time { port := 4 } 0, .timeMsgTx 4,
      .opTime { port := 4 } 0 0, .opTime {} 4294967296 0, .opTime {} 0 65536, .broadcast { port := 4 } { kind := 1 },
      .broadcast {} { kind := 0 }, .barrierArrive { port := 4 } {}, .barrierRelease { port := 4 } {}, .barrierExecute 64,
      .barrierAbort { port := 4 } 0 0, .barrierAbort {} 64 0, .barrierAbort {} 0 65536,
      .barrierTimeout 64] : List Instr).all (fun i => !i.wf) = true := by decide +kernel
theorem test_ill_13 :
    ([.snapshotReq { port := 4 } 0 0, .snapshotReq {} 4294967296 0, .snapshotInstant 4294967296, .snapshotDone { port := 4 } 0,
      .snapshotDone {} 4294967296, .snapshotTimeout 4294967296, .groupReset { port := 4 } 0 0, .groupReset {} 65536 0, .groupResetInstant 65536,
      .groupResetDone { port := 4 } 0, .groupResetDone {} 65536, .command { port := 4 } {}, .command {} { chan := 64 }, .reply { port := 4 } [],
      .leaseRenewTick 64, .renew 64 false {}, .release 64 false {}, .handover 64 false {}, .digest 64 {} none none none,
      .digestCompareGap 64 0 0, .digestCompareGap 0 3 0, .digestCompareGap 0 0 281474976710656, .sync 64 {} [],
      .leaseFailureTimeout 64] : List Instr).all (fun i => !i.wf) = true := by decide +kernel
theorem test_ill_14 :
    ([.quietPeriodExpiry 4294967296, .assayScanDone 8 0 0 0 0, .assayScanDone 0 4294967296 0 0 0, .assayScanDone 0 0 0 0 256,
      .assayThermalWaitExpiry 8, .bandwidthWindowClose 1048576, .sampleIntervalExpiry 256, .sampleRetire 256 {}, .feedInRange false 65536,
      .uplinkDrainEnd 64] : List Instr).all (fun i => !i.wf) = true := by decide +kernel

/-! ## Values the spec works out, and published vectors of the standards it names -/

/-- The worked placement of chapter 01: tree 43, its F channel, and the X channel of tree 17 of chapter 07. -/
theorem test_placement : (tileOfTree 43, 4 * 43 + 2, tileOfChan 174, tileOfChan 69, 300 % Variant.thz8.tiles) = (5, 174, 5, 2, 4) := by decide +kernel

/-- The corridor of chapter 07: channel 69, reach 3,000 to 22,000 m, radio heads mapped at 11,200 m and 11,900 m with t = 150 m. -/
def corridor (cal : Option Int) : Dev :=
  { chans := [(69, { reachMin := 3000, reachMax := 22000, calConst := cal })]
    terms := [(1, { ch := 69, dist := 11200, tol := 150 }), (2, { ch := 69, dist := 11900, tol := 150 })] }
theorem test_windows : ((corridor (some 0)).rangeNs 69 1, (corridor none).rangeNs 69 1, (corridor (some 0)).mapNs 69 [1, 2], (corridor (some 0)).broadNs 69)
    = (3599, 11599, 58454, 236215) := by decide +kernel

/-- The line bytes of a 1,000-byte grant with its status report (chapter 08 R211), and of 20,000 bytes at the fastest rate. -/
theorem test_line_bytes : (lineB (rateOf 0 0) 20 0 1002, lineB (rateOf 0 0) 20 16 1002, lineB (rateOf 1 0) 40 32 1004,
    lineB (rateOf 2 2) 176 336 1004, lineB (rateOf 2 2) 176 336 20004) = (1025, 1105, 1216, 1528, 23888) := by decide +kernel

/-- The worked frame of chapter 08: terminals A, B and C are 15001 to 15003, allocations A1, A2, B1, B2 and C1 are 1 to 5. -/
def worked : Dev :=
  { chans := [(120, { st := .enabled, rot := 1 })]
    terms := [(15001, { ch := 120, st := .inService, sendFrom := some 0 }), (15002, { ch := 120, st := .inService, sendFrom := some 0 }),
      (15003, { ch := 120, st := .inService, sendFrom := some 0 })]
    domW := [(256 * 120 + 10, 48), (256 * 120 + 20, 16)]
    tdomW := [(256 * 15002 + 10, 16), (256 * 15003 + 10, 32)]
    allocs := [(1, { tid := 15001, owed := false, lastFrame := 99, p := { sdom := 10, typ := 0, fixed := 149 } }),
      (2, { tid := 15001, owed := false, lastFrame := 99, report := some (98, 120), p := { sdom := 10, typ := 1, assured := 400, peak := 400, safety := true } }),
      (3, { tid := 15002, owed := false, lastFrame := 99, report := some (98, 9000), p := { sdom := 10, typ := 2, peak := 19440 } }),
      (4, { tid := 15002, owed := false, lastFrame := 99, report := some (98, 12000), p := { sdom := 20, typ := 2, peak := 19440 } }),
      (5, { tid := 15003, owed := false, lastFrame := 99, report := some (98, 8000), p := { sdom := 10, typ := 1, assured := 2000, peak := 6000 } })] }
def workedPlan : Plan := (worked.makePlan 120 100 100 [{ kind := .dark, lenNs := 10000, lenB := 1556 }] false).1
theorem test_worked_dark : (worked.rate 120).darkBytes 10000 = 1556 := by decide +kernel
theorem test_worked_frame : workedPlan.bursts.map (fun b => b.grants.map (fun g => (g.aid, g.bytes))) = [[(2, 400), (1, 149)], [(3, 7443), (4, 3815)], [(5, 6000)]]
    ∧ workedPlan.unused = 0 := by decide +kernel

/-- T_op of the corridor of chapter 16: 2 x 1,193.5 + 2 microseconds. -/
theorem test_t_op : tOpOf 1193500 = 2389000 := by decide +kernel

/-- The AES-256 block of FIPS 197, SHA-384 of "abc" of FIPS 180-4, and the published check values of the three CRCs. -/
theorem test_aes : beNat (aesEncK (aesKeys ((List.range 32).map (BitVec.ofNat 8 ·))) ((List.range 16).map (fun i => BitVec.ofNat 8 (17 * i))))
    = 0x8EA2B7CA516745BFEAFC49904B496089 := by decide +kernel
theorem test_sha : beNat ((sha384 (ascii "abc")).take 8) = 0xCB00753F45A35E8B := by decide +kernel
theorem test_crc : crc32c (ascii "123456789") = 0xE3069283#32 ∧ crc64 (ascii "123456789") = 0x995DC9BBDF1939FA#64 ∧ crc8 (ascii "123456789") = 0xF4#8 := by decide +kernel

/-! ## Hypotheses are met -/

/-! O1 FeedEventsChangeFeedAndCarrier -/

theorem wit_FeedEventsChangeFeedAndCarrier_1 : (fun (d : Dev) (feedB : Bool) (mv : Nat) => ((d.feed feedB).st = .overV ∧ 2550 ≤ mv ∧ mv ≤ 14300) ∨
  (((d.feed feedB).st = .off ∨ (d.feed feedB).st = .under ∨ (d.feed feedB).st = .reversed) ∧ 2650 ≤ mv ∧ mv ≤ 14600))
  ({ rdy with pwr := { feedB := { st := .off, mv := 0 } } }) (true) (12000) :=
  by decide +kernel
theorem wit_FeedEventsChangeFeedAndCarrier_2 : (fun (d : Dev) (feed : FeedGood) => (d.feed feed.feedB).st = .qualifying ∧ d.pwr.pfw = false ∧
  d.pwr.pstate ≠ .unpowered) ({ rdy with pwr := { feedB := { st := .qualifying } } }) ({ feedB := true, straps := { bootSrc := 0, refSel := false } })
  :=
  by decide +kernel
theorem wit_FeedEventsChangeFeedAndCarrier_3 : (fun (d : Dev) (feed : FeedGood) => (d.feed feed.feedB).st = .qualifying ∧ d.pwr.pfw = true ∧
  d.pwr.pstate ≠ .unpowered ∧ d.pwr.pinReset.asserted = false)
  ({ rdy with pwr := { pfw := true, feedA := { st := .off }, feedB := { st := .qualifying } } })
  ({ feedB := true, straps := { bootSrc := 2, refSel := true } }) :=
  by decide +kernel
theorem wit_FeedEventsChangeFeedAndCarrier_4 : (fun (d : Dev) (feedB : Bool) (mv : Nat) => mv < 2550 ∧ (d.feed feedB).st = .good ∧ (d.feed
  (!feedB)).st = .good) (rdy) (true) (400) :=
  by decide +kernel
theorem wit_FeedEventsChangeFeedAndCarrier_5 : (fun (d : Dev) (feedB : Bool) (mv : Nat) => 14600 < mv ∧ (d.feed feedB).st = .good ∧ (d.feed
  (!feedB)).st ≠ .good ∧ d.pwr.pstate ≠ .unpowered ∧ d.pwr.assayQueue = [] ∧ d.tileList.all (fun t => !(d.asyTile t).running) = true)
  ({ rdy with pwr := { feedB := { st := .off, mv := 0 } } }) (false) (14700) :=
  by decide +kernel
theorem wit_FeedEventsChangeFeedAndCarrier_6 : (fun (d : Dev) (feedB : Bool) => (d.feed feedB).st = .good ∧ (d.feed (!feedB)).st = .good) (rdy)
  (false) :=
  by decide +kernel
theorem wit_FeedEventsChangeFeedAndCarrier_7 : (fun (d : Dev) (value : BitVec 32) => d.hostOk = true ∧ value.toNat % 4 ≠ 3) (rdy) (2) :=
  by decide +kernel
theorem wit_FeedEventsChangeFeedAndCarrier_8 : (fun (d : Dev) => d.pwr.pfw = true) ({ rdy with pwr := { pfw := true } }) :=
  by decide +kernel

/-! O2 RailAndThermalEventsFollowTheirLevels -/

theorem wit_RailAndThermalEventsFollowTheirLevels_1 : (fun (d : Dev) (tile : Nat) => d.pwr.pstate = .ramp ∧ tile < d.nTiles ∧ (d.tile tile).ramping =
  none ∧ (d.tile tile).railOk = 0 ∧ (d.tile tile).st ≠ .isolated ∧ (tile = 0 ∨ (d.tile (tile - 1)).ramping.isSome = true ∨ (d.tile (tile - 1)).railOk
  ≠ 0 ∨ (d.tile (tile - 1)).st = .isolated)) ({ }) (0) :=
  by decide +kernel
theorem wit_RailAndThermalEventsFollowTheirLevels_2 : (fun (d : Dev) (tile rail : Nat) => tile < d.nTiles ∧ (d.tile tile).ramping = some rail ∧ rail <
  5 ∧ (d.tile tile).railOk.getLsbD 5 = false ∧ (d.tile tile).st ≠ .isolated) ({ tiles := [(0, { ramping := some 2 })] }) (0) (2) :=
  by decide +kernel
theorem wit_RailAndThermalEventsFollowTheirLevels_3 : (fun (d : Dev) (tile rail : Nat) (overV : Bool) => (rail = 6 ∨ rail = 7) ∧ d.flt.unack.length =
  5) (rdy) (0) (7) (true) :=
  by decide +kernel
theorem wit_RailAndThermalEventsFollowTheirLevels_4 : (fun (d : Dev) (tile rail : Nat) (overV : Bool) => tile < d.nTiles ∧ tile ≠ 0 ∧ rail < 6 ∧
  (d.tile tile).railOk.getLsbD rail = true ∧ d.pwr.pstate ≠ .ramp ∧ d.asy.bootRun.contains tile = false)
  ({ rdy with tiles := [(0, { st := .run, railOk := 63 }), (2, { st := .run, railOk := 63 })], pwr := { pstate := .operating } }) (2) (4) (false) :=
  by decide +kernel
theorem wit_RailAndThermalEventsFollowTheirLevels_5 : (fun (d : Dev) (tile rail : Nat) => tile < d.nTiles ∧ tile ≠ 0 ∧ (d.tile tile).ramping = some
  rail ∧ rail < 6 ∧ d.pwr.pstate ≠ .ramp ∧ d.asy.bootRun.contains tile = false)
  ({ rdy with tiles := [(0, { st := .run }), (1, { st := .boot, ramping := some 3 })], pwr := { pstate := .boot } }) (1) (3) :=
  by decide +kernel
theorem wit_RailAndThermalEventsFollowTheirLevels_6 : (fun (d : Dev) (tile : Nat) (r : Readings) => tile < d.nTiles ∧ (d.tile tile).level = 0 ∧
  (d.asyTile tile).waits = false ∧ 105 ≤ (hottestOf r).1 ∧ (hottestOf r).1 < 110) (rdy) (1) ({ s0 := 50, s1 := 107, s2 := 60, s3 := 70 }) :=
  by decide +kernel
theorem wit_RailAndThermalEventsFollowTheirLevels_7 : (fun (d : Dev) (tile : Nat) (r : Readings) => tile < d.nTiles ∧ (d.tile tile).level = 0 ∧
  (d.asyTile tile).waits = false ∧ 110 ≤ (hottestOf r).1 ∧ (hottestOf r).1 < 125) (rdy) (1) ({ s0 := 50, s1 := 112, s2 := 60, s3 := 70 }) :=
  by decide +kernel
theorem wit_RailAndThermalEventsFollowTheirLevels_8 : (fun (d : Dev) (tile : Nat) => tile < d.nTiles ∧ tile ≠ 0 ∧ (d.tile tile).level < 3 ∧
  d.asy.bootRun.contains tile = false) (rdy) (2) :=
  by decide +kernel
theorem wit_RailAndThermalEventsFollowTheirLevels_9 : (fun (d : Dev) (tile : Nat) => tile < d.nTiles ∧ tile ≠ 0 ∧ (d.tile tile).level < 4 ∧
  d.asy.bootRun.contains tile = false) (rdy) (2) :=
  by decide +kernel
theorem wit_RailAndThermalEventsFollowTheirLevels_10 : (fun (d : Dev) (watts : Nat) => d.powerCap < watts ∧ d.ready = true) (rdy) (200) :=
  by decide +kernel
theorem wit_RailAndThermalEventsFollowTheirLevels_11 : (fun (d : Dev) (tile : Nat) => d.estimate.assayFits = true ∧ d.pwr.assayQueue.find? (fun t =>
  (d.tile t).level < 2) = some tile)
  ({ rdy with
     pwr := { assayQueue := [1, 2] }, tiles := [(0, { st := .run }), (1, { st := .assay, level := 2 }), (2, { st := .assay })],
     regs := [(0x110, 300)] }) (2) :=
  by
      refine ⟨?_, by decide +kernel⟩
      unfold Dev.assayFits
      rw [decide_eq_true_eq]
      exact Nat.le_trans (Nat.add_le_add_right (Nat.mul_le_mul_left 10 (Nat.min_le_left _ _)) _) (by decide +kernel)

/-! O3 SystemCommandsAnswerAndReset -/

theorem wit_SystemCommandsAnswerAndReset_1 : WitOk specSysInfo (pkt specSysInfo 0 []) (rdy) (fun (c : Cmd) (d : Dev) => True) :=
  wit_plain _ _ _ _ (by decide +kernel) (by decide +kernel)
theorem wit_SystemCommandsAnswerAndReset_2 : WitOk specSysEcho (pkt specSysEcho 0 [1, 2, 3]) (rdy) (fun (c : Cmd) (d : Dev) => True) :=
  wit_plain _ _ _ _ (by decide +kernel) (by decide +kernel)
theorem wit_SystemCommandsAnswerAndReset_3 : WitOk specSysCounter (pkt specSysCounter 0 []) (rdy) (fun (c : Cmd) (d : Dev) => c.tgt ≤ 63) :=
  wit_plain _ _ _ _ (by decide +kernel) (by decide +kernel)
theorem wit_SystemCommandsAnswerAndReset_4 : WitOk specSysSender (sg specSysSender 2 ([0x01, 0x02, 4, 1] ++ zeroBytes 36))
  ({ rdy with cru := { slots := [(4, { kind := 1, key := zeroBytes 32 })] } }) (fun (c : Cmd) (d : Dev) => 1 ≤ c.tgt ∧ c.tgt ≤ 63 ∧ c.bit 3 0 = true ∧
  c.bit 3 1 = false ∧ (d.pslot (c.u8 2)).kind = 1 ∧ (d.pslot (c.u8 2)).stale = false) :=
  wit_signed _ _ _ _ (by decide +kernel) (by decide +kernel)
theorem wit_SystemCommandsAnswerAndReset_5 : WitOk specSysRemote (sg specSysRemote 33 ([0, 1, 5, 0] ++ zeroBytes 12)) (rdy) (fun (c : Cmd) (d : Dev)
  => 32 ≤ c.tgt ∧ c.tgt ≤ 47 ∧ c.u8 0 = 0 ∧ c.u8 1 < d.nSubs ∧ d.tileRun (tileOfSub (c.u8 1)) = true ∧ 1 ≤ c.u16 2 ∧ c.u16 2 ≤ 4094) :=
  wit_signed _ _ _ _ (by decide +kernel) (by decide +kernel)
theorem wit_SystemCommandsAnswerAndReset_6 : WitOk specSysWarmReset (sg specSysWarmReset 0 []) (rdy) (fun (c : Cmd) (d : Dev) => True) :=
  wit_signed _ _ _ _ (by decide +kernel) (by decide +kernel)
theorem wit_SystemCommandsAnswerAndReset_7 : WitOk specSysTileReset (sg specSysTileReset 2 []) (rdy) (fun (c : Cmd) (d : Dev) => d.awaiting c.p.chan <
  64 ∧ (0 < c.tgt ∧ c.tgt < d.nTiles ∧ (d.tile c.tgt).st = .run)) :=
  wit_signed _ _ _ _ (by decide +kernel) (by decide +kernel)
theorem wit_SystemCommandsAnswerAndReset_8 : WitOk specSysFuncReset (pkt specSysFuncReset 2 [3]) (rdy) (fun (c : Cmd) (d : Dev) => (c.u8 0 = 0 ∧ c.tgt
  < d.nTrees ∧ d.tileRun (tileOfTree c.tgt) = true) ∨ (c.u8 0 = 1 ∧ d.chanOk c.tgt = true ∧ d.tileRun (tileOfChan c.tgt) = true ∧ (d.chan c.tgt).st ≠
  .disabled) ∨ (c.u8 0 = 2 ∧ c.tgt < d.nSubs ∧ d.tileRun (tileOfSub c.tgt) = true) ∨ (c.u8 0 = 3 ∧ c.tgt < 4 ∧ d.tileRun (d.sysPortTile c.tgt) =
  true)) :=
  wit_plain _ _ _ _ (by decide +kernel) (by decide +kernel)
theorem wit_SystemCommandsAnswerAndReset_9 : WitOk specSysUplink (pkt specSysUplink 0 [0, 0, 0, 0]) (rdy) (fun (c : Cmd) (d : Dev) => c.tgt < d.nSubs
  ∧ d.tileRun (tileOfSub c.tgt) = true ∧ c.u8 0 = 0 ∧ (d.sub c.tgt).enabled = false ∧ (d.sub c.tgt).drainEnd = none ∧ d.uplRefused c.tgt = false ∧
  d.subRoom c.tgt = true) :=
  wit_plain _ _ _ _ (by decide +kernel) (by decide +kernel)
theorem wit_SystemCommandsAnswerAndReset_10 : (fun (d : Dev) (sub : Nat) (t : Raw) => sub < d.nSubs ∧ (d.sub sub).drainEnd = some t ∧ reached d.now t
  = true ∧ d.subQueues sub = []) ({ rdy with subs := [(3, { drainEnd := some 0, up := true })] }) (3) (0) :=
  by decide +kernel

/-! O4 FaultCommandsAcknowledgeAndAnneal -/

theorem wit_FaultCommandsAcknowledgeAndAnneal_1 : WitOk specFltAck (pkt specFltAck 0 [1, 0, 0, 0])
  ({ rdy with flt := { seq := 1, ring := [{ seq := 1, cls := 2 }], unack := [0, 0, 1, 0, 0] } }) (fun (c : Cmd) (d : Dev) => ∀ r ∈ d.flt.ring,
  r.latched = false) :=
  wit_plain _ _ _ _ (by decide +kernel) (by decide +kernel)
theorem wit_FaultCommandsAcknowledgeAndAnneal_2 : WitOk specFltQuenchRelease (sg specFltQuenchRelease 0 [])
  ({ rdy with flt := { seq := 1, ring := [{ seq := 1, cls := 4 }], unack := [0, 0, 0, 0, 1], quench := true } }) (fun (c : Cmd) (d : Dev) =>
  d.flt.ring.any (fun r => r.cls = 4 && r.cond) = false) :=
  wit_signed _ _ _ _ (by decide +kernel) (by decide +kernel)
theorem wit_FaultCommandsAcknowledgeAndAnneal_3 : WitOk specFltConfig (pkt specFltConfig 0 [10, 0, 3, 2, 1, 0, 0, 0]) (rdy) (fun (c : Cmd) (d : Dev)
  => 1 ≤ c.u16 0 ∧ c.u16 0 ≤ 3600 ∧ c.u8 2 ≤ 15 ∧ c.u8 3 ≤ 15 ∧ c.u8 4 ≤ 4) :=
  wit_plain _ _ _ _ (by decide +kernel) (by decide +kernel)
theorem wit_FaultCommandsAcknowledgeAndAnneal_4 : WitOk specFltLog (pkt specFltLog 0 [0, 0, 0, 0, 0, 5, 0, 0])
  ({ rdy with flt := { seq := 1, ring := [{ seq := 1, cls := 4 }], unack := [0, 0, 0, 0, 1] } }) (fun (c : Cmd) (d : Dev) => c.u8 4 = 0 ∧ 1 ≤ c.u8 5 ∧
  c.u8 5 ≤ 112) :=
  wit_plain _ _ _ _ (by decide +kernel) (by decide +kernel)
theorem wit_FaultCommandsAcknowledgeAndAnneal_5 : (fun (d : Dev) (seq : Nat) (r : FltRec) (q : Raw) => d.flt.ring.find? (fun x => x.seq = seq) = some
  r ∧ r.quietEnd = some q ∧ r.annealed = false ∧ r.cls < 3 ∧ d.ready = true ∧ d.flt.recov.length = 5)
  ({ rdy with flt := { seq := 1, ring := [{ seq := 1, cls := 2, quietEnd := some 7 }], unack := [0, 0, 1, 0, 0] } }) (1)
  ({ seq := 1, cls := 2, quietEnd := some 7 }) (7) :=
  by decide +kernel
theorem wit_FaultCommandsAcknowledgeAndAnneal_6 : (fun (d : Dev) (seq : Nat) (r : FltRec) (q : Raw) => d.flt.ring.find? (fun x => x.seq = seq) = some
  r ∧ r.quietEnd = some q ∧ r.annealed = false ∧ r.cls = 4 ∧ d.ready = true ∧ d.inReset = false ∧ d.flt.recov.length = 5 ∧ d.flt.f4At.length <
  d.f4Limit) ({ rdy with flt := { seq := 1, ring := [{ seq := 1, cls := 4, quietEnd := some 7 }], unack := [0, 0, 0, 0, 1], quench := true } }) (1)
  ({ seq := 1, cls := 4, quietEnd := some 7 }) (7) :=
  by decide +kernel

/-! O5 ChannelsEnableDisableAndDrain -/

theorem wit_ChannelsEnableDisableAndDrain_1 : WitOk specChanEnable (sg specChanEnable 1 []) (rdy) (fun (c : Cmd) (d : Dev) => d.chanOk c.tgt = true ∧
  d.tileRun (tileOfChan c.tgt) = true ∧ (d.chan c.tgt).st = .disabled ∧ (d.chan c.tgt).disableAt = none ∧ d.laneRefuses c.tgt (d.chan c.tgt).upRate =
  false) :=
  wit_signed _ _ _ _ (by decide +kernel) (by decide +kernel)
theorem wit_ChannelsEnableDisableAndDrain_2 : WitOk specTreeEnable (sg specTreeEnable 0 []) ({ rdy with chans := [(1, { st := .enabled })] }) (fun (c
  : Cmd) (d : Dev) => c.tgt < d.nTrees ∧ d.tileRun (tileOfTree c.tgt) = true ∧ (treeChans c.tgt).any d.shutting = false ∧ ∀ ch ∈ treeChans c.tgt,
  (d.chan ch).st = .disabled → d.laneRefuses ch (d.chan ch).upRate = false) :=
  wit_signed _ _ _ _ (by decide +kernel) (by decide +kernel)
theorem wit_ChannelsEnableDisableAndDrain_3 : WitOk specTreeEnable (sg specTreeEnable 0 []) ({ rdy with chans := [(1, { st := .draining })] }) (fun (c
  : Cmd) (d : Dev) => d.awaiting c.p.chan < 64 ∧ (c.tgt < d.nTrees ∧ d.tileRun (tileOfTree c.tgt) = true ∧ (treeChans c.tgt).any d.shutting = true))
  :=
  wit_signed _ _ _ _ (by decide +kernel) (by decide +kernel)
theorem wit_ChannelsEnableDisableAndDrain_4 : WitOk specChanDisable (sg specChanDisable 1 []) ({ rdy with chans := [(1, { st := .enabled })] }) (fun
  (c : Cmd) (d : Dev) => d.chanOk c.tgt = true ∧ d.tileRun (tileOfChan c.tgt) = true ∧ ((d.chan c.tgt).st = .enabled ∨ (d.chan c.tgt).st = .enabling)
  ∧ (d.chan c.tgt).disableAt = none) :=
  wit_signed _ _ _ _ (by decide +kernel) (by decide +kernel)
theorem wit_ChannelsEnableDisableAndDrain_5 : WitOk specTreeDisable (sg specTreeDisable 0 []) ({ rdy with chans := [(1, { st := .enabled })] }) (fun
  (c : Cmd) (d : Dev) => c.tgt < d.nTrees ∧ d.tileRun (tileOfTree c.tgt) = true) :=
  wit_signed _ _ _ _ (by decide +kernel) (by decide +kernel)
theorem wit_ChannelsEnableDisableAndDrain_6 : WitOk specChanConfig (pkt specChanConfig 1 [1, 0, 0, 0]) (rdy) (fun (c : Cmd) (d : Dev) => d.chanOk
  c.tgt = true ∧ d.tileRun (tileOfChan c.tgt) = true ∧ c.u8 0 ≤ c.tgt % 4 ∧ (d.chan c.tgt).st = .disabled ∧ d.laneRefuses c.tgt (c.u8 0) = false) :=
  wit_plain _ _ _ _ (by decide +kernel) (by decide +kernel)
theorem wit_ChannelsEnableDisableAndDrain_7 : (fun (d : Dev) (ch : Nat) => d.chanOk ch = true ∧ (d.chan ch).st = .draining ∧ d.tileRun (tileOfChan ch)
  = true ∧ d.chanQueues ch = [] ∧ reached d.now (d.chan ch).drainEnd = true) ({ rdy with chans := [(1, { st := .draining, disableAt := none })] }) (1)
  :=
  by decide +kernel

/-! O6 BoundariesAdvanceTheFrameAndTheSecond -/

theorem wit_BoundariesAdvanceTheFrameAndTheSecond_1 : (fun (d : Dev) (n : Nat) (a b : Dev) => d.ready = true ∧ n = (d.reachFrame d.nextFrame 8).frame
  ∧ a = (({ d.reachFrame d.nextFrame 8 with time := { (d.reachFrame d.nextFrame 8).time with lastFrame := some n } } : Dev)) ∧ b = (((((a.onList.foldl
  Dev.assembleDue a).trafficBoundary.ponBoundary).circuitBoundary).fmChanges n).fmBoundary n)) (rdy) (0)
  ({ rdy with time := { lastFrame := some 0 } }) ({ rdy with time := { lastFrame := some 0 } }) :=
  by decide +kernel
theorem wit_BoundariesAdvanceTheFrameAndTheSecond_2 : (fun (d : Dev) (a : Dev) => d.ready = true ∧ d.ppsOutMode = 2 ∧ d.time.st = .freerun ∧
  d.snapPeriodS = 0 ∧ d.netU % secU = 0 ∧ d.time.topSecond < d.netSec ∧ a = (Dev.pmSecond
  { d with time := { d.time with topSecond := d.netSec, rateHist := (d.time.rate.toInt :: d.time.rateHist).take 60 } } d.netSec).reanchor.slewDone)
  ({ rdy with time := { offS := 1 } }) (Dev.slewDone (Dev.reanchor (Dev.pmSecond { rdy with time := { offS := 1, topSecond := 1, rateHist := [0] } }
  1))) :=
  by decide +kernel
theorem wit_BoundariesAdvanceTheFrameAndTheSecond_3 : (fun (d : Dev) => d.ready = true ∧ d.ppsOutMode = 1 ∧ d.snapPeriodS = 0)
  ({ rdy with time := { offS := 1 }, regs := [(0x324, 0x20000000)] }) :=
  by decide +kernel
theorem wit_BoundariesAdvanceTheFrameAndTheSecond_4 : (fun (d : Dev) => d.ready = true ∧ d.snapPeriodS ≠ 0 ∧ d.netU % secU = 0 ∧ d.time.topSecond <
  d.netSec ∧ d.netSec % d.snapPeriodS = 0 ∧ d.join.snaps = [] ∧ d.cnt.writing = none)
  ({ rdy with time := { offS := 1 }, regs := [(0x1000, 0x00100000)] }) :=
  by decide +kernel
theorem wit_BoundariesAdvanceTheFrameAndTheSecond_5 : (fun (d : Dev) (j : Int) => d.ready = true ∧ d.frameClockU % (8 * frameU) = 0 ∧ d.time.lastIv ≠
  some (lowBits 45 (d.frameI / 8)) ∧ j = d.frameI / 8) (rdy) (0) :=
  by decide +kernel

/-! O7 LineQualityIsReadConfiguredAndFinal -/

theorem wit_LineQualityIsReadConfiguredAndFinal_1 : WitOk specPmRead (pkt specPmRead 16384 [0, 0, 0, 0]) (rdy) (fun (c : Cmd) (d : Dev) => 16384 ≤
  c.tgt ∧ c.tgt < 16384 + d.nTrees ∧ d.tileRun (tileOfTree (c.tgt - 16384)) = true ∧ c.u8 0 < 35) :=
  wit_plain _ _ _ _ (by decide +kernel) (by decide +kernel)
theorem wit_LineQualityIsReadConfiguredAndFinal_2 : WitOk specPmRead (pkt specPmRead 5 [33, 0, 0, 0]) (svc) (fun (c : Cmd) (d : Dev) => c.tgt <
  d.nTerms ∧ c.tgt < 16384 ∧ mhas d.terms c.tgt = true ∧ d.tileRun (d.tileOfTerm c.tgt) = true ∧ c.u8 0 < 35) :=
  wit_plain _ _ _ _ (by decide +kernel) (by decide +kernel)
theorem wit_LineQualityIsReadConfiguredAndFinal_3 : WitOk specPmConfig (pkt specPmConfig 16385 ([1, 0, 0, 0, 5, 0, 0, 0] ++ zeroBytes 16)) (rdy) (fun
  (c : Cmd) (d : Dev) => 16384 ≤ c.tgt ∧ c.tgt < 16384 + d.nTrees ∧ d.tileRun (tileOfTree (c.tgt - 16384)) = true ∧ c.u8 0 ≤ 1) :=
  wit_plain _ _ _ _ (by decide +kernel) (by decide +kernel)
theorem wit_LineQualityIsReadConfiguredAndFinal_4 : WitOk specPmConfig (pkt specPmConfig 5 ([0, 0, 0, 0, 5, 0, 0, 0] ++ zeroBytes 16)) (svc) (fun (c :
  Cmd) (d : Dev) => c.tgt < d.nTerms ∧ c.tgt < 16384 ∧ mhas d.terms c.tgt = true ∧ d.tileRun (d.tileOfTerm c.tgt) = true ∧ c.u8 0 ≤ 1) :=
  wit_plain _ _ _ _ (by decide +kernel) (by decide +kernel)
theorem wit_LineQualityIsReadConfiguredAndFinal_5 : (fun (d : Dev) (x : Raw) (xs : List Raw) => d.terms.flatMap (fun e => e.2.pm.provisional) ++
  d.trees.flatMap (fun e => e.2.pm.provisional) = x :: xs) ({ rdy with trees := [(0, { pm := { old15 := [{ key := 0, closedAt := some 5 }] } })] }) (5
  + rawS 10) ([]) :=
  by decide +kernel

/-! O8 CircuitsAndOmciPassTheirTraffic -/

theorem wit_CircuitsAndOmciPassTheirTraffic_1 : WitOk specCircuitCreate (pkt specCircuitCreate 3 ([5, 0, 40, 0, 7, 0, 0, 0] ++ zeroBytes 7 ++ [2]))
  ({ svc with circuits := [(4, { tid := 5, aid := 7 })] }) (fun (c : Cmd) (d : Dev) => c.tgt < d.nCircuits ∧ c.u16 0 < d.nTerms ∧ c.u16 4 < d.nAllocs
  ∧ (c.u16 12 = 0 ∨ (32 ≤ c.u16 12 ∧ c.u16 12 ≤ 1024 ∧ c.u16 12 % 32 = 0)) ∧ c.u8 14 ≤ 32 ∧ c.u8 15 ≤ 3 ∧ mhas d.circuits c.tgt = false ∧ mhas d.terms
  (c.u16 0) = true ∧ mhas d.allocs (c.u16 4) = true ∧ (d.term (c.u16 0)).delAt = none ∧ (d.alloc (c.u16 4)).delAt = none ∧ d.tileRun (tileOfChan
  (d.term (c.u16 0)).ch) = true ∧ (d.alloc (c.u16 4)).tid = c.u16 0 ∧ (d.alloc (c.u16 4)).p.typ = 0 ∧ (d.alloc (c.u16 4)).latest.1.period = 1 ∧
  (d.circuits.filter (fun e => e.2.tid = c.u16 0 && e.2.delAt.isNone)).length < 16 ∧ (d.circuits.filter (fun e => d.tileOfTerm e.2.tid = tileOfChan
  (d.term (c.u16 0)).ch)).length < 512 ∧ 36 * ((d.circuits.filter (fun e => e.2.tid = c.u16 0 && e.2.delAt.isNone)).length + 1) + gemHdr (d.term
  (c.u16 0)).ch ≤ (d.alloc (c.u16 4)).latest.1.fixed) :=
  wit_plain _ _ _ _ (by decide +kernel) (by decide +kernel)
theorem wit_CircuitsAndOmciPassTheirTraffic_2 : (fun (d : Dev) (circuit : Nat) (bytes : List Byte) (x : Circuit) => mget d.circuits circuit = some x ∧
  d.chanLive (d.chanOfTerm x.tid) = true ∧ natAt bytes 0 1 * 16 + natAt bytes 1 1 / 16 ≠ circuit)
  ({ svc with circuits := [(3, { tid := 5, aid := 7, port := 40, rxSeq := some 1 })] }) (3) (([0, 0x42, 0] ++ List.replicate 33 0xAA))
  ({ tid := 5, aid := 7, port := 40, rxSeq := some 1 }) :=
  by decide +kernel
theorem wit_CircuitsAndOmciPassTheirTraffic_3 : (fun (d : Dev) (circuit : Nat) (bytes : List Byte) (x : Circuit) (seq : Nat) => mget d.circuits
  circuit = some x ∧ d.chanLive (d.chanOfTerm x.tid) = true ∧ natAt bytes 0 1 * 16 + natAt bytes 1 1 / 16 = circuit ∧ seq = natAt bytes 1 1 % 16 ∧
  x.rxSeq = some ((seq + 15) % 16) ∧ justVote (bytes.getD 2 0) = some 0 ∧ bitN (natAt bytes 2 1) 1 = false)
  ({ svc with circuits := [(3, { tid := 5, aid := 7, port := 40, rxSeq := some 1 })] }) (3) (([0, 0x32, 0] ++ List.replicate 33 0xAA))
  ({ tid := 5, aid := 7, port := 40, rxSeq := some 1 }) (2) :=
  by decide +kernel
theorem wit_CircuitsAndOmciPassTheirTraffic_4 : (fun (d : Dev) (circuit : Nat) (bytes : List Byte) (x : Circuit) (seq : Nat) => mget d.circuits
  circuit = some x ∧ d.chanLive (d.chanOfTerm x.tid) = true ∧ natAt bytes 0 1 * 16 + natAt bytes 1 1 / 16 = circuit ∧ seq = natAt bytes 1 1 % 16 ∧
  x.rxSeq = some ((seq + 15) % 16) ∧ justVote (bytes.getD 2 0) = some 0 ∧ bitN (natAt bytes 2 1) 1 = true)
  ({ svc with circuits := [(3, { tid := 5, aid := 7, port := 40, rxSeq := some 1 })] }) (3) (([0, 0x32, 2] ++ List.replicate 33 0xAA))
  ({ tid := 5, aid := 7, port := 40, rxSeq := some 1 }) (2) :=
  by decide +kernel
theorem wit_CircuitsAndOmciPassTheirTraffic_5 : (fun (d : Dev) (circuit : Nat) (pkt : SatopPacket) (x : Circuit) => mget d.circuits circuit = some x ∧
  d.tileRun (d.tileOfTerm x.tid) = true ∧ pkt.psn = x.psn ∧ pkt.pw = x.pw ∧ pkt.cw = true ∧ pkt.rtp = true)
  ({ svc with circuits := [(3, { tid := 5, aid := 7, port := 40 })] }) (3) ({ seq := 9, lBit := false, rtp := true, payload := [] })
  ({ tid := 5, aid := 7, port := 40 }) :=
  by decide +kernel
theorem wit_CircuitsAndOmciPassTheirTraffic_6 : (fun (d : Dev) (circuit : Nat) (pkt : SatopPacket) (x : Circuit) => mget d.circuits circuit = some x ∧
  d.tileRun (d.tileOfTerm x.tid) = true ∧ pkt.psn = x.psn ∧ pkt.pw = x.pw ∧ pkt.cw = true ∧ pkt.rtp = false ∧ (x.pwSeqRx = none ∨ x.pwSeqRx = some
  ((pkt.seq + 65535) % 65536)) ∧ pkt.lBit = false) ({ svc with circuits := [(3, { tid := 5, aid := 7, port := 40 })] }) (3)
  ({ seq := 9, lBit := false, rtp := false, payload := [] }) ({ tid := 5, aid := 7, port := 40 }) :=
  by decide +kernel
theorem wit_CircuitsAndOmciPassTheirTraffic_7 : WitOk specCircuitDelete (pkt specCircuitDelete 3 [])
  ({ svc with circuits := [(3, { tid := 5, aid := 7, port := 40 })] }) (fun (c : Cmd) (d : Dev) => c.tgt < d.nCircuits ∧ mhas d.circuits c.tgt = true
  ∧ (mgetD d.circuits c.tgt {}).delAt = none ∧ d.tileRun (d.tileOfTerm (mgetD d.circuits c.tgt {}).tid) = true) :=
  wit_plain _ _ _ _ (by decide +kernel) (by decide +kernel)
theorem wit_CircuitsAndOmciPassTheirTraffic_8 : WitOk specOmciSend (pkt specOmciSend 5 [0, 0, 3, 0, 9, 8, 7, 0]) (svc) (fun (c : Cmd) (d : Dev) =>
  c.tgt < d.nTerms ∧ mhas d.terms c.tgt = true ∧ (mgetD d.terms c.tgt {}).delAt = none ∧ d.tileRun (d.tileOfTerm c.tgt) = true ∧ c.params.length =
  pad4 (4 + c.u16 2) ∧ (d.tile (d.tileOfTerm c.tgt)).omciQ.length < 256 ∧ c.bit 0 0 = false) :=
  wit_plain _ _ _ _ (by decide +kernel) (by decide +kernel)
theorem wit_CircuitsAndOmciPassTheirTraffic_9 : WitOk specOmciSend (pkt specOmciSend 6 [1, 0, 3, 0, 9, 8, 7, 0]) (svc) (fun (c : Cmd) (d : Dev) =>
  c.tgt < d.nTerms ∧ mhas d.terms c.tgt = true ∧ (mgetD d.terms c.tgt {}).delAt = none ∧ d.tileRun (d.tileOfTerm c.tgt) = true ∧ c.params.length =
  pad4 (4 + c.u16 2) ∧ (d.tile (d.tileOfTerm c.tgt)).omciQ.length < 256 ∧ c.bit 0 0 = true ∧ (d.omciTrailer c.tgt (c.bs 4 (c.u16 2))).isSome = true)
  :=
  wit_plain _ _ _ _ (by decide +kernel) (by decide +kernel)
theorem wit_CircuitsAndOmciPassTheirTraffic_10 : (fun (d : Dev) (tid : Nat) (msg : List Byte) (trailer : List Byte) (t : Terminal) => mget d.terms tid
  = some t ∧ d.chanLive t.ch = true) (svc) (5) ([1, 2]) ([3, 4, 5, 6]) (mgetD svc.terms 5 {}) :=
  by decide +kernel

/-! O9 LanesLockStepAndRestart -/

theorem wit_LanesLockStepAndRestart_1 : (fun (d : Dev) (tile lane : Nat) (header : BitVec 2) (payload : BitVec 64) => d.rxOpen tile lane = true ∧ (8 ≤
  lane ∨ (treeChans (8 * tile + lane)).all (fun ch => !d.framerOn ch) = false) ∧ (header = 0#2 ∨ header = 3#2)) (svc) (0) (0) (0#2) (77#64) :=
  by decide +kernel
theorem wit_LanesLockStepAndRestart_2 : (fun (d : Dev) (tile lane : Nat) (header : BitVec 2) (payload : BitVec 64) (p : BitVec 64) => d.rxOpen tile
  lane = true ∧ (8 ≤ lane ∨ (treeChans (8 * tile + lane)).all (fun ch => !d.framerOn ch) = false) ∧ header = 2#2 ∧ (d.lane tile lane).locked = true ∧
  (d.lane tile lane).farLoop = false ∧ p = (descramble (d.lane tile lane).rxScr payload).1) (svc) (0) (0) (2#2) (77#64) ((descramble (svc.lane 0
  0).rxScr 77#64).1) :=
  by decide +kernel
theorem wit_LanesLockStepAndRestart_3 : (fun (d : Dev) (tile lane : Nat) => d.rxOpen tile lane = true ∧ (d.lane tile lane).locked = false ∧ (d.lane
  tile lane).slipPend = false ∧ (d.lane tile lane).stepTo = none ∧ (d.lane tile lane).gen ≤ 1)
  ({ svc with lanes := [(0, { gen := 1, txLull := false, rxLull := false, neg := .locking })] }) (0) (0) :=
  by decide +kernel
theorem wit_LanesLockStepAndRestart_4 : (fun (d : Dev) (tile lane : Nat) => d.laneLive tile lane = true ∧ lane < 8 ∧ (d.lane tile lane).locked = true
  ∧ 1 < (d.lane tile lane).gen ∧ (d.lane tile lane).switched = false ∧ (d.lane tile lane).partnerLull = false) (svc) (0) (0) :=
  by decide +kernel
theorem wit_LanesLockStepAndRestart_5 : (fun (d : Dev) (tile lane : Nat) (r : Raw) => (d.lane tile lane).relockAt = some r ∧ d.laneLive tile lane =
  true) ({ svc with lanes := [(0, { gen := 3, txLull := false, rxLull := false, neg := .locking, relockAt := some 9 })] }) (0) (0) (9) :=
  by decide +kernel
theorem wit_LanesLockStepAndRestart_6 : (fun (d : Dev) (tile lane : Nat) (payload : BitVec 64) => d.rxOpen tile lane = true ∧ lane < 8 ∧ (d.lane tile
  lane).locked = true ∧ blkByte payload 0 = 0x2D ∧ blkByte payload 7 = blkCrc payload ∧ (d.lane tile lane).reqGen = some (blkByte payload 5 % 16) ∧
  (d.lane tile lane).stepTo = none ∧ bitN (blkByte payload 5) 4 = true)
  ({ svc with lanes := [(0, { gen := 1, locked := true, txLull := false, rxLull := false, neg := .abil, reqGen := some 2 })] }) (0) (0) (ctrlBlock
  0x2D (0xF + 256 ^ 4 * 18)) :=
  by decide +kernel
theorem wit_LanesLockStepAndRestart_7 : (fun (d : Dev) (tile lane : Nat) (g : Nat) => (d.lane tile lane).stepTo = some g ∧ d.laneLive tile lane = true
  ∧ (d.lane tile lane).reqGen.isSome = true)
  ({ svc with lanes := [(0, { gen := 1, locked := true, txLull := false, rxLull := false, neg := .step, reqGen := some 2, stepTo := some 2 })] }) (0)
  (0) (2) :=
  by decide +kernel
theorem wit_LanesLockStepAndRestart_8 : (fun (d : Dev) (tile lane : Nat) => d.laneLive tile lane = true ∧ (d.lane tile lane).switched = true ∧ reached
  d.now (d.lane tile lane).stepEnd = false)
  ({ svc with lanes := [(0, { gen := 2, locked := true, txLull := false, rxLull := false, neg := .step, stepTo := some 2, stepEnd := 100 })] }) (0)
  (0) :=
  by decide +kernel
theorem wit_LanesLockStepAndRestart_9 : (fun (d : Dev) (tile lane : Nat) => d.laneLive tile lane = true ∧ (d.lane tile lane).switched = true)
  ({ svc with lanes := [(0, { gen := 2, locked := true, txLull := false, rxLull := false, neg := .step, stepTo := some 2, stepEnd := 100 })] }) (0)
  (0) :=
  by decide +kernel
theorem wit_LanesLockStepAndRestart_10 : (fun (d : Dev) (tile lane : Nat) => d.laneLive tile lane = true ∧ d.laneManual tile lane = true)
  ({ svc with regs := [(0x102000, 0x00140000#32)] }) (0) (0) :=
  by decide +kernel
theorem wit_LanesLockStepAndRestart_11 : (fun (d : Dev) (tile lane : Nat) => d.laneLive tile lane = true ∧ d.laneUsed tile lane = true) (svc) (0) (0)
  :=
  by decide +kernel

/-! O10 LanesLoopLullAndReport -/

theorem wit_LanesLoopLullAndReport_1 : (fun (d : Dev) (tile lane : Nat) (payload : BitVec 64) => d.rxOpen tile lane = true ∧ (d.lane tile lane).locked
  = true ∧ blkByte payload 0 = 0x4B ∧ blkByte payload 7 = blkCrc payload ∧ blkByte payload 1 = 1 ∧ d.laneAllowFar tile lane = false ∧ (d.lane tile
  lane).loopWait = 0) (svc) (0) (0) (ctrlBlock 0x4B 1) :=
  by decide +kernel
theorem wit_LanesLoopLullAndReport_2 : (fun (d : Dev) (tile lane : Nat) (payload : BitVec 64) => d.rxOpen tile lane = true ∧ (d.lane tile lane).locked
  = true ∧ blkByte payload 0 = 0x55 ∧ blkByte payload 7 = blkCrc payload) (svc) (0) (0) (ctrlBlock 0x55 0) :=
  by decide +kernel
theorem wit_LanesLoopLullAndReport_3 : (fun (d : Dev) (tile : Nat) (side : LaneSide) => side.rx = false ∧ d.laneLive tile side.lane = true ∧ (d.lane
  tile side.lane).txLull = false ∧ d.laneUsed tile side.lane = false ∧ d.laneLoop tile side.lane = 0) ({ svc with chans := [] }) (0)
  ({ lane := 0, rx := false }) :=
  by decide +kernel
theorem wit_LanesLoopLullAndReport_4 : (fun (d : Dev) (tile : Nat) (side : LaneSide) => side.rx = true ∧ d.laneLive tile side.lane = true ∧ (d.lane
  tile side.lane).rxLull = false ∧ d.laneUsed tile side.lane = false) ({ svc with chans := [] }) (0) ({ lane := 0, rx := true }) :=
  by decide +kernel
theorem wit_LanesLoopLullAndReport_5 : (fun (d : Dev) (tile : Nat) (side : LaneSide) => d.laneLive tile side.lane = true ∧ d.laneUsed tile side.lane =
  true ∧ side.lane < 8 ∧ (d.lane tile side.lane).txLull = true ∧ (d.lane tile side.lane).rxLull = true) ({ svc with lanes := [] }) (0)
  ({ lane := 0, rx := true }) :=
  by decide +kernel
theorem wit_LanesLoopLullAndReport_6 : (fun (d : Dev) (tile : Nat) (side : LaneSide) => side.rx = true ∧ d.laneLive tile side.lane = true ∧ d.laneUsed
  tile side.lane = false ∧ (d.lane tile side.lane).rxLull = true) ({ svc with chans := [], lanes := [] }) (0) ({ lane := 0, rx := true }) :=
  by decide +kernel
theorem wit_LanesLoopLullAndReport_7 : (fun (d : Dev) (tile lane : Nat) (payload : BitVec 64) => d.rxOpen tile lane = true ∧ lane < 8 ∧ (d.lane tile
  lane).locked = true ∧ blkByte payload 0 = 0x1E ∧ blkByte payload 7 = blkCrc payload) (svc) (0) (0) (ctrlBlock 0x1E 0x0407FFFE) :=
  by decide +kernel
theorem wit_LanesLoopLullAndReport_8 : (fun (d : Dev) (tile lane : Nat) => lane < 8 ∧ d.laneLive tile lane = true ∧ (d.lane tile lane).frameSync =
  true ∧ (d.lane tile lane).partnerLull = false) (svc) (0) (0) :=
  by decide +kernel
theorem wit_LanesLoopLullAndReport_9 : (fun (d : Dev) (tile lane : Nat) (payload : BitVec 64) => d.rxOpen tile lane = true ∧ lane < 8 ∧ (d.lane tile
  lane).locked = true ∧ blkByte payload 0 = 0x83 ∧ blkByte payload 7 = blkCrc payload ∧ blkByte payload 5 % 4 ≠ 3 ∧ bitN (blkByte payload 5) 3 = false
  ∧ bitN (blkByte payload 5) 2 = true) (svc) (0) (0) (ctrlBlock 0x83 (256 ^ 4 * 5 + 256 ^ 5 * 0x20)) :=
  by decide +kernel
theorem wit_LanesLoopLullAndReport_10 : (fun (d : Dev) (tile lane : Nat) (payload : BitVec 64) => d.rxOpen tile lane = true ∧ lane < 8 ∧ (d.lane tile
  lane).locked = true ∧ blkByte payload 0 = 0x85 ∧ blkByte payload 7 = blkCrc payload ∧ blkByte payload 1 / 8 = 0) (svc) (0) (0) (ctrlBlock 0x85 (7 +
  256 * 40)) :=
  by decide +kernel

/-! O11 TerminalCommandsChangeTheTerminalNamed -/

theorem wit_TerminalCommandsChangeTheTerminalNamed_1 : WitOk specTermCreate (pkt specTermCreate 9 ([1, 0, 0, 0] ++ [65, 66, 67, 68, 1, 2, 3, 4] ++
  List.replicate 36 7 ++ [100, 0, 0, 0] ++ [100, 0, 0, 0] ++ zeroBytes 8)) (rdy) (fun (c : Cmd) (d : Dev) => c.tgt < d.nTerms ∧ d.chanOk (c.u32 0) =
  true ∧ d.tileRun (tileOfChan (c.u32 0)) = true ∧ 10 ≤ c.u32 52 ∧ c.u32 52 ≤ 40000 ∧ d.mapOk (c.u32 0) (c.u32 48) (c.u32 52) = true ∧ mhas d.terms
  c.tgt = false ∧ d.terms.any (fun e => e.2.serial = c.bs 4 8 && e.1 ≠ c.tgt) = false ∧ (d.termsOf (c.u32 0)).length < 128 ∧ (d.terms.filter (fun e =>
  e.2.ch / 4 = c.u32 0 / 4)).length < 512 ∧ (d.placesOf (c.u32 0)).any (fun t => 2048 ≤ d.termsCount t) = false) :=
  wit_plain _ _ _ _ (by decide +kernel) (by decide +kernel)
theorem wit_TerminalCommandsChangeTheTerminalNamed_2 : WitOk specTermDelete (pkt specTermDelete 5 []) (svc) (fun (c : Cmd) (d : Dev) => d.termNamed
  c.tgt = true) :=
  wit_plain _ _ _ _ (by decide +kernel) (by decide +kernel)
theorem wit_TerminalCommandsChangeTheTerminalNamed_3 : WitOk specTermMap (pkt specTermMap 5 [200, 0, 0, 0, 40, 0, 0, 0]) (svc) (fun (c : Cmd) (d :
  Dev) => d.termNamed c.tgt = true ∧ d.mapOk (d.term c.tgt).ch (c.u32 0) (c.u32 4) = true ∧ 10 ≤ c.u32 4 ∧ c.u32 4 ≤ 40000) :=
  wit_plain _ _ _ _ (by decide +kernel) (by decide +kernel)
theorem wit_TerminalCommandsChangeTheTerminalNamed_4 : WitOk specRngChanConfig (pkt specRngChanConfig 5 [0, 1, 0, 0, 0, 100, 0, 0]) (rdy) (fun (c :
  Cmd) (d : Dev) => d.chanOk c.tgt = true ∧ d.tileRun (tileOfChan c.tgt) = true ∧ c.u32 4 ≤ 60000 ∧ c.u32 0 ≤ c.u32 4 ∧ c.u32 4 - c.u32 0 ≤ 40000 ∧
  (d.chan c.tgt).st = .disabled) :=
  wit_plain _ _ _ _ (by decide +kernel) (by decide +kernel)
theorem wit_TerminalCommandsChangeTheTerminalNamed_5 : WitOk specTermRerange (pkt specTermRerange 5 []) (svc) (fun (c : Cmd) (d : Dev) => d.termNamed
  c.tgt = true ∧ (d.term c.tgt).st = .inService) :=
  wit_plain _ _ _ _ (by decide +kernel) (by decide +kernel)
theorem wit_TerminalCommandsChangeTheTerminalNamed_6 : WitOk specTermPower (pkt specTermPower 5 [0, 2, 16, 0]) (svc) (fun (c : Cmd) (d : Dev) =>
  d.termNamed c.tgt = true ∧ c.u8 0 = 0 ∧ 1 ≤ c.u8 1 ∧ c.u8 1 ≤ 2 ∧ 8 ≤ c.u16 2 ∧ c.u16 2 ≤ 4096) :=
  wit_plain _ _ _ _ (by decide +kernel) (by decide +kernel)
theorem wit_TerminalCommandsChangeTheTerminalNamed_7 : WitOk specTermTxctrl (sg specTermTxctrl 5 [0, 0, 0, 0]) (svc) (fun (c : Cmd) (d : Dev) =>
  d.termNamed c.tgt = true ∧ c.u8 0 = 0 ∧ (d.term c.tgt).st ≠ .disabled) :=
  wit_signed _ _ _ _ (by decide +kernel) (by decide +kernel)
theorem wit_TerminalCommandsChangeTheTerminalNamed_8 : WitOk specTermTxctrl (sg specTermTxctrl 5 [1, 0, 0, 0])
  ({ svc with terms := [(5, { ch := 1, st := .disabled })] }) (fun (c : Cmd) (d : Dev) => d.termNamed c.tgt = true ∧ c.u8 0 = 1 ∧ ((d.term c.tgt).st =
  .disabled ∨ (d.term c.tgt).st = .heldOff)) :=
  wit_signed _ _ _ _ (by decide +kernel) (by decide +kernel)
theorem wit_TerminalCommandsChangeTheTerminalNamed_9 : WitOk specTermStatus (pkt specTermStatus 5 []) (svc) (fun (c : Cmd) (d : Dev) => d.termNamed
  c.tgt = true) :=
  wit_plain _ _ _ _ (by decide +kernel) (by decide +kernel)

/-! O12 TerminalsRegisterAndLeave -/

theorem wit_TerminalsRegisterAndLeave_1 : (fun (d : Dev) (ch : Nat) (serial : List Byte) (offsetNs : Int) (tid o : Nat) => d.chanLive ch = true ∧
  d.terms.find? (fun e => e.2.serial = serial) = some (tid, d.term tid) ∧ (d.term tid).ch = ch ∧ (d.term tid).st = .absent ∧ (d.term tid).delAt = none
  ∧ d.freeOnu ch = some o) ({ svc with terms := [(5, { ch := 1, serial := [1, 2, 3, 4, 5, 6, 7, 8] })] }) (1) ([1, 2, 3, 4, 5, 6, 7, 8]) (0) (5) (0)
  :=
  by decide +kernel
theorem wit_TerminalsRegisterAndLeave_2 : (fun (d : Dev) (tid : Nat) (cred : List Byte) (rtt : Int) => mhas d.terms tid = true ∧ d.chanLive (d.term
  tid).ch = true ∧ (d.term tid).st = .ranging ∧ cred ≠ (d.term tid).cred) ({ svc with terms := [(5, { ch := 1, st := .ranging, onu := some 0 })] })
  (5) ([1]) (1000) :=
  by decide +kernel
theorem wit_TerminalsRegisterAndLeave_3 : (fun (d : Dev) (tid : Nat) => mhas d.terms tid = true ∧ d.chanLive (d.term tid).ch = true ∧ (d.term tid).st
  = .ranging ∧ (d.term tid).rngLeft = 0) ({ svc with terms := [(5, { ch := 1, st := .ranging, onu := some 0 })] }) (5) :=
  by decide +kernel
theorem wit_TerminalsRegisterAndLeave_4 : (fun (d : Dev) (tid : Nat) => mhas d.terms tid = true ∧ d.chanLive (d.term tid).ch = true ∧ (d.term tid).st
  = .reacquire) ({ svc with terms := [(5, { ch := 1, st := .reacquire, onu := some 0 })] }) (5) :=
  by decide +kernel
theorem wit_TerminalsRegisterAndLeave_5 : (fun (d : Dev) (tid : Nat) => mhas d.terms tid = true ∧ d.tileRun (tileOfChan (d.term tid).ch) = true ∧
  (d.term tid).st = .heldOff) ({ svc with terms := [(5, { ch := 1, st := .heldOff })] }) (5) :=
  by decide +kernel
theorem wit_TerminalsRegisterAndLeave_6 : (fun (d : Dev) (tid : Nat) => mhas d.terms tid = true ∧ d.tileRun (tileOfChan (d.term tid).ch) = true ∧
  (d.term tid).ch % 4 = 0 ∧ (d.term tid).st = .inService) (svc) (6) :=
  by decide +kernel
theorem wit_TerminalsRegisterAndLeave_7 : (fun (d : Dev) (p : PloamAt) => d.chanLive p.ch = true ∧ (p.msg = .other ∨ p.ch % 4 ≠ 0 ∧ (p.msg =
  .dyingGasp ∨ p.msg = .remoteError ∨ p.msg = .physicalError))) (svc) ({ ch := 1, msg := .remoteError }) :=
  by decide +kernel
theorem wit_TerminalsRegisterAndLeave_8 : (fun (d : Dev) (tid : Nat) (awake : Bool) => mhas d.terms tid = true ∧ awake = false ∧ d.chanLive (d.term
  tid).ch = true ∧ (d.term tid).st = .inService ∧ (d.term tid).allowOn = true ∧ d.maySleep tid (d.term tid) = true)
  ({ svc with terms := [(5, { ch := 1, st := .inService, mode := 1, allowOn := true, lastDsFrame := 2 ^ 48 - 5 })], allocs := [] }) (5) (false) :=
  by decide +kernel
theorem wit_TerminalsRegisterAndLeave_9 : (fun (d : Dev) (tid : Nat) (awake : Bool) => mhas d.terms tid = true ∧ awake = true ∧ d.chanLive (d.term
  tid).ch = true) (svc) (5) (true) :=
  by decide +kernel

/-! O13 WindowPeriodsAndDarkWindowsRun -/

theorem wit_WindowPeriodsAndDarkWindowsRun_1 : (fun (d : Dev) (ch : Nat) (f : Nat) (e : Dev) (gs : List (List Nat)) => d.chanLive ch = true ∧
  d.periodAt (d.chan ch).mapNext (d.discMapMs ch * 8) = some (f, e) ∧ gs = (sortBy (fun (x : Nat × Terminal) => x.2.dist) ((e.termsOf ch).filter (fun
  x => x.2.st = .absent && x.2.delAt.isNone))).foldl (fun gs x => e.groupAdd ch gs x.1) [])
  ({ svc with chans := [(1, { st := .enabled, mapNext := some 0 })] }) (1) (0) ({ svc with chans := [(1, { st := .enabled, mapNext := some 0 })] })
  ([]) :=
  by decide +kernel
theorem wit_WindowPeriodsAndDarkWindowsRun_2 : (fun (d : Dev) (ch : Nat) (f : Nat) (e : Dev) => d.chanLive ch = true ∧ d.periodAt (d.chan
  ch).broadNext (d.discBroadS ch * 8000) = some (f, e) ∧ (e.chan ch).winReq.any (fun w => w.kind = .broad) = false)
  ({ svc with chans := [(1, { st := .enabled, broadNext := some 0 })] }) (1) (0)
  ({ svc with chans := [(1, { st := .enabled, broadNext := some 0 })] }) :=
  by decide +kernel
theorem wit_WindowPeriodsAndDarkWindowsRun_3 : (fun (d : Dev) (ch : Nat) (f : Nat) => d.chanLive ch = true ∧ (d.chan ch).darkNext = some f ∧ d.darkMs
  ch ≠ 0 ∧ frameGe d.frame (plusF f (d.darkMs ch * 8)) = false) ({ svc with chans := [(1, { st := .enabled, darkNext := some 0 })] }) (1) (0) :=
  by decide +kernel
theorem wit_WindowPeriodsAndDarkWindowsRun_4 : (fun (d : Dev) (ch : Nat) => (d.chan ch).darkOpen = true ∧ d.chanOk ch = true ∧ (d.chan ch).hunt = none
  ∧ (d.chan ch).darkConfirm = false ∧ (d.chan ch).darkVoidRun < 7) ({ svc with chans := [(1, { st := .enabled, darkOpen := true })] }) (1) :=
  by decide +kernel
theorem wit_WindowPeriodsAndDarkWindowsRun_5 : (fun (d : Dev) (ch : Nat) (x : Hunt) (f : Nat) (q : Plan) => d.chanLive ch = true ∧ (d.chan ch).hunt =
  some x ∧ x.darkFrame = some f ∧ x.darkOpen = false ∧ ((d.toFrame f).chan ch).plans.find? (fun p => p.frame = f) = some q)
  ({ svc with
     chans :=
       [(1, { st := .enabled, rogue := .hunt, hunt := some { darkFrame := some 0 }, plans := [{ frame := 0, wins := [{ kind := .dark }] }] })] }) (1)
  ({ darkFrame := some 0 }) (0) ({ frame := 0, wins := [{ kind := .dark }] }) :=
  by decide +kernel

/-! O14 PlansAreCommittedAndBurstsFound -/

theorem wit_PlansAreCommittedAndBurstsFound_1 : (fun (d : Dev) (ch : Nat) (p : Plan) => (d.chan ch).nextPlan = some p ∧ d.chanLive ch = true ∧
  (d.engineOf ch).isSome = true ∧ reached (d.planDeadline p.frame) d.now = true)
  ({ svc with tiles := [(0, { st := .run, aligned := true })], chans := [(1, { st := .enabled, plans := [{ frame := 3 }] })] }) (1) ({ frame := 3 })
  :=
  by decide +kernel
theorem wit_PlansAreCommittedAndBurstsFound_2 : (fun (d : Dev) (ch : Nat) (p : Plan) => (d.chan ch).nextPlan = some p ∧ d.chanLive ch = true ∧
  p.committed = true)
  ({ svc with tiles := [(0, { st := .run, aligned := true })], chans := [(1, { st := .enabled, plans := [{ frame := 3, committed := true }] })] }) (1)
  ({ frame := 3, committed := true }) :=
  by decide +kernel
theorem wit_PlansAreCommittedAndBurstsFound_3 : (fun (d : Dev) (ch : Nat) (p : Plan) => (d.chan ch).nextPlan = some p ∧ d.chanLive ch = true ∧
  p.committed = false ∧ ((d.advanceTo (d.planDeadline p.frame)).chan ch).carryFrom = none)
  ({ svc with tiles := [(0, { st := .run, aligned := true })], chans := [(1, { st := .enabled, plans := [{ frame := 3 }] })] }) (1) ({ frame := 3 })
  :=
  by decide +kernel
theorem wit_PlansAreCommittedAndBurstsFound_4 : (fun (d : Dev) (ch : Nat) (b : BurstFound) (w : BurstWin) => d.chanOk ch = true ∧ d.tileRun
  (tileOfChan ch) = true ∧ (d.chan ch).st ≠ .disabled ∧ (d.chan ch).win = some w ∧ w.kind = none ∧ w.holds b.offset = true ∧ b.hamming ≤ w.maxHam ∧
  (d.chan ch).winNotBefore ≤ d.absBit ch w.frame (w.expect + b.offset) ∧ d.headerOk w b = true)
  ({ svc with chans := [(1, { st := .enabled, win := some { tid := 5, expect := 1000, half := 64, dlen := 32, maxHam := 2, lenBits := 5000 } })] })
  (1) ({ offset := 3, onu := 5 }) ({ tid := 5, expect := 1000, half := 64, dlen := 32, maxHam := 2, lenBits := 5000 }) :=
  by decide +kernel
theorem wit_PlansAreCommittedAndBurstsFound_5 : (fun (d : Dev) (ch : Nat) (w : BurstWin) => d.chanOk ch = true ∧ d.tileRun (tileOfChan ch) = true ∧
  (d.chan ch).st ≠ .disabled ∧ (d.chan ch).win = some w ∧ w.kind = none)
  ({ svc with chans := [(1, { st := .enabled, win := some { tid := 5, expect := 1000, half := 64, dlen := 32, maxHam := 2, lenBits := 5000 } })] })
  (1) ({ tid := 5, expect := 1000, half := 64, dlen := 32, maxHam := 2, lenBits := 5000 }) :=
  by decide +kernel
theorem wit_PlansAreCommittedAndBurstsFound_6 : (fun (d : Dev) (ch : Nat) (b : BurstInfo) (x : Dev) => d.chanOk ch = true ∧ d.tileRun (tileOfChan ch)
  = true ∧ (d.chan ch).accepted.contains (b.tid, b.frame) = true ∧ x = (((((d.updChan ch (fun c =>
  { c with accepted := c.accepted.erase (b.tid, b.frame) })).countCT .fecCw ch b.tid b.codewords).countCT .fecCorrected ch b.tid b.corrected).countCT
  .fecUncorrectable ch b.tid b.uncorrectable).countCT .fecBits ch b.tid b.bitsCorrected))
  ({ svc with chans := [(1, { st := .enabled, accepted := [(5, 3)] })] }) (1) ({ tid := 5, frame := 3, codewords := 4 })
  (((((({ svc with chans := [(1, { st := .enabled, accepted := [(5, 3)] })] } : Dev).updChan 1 (fun c =>
  { c with accepted := c.accepted.erase (5, 3) })).countCT .fecCw 1 5 4).countCT .fecCorrected 1 5 0).countCT .fecUncorrectable 1 5 0).countCT
  .fecBits 1 5 0) :=
  by decide +kernel

/-! O15 AllocationCommandsSetWhatIsGranted -/

theorem wit_AllocationCommandsSetWhatIsGranted_1 : WitOk specAllocCreate (pkt specAllocCreate 9 ([5, 0, 0, 0] ++ [1, 1, 0, 0] ++ zeroBytes 4 ++ [100,
  0, 0, 0] ++ [100, 0, 0, 0] ++ zeroBytes 5 ++ [1, 0, 0] ++ zeroBytes 4)) (svc) (fun (c : Cmd) (d : Dev) => c.tgt < d.nAllocs ∧ c.u32 0 < d.nTerms ∧
  mhas d.terms (c.u32 0) = true ∧ (d.term (c.u32 0)).delAt = none ∧ mhas d.allocs c.tgt = false ∧ d.tileRun (tileOfChan (d.term (c.u32 0)).ch) = true
  ∧ paramsRange c (paramsOf c (d.rate (d.term (c.u32 0)).ch).fb) (d.rate (d.term (c.u32 0)).ch).fb = none ∧ paramsBad (paramsOf c (d.rate (d.term
  (c.u32 0)).ch).fb) (d.term (c.u32 0)).ch = false ∧ (d.allocs.filter (fun e => e.2.tid = c.u32 0)).length < 32 ∧ (d.placesOf (d.term (c.u32
  0)).ch).any (fun t => 8192 ≤ d.allocsCount t) = false ∧ d.admits (d.term (c.u32 0)).ch c.tgt (c.u32 0) (paramsOf c (d.rate (d.term (c.u32
  0)).ch).fb) = true ∧ d.standingFull (d.term (c.u32 0)).ch (paramsOf c (d.rate (d.term (c.u32 0)).ch).fb) = false) :=
  wit_plain _ _ _ _ (by decide +kernel) (by decide +kernel)
theorem wit_AllocationCommandsSetWhatIsGranted_2 : WitOk specAllocModify (pkt specAllocModify 8 ([6, 0, 0, 0] ++ [1, 1, 0, 0] ++ zeroBytes 4 ++ [44,
  1, 0, 0] ++ [44, 1, 0, 0] ++ zeroBytes 5 ++ [1, 0, 0] ++ zeroBytes 4)) (svc) (fun (c : Cmd) (d : Dev) => d.allocNamed c.tgt = true ∧ paramsRange c
  (paramsOf c (d.rate (d.chanOfTerm (d.alloc c.tgt).tid)).fb) (d.rate (d.chanOfTerm (d.alloc c.tgt).tid)).fb = none ∧ c.u32 0 = (d.alloc c.tgt).tid ∧
  c.u8 4 = (d.alloc c.tgt).p.sdom ∧ c.u8 5 = (d.alloc c.tgt).p.typ ∧ c.bit 27 0 = (d.alloc c.tgt).p.safety ∧ c.bit 27 1 = (d.alloc c.tgt).p.fm ∧
  paramsBad (paramsOf c (d.rate (d.chanOfTerm (d.alloc c.tgt).tid)).fb) (d.chanOfTerm (d.alloc c.tgt).tid) = false ∧ d.admits (d.chanOfTerm (d.alloc
  c.tgt).tid) c.tgt (d.alloc c.tgt).tid (paramsOf c (d.rate (d.chanOfTerm (d.alloc c.tgt).tid)).fb) = true) :=
  wit_plain _ _ _ _ (by decide +kernel) (by decide +kernel)
theorem wit_AllocationCommandsSetWhatIsGranted_3 : WitOk specAllocDelete (pkt specAllocDelete 8 []) (svc) (fun (c : Cmd) (d : Dev) => d.allocNamed
  c.tgt = true) :=
  wit_plain _ _ _ _ (by decide +kernel) (by decide +kernel)
theorem wit_AllocationCommandsSetWhatIsGranted_4 : WitOk specAllocStatus (pkt specAllocStatus 8 []) (svc) (fun (c : Cmd) (d : Dev) => d.allocNamed
  c.tgt = true) :=
  wit_plain _ _ _ _ (by decide +kernel) (by decide +kernel)
theorem wit_AllocationCommandsSetWhatIsGranted_5 : WitOk specDomConfig (pkt specDomConfig 1 [1, 0, 0, 0, 10, 0, 2, 3]) (svc) (fun (c : Cmd) (d : Dev)
  => c.tgt < 256 ∧ d.chanOk (c.u32 0) = true ∧ c.u32 0 ≠ 0xFFFFFFFF ∧ c.u16 4 ≤ 1023 ∧ c.u8 6 ≤ 7 ∧ (c.bit 7 0 = true ∨ c.bit 7 1 = true) ∧ d.tileRun
  (tileOfChan (c.u32 0)) = true) :=
  wit_plain _ _ _ _ (by decide +kernel) (by decide +kernel)
theorem wit_AllocationCommandsSetWhatIsGranted_6 : WitOk specDomConfig (pkt specDomConfig 1 [255, 255, 255, 255, 10, 0, 2, 1]) (svc) (fun (c : Cmd) (d
  : Dev) => c.tgt < 256 ∧ c.u32 0 = 0xFFFFFFFF ∧ c.u16 4 ≤ 1023 ∧ c.u8 6 ≤ 7 ∧ c.bit 7 0 = true ∧ c.bit 7 1 = false) :=
  wit_plain _ _ _ _ (by decide +kernel) (by decide +kernel)
theorem wit_AllocationCommandsSetWhatIsGranted_7 : WitOk specTdomConfig (pkt specTdomConfig 5 [1, 0, 20, 0]) (svc) (fun (c : Cmd) (d : Dev) =>
  d.termNamed c.tgt = true ∧ 1 ≤ c.u16 2 ∧ c.u16 2 ≤ 1023 ∧ d.allocs.any (fun e => e.2.tid = c.tgt && e.2.p.sdom = c.u8 0) = true) :=
  wit_plain _ _ _ _ (by decide +kernel) (by decide +kernel)
theorem wit_AllocationCommandsSetWhatIsGranted_8 : WitOk specGsStatus (pkt specGsStatus 1 []) (svc) (fun (c : Cmd) (d : Dev) => d.chanOk c.tgt = true
  ∧ d.tileRun (tileOfChan c.tgt) = true) :=
  wit_plain _ _ _ _ (by decide +kernel) (by decide +kernel)

/-! O16 PonKeysAreExchangedAndRolled -/

theorem wit_PonKeysAreExchangedAndRolled_1 : WitOk specPonMsk (pkt specPonMsk 5 ([4] ++ zeroBytes 32 ++ bytesAt (Config.ponOnuResult [] (zeroBytes 16)
  (zeroBytes 16) []) 0 16 ++ zeroBytes 3))
  ({ svc with terms := [(5, { ch := 1 })], cru := { ready := true, life := .field, slots := [(4, { kind := 4 })] } }) (fun (c : Cmd) (d : Dev) =>
  d.termNamed c.tgt = true ∧ (d.term c.tgt).ch % 4 ≠ 0 ∧ d.cru.ready = true ∧ (d.cru.life = .provisioned ∨ d.cru.life = .field) ∧ (d.pslot (c.u8
  0)).kind = 4 ∧ (d.pslot (c.u8 0)).stale = false ∧ c.bs 33 16 = bytesAt (Config.ponOnuResult (d.pslot (c.u8 0)).key (c.bs 1 16) (c.bs 17 16) (d.term
  c.tgt).serial) 0 16) :=
  wit_plain _ _ _ _ (by decide +kernel) (⟨by decide +kernel, by decide +kernel, by decide +kernel, by decide +kernel, by decide +kernel, by
    decide +kernel, rfl⟩)
theorem wit_PonKeysAreExchangedAndRolled_2 : WitOk specPonKeyCfg (pkt specPonKeyCfg 5 [1, 0, 0, 0, 60, 0, 0, 0]) (svc) (fun (c : Cmd) (d : Dev) =>
  (c.u8 0 = 0 ∧ d.chanOk c.tgt = true ∧ d.tileRun (tileOfChan c.tgt) = true ∨ c.u8 0 = 1 ∧ d.termNamed c.tgt = true) ∧ (c.u32 4 = 0 ∨ 60 ≤ c.u32 4 ∧
  c.u32 4 ≤ 86400)) :=
  wit_plain _ _ _ _ (by decide +kernel) (by decide +kernel)
theorem wit_PonKeysAreExchangedAndRolled_3 : WitOk specPonKeyRoll (pkt specPonKeyRoll 6 []) (svc) (fun (c : Cmd) (d : Dev) => d.termNamed c.tgt = true
  ∧ d.inService c.tgt = true ∧ ((d.term c.tgt).ch % 4 = 0 ∨ (d.ponKey c.tgt).kek.isSome = true)) :=
  wit_plain _ _ _ _ (by decide +kernel) (by decide +kernel)
theorem wit_PonKeysAreExchangedAndRolled_4 : WitOk specPonKeyStatus (pkt specPonKeyStatus 6 []) (svc) (fun (c : Cmd) (d : Dev) => d.termNamed c.tgt =
  true) :=
  wit_plain _ _ _ _ (by decide +kernel) (by decide +kernel)
theorem wit_PonKeysAreExchangedAndRolled_5 : (fun (d : Dev) (tid : Nat) (k : KeyMsg) => d.inService tid = true ∧ d.tileRun (d.tileOfTerm tid) = true ∧
  (d.ponKey tid).req ≠ 0 ∧ d.termKind tid = 0 ∧ k.ok = true ∧ k.frags ≤ 1 ∧ (d.ponKey tid).frags = []) ({ svc with pon := [(6, { req := 1 })] }) (6)
  ({ key := List.replicate 16 9 }) :=
  by decide +kernel
theorem wit_PonKeysAreExchangedAndRolled_6 : (fun (d : Dev) (tid : Nat) (k : KeyMsg) (kek : List Byte) => d.inService tid = true ∧ d.tileRun
  (d.tileOfTerm tid) = true ∧ (d.ponKey tid).req ≠ 0 ∧ d.termKind tid ≠ 0 ∧ (d.ponKey tid).kek = some kek ∧ k.ok = true ∧ k.frags ≤ 1 ∧ (d.ponKey
  tid).frags = []) ({ svc with pon := [(5, { req := 1, kek := some [] })] }) (5) ({ key := List.replicate 16 9 }) ([]) :=
  by decide +kernel
theorem wit_PonKeysAreExchangedAndRolled_7 : (fun (d : Dev) (tid : Nat) (k : KeyMsg) => d.inService tid = true ∧ d.tileRun (d.tileOfTerm tid) = true ∧
  (d.ponKey tid).req ≠ 0 ∧ k.ok = true ∧ 1 < k.frags ∧ (d.ponKey tid).frags = []) ({ svc with pon := [(6, { req := 1 })] }) (6)
  ({ key := List.replicate 8 9, frags := 2 }) :=
  by decide +kernel
theorem wit_PonKeysAreExchangedAndRolled_8 : (fun (d : Dev) (tid : Nat) => d.inService tid = true ∧ d.tileRun (d.tileOfTerm tid) = true ∧ d.termKind
  tid ≠ 0 ∧ (d.ponKey tid).pendSlot.isSome = true ∧ (d.ponKey tid).switchAt = none) ({ svc with pon := [(5, { pendSlot := some 0 })] }) (5) :=
  by decide +kernel
theorem wit_PonKeysAreExchangedAndRolled_9 : (fun (d : Dev) (tid : Nat) => d.inService tid = true ∧ d.tileRun (d.tileOfTerm tid) = true ∧ 0 <
  d.rekeyPeriod tid ∧ (d.ponKey tid).use.isSome = true) ({ svc with pon := [(6, { use := some 0 })] }) (6) :=
  by decide +kernel
theorem wit_PonKeysAreExchangedAndRolled_10 : (fun (d : Dev) (tid : Nat) => (d.ponKey tid).req ≠ 0 ∧ (d.ponKey tid).req < 3 ∧ d.tileRun (d.tileOfTerm
  tid) = true ∧ (d.advanceTo ((d.ponKey tid).reqAt + rawS 1)).inService tid = true) ({ svc with pon := [(6, { req := 1 })] }) (6) :=
  by decide +kernel
theorem wit_PonKeysAreExchangedAndRolled_11 : (fun (d : Dev) (tid : Nat) => (d.ponKey tid).req = 3 ∧ d.tileRun (d.tileOfTerm tid) = true ∧
  (d.advanceTo ((d.ponKey tid).reqAt + rawS 1)).inService tid = true) ({ svc with pon := [(6, { req := 3 })] }) (6) :=
  by decide +kernel
theorem wit_PonKeysAreExchangedAndRolled_12 : (fun (d : Dev) (tid : Nat) (s : Nat) (t : Raw) => (d.ponKey tid).oldSlot = some s ∧ (d.ponKey
  tid).zeroAt = some t) ({ svc with pon := [(5, { oldSlot := some 1, zeroAt := some 0 })] }) (5) (1) (0) :=
  by decide +kernel

/-! O17 FollowMeCommandsSetTheCorridor -/

theorem wit_FollowMeCommandsSetTheCorridor_1 : WitOk specFmRoute (pkt specFmRoute 3 [0, 1, 0, 0, 0, 1, 0, 0, 1, 4, 0, 0, 0, 0, 0, 0]) (rdy) (fun (c :
  Cmd) (d : Dev) => c.tgt ≤ 255 ∧ d.fm.trains.any (fun e => e.2.last.any (fun r => r.route = c.tgt)) = false ∧ (c.u8 0 = 1 ∧ mhas d.fm.routes c.tgt =
  true ∨ c.u8 0 = 0 ∧ c.u8 1 ≤ 4 ∧ c.u32 4 ≠ 0 ∧ (List.range (c.u8 1)).any (fun i => 1 < c.u8 (8 + 8 * i) || 1 < c.u8 (10 + 8 * i)) = false)) :=
  wit_plain _ _ _ _ (by decide +kernel) (by decide +kernel)
theorem wit_FollowMeCommandsSetTheCorridor_2 : WitOk specFmCell (pkt specFmCell 3 [0, 1, 0, 2, 0, 0, 0, 0, 0, 1, 0, 0, 5, 0, 6, 0])
  ({ svc with fm := { routes := [(1, { len := 5000 })] } }) (fun (c : Cmd) (d : Dev) => c.tgt ≤ 16383 ∧ c.u8 0 = 0 ∧ 1 ≤ c.u8 3 ∧ c.u8 3 ≤ 16 ∧ c.u8 2
  ≤ 63 ∧ c.u32 4 < c.u32 8 ∧ mhas d.fm.routes (c.u8 1) = true ∧ ((List.range (c.u8 3)).map (fun i => c.u16 (12 + 2 * i))).any (fun t => d.nTerms ≤ t)
  = false ∧ ((List.range (c.u8 3)).map (fun i => c.u16 (12 + 2 * i))).any (fun t => !mhas d.terms t || d.notRun (d.tileOfTerm t)) = false ∧
  (d.cellTiles
  { route := c.u8 1, lo := c.u32 4, hi := c.u32 8, floor := c.u8 2, tids := (List.range (c.u8 3)).map (fun i => c.u16 (12 + 2 * i)) }).any (fun t =>
  2048 ≤ d.partsOn c.tgt t) = false) :=
  wit_plain _ _ _ _ (by decide +kernel) (by decide +kernel)
theorem wit_FollowMeCommandsSetTheCorridor_3 : WitOk specFmCell (pkt specFmCell 3 ([1] ++ zeroBytes 11)) ({ rdy with fm := { cells := [(3, {})] } })
  (fun (c : Cmd) (d : Dev) => c.tgt ≤ 16383 ∧ c.u8 0 = 1 ∧ (d.cellLatest c.tgt).isSome = true) :=
  wit_plain _ _ _ _ (by decide +kernel) (by decide +kernel)
theorem wit_FollowMeCommandsSetTheCorridor_4 : WitOk specFmProfile (pkt specFmProfile 3 ([232, 3, 0, 0, 10, 0, 1, 0] ++ [2, 0, 0, 0] ++ [100, 0, 0, 0]
  ++ [100, 0, 0, 0] ++ zeroBytes 8)) (rdy) (fun (c : Cmd) (d : Dev) => c.tgt ≤ 63 ∧ 100 ≤ c.u16 0 ∧ c.u16 0 ≤ 15000 ∧ c.u16 2 ≤ 15000 ∧ c.u16 4 ≤
  60000 ∧ c.u8 6 ≤ 8 ∧ (List.range (c.u8 6)).any (fun i => c.u32 (16 + 20 * i) < c.u32 (12 + 20 * i) || c.u32 (24 + 20 * i) < c.u32 (20 + 20 * i)) =
  false) :=
  wit_plain _ _ _ _ (by decide +kernel) (by decide +kernel)
theorem wit_FollowMeCommandsSetTheCorridor_5 : WitOk specFmTrainBind (pkt specFmTrainBind 3 [9, 9, 9, 2]) (rdy) (fun (c : Cmd) (d : Dev) => c.tgt ≤
  1023 ∧ c.u8 3 ≤ 63 ∧ d.tileRun (c.tgt % d.nTiles) = true ∧ mget d.fm.trains c.tgt = none ∧ d.fm.trains.any (fun e => e.2.train = c.u24 0) = false)
  :=
  wit_plain _ _ _ _ (by decide +kernel) (by decide +kernel)
theorem wit_FollowMeCommandsSetTheCorridor_6 : WitOk specFmTrainBind (pkt specFmTrainBind 3 [9, 9, 9, 2])
  ({ rdy with fm := { trains := [(3, { train := 0x090909, st := .bound })] } }) (fun (c : Cmd) (d : Dev) => c.tgt ≤ 1023 ∧ c.u8 3 ≤ 63 ∧ d.tileRun
  (c.tgt % d.nTiles) = true ∧ mhas d.fm.trains c.tgt = true ∧ (d.fmTrain c.tgt).train = c.u24 0) :=
  wit_plain _ _ _ _ (by decide +kernel) (by decide +kernel)
theorem wit_FollowMeCommandsSetTheCorridor_7 : WitOk specFmTrainClear (pkt specFmTrainClear 3 [])
  ({ rdy with fm := { trains := [(3, { train := 9, st := .bound })] } }) (fun (c : Cmd) (d : Dev) => c.tgt ≤ 1023 ∧ d.tileRun (c.tgt % d.nTiles) =
  true ∧ mhas d.fm.trains c.tgt = true) :=
  wit_plain _ _ _ _ (by decide +kernel) (by decide +kernel)
theorem wit_FollowMeCommandsSetTheCorridor_8 : WitOk specFmPosition (pkt specFmPosition 0 (zeroBytes 32)) (rdy) (fun (c : Cmd) (d : Dev) => True) :=
  wit_plain _ _ _ _ (by decide +kernel) (by decide +kernel)
theorem wit_FollowMeCommandsSetTheCorridor_9 : WitOk specFmEvent (pkt specFmEvent 3 [0, 1, 0, 0, 7, 0, 0, 0, 1, 0, 5, 0, 0, 0, 0, 0])
  ({ svc with fm := { routes := [(1, { len := 5000 })] } }) (fun (c : Cmd) (d : Dev) => c.tgt ≤ 8191 ∧ c.u8 0 = 0 ∧ c.u8 8 ≤ 2 ∧ c.u8 9 ≤ 2 ∧ mhas
  d.fm.routes (c.u8 1) = true ∧ (c.u8 9 = 0 → c.u16 10 < d.nTerms ∧ mhas d.terms (c.u16 10) = true ∧ d.tileRun (d.tileOfTerm (c.u16 10)) = true) ∧
  (c.u8 9 = 1 → c.u16 10 ≤ 16383 ∧ c.u16 12 ≤ 3600 ∧ (d.cellLatest (c.u16 10)).isSome = true)) :=
  wit_plain _ _ _ _ (by decide +kernel) (by decide +kernel)
theorem wit_FollowMeCommandsSetTheCorridor_10 : WitOk specFmEvent (pkt specFmEvent 3 ([1] ++ zeroBytes 15))
  ({ rdy with fm := { events := [(3, {})] } }) (fun (c : Cmd) (d : Dev) => c.tgt ≤ 8191 ∧ c.u8 0 = 1 ∧ (d.eventLatest c.tgt).isSome = true) :=
  wit_plain _ _ _ _ (by decide +kernel) (by decide +kernel)
theorem wit_FollowMeCommandsSetTheCorridor_11 : WitOk specFmSource (sg specFmSource 2 [7, 0, 0, 4, 1, 0, 0, 0])
  ({ fld with cru := { fld.cru with slots := [(7, { kind := 3 }), (200, { kind := 1, key := zeroBytes 32 })] } }) (fun (c : Cmd) (d : Dev) => c.tgt ≤
  63 ∧ d.slotUsable (c.u8 0) 3 = true) :=
  wit_signed _ _ _ _ (by decide +kernel) (by decide +kernel)
theorem wit_FollowMeCommandsSetTheCorridor_12 : WitOk specFmStatus (pkt specFmStatus 4 [1, 0, 0, 0]) ({ rdy with fm := { cells := [(4, {})] } }) (fun
  (c : Cmd) (d : Dev) => c.u8 0 = 1 ∧ c.tgt ≤ 16383 ∧ mhas d.fm.cells c.tgt = true) :=
  wit_plain _ _ _ _ (by decide +kernel) (by decide +kernel)

/-! O18 TrainsAreFollowedAndLost -/

theorem wit_TrainsAreFollowedAndLost_1 : (fun (d : Dev) (port : Nat) (payload : List Byte) (s : FmSource) => mget d.fm.sources (natAt payload 4 1) =
  some s ∧ s.enabled = true ∧ s.port = port ∧ d.ready = true ∧ (d.pslot s.slot).kind = 3 ∧ (d.pslot s.slot).stale = false ∧ s.slotW = (d.pslot
  s.slot).wcount ∧ d.cru.ready = true ∧ payload.length = 32 + 32 * natAt payload 3 1 ∧ 1 ≤ natAt payload 3 1 ∧ natAt payload 3 1 ≤ 40 ∧ payload.drop
  (payload.length - 16) = cmac (d.pslot s.slot).key (payload.take (payload.length - 16)) ∧ s.seq.any (fun q => natAt payload 8 8 ≤ q) = false ∧ natAt
  payload 0 2 = 0x5F3A ∧ natAt payload 2 1 = 1)
  ({ rdy with
     cru := { ready := true, slots := [(7, { kind := 3, key := zeroBytes 32 })] },
     fm := { sources := [(2, { enabled := true, port := 9, slot := 7 })] } }) (9) ([0x3A, 0x5F, 1, 1, 2, 0, 0, 0, 1, 0, 0, 0, 0, 0, 0, 0] ++ zeroBytes
  32 ++ cmac (zeroBytes 32) ([0x3A, 0x5F, 1, 1, 2, 0, 0, 0, 1, 0, 0, 0, 0, 0, 0, 0] ++ zeroBytes 32)) ({ enabled := true, port := 9, slot := 7 }) :=
  by decide +kernel
theorem wit_TrainsAreFollowedAndLost_2 : (fun (d : Dev) (port : Nat) (payload : List Byte) (s : FmSource) => mget d.fm.sources (natAt payload 4 1) =
  some s ∧ s.enabled = true ∧ s.port = port ∧ d.ready = true ∧ (d.pslot s.slot).kind = 3 ∧ (d.pslot s.slot).stale = false ∧ s.slotW = (d.pslot
  s.slot).wcount ∧ d.cru.ready = true ∧ 16 ≤ payload.length ∧ payload.drop (payload.length - 16) = cmac (d.pslot s.slot).key (payload.take
  (payload.length - 16)) ∧ s.seq.any (fun q => natAt payload 8 8 ≤ q) = true)
  ({ rdy with
     cru := { ready := true, slots := [(7, { kind := 3, key := zeroBytes 32 })] },
     fm := { sources := [(2, { enabled := true, port := 9, slot := 7, seq := some 1 })] } }) (9) ([0x3A, 0x5F, 1, 1, 2, 0, 0, 0, 1, 0, 0, 0, 0, 0, 0,
  0] ++ zeroBytes 32 ++ cmac (zeroBytes 32) ([0x3A, 0x5F, 1, 1, 2, 0, 0, 0, 1, 0, 0, 0, 0, 0, 0, 0] ++ zeroBytes 32))
  ({ enabled := true, port := 9, slot := 7, seq := some 1 }) :=
  by decide +kernel
theorem wit_TrainsAreFollowedAndLost_3 : (fun (d : Dev) (record : List Byte) (profile : Nat) => d.ready = true ∧ mhas d.fm.routes (reportOf
  record).route = false) (rdy) (zeroBytes 32) (1) :=
  by decide +kernel
theorem wit_TrainsAreFollowedAndLost_4 : (fun (d : Dev) (record : List Byte) (profile : Nat) (trn : Nat) (e : Dev) => d.ready = true ∧ mhas
  d.fm.routes (reportOf record).route = true ∧ (d.count .remoteReceived fmDevice).fmPlace (reportOf record) = 0 ∧ (d.count .remoteReceived
  fmDevice).fmSlot (reportOf record).train profile = some (trn, e) ∧ e.tileRun (e.fmHome trn) = true)
  ({ svc with fm := { routes := [(0, { len := 5000 })], trains := [(3, { train := 0, st := .bound })] } }) (zeroBytes 32) (1) (3) (Dev.count
  { svc with fm := { routes := [(0, { len := 5000 })], trains := [(3, { train := 0, st := .bound })] } } .remoteReceived fmDevice) :=
  by decide +kernel
theorem wit_TrainsAreFollowedAndLost_5 : (fun (d : Dev) (trn : Nat) (r : FmReport) (t : Raw) => (d.fmTrain trn).held = some r ∧ (d.fmTrain trn).procAt
  = some t ∧ d.tileRun (d.fmHome trn) = true)
  ({ rdy with fm := { trains := [(3, { train := 9, st := .tracking, held := some {}, procAt := some 0 })] } }) (3) ({}) (0) :=
  by decide +kernel
theorem wit_TrainsAreFollowedAndLost_6 : (fun (d : Dev) => d.ready = true) (rdy) :=
  by decide +kernel
theorem wit_TrainsAreFollowedAndLost_7 : (fun (d : Dev) (trn : Nat) => (d.fmTrain trn).st = .tracking ∧ d.ready = true)
  ({ rdy with fm := { trains := [(3, { train := 9, st := .tracking })] } }) (3) :=
  by decide +kernel
theorem wit_TrainsAreFollowedAndLost_8 : (fun (d : Dev) (trn : Nat) (x : FmTrain) (a b : Dev) => x = d.fmTrain trn ∧ (x.st = .tracking ∨ x.st =
  .stale) ∧ d.ready = true ∧ d.tileRun (d.fmHome trn) = true ∧ a = (x.engaged.map (fun e => e.1)).foldl (fun d p => d.count .releases (p / 8))
  (d.advanceTo (x.lastAt + rawS d.tLostS)) ∧ b = a.floorMissed a.fmHolds (x.engaged.map (fun e => e.1)))
  ({ rdy with fm := { trains := [(3, { train := 9, st := .stale })] } }) (3) ({ train := 9, st := .stale }) (Dev.advanceTo
  { rdy with fm := { trains := [(3, { train := 9, st := .stale })] } } (rawS ({ rdy with fm := { trains := [(3, { train := 9, st := .stale })] } } :
  Dev).tLostS)) ((Dev.advanceTo { rdy with fm := { trains := [(3, { train := 9, st := .stale })] } } (rawS
  ({ rdy with fm := { trains := [(3, { train := 9, st := .stale })] } } : Dev).tLostS)).floorMissed [] []) :=
  by decide +kernel
theorem wit_TrainsAreFollowedAndLost_9 : (fun (d : Dev) (trn : Nat) => (d.fmTrain trn).st = .lost ∧ (d.fmTrain trn).floor ≠ [] ∧ d.lostHoldS ≠ 0 ∧
  d.ready = true) ({ rdy with fm := { trains := [(3, { train := 9, st := .lost, floor := [8] })] } }) (3) :=
  by decide +kernel
theorem wit_TrainsAreFollowedAndLost_10 : (fun (d : Dev) (trn : Nat) (cell : Nat) (p : Nat × Raw) (ps : List (Nat × Raw)) => (d.fmTrain
  trn).pre.filter (fun e => e.1 / 8 = cell) = p :: ps ∧ d.ready = true ∧ d.tileRun (d.fmHome trn) = true)
  ({ rdy with fm := { trains := [(3, { train := 9, st := .tracking, pre := [(8, 0)], engaged := [(8, 0)] })] } }) (3) (1) ((8, 0)) ([]) :=
  by decide +kernel

/-! O19 TableCommandsActOnTables -/

theorem wit_TableCommandsActOnTables_1 : WitOk specTableInsert (pkt specTableInsert 3 ([1, 0, 0, 0] ++ [9] ++ zeroBytes 31 ++ [1, 0, 6, 0] ++
  zeroBytes 20 ++ zeroBytes 8)) ({ rdy with tables := [(3, { tiles := 1 })] }) (fun (c : Cmd) (d : Dev) => d.tabNamed c.tgt = true ∧ Dev.allRecords c
  d (Dev.insertRec c.tgt (bitN c.records.2.1 0)) = true) :=
  wit_plain _ _ _ _ (by decide +kernel) (by decide +kernel)
theorem wit_TableCommandsActOnTables_2 : WitOk specTableDelete (pkt specTableDelete 3 ([1, 0, 0, 0] ++ [9] ++ zeroBytes 63))
  ((({ rdy with tables := [(3, { tiles := 1 })] } : Dev).tabInsert 3 { key := [9] ++ zeroBytes 31 } false).2) (fun (c : Cmd) (d : Dev) => d.tabNamed
  c.tgt = true ∧ Dev.allRecords c d (Dev.deleteRec c.tgt) = true) :=
  wit_plain _ _ _ _ (by decide +kernel) (by decide +kernel)
theorem wit_TableCommandsActOnTables_3 : WitOk specTableLookup (pkt specTableLookup 3 ([1, 0, 0, 0] ++ [9] ++ zeroBytes 63))
  ((({ rdy with tables := [(3, { tiles := 1 })] } : Dev).tabInsert 3 { key := [9] ++ zeroBytes 31 } false).2) (fun (c : Cmd) (d : Dev) => d.tabNamed
  c.tgt = true ∧ Dev.allRecords c d (Dev.lookupRec c.tgt) = true) :=
  wit_plain _ _ _ _ (by decide +kernel) (by decide +kernel)
theorem wit_TableCommandsActOnTables_4 : WitOk specTableSearch (pkt specTableSearch 3 (zeroBytes 64)) ({ rdy with tables := [(3, { tiles := 1 })] })
  (fun (c : Cmd) (d : Dev) => d.tabNamed c.tgt = true ∧ (lowestFree (d.cursors.map (fun e => e.1)) 0 4).isSome = true) :=
  wit_plain _ _ _ _ (by decide +kernel) (by decide +kernel)
theorem wit_TableCommandsActOnTables_5 : WitOk specTableNext (pkt specTableNext 0 [])
  ({ rdy with tables := [(3, { tiles := 1 })], cursors := [(0, { table := 3, value := zeroBytes 32, mask := zeroBytes 32 })] }) (fun (c : Cmd) (d :
  Dev) => c.tgt < 4 ∧ mhas d.cursors c.tgt = true ∧ d.tabNamed (mgetD d.cursors c.tgt {}).table = true) :=
  wit_plain _ _ _ _ (by decide +kernel) (by decide +kernel)
theorem wit_TableCommandsActOnTables_6 : WitOk specTableFlushPort (pkt specTableFlushPort 3 [2, 0, 0, 0])
  ({ rdy with tables := [(3, { tiles := 1 })] }) (fun (c : Cmd) (d : Dev) => d.awaiting c.p.chan < 64 ∧ (d.tabNamed c.tgt = true ∧ c.tgt ≠ 0xFFFFFFFF
  ∧ c.u8 0 ≤ 3 ∧ d.ownerBad (c.u8 0) (c.u16 2) = stOk)) :=
  wit_plain _ _ _ _ (by decide +kernel) (by decide +kernel)
theorem wit_TableCommandsActOnTables_7 : WitOk specTableFlushPort (pkt specTableFlushPort 0xFFFFFFFF [2, 0, 0, 0])
  ({ rdy with tables := [(3, { tiles := 1 })] }) (fun (c : Cmd) (d : Dev) => d.awaiting c.p.chan < 64 ∧ (c.tgt = 0xFFFFFFFF ∧ c.u8 0 ≤ 3 ∧ d.ownerBad
  (c.u8 0) (c.u16 2) = stOk ∧ d.tables.any (fun e => !d.tabRun e.2) = false)) :=
  wit_plain _ _ _ _ (by decide +kernel) (by decide +kernel)
theorem wit_TableCommandsActOnTables_8 : WitOk specTableConfig (pkt specTableConfig 3 ([0, 1, 4, 0, 7, 0, 0, 0, 0xFF, 0xFF] ++ zeroBytes 6)) (rdy)
  (fun (c : Cmd) (d : Dev) => c.tgt < 64 ∧ c.u8 0 = 0 ∧ c.u8 1 ≠ 0 ∧ c.u8 1 < 2 ^ d.nTiles ∧ 4 ≤ c.u8 2 ∧ c.u8 2 ≤ 16 ∧ (c.u16 8 ≤ 255 ∨ c.u16 8 =
  0xFFFF) ∧ mhas d.tables c.tgt = false ∧ d.tabRun
  {
    tiles := c.u8 1, n := c.u8 2, seed := BitVec.ofNat 32 (c.u32 4), owner := c.u16 8, sweepAt := d.now,
    cfg := BitVec.ofNat 32 (d.reg (0x600 + 4 * c.tgt)) } = true ∧ (Table.tileList
  {
    tiles := c.u8 1, n := c.u8 2, seed := BitVec.ofNat 32 (c.u32 4), owner := c.u16 8, sweepAt := d.now,
    cfg := BitVec.ofNat 32 (d.reg (0x600 + 4 * c.tgt)) }).any (fun i => d.bucketsFree i < 2 ^ c.u8 2) = false) :=
  wit_plain _ _ _ _ (by decide +kernel) (by decide +kernel)
theorem wit_TableCommandsActOnTables_9 : WitOk specTableConfig (pkt specTableConfig 3 ([1, 0, 0, 0] ++ zeroBytes 8 ++ [1, 2, 3, 0]))
  ({ rdy with tables := [(3, { tiles := 1 })] }) (fun (c : Cmd) (d : Dev) => d.tabNamed c.tgt = true ∧ c.u8 0 = 1) :=
  wit_plain _ _ _ _ (by decide +kernel) (by decide +kernel)
theorem wit_TableCommandsActOnTables_10 : WitOk specTableConfig (pkt specTableConfig 3 ([2] ++ zeroBytes 15))
  ({ rdy with tables := [(3, { tiles := 1 })] }) (fun (c : Cmd) (d : Dev) => d.tabNamed c.tgt = true ∧ c.u8 0 = 2 ∧ d.profiles.any (fun e => e.2.table
  = c.tgt) = false) :=
  wit_plain _ _ _ _ (by decide +kernel) (by decide +kernel)
theorem wit_TableCommandsActOnTables_11 : WitOk specTableStatus (pkt specTableStatus 3 []) ({ rdy with tables := [(3, { tiles := 1 })] }) (fun (c :
  Cmd) (d : Dev) => d.tabNamed c.tgt = true) :=
  wit_plain _ _ _ _ (by decide +kernel) (by decide +kernel)
theorem wit_TableCommandsActOnTables_12 : WitOk specKeyProfile (pkt specKeyProfile 3 ([3, 1, 0, 0] ++ [7, 0, 5, 255] ++ zeroBytes 28))
  ({ rdy with tables := [(3, { tiles := 1 })] }) (fun (c : Cmd) (d : Dev) => c.tgt < 64 ∧ c.u8 1 ≤ 16 ∧ extsOk ((List.range (c.u8 1)).map (fun i =>
  extOf (c.u8 (4 + 4 * i)) (c.u8 (5 + 4 * i)) (c.u8 (6 + 4 * i)) (c.u8 (7 + 4 * i)))) = true ∧ (c.bit (4 + 4 * c.u8 1) 0 = true → d.actBad (c.bs (8 +
  4 * c.u8 1) 24) true = stOk) ∧ d.tabNamed (c.u8 0) = true) :=
  wit_plain _ _ _ _ (by decide +kernel) (by decide +kernel)
theorem wit_TableCommandsActOnTables_13 : WitOk specLookupList (pkt specLookupList 3 ([1, 2] ++ zeroBytes 34))
  ({ rdy with profiles := [(2, { table := 3 })] }) (fun (c : Cmd) (d : Dev) => c.tgt < 256 ∧ 1 ≤ c.u8 0 ∧ c.u8 0 ≤ 8 ∧ ((List.range (c.u8 0)).map (fun
  i => c.u8 (1 + i))).any (fun p => 64 ≤ p) = false ∧ d.actBad (c.bs 12 24) = stOk ∧ ((List.range (c.u8 0)).map (fun i => c.u8 (1 + i))).any (fun p =>
  !mhas d.profiles p) = false) :=
  wit_plain _ _ _ _ (by decide +kernel) (by decide +kernel)
theorem wit_TableCommandsActOnTables_14 : WitOk specSpreadGroup (pkt specSpreadGroup 3 ([1, 0, 0, 2] ++ zeroBytes 512 ++ zeroBytes 44))
  ({ rdy with cru := {} }) (fun (c : Cmd) (d : Dev) => c.tgt < 128 ∧ 1 ≤ c.u8 0 ∧ c.u8 0 ≤ 64 ∧ ((List.range (c.u8 0)).map (fun i => (c.u8 (2 + 2 *
  i), c.u8 (3 + 2 * i)))).any (fun x => 1 < x.1) = false ∧ ((List.range (c.u8 0)).map (fun i => (c.u8 (2 + 2 * i), c.u8 (3 + 2 * i)))).any (fun x =>
  if x.1 = 0 then d.nSubs ≤ x.2 else match memberTile x.2 with | none => 15 < x.2 | some t => d.nTiles ≤ t) = false ∧ ((List.range (c.u8 0)).map (fun
  i => (c.u8 (2 + 2 * i), c.u8 (3 + 2 * i)))).any (fun x => if x.1 = 0 then d.notRun (tileOfSub x.2) else (memberTile x.2).any d.notRun) = false ∧
  ((c.bs (pad4 (2 + 2 * c.u8 0)) 512).map (fun b => b.toNat)).any (fun i => c.u8 0 ≤ i) = false ∧ ((spreadLens.zipIdx).map (fun (l, i) => if (c.u16
  (pad4 (2 + 2 * c.u8 0) + 512)).testBit i then l else 0)).foldl (· + ·) 0 ≤ 36) :=
  wit_plain _ _ _ _ (by decide +kernel) (by decide +kernel)
theorem wit_TableCommandsActOnTables_15 : WitOk specMirrorSession (pkt specMirrorSession 3 ([2, 0, 0, 0, 1, 0, 0, 0] ++ zeroBytes 4)) (rdy) (fun (c :
  Cmd) (d : Dev) => 1 ≤ c.tgt ∧ c.tgt ≤ 15 ∧ (c.u8 0 = 0 ∨ c.u8 0 = 2 ∨ c.u8 0 = 6) ∧ d.fwdOut (c.u8 0) (c.u32 4) = false ∧ (d.fwdTile (c.u8 0) (c.u32
  4)).any d.notRun = false ∧ (c.u16 8 = 0 ∨ 64 ≤ c.u16 8 ∧ c.u16 8 ≤ 16000)) :=
  wit_plain _ _ _ _ (by decide +kernel) (by decide +kernel)
theorem wit_TableCommandsActOnTables_16 : WitOk specClsPort (pkt specClsPort 3 [0, 2, 0, 9]) ({ rdy with lookups := [(2, {})] }) (fun (c : Cmd) (d :
  Dev) => c.u8 0 ≤ 1 ∧ c.u8 2 ≤ 15 ∧ mhas d.lookups (c.u8 1) = true ∧ (c.u8 0 = 0 → c.tgt < d.nSubs ∧ d.tileRun (tileOfSub c.tgt) = true) ∧ (c.u8 0 =
  1 → d.chanOk c.tgt = true ∧ d.tileRun (tileOfChan c.tgt) = true)) :=
  wit_plain _ _ _ _ (by decide +kernel) (by decide +kernel)

/-! O20 TablesAreAccessedLearnedAndAged -/

theorem wit_TablesAreAccessedLearnedAndAged_1 : (fun (d : Dev) (table : Nat) (noEvict : Bool) => d.variant ≠ .thz8 ∧ d.ready = true ∧ d.tac.busy =
  false ∧ mhas d.tables table = true ∧ d.tabRun (d.tab table) = true) ({ rdy with tables := [(3, { tiles := 1 })] }) (3) (false) :=
  by decide +kernel
theorem wit_TablesAreAccessedLearnedAndAged_2 : (fun (d : Dev) (table : Nat) (noEvict : Bool) => d.variant ≠ .thz8 ∧ d.ready = true ∧ d.tac.busy =
  true) ({ rdy with tac := { busy := true } }) (3) (false) :=
  by decide +kernel
theorem wit_TablesAreAccessedLearnedAndAged_3 : (fun (d : Dev) (table : Nat) (e : TEntry) => d.variant ≠ .thz8 ∧ d.ready = true ∧ d.tac.busy = false ∧
  mhas d.tables table = true ∧ d.tabRun (d.tab table) = true ∧ d.tabAny table (d.tab table) d.tac.key = some e)
  ((({ rdy with tables := [(3, { tiles := 1 })] } : Dev).tabInsert 3 { key := zeroBytes 32 } false).2) (3) ({ key := zeroBytes 32 }) :=
  by decide +kernel
theorem wit_TablesAreAccessedLearnedAndAged_4 : (fun (d : Dev) (table : Nat) (e : TEntry) => d.variant ≠ .thz8 ∧ d.ready = true ∧ d.tac.busy = false ∧
  mhas d.tables table = true ∧ d.tabRun (d.tab table) = true ∧ d.tabHome table (d.tab table) d.tac.key = some e)
  ((({ rdy with tables := [(3, { tiles := 1 })] } : Dev).tabInsert 3 { key := zeroBytes 32 } false).2) (3) ({ key := zeroBytes 32 }) :=
  by decide +kernel
theorem wit_TablesAreAccessedLearnedAndAged_5 : (fun (d : Dev) (table : Nat) (e : TEntry) => d.variant ≠ .thz8 ∧ d.ready = true ∧ d.tac.busy = false ∧
  mhas d.tables table = true ∧ d.tabRun (d.tab table) = true ∧ d.tacSlot table (d.tab table) d.tac = some e)
  ({ rdy with tables := [(3, { tiles := 1, slots := [(5, { key := zeroBytes 32 })] })], tac := { index := 5 } }) (3) ({ key := zeroBytes 32 }) :=
  by decide +kernel
theorem wit_TablesAreAccessedLearnedAndAged_6 : (fun (d : Dev) (table : Nat) (e : TEntry) => d.variant ≠ .thz8 ∧ d.ready = true ∧ d.tac.busy = false ∧
  mhas d.tables table = true ∧ d.tabRun (d.tab table) = true ∧ d.tacSlot table (d.tab table) d.tac = some e)
  ({ rdy with tables := [(3, { tiles := 1, slots := [(5, { key := zeroBytes 32 })] })], tac := { index := 5 } }) (3) ({ key := zeroBytes 32 }) :=
  by decide +kernel
theorem wit_TablesAreAccessedLearnedAndAged_7 : (fun (d : Dev) => d.tac.busy = true) ({ rdy with tac := { busy := true } }) :=
  by decide +kernel
theorem wit_TablesAreAccessedLearnedAndAged_8 : (fun (d : Dev) (tile : Nat) (l : Learn) (ls : List Learn) (e : Dev) => (d.clsTile tile).learns = l ::
  ls ∧ d.tileRun tile = true ∧ e = d.updCls tile (fun c => { c with learns := ls }) ∧ mhas e.tables l.table = true ∧ (e.tab l.table).hostKeys.any (fun
  x => x.1 = l.key && x.2 = e.frame) = false ∧ (e.tabAny l.table (e.tab l.table) l.key).any (fun x => e.learnStands (e.tab l.table) x l.atT tile) =
  false) ({ rdy with tables := [(3, { tiles := 1 })], cls := [(0, { learns := [{ table := 3, key := zeroBytes 32 }] })] }) (0)
  ({ table := 3, key := zeroBytes 32 }) ([]) (Dev.updCls
  { rdy with tables := [(3, { tiles := 1 })], cls := [(0, { learns := [{ table := 3, key := zeroBytes 32 }] })] } 0 (fun c =>
  { c with learns := [] })) :=
  by decide +kernel
theorem wit_TablesAreAccessedLearnedAndAged_9 : (fun (d : Dev) (tile : Nat) (u : TableUpdate) => mhas d.tables u.table = true ∧ d.tileRun tile = true
  ∧ (d.tab u.table).tiles.testBit tile = true ∧ (d.tabAny u.table (d.tab u.table) u.key).any (fun x => d.learnStands (d.tab u.table) x u.stamp
  u.tileFrom) = false) ({ rdy with tables := [(3, { tiles := 1 })] }) (0) ({ table := 3, key := zeroBytes 32 }) :=
  by decide +kernel
theorem wit_TablesAreAccessedLearnedAndAged_10 : (fun (d : Dev) (table : Nat) (a : Dev) (t : Table) (n : Nat) => mhas d.tables table = true ∧
  d.ageTickMs table ≠ 0 ∧ d.ready = true ∧ a = d.advanceTo ((d.tab table).sweepAt + rawMs (d.ageTickMs table)) ∧ t =
  { d.tab table with epoch := ((d.tab table).epoch + 1) % 256, sweepAt := a.now, cfg := BitVec.ofNat 32 (a.reg (0x600 + 4 * table)) } ∧ n =
  (t.slots.filter (fun s => a.tooOld t s.2)).length + ((a.ovfEntries table t).filter (fun x => a.tooOld t x)).length)
  ({ rdy with tables := [(3, { tiles := 1 })], regs := [(0x60C, BitVec.ofNat 32 (3 * 65536))] }) (3) (Dev.advanceTo
  { rdy with tables := [(3, { tiles := 1 })], regs := [(0x60C, BitVec.ofNat 32 (3 * 65536))] } (rawMs (Dev.ageTickMs
  { rdy with tables := [(3, { tiles := 1 })], regs := [(0x60C, BitVec.ofNat 32 (3 * 65536))] } 3)))
  ({
     tiles := 1, epoch := 1,
     sweepAt :=
       (Dev.advanceTo { rdy with tables := [(3, { tiles := 1 })], regs := [(0x60C, BitVec.ofNat 32 (3 * 65536))] } (rawMs (Dev.ageTickMs
         { rdy with tables := [(3, { tiles := 1 })], regs := [(0x60C, BitVec.ofNat 32 (3 * 65536))] } 3))).now, cfg := BitVec.ofNat 32 (3 * 65536) })
  (0) :=
  by decide +kernel
theorem wit_TablesAreAccessedLearnedAndAged_11 : (fun (d : Dev) (cursor : Nat) => mhas d.cursors cursor = true) ({ rdy with cursors := [(1, {})] })
  (1) :=
  by decide +kernel
theorem wit_TablesAreAccessedLearnedAndAged_13 : (fun (d : Dev) (sub : Nat) => sub < d.nSubs ∧ (d.sub sub).up = true)
  ({ rdy with subs := [(1, { up := true, enabled := true })] }) (1) :=
  by decide +kernel
theorem wit_TablesAreAccessedLearnedAndAged_14 : (fun (d : Dev) (sub : Nat) => sub < d.nSubs ∧ (d.sub sub).enabled = true ∧ d.tileRun (tileOfSub sub)
  = true) ({ rdy with subs := [(1, { enabled := true })] }) (1) :=
  by decide +kernel

/-! O21 FramesAreClassified -/

theorem wit_FramesAreClassified_1 : (fun (d : Dev) (g : Ingress) (frame : List Byte) (l : Nat) => g.channel = false ∧ g.handle < d.nSubs ∧ (d.sub
  g.handle).enabled = true ∧ d.tileRun (tileOfSub g.handle) = true ∧ (mgetD d.binds g.handle {}).lookup = some l)
  ({ rdy with subs := [(1, { enabled := true })], binds := [(1, { lookup := some 2 })] }) ({ handle := 1 }) (zeroBytes 64) (2) :=
  by decide +kernel
theorem wit_FramesAreClassified_2 : (fun (d : Dev) (g : Ingress) (frame : List Byte) => g.channel = false ∧ g.handle < d.nSubs ∧ (d.sub
  g.handle).enabled = true ∧ d.tileRun (tileOfSub g.handle) = true ∧ (mgetD d.binds g.handle {}).lookup = none)
  ({ rdy with subs := [(1, { enabled := true })] }) ({ handle := 1 }) (zeroBytes 64) :=
  by decide +kernel
theorem wit_FramesAreClassified_3 : (fun (d : Dev) (tile : Nat) (pipe : Nat) (w : Waiting) (ws : List Waiting) => pipe % 2 = 0 ∧ (d.clsTile
  tile).recirc0 = w :: ws ∧ d.tileRun tile = true) ({ rdy with cls := [(0, { recirc0 := [{ frame := zeroBytes 64 }] })] }) (0) (0)
  ({ frame := zeroBytes 64 }) ([]) :=
  by decide +kernel
theorem wit_FramesAreClassified_4 : (fun (d : Dev) (tile : Nat) (pipe : Nat) (w : Waiting) (ws : List Waiting) => pipe % 2 = 1 ∧ (d.clsTile
  tile).recirc1 = w :: ws ∧ d.tileRun tile = true) ({ rdy with cls := [(0, { recirc1 := [{ frame := zeroBytes 64 }] })] }) (0) (1)
  ({ frame := zeroBytes 64 }) ([]) :=
  by decide +kernel

/-! O22 TrafficCommandsTakeEffectAtTheirFrame -/

theorem wit_TrafficCommandsTakeEffectAtTheirFrame_1 : WitOk specQueueCreate (pkt specQueueCreate (upBase + 100) ([0, 0, 1, 3] ++ [0, 4, 0, 0] ++ [50,
  25, 0, 0] ++ [16, 0, 0, 0] ++ zeroBytes 8)) (rdy) (fun (c : Cmd) (d : Dev) => upBase ≤ c.tgt ∧ d.queueOk c.tgt = true ∧ c.u16 0 < d.nSubs ∧ c.u8 2 <
  64 ∧ c.u8 3 < 64 ∧ 1 ≤ c.u32 4 ∧ c.u32 4 ≤ 262144 ∧ c.u8 8 ≤ 100 ∧ c.u8 9 ≤ 100 ∧ 1 ≤ c.u16 12 ∧ c.u16 12 ≤ 1023 ∧ c.u8 14 ≤ 2 ∧ c.u32 16 ≤ 1000000
  ∧ c.u32 20 ≤ 1000000 ∧ mhas d.queues c.tgt = false ∧ d.queues.any (fun e => !e.2.down && e.2.tid = 0 && e.2.sdom = 0 && e.2.subport = c.u16 0 &&
  e.2.group = c.u8 2 && e.2.cls = c.u8 3) = false ∧ d.tileRun (tileOfSub (c.u16 0)) = true ∧ d.upQueuesOn (tileOfSub (c.u16 0)) < 4096) :=
  wit_plain _ _ _ _ (by decide +kernel) (by decide +kernel)
theorem wit_TrafficCommandsTakeEffectAtTheirFrame_2 : WitOk specQueueCreate (pkt specQueueCreate 100 ([5, 0, 1, 3] ++ [0, 4, 0, 0] ++ [50, 25, 0, 0]
  ++ [16, 0, 0, 0] ++ zeroBytes 8)) ({ svc with queues := [] }) (fun (c : Cmd) (d : Dev) => c.tgt < upBase ∧ d.queueOk c.tgt = true ∧ c.u16 0 <
  d.nTerms ∧ c.u8 3 < 8 ∧ 1 ≤ c.u32 4 ∧ c.u32 4 ≤ 262144 ∧ c.u8 8 ≤ 100 ∧ c.u8 9 ≤ 100 ∧ 1 ≤ c.u16 12 ∧ c.u16 12 ≤ 1023 ∧ c.u8 14 = 0 ∧ bitN (c.u8 10)
  2 = false ∧ c.u32 16 ≤ 1000000 ∧ c.u32 20 ≤ 1000000 ∧ mhas d.queues c.tgt = false ∧ mhas d.terms (c.u16 0) = true ∧ d.queues.any (fun e => e.2.down
  && e.2.tid = c.u16 0 && e.2.sdom = c.u8 2 && e.2.subport = 0 && e.2.group = 0 && e.2.cls = c.u8 3) = false ∧ d.tileRun (d.tileOfTerm (c.u16 0)) =
  true ∧ d.downQueuesOn (d.tileOfTerm (c.u16 0)) < 16384) :=
  wit_plain _ _ _ _ (by decide +kernel) (by decide +kernel)
theorem wit_TrafficCommandsTakeEffectAtTheirFrame_3 : WitOk specQueueModify (pkt specQueueModify upBase ([0, 4, 0, 0] ++ [50, 25, 0, 0] ++ [16, 0, 0,
  0] ++ zeroBytes 8)) ({ rdy with queues := [(upBase, { down := false })] }) (fun (c : Cmd) (d : Dev) => d.queueNamed c.tgt = true ∧ 1 ≤ c.u32 0 ∧
  c.u32 0 ≤ 262144 ∧ c.u8 4 ≤ 100 ∧ c.u8 5 ≤ 100 ∧ 1 ≤ c.u16 8 ∧ c.u16 8 ≤ 1023 ∧ c.u8 10 ≤ 2 ∧ ((d.queue c.tgt).down = true → c.u8 10 = 0) ∧ c.u32 12
  ≤ 1000000 ∧ c.u32 16 ≤ 1000000) :=
  wit_plain _ _ _ _ (by decide +kernel) (by decide +kernel)
theorem wit_TrafficCommandsTakeEffectAtTheirFrame_4 : WitOk specQueueDelete (pkt specQueueDelete upBase [])
  ({ rdy with queues := [(upBase, { down := false })] }) (fun (c : Cmd) (d : Dev) => d.queueNamed c.tgt = true) :=
  wit_plain _ _ _ _ (by decide +kernel) (by decide +kernel)
theorem wit_TrafficCommandsTakeEffectAtTheirFrame_5 : WitOk specNodeConfig (pkt specNodeConfig 1 [2, 7, 20, 0])
  ({ svc with nodes := [(2 ^ 33 + 256 * 1 + 7, {})] }) (fun (c : Cmd) (d : Dev) => (c.u8 0 = 2 ∨ c.u8 0 = 3) ∧ d.nodeOut (c.u8 0) c.tgt 0 = false ∧ 1
  ≤ c.u16 2 ∧ c.u16 2 ≤ 1023 ∧ mhas d.nodes (nodeOf (c.u8 0) c.tgt (c.u8 1)) = true ∧ d.tileRun (d.tileOfNode (c.u8 0) c.tgt) = true) :=
  wit_plain _ _ _ _ (by decide +kernel) (by decide +kernel)
theorem wit_TrafficCommandsTakeEffectAtTheirFrame_6 : WitOk specShaperSet (pkt specShaperSet upBase ([0, 0, 0, 0] ++ [232, 3, 0, 0] ++ [0, 4, 0, 0] ++
  [232, 3, 0, 0] ++ [0, 4, 0, 0] ++ zeroBytes 4)) ({ rdy with queues := [(upBase, { down := false })] }) (fun (c : Cmd) (d : Dev) => c.u8 0 ≤ 5 ∧ c.u8
  2 = 0 ∧ d.nodeOut (c.u8 0) c.tgt (c.u8 1) = false ∧ d.nodeHere (c.u8 0) (nodeOf (c.u8 0) c.tgt (c.u8 1)) = true ∧ d.tileRun (d.tileOfNode (c.u8 0)
  c.tgt) = true ∧ bucketBad (c.bit 21 0) (c.u32 4) (c.u32 8) (c.u32 12) (c.u32 16) (c.i8 20) = stOk ∧ (c.bit 21 0 = true → c.u8 0 = 0 ∧ mhas d.queues
  c.tgt = true ∧ (d.queue c.tgt).priv = true ∧ ((mget d.shapers (nodeOf (c.u8 0) c.tgt (c.u8 1))).any (fun s => s.pkt) = true ∨ d.pktModeOn
  (d.tileOfNode (c.u8 0) c.tgt) < 1024)) ∧ (mhas d.shapers (nodeOf (c.u8 0) c.tgt (c.u8 1)) = true ∨ d.shapersOn (d.tileOfNode (c.u8 0) c.tgt) <
  24576)) :=
  wit_plain _ _ _ _ (by decide +kernel) (by decide +kernel)
theorem wit_TrafficCommandsTakeEffectAtTheirFrame_7 : WitOk specShaperSet (pkt specShaperSet upBase ([0, 0, 1, 0] ++ zeroBytes 20))
  ({ rdy with queues := [(upBase, { down := false })], shapers := [(upBase, {})] }) (fun (c : Cmd) (d : Dev) => c.u8 0 ≤ 5 ∧ c.u8 2 = 1 ∧ d.nodeOut
  (c.u8 0) c.tgt (c.u8 1) = false ∧ d.nodeHere (c.u8 0) (nodeOf (c.u8 0) c.tgt (c.u8 1)) = true ∧ d.tileRun (d.tileOfNode (c.u8 0) c.tgt) = true ∧
  mhas d.shapers (nodeOf (c.u8 0) c.tgt (c.u8 1)) = true) :=
  wit_plain _ _ _ _ (by decide +kernel) (by decide +kernel)
theorem wit_TrafficCommandsTakeEffectAtTheirFrame_8 : WitOk specMeterSet (pkt specMeterSet 5 ([0, 0, 0, 0] ++ [232, 3, 0, 0] ++ [0, 4, 0, 0] ++ [232,
  3, 0, 0] ++ [0, 4, 0, 0] ++ zeroBytes 4)) (rdy) (fun (c : Cmd) (d : Dev) => c.tgt / 32768 < d.nTiles ∧ c.u8 0 = 0 ∧ d.tileRun (c.tgt / 32768) = true
  ∧ bucketBad (c.bit 21 0) (c.u32 4) (c.u32 8) (c.u32 12) (c.u32 16) (c.i8 20) = stOk ∧ (c.bit 21 0 = true → d.meterPriv c.tgt = true ∧ d.pktModeOn
  (c.tgt / 32768) < 1024)) :=
  wit_plain _ _ _ _ (by decide +kernel) (by decide +kernel)
theorem wit_TrafficCommandsTakeEffectAtTheirFrame_9 : WitOk specMeterSet (pkt specMeterSet 5 ([1, 0, 0, 0] ++ zeroBytes 20))
  ({ rdy with meters := [(5, {})] }) (fun (c : Cmd) (d : Dev) => c.tgt / 32768 < d.nTiles ∧ c.u8 0 = 1 ∧ d.tileRun (c.tgt / 32768) = true ∧ mhas
  d.meters c.tgt = true) :=
  wit_plain _ _ _ _ (by decide +kernel) (by decide +kernel)
theorem wit_TrafficCommandsTakeEffectAtTheirFrame_10 : WitOk specGateSet (pkt specGateSet 1 ([0, 1, 0, 0] ++ [16, 39, 0, 0] ++ zeroBytes 12 ++ [16,
  39, 0, 0, 255, 0, 0, 0])) (rdy) (fun (c : Cmd) (d : Dev) => c.tgt < d.nSubs ∧ d.tileRun (tileOfSub c.tgt) = true ∧ c.u8 0 = 0 ∧ 1 ≤ c.u8 1 ∧ c.u8 1
  ≤ 64 ∧ 10000 ≤ c.u32 4 ∧ c.u32 4 ≤ 1000000000 ∧ c.u32 16 ≤ 999999999 ∧ ((c.u64 8 : Int) * 1000000000 + c.u32 16 - d.netNs).natAbs ≤ 140000 *
  1000000000 ∧ (((List.range (c.u8 1)).map (fun i => (c.u32 (20 + 8 * i), c.u8 (24 + 8 * i)))).map (fun e => e.1)).foldl (· + ·) 0 = c.u32 4) :=
  wit_plain _ _ _ _ (by decide +kernel) (by decide +kernel)
theorem wit_TrafficCommandsTakeEffectAtTheirFrame_11 : WitOk specGateSet (pkt specGateSet 1 ([1] ++ zeroBytes 19)) (rdy) (fun (c : Cmd) (d : Dev) =>
  c.tgt < d.nSubs ∧ d.tileRun (tileOfSub c.tgt) = true ∧ c.u8 0 = 1) :=
  wit_plain _ _ _ _ (by decide +kernel) (by decide +kernel)
theorem wit_TrafficCommandsTakeEffectAtTheirFrame_12 : WitOk specQueueInject (pkt specQueueInject upBase ([1, 0, 0, 0] ++ zeroBytes 12 ++ [64, 0, 0,
  0] ++ zeroBytes 64)) ({ rdy with queues := [(upBase, { down := false })] }) (fun (c : Cmd) (d : Dev) => d.queueNamed c.tgt = true ∧ 1 ≤ c.u8 0 ∧
  c.u8 0 ≤ 64 ∧ d.queueLive (d.queue c.tgt) = true ∧ (injectFrames c.params (c.u8 0) 4).isSome = true ∧ (d.queue c.tgt).launch ≠ 2) :=
  wit_plain _ _ _ _ (by decide +kernel) (by decide +kernel)
theorem wit_TrafficCommandsTakeEffectAtTheirFrame_13 : WitOk specQmStatus (pkt specQmStatus upBase [0, 0, 0, 0])
  ({ rdy with queues := [(upBase, { down := false })] }) (fun (c : Cmd) (d : Dev) => c.u8 0 = 0 ∧ c.u8 1 = 0 ∧ d.queueOk c.tgt = true ∧ mhas d.queues
  c.tgt = true ∧ d.tileRun (d.tileOfQueue c.tgt) = true) :=
  wit_plain _ _ _ _ (by decide +kernel) (by decide +kernel)
theorem wit_TrafficCommandsTakeEffectAtTheirFrame_14 : WitOk specQmStatus (pkt specQmStatus upBase [1, 0, 0, 0])
  ({ rdy with queues := [(upBase, { down := false })], shapers := [(upBase, {})] }) (fun (c : Cmd) (d : Dev) => c.u8 0 = 1 ∧ c.u8 1 ≤ 5 ∧ d.nodeOut
  (c.u8 1) c.tgt (c.u8 2) = false ∧ d.nodeHere (c.u8 1) (nodeOf (c.u8 1) c.tgt (c.u8 2)) = true ∧ d.tileRun (d.tileOfNode (c.u8 1) c.tgt) = true ∧
  (d.shaperNow (nodeOf (c.u8 1) c.tgt (c.u8 2))).isSome = true) :=
  wit_plain _ _ _ _ (by decide +kernel) (by decide +kernel)
theorem wit_TrafficCommandsTakeEffectAtTheirFrame_15 : WitOk specQmStatus (pkt specQmStatus 1 [2, 2, 7, 0])
  ({ svc with nodes := [(2 ^ 33 + 256 * 1 + 7, {})] }) (fun (c : Cmd) (d : Dev) => c.u8 0 = 2 ∧ 1 ≤ c.u8 1 ∧ c.u8 1 ≤ 5 ∧ d.nodeOut (c.u8 1) c.tgt
  (c.u8 2) = false ∧ d.nodeHere (c.u8 1) (nodeOf (c.u8 1) c.tgt (c.u8 2)) = true ∧ d.tileRun (d.tileOfNode (c.u8 1) c.tgt) = true) :=
  wit_plain _ _ _ _ (by decide +kernel) (by decide +kernel)

/-! O23 FramesEnterAndLeaveQueues -/

theorem wit_FramesEnterAndLeaveQueues_1 : (fun (d : Dev) (q : EnqueueReq) (x : Queue) (y z : Dev) (ptr : Nat) (e : Dev) => mget d.queues q.queue =
  some x ∧ d.tileRun (d.tileOfQueue q.queue) = true ∧ d.queueLive x = true ∧ q.frame.length ≤ 16384 ∧ d.gateNever x (q.frame.length + d.growOf
  q.queue) = false ∧ y = (if x.down then (d.wake x.tid).2 else if d.macOn x.subport then d else d.crossHold (d.tileOfQueue q.queue) 2 (x.subport % 8))
  ∧ x.occ + cellsOf q.frame.length ≤ x.limit (colorOf q.color) ∧ y.takeCells (d.tileOfQueue q.queue) (cellsOf q.frame.length) q.count q.last x.priv =
  (some ptr, z) ∧ e =
  { z with
    queues :=
      mput z.queues q.queue
        { x with
          frames := x.frames ++ [{ ptr := ptr, bytes := q.frame, len := q.frame.length, color := colorOf q.color, launch := d.launchOf x none }] } })
  ({ svc with queues := [(100, { tid := 5 })] }) ({ queue := 100, frame := zeroBytes 64 }) ({ tid := 5 }) ((Dev.wake
  { svc with queues := [(100, { tid := 5 })] } 5).2) (((Dev.wake { svc with queues := [(100, { tid := 5 })] } 5).2.takeCells 0 1 1 0 false).2) (0)
  ({ ((Dev.wake { svc with queues := [(100, { tid := 5 })] } 5).2.takeCells 0 1 1 0 false).2 with
     queues := [(100, { tid := 5, frames := [{ ptr := 0, bytes := zeroBytes 64, len := 64, color := .green, launch := none }] })] }) :=
  by decide +kernel
theorem wit_FramesEnterAndLeaveQueues_2 : (fun (d : Dev) (q : EnqueueReq) (x : Queue) (y : Dev) => mget d.queues q.queue = some x ∧ d.tileRun
  (d.tileOfQueue q.queue) = true ∧ d.queueLive x = true ∧ q.frame.length ≤ 16384 ∧ d.gateNever x (q.frame.length + d.growOf q.queue) = false ∧ y = (if
  x.down then (d.wake x.tid).2 else if d.macOn x.subport then d else d.crossHold (d.tileOfQueue q.queue) 2 (x.subport % 8)) ∧ x.limit (colorOf
  q.color) < x.occ + cellsOf q.frame.length) ({ rdy with queues := [(upBase, { down := false, maxCells := 0 })] })
  ({ queue := upBase, frame := zeroBytes 64 }) ({ down := false, maxCells := 0 }) (Dev.crossHold
  { rdy with queues := [(upBase, { down := false, maxCells := 0 })] } 0 2 0) :=
  by decide +kernel
theorem wit_FramesEnterAndLeaveQueues_3 : (fun (d : Dev) (tile : Nat) (ptr : BitVec 32) (party : Nat) => d.tileRun tile = true ∧ (d.pool
  tile).badRelease ptr.toNat party = 0) ({ rdy with pools := [(0, { fresh := 1, frames := [(0, { cells := [0], count := 1 })] })] }) (0) (0#32) (0) :=
  by decide +kernel
theorem wit_FramesEnterAndLeaveQueues_4 : (fun (d : Dev) (tile : Nat) (ptr : BitVec 32) (party : Nat) => d.tileRun tile = true ∧ (d.pool
  tile).badRelease ptr.toNat party ≠ 0) (rdy) (0) (256) (1) :=
  by decide +kernel
theorem wit_FramesEnterAndLeaveQueues_6 : (fun (d : Dev) (sub : Bool) (node : Nat) => sub = true ∧ d.txOpen node = true)
  ({ rdy with subs := [(0, { enabled := true, up := true })] }) (true) (0) :=
  by decide +kernel
theorem wit_FramesEnterAndLeaveQueues_7 : (fun (d : Dev) (sub : Bool) (node : Nat) => sub = false ∧ d.dsOpen node = true)
  ({ svc with chans := [(1, { st := .enabled, carryFrom := some 0, dsRoom := 1000 })] }) (false) (1) :=
  by decide +kernel
theorem wit_FramesEnterAndLeaveQueues_8 : (fun (d : Dev) (queue : Nat) (q : Queue) (x : QFrame) (xs : List QFrame) (t : Raw) => mget d.queues queue =
  some q ∧ q.frames = x :: xs ∧ q.launch ≠ 0 ∧ d.txOpen q.subport = true ∧ x.launch = some t ∧ reached (d.advanceTo t).now ((d.advanceTo t).sub
  q.subport).busyUntil = true)
  ({ rdy with
     subs := [(0, { enabled := true, up := true })],
     queues := [(upBase, { down := false, launch := 1, frames := [{ bytes := zeroBytes 64, len := 64, launch := some 5 }] })] }) (upBase)
  ({ down := false, launch := 1, frames := [{ bytes := zeroBytes 64, len := 64, launch := some 5 }] })
  ({ bytes := zeroBytes 64, len := 64, launch := some 5 }) ([]) (5) :=
  by decide +kernel
theorem wit_FramesEnterAndLeaveQueues_9 : (fun (d : Dev) (sub : Nat) (g : Gate) (a : Dev) => mget d.gates sub = some g ∧ a = d.advanceTo (g.nextAt
  d.now)) ({ rdy with gates := [(0, { anchor := 100, entries := [(10000, 255)] })] }) (0) ({ anchor := 100, entries := [(10000, 255)] })
  (Dev.advanceTo { rdy with gates := [(0, { anchor := 100, entries := [(10000, 255)] })] } (Gate.nextAt { anchor := 100, entries := [(10000, 255)] }
  (Dev.now { rdy with gates := [(0, { anchor := 100, entries := [(10000, 255)] })] }))) :=
  by decide +kernel

/-! O24 MsecCommandsSetSecuredLinks -/

theorem wit_MsecCommandsSetSecuredLinks_1 : WitOk specMsecSecy (sg specMsecSecy 3 ([0, 1, 0, 0, 0, 0, 0, 0] ++ zeroBytes 8 ++ [2, 15, 0, 0] ++
  zeroBytes 8)) (rdy) (fun (c : Cmd) (d : Dev) => c.tgt < 256 * d.nTiles ∧ c.u8 0 = 0 ∧ c.u8 1 < d.nSubs ∧ c.u64 8 = 0 ∧ c.u8 16 ≤ 2 ∧ c.u32 20 ≤ 2 ^
  30 ∧ (c.u8 24 = 0 ∨ c.u8 24 = 30 ∨ c.u8 24 = 50) ∧ c.u8 25 ≤ 3 ∧ d.tileRun (tileOfSub (c.u8 1)) = true ∧ mget d.msec.secys c.tgt = none ∧
  ((d.msec.secys.filter (fun e => e.2.subport = c.u8 1)).map (fun e => e.2.index)).contains 0 = false) :=
  wit_signed _ _ _ _ (by decide +kernel) (by decide +kernel)
theorem wit_MsecCommandsSetSecuredLinks_2 : WitOk specMsecSecy (sg specMsecSecy 3 ([0, 1, 0, 0, 0, 0, 0, 0, 9] ++ zeroBytes 7 ++ [2, 15, 0, 0] ++
  zeroBytes 8)) (rdy) (fun (c : Cmd) (d : Dev) => c.tgt < 256 * d.nTiles ∧ c.u8 0 = 0 ∧ c.u8 1 < d.nSubs ∧ c.u64 8 ≠ 0 ∧ c.u64 8 < 2 ^ 48 ∧ c.u8 16 ≤
  2 ∧ c.u32 20 ≤ 2 ^ 30 ∧ (c.u8 24 = 0 ∨ c.u8 24 = 30 ∨ c.u8 24 = 50) ∧ c.u8 25 ≤ 3 ∧ d.tileRun (tileOfSub (c.u8 1)) = true ∧ mget d.msec.secys c.tgt
  = none ∧ (lowestFree ((d.msec.secys.filter (fun e => e.2.subport = c.u8 1)).map (fun e => e.2.index)) 1 15).isSome = true) :=
  wit_signed _ _ _ _ (by decide +kernel) (by decide +kernel)
theorem wit_MsecCommandsSetSecuredLinks_3 : WitOk specMsecSecy (sg specMsecSecy 3 (zeroBytes 16 ++ [2, 15, 0, 0] ++ zeroBytes 8))
  ({ rdy with msec := { secys := [(3, {})] } }) (fun (c : Cmd) (d : Dev) => d.secyNamed c.tgt = true ∧ c.u8 0 = 0 ∧ c.u8 1 < d.nSubs ∧ (d.secy
  c.tgt).subport = c.u8 1 ∧ (d.secy c.tgt).peer = c.u64 8 ∧ c.u64 8 < 2 ^ 48 ∧ c.u8 16 ≤ 2 ∧ c.u32 20 ≤ 2 ^ 30 ∧ (c.u8 24 = 0 ∨ c.u8 24 = 30 ∨ c.u8 24
  = 50) ∧ c.u8 25 ≤ 3) :=
  wit_signed _ _ _ _ (by decide +kernel) (by decide +kernel)
theorem wit_MsecCommandsSetSecuredLinks_4 : WitOk specMsecSecy (sg specMsecSecy 3 ([1] ++ zeroBytes 27)) ({ rdy with msec := { secys := [(3, {})] } })
  (fun (c : Cmd) (d : Dev) => d.secyNamed c.tgt = true ∧ c.u8 0 = 1) :=
  wit_signed _ _ _ _ (by decide +kernel) (by decide +kernel)
theorem wit_MsecCommandsSetSecuredLinks_5 : WitOk specMsecSc (pkt specMsecSc 4 ([0, 0, 3, 0] ++ zeroBytes 12))
  ({ rdy with msec := { secys := [(3, {})] } }) (fun (c : Cmd) (d : Dev) => c.u8 0 = 0 ∧ c.tgt < 512 * d.nTiles ∧ d.secyNamed (c.u16 2) = true ∧ c.u8
  1 ≤ 1 ∧ mhas d.msec.scs c.tgt = false ∧ (d.msec.scs.filter (fun e => e.2.secy = c.u16 2 && e.2.tx = decide (c.u8 1 = 0))).length < (if c.u8 1 = 0
  then 1 else 16) ∧ (d.msec.scs.filter (fun e => d.tileOfSecy e.2.secy = tileOfSub (d.secy (c.u16 2)).subport)).length < 512) :=
  wit_plain _ _ _ _ (by decide +kernel) (by decide +kernel)
theorem wit_MsecCommandsSetSecuredLinks_6 : WitOk specMsecSc (pkt specMsecSc 4 ([1] ++ zeroBytes 15))
  ({ rdy with msec := { secys := [(3, {})], scs := [(4, { secy := 3, tx := true })] } }) (fun (c : Cmd) (d : Dev) => c.u8 0 = 1 ∧ c.tgt < 512 *
  d.nTiles ∧ mhas d.msec.scs c.tgt = true ∧ d.tileRun (d.tileOfSc c.tgt) = true) :=
  wit_plain _ _ _ _ (by decide +kernel) (by decide +kernel)
theorem wit_MsecCommandsSetSecuredLinks_7 : WitOk specMsecSc (pkt specMsecSc 0 ([2, 0, 3, 0, 0, 7] ++ zeroBytes 10))
  ({ rdy with msec := { secys := [(3, {})] } }) (fun (c : Cmd) (d : Dev) => c.u8 0 = 2 ∧ d.secyNamed (c.u16 2) = true ∧ c.u8 4 < d.nSubs ∧ c.u8 5 ≤ 63
  ∧ c.u8 4 = (d.secy (c.u16 2)).subport ∧ (c.u8 5 ≠ 0 ∨ (d.secy (c.u16 2)).index = 0)) :=
  wit_plain _ _ _ _ (by decide +kernel) (by decide +kernel)
theorem wit_MsecCommandsSetSecuredLinks_8 : WitOk specMsecMka (pkt specMsecMka 3 ([7, 4, 1, 2, 3, 4] ++ zeroBytes 28 ++ [16, 1]))
  ({ fld with msec := { secys := [(3, {})] }, cru := { fld.cru with slots := [(7, { kind := 2, key := zeroBytes 32 })] } }) (fun (c : Cmd) (d : Dev)
  => d.secyNamed c.tgt = true ∧ c.bit 35 0 = true ∧ 1 ≤ c.u8 1 ∧ c.u8 1 ≤ 32 ∧ d.slotUsable (c.u8 0) 2 = true) :=
  wit_plain _ _ _ _ (by decide +kernel) (by decide +kernel)
theorem wit_MsecCommandsSetSecuredLinks_9 : WitOk specMsecMka (pkt specMsecMka 3 (zeroBytes 36))
  ({ fld with msec := { secys := [(3, { mka := true })] } }) (fun (c : Cmd) (d : Dev) => d.secyNamed c.tgt = true ∧ c.bit 35 0 = false) :=
  wit_plain _ _ _ _ (by decide +kernel) (by decide +kernel)
theorem wit_MsecCommandsSetSecuredLinks_10 : WitOk specMsecSaInstall (pkt specMsecSaInstall 8 ([1, 7] ++ zeroBytes 30))
  ({ fld with
     msec := { secys := [(3, {})], scs := [(4, { secy := 3, tx := true })] },
     cru := { fld.cru with slots := [(7, { kind := 5, key := zeroBytes (suiteKeyLen 0) })] } }) (fun (c : Cmd) (d : Dev) => d.saNamed c.tgt = true ∧
  c.u8 0 ≤ 3 ∧ d.slotUsable (c.u8 1) 5 = true ∧ (d.pslot (c.u8 1)).key.length = suiteKeyLen (d.suiteOf (c.tgt / 2)) ∧ ((d.sa (otherSa c.tgt)).st =
  .empty ∨ (d.sa (otherSa c.tgt)).an ≠ c.u8 0) ∧ (d.sa c.tgt).st ≠ .tx ∧ (d.sa c.tgt).st ≠ .retiring) :=
  wit_plain _ _ _ _ (by decide +kernel) (by decide +kernel)
theorem wit_MsecCommandsSetSecuredLinks_11 : WitOk specMsecSaInstall (pkt specMsecSaInstall 8 ([1, 7] ++ zeroBytes 30))
  ({ fld with
     msec := { secys := [(3, {})], scs := [(4, { secy := 3, tx := true })], sas := [(8, { st := .retiring })] },
     cru := { fld.cru with slots := [(7, { kind := 5, key := zeroBytes (suiteKeyLen 0) })] } }) (fun (c : Cmd) (d : Dev) => d.awaiting c.p.chan < 64 ∧
  (d.saNamed c.tgt = true ∧ c.u8 0 ≤ 3 ∧ d.slotUsable (c.u8 1) 5 = true ∧ (d.pslot (c.u8 1)).key.length = suiteKeyLen (d.suiteOf (c.tgt / 2)) ∧ ((d.sa
  (otherSa c.tgt)).st = .empty ∨ (d.sa (otherSa c.tgt)).an ≠ c.u8 0) ∧ (d.sa c.tgt).st = .retiring)) :=
  wit_plain _ _ _ _ (by decide +kernel) (by decide +kernel)
theorem wit_MsecCommandsSetSecuredLinks_12 : WitOk specMsecSaDisable (pkt specMsecSaDisable 8 [])
  ({ rdy with msec := { secys := [(3, {})], scs := [(4, { secy := 3, tx := true })] } }) (fun (c : Cmd) (d : Dev) => d.saNamed c.tgt = true) :=
  wit_plain _ _ _ _ (by decide +kernel) (by decide +kernel)
theorem wit_MsecCommandsSetSecuredLinks_13 : WitOk specMsecTxSwitch (pkt specMsecTxSwitch 4 [])
  ({ rdy with msec := { secys := [(3, {})], scs := [(4, { secy := 3, tx := true })], sas := [(8, { st := .ready })] } }) (fun (c : Cmd) (d : Dev) =>
  c.tgt < 512 * d.nTiles ∧ mhas d.msec.scs c.tgt = true ∧ d.tileRun (d.tileOfSc c.tgt) = true ∧ (mgetD d.msec.scs c.tgt {}).tx = true ∧ (d.saIn c.tgt
  .ready).isSome = true) :=
  wit_plain _ _ _ _ (by decide +kernel) (by decide +kernel)
theorem wit_MsecCommandsSetSecuredLinks_14 : WitOk specMsecTransit (pkt specMsecTransit 0 [0, 1, 1, 0]) (rdy) (fun (c : Cmd) (d : Dev) => c.u8 0 <
  d.nSubs ∧ c.u8 1 < d.nSubs ∧ c.u8 2 ≤ 1 ∧ d.tileRun (tileOfSub (c.u8 0)) = true ∧ d.tileRun (tileOfSub (c.u8 1)) = true ∧ d.strictOn (c.u8 0) =
  true) :=
  wit_plain _ _ _ _ (by decide +kernel) (by decide +kernel)
theorem wit_MsecCommandsSetSecuredLinks_15 : WitOk specMsecBypass (sg specMsecBypass 3 ([1, 0, 0xB5, 0x88] ++ zeroBytes 8))
  ({ rdy with msec := { secys := [(3, {})] } }) (fun (c : Cmd) (d : Dev) => d.secyNamed c.tgt = true ∧ c.u8 0 ≤ 4) :=
  wit_signed _ _ _ _ (by decide +kernel) (by decide +kernel)
theorem wit_MsecCommandsSetSecuredLinks_16 : WitOk specMsecStatus (pkt specMsecStatus 3 []) ({ rdy with msec := { secys := [(3, {})] } }) (fun (c :
  Cmd) (d : Dev) => d.secyNamed c.tgt = true) :=
  wit_plain _ _ _ _ (by decide +kernel) (by decide +kernel)
theorem wit_MsecCommandsSetSecuredLinks_17 : (fun (d : Dev) (value : BitVec 32) => d.hostOk = true)
  ({ rdy with host := { rdy.host with linkUp := true } }) (5) :=
  by decide +kernel

/-! O25 SecureAssociationsLiveAndRetire -/

theorem wit_SecureAssociationsLiveAndRetire_1 : (fun (d : Dev) (sa : Nat) => (d.sa sa).st = .retiring)
  ({ rdy with msec := { sas := [(8, { st := .retiring })] } }) (8) :=
  by decide +kernel
theorem wit_SecureAssociationsLiveAndRetire_2 : (fun (d : Dev) (sa : Nat) => mhas d.msec.scs (sa / 2) = true ∧ (mgetD d.msec.scs (sa / 2) {}).tx =
  true ∧ (d.sa sa).st = .tx ∧ (d.sa sa).bound ≤ (d.sa sa).pn + 2 ^ 19)
  ({ rdy with msec := { scs := [(4, { tx := true })], sas := [(8, { st := .tx })] } }) (8) :=
  by decide +kernel
theorem wit_SecureAssociationsLiveAndRetire_3 : (fun (d : Dev) (sa : Nat) => mhas d.msec.scs (sa / 2) = true ∧ (mgetD d.msec.scs (sa / 2) {}).tx =
  false ∧ (d.sa sa).st = .ready) ({ rdy with msec := { scs := [(4, { tx := false })], sas := [(8, { st := .ready, best := 9 })] } }) (8) :=
  by decide +kernel
theorem wit_SecureAssociationsLiveAndRetire_4 : (fun (d : Dev) (f : UplinkFrame) (sc : Nat) (c : SecChan) (n : Nat) => d.tileRun (tileOfSub f.sub) =
  true ∧ (d.sub f.sub).enabled = true ∧ (d.sub f.sub).up = true ∧ f.secTag = true ∧ f.badTag = false ∧ (f.sci = none ∨ (f.es = false ∧ f.scb = false))
  ∧ d.msec.scs.find? (fun e => !e.2.tx && e.2.sci = Sys2Proof.Machine.UplinkFrame.sciOf f &&
  (match mget d.msec.secys e.2.secy with | some y => y.subport = f.sub | none => false)) = some (sc, c) ∧ mhas d.msec.secys c.secy = true ∧ [2 * sc, 2
  * sc + 1].find? (fun n => ((d.sa n).st = .ready || (d.sa n).st = .retiring) && (d.sa n).an = f.an && (d.sa n).loaded) = some n ∧ (d.secy
  c.secy).validate ≠ .disabled ∧ f.icvOk = true ∧ ((d.secy c.secy).replay = false ∨ (d.sa n).low ≤ f.pn))
  ({ rdy with
     subs := [(0, { enabled := true, up := true })],
     msec :=
       { secys := [(0, {})], scs := [(4, { secy := 0, tx := false, sci := 65537 })], sas := [(8, { st := .ready, an := 0, loaded := true })] } })
  ({ sub := 0, src := 1, secTag := true, pn := 5, frame := zeroBytes 64 }) (4) ({ secy := 0, tx := false, sci := 65537 }) (8) :=
  by decide +kernel
theorem wit_SecureAssociationsLiveAndRetire_5 : (fun (d : Dev) (f : UplinkFrame) (sc : Nat) (c : SecChan) (n : Nat) => d.tileRun (tileOfSub f.sub) =
  true ∧ (d.sub f.sub).enabled = true ∧ (d.sub f.sub).up = true ∧ f.secTag = true ∧ f.badTag = false ∧ (f.sci = none ∨ (f.es = false ∧ f.scb = false))
  ∧ d.msec.scs.find? (fun e => !e.2.tx && e.2.sci = Sys2Proof.Machine.UplinkFrame.sciOf f &&
  (match mget d.msec.secys e.2.secy with | some y => y.subport = f.sub | none => false)) = some (sc, c) ∧ mhas d.msec.secys c.secy = true ∧ [2 * sc, 2
  * sc + 1].find? (fun n => ((d.sa n).st = .ready || (d.sa n).st = .retiring) && (d.sa n).an = f.an && (d.sa n).loaded) = some n ∧ (d.secy
  c.secy).validate ≠ .disabled ∧ f.icvOk = false ∧ ((d.secy c.secy).replay = false ∨ (d.sa n).low ≤ f.pn))
  ({ rdy with
     subs := [(0, { enabled := true, up := true })],
     msec :=
       { secys := [(0, {})], scs := [(4, { secy := 0, tx := false, sci := 65537 })], sas := [(8, { st := .ready, an := 0, loaded := true })] } })
  ({ sub := 0, src := 1, secTag := true, pn := 5, frame := zeroBytes 64, icvOk := false }) (4) ({ secy := 0, tx := false, sci := 65537 }) (8) :=
  by decide +kernel
theorem wit_SecureAssociationsLiveAndRetire_6 : (fun (d : Dev) (f : UplinkFrame) (sc : Nat) (c : SecChan) (n : Nat) => d.tileRun (tileOfSub f.sub) =
  true ∧ (d.sub f.sub).enabled = true ∧ (d.sub f.sub).up = true ∧ f.secTag = true ∧ f.badTag = false ∧ (f.sci = none ∨ (f.es = false ∧ f.scb = false))
  ∧ d.msec.scs.find? (fun e => !e.2.tx && e.2.sci = Sys2Proof.Machine.UplinkFrame.sciOf f &&
  (match mget d.msec.secys e.2.secy with | some y => y.subport = f.sub | none => false)) = some (sc, c) ∧ mhas d.msec.secys c.secy = true ∧ [2 * sc, 2
  * sc + 1].find? (fun n => ((d.sa n).st = .ready || (d.sa n).st = .retiring) && (d.sa n).an = f.an && (d.sa n).loaded) = some n ∧ (d.secy
  c.secy).replay = true ∧ f.pn < (d.sa n).low)
  ({ rdy with
     subs := [(0, { enabled := true, up := true })],
     msec :=
       {
         secys := [(0, {})], scs := [(4, { secy := 0, tx := false, sci := 65537 })],
         sas := [(8, { st := .ready, an := 0, loaded := true, low := 9 })] } })
  ({ sub := 0, src := 1, secTag := true, pn := 5, frame := zeroBytes 64 }) (4) ({ secy := 0, tx := false, sci := 65537 }) (8) :=
  by decide +kernel
theorem wit_SecureAssociationsLiveAndRetire_7 : (fun (d : Dev) (f : UplinkFrame) (sc : Nat) (c : SecChan) => d.tileRun (tileOfSub f.sub) = true ∧
  (d.sub f.sub).enabled = true ∧ (d.sub f.sub).up = true ∧ f.secTag = true ∧ f.badTag = false ∧ (f.sci = none ∨ (f.es = false ∧ f.scb = false)) ∧
  d.msec.scs.find? (fun e => !e.2.tx && e.2.sci = Sys2Proof.Machine.UplinkFrame.sciOf f &&
  (match mget d.msec.secys e.2.secy with | some y => y.subport = f.sub | none => false)) = some (sc, c) ∧ mhas d.msec.secys c.secy = true ∧ [2 * sc, 2
  * sc + 1].find? (fun n => ((d.sa n).st = .ready || (d.sa n).st = .retiring) && (d.sa n).an = f.an && (d.sa n).loaded) = none)
  ({ rdy with
     subs := [(0, { enabled := true, up := true })],
     msec :=
       { secys := [(0, {})], scs := [(4, { secy := 0, tx := false, sci := 65537 })], sas := [(8, { st := .ready, an := 0, loaded := true })] } })
  ({ sub := 0, src := 1, secTag := true, pn := 5, frame := zeroBytes 64, an := 2 }) (4) ({ secy := 0, tx := false, sci := 65537 }) :=
  by decide +kernel
theorem wit_SecureAssociationsLiveAndRetire_8 : (fun (d : Dev) (f : UplinkFrame) (y : Nat) (z : SecY) => d.tileRun (tileOfSub f.sub) = true ∧ (d.sub
  f.sub).enabled = true ∧ (d.sub f.sub).up = true ∧ f.secTag = false ∧ uncontrolled f.etherType = false ∧ d.secyOf f.sub 0 = some (y, z) ∧ f.etherType
  ∉ z.extra)
  ({ rdy with
     subs := [(0, { enabled := true, up := true })],
     msec :=
       { secys := [(0, {})], scs := [(4, { secy := 0, tx := false, sci := 65537 })], sas := [(8, { st := .ready, an := 0, loaded := true })] } })
  ({ sub := 0, etherType := 0x800, frame := zeroBytes 64 }) (0) ({}) :=
  by decide +kernel
theorem wit_SecureAssociationsLiveAndRetire_9 : (fun (d : Dev) (f : UplinkFrame) (y : Nat) (z : SecY) => d.tileRun (tileOfSub f.sub) = true ∧ (d.sub
  f.sub).enabled = true ∧ (d.sub f.sub).up = true ∧ f.secTag = true ∧ (f.badTag = true ∨ (f.sci.isSome = true ∧ (f.es = true ∨ f.scb = true))) ∧
  d.secyOf f.sub 0 = some (y, z))
  ({ rdy with
     subs := [(0, { enabled := true, up := true })],
     msec :=
       { secys := [(0, {})], scs := [(4, { secy := 0, tx := false, sci := 65537 })], sas := [(8, { st := .ready, an := 0, loaded := true })] } })
  ({ sub := 0, src := 1, secTag := true, pn := 5, frame := zeroBytes 64, badTag := true }) (0) ({}) :=
  by decide +kernel
theorem wit_SecureAssociationsLiveAndRetire_10 : (fun (d : Dev) (f : UplinkFrame) (y : Nat) (z : SecY) => d.tileRun (tileOfSub f.sub) = true ∧ (d.sub
  f.sub).enabled = true ∧ (d.sub f.sub).up = true ∧ f.secTag = true ∧ f.badTag = false ∧ (f.sci = none ∨ (f.es = false ∧ f.scb = false)) ∧
  d.msec.scs.find? (fun e => !e.2.tx && e.2.sci = Sys2Proof.Machine.UplinkFrame.sciOf f &&
  (match mget d.msec.secys e.2.secy with | some y => y.subport = f.sub | none => false)) = none ∧ d.secyOf f.sub 0 = some (y, z))
  ({ rdy with
     subs := [(0, { enabled := true, up := true })],
     msec :=
       { secys := [(0, {})], scs := [(4, { secy := 0, tx := false, sci := 65537 })], sas := [(8, { st := .ready, an := 0, loaded := true })] } })
  ({ sub := 0, src := 7, secTag := true, pn := 5, frame := zeroBytes 64 }) (0) ({}) :=
  by decide +kernel
theorem wit_SecureAssociationsLiveAndRetire_11 : (fun (d : Dev) (sa : Nat) (queue : Nat) (ok : Bool) (pn : Nat) (head : List Byte) (tail : List Byte)
  (c : SecChan) (q : Queue) => d.scOf (sa / 2) = some c ∧ mget d.queues queue = some q ∧ c.tx = false ∧ q.down = false ∧ d.tileRun (d.tileOfSa sa) =
  true ∧ d.tileRun (tileOfSub q.subport) = true ∧ ((d.sa sa).st = .ready ∨ (d.sa sa).st = .retiring) ∧ ((d.secy c.secy).replay = false ∨ (d.sa sa).low
  ≤ pn) ∧ d.cutOk (d.subOfSc (sa / 2)) q ((d.groupSecyOf q.subport q.group).bind (fun e => d.txSc e.1)) = false ∧ ok = true)
  ({ rdy with
     queues := [(3, { down := false, subport := 1 })],
     msec :=
       {
         secys := [(0, {}), (1, { subport := 1 })], scs := [(4, { secy := 0, tx := false }), (5, { secy := 1, tx := true })],
         sas := [(8, { st := .ready })], transit := [(1, true)] } }) (8) (3) (true) (3) (zeroBytes 40) (zeroBytes 24) ({ secy := 0, tx := false })
  ({ down := false, subport := 1 }) :=
  by decide +kernel
theorem wit_SecureAssociationsLiveAndRetire_12 : (fun (d : Dev) (sa : Nat) (queue : Nat) (ok : Bool) (pn : Nat) (head : List Byte) (tail : List Byte)
  (c : SecChan) (q : Queue) => d.scOf (sa / 2) = some c ∧ mget d.queues queue = some q ∧ c.tx = false ∧ q.down = false ∧ d.tileRun (d.tileOfSa sa) =
  true ∧ d.tileRun (tileOfSub q.subport) = true ∧ ((d.sa sa).st = .ready ∨ (d.sa sa).st = .retiring) ∧ ((d.secy c.secy).replay = false ∨ (d.sa sa).low
  ≤ pn) ∧ d.cutOk (d.subOfSc (sa / 2)) q ((d.groupSecyOf q.subport q.group).bind (fun e => d.txSc e.1)) = false ∧ ok = false)
  ({ rdy with
     queues := [(3, { down := false, subport := 1 })],
     msec :=
       {
         secys := [(0, {}), (1, { subport := 1 })], scs := [(4, { secy := 0, tx := false }), (5, { secy := 1, tx := true })],
         sas := [(8, { st := .ready })], transit := [(1, true)] } }) (8) (3) (false) (3) (zeroBytes 40) (zeroBytes 24) ({ secy := 0, tx := false })
  ({ down := false, subport := 1 }) :=
  by decide +kernel
theorem wit_SecureAssociationsLiveAndRetire_13 : (fun (d : Dev) (sa : Nat) (queue : Nat) (ok : Bool) (pn : Nat) (head : List Byte) (tail : List Byte)
  (c : SecChan) (q : Queue) (n : Nat) (a : Dev) (b : Dev) (u : Option (Nat × Nat)) => d.scOf (sa / 2) = some c ∧ mget d.queues queue = some q ∧ c.tx =
  false ∧ q.down = false ∧ d.tileRun (d.tileOfSa sa) = true ∧ d.tileRun (tileOfSub q.subport) = true ∧ ((d.sa sa).st = .ready ∨ (d.sa sa).st =
  .retiring) ∧ ((d.secy c.secy).replay = false ∨ (d.sa sa).low ≤ pn) ∧ ((d.groupSecyOf q.subport q.group).bind (fun e => d.txSc e.1)) = some n ∧
  d.cutOk (d.subOfSc (sa / 2)) q (some n) = true ∧ (u, a) = d.pnUse n (head ++ tail).length ((d.groupSecyOf q.subport q.group).any (fun e =>
  e.2.conf)) ∧ b = a.onLine q.subport ((head ++ tail).length + a.msecGrow q.subport q.group) ∧ ok = true)
  ({ rdy with
     subs := [(0, { enabled := true, up := true }), (1, { enabled := true, up := true })], queues := [(3, { down := false, subport := 1 })],
     msec :=
       {
         secys := [(0, {}), (1, { subport := 1 })], scs := [(4, { secy := 0, tx := false }), (5, { secy := 1, tx := true })],
         sas := [(8, { st := .ready }), (10, { st := .tx, loaded := true, pn := 7, bound := 2 ^ 20 })] } }) (8) (3) (true) (3) (zeroBytes 40)
  (zeroBytes 24) ({ secy := 0, tx := false }) ({ down := false, subport := 1 }) (5) ((Dev.pnUse
  ({ rdy with
     subs := [(0, { enabled := true, up := true }), (1, { enabled := true, up := true })], queues := [(3, { down := false, subport := 1 })],
     msec :=
       {
         secys := [(0, {}), (1, { subport := 1 })], scs := [(4, { secy := 0, tx := false }), (5, { secy := 1, tx := true })],
         sas := [(8, { st := .ready }), (10, { st := .tx, loaded := true, pn := 7, bound := 2 ^ 20 })] } }) 5 64 true).2) (((Dev.pnUse
  ({ rdy with
     subs := [(0, { enabled := true, up := true }), (1, { enabled := true, up := true })], queues := [(3, { down := false, subport := 1 })],
     msec :=
       {
         secys := [(0, {}), (1, { subport := 1 })], scs := [(4, { secy := 0, tx := false }), (5, { secy := 1, tx := true })],
         sas := [(8, { st := .ready }), (10, { st := .tx, loaded := true, pn := 7, bound := 2 ^ 20 })] } }) 5 64 true).2).onLine 1 (64 + Dev.msecGrow
  (Dev.pnUse
  ({ rdy with
     subs := [(0, { enabled := true, up := true }), (1, { enabled := true, up := true })], queues := [(3, { down := false, subport := 1 })],
     msec :=
       {
         secys := [(0, {}), (1, { subport := 1 })], scs := [(4, { secy := 0, tx := false }), (5, { secy := 1, tx := true })],
         sas := [(8, { st := .ready }), (10, { st := .tx, loaded := true, pn := 7, bound := 2 ^ 20 })] } }) 5 64 true).2 1 0)) ((Dev.pnUse
  ({ rdy with
     subs := [(0, { enabled := true, up := true }), (1, { enabled := true, up := true })], queues := [(3, { down := false, subport := 1 })],
     msec :=
       {
         secys := [(0, {}), (1, { subport := 1 })], scs := [(4, { secy := 0, tx := false }), (5, { secy := 1, tx := true })],
         sas := [(8, { st := .ready }), (10, { st := .tx, loaded := true, pn := 7, bound := 2 ^ 20 })] } }) 5 64 true).1) :=
  by decide +kernel
theorem wit_SecureAssociationsLiveAndRetire_14 : (fun (d : Dev) (sa : Nat) (queue : Nat) (ok : Bool) (pn : Nat) (head : List Byte) (tail : List Byte)
  (c : SecChan) (q : Queue) (n : Nat) (a : Dev) (b : Dev) (u : Option (Nat × Nat)) => d.scOf (sa / 2) = some c ∧ mget d.queues queue = some q ∧ c.tx =
  false ∧ q.down = false ∧ d.tileRun (d.tileOfSa sa) = true ∧ d.tileRun (tileOfSub q.subport) = true ∧ ((d.sa sa).st = .ready ∨ (d.sa sa).st =
  .retiring) ∧ ((d.secy c.secy).replay = false ∨ (d.sa sa).low ≤ pn) ∧ ((d.groupSecyOf q.subport q.group).bind (fun e => d.txSc e.1)) = some n ∧
  d.cutOk (d.subOfSc (sa / 2)) q (some n) = true ∧ (u, a) = d.pnUse n (head ++ tail).length ((d.groupSecyOf q.subport q.group).any (fun e =>
  e.2.conf)) ∧ b = a.onLine q.subport ((head ++ tail).length + a.msecGrow q.subport q.group) ∧ ok = false)
  ({ rdy with
     subs := [(0, { enabled := true, up := true }), (1, { enabled := true, up := true })], queues := [(3, { down := false, subport := 1 })],
     msec :=
       {
         secys := [(0, {}), (1, { subport := 1 })], scs := [(4, { secy := 0, tx := false }), (5, { secy := 1, tx := true })],
         sas := [(8, { st := .ready }), (10, { st := .tx, loaded := true, pn := 7, bound := 2 ^ 20 })] } }) (8) (3) (false) (3) (zeroBytes 40)
  (zeroBytes 24) ({ secy := 0, tx := false }) ({ down := false, subport := 1 }) (5) ((Dev.pnUse
  ({ rdy with
     subs := [(0, { enabled := true, up := true }), (1, { enabled := true, up := true })], queues := [(3, { down := false, subport := 1 })],
     msec :=
       {
         secys := [(0, {}), (1, { subport := 1 })], scs := [(4, { secy := 0, tx := false }), (5, { secy := 1, tx := true })],
         sas := [(8, { st := .ready }), (10, { st := .tx, loaded := true, pn := 7, bound := 2 ^ 20 })] } }) 5 64 true).2) (((Dev.pnUse
  ({ rdy with
     subs := [(0, { enabled := true, up := true }), (1, { enabled := true, up := true })], queues := [(3, { down := false, subport := 1 })],
     msec :=
       {
         secys := [(0, {}), (1, { subport := 1 })], scs := [(4, { secy := 0, tx := false }), (5, { secy := 1, tx := true })],
         sas := [(8, { st := .ready }), (10, { st := .tx, loaded := true, pn := 7, bound := 2 ^ 20 })] } }) 5 64 true).2).onLine 1 (64 + Dev.msecGrow
  (Dev.pnUse
  ({ rdy with
     subs := [(0, { enabled := true, up := true }), (1, { enabled := true, up := true })], queues := [(3, { down := false, subport := 1 })],
     msec :=
       {
         secys := [(0, {}), (1, { subport := 1 })], scs := [(4, { secy := 0, tx := false }), (5, { secy := 1, tx := true })],
         sas := [(8, { st := .ready }), (10, { st := .tx, loaded := true, pn := 7, bound := 2 ^ 20 })] } }) 5 64 true).2 1 0)) ((Dev.pnUse
  ({ rdy with
     subs := [(0, { enabled := true, up := true }), (1, { enabled := true, up := true })], queues := [(3, { down := false, subport := 1 })],
     msec :=
       {
         secys := [(0, {}), (1, { subport := 1 })], scs := [(4, { secy := 0, tx := false }), (5, { secy := 1, tx := true })],
         sas := [(8, { st := .ready }), (10, { st := .tx, loaded := true, pn := 7, bound := 2 ^ 20 })] } }) 5 64 true).1) :=
  by decide +kernel
theorem wit_SecureAssociationsLiveAndRetire_15 : (fun (d : Dev) (secy : Nat) (m : Mkpdu) => d.secyNamed secy = true ∧ (d.secy secy).mka = true ∧
  m.icvOk = false) ({ rdy with msec := { secys := [(3, { mka := true })] } }) (3) ({ icvOk := false }) :=
  by decide +kernel
theorem wit_SecureAssociationsLiveAndRetire_16 : (fun (d : Dev) (secy : Nat) (m : Mkpdu) (ick : List Byte) (kek : List Byte) => d.secyNamed secy =
  true ∧ (d.secy secy).mka = true ∧ m.icvOk = true ∧ (d.secy secy).ick = some ick ∧ (d.secy secy).kek = some kek ∧ mhas (d.secy secy).peers m.sci =
  true ∧ m.prio < (d.secy secy).prio ∧ m.serverAn = none ∧ m.allPeersReceive = false)
  ({ rdy with msec := { secys := [(3, { mka := true, ick := some [1], kek := some [2], peers := [(9, 0)] })] } }) (3) ({ sci := 9, prio := 1 }) ([1])
  ([2]) :=
  by decide +kernel
theorem wit_SecureAssociationsLiveAndRetire_17 : (fun (d : Dev) (secy : Nat) => d.secyNamed secy = true ∧ (d.secy secy).mka = true ∧ (d.secy
  secy).ick.isSome = true ∧ (d.secy secy).server = false) ({ rdy with msec := { secys := [(3, { mka := true, ick := some [1], server := false })] } })
  (3) :=
  by decide +kernel
theorem wit_SecureAssociationsLiveAndRetire_18 : (fun (d : Dev) (secy : Nat) (sci : Nat) (t : Raw) => mhas d.msec.secys secy = true ∧ mget (d.secy
  secy).peers sci = some t ∧ mdel (d.secy secy).peers sci = [] ∧ mdel (d.secy secy).prios sci = [])
  ({ rdy with msec := { secys := [(3, { mka := true, peers := [(9, 0)], prios := [(9, 1)] })] } }) (3) (9) (0) :=
  by decide +kernel

/-! O26 CrucibleCommandsKeepKeys -/

theorem wit_CrucibleCommandsKeepKeys_1 : WitOk specCruInfo (pkt specCruInfo 0 []) (rdy) (fun (c : Cmd) (d : Dev) => True) :=
  wit_plain _ _ _ _ (by decide +kernel) (by decide +kernel)
theorem wit_CrucibleCommandsKeepKeys_2 : WitOk specCruChallenge (pkt specCruChallenge 0 []) (fld) (fun (c : Cmd) (d : Dev) => d.cru.ready = true ∧
  d.cru.life ≠ .scrapped ∧ d.cru.lockEnd = none ∧ d.cru.entropyOk = true) :=
  wit_plain _ _ _ _ (by decide +kernel) (by decide +kernel)
theorem wit_CrucibleCommandsKeepKeys_3 : WitOk specCruLifecycle (sg specCruLifecycle 0 ([4, 0, 0, 0] ++ zeroBytes 16))
  ({ rdy with cru := { ready := true } }) (fun (c : Cmd) (d : Dev) => d.cru.ready = true ∧ d.cru.life ≠ .scrapped ∧ c.params.length = 20 ∧ c.bit 2 0 =
  false ∧ c.u8 1 ≤ 1 ∧ c.u8 0 ≤ 4 ∧ ¬ (d.cru.life = .blank ∧ c.u8 0 = 1) ∧ d.cru.entropyOk = true ∧ (transitionOk d.cru.life (c.lifeNamed) = some
  false ∨ transitionOk d.cru.life (c.lifeNamed) = some true ∧ (d.tokenRight c d.cru.anchor = true ∨ d.cru.life = .returned ∧ d.tokenRight c
  vendorAnchor = true))) :=
  wit_signed _ _ _ _ (by decide +kernel) (by decide +kernel)
theorem wit_CrucibleCommandsKeepKeys_4 : WitOk specCruLifecycle (sg specCruLifecycle 0 anchorParams) blankDev (fun c d => d.cru.ready = true ∧
  d.cru.life ≠ .scrapped ∧ c.params.length = pad4 (80 + partLen false) ∧ c.u8 0 = 1 ∧ c.u8 1 ≤ 1 ∧ (d.cru.life = .blank → c.bit 2 0 = true) ∧ (if
  c.bit 2 0 = true then decide (c.u8 1 = 1) else d.cru.scheme) = false ∧ d.cru.entropyOk = true ∧ (d.cru.life = .blank ∨ d.cru.life = .provisioned ∧
  d.tokenRight c d.cru.anchor = true) ∧ c.bs (24 + partLen false) 40 = keyWrap (d.transportKek false (c.bs 24 (partLen false)) 0xFFFF (c.u32 20))
  (zeroBytes 32) ∧ c.bs (64 + partLen false) 16 = cmac (zeroBytes 32) (ascii "LNST-KAT" ++ leBytes 2 0xFFFF ++ leBytes 4 (c.u32 20) ++ [0, 0])) :=
  wit_signed _ _ _ _ (by decide +kernel) (by
    have e := signed_params specCruLifecycle 0 anchorParams blankDev
    have e8 : (signedCmd (sg specCruLifecycle 0 anchorParams) blankDev).bs 24 97 = zeroBytes 97 := by decide +kernel
    have e4 : (signedCmd (sg specCruLifecycle 0 anchorParams) blankDev).u32 20 = 5 := by decide +kernel
    have kl : (blankDev.transportKek false (zeroBytes 97) 0xFFFF 5).length = 32 := by
      simp only [Dev.transportKek, List.length_take, sha384_length]; rfl
    have wl := keyWrap_length (n := 4) kl (key := zeroBytes 32) (by decide) (by decide)
    have cl : (cmac (zeroBytes 32) (ascii "LNST-KAT" ++ leBytes 2 0xFFFF ++ leBytes 4 5 ++ [0, 0])).length = 16 := cmac_len _ (by decide)
    refine ⟨by decide +kernel, by decide +kernel, by decide +kernel, by decide +kernel, by decide +kernel, by decide +kernel, by decide +kernel, by decide +kernel, by decide +kernel, ?_, ?_⟩
    · rw [signedDev_kek]
      change (signedCmd (sg specCruLifecycle 0 anchorParams) blankDev).bs 121 40 = keyWrap (blankDev.transportKek false ((signedCmd (sg specCruLifecycle 0 anchorParams) blankDev).bs 24 97) 0xFFFF ((signedCmd (sg specCruLifecycle 0 anchorParams) blankDev).u32 20)) _
      rw [e8, e4]
      unfold Cmd.bs
      rw [e]
      exact bytesAt_mid _ _ _ (by decide +kernel) wl.symm
    · change (signedCmd (sg specCruLifecycle 0 anchorParams) blankDev).bs 161 16 = cmac _ (ascii "LNST-KAT" ++ leBytes 2 0xFFFF ++ leBytes 4 ((signedCmd (sg specCruLifecycle 0 anchorParams) blankDev).u32 20) ++ [0, 0])
      rw [e4]
      unfold Cmd.bs
      rw [e]
      unfold anchorParams
      rw [← List.append_assoc]
      exact bytesAt_mid _ _ _ (by rw [List.length_append, wl]; decide +kernel) cl.symm)
theorem wit_CrucibleCommandsKeepKeys_5 : WitOk specCruLifecycle (sg specCruLifecycle 0 jtagParams) jtagDev (fun c d => d.cru.ready = true ∧ d.cru.life
  = .returned ∧ Life.ofCode (c.u8 0) = some .returned ∧ d.tokenRight c vendorAnchor = true) :=
  wit_signed _ _ _ _ (by decide +kernel) (by
    have e := signed_params specCruLifecycle 0 jtagParams jtagDev
    have vl : vendorAnchor.length = 32 := by simp [vendorAnchor]
    have cl : (jtagDev.token vendorAnchor (zeroBytes 16) .returned).length = 16 := cmac_len _ vl
    have el : (signedCmd (sg specCruLifecycle 0 jtagParams) jtagDev).lifeNamed = .returned := by decide +kernel
    refine ⟨by decide +kernel, by decide +kernel, by decide +kernel, ?_⟩
    have et : (signedCmd (sg specCruLifecycle 0 jtagParams) jtagDev).bs 4 16 = jtagDev.token vendorAnchor (zeroBytes 16) .returned := by
      unfold Cmd.bs
      rw [e]
      exact bytesAt_mid _ _ _ (by decide) cl.symm
    have ec : (signedDev (sg specCruLifecycle 0 jtagParams) jtagDev).cru = jtagDev.cru := (signedDev_enters _ _).cru
    have en : reached (signedDev (sg specCruLifecycle 0 jtagParams) jtagDev).now 5 = false := by decide +kernel
    change (signedDev (sg specCruLifecycle 0 jtagParams) jtagDev).tokenOk (signedCmd (sg specCruLifecycle 0 jtagParams) jtagDev) vendorAnchor (signedCmd (sg specCruLifecycle 0 jtagParams) jtagDev).lifeNamed = true
    rw [el]
    unfold Dev.tokenOk
    rw [ec, show jtagDev.cru.challenge = some (zeroBytes 16, 5) from rfl]
    dsimp only
    rw [en, et]
    simp only [Dev.token, ec, Bool.not_false, Bool.true_and, decide_true])
theorem wit_CrucibleCommandsKeepKeys_6 : WitOk specCruSlotErase (sg specCruSlotErase 9 []) (fld) (fun (c : Cmd) (d : Dev) => d.cruOpen = true ∧ c.tgt
  < 256) :=
  wit_signed _ _ _ _ (by decide +kernel) (by decide +kernel)
theorem wit_CrucibleCommandsKeepKeys_7 : WitOk specCruSlotStatus (pkt specCruSlotStatus 198 [3, 0, 0, 0]) (fld) (fun (c : Cmd) (d : Dev) => d.cruOpen
  = true ∧ 1 ≤ c.u8 0 ∧ c.u8 0 ≤ 64 ∧ c.tgt + c.u8 0 ≤ 256) :=
  wit_plain _ _ _ _ (by decide +kernel) (by decide +kernel)
theorem wit_CrucibleCommandsKeepKeys_8 : WitOk specCruFwActivate (sg specCruFwActivate 0 [1, 0, 0, 0])
  ({ fld with cru := { fld.cru with staged := some 1 } }) (fun (c : Cmd) (d : Dev) => d.cruOpen = true ∧ d.rst.strap = 0 ∧ d.cru.staged.isSome = true)
  :=
  wit_signed _ _ _ _ (by decide +kernel) (by decide +kernel)
theorem wit_CrucibleCommandsKeepKeys_9 : WitOk specCruSlotWrite (sg specCruSlotWrite 9 slotParams) fld (fun c d => d.cruOpen = true ∧ c.tgt < 256 ∧ 1
  ≤ c.u8 0 ∧ c.u8 0 ≤ 6 ∧ (c.u8 0 = 4 → (zeroBytes 32).length = 16) ∧ (c.u8 0 ≠ 4 ∧ c.u8 0 ≠ 5 → (zeroBytes 32).length = 32) ∧ c.params.length = pad4
  (32 + partLen false + (zeroBytes 32).length) ∧ d.cru.scheme = false ∧ ((d.pslot c.tgt).written = true → (d.pslot c.tgt).gen < c.u32 4) ∧ c.bs (8 +
  partLen false) (8 + (zeroBytes 32).length) = keyWrap (d.transportKek false (c.bs 8 (partLen false)) c.tgt (c.u32 4)) (zeroBytes 32) ∧ c.bs (16 +
  partLen false + (zeroBytes 32).length) 16 = cmac (zeroBytes 32) (ascii "LNST-KAT" ++ leBytes 2 c.tgt ++ leBytes 4 (c.u32 4) ++ [0, 0])) :=
  wit_signed _ _ _ _ (by decide +kernel) (by
    have e := signed_params specCruSlotWrite 9 slotParams fld
    have e8 : (signedCmd (sg specCruSlotWrite 9 slotParams) fld).bs 8 97 = zeroBytes 97 := by decide +kernel
    have e4 : (signedCmd (sg specCruSlotWrite 9 slotParams) fld).u32 4 = 5 := by decide +kernel
    have kl : (fld.transportKek false (zeroBytes 97) 9 5).length = 32 := by
      simp only [Dev.transportKek, List.length_take, sha384_length]; rfl
    have wl := keyWrap_length (n := 4) kl (key := zeroBytes 32) (by decide) (by decide)
    have cl : (cmac (zeroBytes 32) (ascii "LNST-KAT" ++ leBytes 2 9 ++ leBytes 4 5 ++ [0, 0])).length = 16 := cmac_len _ (by decide)
    refine ⟨by decide +kernel, by decide +kernel, by decide +kernel, by decide +kernel, by decide +kernel, by decide +kernel, by decide +kernel, by decide +kernel, by decide +kernel, ?_, ?_⟩
    · rw [signedDev_kek]
      change (signedCmd (sg specCruSlotWrite 9 slotParams) fld).bs 105 40 = keyWrap (fld.transportKek false ((signedCmd (sg specCruSlotWrite 9 slotParams) fld).bs 8 97) 9 ((signedCmd (sg specCruSlotWrite 9 slotParams) fld).u32 4)) _
      rw [e8, e4]
      unfold Cmd.bs
      rw [e]
      exact bytesAt_mid _ _ _ (by decide +kernel) wl.symm
    · change (signedCmd (sg specCruSlotWrite 9 slotParams) fld).bs 145 16 = cmac _ (ascii "LNST-KAT" ++ leBytes 2 9 ++ leBytes 4 ((signedCmd (sg specCruSlotWrite 9 slotParams) fld).u32 4) ++ [0, 0])
      rw [e4]
      unfold Cmd.bs
      rw [e]
      unfold slotParams
      rw [← List.append_assoc]
      exact bytesAt_mid _ _ _ (by rw [List.length_append, wl]; decide +kernel) cl.symm)
theorem wit_CrucibleCommandsKeepKeys_10 : Dev.passesBulk specCruFwStage stagePacket fld = true ∧ (Dev.devIn specCruFwStage stagePacket fld).host.bulk
  = none ∧ (bulkDescs stagePacket.bulk (Dev.cmdIn specCruFwStage stagePacket fld).params).isSome = true :=
  by decide +kernel

/-! O27 KeysLoadAndCheckPagesRun -/

theorem wit_KeysLoadAndCheckPagesRun_1 : (fun (d : Dev) (ch : List Byte) (t : Raw) => d.cru.challenge = some (ch, t))
  ({ fld with cru := { fld.cru with challenge := some ([], 0) } }) ([]) (0) :=
  by decide +kernel
theorem wit_KeysLoadAndCheckPagesRun_2 : (fun (d : Dev) (t : Raw) => d.cru.lockEnd = some t) ({ fld with cru := { fld.cru with lockEnd := some 0 } })
  (0) :=
  by decide +kernel
theorem wit_KeysLoadAndCheckPagesRun_3 : (fun (d : Dev) => d.cru.entropyOk = true) (fld) :=
  by decide +kernel
theorem wit_KeysLoadAndCheckPagesRun_4 : (fun (d : Dev) => d.cru.entropyOk = false) ({ rdy with cru := { entropyOk := false } }) :=
  by decide +kernel
theorem wit_KeysLoadAndCheckPagesRun_5 : (fun (d : Dev) (slot : Nat) (ack : BitVec 32) => d.volatileHeld slot = true ∧ (ack ≠ loadAck (d.volatileKey
  slot) → mgetD d.cru.loadFails slot 0 < 3)) ({ rdy with msec := { sas := [(8, { st := .ready })] } }) (8) (loadAck []) :=
  by decide +kernel
theorem wit_KeysLoadAndCheckPagesRun_6 : (fun (d : Dev) (slot : Nat) (ack : BitVec 32) => d.volatileHeld slot = true ∧ ack ≠ loadAck (d.volatileKey
  slot) ∧ 3 ≤ mgetD d.cru.loadFails slot 0) ({ rdy with msec := { sas := [(8, { st := .ready })] }, cru := { loadFails := [(8, 3)] } }) (8) (loadAck
  [] + 1) :=
  by decide +kernel
theorem wit_KeysLoadAndCheckPagesRun_7 : (fun (d : Dev) (page : Nat) (value : BitVec 32) (key : List Byte) => d.hostOk = true ∧ 4 ≤ page ∧ page < 16 ∧
  (d.chkPage page).st.busy = false ∧ (d.chkPage page).st ≠ .waitData ∧ d.chkKey (value.toNat % 256) = some key ∧ 0 < (d.chkPage page).len ∧ (d.chkPage
  page).len ≤ 3840 ∧ (value.getLsbD 30 = true ∨ (d.chkPage page).len % 16 = 0))
  ({ fld with
     host := { fld.host with linkUp := true }, chk := [(4, { len := 32 })],
     cru := { fld.cru with slots := [(7, { kind := 6, key := zeroBytes 32 })] } }) (4) (0x40000007) (zeroBytes 32) :=
  by decide +kernel
theorem wit_KeysLoadAndCheckPagesRun_8 : (fun (d : Dev) (page : Nat) (value : BitVec 32) (key : List Byte) => d.hostOk = true ∧ 4 ≤ page ∧ page < 16 ∧
  (d.chkPage page).st = .waitData ∧ (d.chkPage page).key = some key ∧ 0 < (d.chkPage page).len ∧ (d.chkPage page).len ≤ 3840 ∧ (value.getLsbD 30 =
  true ∨ (d.chkPage page).len % 16 = 0))
  ({ fld with host := { fld.host with linkUp := true }, chk := [(4, { st := .waitData, key := some (zeroBytes 32), len := 32 })] }) (4) (0x40000007)
  (zeroBytes 32) :=
  by decide +kernel
theorem wit_KeysLoadAndCheckPagesRun_9 : (fun (d : Dev) (page : Nat) (value : BitVec 32) => d.hostOk = true ∧ 4 ≤ page ∧ page < 16 ∧ (d.chkPage
  page).st.busy = true) ({ fld with host := { fld.host with linkUp := true }, chk := [(4, { st := .running })] }) (4) (0) :=
  by decide +kernel
theorem wit_KeysLoadAndCheckPagesRun_10 : (fun (d : Dev) (page : Nat) => d.hostOk = true ∧ 4 ≤ page ∧ page < 16 ∧ ((d.chkPage page).st.busy = true ∨
  (d.chkPage page).st = .waitData)) ({ fld with host := { fld.host with linkUp := true }, chk := [(4, { st := .running })] }) (4) :=
  by decide +kernel
theorem wit_KeysLoadAndCheckPagesRun_11 : (fun (d : Dev) (page : Nat) => (d.chkPage page).st = .running ∧ (d.chkPage page).last = false)
  ({ fld with chk := [(4, { st := .running, len := 16, data := zeroBytes 16 })] }) (4) :=
  by decide +kernel
theorem wit_KeysLoadAndCheckPagesRun_12 : (fun (d : Dev) (page : Nat) (key : List Byte) (msg : List Byte) => (d.chkPage page).st = .running ∧
  (d.chkPage page).last = true ∧ (d.chkPage page).key = some key ∧ msg = (d.chkPage page).msg ++ (d.chkPage page).data.take (d.chkPage page).len)
  ({ fld with chk := [(4, { st := .running, last := true, len := 16, data := zeroBytes 16, key := some (zeroBytes 32) })] }) (4) (zeroBytes 32)
  (zeroBytes 16) :=
  by decide +kernel

/-! O28 ResetsReturnThePackage -/

theorem wit_ResetsReturnThePackage_1 : (fun (d : Dev) => d.pwr.pstate ≠ .unpowered ∧ d.pwr.pstate ≠ .aon ∧ d.pwr.pinReset.ignored = false)
  ({ rdy with pwr := { pstate := .operating } }) :=
  by decide +kernel
theorem wit_ResetsReturnThePackage_2 : (fun (d : Dev) => d.pwr.pstate = .aon ∧ d.pwr.pinReset.ignored = false)
  ({ rdy with pwr := { pstate := .aon } }) :=
  by decide +kernel
theorem wit_ResetsReturnThePackage_3 : (fun (d : Dev) (bootSrc : BitVec 2) (refSel : Bool) => d.pwr.pstate = .aon ∧ d.pwr.pinReset.ignored = false)
  ({ pwr := { pstate := .aon, pinReset := { asserted := true } } }) (2) (true) :=
  by decide +kernel
theorem wit_ResetsReturnThePackage_4 : (fun (d : Dev) (bootSrc : BitVec 2) (refSel : Bool) => d.pwr.pstate ≠ .aon ∧ d.pwr.pinReset.ignored = true)
  ({ rdy with pwr := { pstate := .operating, pinReset := { asserted := true, ignored := true } } }) (2) (true) :=
  by decide +kernel
theorem wit_ResetsReturnThePackage_5 : (fun (d : Dev) => d.inReset = false) ({ rdy with pwr := { pstate := .operating } }) :=
  by decide +kernel
theorem wit_ResetsReturnThePackage_6 : (fun (d : Dev) => d.inWarm = true)
  ({ pwr := { pstate := .boot }, rst := { stage := .load, warmBoot := true } }) :=
  by decide +kernel
theorem wit_ResetsReturnThePackage_7 : (fun (d : Dev) => d.inReset = true ∧ d.inWarm = false) ({}) :=
  by decide +kernel

/-! O29 ImagesAndTilesBoot -/

theorem wit_ImagesAndTilesBoot_1 : (fun (d : Dev) (a : Nat) (b : Nat) => d.linkExists a b = true ∧ d.linksTrain = true)
  ({ rdy with pwr := { pstate := .operating } }) (0) (2) :=
  by decide +kernel
theorem wit_ImagesAndTilesBoot_2 : (fun (d : Dev) (a : Nat) (b : Nat) => d.linkExists a b = true ∧ d.linkUpAB a b = false ∧ d.linksTrain = true)
  ({ rdy with pwr := { pstate := .operating } }) (0) (2) :=
  by decide +kernel
theorem wit_ImagesAndTilesBoot_3 : (fun (d : Dev) (a : Nat) (b : Nat) => d.linkExists a b = true ∧ d.linkUpAB a b = true)
  ({ rdy with rst := { rdy.rst with links := [(linkKey 0 2, true)] } }) (0) (2) :=
  by decide +kernel
theorem wit_ImagesAndTilesBoot_4 : (fun (d : Dev) (image : BootImage) (a : Dev) => d.rst.stage = .load ∧ d.rst.loadGo = false ∧ d.pwr.pfw = false ∧ a
  = d.flashAwake.directory image ∧ (a.rst.slotTry < 2 → image.answers = true ∧ (a.rst.strap = 0 → image.dirOk = true ∨ image.copyOk = true)) ∧
  image.size ≤ 2 ^ 24 ∧ (if a.cru.scheme then image.mldsaOk else image.ecdsaOk) = true ∧ image.stage = a.rst.stages + 1 ∧ image.stage ≤ 4)
  ({ rst := { stage := .load } }) ({ stage := 1, bytes := [1, 2], ecdsaOk := true, answers := true, dirOk := true }) (Dev.directory (Dev.flashAwake
  { rst := { stage := .load } }) { stage := 1, bytes := [1, 2], ecdsaOk := true, answers := true, dirOk := true }) :=
  by decide +kernel
theorem wit_ImagesAndTilesBoot_5 : (fun (d : Dev) (image : BootImage) (a : Dev) => d.rst.stage = .load ∧ d.rst.loadGo = false ∧ d.pwr.pfw = false ∧ a
  = d.flashAwake.directory image ∧ a.stageError image ≠ 0) ({ rst := { stage := .load } })
  ({ stage := 1, ecdsaOk := false, answers := true, dirOk := true }) (Dev.directory (Dev.flashAwake { rst := { stage := .load } })
  { stage := 1, ecdsaOk := false, answers := true, dirOk := true }) :=
  by decide +kernel
theorem wit_ImagesAndTilesBoot_6 : (fun (d : Dev) (value : BitVec 32) => d.rst.stage = .waitHost ∧ d.host.linkUp = true ∧ d.pwr.pfw = false)
  ({ rst := { stage := .waitHost }, host := { linkUp := true } }) (0x1001) :=
  by decide +kernel
theorem wit_ImagesAndTilesBoot_7 : (fun (d : Dev) (value : BitVec 32) => d.rst.stage ≠ .waitHost ∧ d.hostOk = true)
  ({ rdy with host := { linkUp := true } }) (0x1001) :=
  by decide +kernel
theorem wit_ImagesAndTilesBoot_8 : (fun (d : Dev) (load : HostLoad) => d.rst.loadGo = true ∧ d.rst.stage = .load ∧ d.pwr.pfw = false)
  ({ rst := { stage := .load, loadGo := true, slotTry := 2 } }) ({ listOk := true, images := [{ stage := 1, ecdsaOk := true }] }) :=
  by decide +kernel
theorem wit_ImagesAndTilesBoot_9 : (fun (d : Dev) (failed : List Nat) => d.rst.stage = .meminit ∧ d.pwr.pfw = false ∧ 0 ∈ failed)
  ({ rst := { stage := .meminit } }) ([0, 2]) :=
  by decide +kernel
theorem wit_ImagesAndTilesBoot_10 : (fun (d : Dev) (failed : List Nat) (r : Dev) => d.rst.stage = .meminit ∧ d.pwr.pfw = false ∧ 0 ∉ failed ∧ r =
  (failed.filter (fun t => t < d.nTiles)).foldl (fun d t => (d.takeOut t).raise 0x02 0x05 3 t t 0 false true) d)
  ({ rst := { stage := .meminit, warmBoot := true } }) ([2]) (Dev.raise (Dev.takeOut { rst := { stage := .meminit, warmBoot := true } } 2) 0x02 0x05 3
  2 2 0 false true) :=
  by decide +kernel
theorem wit_ImagesAndTilesBoot_11 : (fun (d : Dev) (tile : Nat) (load : TileLoad) => 0 < tile ∧ tile < d.nTiles ∧ d.ready = true ∧ (d.tile tile).st =
  .reset ∧ (d.tile tile).assayAfter = none ∧ d.linksBack tile = true ∧ load.images.map sha384 = d.rst.mlog)
  ({ rdy with
     tiles := [(0, { st := .run }), (1, { st := .run }), (2, { st := .reset }), (3, { st := .run })],
     rst := { rdy.rst with links := (Dev.allLinks {}).map (fun p => (linkKey p.1 p.2, true)) } }) (2) ({ images := [], out := 7, back := 9 }) :=
  by decide +kernel
theorem wit_ImagesAndTilesBoot_12 : (fun (d : Dev) (tile : Nat) (load : TileLoad) => 0 < tile ∧ tile < d.nTiles ∧ d.rst.stage = .tiles ∧ d.pwr.pfw =
  false ∧ (d.tile tile).st = .boot ∧ (d.tile tile).aligned = false ∧ load.images.map sha384 = d.rst.mlog)
  ({ rst := { stage := .tiles, warmBoot := true }, tiles := [(2, { st := .boot })] }) (2) ({ images := [], out := 7, back := 9 }) :=
  by decide +kernel
theorem wit_ImagesAndTilesBoot_13 : (fun (d : Dev) (tile : Nat) (load : TileLoad) => 0 < tile ∧ tile < d.nTiles ∧ d.rst.stage = .tiles ∧ d.pwr.pfw =
  false ∧ (d.tile tile).st = .boot ∧ (d.tile tile).aligned = false ∧ load.images.map sha384 ≠ d.rst.mlog)
  ({ rst := { stage := .tiles }, tiles := [(2, { st := .boot })] }) (2) ({ images := [[1]], out := 7, back := 9 }) :=
  by decide +kernel
theorem wit_ImagesAndTilesBoot_14 : (fun (d : Dev) => d.rst.stage = .tiles ∧ d.pwr.pfw = false ∧ (d.tileList.filter (fun t => t ≠ 0 && (d.tile t).st ≠
  .isolated)).all (fun t => (d.tile t).aligned && (d.tile t).st = .boot) = true ∧ d.asy.bootRun = [] ∧ d.asy.exitPend = false ∧ d.cru.transition =
  none)
  ({
     rst := { stage := .tiles },
     tiles :=
       [(0, { st := .boot, aligned := true }), (1, { st := .boot, aligned := true }), (2, { st := .isolated }), (3, { st := .boot, aligned := true })]
         }) :=
  by decide +kernel
theorem wit_ImagesAndTilesBoot_15 : (fun (d : Dev) (life : Life) => d.rst.stage = .tiles ∧ d.pwr.pfw = false ∧ (d.tileList.filter (fun t => t ≠ 0 &&
  (d.tile t).st ≠ .isolated)).all (fun t => (d.tile t).aligned && (d.tile t).st = .boot) = true ∧ d.asy.bootRun = [] ∧ d.asy.exitPend = false ∧
  d.cru.transition = some life)
  ({
     rst := { stage := .tiles }, cru := { transition := some .field },
     tiles :=
       [(0, { st := .boot, aligned := true }), (1, { st := .boot, aligned := true }), (2, { st := .isolated }), (3, { st := .boot, aligned := true })]
         }) (.field) :=
  by decide +kernel
theorem wit_ImagesAndTilesBoot_16 : (fun (d : Dev) (tile : Nat) => d.ready = true ∧ tile ≠ 0 ∧ tile < d.nTiles ∧ (d.tile tile).st = .boot ∧ (d.tile
  tile).aligned = true ∧ (d.tile tile).assayAfter = none) ({ rdy with tiles := [(0, { st := .run }), (2, { st := .boot, aligned := true })] }) (2) :=
  by decide +kernel
theorem wit_ImagesAndTilesBoot_17 : (fun (d : Dev) (tile : Nat) (set : Nat) => d.ready = true ∧ tile ≠ 0 ∧ tile < d.nTiles ∧ (d.tile tile).st = .reset
  ∧ (d.tile tile).assayAfter = some set) ({ rdy with tiles := [(0, { st := .run }), (2, { st := .reset, assayAfter := some 1 })] }) (2) (1) :=
  by decide +kernel

/-! O30 LossesAreReported -/

theorem wit_LossesAreReported_1 : (fun (d : Dev) (tile : Nat) (pair : Nat) => tile < d.nTiles ∧ pair < 2 ∧ (d.tile tile).pairBad = 0#2 ∧ d.pwr.pstate
  ≠ .aon ∧ d.pwr.pstate ≠ .unpowered) ({ rdy with pwr := { pstate := .operating } }) (2) (1) :=
  by decide +kernel
theorem wit_LossesAreReported_2 : (fun (d : Dev) (tile : Nat) (pair : Nat) => 0 < tile ∧ tile < d.nTiles ∧ pair < 2 ∧ (d.tile tile).pairBad = 1#2 <<<
  (1 - pair) ∧ d.pwr.pstate ≠ .aon ∧ d.pwr.pstate ≠ .unpowered)
  ({ rdy with pwr := { pstate := .operating }, tiles := [(0, { st := .run }), (2, { st := .run, pairBad := 1#2 })] }) (2) (1) :=
  by decide +kernel
theorem wit_LossesAreReported_3 : (fun (d : Dev) (tile : Nat) (pair : Nat) => tile = 0 ∧ pair < 2 ∧ (d.tile 0).pairBad = 1#2 <<< (1 - pair) ∧
  d.pwr.pstate ≠ .aon ∧ d.pwr.pstate ≠ .unpowered)
  ({ rdy with pwr := { pstate := .operating }, tiles := [(0, { st := .run, pairBad := 1#2 }), (2, { st := .run })] }) (0) (1) :=
  by decide +kernel
theorem wit_LossesAreReported_4 : (fun (d : Dev) (tile : Nat) (pair : Nat) => tile < d.nTiles ∧ pair < 2 ∧ (d.tile tile).pairBad = 0#2 ∧ d.pwr.pstate
  ≠ .aon ∧ d.pwr.pstate ≠ .unpowered) ({ rdy with pwr := { pstate := .operating } }) (2) (1) :=
  by decide +kernel
theorem wit_LossesAreReported_5 : (fun (d : Dev) (tile : Nat) (pair : Nat) => 0 < tile ∧ tile < d.nTiles ∧ pair < 2 ∧ (d.tile tile).pairBad = 1#2 <<<
  (1 - pair) ∧ d.pwr.pstate ≠ .aon ∧ d.pwr.pstate ≠ .unpowered)
  ({ rdy with pwr := { pstate := .operating }, tiles := [(0, { st := .run }), (2, { st := .run, pairBad := 2#2 })] }) (2) (0) :=
  by decide +kernel
theorem wit_LossesAreReported_6 : (fun (d : Dev) (tile : Nat) (pair : Nat) => tile = 0 ∧ pair < 2 ∧ (d.tile 0).pairBad = 1#2 <<< (1 - pair) ∧
  d.pwr.pstate ≠ .aon ∧ d.pwr.pstate ≠ .unpowered)
  ({ rdy with pwr := { pstate := .operating }, tiles := [(0, { st := .run, pairBad := 1#2 }), (2, { st := .run })] }) (0) (1) :=
  by decide +kernel
theorem wit_LossesAreReported_7 : (fun (d : Dev) (engine : Nat) (s : Nat) (l : List Nat) => d.tileRun (engine / 32) = true ∧ engine % 32 ∉ (d.tile
  (engine / 32)).engBad ∧ engine % 32 < 30 ∧ [30, 31].filter (fun s => !((d.tile (engine / 32)).engMove.map (fun m => m.2)).contains s && !(d.tile
  (engine / 32)).engBad.contains s) = s :: l) (rdy) (67) (30) ([31]) :=
  by decide +kernel
theorem wit_LossesAreReported_8 : (fun (d : Dev) (engine : Nat) => d.tileRun (engine / 32) = true ∧ engine % 32 ∉ (d.tile (engine / 32)).engBad ∧
  engine % 32 < 30 ∧ [30, 31].filter (fun s => !((d.tile (engine / 32)).engMove.map (fun m => m.2)).contains s && !(d.tile (engine /
  32)).engBad.contains s) = []) ({ rdy with tiles := [(2, { st := .run, engBad := [30, 31] })] }) (67) :=
  by decide +kernel
theorem wit_LossesAreReported_9 : (fun (d : Dev) => d.pwr.pinQuench.asserted = false ∧ d.ready = true) (rdy) :=
  by decide +kernel
theorem wit_LossesAreReported_10 : (fun (d : Dev) => d.pwr.pinQuench.asserted = false ∧ d.ready = false) ({}) :=
  by decide +kernel
theorem wit_LossesAreReported_11 : (fun (d : Dev) => d.pwr.pinQuench.asserted = true) ({ rdy with pwr := { pinQuench := { asserted := true } } }) :=
  by decide +kernel
theorem wit_LossesAreReported_12 : (fun (d : Dev) (n : Nat) => n < 4 ∧ (mgetD d.pwr.pinProt n {}).asserted = false) (rdy) (2) :=
  by decide +kernel
theorem wit_LossesAreReported_13 : (fun (d : Dev) (n : Nat) => n < 4 ∧ (mgetD d.pwr.pinProt n {}).asserted = true)
  ({ rdy with pwr := { pinProt := [(2, { asserted := true })] } }) (2) :=
  by decide +kernel
theorem wit_LossesAreReported_14 : (fun (d : Dev) (input : Nat) => input ≤ 5) (rdy) (3) :=
  by decide +kernel
theorem wit_LossesAreReported_15 : (fun (d : Dev) (pin : StuckInput) (p : Pin) (r : Dev) => 2 ≤ pin.input ∧ pin.input ≤ 5 ∧ mget d.pwr.pinProt
  (pin.input - 2) = some p ∧ p.asserted = true ∧ p.ignored = false ∧ d.ready = true ∧ r = d.advanceTo (p.since + rawS 10))
  ({ rdy with pwr := { pinProt := [(2, { asserted := true })] } }) ({ input := 4, straps := { bootSrc := 0, refSel := false } })
  ({ asserted := true }) (Dev.advanceTo { rdy with pwr := { pinProt := [(2, { asserted := true })] } } (0 + rawS 10)) :=
  by decide +kernel
theorem wit_LossesAreReported_16 : (fun (d : Dev) (pin : StuckInput) (r : Dev) => pin.input = 1 ∧ d.pwr.pinQuench.asserted = true ∧
  d.pwr.pinQuench.ignored = false ∧ d.ready = true ∧ r = d.advanceTo (d.pwr.pinQuench.since + rawS d.quenchStuckS))
  ({ rdy with pwr := { pinQuench := { asserted := true } } }) ({ input := 1, straps := { bootSrc := 0, refSel := false } }) (Dev.advanceTo
  { rdy with pwr := { pinQuench := { asserted := true } } } (0 + rawS (Dev.quenchStuckS rdy))) :=
  by decide +kernel
theorem wit_LossesAreReported_17 : (fun (d : Dev) (pin : StuckInput) (r : Dev) => pin.input = 0 ∧ d.pwr.pinReset.asserted = true ∧
  d.pwr.pinReset.ignored = false ∧ d.pwr.pstate = .aon ∧ d.pwr.pfw = false ∧ d.rst.stage ≠ .ready ∧ r = d.advanceTo (d.pwr.pinReset.since + rawS 10))
  ({ pwr := { pstate := .aon, pinReset := { asserted := true } } }) ({ input := 0, straps := { bootSrc := 2, refSel := true } }) (Dev.advanceTo
  { pwr := { pstate := .aon, pinReset := { asserted := true } } } (0 + rawS 10)) :=
  by decide +kernel

/-! O31 AssayTestsTiles -/

theorem wit_AssayTestsTiles_1 : WitOk specAssayStart (sg specAssayStart 0 [4, 0, 0, 0]) (rdy) (fun (c : Cmd) (d : Dev) => d.awaiting c.p.chan < 64 ∧
  (c.u8 1 = 0 ∧ bitN (c.u8 0) 0 = false ∧ ((List.range 8).filter (fun t => bitN (c.u8 0) t)).all (fun t => t < d.nTiles && d.tileRun t && (d.tile
  t).level < 2) = true)) :=
  wit_signed _ _ _ _ (by decide +kernel) (by decide +kernel)
theorem wit_AssayTestsTiles_2 : WitOk specAssayStart (sg specAssayStart 0 [5, 0, 0, 0]) (rdy) (fun (c : Cmd) (d : Dev) => c.u8 1 = 0 ∧ bitN (c.u8 0) 0
  = true ∧ ((List.range 8).filter (fun t => bitN (c.u8 0) t)).all (fun t => t < d.nTiles && d.tileRun t && (d.tile t).level < 2) = true) :=
  wit_signed _ _ _ _ (by decide +kernel) (by decide +kernel)
theorem wit_AssayTestsTiles_3 : WitOk specAssayStart (sg specAssayStart 0 [4, 1, 0, 0]) (rdy) (fun (c : Cmd) (d : Dev) => c.u8 1 = 1 ∧ ((List.range
  8).filter (fun t => bitN (c.u8 0) t)).all (fun t => t < d.nTiles) = true) :=
  wit_signed _ _ _ _ (by decide +kernel) (by decide +kernel)
theorem wit_AssayTestsTiles_4 : WitOk specAssayConfig (sg specAssayConfig 0 [1, 2, 0, 0]) (rdy) (fun (c : Cmd) (d : Dev) => c.u8 0 ≤ 2 ∧ c.u8 1 ≤ 2)
  :=
  wit_signed _ _ _ _ (by decide +kernel) (by decide +kernel)
theorem wit_AssayTestsTiles_5 : WitOk specAssayResult (pkt specAssayResult 0 []) (rdy) (fun (c : Cmd) (d : Dev) => True) :=
  wit_plain _ _ _ _ (by decide +kernel) (by decide +kernel)
theorem wit_AssayTestsTiles_6 : (fun (d : Dev) (tile : Nat) (patterns : Nat) (sig : BitVec 128) (golden : BitVec 128) (reason : Nat) (r : Dev) =>
  (d.asyTile tile).running = true ∧ tile ≠ 0 ∧ patterns = patternsOf (d.asyTile tile).set ∧ sig = golden ∧ r = d.advanceTo ((d.asyTile tile).since +
  rawMs (scanMs (d.asyTile tile).set))) ({ rdy with asy := { tiles := [(2, { running := true })] } }) (2) (16384) (5) (5) (0) (Dev.advanceTo
  { rdy with asy := { tiles := [(2, { running := true })] } } (0 + rawMs (scanMs 0))) :=
  by decide +kernel
theorem wit_AssayTestsTiles_7 : (fun (d : Dev) (tile : Nat) (patterns : Nat) (sig : BitVec 128) (golden : BitVec 128) (reason : Nat) => (d.asyTile
  tile).running = true ∧ tile ≠ 0 ∧ patterns = patternsOf (d.asyTile tile).set ∧ sig ≠ golden ∧ d.asy.bootRun.contains tile = false)
  ({ rdy with asy := { tiles := [(2, { running := true })] } }) (2) (16384) (5) (6) (0) :=
  by decide +kernel
theorem wit_AssayTestsTiles_8 : (fun (d : Dev) (tile : Nat) (patterns : Nat) (sig : BitVec 128) (golden : BitVec 128) (reason : Nat) => (d.asyTile
  tile).running = true ∧ tile ≠ 0 ∧ patterns ≠ patternsOf (d.asyTile tile).set ∧ d.asy.bootRun.contains tile = false)
  ({ rdy with asy := { tiles := [(2, { running := true })] } }) (2) (100) (5) (6) (2) :=
  by decide +kernel
theorem wit_AssayTestsTiles_9 : (fun (d : Dev) (tile : Nat) (patterns : Nat) (sig : BitVec 128) (golden : BitVec 128) (reason : Nat) => (d.asyTile
  0).running = true ∧ tile = 0 ∧ patterns = patternsOf (d.asyTile 0).set ∧ sig ≠ golden ∧ d.asy.bootRun.contains 0 = false)
  ({ asy := { tiles := [(0, { running := true })] } }) (0) (16384) (5) (6) (0) :=
  by decide +kernel
theorem wit_AssayTestsTiles_10 : (fun (d : Dev) (tile : Nat) => (d.asyTile tile).waits = true) ({ asy := { tiles := [(2, { waits := true })] } }) (2)
  :=
  by decide +kernel

/-! O32 TimeMovesOnlyByRateAndStep -/

theorem wit_TimeMovesOnlyByRateAndStep_1 : (fun (d : Dev) (value : BitVec 32) => d.hostOk = true ∧ d.hostServo = true ∧ 0 ≤ d.netU ∧ d.netU < 2 ^ 48 *
  1000000000 * 65536) ({ rdy with host := { rdy.host with linkUp := true }, regs := [(0x324, 0x80000000)] }) (12345) :=
  by decide +kernel
theorem wit_TimeMovesOnlyByRateAndStep_2 : (fun (d : Dev) (value : BitVec 32) => d.hostOk = true ∧ d.hostServo = false)
  ({ rdy with host := { rdy.host with linkUp := true } }) (12345) :=
  by decide +kernel
theorem wit_TimeMovesOnlyByRateAndStep_3 : (fun (d : Dev) (value : BitVec 32) => d.hostOk = true ∧ value.getLsbD 31 = true ∧ d.stepAllowed (min
  999999999 (value.toNat % 2 ^ 30)) = true) ({ rdy with host := { rdy.host with linkUp := true } }) (0x80000005) :=
  by decide +kernel
theorem wit_TimeMovesOnlyByRateAndStep_4 : (fun (d : Dev) (value : BitVec 32) => d.hostOk = true ∧ value.getLsbD 31 = true ∧ d.stepAllowed (min
  999999999 (value.toNat % 2 ^ 30)) = false) ({ rdy with host := { rdy.host with linkUp := true }, time := { st := .locked } }) (0x80000005) :=
  by decide +kernel
theorem wit_TimeMovesOnlyByRateAndStep_5 : (fun (d : Dev) (value : BitVec 32) => d.hostOk = true ∧ value.getLsbD 31 = false)
  ({ rdy with host := { rdy.host with linkUp := true } }) (5) :=
  by decide +kernel
theorem wit_TimeMovesOnlyByRateAndStep_6 : WitOk specTimeStep (pkt specTimeStep 0 [1, 0, 0, 0, 5, 0, 0, 0]) (rdy) (fun (c : Cmd) (d : Dev) => c.u32 4
  ≤ 999999999 ∧ d.stepAllowed (c.u32 4) = true) :=
  wit_plain _ _ _ _ (by decide +kernel) (by decide +kernel)
theorem wit_TimeMovesOnlyByRateAndStep_7 : WitOk specTimePtpPort (pkt specTimePtpPort 3 [1, 24, 3, 0]) (rdy) (fun (c : Cmd) (d : Dev) => c.tgt <
  d.nSubs ∧ d.tileRun (tileOfSub c.tgt) = true ∧ 24 ≤ c.u8 1 ∧ c.u8 1 ≤ 43 ∧ (c.u8 0 ≤ 1 ∨ c.u8 0 = 2 ∧ d.time.ppsOk = true ∧ d.time.todSet = true))
  :=
  wit_plain _ _ _ _ (by decide +kernel) (by decide +kernel)
theorem wit_TimeMovesOnlyByRateAndStep_8 : WitOk specTimePhyLatency (pkt specTimePhyLatency 3 [1, 0, 0, 0, 2, 0, 0, 0]) (rdy) (fun (c : Cmd) (d : Dev)
  => c.tgt < d.nSubs ∧ d.tileRun (tileOfSub c.tgt) = true) :=
  wit_plain _ _ _ _ (by decide +kernel) (by decide +kernel)
theorem wit_TimeMovesOnlyByRateAndStep_9 : WitOk specTimeTod (pkt specTimeTod 1 []) (svc) (fun (c : Cmd) (d : Dev) => d.chanOk c.tgt = true ∧
  d.tileRun (tileOfChan c.tgt) = true ∧ (d.chan c.tgt).st ≠ .disabled ∧ c.params.length = 0) :=
  wit_plain _ _ _ _ (by decide +kernel) (by decide +kernel)
theorem wit_TimeMovesOnlyByRateAndStep_10 : WitOk specTimeTod (pkt specTimeTod 1 [3, 0, 0, 0, 0, 0, 0, 0]) (svc) (fun (c : Cmd) (d : Dev) => d.chanOk
  c.tgt = true ∧ d.tileRun (tileOfChan c.tgt) = true ∧ (d.chan c.tgt).st ≠ .disabled ∧ c.params.length = 8 ∧ 1 ≤ d.superAhead (c.tgt % 4) (c.u64 0) ∧
  d.superAhead (c.tgt % 4) (c.u64 0) ≤ 16000) :=
  wit_plain _ _ _ _ (by decide +kernel) (by decide +kernel)
theorem wit_TimeMovesOnlyByRateAndStep_11 : WitOk specTimeStatus (pkt specTimeStatus 0 []) (rdy) (fun (c : Cmd) (d : Dev) => True) :=
  wit_plain _ _ _ _ (by decide +kernel) (by decide +kernel)

/-! O33 SourcesAndReferencesHold -/

theorem wit_SourcesAndReferencesHold_1 : (fun (d : Dev) (refB : Bool) => d.refGood refB = true ∧ d.time.useB = refB ∧ d.refGood (!refB) = true ∧
  d.refclkCfg = 0) ({ rdy with time := { goodA := true, goodB := true } }) (false) :=
  by decide +kernel
theorem wit_SourcesAndReferencesHold_2 : (fun (d : Dev) (refB : Bool) => d.refGood refB = true ∧ d.refGood (!refB) = true ∧ (d.time.useB ≠ refB ∨
  d.refclkCfg ≠ 0)) ({ rdy with time := { goodA := true, goodB := true } }) (true) :=
  by decide +kernel
theorem wit_SourcesAndReferencesHold_3 : (fun (d : Dev) (refB : Bool) => d.refGood refB = true ∧ d.refGood (!refB) = false)
  ({ rdy with time := { goodA := true } }) (false) :=
  by decide +kernel
theorem wit_SourcesAndReferencesHold_4 : (fun (d : Dev) (refB : Bool) => d.refGood refB = false) ({ rdy with time := { goodB := false } }) (true) :=
  by decide +kernel
theorem wit_SourcesAndReferencesHold_5 : (fun (d : Dev) (ppm : Nat) => d.time.goodA = true ∧ d.time.goodB = true ∧ 100 < ppm)
  ({ rdy with time := { goodA := true, goodB := true } }) (120) :=
  by decide +kernel
theorem wit_SourcesAndReferencesHold_6 : (fun (d : Dev) (t : Raw) => d.time.bothLostAt = some t) ({ rdy with time := { bothLostAt := some 0 } }) (0)
  :=
  by decide +kernel
theorem wit_SourcesAndReferencesHold_7 : (fun (d : Dev) => d.ready = true ∧ d.time.ppsLast.all (fun t => (rawMs 500).toNat ≤ (d.now - t).toNat) = true
  ∧ ¬ (d.time.st = .locked ∧ d.time.source = 3 ∧ 10000 < (offSecond (stamp100 d.netU - 10 * d.ppsInDelay)).natAbs)) (rdy) :=
  by decide +kernel
theorem wit_SourcesAndReferencesHold_8 : (fun (d : Dev) => d.ready = true ∧ d.time.ppsLast.all (fun t => (rawMs 500).toNat ≤ (d.now - t).toNat) = true
  ∧ d.time.st = .locked ∧ d.time.source = 3 ∧ 10000 < (offSecond (stamp100 d.netU - 10 * d.ppsInDelay)).natAbs)
  ({ rdy with time := { st := .locked, source := 3, offNs := 500000 } }) :=
  by decide +kernel
theorem wit_SourcesAndReferencesHold_9 : (fun (d : Dev) => d.ready = false ∨ d.time.ppsLast.any (fun t => (d.now - t).toNat < (rawMs 500).toNat) =
  true) ({ rdy with time := { ppsLast := some 0 } }) :=
  by decide +kernel
theorem wit_SourcesAndReferencesHold_10 : (fun (d : Dev) (t : Raw) => d.time.ppsOk = true ∧ d.time.ppsLast = some t)
  ({ rdy with time := { ppsOk := true, ppsLast := some 0 } }) (0) :=
  by decide +kernel
theorem wit_SourcesAndReferencesHold_11 : (fun (d : Dev) (subport : Nat) (f : PtpFrame) (p : PtpPort) => d.ptpOf subport = some p ∧ f.domain =
  p.domain ∧ f.kind = .delayReq ∧ p.slave = false ∧ p.clockType ≠ 0)
  ({ rdy with subs := [(3, { enabled := true })], time := { ptp := [(3, { enabled := true, domain := 24, clockType := 1 })] } }) (3)
  ({ domain := 24, kind := .delayReq }) ({ enabled := true, domain := 24, clockType := 1 }) :=
  by decide +kernel
theorem wit_SourcesAndReferencesHold_12 : (fun (d : Dev) (subport : Nat) (f : PtpFrame) (p : PtpPort) => d.ptpOf subport = some p ∧ f.domain =
  p.domain ∧ f.kind = .sync)
  ({ rdy with subs := [(3, { enabled := true })], time := { ptp := [(3, { enabled := true, domain := 24, slave := true })] } }) (3)
  ({ domain := 24, kind := .sync }) ({ enabled := true, domain := 24, slave := true }) :=
  by decide +kernel
theorem wit_SourcesAndReferencesHold_13 : (fun (d : Dev) (subport : Nat) (f : PtpFrame) (p : PtpPort) => d.ptpOf subport = some p ∧ f.domain =
  p.domain ∧ f.kind = .followUp)
  ({ rdy with subs := [(3, { enabled := true })], time := { ptp := [(3, { enabled := true, domain := 24, slave := true })] } }) (3)
  ({ domain := 24, kind := .followUp }) ({ enabled := true, domain := 24, slave := true }) :=
  by decide +kernel
theorem wit_SourcesAndReferencesHold_14 : (fun (d : Dev) (subport : Nat) (f : PtpFrame) (p : PtpPort) => d.ptpOf subport = some p ∧ f.domain =
  p.domain ∧ f.kind = .announce) ({ rdy with subs := [(3, { enabled := true })], time := { ptp := [(3, { enabled := true, domain := 24 })] } }) (3)
  ({ domain := 24, kind := .announce, best := true }) ({ enabled := true, domain := 24 }) :=
  by decide +kernel
theorem wit_SourcesAndReferencesHold_15 : (fun (d : Dev) (subport : Nat) (kind : PtpKind) (p : PtpPort) => d.ptpOf subport = some p ∧ (kind =
  .delayReq ∧ p.slave = true ∨ (kind = .announce ∨ kind = .sync ∨ kind = .followUp ∧ p.twoStep = true) ∧ p.slave = false ∧ p.clockType ≠ 0))
  ({ rdy with subs := [(3, { enabled := true })], time := { ptp := [(3, { enabled := true, domain := 24, slave := true })] } }) (3) (.delayReq)
  ({ enabled := true, domain := 24, slave := true }) :=
  by decide +kernel
theorem wit_SourcesAndReferencesHold_16 : (fun (d : Dev) (subport : Nat) (p : PtpPort) => mget d.time.ptp subport = some p ∧ p.slave = true)
  ({ rdy with time := { ptp := [(3, { enabled := true, domain := 24, slave := true })] } }) (3) ({ enabled := true, domain := 24, slave := true }) :=
  by decide +kernel
theorem wit_SourcesAndReferencesHold_17 : (fun (d : Dev) (t : Raw) (r : Dev) => d.time.st = .acquiring ∧ d.time.goodSince = some t ∧ d.ready = true ∧
  r = d.advanceTo (t + rawS 16)) ({ rdy with time := { st := .acquiring, goodSince := some 0 } }) (0) (Dev.advanceTo
  { rdy with time := { st := .acquiring, goodSince := some 0 } } (0 + rawS 16)) :=
  by decide +kernel
theorem wit_SourcesAndReferencesHold_18 : (fun (d : Dev) (t : Raw) => d.time.st = .holdover ∧ d.time.holdoverAt = some t ∧ d.condHolds 0x05 0x04 0xFF
  0xFFFFFFFF = false) ({ rdy with time := { st := .holdover, holdoverAt := some 0 } }) (0) :=
  by decide +kernel
theorem wit_SourcesAndReferencesHold_19 : (fun (d : Dev) (tile : Nat) (err16 : Int) => tile ≠ 0 ∧ d.tileRun tile = true ∧ d.thisCycle d.time.rawA =
  false) ({ rdy with time := { raw := 1000000 } }) (2) (100) :=
  by decide +kernel
theorem wit_SourcesAndReferencesHold_20 : (fun (d : Dev) (tile : Nat) (err16 : Int) => d.thisCycle d.time.rawA = true) (rdy) (2) (100) :=
  by decide +kernel
theorem wit_SourcesAndReferencesHold_21 : (fun (d : Dev) (tile : Nat) (t : Raw) => tile ≠ 0 ∧ d.tileRun tile = true ∧ (d.tile tile).timeErrAt = some
  t) ({ rdy with tiles := [(0, { st := .run }), (2, { st := .run, timeErrAt := some 0 })] }) (2) (0) :=
  by decide +kernel

/-! O34 JoinCommandsActOnTheTree -/

theorem wit_JoinCommandsActOnTheTree_1 : WitOk specJoinConfig (sg specJoinConfig 0 ([7, 0, 3, 0x82, 2] ++ zeroBytes 71 ++ List.replicate 32 0xFF))
  (asRoot) (fun (c : Cmd) (d : Dev) => c.u16 0 ≤ 511 ∧ sysPorts.all (fun p => -1000 ≤ signedOf 16 (c.u16 (68 + 2 * p)) && signedOf 16 (c.u16 (68 + 2 *
  p)) ≤ 1000) = true ∧ (List.range 16).all (fun i => c.u16 (76 + 2 * i) = 0xFFFF || c.u16 (76 + 2 * i) ≤ 511) = true ∧ sysPorts.all (fun p =>
  d.tileRun (d.sysPortTile p)) = true ∧ c.u16 0 = d.join.ownId ∧ (if (c.bitmap 3 64).isEmpty then none else some (c.bitmap 3 64)) = d.join.members ∧
  d.join.members.isSome = true ∧ d.join.st ≠ .alone) :=
  wit_signed _ _ _ _ (by decide +kernel) (by decide +kernel)
theorem wit_JoinCommandsActOnTheTree_2 : WitOk specJoinConfig (sg specJoinConfig 0 ([8, 0, 3, 0x82, 2] ++ zeroBytes 71 ++ List.replicate 32 0xFF))
  (asRoot) (fun (c : Cmd) (d : Dev) => c.u16 0 ≤ 511 ∧ sysPorts.all (fun p => -1000 ≤ signedOf 16 (c.u16 (68 + 2 * p)) && signedOf 16 (c.u16 (68 + 2 *
  p)) ≤ 1000) = true ∧ (List.range 16).all (fun i => c.u16 (76 + 2 * i) = 0xFFFF || c.u16 (76 + 2 * i) ≤ 511) = true ∧ sysPorts.all (fun p =>
  d.tileRun (d.sysPortTile p)) = true ∧ (c.u16 0 ≠ d.join.ownId ∨ (if (c.bitmap 3 64).isEmpty then none else some (c.bitmap 3 64)) ≠ d.join.members))
  :=
  wit_signed _ _ _ _ (by decide +kernel) (by decide +kernel)
theorem wit_JoinCommandsActOnTheTree_3 : WitOk specJoinStatus (pkt specJoinStatus 0 []) (asRoot) (fun (c : Cmd) (d : Dev) => True) :=
  wit_plain _ _ _ _ (by decide +kernel) (by decide +kernel)
theorem wit_JoinCommandsActOnTheTree_4 : WitOk specJoinBroadcast (pkt specJoinBroadcast 0 [1, 2, 3, 4]) (asRoot) (fun (c : Cmd) (d : Dev) =>
  c.params.length ≤ 3804 ∧ d.joined = true) :=
  wit_plain _ _ _ _ (by decide +kernel) (by decide +kernel)
theorem wit_JoinCommandsActOnTheTree_5 : WitOk specJoinGroupReset (sg specJoinGroupReset 0 [5, 0, 0, 0]) (asRoot) (fun (c : Cmd) (d : Dev) =>
  d.awaiting c.p.chan < 64 ∧ (d.join.resets.any (fun r => r.group = c.u16 0) = false)) :=
  wit_signed _ _ _ _ (by decide +kernel) (by decide +kernel)
theorem wit_JoinCommandsActOnTheTree_6 : WitOk specJoinBarrier (pkt specJoinBarrier 0 ([5, 1] ++ zeroBytes 66)) (asRoot) (fun (c : Cmd) (d : Dev) =>
  d.awaiting c.p.chan < 64 ∧ (c.u8 0 ≤ 63 ∧ c.u16 66 ≤ 60000 ∧ d.joined = true ∧ (mget d.join.barriers (c.u8 0)).any (fun b => b.job ≠ 0 ||
  b.release.isSome) = false ∧ c.params.length = 68)) :=
  wit_plain _ _ _ _ (by decide +kernel) (by decide +kernel)
theorem wit_JoinCommandsActOnTheTree_7 : WitOk specJoinBarrier (pkt specJoinBarrier 0 ([5, 1] ++ zeroBytes 66 ++ Packet.bytes (pkt specSysEcho 0 [1,
  2, 3, 4]) 1)) (asRoot) (fun (c : Cmd) (d : Dev) => d.awaiting c.p.chan < 64 ∧ (c.u8 0 ≤ 63 ∧ c.u16 66 ≤ 60000 ∧ d.joined = true ∧ (mget
  d.join.barriers (c.u8 0)).any (fun b => b.job ≠ 0 || b.release.isSome) = false ∧ c.params.length ≠ 68 ∧ (d.takeEnclosed c.enclosed).1 = stOk)) :=
  wit_plain _ _ _ _ (by decide +kernel) (by decide +kernel)
theorem wit_JoinCommandsActOnTheTree_8 : ∃ t : Int, WitOk specJoinSnapshot (pkt specJoinSnapshot 0 (zeroBytes 12)) asRoot (fun c d => d.awaiting
  c.p.chan < 64 ∧ d.joined = true ∧ d.snapInstant (c.u64 0 % 2 ^ 48) (c.u32 8) = .ok t) :=
  ⟨1000000, wit_plain _ _ _ _ (by decide +kernel) ⟨by decide +kernel, by decide +kernel, ok_of (by decide +kernel)⟩⟩

/-! O35 TreesFormAndKeepTime -/

theorem wit_TreesFormAndKeepTime_1 : (fun (d : Dev) (m : SysHdr) (h0 : HelloBody) => d.heard m = true ∧ d.join.members.isSome = true ∧ m.src =
  d.join.ownId ∧ d.condHolds 0x0D 0x01 (d.sysPortTile m.port) m.port = false) (linked .detached .standby .standby) ({ port := 1, src := 7 }) ({}) :=
  by decide +kernel
theorem wit_TreesFormAndKeepTime_2 : (fun (d : Dev) (m : SysHdr) (h0 : HelloBody) (l : List Nat) => d.heard m = true ∧ d.join.members = some l ∧ m.src
  ≠ d.join.ownId ∧ l.contains m.src = false ∧ d.condHolds 0x0D 0x01 (d.sysPortTile m.port) m.port = false) (linked .detached .standby .standby)
  ({ port := 1, src := 8 }) ({}) ([1, 7, 9]) :=
  by decide +kernel
theorem wit_TreesFormAndKeepTime_3 : (fun (d : Dev) (m : SysHdr) (h0 : HelloBody) (l : List Nat) => d.heard m = true ∧ d.join.members = some l ∧ m.src
  ≠ d.join.ownId ∧ l.contains m.src = true ∧ l.contains d.join.ownId = true ∧ h0.bothListed = true ∧ (d.sysPort m.port).delay ≤ 1000000 ∧ d.condHolds
  0x0D 0x01 (d.sysPortTile m.port) m.port = false ∧ d.join.st = .attached ∧ (d.sysPort m.port).role = .parent ∧ h0.attached = true) (asChild)
  ({ port := 0, src := 1, root := 1, hops := 0 }) ({ attached := true, sum := 50 }) ([1, 7, 9]) :=
  by decide +kernel
theorem wit_TreesFormAndKeepTime_4 : (fun (d : Dev) (port : Nat) (l : List Nat) => d.join.members = some l ∧ d.ready = true) (asRoot) (1) ([1, 7, 9])
  :=
  by decide +kernel
theorem wit_TreesFormAndKeepTime_5 : (fun (d : Dev) (port : Nat) => d.ready = true ∧ (d.sysPort port).role ≠ .down) (asRoot) (1) :=
  by decide +kernel
theorem wit_TreesFormAndKeepTime_6 : (fun (d : Dev) (m : SysHdr) (t1 : BitVec 64) => d.heard m = true) (asRoot) ({ port := 1, src := 9 }) (5) :=
  by decide +kernel
theorem wit_TreesFormAndKeepTime_7 : (fun (d : Dev) (m : SysHdr) (t1 : BitVec 64) (t2 : BitVec 64) (t3 : BitVec 64) => d.heard m = true ∧ (d.sysPort
  m.port).t1 = some t1 ∧ (d.sysPort m.port).delays.length < 15)
  ({ asRoot with join := { asRoot.join with ports := [(1, { en := true, role := .child, partner := 9, t1 := some 5 })] } }) ({ port := 1, src := 9 })
  (5) (6) (7) :=
  by decide +kernel
theorem wit_TreesFormAndKeepTime_8 : (fun (d : Dev) (m : SysHdr) (t1 : BitVec 64) (t2 : BitVec 64) (t3 : BitVec 64) => d.heard m = true ∧ (d.sysPort
  m.port).t1 = some t1 ∧ (d.sysPort m.port).delays.length = 15)
  ({ asRoot with
     join := { asRoot.join with ports := [(1, { en := true, role := .child, partner := 9, t1 := some 5, delays := List.replicate 15 3 })] } })
  ({ port := 1, src := 9 }) (5) (6) (7) :=
  by decide +kernel
theorem wit_TreesFormAndKeepTime_9 : (fun (d : Dev) (port : Nat) => d.ready = true ∧ d.portUsable port = true) (asRoot) (1) :=
  by decide +kernel
theorem wit_TreesFormAndKeepTime_10 : (fun (d : Dev) (m : SysHdr) => d.heard m = true ∧ d.joined = true ∧ ((d.sysPort m.port).role = .standby ∨
  (d.sysPort m.port).role = .child) ∧ d.join.depth < 12 ∧ (d.children.filter (· ≠ m.port)).length < 3) (asRoot) ({ port := 0, src := 1 }) :=
  by decide +kernel
theorem wit_TreesFormAndKeepTime_11 : (fun (d : Dev) (m : SysHdr) => d.heard m = true ∧ d.join.st = .detached ∧ (d.sysPort m.port).asked = true ∧
  (d.sysPort m.port).role = .standby) (asking) ({ port := 0, src := 1, root := 1, hops := 0 }) :=
  by decide +kernel
theorem wit_TreesFormAndKeepTime_12 : (fun (d : Dev) (m : SysHdr) => d.heardOnTree m = true ∧ (d.sysPort m.port).role = .parent) (asChild)
  ({ port := 0, src := 1 }) :=
  by decide +kernel
theorem wit_TreesFormAndKeepTime_13 : (fun (d : Dev) (m : SysHdr) => d.heardOnTree m = true ∧ (d.sysPort m.port).role ≠ .parent) (asRoot)
  ({ port := 1, src := 9 }) :=
  by decide +kernel
theorem wit_TreesFormAndKeepTime_14 : (fun (d : Dev) => d.ready = true ∧ d.join.st = .detached ∧ sysPorts.any (fun p => d.portUsable p && (d.sysPort
  p).role = .standby && (d.sysPort p).pJoined) = false ∧ d.lowKnown = d.join.ownId) (linked .detached .down .down) :=
  by decide +kernel
theorem wit_TreesFormAndKeepTime_15 : (fun (d : Dev) (m : SysHdr) (departNs : Int) => d.heard m = true ∧ d.join.st = .attached ∧ (d.sysPort
  m.port).role = .parent) (asChild) ({ port := 0, src := 1 }) (100) :=
  by decide +kernel
theorem wit_TreesFormAndKeepTime_16 : (fun (d : Dev) (port : Nat) => d.ready = true ∧ d.joined = true ∧ (d.sysPort port).role = .child) (asRoot) (1)
  :=
  by decide +kernel
theorem wit_TreesFormAndKeepTime_17 : (fun (d : Dev) (m : SysHdr) (tOp : Nat) (members : Nat) => d.heardOnTree m = true ∧ (d.sysPort m.port).role =
  .parent) (asChild) ({ port := 0, src := 1 }) (9000) (3) :=
  by decide +kernel

/-! O36 MessagesCoordinateMembers -/

theorem wit_MessagesCoordinateMembers_1 : (fun (d : Dev) (m : SysHdr) (b : BroadcastBody) => d.heardOnTree m = true ∧ (m.src = d.join.ownId ∨
  d.join.seen.contains (m.src, m.seq) = true)) (asChild) ({ port := 0, src := 7 }) ({}) :=
  by decide +kernel
theorem wit_MessagesCoordinateMembers_2 : (fun (d : Dev) (m : SysHdr) (b : BroadcastBody) => d.heardOnTree m = true ∧ m.src ≠ d.join.ownId ∧
  d.join.seen.contains (m.src, m.seq) = false) (asChild) ({ port := 0, src := 9, seq := 4 }) ({ kind := 3, body := [1, 2] }) :=
  by decide +kernel
theorem wit_MessagesCoordinateMembers_3 : (fun (d : Dev) (x : Dev) => d.ready = true ∧ d.joined = true ∧ d.join.batch ≠ [] ∧ x = (if 112 ≤
  d.join.batch.length then d else d.advanceTo (d.join.batchAt + rawMs 1))) ({ asChild with join := { asChild.join with batch := [{}] } })
  (Dev.advanceTo { asChild with join := { asChild.join with batch := [{}] } } (0 + rawMs 1)) :=
  by decide +kernel
theorem wit_MessagesCoordinateMembers_4 : (fun (d : Dev) (m : SysHdr) (b : BarrierBody) => d.heardOnTree m = true ∧ (d.sysPort m.port).role = .child ∧
  b.n < 64 ∧ mget d.join.barriers b.n = none) (asRoot) ({ port := 1, src := 9 }) ({ n := 3, arrived := [9] }) :=
  by decide +kernel
theorem wit_MessagesCoordinateMembers_5 : (fun (d : Dev) (m : SysHdr) (b : BarrierBody) (x : Barrier) => d.heardOnTree m = true ∧ (d.sysPort
  m.port).role = .child ∧ b.n < 64 ∧ mget d.join.barriers b.n = some x ∧ d.samePart x.set b.parts = false ∧ d.join.st = .root)
  ({ asRoot with join := { asRoot.join with barriers := [(3, { set := some [7, 9] })] } }) ({ port := 1, src := 9 }) ({ n := 3, arrived := [9] })
  ({ set := some [7, 9] }) :=
  by decide +kernel
theorem wit_MessagesCoordinateMembers_6 : (fun (d : Dev) (m : SysHdr) (b : BarrierBody) (x : Barrier) => d.heardOnTree m = true ∧ (d.sysPort
  m.port).role = .child ∧ b.n < 64 ∧ mget d.join.barriers b.n = some x ∧ d.samePart x.set b.parts = true)
  ({ asRoot with join := { asRoot.join with barriers := [(3, { set := some [7, 9] })] } }) ({ port := 1, src := 9 })
  ({ n := 3, parts := some [9, 7], arrived := [9] }) ({ set := some [7, 9] }) :=
  by decide +kernel
theorem wit_MessagesCoordinateMembers_7 : (fun (d : Dev) (m : SysHdr) (b : BarrierBody) => d.heardOnTree m = true ∧ (d.sysPort m.port).role = .parent)
  (asChild) ({ port := 0, src := 1 }) ({ n := 3, release := 500 }) :=
  by decide +kernel
theorem wit_MessagesCoordinateMembers_8 : (fun (d : Dev) (m : SysHdr) (n : Nat) (status : Nat) => d.heardOnTree m = true ∧ (d.sysPort m.port).role =
  .parent) (asChild) ({ port := 0, src := 1 }) (3) (9) :=
  by decide +kernel
theorem wit_MessagesCoordinateMembers_9 : (fun (d : Dev) (n : Nat) (b : Barrier) => mget d.join.barriers n = some b ∧ d.ready = true ∧ d.join.st =
  .root ∧ b.release = none) ({ asRoot with join := { asRoot.join with barriers := [(3, {})] } }) (3) ({}) :=
  by decide +kernel
theorem wit_MessagesCoordinateMembers_10 : (fun (d : Dev) (n : Nat) (b : Barrier) (t : Int) => mget d.join.barriers n = some b ∧ b.release = some t ∧
  d.ready = true ∧ b.pkt = none) ({ asRoot with join := { asRoot.join with barriers := [(3, { release := some 125000 })] } }) (3)
  ({ release := some 125000 }) (125000) :=
  by decide +kernel
theorem wit_MessagesCoordinateMembers_11 : (fun (d : Dev) (n : Nat) (b : Barrier) (t : Int) (p : Packet) => mget d.join.barriers n = some b ∧
  b.release = some t ∧ d.ready = true ∧ b.pkt = some p)
  ({ asRoot with join := { asRoot.join with barriers := [(3, { release := some 125000, pkt := some (pkt specSysEcho 0 [1]) })] } }) (3)
  ({ release := some 125000, pkt := some (pkt specSysEcho 0 [1]) }) (125000) (pkt specSysEcho 0 [1]) :=
  by decide +kernel
theorem wit_MessagesCoordinateMembers_12 : (fun (d : Dev) (m : SysHdr) (id : Nat) (instant : Int) => d.heardOnTree m = true) (asChild)
  ({ port := 0, src := 1 }) (3) (1000000) :=
  by decide +kernel
theorem wit_MessagesCoordinateMembers_13 : (fun (d : Dev) (id : Nat) (j : SnapJob) => d.ready = true ∧ d.join.snaps.find? (fun j => j.id = id &&
  !j.taken && (id ≠ 0)) = some j) ({ asChild with join := { asChild.join with snaps := [{ id := 3 }] } }) (3) ({ id := 3 }) :=
  by decide +kernel
theorem wit_MessagesCoordinateMembers_14 : (fun (d : Dev) => d.cnt.writing.isSome = true ∧ d.cnt.queued = [] ∧ d.cnt.nextArea < d.host.gens.length)
  ({ asChild with cnt := { writing := some {} } }) :=
  by decide +kernel
theorem wit_MessagesCoordinateMembers_15 : (fun (d : Dev) (m : SysHdr) (id : Nat) => d.heardOnTree m = true) (asChild) ({ port := 1, src := 9 }) (3)
  :=
  by decide +kernel
theorem wit_MessagesCoordinateMembers_16 : (fun (d : Dev) (id : Nat) (j : SnapJob) => d.ready = true ∧ d.join.snaps.find? (fun j => j.id = id &&
  j.join && j.job ≠ 0) = some j) ({ asChild with join := { asChild.join with snaps := [{ id := 3, join := true, job := 5 }] } }) (3)
  ({ id := 3, join := true, job := 5 }) :=
  by decide +kernel
theorem wit_MessagesCoordinateMembers_17 : (fun (d : Dev) (m : SysHdr) (group : Nat) (instant : Int) => d.heardOnTree m = true) (asChild)
  ({ port := 0, src := 1 }) (3) (1000000) :=
  by decide +kernel
theorem wit_MessagesCoordinateMembers_18 : (fun (d : Dev) (group : Nat) (r : GroupReset) => d.ready = true ∧ d.join.resets.find? (fun r => r.group =
  group) = some r ∧ r.applied = false ∧ d.groupTrees group ≠ [])
  ({ asChild with groups := [(2, { gid := 3 })], join := { asChild.join with resets := [{ group := 3 }] } }) (3) ({ group := 3 }) :=
  by decide +kernel
theorem wit_MessagesCoordinateMembers_19 : (fun (d : Dev) (group : Nat) (r : GroupReset) (x : Dev) => d.ready = true ∧ d.join.resets.find? (fun r =>
  r.group = group) = some r ∧ r.applied = true ∧ r.job ≠ 0 ∧ x = d.advanceTo (r.raw + rawNs d.join.tOp + rawMs 100))
  ({ asChild with groups := [(2, { gid := 3 })], join := { asChild.join with resets := [{ group := 3, applied := true, job := 1 }] } }) (3)
  ({ group := 3, applied := true, job := 1 }) (Dev.advanceTo
  { asChild with groups := [(2, { gid := 3 })], join := { asChild.join with resets := [{ group := 3, applied := true, job := 1 }] } } (0 + rawNs
  asChild.join.tOp + rawMs 100)) :=
  by decide +kernel
theorem wit_MessagesCoordinateMembers_20 : (fun (d : Dev) (m : SysHdr) (group : Nat) => d.heardOnTree m = true) (asChild) ({ port := 1, src := 9 })
  (3) :=
  by decide +kernel
theorem wit_MessagesCoordinateMembers_21 : (fun (d : Dev) (m : SysHdr) (p : Packet) (ch : Nat) => d.heardOnTree m = true ∧ m.dst = d.join.ownId ∧
  d.join.peers.find? (fun e => e.2 = m.src) = some (ch, m.src)) ({ asChild with join := { asChild.join with peers := [(48, 9)] } })
  ({ port := 1, src := 9, dst := 7 }) (pkt specSysEcho 0 [1]) (48) :=
  by decide +kernel
theorem wit_MessagesCoordinateMembers_22 : (fun (d : Dev) (m : SysHdr) (p : Packet) => d.heardOnTree m = true ∧ m.dst ≠ d.join.ownId) (asChild)
  ({ port := 1, src := 9, dst := 1 }) (pkt specSysEcho 0 [1]) :=
  by decide +kernel
theorem wit_MessagesCoordinateMembers_23 : (fun (d : Dev) (m : SysHdr) (body : List Byte) => d.heardOnTree m = true) (asChild)
  ({ port := 1, src := 9, dst := 1 }) ([1, 2]) :=
  by decide +kernel

/-! O37 ProtectionGroupsKeepTheLease -/

theorem wit_ProtectionGroupsKeepTheLease_1 : WitOk specProtGroup (sg specProtGroup 2 ([0, 0, 3, 0, 1, 0, 4, 0, 5, 1, 0, 0, 1, 0, 9, 0] ++ zeroBytes
  16)) (rdy) (fun (c : Cmd) (d : Dev) => c.tgt < d.nTrees ∧ d.tileRun (tileOfTree c.tgt) = true ∧ d.treeOn c.tgt = [] ∧ c.u8 0 = 0 ∧ c.u8 4 ≤ 1 ∧ c.u8
  9 ≤ 1 ∧ c.u8 10 ≤ 1 ∧ (c.u16 6 = 0xFFFF → c.u8 8 < d.nTrees ∧ tileOfTree (c.u8 8) ≠ tileOfTree c.tgt ∧ c.u8 10 = 0 ∧ (c.protGroupMade d).termsCount
  (tileOfTree (c.u8 8)) ≤ 2048 ∧ (c.protGroupMade d).allocsCount (tileOfTree (c.u8 8)) ≤ 8192) ∧ (c.u16 6 ≠ 0xFFFF → c.u16 6 < 512 ∧ c.u8 8 < 64) ∧
  (c.u8 10 = 1 → c.u8 11 ≠ 0 ∧ c.u8 9 = 1) ∧ (c.u8 12 ≠ 0xFF → c.u8 12 < d.nSubs ∧ 1 ≤ c.u16 14 ∧ c.u16 14 ≤ 4094) ∧ (c.u16 6 ≠ 0xFFFF ∧ c.u8 10 = 0 →
  c.u8 12 ≠ 0xFF) ∧ -100000 ≤ c.i32 24 ∧ c.i32 24 ≤ 100000 ∧ c.u8 28 ≤ 15) :=
  wit_signed _ _ _ _ (by decide +kernel) (by decide +kernel)
theorem wit_ProtectionGroupsKeepTheLease_2 : WitOk specProtGroup (sg specProtGroup 2 ([1] ++ zeroBytes 31))
  ({ rdy with groups := [(2, { gid := 3 })] }) (fun (c : Cmd) (d : Dev) => c.tgt < d.nTrees ∧ d.tileRun (tileOfTree c.tgt) = true ∧ d.treeOn c.tgt =
  [] ∧ c.u8 0 = 1 ∧ mhas d.groups c.tgt = true) :=
  wit_signed _ _ _ _ (by decide +kernel) (by decide +kernel)
theorem wit_ProtectionGroupsKeepTheLease_3 : WitOk specProtForce (sg specProtForce 2 [1, 0, 0, 0])
  ({ rdy with groups := [(2, { gid := 3, st := .active })] }) (fun (c : Cmd) (d : Dev) => c.tgt < d.nTrees ∧ d.tileRun (tileOfTree c.tgt) = true ∧
  mhas d.groups c.tgt = true ∧ c.u8 0 ≤ 3 ∧ (c.u8 0 = 1 → ((d.group c.tgt).holding || d.unitReady c.tgt (d.group c.tgt)) = true) ∧ (c.u8 0 = 2 →
  ((d.group c.tgt).claim || (d.group c.tgt).pReady || (d.group c.tgt).pHolds) = true)) :=
  wit_signed _ _ _ _ (by decide +kernel) (by decide +kernel)
theorem wit_ProtectionGroupsKeepTheLease_4 : WitOk specProtStatus (pkt specProtStatus 2 []) (rdy) (fun (c : Cmd) (d : Dev) => c.tgt < d.nTrees ∧
  d.tileRun (tileOfTree c.tgt) = true) :=
  wit_plain _ _ _ _ (by decide +kernel) (by decide +kernel)
theorem wit_ProtectionGroupsKeepTheLease_5 : (fun (d : Dev) (tree : Nat) => mhas d.groups tree = true ∧ d.ready = true ∧ (d.group tree).claim = false
  ∧ d.tileRun (tileOfTree tree) = true) ({ rdy with groups := [(2, { gid := 3, tiles := true })] }) (2) :=
  by decide +kernel
theorem wit_ProtectionGroupsKeepTheLease_6 : (fun (d : Dev) (tree : Nat) (inband : Bool) (l : LeaseMsg) => d.leaseHeard tree inband l = true ∧
  ((d.leaseGroup tree inband l).holding && l.holds && !(d.group tree).dual && leaseHigher l.number (d.group tree).number) = true)
  ({ rdy with groups := [(2, { gid := 3, tiles := true, st := .active, number := 2 })] }) (2) (true)
  ({ group := 3, sideB := true, holds := true, number := 3 }) :=
  by decide +kernel
theorem wit_ProtectionGroupsKeepTheLease_7 : (fun (d : Dev) (tree : Nat) (inband : Bool) (l : LeaseMsg) (x : Dev) (g : Group) => d.leaseHeard tree
  inband l = true ∧ ((d.leaseGroup tree inband l).holding && l.holds && !(d.group tree).dual && leaseHigher l.number (d.group tree).number) = false ∧
  x = (d.leaseDev tree inband l).count (if inband then .renewRxInband else .renewRxSys) tree ∧ g = (d.leaseGroup tree inband l).merge l)
  ({ rdy with groups := [(2, { gid := 3, tiles := true, st := .active, number := 2 })] }) (2) (true)
  ({ group := 3, sideB := true, ready := true, number := 3 }) ((Dev.leaseDev
  { rdy with groups := [(2, { gid := 3, tiles := true, st := .active, number := 2 })] } 2 true
  { group := 3, sideB := true, ready := true, number := 3 }).count .renewRxInband 2) ((Dev.leaseGroup
  { rdy with groups := [(2, { gid := 3, tiles := true, st := .active, number := 2 })] } 2 true
  { group := 3, sideB := true, ready := true, number := 3 }).merge { group := 3, sideB := true, ready := true, number := 3 }) :=
  by decide +kernel
theorem wit_ProtectionGroupsKeepTheLease_8 : (fun (d : Dev) (tree : Nat) (inband : Bool) (l : LeaseMsg) (g : Group) => d.leaseHeard tree inband l =
  true ∧ mget (((d.leaseDev tree inband l).updGroup tree (fun g => { g with pHolds := false })).groupRefresh tree).groups tree = some g ∧ g.st =
  .standby ∧ g.mayTake = true) (stby) (2) (true) ({ group := 3, number := 2 }) (stbyGroup) :=
  ⟨by decide +kernel, by decide +kernel, by decide +kernel, by decide +kernel⟩
theorem wit_ProtectionGroupsKeepTheLease_9 : (fun (d : Dev) (tree : Nat) (inband : Bool) (l : LeaseMsg) (g : Group) => d.leaseHeard tree inband l =
  true ∧ mget ((d.leaseDev tree inband l).groupRefresh tree).groups tree = some g ∧ g.st = .standby ∧ g.dual = true ∧ g.mayTake = true) (stby) (2)
  (true) ({ group := 3, number := 2 }) ({ stbyGroup with pHolds := true }) :=
  ⟨by decide +kernel, by decide +kernel, by decide +kernel, by decide +kernel, by decide +kernel⟩
theorem wit_ProtectionGroupsKeepTheLease_10 : (fun (d : Dev) (tree : Nat) (x : Dev) (g : Group) => mhas d.groups tree = true ∧ d.ready = true ∧
  (d.group tree).claim = false ∧ d.tileRun (tileOfTree tree) = true ∧ x = (d.advanceTo ((d.group tree).lastHeard + rawMs (20 +
  d.guardMs))).groupRefresh tree ∧ mget x.groups tree = some g ∧ (g.st = .active ∨ (g.st = .standby ∨ g.st = .notReady ∧ (x.lane (tileOfTree tree)
  (tree % 8)).neg = .up ∧ x.chansReady tree = true) ∧ g.mayTake = true)) (lonely) (2) ((lonely.advanceTo (0 + rawMs (20 +
  lonely.guardMs))).groupRefresh 2) (((lonely.advanceTo (0 + rawMs (20 + lonely.guardMs))).groupRefresh 2).group 2) :=
  ⟨by decide +kernel, by decide +kernel, by decide +kernel, by decide +kernel, rfl, by decide +kernel, by decide +kernel⟩
theorem wit_ProtectionGroupsKeepTheLease_11 : (fun (d : Dev) (tree : Nat) (l : LeaseMsg) (recs : List SyncRec) => d.leaseHeard tree false l = true ∧
  (d.leaseGroup tree false l).holding = false ∧ (d.group tree).tiles = false) ({ asChild with groups := [(2, { gid := 3, st := .standby })] }) (2)
  ({ group := 3, sideB := true, number := 3 }) ([.term [1, 2, 3, 4, 5, 6, 7, 8] 2 5 100 0]) :=
  by decide +kernel
theorem wit_ProtectionGroupsKeepTheLease_12 : (fun (d : Dev) (tree : Nat) (l : LeaseMsg) (g0 : Option (BitVec 64)) (x0 : Option (BitVec 64)) (f0 :
  Option (BitVec 64)) => d.leaseHeard tree false l = true) ({ rdy with groups := [(2, { gid := 3, tiles := true })] }) (2)
  ({ group := 3, sideB := true, number := 3 }) (some 5) (none) (none) :=
  by decide +kernel
theorem wit_ProtectionGroupsKeepTheLease_13 : (fun (d : Dev) (tree : Nat) (k : Nat) (frame : Nat) (v : Group) => mget d.groups tree = some v ∧
  v.digOwn.any (fun x => x.1 = frame && x.2.1 = k) = true ∧ v.compares = false)
  ({ rdy with groups := [(2, { gid := 3, tiles := true, digOwn := [(4, 1, 7)] })] }) (2) (1) (4) ({ gid := 3, tiles := true, digOwn := [(4, 1, 7)] })
  :=
  by decide +kernel
theorem wit_ProtectionGroupsKeepTheLease_14 : (fun (d : Dev) (tree : Nat) (k : Nat) (frame : Nat) (v : Group) => mget d.groups tree = some v ∧
  v.digOwn.any (fun x => x.1 = frame && x.2.1 = k) = true ∧ v.compares = true)
  ({ rdy with groups := [(2, { gid := 3, tiles := true, st := .standby, digOwn := [(4, 1, 7)] })] }) (2) (1) (4)
  ({ gid := 3, tiles := true, st := .standby, digOwn := [(4, 1, 7)] }) :=
  by decide +kernel

/-! O38 CountersAreReadAndWatched -/

theorem wit_CountersAreReadAndWatched_1 : WitOk specCntRead (pkt specCntRead 0 ([0, 1] ++ zeroBytes 26)) (rdy) (fun (c : Cmd) (d : Dev) => c.bit 0 0 =
  false ∧ d.cntsBad ((List.range (c.u8 1)).map (fun i => c.cntAt (20 + 8 * i))) = none ∧ (((List.range (c.u8 1)).map (fun i => c.cntAt (20 + 8 *
  i))).map d.cntReply).flatten.length ≤ 3808) :=
  wit_plain _ _ _ _ (by decide +kernel) (by decide +kernel)
theorem wit_CountersAreReadAndWatched_2 : ∃ t : Int, WitOk specCntRead (pkt specCntRead 0 ([1, 0] ++ zeroBytes 18)) rdy (fun c d => d.awaiting
  c.p.chan < 64 ∧ d.cntsBad ((List.range (c.u8 1)).map (fun i => c.cntAt (20 + 8 * i))) = none ∧ c.bit 0 0 = true ∧ d.snapInstant (c.u64 4 % 2 ^ 48)
  (c.u32 12) = .ok t) :=
  ⟨1000000, wit_plain _ _ _ _ (by decide +kernel) ⟨by decide +kernel, by decide +kernel, by decide +kernel, ok_of (by decide +kernel)⟩⟩
theorem wit_CountersAreReadAndWatched_3 : WitOk specCntWrite (pkt specCntWrite 0 ([1] ++ zeroBytes 23)) (rdy) (fun (c : Cmd) (d : Dev) => d.cntsBad
  (((List.range (c.u8 0)).map (fun i => (c.cntAt (8 + 16 * i), c.u64 (16 + 16 * i)))).map (fun x => x.1)) = none) :=
  wit_plain _ _ _ _ (by decide +kernel) (by decide +kernel)
theorem wit_CountersAreReadAndWatched_4 : WitOk specCntThreshold (pkt specCntThreshold 0 (zeroBytes 8 ++ [9] ++ zeroBytes 7 ++ [64] ++ zeroBytes 15 ++
  [6, 0, 0, 0])) (rdy) (fun (c : Cmd) (d : Dev) => ringBad c 24 = none ∧ d.cntBad (c.cntAt 0).1 (c.cntAt 0).2 = stOk ∧ 1 ≤ c.u64 8 ∧ c.u64 8 ≤ 2 ^ 63
  ∧ 64 ≤ c.u8 16 ∧ (d.cntKeys (c.cntAt 0).1 (c.cntAt 0).2).any (fun k => !mhas d.cnt.thr k && 4096 ≤ (d.cnt.thr.filter (fun e => d.cntTile e.1 =
  d.cntTile k)).length) = false) :=
  wit_plain _ _ _ _ (by decide +kernel) (by decide +kernel)
theorem wit_CountersAreReadAndWatched_5 : WitOk specCntWindow (pkt specCntWindow 3 [10, 0, 0, 1]) (rdy) (fun (c : Cmd) (d : Dev) => c.u16 0 ≤ 60000 ∧
  c.u8 3 ≤ 1 ∧ (c.u8 2 = 0 ∧ c.tgt < d.nSubs ∧ d.tileRun (tileOfSub c.tgt) = true ∨ c.u8 2 = 1 ∧ d.chanOk c.tgt = true ∧ d.tileRun (tileOfChan c.tgt)
  = true ∨ c.u8 2 = 2 ∧ c.tgt < d.nTerms ∧ mhas d.terms c.tgt = true ∧ d.tileRun (d.tileOfTerm c.tgt) = true)) :=
  wit_plain _ _ _ _ (by decide +kernel) (by decide +kernel)
theorem wit_CountersAreReadAndWatched_6 : WitOk specCntSample (pkt specCntSample 0 ([4, 0x22] ++ zeroBytes 46 ++ [6, 0, 0, 0])) (rdy) (fun (c : Cmd)
  (d : Dev) => c.engineMask.all (fun e => e < d.nEngines) = true ∧ (c.u8 0 = 0 ∨ 4 ≤ c.u8 0 ∧ c.u8 0 ≤ 24 ∧ ringBad c 40 = none)) :=
  wit_plain _ _ _ _ (by decide +kernel) (by decide +kernel)
theorem wit_CountersAreReadAndWatched_7 : (fun (d : Dev) (key : Nat) (w : Window) => mget d.cnt.wins key = some w ∧ w.lenMs ≠ 0 ∧ d.ready = true)
  ({ rdy with cnt := { wins := [(5, { lenMs := 10, bytes := 4 })] } }) (5) ({ lenMs := 10, bytes := 4 }) :=
  by decide +kernel
theorem wit_CountersAreReadAndWatched_8 : (fun (d : Dev) (engine : Nat) (s : Sampling) => d.tileRun (engine / 32) = true ∧ mget d.cnt.samp engine =
  some s) ({ rdy with cnt := { samp := [(5, { k := 4 })] } }) (5) ({ k := 4 }) :=
  by decide +kernel
theorem wit_CountersAreReadAndWatched_9 : (fun (d : Dev) (engine : Nat) (r : SampleRec) (s : Sampling) (ring : Ring) (os : List Output) => mget
  d.cnt.samp engine = some s ∧ s.tag = true ∧ d.tileRun (engine / 32) = true ∧ ringPut d.cnt.smp (d.reg 0x1008) (SampleRec.bytes r d.now engine
  s.curDef) = some (ring, os)) ({ rdy with cnt := { samp := [(5, { k := 4, tag := true })], smp := { base := 64, r := 6 } } }) (5) ({})
  ({ k := 4, tag := true }) ({ base := 64, r := 6, prod := 1 })
  ((match ringPut { base := 64, r := 6 } 0 (SampleRec.bytes {} 0 5 false) with | some (_, o) => o | none => [])) :=
  ⟨by decide +kernel, by decide +kernel, by decide +kernel, by rfl⟩
theorem wit_CountersAreReadAndWatched_10 : (fun (d : Dev) (engine : Nat) (r : SampleRec) (s : Sampling) => mget d.cnt.samp engine = some s ∧ s.tag =
  true ∧ d.tileRun (engine / 32) = true ∧ ringPut d.cnt.smp (d.reg 0x1008) (SampleRec.bytes r d.now engine s.curDef) = none)
  ({ rdy with cnt := { samp := [(5, { k := 4, tag := true })], smp := {} } }) (5) ({}) ({ k := 4, tag := true }) :=
  by decide +kernel
theorem wit_CountersAreReadAndWatched_11 : let d : Dev := { rdy with regs := [(0x1138, 1)], cnt := { vals := [(cntKey .inOk 0, 7)] } }; 229376 <
  262144 ∧ 0 < d.nTiles ∧ (d.reg (0x1100 + 4 * ((0 * 512 + 229376 / 512) / 32))).testBit ((0 * 512 + 229376 / 512) % 32) = true ∧ d.cnt.vals.find?
  (fun e => d.cntTile e.1 = 0 && d.cntNum e.1 = 229376) = some (cntKey .inOk 0, 7) :=
  by decide +kernel
theorem wit_CountersAreReadAndWatched_12 : (7 ≠ 8 ∨ (0:Nat) % 8 ≠ 0 ∨ rdy.nTiles ≤ 0 / 4096 / 512 ∨ (rdy.reg (0x1100 + 4 * (0 / 4096 / 32))).testBit
  (0 / 4096 % 32) = false) :=
  by decide +kernel

/-! O39 MailboxesCarryPacketsFragmentsAndMessages -/

theorem wit_MailboxesCarryPacketsFragmentsAndMessages_1 : (fun (d : Dev) (p : Packet) => d.ready = true ∧ d.host.linkUp = true ∧ 1 ≤ p.chan ∧ p.chan <
  32 ∧ (d.mbox p.chan).send = none ∧ 32 ≤ p.sendLen ∧ p.sendLen ≤ 3840) (rdy) (pkt specSysEcho 0 [1, 2, 3, 4]) :=
  by decide +kernel
theorem wit_MailboxesCarryPacketsFragmentsAndMessages_2 : (fun (d : Dev) (p : Packet) => d.ready = true ∧ d.host.linkUp = true ∧ 1 ≤ p.chan ∧ p.chan <
  32 ∧ ((d.mbox p.chan).send.isSome = true ∨ p.sendLen < 32 ∨ 3840 < p.sendLen)) (rdy) ({ pkt specSysEcho 0 [1, 2, 3, 4] with sendLen := 20 }) :=
  by decide +kernel
theorem wit_MailboxesCarryPacketsFragmentsAndMessages_3 : (fun (d : Dev) (ch : Nat) (x : Msg) => ch < 32 ∧ d.hostOk = true ∧ (d.mbox ch).recv = some
  x) ({ rdy with host := { mbox := [(1, { recv := some { chan := 1, bytes := [1, 2] } })] } }) (1) ({ chan := 1, bytes := [1, 2] }) :=
  by decide +kernel
theorem wit_MailboxesCarryPacketsFragmentsAndMessages_4 : (fun (d : Dev) (ch : Nat) => 32 ≤ ch ∨ d.hostOk = false ∨ (d.mbox ch).recv = none) (rdy) (1)
  :=
  by decide +kernel
theorem wit_MailboxesCarryPacketsFragmentsAndMessages_5 : (fun (d : Dev) (sub : Nat) (vlan : Nat) (mac : Nat) (p : Packet) (i : Nat) => d.ready = true
  ∧ d.tileRun (tileOfSub sub) = true ∧ (d.sub sub).enabled = true ∧ (List.range 16).find? (fun i => (d.sender (32 + i)).remote = some (sub, vlan,
  mac)) = some i ∧ i < 16 ∧ (d.mbox (32 + i)).send = none ∧ 32 ≤ p.sendLen ∧ p.sendLen ≤ 3840)
  ({ rdy with subs := [(2, { enabled := true })], senders := [(33, { remote := some (2, 5, 6) })] }) (2) (5) (6) (pkt specSysEcho 0 [1, 2, 3, 4]) (1)
  :=
  by decide +kernel
theorem wit_MailboxesCarryPacketsFragmentsAndMessages_6 : (fun (d : Dev) (p : Packet) (sp : CmdSpec) => specOf p.op = some sp ∧ Dev.passesFragment sp
  p d = true) (rdy) ({ pkt specSysEcho 0 [1, 2, 3, 4] with flags := 6 }) (specSysEcho) :=
  ⟨by rfl, by decide +kernel⟩
theorem wit_MailboxesCarryPacketsFragmentsAndMessages_7 : (fun (d : Dev) (p : Packet) (sp : CmdSpec) => specOf p.op = some sp ∧ Dev.passesAs sp false
  p d = true) (rdy) (pkt specSysEcho 0 [1, 2, 3, 4]) (specSysEcho) :=
  ⟨by rfl, by decide +kernel⟩
theorem wit_MailboxesCarryPacketsFragmentsAndMessages_8 : (fun (d : Dev) (p : Packet) (sp : CmdSpec) => specOf p.op = some sp ∧ Dev.passesAs sp false
  p d = true) (rdy) (pkt specSysEcho 0 [1, 2, 3, 4]) (specSysEcho) :=
  ⟨by rfl, by decide +kernel⟩
theorem wit_MailboxesCarryPacketsFragmentsAndMessages_9 : (fun (d : Dev) (ch : Nat) => (d.mbox ch).recv.isSome = true ∧ (d.mbox ch).stall = false ∧
  d.ready = true) ({ rdy with host := { mbox := [(1, { recv := some { chan := 1, bytes := [1, 2] } })] } }) (1) :=
  by decide +kernel
theorem wit_MailboxesCarryPacketsFragmentsAndMessages_10 : (fun (d : Dev) (ch : Nat) => (d.mbox ch).recv.isSome = true ∧ (d.mbox ch).stall = true ∧
  d.ready = true) ({ rdy with host := { mbox := [(1, { recv := some { chan := 1, bytes := [1, 2] }, stall := true })] } }) (1) :=
  by decide +kernel
theorem wit_MailboxesCarryPacketsFragmentsAndMessages_11 : (fun (d : Dev) (ch : Nat) (a : Assembly) => (d.mbox ch).asm = some a)
  ({ rdy with host := { mbox := [(1, { asm := some { op := 0x103, count := 1 } })] } }) (1) ({ op := 0x103, count := 1 }) :=
  by decide +kernel
theorem wit_MailboxesCarryPacketsFragmentsAndMessages_12 : (fun (d : Dev) (ch : Nat) (t : Raw) => (d.sender ch).refuseEnd = some t)
  ({ rdy with senders := [(1, { refuseEnd := some 9 })] }) (1) (9) :=
  by decide +kernel

/-! O40 LocksLinkAndBulkTransfers -/

theorem wit_LocksLinkAndBulkTransfers_1 : (fun (d : Dev) (lock : Nat) (master : Nat) => lock < 256 ∧ d.masterOk master = true ∧ fwLock lock master =
  false ∧ mget d.host.locks lock = none) (rdy) (5) (0x100) :=
  by decide +kernel
theorem wit_LocksLinkAndBulkTransfers_2 : (fun (d : Dev) (lock : Nat) (master : Nat) (o : Nat) => lock < 256 ∧ d.masterOk master = true ∧ fwLock lock
  master = false ∧ mget d.host.locks lock = some o) ({ rdy with host := { locks := [(5, 0x101)] } }) (5) (0x100) (0x101) :=
  by decide +kernel
theorem wit_LocksLinkAndBulkTransfers_3 : (fun (d : Dev) (lock : Nat) (master : Nat) => lock < 256 ∧ d.masterOk master = true ∧ fwLock lock master =
  true) (rdy) (250) (0x100) :=
  by decide +kernel
theorem wit_LocksLinkAndBulkTransfers_4 : (fun (d : Dev) (lock : Nat) (master : Nat) (value : BitVec 32) => lock < 256 ∧ d.masterOk master = true ∧
  fwLock lock master = false ∧ mget d.host.locks lock = some master ∧ value.toNat = master) ({ rdy with host := { locks := [(5, 0x101)] } }) (5)
  (0x101) (0x101) :=
  by decide +kernel
theorem wit_LocksLinkAndBulkTransfers_5 : (fun (d : Dev) (lock : Nat) (master : Nat) (value : BitVec 32) => lock < 256 ∧ d.masterOk master = true ∧
  (mget d.host.locks lock ≠ some master ∨ value.toNat ≠ master ∨ fwLock lock master = true)) ({ rdy with host := { locks := [(5, 0x101)] } }) (5)
  (0x100) (0x101) :=
  by decide +kernel
theorem wit_LocksLinkAndBulkTransfers_6 : (fun (d : Dev) (als : Nat) (value : BitVec 32) => d.hostOk = true ∧ als = 0 ∧ (mget d.host.locks
  (value.toNat % 256)).any hostMaster = true) ({ rdy with host := { locks := [(5, 0x101)] } }) (0) (5) :=
  by decide +kernel
theorem wit_LocksLinkAndBulkTransfers_7 : (fun (d : Dev) (als : Nat) (value : BitVec 32) => als ≠ 0 ∨ (mget d.host.locks (value.toNat % 256)).any
  hostMaster = false) ({ rdy with host := { locks := [(5, 1)] } }) (0) (5) :=
  by decide +kernel
theorem wit_LocksLinkAndBulkTransfers_9 : (fun (d : Dev) (cxl : Bool) => d.host.linkUp = false) ({ rdy with host := { linkUp := false } }) (true) :=
  by decide +kernel
theorem wit_LocksLinkAndBulkTransfers_10 : (fun (d : Dev) => d.host.linkUp = true) (rdy) :=
  by decide +kernel
theorem wit_LocksLinkAndBulkTransfers_11 : (fun (d : Dev) (addr : Nat) (value : BitVec 64) => d.hostOk = true ∧ d.host.cxl = true ∧ addr < 2 ^ 30)
  (rdy) (64) (7) :=
  by decide +kernel
theorem wit_LocksLinkAndBulkTransfers_12 : (fun (d : Dev) (b : Bulk) (ds : List (BitVec 64 × Desc)) (sp : CmdSpec) => d.host.bulk = some b ∧ specOf
  b.job.op = some sp ∧ bulkDescs b.job.bulk b.job.params = some ds) ({ rdy with host := { bulk := some { job := stagePacket, chan := 1 } } })
  ({ job := stagePacket, chan := 1 }) ([(0, { len := 8, last := true })]) (specCruFwStage) :=
  ⟨by rfl, by rfl, by decide +kernel⟩
theorem wit_LocksLinkAndBulkTransfers_13 : (fun (d : Dev) (desc : Nat) (b : Bulk) (ds : List (BitVec 64 × Desc)) => d.host.bulk = some b ∧ bulkDescs
  b.job.bulk b.job.params = some ds ∧ desc < ds.length) ({ rdy with host := { bulk := some { job := stagePacket, chan := 1 } } }) (0)
  ({ job := stagePacket, chan := 1 }) ([(0, { len := 8, last := true })]) :=
  by decide +kernel
theorem wit_LocksLinkAndBulkTransfers_14 : (fun (d : Dev) (desc : Nat) (b : Bulk) (ds : List (BitVec 64 × Desc)) => d.host.bulk = some b ∧ bulkDescs
  b.job.bulk b.job.params = some ds ∧ desc < ds.length) ({ rdy with host := { bulk := some { job := stagePacket, chan := 1 } } }) (0)
  ({ job := stagePacket, chan := 1 }) ([(0, { len := 8, last := true })]) :=
  by decide +kernel

/-! O41 ReadsWithEffectsAndBoardManagement -/

theorem wit_ReadsWithEffectsAndBoardManagement_1 : (fun (d : Dev) => d.endpointUp = true) (rdy) :=
  by decide +kernel
theorem wit_ReadsWithEffectsAndBoardManagement_2 : (fun (d : Dev) => d.endpointUp = true) (rdy) :=
  by decide +kernel
theorem wit_ReadsWithEffectsAndBoardManagement_3 : (fun (d : Dev) => d.endpointUp = true) (rdy) :=
  by decide +kernel
theorem wit_ReadsWithEffectsAndBoardManagement_4 : (fun (d : Dev) => d.endpointUp = true) (rdy) :=
  by decide +kernel
theorem wit_ReadsWithEffectsAndBoardManagement_5 : (fun (d : Dev) (tile : Nat) => tile < d.nTiles ∧ d.hostOk = true) (rdy) (2) :=
  by decide +kernel
theorem wit_ReadsWithEffectsAndBoardManagement_6 : (fun (d : Dev) (tile : Nat) => tile < d.nTiles ∧ d.hostOk = true ∧ d.tileRun tile = true) (rdy) (2)
  :=
  by decide +kernel
theorem wit_ReadsWithEffectsAndBoardManagement_7 : (fun (d : Dev) => d.endpointUp = true) (rdy) :=
  by decide +kernel
theorem wit_ReadsWithEffectsAndBoardManagement_8 : (fun (d : Dev) (start : Nat) (n : Nat) => d.spiUp = true) (rdy) (0) (4) :=
  by decide +kernel
theorem wit_ReadsWithEffectsAndBoardManagement_9 : (fun (d : Dev) => d.spiUp = true) (rdy) :=
  by decide +kernel
theorem wit_ReadsWithEffectsAndBoardManagement_10 : (fun (d : Dev) (b1 : Byte) (b2 : Byte) => d.spiUp = true ∧ b1 = 0x5A#8 ∧ b2 = 0xC3#8 ∧ d.inReset =
  false) ({ rdy with pwr := { pstate := .operating } }) (0x5A) (0xC3) :=
  by decide +kernel
theorem wit_ReadsWithEffectsAndBoardManagement_11 : (fun (d : Dev) (b1 : Byte) (b2 : Byte) => d.spiUp = false ∨ b1 ≠ 0x5A#8 ∨ b2 ≠ 0xC3#8 ∨ d.inReset
  = true) (rdy) (0x5A) (0xC2) :=
  by decide +kernel

/-! O42 HostWritesOfRegisters -/

theorem wit_HostWritesOfRegisters_1 : (fun (d : Dev) (addr : Nat) (width : Nat) (write : HostWrite) => ¬ (width = 4 ∧ addr % 4 = 0) ∧ ¬ (width = 8 ∧
  addr % 8 = 0)) (rdy) (0x110) (2) ({ value := 5, evt := 0 }) :=
  by decide +kernel
theorem wit_HostWritesOfRegisters_2 : (fun (d : Dev) (addr : Nat) (width : Nat) (write : HostWrite) (x : Dev) (y : Dev) => width = 8 ∧ addr % 8 = 0 ∧
  Becomes (.regWrite addr 4 { value := write.value.setWidth 32 |>.setWidth 64, evt := write.evt.setWidth 32 |>.setWidth 64 }) d x ∧ Becomes (.regWrite
  (addr + 4) 4 { value := write.value >>> 32, evt := write.evt >>> 32 }) x y) (rdy) (0x400) (8) ({ value := 0x500000003, evt := 0 }) (rdy.opRegWrite
  0x400 4 3 0) ((rdy.opRegWrite 0x400 4 3 0).opRegWrite 0x404 4 5 0) :=
  ⟨rfl, rfl, fun q => by rfl, fun q => by rfl⟩
theorem wit_HostWritesOfRegisters_3 : (fun (d : Dev) (addr : Nat) (width : Nat) (write : HostWrite) => width = 4 ∧ d.ready = false ∧ addr ≠ 0x208 ∧ ¬
  (addr = 0x20C ∧ d.rst.stage = .waitHost)) ({ rst := { stage := .links } }) (0x110) (4) ({ value := 5, evt := 0 }) :=
  by decide +kernel
theorem wit_HostWritesOfRegisters_4 : (fun (d : Dev) (addr : Nat) (width : Nat) (write : HostWrite) (m : BitVec 32) => width = 4 ∧ addr % 4 = 0 ∧
  d.hostOk = true ∧ addr < 0x10000 ∧ rwGlobal addr d.nTiles = some m) (rdy) (0x110) (4) ({ value := 5, evt := 0 }) (0x0000FFFF) :=
  by decide +kernel
theorem wit_HostWritesOfRegisters_5 : (fun (d : Dev) (addr : Nat) (width : Nat) (write : HostWrite) => width = 4 ∧ addr = 0x010 ∧ d.hostOk = true)
  (rdy) (0x010) (4) ({ value := 5, evt := 1 }) :=
  by decide +kernel
theorem wit_HostWritesOfRegisters_6 : (fun (d : Dev) (addr : Nat) (width : Nat) (write : HostWrite) (tile : Nat) (o : Nat) (m : BitVec 32) => width =
  4 ∧ o % 4 = 0 ∧ d.hostOk = true ∧ tile < d.nTiles ∧ d.tileRun tile = true ∧ o < 0x100000 ∧ addr = tileWin tile + o ∧ rwTile o = some m) (rdy)
  (0x209008) (4) ({ value := 5, evt := 0 }) (1) (0x9008) (0x0007FFFF) :=
  by decide +kernel
theorem wit_HostWritesOfRegisters_7 : (fun (d : Dev) (addr : Nat) (width : Nat) (write : HostWrite) (als : Nat) (lock : Nat) (e : Dev) => width = 4 ∧
  als < 16 ∧ lock < 256 ∧ addr = 0x10000 + als * 0x1000 + lock * 4 ∧ d.hostOk = true ∧ Becomes (.lckLockWrite lock (0x100 + als) (write.value.setWidth
  32)) d e) ({ rdy with host := { locks := [(5, 0x102)] } }) (0x12014) (4) ({ value := 0x102, evt := 0 }) (2) (5)
  ({ rdy with host := { locks := [] } }) :=
  ⟨rfl, by decide, by decide, rfl, by decide +kernel, fun q => by rfl⟩
theorem wit_HostWritesOfRegisters_8 : (fun (d : Dev) (addr : Nat) (width : Nat) (write : HostWrite) (ch : Nat) (i : Nat) => width = 4 ∧ 1 ≤ ch ∧ ch <
  32 ∧ i < 960 ∧ addr = 0x20000 + ch * 0x1000 + i * 4 ∧ d.hostOk = true) (rdy) (0x21008) (4) ({ value := 5, evt := 0 }) (1) (2) :=
  by decide +kernel
theorem wit_HostWritesOfRegisters_9 : (fun (d : Dev) (addr : Nat) (width : Nat) (write : HostWrite) (ch : Nat) => width = 4 ∧ ch < 32 ∧ addr = 0x20F0C
  + ch * 0x1000 ∧ d.hostOk = true) (rdy) (0x21F0C) (4) ({ value := 3, evt := 0 }) (1) :=
  by decide +kernel
theorem wit_HostWritesOfRegisters_10 : (fun (d : Dev) (addr : Nat) (width : Nat) (write : HostWrite) (page : Nat) (o : Nat) => width = 4 ∧ 4 ≤ page ∧
  page < 16 ∧ 0x100 ≤ o ∧ o < 0x1000 ∧ o % 4 = 0 ∧ addr = 0x60000 + page * 0x1000 + o ∧ d.hostOk = true) (rdy) (0x65104) (4)
  ({ value := 3, evt := 0 }) (5) (0x104) :=
  by decide +kernel

/-! O43 ResetCommandsAreCritical -/

theorem wit_ResetCommandsAreCritical_1 : WitOk specSysTileReset (sg specSysTileReset 0 []) (rdy) (fun (c : Cmd) (d : Dev) => c.tgt = 0) :=
  wit_signed _ _ _ _ (by decide +kernel) (by decide +kernel)
theorem wit_ResetCommandsAreCritical_2 : WitOk specSysWarmReset (sg specSysWarmReset 0 []) (rdy) (fun (c : Cmd) (d : Dev) => True) :=
  wit_signed _ _ _ _ (by decide +kernel) (by decide +kernel)
theorem wit_ResetCommandsAreCritical_3 : WitTaken specSysTileReset (pkt specSysTileReset 0 []) rdy :=
  ⟨by decide +kernel, rfl⟩
theorem wit_ResetCommandsAreCritical_4 : WitTaken specSysWarmReset (pkt specSysWarmReset 0 []) rdy :=
  ⟨by decide +kernel, rfl⟩
theorem wit_ResetCommandsAreCritical_5 : WitOk specSysFuncReset (pkt specSysFuncReset 2 [3]) (rdy) (fun (c : Cmd) (d : Dev) => c.p.crit = false ∧
  bodySysFuncReset c d = (bodySysFuncReset c d).dev.ok) :=
  wit_plain _ _ _ _ (by decide +kernel) (⟨by decide +kernel, rfl⟩)

/-! O44 CriticalFlagDecidesAuthentication -/

theorem wit_CriticalFlagDecidesAuthentication_1 : (specSysEcho.crit = false ∧ (sg specSysEcho 0 [1]).crit = true) ∧ specSysWarmReset.crit = true ∧
  WitTaken specSysWarmReset (pkt specSysWarmReset 0 []) rdy :=
  ⟨⟨rfl, rfl⟩, rfl, by decide +kernel, rfl⟩

/-! O45 NothingWithoutAuthority -/

theorem wit_NothingWithoutAuthority_1 : rdy.authorised specSysWarmReset (rowPacket specSysWarmReset (pkt specSysWarmReset 0 [])) = false :=
  by decide +kernel

/-! O46 PacketsAreRefusedInOrder -/

theorem wit_PacketsAreRefusedInOrder_1 : rdy.takes (rowPacket specSysEcho (pkt specSysEcho 0 [1])) = true ∧ ((rdy.mbox 1).asm).isNone = true :=
  ⟨by decide +kernel, by decide +kernel⟩
theorem wit_PacketsAreRefusedInOrder_2 : ∃ d : Dev, d.takes (sg specSysEcho 0 [1]) = true ∧ ((Dev.takenBy (sg specSysEcho 0 [1]) d).verify
  (Dev.takenCmd (sg specSysEcho 0 [1]) d)).1 = stOk ∧ (sg specSysEcho 0 [1]).counter.toNat ≤ (d.sender 1).consumed :=
  ⟨{ rdy with senders := [(1, { caps := 0xFFFF#16, consumed := 1 })] }, by decide +kernel, by rw [show sg specSysEcho 0 [1] = signed (cpkt specSysEcho
    0 [1]) from rfl, signed_verify _ _ (by decide +kernel) (by decide +kernel) (by decide +kernel) (by decide +kernel)], by decide +kernel⟩
theorem wit_PacketsAreRefusedInOrder_3 : Dev.entersAs specSysCounter false (rowPacket specSysCounter (pkt specSysCounter 5 []))
  { rdy with senders := [(1, { caps := 2 })] } = true ∧ ((Dev.entryOf (rowPacket specSysCounter (pkt specSysCounter 5 []))
  { rdy with senders := [(1, { caps := 2 })] }).2.unpermitted specSysCounter (Dev.entryOf (rowPacket specSysCounter (pkt specSysCounter 5 []))
  { rdy with senders := [(1, { caps := 2 })] }).1).isSome = true :=
  ⟨by decide +kernel, by decide +kernel⟩

/-! O47 StepRunsTheFrontCommand -/


/-! O48 EmptyQueueServesARequest -/

theorem wit_EmptyQueueServesARequest_2 : rdy.nextServed = none :=
  by decide +kernel
theorem wit_EmptyQueueServesARequest_3 : ∃ d : Dev, d.nextServed = some 1 ∧ (d.mbox 1).send = some (pkt specSysEcho 0 [1]) ∧ d.canTake 1 = true ∧ ∃
  sp, specOf (pkt specSysEcho 0 [1]).op = some sp :=
  ⟨{ rdy with host := { mbox := [(1, { send := some (pkt specSysEcho 0 [1]) })] } }, by decide +kernel, by decide +kernel, by decide +kernel,
    specSysEcho, by rfl⟩

/-! O49 EveryCommandAnswersANextState -/


/-! O50 QueueKeepsItsOrderAndForm -/

theorem wit_QueueKeepsItsOrderAndForm_1 : ({ dev := rdy, pending := [.cxlLinkDown] } : State).queueWf ∧ step { dev := rdy, pending := [.cxlLinkDown] }
  = .next { dev := rdy.opCxlLinkDown, pending := [] } :=
  ⟨by unfold State.queueWf; decide, by rfl⟩

/-! O51 ResetLeavesTheSpecsValues -/


/-! O52 LocksOfFirmwareStayFirmwares -/

theorem wit_LocksOfFirmwareStayFirmwares_1 : ∃ e : Dev, rdy.locksSafe ∧ Becomes (.lckLockRead 5 0x100) rdy e :=
  ⟨rdy.opLckLockRead 5 0x100, by unfold Dev.locksSafe; decide, fun q => by rfl⟩

/-! O53 PacketBytesRoundTrip -/

theorem wit_PacketBytesRoundTrip_1 : wholePacket (sg specSysEcho 0 [1, 2, 3, 4]) :=
  by unfold wholePacket; decide +kernel

/-! O54 ScramblersSynchronise -/


/-! O55 NoWordSpellsACommand -/


/-! O56 CatalogueOfOpcodes -/

theorem wit_CatalogueOfOpcodes_4 : (specOf 0x0110).isNone = true ∧ rdy.wellTaken { pkt specSysEcho 0 [] with op := 0x0110 } = true :=
  by decide +kernel

end Sys2Proof.Tests
end

/-!
PROOFS. Host writes of BAR0 (R9, R361, R362, R477 to R479): which windows an access reaches and what each word does there.
-/

namespace Sys2Proof.Machine

/-! ## What a command's operation leaves is the only outcome -/

/-- A row that is an event becomes exactly what its operation answers. -/
theorem becomes_iff_of_live {i : Instr} {d e : Dev} {f : Dev → Dev} (hi : ∀ s, exec i s = live f s) : Becomes i d e ↔ f d = e := by
  refine ⟨fun h => ?_, becomes_of hi⟩
  have hnext := h []
  rw [hi] at hnext
  injection hnext with hstate
  injection hstate

theorem becomes_regWrite_iff {d e : Dev} {addr width : Nat} {w : HostWrite} :
    Becomes (.regWrite addr width w) d e ↔ d.opRegWrite addr width w.value w.evt = e :=
  becomes_iff_of_live (f := fun d => d.opRegWrite addr width w.value w.evt) fun _ => rfl

theorem becomes_lckLockWrite_iff {d e : Dev} {lock master : Nat} {v : BitVec 32} :
    Becomes (.lckLockWrite lock master v) d e ↔ d.opLckLockWrite lock master v = e :=
  becomes_iff_of_live (f := fun d => d.opLckLockWrite lock master v) fun _ => rfl

/-! ## Access sizes (R361) -/

theorem opRegWrite_word (d : Dev) {addr : Nat} (h : addr % 4 = 0) (v evt : BitVec 64) :
    d.opRegWrite addr 4 v evt = d.writeWord addr (v.setWidth 32) (evt.setWidth 32) := by
  simp [Dev.opRegWrite, h]

theorem opRegWrite_pair (d : Dev) {addr : Nat} (h : addr % 8 = 0) (v evt : BitVec 64) :
    d.opRegWrite addr 8 v evt =
      (d.writeWord addr (v.setWidth 32) (evt.setWidth 32)).writeWord (addr + 4) ((v >>> 32).setWidth 32) ((evt >>> 32).setWidth 32) := by
  simp [Dev.opRegWrite, h]

theorem opRegWrite_other (d : Dev) {addr width : Nat} (h4 : ¬ (width = 4 ∧ addr % 4 = 0)) (h8 : ¬ (width = 8 ∧ addr % 8 = 0))
    (v evt : BitVec 64) : d.opRegWrite addr width v evt = d := by
  simp [Dev.opRegWrite, h4, h8]

/-- An aligned 64-bit write is its low word at the address and then its high word four bytes above. -/
theorem opRegWrite_pair_eq_words (d : Dev) {addr : Nat} (h : addr % 8 = 0) (v evt : BitVec 64) :
    d.opRegWrite addr 8 v evt =
      (d.opRegWrite addr 4 ((v.setWidth 32).setWidth 64) ((evt.setWidth 32).setWidth 64)).opRegWrite (addr + 4) 4 (v >>> 32) (evt >>> 32) := by
  have hlo : addr % 4 = 0 := by omega
  have hhi : (addr + 4) % 4 = 0 := by omega
  have hcut (x : BitVec 64) : ((x.setWidth 32).setWidth 64).setWidth 32 = x.setWidth 32 := by simp
  rw [opRegWrite_pair d h, opRegWrite_word d hlo, opRegWrite_word _ hhi, hcut, hcut]

/-! ## W1C registers (R11) -/

theorem writeWord_of_not_w1c (d : Dev) {a : Nat} (h : w1cReg a = false) (v evt : BitVec 32) : d.writeWord a v evt = d.write32 a v := by
  simp [Dev.writeWord, h]

theorem writeWord_of_w1c (d : Dev) {a : Nat} (h : w1cReg a = true) (v evt : BitVec 32) : d.writeWord a v evt = d.write32 a (v &&& ~~~evt) := by
  simp [Dev.writeWord, h]

/-! ## Which window a word is written to (Tables 21-1, 21-7 and 21-8) -/

/-- Before command-ready a word other than those of the descriptor registers is ignored (R72). -/
theorem write32_not_ready (d : Dev) {a : Nat} (hd : d.ready = false) (hgo : a ≠ 0x208) (hlen : ¬ (a = 0x20C ∧ d.rst.stage = .waitHost))
    (v : BitVec 32) : d.write32 a v = d := by
  have hlen' : (decide (a = 0x20C) && decide (d.rst.stage = .waitHost)) = false := by simpa using hlen
  simp [Dev.write32, hgo, hlen', Dev.hostOk, hd]

section
variable {d : Dev} (hok : d.hostOk = true)
include hok

/-- A host that may write does so in stage READY, not in WAIT_HOST. -/
theorem stage_ne_waitHost_of_hostOk : d.rst.stage ≠ .waitHost := by
  intro h
  simp [Dev.hostOk, Dev.ready, h] at hok

/-- Once command-ready a word of the global window is written there, but that of RST_BOOT_DESC_GO. -/
theorem write32_global {a : Nat} (ha : a < 0x10000) (hgo : a ≠ 0x208) (v : BitVec 32) : d.write32 a v = d.globalWrite a v := by
  simp [Dev.write32, hgo, stage_ne_waitHost_of_hostOk hok, hok, ha]

/-- Beyond the global window the address alone chooses the window (Tables 21-1 and 21-7). -/
theorem write32_beyond_global {a : Nat} (ha : 0x10000 ≤ a) (v : BitVec 32) :
    d.write32 a v =
      if a < 0x20000 then (if a % 0x1000 < 0x400 then d.opLckLockWrite (a % 0x1000 / 4) (0x100 + (a - 0x10000) / 0x1000) v else d)
      else if a < 0x60000 then (if a < 0x40000 then d.mboxWrite ((a - 0x20000) / 0x1000) (a % 0x1000) v else d)
      else if a < 0x70000 then d.chkWrite ((a - 0x60000) / 0x1000) (a % 0x1000) v
      else if a < 0x80000 then d
      else if a < 0x100000 then d.tacWrite (a - 0x80000) v
      else d.tileWrite (a / 0x100000 - 1) (a % 0x100000) v := by
  rw [Dev.write32, if_neg (by omega), if_neg (by simp [stage_ne_waitHost_of_hostOk hok]), if_neg (by simp [hok]), if_neg (by omega)]

theorem write32_lockPage {als lock : Nat} (ha : als < 16) (hl : lock < 256) (v : BitVec 32) :
    d.write32 (0x10000 + als * 0x1000 + lock * 4) v = d.opLckLockWrite lock (0x100 + als) v := by
  have hofs : (0x10000 + als * 0x1000 + lock * 4) % 0x1000 = lock * 4 := by omega
  have hals : (0x10000 + als * 0x1000 + lock * 4 - 0x10000) / 0x1000 = als := by omega
  have hlock : lock * 4 / 4 = lock := by omega
  have hpage : lock * 4 < 0x400 := by omega
  rw [write32_beyond_global hok (by omega), if_pos (by omega), hofs, if_pos hpage, hals, hlock]

theorem write32_mboxPage {ch o : Nat} (hc : ch < 32) (ho : o < 0x1000) (v : BitVec 32) :
    d.write32 (0x20000 + ch * 0x1000 + o) v = d.mboxWrite ch o v := by
  have hofs : (0x20000 + ch * 0x1000 + o) % 0x1000 = o := by omega
  have hch : (0x20000 + ch * 0x1000 + o - 0x20000) / 0x1000 = ch := by omega
  rw [write32_beyond_global hok (by omega), if_neg (by omega), if_pos (by omega), if_pos (by omega), hofs, hch]

theorem write32_chkPage {page o : Nat} (hp : page < 16) (ho : o < 0x1000) (v : BitVec 32) :
    d.write32 (0x60000 + page * 0x1000 + o) v = d.chkWrite page o v := by
  have hofs : (0x60000 + page * 0x1000 + o) % 0x1000 = o := by omega
  have hpage : (0x60000 + page * 0x1000 + o - 0x60000) / 0x1000 = page := by omega
  rw [write32_beyond_global hok (by omega), if_neg (by omega), if_neg (by omega), if_pos (by omega), hofs, hpage]

theorem write32_tileWin (tile : Nat) {o : Nat} (ho : o < 0x100000) (v : BitVec 32) :
    d.write32 (tileWin tile + o) v = d.tileWrite tile o v := by
  have hofs : (0x100000 * (tile + 1) + o) % 0x100000 = o := by omega
  have htile : (0x100000 * (tile + 1) + o) / 0x100000 - 1 = tile := by omega
  rw [tileWin, write32_beyond_global hok (by omega), if_neg (by omega), if_neg (by omega), if_neg (by omega), if_neg (by omega),
    if_neg (by omega), hofs, htile]

end

/-! ## RW registers (R9) -/

/-- The addresses of the global window whose write has a meaning of its own: commands, TIME_CFG and the W1C registers. -/
def ownGlobal : List Nat := [0x010, 0x100, 0x10C, 0x120, 0x200, 0x208, 0x318, 0x320, 0x324, 0x328, 0x704, 0x904, 0x908]

theorem rwGlobal_eq_none_of_own {a : Nat} (n : Nat) (h : a ∈ ownGlobal) : rwGlobal a n = none := by
  simp only [ownGlobal, List.mem_cons, List.not_mem_nil, or_false] at h
  rcases h with rfl | rfl | rfl | rfl | rfl | rfl | rfl | rfl | rfl | rfl | rfl | rfl | rfl <;> simp [rwGlobal]

theorem notMem_ownGlobal_of_rw {a n : Nat} {m : BitVec 32} (h : rwGlobal a n = some m) : a ∉ ownGlobal := by
  intro hown
  rw [rwGlobal_eq_none_of_own n hown] at h
  cases h

/-- An RW register of the global window is no W1C register. -/
theorem w1cReg_of_rwGlobal {a n : Nat} {m : BitVec 32} (ha : a < 0x10000) (h : rwGlobal a n = some m) : w1cReg a = false := by
  have hown := notMem_ownGlobal_of_rw h
  simp only [ownGlobal, List.mem_cons, List.not_mem_nil, or_false, not_or] at hown
  simp [w1cReg, ha, hown]

/-- A word written to an RW register of the global window is stored cut to its RW bits; an ageing time holds at once. -/
theorem globalWrite_rw (d : Dev) {a : Nat} {m : BitVec 32} (h : rwGlobal a d.nTiles = some m) (v : BitVec 32) :
    d.globalWrite a v =
      if 0x600 ≤ a ∧ a < 0x700 then d.setAge ((a - 0x600) / 4) (v &&& m).toNat else d.setReg a (v &&& m).toNat := by
  have hown := notMem_ownGlobal_of_rw h
  simp only [ownGlobal, List.mem_cons, List.not_mem_nil, or_false, not_or] at hown
  simp [Dev.globalWrite, hown, h]

theorem globalWrite_irqCause (d : Dev) (v : BitVec 32) :
    d.globalWrite 0x010 v = { d with host := { d.host with irq := w1c d.host.irq v.toNat 0 } } := by
  have hrw : rwGlobal 0x010 d.nTiles = none := rwGlobal_eq_none_of_own _ (by decide)
  simp [Dev.globalWrite, hrw, Dev.globalClear]

/-- The offsets of a tile window whose write has a meaning of its own: lanes, uplink modes and the W1C registers. -/
def OwnTile (o : Nat) : Prop := o = 0x1000 ∨ o = 0x1104 ∨ (0x2000 ≤ o ∧ o < 0x2280) ∨ o = 0x2400 ∨ o = 0x2404 ∨ o = 0x9010

/-- The RW registers of a tile window start at 0x4000, and 0x9010 is none of them. -/
theorem not_ownTile_of_rw {o : Nat} {m : BitVec 32} (h : rwTile o = some m) : ¬ OwnTile o := by
  have hlow : 0x4000 ≤ o := by
    refine Nat.le_of_not_lt fun hlt => ?_
    have hnone : rwTile o = none := by
      simp (disch := omega) only [rwTile, decide_eq_true_eq, Bool.and_eq_true, if_neg]
    rw [hnone] at h
    cases h
  have hbad : o ≠ 0x9010 := by
    rintro rfl
    simp [rwTile] at h
  unfold OwnTile
  omega

theorem w1cReg_of_rwTile {tile o : Nat} {m : BitVec 32} (ho : o < 0x100000) (h : rwTile o = some m) : w1cReg (tileWin tile + o) = false := by
  have hown := not_ownTile_of_rw h
  unfold OwnTile at hown
  have hofs : (0x100000 * (tile + 1) + o) % 0x100000 = o := by omega
  rw [tileWin, w1cReg, if_neg (by omega), if_neg (by simp; omega), if_neg (by simp; omega), if_neg (by omega), hofs]
  simp; omega

/-- A word written to an RW register of a running tile is stored cut to its RW bits. -/
theorem tileWrite_rw (d : Dev) {tile o : Nat} {m : BitVec 32} (ht : tile < d.nTiles) (hr : d.tileRun tile = true) (h : rwTile o = some m)
    (v : BitVec 32) : d.tileWrite tile o v = d.setReg (tileWin tile + o) (v &&& m).toNat := by
  have hown := not_ownTile_of_rw h
  simp only [OwnTile, not_or] at hown
  obtain ⟨hrail, hcdc, hlane, hupl0, hupl1, hpool⟩ := hown
  rw [Dev.tileWrite, if_neg (by omega), if_neg hrail, if_neg hcdc, if_neg (by simp [hr]), if_neg (by simp; omega), if_neg (by simp; omega),
    if_neg hpool, h]

/-! ## Pages (R358, R368, R376) -/

/-- Below the table-access window a page's register is W1C only as MBX_STATUS or CHK_PAGE_STATUS. -/
theorem w1cReg_page {a : Nat} (hlo : 0x10000 ≤ a) (hhi : a < 0x80000) (hmbx : ¬ (0x20000 ≤ a ∧ a < 0x40000 ∧ a % 0x1000 = 0xF04))
    (hchk : ¬ (0x60000 ≤ a ∧ a < 0x70000 ∧ a % 0x1000 = 8)) : w1cReg a = false := by
  rw [w1cReg, if_neg (by omega)]
  simp only [Bool.and_eq_true, decide_eq_true_eq]
  split
  next hwin => exact decide_eq_false fun h => hmbx ⟨hwin.1, hwin.2, h⟩
  next =>
    split
    next hwin => exact decide_eq_false fun h => hchk ⟨hwin.1, hwin.2, h⟩
    next => rw [if_pos (by omega)]; exact decide_eq_false (by omega)

theorem mboxWrite_area (d : Dev) {ch i : Nat} (h1 : 1 ≤ ch) (hc : ch < 32) (hi : i < 960) (v : BitVec 32) :
    d.mboxWrite ch (i * 4) v =
      d.setMbox ch (if (d.mbox ch).send.isSome then { d.mbox ch with collision := true } else
        { d.mbox ch with area := if v = 0#32 then mdel (d.mbox ch).area i else mput (d.mbox ch).area i v }) := by
  have hidx : i * 4 / 4 = i := by omega
  rw [Dev.mboxWrite, if_neg (by omega), if_pos (by omega), if_neg (by omega), hidx, apply_ite (d.setMbox ch)]

theorem mboxWrite_cfg (d : Dev) {ch : Nat} (hc : ch < 32) (v : BitVec 32) :
    d.mboxWrite ch 0xF0C v = d.setMbox ch { d.mbox ch with irqFree := v.getLsbD 1, irqRecv := v.getLsbD 0 } := by
  rw [Dev.mboxWrite, if_neg (by omega), if_neg (by decide), if_neg (by decide), if_neg (by decide), if_pos rfl]

theorem chkWrite_data (d : Dev) {page o : Nat} (h4 : 4 ≤ page) (hp : page < 16) (ho : 0x100 ≤ o) (v : BitVec 32) :
    d.chkWrite page o v =
      if (d.chkPage page).st.busy then d.setChk page { d.chkPage page with collision := true }
      else d.setChk page { d.chkPage page with data := setWord (d.chkPage page).data (o - 0x100) v } := by
  have hlen : o ≠ 4 := by omega
  rw [Dev.chkWrite, if_neg (by simp; omega), if_neg (by omega), if_neg (by omega), if_neg (by simp; omega), if_neg hlen, if_pos ho]

/-! ## The obligation -/

/-- Settles O42: each clause names an access, its window and the register there. -/
theorem hostWritesOfRegisters : Obligations.HostWritesOfRegisters := by
  unfold Obligations.HostWritesOfRegisters
  simp only [becomes_regWrite_iff, becomes_lckLockWrite_iff]
  refine ⟨?sizes, ?pair, ?notReady, ?rwGlobal, ?irqCause, ?rwTile, ?lockPage, ?sendArea, ?mbxCfg, ?chkData⟩
  case sizes =>
    rintro d addr width w ⟨h4, h8⟩
    exact opRegWrite_other d h4 h8 _ _
  case pair =>
    rintro d addr _ w _ _ ⟨rfl, h8, rfl, rfl⟩
    exact opRegWrite_pair_eq_words d h8 _ _
  case notReady =>
    rintro d addr _ w ⟨rfl, hd, hgo, hlen⟩
    by_cases h4 : addr % 4 = 0
    · rw [opRegWrite_word d h4, Dev.writeWord, write32_not_ready d hd hgo hlen]
    · exact opRegWrite_other d (by simp [h4]) (by simp) _ _
  case rwGlobal =>
    rintro d addr _ w m ⟨rfl, h4, hok, ha, hm⟩
    have hgo : addr ≠ 0x208 := by
      rintro rfl
      exact notMem_ownGlobal_of_rw hm (by decide)
    rw [opRegWrite_word d h4, writeWord_of_not_w1c d (w1cReg_of_rwGlobal ha hm), write32_global hok ha hgo, globalWrite_rw d hm]
  case irqCause =>
    rintro d _ _ w ⟨rfl, rfl, hok⟩
    rw [opRegWrite_word d (by decide), writeWord_of_w1c d (by decide), write32_global hok (by decide) (by decide), globalWrite_irqCause]
  case rwTile =>
    rintro d _ _ w tile o m ⟨rfl, h4, hok, ht, hr, ho, rfl, hm⟩
    have haligned : (tileWin tile + o) % 4 = 0 := by unfold tileWin; omega
    rw [opRegWrite_word d haligned, writeWord_of_not_w1c d (w1cReg_of_rwTile ho hm), write32_tileWin hok tile ho, tileWrite_rw d ht hr hm]
  case lockPage =>
    rintro d _ _ w als lock _ ⟨rfl, ha, hl, rfl, hok, rfl⟩
    rw [opRegWrite_word d (by omega), writeWord_of_not_w1c d (w1cReg_page (by omega) (by omega) (by omega) (by omega)),
      write32_lockPage hok ha hl]
  case sendArea =>
    rintro d _ _ w ch i ⟨rfl, h1, hc, hi, rfl, hok⟩
    rw [opRegWrite_word d (by omega), writeWord_of_not_w1c d (w1cReg_page (by omega) (by omega) (by omega) (by omega)),
      write32_mboxPage hok hc (by omega), mboxWrite_area d h1 hc hi]
  case mbxCfg =>
    rintro d _ _ w ch ⟨rfl, hc, rfl, hok⟩
    have haddr : 0x20F0C + ch * 0x1000 = 0x20000 + ch * 0x1000 + 0xF0C := by omega
    rw [haddr, opRegWrite_word d (by omega), writeWord_of_not_w1c d (w1cReg_page (by omega) (by omega) (by omega) (by omega)),
      write32_mboxPage hok hc (by omega), mboxWrite_cfg d hc]
    simp
  case chkData =>
    rintro d _ _ w page o ⟨rfl, h4, hp, ho, ho', halign, rfl, hok⟩
    rw [opRegWrite_word d (by omega), writeWord_of_not_w1c d (w1cReg_page (by omega) (by omega) (by omega) (by omega)),
      write32_chkPage hok hp ho', chkWrite_data d h4 hp ho]

end Sys2Proof.Machine

/-! PROOFS. What reset leaves (O51), the pin and the package resets (O28). -/

namespace Sys2Proof.Machine

/-! ## Registers at reset -/

/-- An RW register that was never written reads its reset value. -/
theorem reg_unwritten {d : Dev} {a : Nat} (h : mget d.regs a = none) : d.reg a = (regReset d.variant a).toNat := by
  have hlook : d.regs.lookup a = none := h
  simp [Dev.reg, mgetD, hlook]

/-- Settles O51: no register has been written at reset, so each reads the value of its table. -/
theorem resetLeavesTheSpecsValues : Obligations.ResetLeavesTheSpecsValues := by
  unfold Obligations.ResetLeavesTheSpecsValues
  have hreg (a : Nat) : State.reset.dev.reg a = (regReset .thz4 a).toNat := reg_unwritten rfl
  refine ⟨?queue, rfl, ?locks, rfl, rfl, rfl, rfl, ?regs⟩
  case queue => intro i hi; cases hi
  case locks => intro l hl; cases hl
  case regs =>
    simp only [hreg]
    decide

/-! ## Resets of the package (R61 to R66) -/

/-- No package reset leaves the interpreter ready: its boot has yet to run (R72). -/
theorem packageReset_ready (d : Dev) (warm : Bool) (bit : Nat) (exit : Bool) : (d.packageReset warm bit exit).ready = false := by
  cases warm <;> rfl

/-- A warm reset in progress is a reset in progress. -/
theorem inWarm_of_not_inReset {d : Dev} (h : d.inReset = false) : d.inWarm = false := by simp [Dev.inWarm, h]

/-- An accepted assertion outside AON is a package cold reset that stays in AON (R66). -/
theorem opResetNAssert_cold {d : Dev} (hu : d.pwr.pstate ≠ .unpowered) (ha : d.pwr.pstate ≠ .aon) (hi : d.pwr.pinReset.ignored = false) :
    d.opResetNAssert =
      let x := d.packageReset false 1
      { x with pwr := { x.pwr with pstate := .aon, pfw := d.pwr.pfw, pinReset := { asserted := true, since := x.now } } } := by
  simp [Dev.opResetNAssert, hu, ha, hi]

/-- Settles O28: the pin's operations case by case, and the three answers to a request for a warm reset. -/
theorem resetsReturnThePackage : Obligations.ResetsReturnThePackage := by
  unfold Obligations.ResetsReturnThePackage
  refine ⟨?assert, ?assertAon, ?release, ?releaseStuck, ?warm, ?warmIgnored, ?warmAbsorbed⟩
  case assert =>
    rintro d ⟨hu, ha, hi⟩
    refine leaves_of (f := Dev.opResetNAssert) (fun _ => rfl) ?_
    rw [opResetNAssert_cold hu ha hi]
    exact ⟨rfl, rfl, rfl, rfl, rfl, rfl, rfl, rfl, rfl, rfl, rfl, rfl⟩
  case assertAon =>
    rintro d ⟨ha, hi⟩
    refine becomes_of (f := Dev.opResetNAssert) (fun _ => rfl) ?_
    simp [Dev.opResetNAssert, ha, hi]
  case release =>
    rintro d bootSrc refSel ⟨ha, hi⟩
    refine becomes_of (f := fun d => d.opResetNRelease bootSrc refSel) (fun _ => rfl) ?_
    cases hp : d.pwr.pfw <;> simp [Dev.opResetNRelease, Dev.coldBoot, Dev.now, ha, hi, hp]
  case releaseStuck =>
    rintro d bootSrc refSel ⟨ha, hi⟩
    refine becomes_of (f := fun d => d.opResetNRelease bootSrc refSel) (fun _ => rfl) ?_
    simp [Dev.opResetNRelease, ha, hi]
  case warm =>
    intro d hr
    refine leaves_of (f := fun d => d.warmReset 6) (fun _ => rfl) ?_
    simp only [Dev.warmReset, inWarm_of_not_inReset hr, hr, Bool.false_eq_true, if_false]
    refine ⟨rfl, packageReset_ready d true 6 false, ?_, rfl, rfl, rfl, rfl, rfl, rfl, rfl, rfl, rfl, rfl, rfl, rfl, rfl, rfl, rfl⟩
    simp [Dev.packageReset]
  case warmIgnored =>
    intro d hw
    refine becomes_of (f := fun d => d.warmReset 6) (fun _ => rfl) ?_
    simp only [Dev.warmReset, hw, if_true]
  case warmAbsorbed =>
    rintro d ⟨hr, hw⟩
    refine becomes_of (f := fun d => d.warmReset 6) (fun _ => rfl) ?_
    simp only [Dev.warmReset, hr, hw, Bool.false_eq_true, if_false, if_true, Dev.absorbed]

end Sys2Proof.Machine

/-! PROOFS. The feeds, the carrier and power-fail warning (O1). -/

namespace Sys2Proof.Machine

/-! ## What a feed or a fault can change: power beside what recording a fault changes -/

/-- Everything but the power state and what recording a fault can change is as it was. -/
def Powers (d e : Dev) : Prop := Raises { d with pwr := e.pwr } e

theorem Powers.trans {d e f : Dev} (h : Powers d e) (g : Powers e f) : Powers d f := by
  unfold Powers Raises at *; rw [g]; rw [h]
theorem powers_pwr (d : Dev) (p : PowerState) : Powers d { d with pwr := p } := rfl
theorem Raises.powers {d e : Dev} (h : Raises d e) : Powers d e := by
  unfold Powers Raises at *; rw [h]
theorem Talks.powers {d e : Dev} (h : Talks d e) : Powers d e := h.raises.powers

/-! ## Feeds (R43 to R46) -/

@[simp] theorem feed_setFeed_same (d : Dev) (b : Bool) (f : Feed) : (d.setFeed b f).feed b = f := by cases b <;> rfl
@[simp] theorem feed_setFeed_other (d : Dev) (b : Bool) (f : Feed) : (d.setFeed b f).feed (!b) = d.feed (!b) := by cases b <;> rfl

/-- A feed is read from the two feed records of the power state. -/
theorem feed_congr {d e : Dev} (ha : e.pwr.feedA = d.pwr.feedA) (hb : e.pwr.feedB = d.pwr.feedB) (b : Bool) : e.feed b = d.feed b := by
  simp [Dev.feed, ha, hb]

theorem setFeed_powers (d : Dev) (b : Bool) (f : Feed) : Powers d (d.setFeed b f) := by cases b <;> rfl

/-- Settling the carriers changes the carrying feed and the changeover count alone (R44). -/
theorem settleCarry_same (d : Dev) :
    ∃ c n, d.settleCarry = { d with pwr := { d.pwr with carry := c, changeovers := n } } := by
  unfold Dev.settleCarry
  dsimp only
  split
  · exact ⟨_, _, rfl⟩
  · exact ⟨_, d.pwr.changeovers, rfl⟩

/-- The only GOOD feed carries alone, whatever the mode (R43). -/
theorem carryNow_single {d : Dev} {b : Bool} (h : (d.feed b).st ≠ .good) (hg : (d.feed (!b)).st = .good) :
    d.carryNow = if b then .a else .b := by
  cases b <;> simp_all [Dev.carryNow, Dev.feedGood]

/-- The device in which a feed has taken a state and voltage, before what the loss of a GOOD feed brings. -/
def Dev.feedGone (d : Dev) (b : Bool) (st : FeedState) (mv : Nat) : Dev := (d.setFeed b { d.feed b with st := st, mv := mv }).irq 4

/-- The device in which the other feed carries for one that is gone, the changeover counted if that one carried (R44). -/
def Dev.feedOver (d : Dev) (b : Bool) (st : FeedState) (mv : Nat) : Dev :=
  let g := if d.pwr.carry.has b then (d.feedGone b st mv).changeover else d.feedGone b st mv
  { g with pwr := { g.pwr with carry := g.carryNow } }

section
variable {d : Dev} {b : Bool} {st : FeedState} {mv : Nat}

theorem feedGone_pwr : (d.feedGone b st mv).pwr = (d.setFeed b { d.feed b with st := st, mv := mv }).pwr := (irq_talks _ _).pwr

@[simp] theorem feedGone_feed_same : (d.feedGone b st mv).feed b = { d.feed b with st := st, mv := mv } :=
  (feed_congr (congrArg _ feedGone_pwr) (congrArg _ feedGone_pwr) b).trans (feed_setFeed_same d b _)

@[simp] theorem feedGone_feed_other : (d.feedGone b st mv).feed (!b) = d.feed (!b) :=
  (feed_congr (congrArg _ feedGone_pwr) (congrArg _ feedGone_pwr) (!b)).trans (feed_setFeed_other d b _)

theorem feedGone_powers : Powers d (d.feedGone b st mv) := (setFeed_powers d b _).trans (irq_talks _ 4).powers

/-- Where the other feed is GOOD it carries for the one that is gone. -/
theorem feedOver_pwr (hst : st ≠ .good) (ho : (d.feed (!b)).st = .good) :
    (d.feedOver b st mv).pwr = { (d.feedGone b st mv).pwr with
      changeovers := if d.pwr.carry.has b then min 0xFFFF (d.pwr.changeovers + 1) else d.pwr.changeovers
      carry := if b then .a else .b } := by
  have hsame : ((d.feedGone b st mv).feed b).st ≠ .good := by rw [feedGone_feed_same]; exact hst
  have hother : ((d.feedGone b st mv).feed (!b)).st = .good := by rw [feedGone_feed_other]; exact ho
  have hcount : (d.feedGone b st mv).pwr.changeovers = d.pwr.changeovers := by rw [feedGone_pwr]; cases b <;> rfl
  unfold Dev.feedOver
  split
  · have hcarry : (d.feedGone b st mv).changeover.carryNow = if b then .a else .b := carryNow_single hsame hother
    dsimp only
    rw [hcarry, ← hcount]
    rfl
  · dsimp only
    rw [carryNow_single hsame hother, ← hcount]

theorem feedOver_powers : Powers d (d.feedOver b st mv) := by
  unfold Dev.feedOver
  split
  · exact (feedGone_powers.trans (powers_pwr _ _)).trans (powers_pwr _ _)
  · exact feedGone_powers.trans (powers_pwr _ _)

/-- A GOOD feed is lost while the other is GOOD: the other carries, and F2 feed lost is raised (R44, R47). -/
theorem feedLeaves_other_good (hb : (d.feed b).st = .good) (hst : st ≠ .good) (ho : (d.feed (!b)).st = .good) :
    d.feedLeaves b st mv = (d.feedOver b st mv).raise 0x01 0x01 2 0xFF (b2n b) mv true := by
  have hother : (d.feedGone b st mv).feedGood (!b) = true := by simp [Dev.feedGood, ho]
  unfold Dev.feedLeaves
  simp only [hb, hst.symm, if_true, if_false]
  rw [← Dev.feedGone, if_pos hother]
  rfl

/-- What the loss of a GOOD feed leaves while the other is GOOD, for each of its causes (R45, R46). -/
theorem feedLeaves_spec (hb : (d.feed b).st = .good) (hst : st ≠ .good) (ho : (d.feed (!b)).st = .good) :
    let e := d.feedLeaves b st mv
    (e.feed b).st = st ∧ (e.feed b).mv = mv ∧ e.feed (!b) = d.feed (!b) ∧ e.pwr.carry = (if b then .a else .b) ∧
      e.pwr.changeovers = (if d.pwr.carry.has b then min 0xFFFF (d.pwr.changeovers + 1) else d.pwr.changeovers) ∧
      e.pwr.pfw = d.pwr.pfw ∧ Raised e 0x01 0x01 0xFF (b2n b) ∧ Raises { d with pwr := e.pwr } e := by
  intro e
  have he : e = (d.feedOver b st mv).raise 0x01 0x01 2 0xFF (b2n b) mv true := feedLeaves_other_good hb hst ho
  have hraise : Raises (d.feedOver b st mv) e := he ▸ raise_raises _ _ _ _ _ _ _ _ _
  have hpwr : e.pwr = _ := hraise.pwr
  rw [feedOver_pwr hst ho] at hpwr
  have hfeed (c : Bool) : e.feed c = (d.feedGone b st mv).feed c := feed_congr (by rw [hpwr]) (by rw [hpwr]) c
  refine ⟨?_, ?_, ?_, by rw [hpwr], by rw [hpwr], ?_, ?_, feedOver_powers.trans hraise.powers⟩
  · rw [hfeed, feedGone_feed_same]
  · rw [hfeed, feedGone_feed_same]
  · rw [hfeed, feedGone_feed_other]
  · rw [hpwr, feedGone_pwr]; cases b <;> rfl
  · rw [he]; exact raise_raised _ _ _ _ _ _ _ _ _

end

/-! ## Power-fail warning (R49) -/

theorem assayInterrupt_idle {d : Dev} {t : Nat} (reason : Nat) (hr : (d.asyTile t).running = false) (hq : d.pwr.assayQueue.contains t = false) :
    d.assayInterrupt t reason = d := by
  simp only [Dev.assayInterrupt, hr, hq, Bool.or_self, Bool.false_eq_true, if_false]

/-- With no assay under way power-fail warning moves the package power state alone. -/
theorem powerFail_idle {d : Dev} (hq : d.pwr.assayQueue = []) (hr : d.tileList.all (fun t => !(d.asyTile t).running) = true) :
    d.powerFail = { d with pwr := { d.pwr with pfw := true, pstate := d.pwr.pstate.leave } } := by
  have hidle (l : List Nat) (hl : ∀ t ∈ l, (d.asyTile t).running = false) : l.foldl (fun d t => d.assayInterrupt t 5) d = d := by
    induction l with
    | nil => rfl
    | cons t l ih =>
      rw [List.foldl_cons, assayInterrupt_idle 5 (hl t (List.mem_cons_self ..)) (by rw [hq]; rfl)]
      exact ih fun u hu => hl u (List.mem_cons_of_mem _ hu)
  unfold Dev.powerFail
  rw [hidle d.tileList (by simpa using hr)]

/-- The last GOOD feed is lost with no assay under way: no feed carries, power-fail warning, and no fault. -/
theorem feedLeaves_last {d : Dev} {b : Bool} {st : FeedState} {mv : Nat} (hb : (d.feed b).st = .good) (hst : st ≠ .good)
    (ho : (d.feed (!b)).st ≠ .good) (hp : d.pwr.pstate ≠ .unpowered) (hq : d.pwr.assayQueue = [])
    (hr : d.tileList.all (fun t => !(d.asyTile t).running) = true) :
    d.feedLeaves b st mv = { d.feedGone b st mv with
      pwr := { (d.feedGone b st mv).pwr with carry := .none, pfw := true, pstate := d.pwr.pstate.leave } } := by
  have hgone := feedGone_powers (d := d) (b := b) (st := st) (mv := mv)
  have hother : (d.feedGone b st mv).feedGood (!b) = false := by simp [Dev.feedGood, ho]
  have hpwr : (d.feedGone b st mv).pwr.pstate = d.pwr.pstate ∧ (d.feedGone b st mv).pwr.assayQueue = d.pwr.assayQueue := by
    rw [feedGone_pwr]; cases b <;> exact ⟨rfl, rfl⟩
  unfold Dev.feedLeaves
  simp only [hb, hst.symm, if_true, if_false]
  rw [← Dev.feedGone, if_neg (by simp [hother]), if_neg (by rw [hpwr.1]; exact hp), powerFail_idle]
  · rw [hpwr.1]
  · exact hpwr.2.trans hq
  · simpa [Dev.tileList, Dev.nTiles, Dev.asyTile, hgone.variant, hgone.asy] using hr

/-- A tile of the variant is in its reset, which a package reset absorbs (R66). -/
def Dev.anyTileReset (d : Dev) : Bool := d.tileList.any (fun t => (d.tile t).st = .reset)

theorem anyTileReset_congr {d e : Dev} (hv : e.variant = d.variant) (ht : e.tiles = d.tiles) : e.anyTileReset = d.anyTileReset := by
  have htile : e.tile = d.tile := by unfold Dev.tile; rw [ht]
  simp only [Dev.anyTileReset, Dev.tileList, Dev.nTiles, htile, hv]

/-! ## Qualification (R45, R49) -/

/-- The device in which a qualified feed has joined: GOOD, its fault's condition ended, the carriers settled. -/
def Dev.feedJoined (d : Dev) (b : Bool) : Dev := ((d.feedGone b .good (d.feed b).mv).endCond 0x01 0x01 0xFF (b2n b)).settleCarry

section
variable (d : Dev) (b : Bool)

theorem feedJoined_eq :
    (((d.setFeed b { d.feed b with st := .good }).irq 4).endCond 0x01 0x01 0xFF (b2n b)).settleCarry = d.feedJoined b := rfl

/-- Of the power state a qualified feed changes its record, the carrier and the changeover count. -/
theorem feedJoined_pwr : ∃ c n, (d.feedJoined b).pwr = { (d.setFeed b { d.feed b with st := .good }).pwr with carry := c, changeovers := n } := by
  obtain ⟨c, n, hsettle⟩ := settleCarry_same ((d.feedGone b .good (d.feed b).mv).endCond 0x01 0x01 0xFF (b2n b))
  refine ⟨c, n, ?_⟩
  rw [Dev.feedJoined, hsettle, ← feedGone_pwr]
  rfl

/-- Qualification leaves power-fail warning, the package power state and RESET_N as they were. -/
theorem feedJoined_keeps : (d.feedJoined b).pwr.pstate = d.pwr.pstate ∧ (d.feedJoined b).pwr.pfw = d.pwr.pfw ∧
    (d.feedJoined b).pwr.pinReset = d.pwr.pinReset := by
  obtain ⟨c, n, h⟩ := feedJoined_pwr d b
  rw [h]; cases b <;> exact ⟨rfl, rfl, rfl⟩

theorem feedJoined_good : ((d.feedJoined b).feed b).st = .good := by
  obtain ⟨c, n, h⟩ := feedJoined_pwr d b
  rw [feed_congr (d := d.setFeed b { d.feed b with st := .good }) (by rw [h]) (by rw [h]), feed_setFeed_same]

theorem feedJoined_powers : Powers d (d.feedJoined b) := by
  obtain ⟨c, n, hsettle⟩ := settleCarry_same ((d.feedGone b .good (d.feed b).mv).endCond 0x01 0x01 0xFF (b2n b))
  rw [Dev.feedJoined, hsettle]
  exact (feedGone_powers.trans (endCond_raises _ _ _ _ _).powers).trans (powers_pwr _ _)

/-- The model's operation, once the feed has joined: what follows depends on the package power state and on power-fail warning. -/
theorem opFeedQualified_joined {d : Dev} {b : Bool} (hq : (d.feed b).st = .qualifying) (hp : d.pwr.pstate ≠ .unpowered) (src : BitVec 2) (ref : Bool) :
    d.opFeedQualified b src ref =
      if d.pwr.pfw then
        let r := (d.feedJoined b).packageReset false 2
        let x : Dev := { r with pwr := { r.pwr with pfwSeen := true, carry := r.carryNow, pstate := .aon } }
        if d.pwr.pinReset.asserted && !d.pwr.pinReset.ignored then x else x.coldBoot src ref
      else d.feedJoined b := by
  obtain ⟨hstate, hpfw, hpin⟩ := feedJoined_keeps d b
  have hreset : ((d.feedJoined b).packageReset false 2).pwr.pinReset = d.pwr.pinReset.rebase (d.feedJoined b).now := by rw [← hpin]; rfl
  simp only [Dev.opFeedQualified, hq, ne_eq, not_true_eq_false, if_false, feedJoined_eq, hstate, hp, hpfw, hreset, Pin.rebase]

end

/-- Settles O1: the loss of a GOOD feed has one outcome for each state of the other feed, whatever its cause, and a feed that qualifies joins
before power-fail warning decides on the cold reset. -/
theorem feedEventsChangeFeedAndCarrier : Obligations.FeedEventsChangeFeedAndCarrier := by
  unfold Obligations.FeedEventsChangeFeedAndCarrier
  refine ⟨?inRange, ?qualified, ?recovered, ?under, ?lastOver, ?reversed, ?mode, ?aonDrop⟩
  case inRange =>
    intro d b mv h
    refine becomes_of (f := fun d => d.opFeedInRange b mv) (fun _ => rfl) ?_
    have hin : (d.feed b).st.inRange mv = true := by
      rcases h with ⟨hst, hlo, hhi⟩ | ⟨hst | hst | hst, hlo, hhi⟩ <;> simp [FeedState.inRange, hst, hlo, hhi]
    simp only [Dev.opFeedInRange, hin, if_true]
  case qualified =>
    rintro d feed ⟨hq, hpfw, hp⟩
    refine becomes_of (f := fun d => d.opFeedQualified feed.feedB feed.straps.bootSrc feed.straps.refSel) (fun _ => rfl) ?_
    rw [opFeedQualified_joined hq hp, if_neg (by rw [hpfw]; decide)]
    rfl
  case recovered =>
    rintro d feed ⟨hq, hpfw, hp, hn⟩
    refine leaves_of (f := fun d => d.opFeedQualified feed.feedB feed.straps.bootSrc feed.straps.refSel) (fun _ => rfl) ?_
    obtain ⟨b, straps⟩ := feed
    have hwarm : (d.feedJoined b).inWarm = false := by simp [Dev.inWarm, (feedJoined_keeps d b).2.1, hpfw]
    have hjoin := feedJoined_powers d b
    rw [opFeedQualified_joined hq hp, if_pos hpfw]
    simp only [hn, Bool.false_and, Bool.false_eq_true, if_false]
    refine ⟨feedJoined_good d b, rfl, rfl, rfl, rfl, rfl, ?_⟩
    · show (d.feedJoined b).rst.cause ||| 1#32 <<< 2 ||| (if ((d.feedJoined b).anyTileReset || (!false && (d.feedJoined b).inWarm)) then 0x100#32 else 0#32) =
        d.rst.cause ||| 4#32 ||| (if d.anyTileReset then 0x100#32 else 0#32)
      rw [hwarm, anyTileReset_congr hjoin.variant hjoin.tiles, hjoin.rst, Bool.and_false, Bool.or_false]
      rfl
  case under =>
    rintro d b mv ⟨hmv, hb, ho⟩
    refine leaves_of (f := fun d => d.opFeedUnderVoltage b mv) (fun _ => rfl) ?_
    have hst : (if mv < 500 then FeedState.off else .under) ≠ .good := by split <;> decide
    simp only [Dev.opFeedUnderVoltage, hmv, if_true]
    exact feedLeaves_spec hb hst ho
  case lastOver =>
    rintro d b mv ⟨hmv, hb, ho, hp, hq, hr⟩
    refine leaves_of (f := fun d => d.opFeedOverVoltage b mv) (fun _ => rfl) ?_
    have hgone := feedGone_powers (d := d) (b := b) (st := .overV) (mv := mv)
    simp only [Dev.opFeedOverVoltage, hmv, if_true]
    rw [feedLeaves_last hb (by decide) ho hp hq hr]
    have hfeed : (d.feedGone b .overV mv).feed b = { d.feed b with st := .overV, mv := mv } := feedGone_feed_same
    refine ⟨congrArg Feed.st hfeed, congrArg Feed.mv hfeed, rfl, rfl, ?_, ?_⟩
    · show (d.feedGone b .overV mv).pwr.changeovers = _
      rw [feedGone_pwr]; cases b <;> rfl
    · show (d.feedGone b .overV mv).flt = d.flt
      exact (irq_talks _ 4).flt.trans (by cases b <;> rfl)
  case reversed =>
    rintro d b ⟨hb, ho⟩
    refine leaves_of (f := fun d => d.opFeedReversed b) (fun _ => rfl) ?_
    obtain ⟨hst, hmv, hother, hcarry, -, hrest⟩ := feedLeaves_spec (st := .reversed) (mv := 0) hb (by decide) ho
    exact ⟨hst, hmv, hother, hcarry, hrest⟩
  case mode =>
    rintro d value ⟨hok, hv⟩
    refine becomes_of (f := fun d => d.opFeedModeWrite value) (fun _ => rfl) ?_
    simp [Dev.opFeedModeWrite, hok, hv]
  case aonDrop =>
    intro d hp
    refine leaves_of (f := Dev.opAonDomainDrop) (fun _ => rfl) ?_
    simp [Dev.opAonDomainDrop, hp]

end Sys2Proof.Machine

/-! PROOFS. LULL on a system lane (refutes O10). -/

namespace Sys2Proof.Machine

/-- A ready device whose lane 8 of tile 0 is system port 0, UP with block lock, and awaits the first control block of a message. -/
def sysLaneUp : Dev :=
  { rst := { stage := .ready }
    pwr := { pstate := .operating }
    tiles := [(0, { st := .run })]
    lanes := [(laneKey 0 8, { role := 1, neg := .up, locked := true, rxLull := false, txLull := false })]
    join := { ports := [(0, { en := true })] } }

/-- A LULL block with its check (Table 4-2). -/
def lullBlock : BitVec 64 := ctrlBlock 0x55 0

/-- Refutes O10, in its clause on LULL, which says of every lane whose receiver listens with block lock that a checked LULL block marks the
partner and changes nothing else. Lane 8 is a system port that may be UP, and there a control block also ends what the receiver gathers: a
message of typed blocks begins anew at a control block with its check (R403), so the lane's message buffer changes too. -/
theorem not_lanesLoopLullAndReport : ¬ Obligations.LanesLoopLullAndReport := by
  unfold Obligations.LanesLoopLullAndReport
  rintro ⟨-, hlull, -⟩
  have hopen : sysLaneUp.rxOpen 0 8 = true ∧ (sysLaneUp.lane 0 8).locked = true ∧ blkByte lullBlock 0 = 0x55 ∧
      blkByte lullBlock 7 = blkCrc lullBlock := by decide +kernel
  have hdev := (becomes_iff_of_live (f := fun d => d.opLull 0 8 lullBlock) fun _ => rfl).1 (hlull sysLaneUp 0 8 lullBlock hopen)
  have hmodel : ((sysLaneUp.opLull 0 8 lullBlock).lane 0 8).msgBuf = some [] := by decide +kernel
  have hstated : ((sysLaneUp.updLane 0 8 (fun x => { x with partnerLull := true })).lane 0 8).msgBuf = none := by decide +kernel
  rw [hdev, hstated] at hmodel
  cases hmodel

end Sys2Proof.Machine

/-! PROOFS. Rails, temperature, the power cap and assay headroom (O2). -/

namespace Sys2Proof.Machine

/-! ## What quiescing a tile leaves of the supplies (R77) -/

/-- Variant, tiles, power, assay and raw time are as they were. -/
structure KeepsPower (d e : Dev) : Prop where
  variant : e.variant = d.variant
  tiles : e.tiles = d.tiles
  pwr : e.pwr = d.pwr
  asy : e.asy = d.asy
  now : e.now = d.now

theorem KeepsPower.refl (d : Dev) : KeepsPower d d := ⟨rfl, rfl, rfl, rfl, rfl⟩
theorem KeepsPower.trans {d e f : Dev} (h : KeepsPower d e) (g : KeepsPower e f) : KeepsPower d f :=
  ⟨g.variant.trans h.variant, g.tiles.trans h.tiles, g.pwr.trans h.pwr, g.asy.trans h.asy, g.now.trans h.now⟩
theorem KeepsPower.foldl {α : Type} (f : Dev → α → Dev) (h : ∀ d x, KeepsPower d (f d x)) (l : List α) (d : Dev) : KeepsPower d (l.foldl f d) := by
  induction l generalizing d with
  | nil => exact KeepsPower.refl d
  | cons a l ih => exact (h d a).trans (ih (f d a))
theorem KeepsPower.ite {d a b : Dev} (c : Prop) [Decidable c] (ha : KeepsPower d a) (hb : KeepsPower d b) : KeepsPower d (if c then a else b) := by
  split
  · exact ha
  · exact hb
theorem Talks.keepsPower {d e : Dev} (h : Talks d e) : KeepsPower d e := ⟨h.variant, h.tiles, h.pwr, h.asy, congrArg TimeState.raw h.time⟩

theorem keepsPower_join (d : Dev) (j : JoinState) : KeepsPower d { d with join := j } := ⟨rfl, rfl, rfl, rfl, rfl⟩
theorem updSysPort_keepsPower (d : Dev) (p : Nat) (f : SysPort → SysPort) : KeepsPower d (d.updSysPort p f) := ⟨rfl, rfl, rfl, rfl, rfl⟩
theorem updGroup_keepsPower (d : Dev) (t : Nat) (f : Group → Group) : KeepsPower d (d.updGroup t f) := ⟨rfl, rfl, rfl, rfl, rfl⟩
theorem setFrameError_keepsPower (d : Dev) (e : Int) : KeepsPower d (d.setFrameError e) := ⟨rfl, rfl, rfl, rfl, rfl⟩
theorem sysTimeLost_keepsPower (d : Dev) : KeepsPower d { d with time := { d.time with sysOk := false } } := ⟨rfl, rfl, rfl, rfl, rfl⟩
theorem tileLose_keepsPower (d : Dev) (t : Nat) : KeepsPower d (d.tileLose t) := ⟨rfl, rfl, rfl, rfl, rfl⟩

theorem retime_keepsPower (d : Dev) : KeepsPower d d.retime := by
  have hsource : KeepsPower d { d with time := { d.time with source := d.bestSource } } := ⟨rfl, rfl, rfl, rfl, rfl⟩
  refine hsource.trans ?_
  unfold Dev.retime
  dsimp only
  repeat' split
  all_goals exact ⟨rfl, rfl, rfl, rfl, rfl⟩

theorem barrierDrop_keepsPower (d : Dev) (n st : Nat) : KeepsPower d (d.barrierDrop n st) := by
  unfold Dev.barrierDrop
  split
  · exact ((keepsPower_join d _).trans (count_talks _ _ _ _).keepsPower).trans (complete_talks _ _ _ _ _).keepsPower
  · exact KeepsPower.refl d

theorem barrierAbortDown_keepsPower (d : Dev) (n st : Nat) : KeepsPower d (d.barrierAbortDown n st) :=
  (sysSend_talks _ _ _ _ _ _ _).keepsPower.trans (barrierDrop_keepsPower _ _ _)

theorem opTimeFresh_keepsPower (d : Dev) (changed : Bool) : KeepsPower d (d.opTimeFresh changed) := by
  unfold Dev.opTimeFresh
  dsimp only
  refine KeepsPower.ite _ (KeepsPower.refl d) ?_
  have hdrop := KeepsPower.ite (d.subtree.length < d.join.nMembers)
    (KeepsPower.foldl _ (fun d n => barrierAbortDown_keepsPower d n stState) (d.join.barriers.map (fun e => e.1)) d) (KeepsPower.refl d)
  refine hdrop.trans (KeepsPower.ite _ ((keepsPower_join _ _).trans (sysSend_talks _ _ _ _ _ _ _).keepsPower) (KeepsPower.refl _))

theorem detach_keepsPower (d : Dev) (from_ : Option Nat) (whole : Bool) : KeepsPower d (d.detach from_ whole) := by
  unfold Dev.detach
  refine KeepsPower.ite _ (KeepsPower.refl d) ?_
  refine KeepsPower.trans ?_ (retime_keepsPower _)
  refine KeepsPower.trans ?_ (sysTimeLost_keepsPower _)
  refine KeepsPower.trans ?_ (keepsPower_join _ _)
  refine KeepsPower.trans ?_ (KeepsPower.foldl _ (fun d n => barrierDrop_keepsPower d n stState) _ _)
  refine KeepsPower.trans ?_ (KeepsPower.foldl _ (fun d p => updSysPort_keepsPower d p _) _ _)
  exact (sysSend_talks _ _ _ _ _ _ _).keepsPower

theorem dropLink_keepsPower (d : Dev) (p : Nat) : KeepsPower d (d.dropLink p) := by
  unfold Dev.dropLink
  split
  · exact detach_keepsPower d none false
  · exact (keepsPower_join d _).trans ((updSysPort_keepsPower _ _ _).trans (opTimeFresh_keepsPower _ _))
  · exact KeepsPower.refl d

theorem portDown_keepsPower (d : Dev) (p : Nat) : KeepsPower d (d.portDown p) :=
  KeepsPower.ite _ (KeepsPower.refl d) ((dropLink_keepsPower d p).trans (updSysPort_keepsPower _ _ _))

theorem releaseTree_keepsPower (d : Dev) (t : Nat) : KeepsPower d (d.releaseTree t) := by
  unfold Dev.releaseTree
  split
  · exact KeepsPower.refl d
  · exact KeepsPower.ite _ ((leaseSend_talks _ _ _ _).keepsPower.trans (updGroup_keepsPower _ _ _))
      (KeepsPower.ite _ (updGroup_keepsPower _ _ _) (KeepsPower.refl d))

theorem releaseTile_keepsPower (d : Dev) (t : Nat) : KeepsPower d (d.releaseTile t) :=
  KeepsPower.foldl _ (fun d k => releaseTree_keepsPower d (8 * t + k)) _ d

/-- Of what power supervision reads, steps 1 to 3 of R77 change the record of their tile alone. -/
theorem quiesce_eq (d : Dev) (t : Nat) :
    ∃ e, KeepsPower d e ∧
      d.quiesce t = e.updTile t (fun x => { x with uplinkFault := true, cdcResync := 0, cdcHeld := [], omciQ := [], timeErrAt := none }) := by
  refine ⟨_, ?_, rfl⟩
  refine KeepsPower.trans ?_ (KeepsPower.ite _ (KeepsPower.refl _) (setFrameError_keepsPower _ 0))
  refine KeepsPower.trans ?_ (tileLose_keepsPower _ t)
  refine KeepsPower.trans ?_ (KeepsPower.foldl _ (fun d l => KeepsPower.ite _ (portDown_keepsPower d _) (KeepsPower.refl d)) _ _)
  refine KeepsPower.trans ?_ (emit_talks _ _).keepsPower
  refine KeepsPower.trans ?_ (KeepsPower.foldl _ (fun d l => (laserOff_talks d _).keepsPower) _ _)
  refine KeepsPower.trans ?_ (KeepsPower.foldl _ (fun d k => KeepsPower.ite _ (emit_talks d _).keepsPower (KeepsPower.refl d)) _ _)
  exact releaseTile_keepsPower d t

/-! ## Tile records -/

@[simp] theorem tile_updTile (d : Dev) (t : Nat) (f : Tile → Tile) : (d.updTile t f).tile t = f (d.tile t) := by simp [Dev.updTile]

theorem tile_updTile_ne (d : Dev) {t u : Nat} (f : Tile → Tile) (h : u ≠ t) : (d.updTile t f).tile u = d.tile u :=
  mgetD_mput_ne _ _ _ _ _ h

theorem tile_congr {d e : Dev} (h : e.tiles = d.tiles) (t : Nat) : e.tile t = d.tile t := by unfold Dev.tile; rw [h]

/-- Only tile records change, and of each of them nothing that a projection shows. -/
structure OnlyTiles {α : Type} (π : Tile → α) (d e : Dev) : Prop where
  same : e = { d with tiles := e.tiles }
  tile (u : Nat) : π (e.tile u) = π (d.tile u)

section
variable {α : Type} {π : Tile → α}

theorem OnlyTiles.refl (d : Dev) : OnlyTiles π d d := ⟨rfl, fun _ => rfl⟩
theorem OnlyTiles.trans {d e f : Dev} (h : OnlyTiles π d e) (g : OnlyTiles π e f) : OnlyTiles π d f :=
  ⟨by rw [g.same, h.same], fun u => (g.tile u).trans (h.tile u)⟩
theorem OnlyTiles.foldl {β : Type} (f : Dev → β → Dev) (h : ∀ d x, OnlyTiles π d (f d x)) (l : List β) (d : Dev) : OnlyTiles π d (l.foldl f d) := by
  induction l generalizing d with
  | nil => exact OnlyTiles.refl d
  | cons a l ih => exact (h d a).trans (ih (f d a))

theorem updTile_onlyTiles {f : Tile → Tile} (hf : ∀ x, π (f x) = π x) (d : Dev) (t : Nat) : OnlyTiles π d (d.updTile t f) := by
  refine ⟨rfl, fun u => ?_⟩
  by_cases h : u = t
  · rw [h, tile_updTile, hf]
  · rw [tile_updTile_ne d f h]

/-- A projection of a tile shows none of its crossings. -/
def HidesCrossings (π : Tile → α) : Prop := ∀ (x : Tile) (m : BitVec 9) (held : List (Nat × Nat)), π { x with cdcResync := m, cdcHeld := held } = π x

variable (hπ : HidesCrossings π)
include hπ

theorem crossMark_onlyTiles (d : Dev) (t : Nat) : OnlyTiles π d (d.crossMark t) := by
  have hmark : OnlyTiles π d (d.updTile t (fun x => { x with cdcResync := d.cdcMode &&& 0x81#9, cdcHeld := [] })) :=
    updTile_onlyTiles (fun x => hπ x _ _) d t
  unfold Dev.crossMark
  dsimp only
  split
  · exact hmark.trans (OnlyTiles.foldl _ (fun d u => updTile_onlyTiles (fun x => hπ x _ x.cdcHeld) d u) _ _)
  · exact hmark

theorem crossSettled_onlyTiles (d : Dev) : OnlyTiles π d d.crossSettled :=
  OnlyTiles.foldl _ (fun d u => updTile_onlyTiles (fun x => hπ x _ x.cdcHeld) d u) _ d

end

/-- The variant, the tiles that have yet to report in a boot run, and what a projection shows of each tile are as they were. -/
structure KeepsTiles {α : Type} (π : Tile → α) (d e : Dev) : Prop where
  variant : e.variant = d.variant
  bootRun : e.asy.bootRun = d.asy.bootRun
  tile (u : Nat) : π (e.tile u) = π (d.tile u)

section
variable {α : Type} {π : Tile → α}

theorem KeepsTiles.refl (d : Dev) : KeepsTiles π d d := ⟨rfl, rfl, fun _ => rfl⟩
theorem KeepsTiles.trans {d e f : Dev} (h : KeepsTiles π d e) (g : KeepsTiles π e f) : KeepsTiles π d f :=
  ⟨g.variant.trans h.variant, g.bootRun.trans h.bootRun, fun u => (g.tile u).trans (h.tile u)⟩
theorem OnlyTiles.keepsTiles {d e : Dev} (h : OnlyTiles π d e) : KeepsTiles π d e := ⟨by rw [h.same], by rw [h.same], h.tile⟩
theorem KeepsPower.keepsTiles {d e : Dev} (h : KeepsPower d e) : KeepsTiles π d e :=
  ⟨h.variant, congrArg _ h.asy, fun u => congrArg π (tile_congr h.tiles u)⟩
theorem Raises.keepsTiles {d e : Dev} (h : Raises d e) : KeepsTiles π d e :=
  ⟨h.variant, congrArg _ h.asy, fun u => congrArg π (tile_congr h.tiles u)⟩
theorem updTile_keepsTiles {f : Tile → Tile} (hf : ∀ x, π (f x) = π x) (d : Dev) (t : Nat) : KeepsTiles π d (d.updTile t f) :=
  (updTile_onlyTiles hf d t).keepsTiles

/-- A tile's change of state shows in its state alone. -/
theorem tileTo_keepsTiles (hst : ∀ x s, π { x with st := s } = π x) (d : Dev) (t : Nat) (s : TileState) : KeepsTiles π d (d.tileTo t s) := by
  unfold Dev.tileTo
  split
  · exact KeepsTiles.refl d
  · exact (updTile_keepsTiles (fun x => hst x s) d t).trans (irq_talks _ 1).raises.keepsTiles

end

theorem tileTo_st (d : Dev) (t : Nat) (s : TileState) : ((d.tileTo t s).tile t).st = s := by
  unfold Dev.tileTo
  split
  · assumption
  · rw [tile_congr (irq_talks _ 1).tiles, tile_updTile]

/-- What rail and temperature supervision record of a tile: rails in range, rails that failed, the rail being ramped, the level. -/
def Tile.supply (x : Tile) : BitVec 6 × BitVec 6 × Option Nat × Nat := (x.railOk, x.railFault, x.ramping, x.level)

/-- Neither a tile's supply nor its state says anything of its crossings. -/
theorem supply_hidesCrossings : HidesCrossings Tile.supply := fun _ _ _ => rfl
theorem st_hidesCrossings : HidesCrossings Tile.st := fun _ _ _ => rfl

/-- Steps 1 to 3 of R77 leave every tile's supply as it was. -/
theorem quiesce_keepsSupply (d : Dev) (t : Nat) : KeepsTiles Tile.supply d (d.quiesce t) := by
  obtain ⟨e, hkeep, hquiet⟩ := quiesce_eq d t
  rw [hquiet]
  refine hkeep.keepsTiles.trans (updTile_keepsTiles ?_ e t)
  exact fun _ => rfl

theorem tileTo_keepsSupply (d : Dev) (t : Nat) (s : TileState) : KeepsTiles Tile.supply d (d.tileTo t s) := tileTo_keepsTiles (fun _ _ => rfl) d t s

/-- Taking a tile out of service leaves every supply as it was (R509). -/
theorem takeOut_keepsSupply (d : Dev) (t : Nat) : KeepsTiles Tile.supply d (d.takeOut t) := by
  unfold Dev.takeOut
  split
  · exact KeepsTiles.refl d
  · exact (((quiesce_keepsSupply d t).trans (tileTo_keepsSupply _ t .isolated)).trans
      (crossSettled_onlyTiles supply_hidesCrossings _).keepsTiles).trans (complete_talks _ _ _ _ _).raises.keepsTiles

/-- A tile taken out of service is ISOLATED (R509). -/
theorem takeOut_st {d : Dev} {t : Nat} (ht : t < d.nTiles) : ((d.takeOut t).tile t).st = .isolated := by
  unfold Dev.takeOut
  rw [if_neg (Nat.not_le.mpr ht), tile_congr (complete_talks _ _ _ _ _).tiles, (crossSettled_onlyTiles st_hidesCrossings _).tile, tileTo_st]

theorem assayExit_keepsSupply (d : Dev) (t : Nat) (s : TileState) : KeepsTiles Tile.supply d (d.assayExit t s) := by
  have hrst (e : Dev) (r : RstState) : KeepsTiles Tile.supply e { e with rst := r } := ⟨rfl, rfl, fun _ => rfl⟩
  have hcross : KeepsTiles Tile.supply d (d.crossReset t) := (hrst d _).trans (crossMark_onlyTiles supply_hidesCrossings _ t).keepsTiles
  unfold Dev.assayExit
  refine (((hcross.trans (tileTo_keepsSupply _ t s)).trans (crossSettled_onlyTiles supply_hidesCrossings _).keepsTiles).trans
    (hrst _ _)).trans (updTile_keepsTiles ?_ _ t)
  exact fun _ => rfl

/-- The interruption of an assay run leaves every supply as it was (R456). -/
theorem assayInterrupt_keepsSupply (d : Dev) (t reason : Nat) : KeepsTiles Tile.supply d (d.assayInterrupt t reason) := by
  have hexit (e : Dev) : KeepsTiles Tile.supply e (if t = 0 then e else e.assayExit t .isolated) := by
    split
    · exact KeepsTiles.refl e
    · exact assayExit_keepsSupply e t .isolated
  unfold Dev.assayInterrupt
  dsimp only
  split
  · refine KeepsTiles.trans ?_ (recordFault_raises _ _).keepsTiles
    refine KeepsTiles.trans ?_ (complete_talks _ _ _ _ _).raises.keepsTiles
    refine KeepsTiles.trans ?_ (hexit _)
    exact ⟨rfl, rfl, fun _ => rfl⟩
  · exact KeepsTiles.refl d

theorem assayComplete_talks (d : Dev) : Talks d d.assayComplete := Talks.foldl _ (fun d m => by
  dsimp only
  split
  · exact complete_talks _ _ _ _ _
  · exact Talks.refl d) _ d

/-- A tile that is in no boot run strikes none off. -/
theorem bootRunDone_absent {d : Dev} {t : Nat} (h : d.asy.bootRun.contains t = false) (ran : Bool) : d.bootRunDone t ran = d := by
  unfold Dev.bootRunDone
  rw [if_pos (by rw [h]; rfl)]

/-- The end of a tile's waiting and of its commands leaves tiles and faults, where it is in no boot run (R457, R460). -/
theorem assayGone_keeps {d : Dev} {t : Nat} (h : d.asy.bootRun.contains t = false) : (d.assayGone t).tiles = d.tiles ∧ (d.assayGone t).flt = d.flt := by
  have hend (e : Dev) (he : e.asy.bootRun.contains t = false) :
      (e.bootRunDone t true).assayComplete.tiles = e.tiles ∧ (e.bootRunDone t true).assayComplete.flt = e.flt := by
    rw [bootRunDone_absent he]
    exact ⟨(assayComplete_talks e).tiles, (assayComplete_talks e).flt⟩
  unfold Dev.assayGone
  dsimp only
  split
  · exact hend _ h
  · exact hend d h

/-- The device in which a fault has isolated a tile other than the lead: its run interrupted, its rails off, itself out of service, an F3
raised, and its boot run and assay commands settled (R52, R56). -/
def Dev.isolatedFor (d : Dev) (t reason ev detail : Nat) (cond : Bool) : Dev :=
  ((((d.assayInterrupt t reason).railsOff t).takeOut t).raise 0x01 ev 3 t t detail cond true).assayGone t

section
variable {d : Dev} {t : Nat} (hb : d.asy.bootRun.contains t = false) (reason ev detail : Nat) (cond : Bool)
include hb

theorem isolatedFor_keeps :
    (d.isolatedFor t reason ev detail cond).tiles = (((d.assayInterrupt t reason).railsOff t).takeOut t).tiles ∧
      (d.isolatedFor t reason ev detail cond).flt = ((((d.assayInterrupt t reason).railsOff t).takeOut t).raise 0x01 ev 3 t t detail cond true).flt := by
  have hraise := raise_raises (((d.assayInterrupt t reason).railsOff t).takeOut t) 0x01 ev 3 t t detail cond true
  have hboot : ((((d.assayInterrupt t reason).railsOff t).takeOut t).raise 0x01 ev 3 t t detail cond true).asy.bootRun.contains t = false := by
    rw [hraise.asy, (takeOut_keepsSupply _ t).bootRun]
    show (d.assayInterrupt t reason).asy.bootRun.contains t = false
    rw [(assayInterrupt_keepsSupply d t reason).bootRun]
    exact hb
  obtain ⟨htiles, hflt⟩ := assayGone_keeps hboot
  exact ⟨htiles.trans hraise.tiles, hflt⟩

theorem isolatedFor_raised : Raised (d.isolatedFor t reason ev detail cond) 0x01 ev t t := by
  unfold Raised
  rw [(isolatedFor_keeps hb reason ev detail cond).2]
  exact raise_raised _ _ _ _ _ _ _ _ _

theorem isolatedFor_tile : (d.isolatedFor t reason ev detail cond).tile t = (((d.assayInterrupt t reason).railsOff t).takeOut t).tile t :=
  tile_congr (isolatedFor_keeps hb reason ev detail cond).1 t

theorem isolatedFor_st (ht : t < d.nTiles) : ((d.isolatedFor t reason ev detail cond).tile t).st = .isolated := by
  have hin : t < ((d.assayInterrupt t reason).railsOff t).nTiles := by
    show t < (d.assayInterrupt t reason).variant.tiles
    rw [(assayInterrupt_keepsSupply d t reason).variant]
    exact ht
  rw [isolatedFor_tile hb, takeOut_st hin]

/-- An isolated tile has no rail on and none ramping; its rail faults and its level stay. -/
theorem isolatedFor_supply : ((d.isolatedFor t reason ev detail cond).tile t).supply = (0, (d.tile t).railFault, none, (d.tile t).level) := by
  have hrun := (assayInterrupt_keepsSupply d t reason).tile t
  rw [isolatedFor_tile hb, (takeOut_keepsSupply _ t).tile, Dev.railsOff, tile_updTile]
  simp only [Tile.supply, Prod.mk.injEq] at hrun ⊢
  exact ⟨trivial, hrun.2.1, trivial, hrun.2.2.2⟩

end

/-! ## Rails (R51, R52) -/

/-- RAMP ends only once every tile that is not isolated has all its rails, and leaves tiles and faults as they are (Table 2-5). -/
theorem rampDone_same (d : Dev) : d.rampDone.tiles = d.tiles ∧ d.rampDone.flt = d.flt := by
  unfold Dev.rampDone
  split <;> exact ⟨rfl, rfl⟩

/-- A tile in service without its last rail holds the package in RAMP. -/
theorem rampDone_waits {d : Dev} {t : Nat} (ht : t < d.nTiles) (hrail : (d.tile t).railOk.getLsbD 5 = false) (hst : (d.tile t).st ≠ .isolated) :
    d.rampDone = d := by
  have hrails : (d.tile t).railOk ≠ 0x3F#6 := by
    intro h
    rw [h] at hrail
    revert hrail
    decide
  have hall : d.allRails = false := by
    simp only [Dev.allRails, List.all_eq_false, Dev.tileList, List.mem_range]
    exact ⟨t, ht, by simp [hrails, hst]⟩
  simp [Dev.rampDone, hall]

/-- A rail fault isolates a tile other than the lead, the failed rail recorded. -/
theorem railFaultAt_eq {d : Dev} {t rail : Nat} (h0 : t ≠ 0) (hrail : rail < 6) (overV : Bool) :
    d.railFaultAt t rail overV =
      (d.updTile t (fun x => { x with railFault := x.railFault ||| (1#6 <<< rail) })).isolatedFor t 2 0x02 (rail + 2 ^ 31 * b2n overV) false := by
  simp only [Dev.railFaultAt, Nat.not_le.mpr hrail, h0, if_false]
  rfl

/-- What a rail fault leaves of a tile other than the lead. -/
theorem railFaultAt_spec {d : Dev} {t rail : Nat} (ht : t < d.nTiles) (h0 : t ≠ 0) (hrail : rail < 6) (hb : d.asy.bootRun.contains t = false) (overV : Bool) :
    let e := (d.railFaultAt t rail overV).rampDone
    (e.tile t).st = .isolated ∧ (e.tile t).railOk = 0 ∧ (e.tile t).ramping = none ∧ (e.tile t).railFault = (d.tile t).railFault ||| (1#6 <<< rail) ∧
      Raised e 0x01 0x02 t t := by
  intro e
  obtain ⟨htiles, hflt⟩ := rampDone_same (d.railFaultAt t rail overV)
  have htile : e.tile t = (d.railFaultAt t rail overV).tile t := tile_congr htiles t
  have hboot : (d.updTile t (fun x => { x with railFault := x.railFault ||| (1#6 <<< rail) })).asy.bootRun.contains t = false := hb
  have hsupply := isolatedFor_supply hboot 2 0x02 (rail + 2 ^ 31 * b2n overV) false
  rw [← railFaultAt_eq h0 hrail, tile_updTile] at hsupply
  simp only [Tile.supply, Prod.mk.injEq] at hsupply
  obtain ⟨hok, hfault, hramp, -⟩ := hsupply
  refine ⟨?_, htile ▸ hok, htile ▸ hramp, htile ▸ hfault, ?_⟩
  · rw [htile, railFaultAt_eq h0 hrail]
    exact isolatedFor_st hboot _ _ _ _ ht
  · unfold Raised
    rw [hflt, railFaultAt_eq h0 hrail]
    exact isolatedFor_raised hboot _ _ _ _

/-! ## Faults recorded F4 (R444, R447) -/

theorem releaseAll_keepsPower (d : Dev) : KeepsPower d d.releaseAll :=
  KeepsPower.foldl _ (fun d (x : Nat × Group) => (leaseSend_talks d x.1 1 false).keepsPower.trans (updGroup_keepsPower _ _ _)) _ d

/-- Quench leaves OPERATING, unless it holds already, and touches no other field of the power state and no count of faults (Table 2-5). -/
theorem quenchNow_pwr (d : Dev) (r : FltRec) :
    (d.quenchNow r).pwr = { d.pwr with pstate := if d.flt.quench then d.pwr.pstate else d.pwr.pstate.leave } := by
  unfold Dev.quenchNow
  cases hq : d.flt.quench
  · simp only [Bool.false_eq_true, if_false]
    rw [(notify_talks _ _ _ _).pwr, (irq_talks _ _).pwr, (localFaults_talks _).pwr, (lasersOff_talks _ _).pwr, (releaseAll_keepsPower _).pwr]
  · simp only [if_true]

theorem quenchNow_unack (d : Dev) (r : FltRec) : (d.quenchNow r).flt.unack = d.flt.unack := by
  unfold Dev.quenchNow
  split
  · rfl
  · rw [(notify_talks _ _ _ _).flt, (irq_talks _ _).flt, (localFaults_talks _).flt, (lasersOff_talks _ _).flt, releaseAll_ring]

/-- A record is counted in its class, and leaves quench as it was. -/
theorem enter_unack (f : FaultState) (r : FltRec) (qe : Raw) (mram : Bool) :
    (f.enter r qe mram).unack = addNth f.unack r.cls 1 ∧ (f.enter r qe mram).quench = f.quench := by
  unfold FaultState.enter
  dsimp only
  split
  · unfold FaultState.toEmram
    dsimp only
    split <;> exact ⟨rfl, rfl⟩
  · exact ⟨rfl, rfl⟩

/-- A record of class F4 is entered and notified, and quenches. -/
theorem recordFault_f4 (d : Dev) {r : FltRec} (hr : r.cls = 4) :
    ∃ e, Talks (d.setFlt (d.flt.enter r (d.now + rawS d.quietS) (!d.pwr.pfw))) e ∧ d.recordFault r = e.quenchNow r := by
  unfold Dev.recordFault
  simp only [hr, if_true]
  refine ⟨_, ?_, rfl⟩
  split
  · exact (notify_talks _ _ _ _).trans (notify_talks _ _ _ _)
  · exact notify_talks _ _ _ _

theorem addNth_same {l : List Nat} {i : Nat} (h : i < l.length) (n : Nat) : nth (addNth l i n) i = nth l i + n := by
  simp [nth, addNth, h]

/-- An F4 takes the package out of OPERATING unless quench holds, and is counted (R443, Table 2-5). -/
theorem raise_f4 (d : Dev) (hlen : d.flt.unack.length = 5) (b ev tile inst detail : Nat) (cond : Bool) :
    let e := d.raise b ev 4 tile inst detail cond
    e.pwr = { d.pwr with pstate := if d.flt.quench then d.pwr.pstate else d.pwr.pstate.leave } ∧ nth e.flt.unack 4 = nth d.flt.unack 4 + 1 := by
  intro e
  obtain ⟨f, htalk, hrec⟩ := recordFault_f4 d (r := d.faultRec b ev 4 tile inst detail cond false) rfl
  have he : e = f.quenchNow (d.faultRec b ev 4 tile inst detail cond false) := hrec
  obtain ⟨hunack, hquench⟩ := enter_unack d.flt (d.faultRec b ev 4 tile inst detail cond false) (d.now + rawS d.quietS) (!d.pwr.pfw)
  have hflt := htalk.flt
  rw [Dev.setFlt_flt] at hflt
  constructor
  · rw [he, quenchNow_pwr, hflt, hquench, htalk.pwr]
    rfl
  · rw [he, quenchNow_unack, hflt, hunack]
    exact addNth_same (show 4 < d.flt.unack.length by omega) 1

/-! ## Temperature (R56) -/

/-- A tile other than the lead is isolated at its level with an F3. -/
theorem thermalOut_eq {d : Dev} {t : Nat} (h0 : t ≠ 0) (level : Nat) :
    d.thermalOut t level =
      (d.updTile t (fun x => { x with level := level })).isolatedFor t 3 0x06 (thermalDetail (d.tile t).nowC (d.tile t).hot) true := by
  simp only [Dev.thermalOut, h0, if_false]
  rfl

theorem thermalOut_spec {d : Dev} {t : Nat} (ht : t < d.nTiles) (h0 : t ≠ 0) (hb : d.asy.bootRun.contains t = false) (level : Nat) :
    let e := d.thermalOut t level
    (e.tile t).st = .isolated ∧ (e.tile t).level = level ∧ (e.tile t).railOk = 0 ∧ Raised e 0x01 0x06 t t := by
  have hboot : (d.updTile t (fun x => { x with level := level })).asy.bootRun.contains t = false := hb
  have hsupply := isolatedFor_supply hboot 3 0x06 (thermalDetail (d.tile t).nowC (d.tile t).hot) true
  rw [tile_updTile] at hsupply
  simp only [Tile.supply, Prod.mk.injEq] at hsupply
  obtain ⟨hok, -, -, hlevel⟩ := hsupply
  intro e
  have he : e = _ := thermalOut_eq h0 level
  rw [he]
  exact ⟨isolatedFor_st hboot _ _ _ _ ht, hlevel, hok, isolatedFor_raised hboot _ _ _ _⟩

/-- The end of a condition leaves the newest record as raised. -/
theorem endCond_raised {d : Dev} {b ev t i b' ev' t' i' : Nat} (h : Raised d b ev t i) : Raised (d.endCond b' ev' t' i') b ev t i := by
  unfold Raised at h ⊢
  unfold Dev.endCond
  dsimp only
  cases hring : d.flt.ring with
  | nil => rw [hring] at h; cases h
  | cons r rs =>
    rw [hring] at h
    simp only [List.map_cons, List.head?_cons, Option.any_some] at h ⊢
    split <;> exact h

theorem asyTile_congr {d e : Dev} (h : e.asy = d.asy) (t : Nat) : e.asyTile t = d.asyTile t := by unfold Dev.asyTile; rw [h]

/-- The device once a reading is kept and the tile has taken a level. -/
def Dev.thermalKept (d : Dev) (t : Nat) (r : Readings) (level : Nat) : Dev :=
  (d.updTile t (fun x => { x with nowC := (hottestOf r).1, peakC := max x.peakC (hottestOf r).1, hot := (hottestOf r).2 })).updTile t
    (fun x => { x with level := level })

theorem thermalKept_tile (d : Dev) (t : Nat) (r : Readings) (level : Nat) :
    (d.thermalKept t r level).tile t =
      { d.tile t with nowC := (hottestOf r).1, peakC := max (d.tile t).peakC (hottestOf r).1, hot := (hottestOf r).2, level := level } := by
  rw [Dev.thermalKept, tile_updTile, tile_updTile]

section
variable {d : Dev} {t : Nat} {r : Readings} (ht : t < d.nTiles) (hl : (d.tile t).level = 0)
include ht hl

/-- From level 0 a reading of 105 to 109 C enters warn with its F0, and ends the condition of level high. -/
theorem opThermalSensorRead_warn (hw : (d.asyTile t).waits = false) (hlo : 105 ≤ (hottestOf r).1) (hhi : (hottestOf r).1 < 110) :
    d.opThermalSensorRead t r =
      ((d.thermalKept t r 1).raise 0x01 0x04 0 t t (thermalDetail (hottestOf r).1 (hottestOf r).2) false).endCond 0x01 0x05 t t := by
  have h110 : ¬ 110 ≤ (hottestOf r).1 := by omega
  have h125 : ¬ 125 ≤ (hottestOf r).1 := by omega
  have h100 : ¬ (hottestOf r).1 < 100 := by omega
  unfold Dev.opThermalSensorRead
  simp only [Nat.not_le.mpr ht, hl, hlo, h110, h125, h100, if_true, if_false, Nat.zero_lt_one, show (1 : Nat) < 2 by decide]
  have hraise := raise_raises (d.thermalKept t r 1) 0x01 0x04 0 t t (thermalDetail (hottestOf r).1 (hottestOf r).2) false false
  have hstill := (asyTile_congr ((endCond_raises _ 0x01 0x05 t t).asy.trans hraise.asy) t).trans (asyTile_congr (d := d) rfl t)
  refine if_neg fun h => Bool.false_ne_true ?_
  rw [Bool.and_eq_true] at h
  exact (hw.symm.trans (congrArg AssayTile.waits hstill.symm)).trans h.1

/-- From level 0 a reading of 110 to 124 C enters high with its F2. -/
theorem opThermalSensorRead_high (hlo : 110 ≤ (hottestOf r).1) (hhi : (hottestOf r).1 < 125) :
    d.opThermalSensorRead t r =
      (d.thermalKept t r 2).raise 0x01 0x05 2 t t (thermalDetail (hottestOf r).1 (hottestOf r).2) true := by
  have h125 : ¬ 125 ≤ (hottestOf r).1 := by omega
  have h100 : ¬ (hottestOf r).1 < 100 := by omega
  unfold Dev.opThermalSensorRead
  simp only [Nat.not_le.mpr ht, hl, hlo, h125, h100, if_true, if_false, Nat.zero_lt_two, Nat.lt_irrefl, decide_false, Bool.and_false, Bool.false_eq_true, show ¬ (2 : Nat) = 1 by decide]
  rfl

end

/-! ## Assay headroom (R55) -/

/-- A tile's change of state changes its record and what an interrupt changes. -/
theorem tileTo_talks (d : Dev) (t : Nat) (s : TileState) : ∃ x, Talks { d with tiles := x } (d.tileTo t s) := by
  unfold Dev.tileTo
  split
  · exact ⟨d.tiles, Talks.refl d⟩
  · exact ⟨_, irq_talks _ 1⟩

/-- A tile's entry into ASSAY leaves power and raw time as they were (R454). -/
theorem assayEnter_keeps (d : Dev) (t : Nat) : (d.assayEnter t).pwr = d.pwr ∧ (d.assayEnter t).now = d.now := by
  obtain ⟨e, hkeep, hquiet⟩ := quiesce_eq d t
  obtain ⟨x, htalk⟩ := tileTo_talks ((d.quiesce t).crossMark t) t .assay
  have hmark : (d.quiesce t).crossMark t = { e with tiles := ((d.quiesce t).crossMark t).tiles } := by
    rw [(crossMark_onlyTiles st_hidesCrossings (d.quiesce t) t).same, hquiet]
    rfl
  constructor
  · refine htalk.pwr.trans ?_
    rw [hmark]
    exact hkeep.pwr
  · refine (congrArg TimeState.raw htalk.time).trans ?_
    rw [hmark]
    exact hkeep.now

/-- A tile whose run starts is in ASSAY, running from now (R454); power stays as it was. -/
theorem assayStart_spec (d : Dev) (t source set : Nat) :
    ((d.assayStart t source set).tile t).st = .assay ∧
      (d.assayStart t source set).asyTile t = { running := true, source := source, set := set, since := d.now } ∧
      (d.assayStart t source set).pwr = d.pwr := by
  obtain ⟨hpwr, hnow⟩ := assayEnter_keeps d t
  refine ⟨tileTo_st _ t .assay, ?_, hpwr⟩
  rw [← hnow]
  exact Dev.setAsyTile_asyTile _ _ _

/-- Settles O2: every event that isolates a tile other than the lead runs through `Dev.isolatedFor`, which keeps the tile's supply but for
its rails; the other events are read off the model's operation. -/
theorem railAndThermalEventsFollowTheirLevels : Obligations.RailAndThermalEventsFollowTheirLevels := by
  unfold Obligations.RailAndThermalEventsFollowTheirLevels
  refine ⟨?rampStart, ?inRange, ?aonRail, ?excursion, ?timeout, ?warn, ?high, ?isolate, ?trip, ?cap, ?headroom⟩
  case rampStart =>
    rintro d t ⟨hramp, ht, hnone, hok, hst, hbefore⟩
    refine becomes_of (f := fun d => d.opTileRampStart t) (fun _ => rfl) ?_
    exact if_pos (by simpa [hramp, ht, hnone, hok, hst, or_assoc] using hbefore)
  case inRange =>
    rintro d t rail ⟨ht, hramp, hrail, hlast, hst⟩
    refine becomes_of (f := fun d => d.opRailInRange t rail) (fun _ => rfl) ?_
    simp only [Dev.opRailInRange, ht, hramp, hrail, decide_true, Bool.and_self, if_true]
    refine rampDone_waits (t := t) ht ?_ ?_
    · have hbit : (1#6 <<< rail).getLsbD 5 = false := by simp; omega
      rw [tile_updTile, BitVec.getLsbD_or, hlast, hbit]
      rfl
    · rw [tile_updTile]; exact hst
  case aonRail =>
    rintro d t rail overV ⟨hrail, hlen⟩
    refine leaves_of (f := fun d => d.opRailExcursion t rail overV) (fun _ => rfl) ?_
    have haon : d.opRailExcursion t rail overV =
        Dev.raise { d with pwr := { d.pwr with aonRailsOk := false } } 0x01 0x03 4 0xFF 0xFFFFFFFF (rail + 2 ^ 31 * b2n overV) false := by
      rcases hrail with rfl | rfl <;> rfl
    obtain ⟨hpwr, hunack⟩ := raise_f4 { d with pwr := { d.pwr with aonRailsOk := false } } hlen 0x01 0x03 0xFF 0xFFFFFFFF (rail + 2 ^ 31 * b2n overV) false
    rw [haon]
    exact ⟨hpwr, raise_raised _ _ _ _ _ _ _ _ _, (powers_pwr d _).trans (raise_raises _ _ _ _ _ _ _ _ _).powers, hunack⟩
  case excursion =>
    rintro d t rail overV ⟨ht, h0, hrail, hok, -, hb⟩
    refine leaves_of (f := fun d => d.opRailExcursion t rail overV) (fun _ => rfl) ?_
    obtain ⟨hst, hoff, -, hfault, hraised⟩ := railFaultAt_spec ht h0 hrail hb overV
    simp only [Dev.opRailExcursion, hrail, ht, hok, decide_true, Bool.and_self, if_true]
    exact ⟨hst, hoff, hfault, hraised⟩
  case timeout =>
    rintro d t rail ⟨ht, h0, hramp, hrail, -, hb⟩
    refine leaves_of (f := fun d => d.opRailRampTimeout t rail) (fun _ => rfl) ?_
    obtain ⟨hst, hoff, hnone, -, hraised⟩ := railFaultAt_spec ht h0 hrail hb false
    simp only [Dev.opRailRampTimeout, ht, hramp, decide_true, Bool.and_self, if_true]
    exact ⟨hst, hoff, hnone, hraised⟩
  case warn =>
    rintro d t r ⟨ht, hl, hw, hlo, hhi⟩
    refine leaves_of (f := fun d => d.opThermalSensorRead t r) (fun _ => rfl) ?_
    rw [opThermalSensorRead_warn ht hl hw hlo hhi, tile_congr ((endCond_raises _ _ _ _ _).tiles.trans (raise_raises _ _ _ _ _ _ _ _ _).tiles), thermalKept_tile]
    exact ⟨rfl, rfl, rfl, rfl, endCond_raised (raise_raised _ _ _ _ _ _ _ _ _)⟩
  case high =>
    rintro d t r ⟨ht, hl, -, hlo, hhi⟩
    refine leaves_of (f := fun d => d.opThermalSensorRead t r) (fun _ => rfl) ?_
    rw [opThermalSensorRead_high ht hl hlo hhi, tile_congr (raise_raises _ _ _ _ _ _ _ _ _).tiles, thermalKept_tile]
    exact ⟨rfl, rfl, rfl, rfl, raise_raised _ _ _ _ _ _ _ _ _⟩
  case isolate =>
    rintro d t ⟨ht, h0, hl, hb⟩
    refine leaves_of (f := fun d => d.opThermalIsolate t) (fun _ => rfl) ?_
    simp only [Dev.opThermalIsolate, ht, hl, decide_true, Bool.and_self, if_true]
    exact thermalOut_spec ht h0 hb 3
  case trip =>
    rintro d t ⟨ht, h0, hl, hb⟩
    refine leaves_of (f := fun d => d.opThermalTrip t) (fun _ => rfl) ?_
    simp only [Dev.opThermalTrip, ht, hl, decide_true, Bool.and_self, if_true]
    exact thermalOut_spec ht h0 hb 4
  case cap =>
    rintro d watts ⟨hw, hready⟩
    refine becomes_of (f := fun d => d.opPowerCapExceeded watts) (fun _ => rfl) ?_
    simp only [Dev.opPowerCapExceeded, hw, hready, decide_true, Bool.and_self, if_true]
  case headroom =>
    rintro d t ⟨hfits, hfind⟩
    refine leaves_of (f := fun d => d.opAssayHeadroomStart t) (fun _ => rfl) ?_
    have hstart : d.opAssayHeadroomStart t = Dev.assayStart { d.estimate with
        pwr := { d.estimate.pwr with assayQueue := d.pwr.assayQueue.filter (fun u => u ≠ t) } } t (d.asyTile t).source (d.asyTile t).set :=
      if_pos (by rw [hfits, Bool.true_and]; exact decide_eq_true hfind)
    obtain ⟨hst, hasy, hpwr⟩ := assayStart_spec { d.estimate with
      pwr := { d.estimate.pwr with assayQueue := d.pwr.assayQueue.filter (fun u => u ≠ t) } } t (d.asyTile t).source (d.asyTile t).set
    rw [hstart]
    exact ⟨hst, hasy, congrArg PowerState.assayQueue hpwr⟩

end Sys2Proof.Machine

/-! PROOFS. The reset commands and the critical flag (O43). -/

namespace Sys2Proof.Machine

/-! ## A packet that its form refuses (R396) -/

theorem takes_iff {d : Dev} {q : Packet} :
    d.takes q = true ↔ d.ready = true ∧ 1 ≤ q.chan ∧ q.chan < 64 ∧ (32 ≤ q.chan ∨ d.host.linkUp = true) ∧ (d.mbox q.chan).send = none ∧
      d.undelivered q.chan < 16 ∧ 32 ≤ q.sendLen ∧ q.sendLen ≤ 3840 := by
  simp [Dev.takes, and_assoc]

/-- A packet that is taken is placed in its channel's area. -/
theorem place_of_takes {d : Dev} {q : Packet} (h : d.takes q = true) :
    d.place q = d.setMbox q.chan { d.mbox q.chan with send := some q, area := areaOf (q.bytes (d.senderId q.chan)) } := by
  obtain ⟨hready, hlo, hhi, hlink, hfree, -, hmin, hmax⟩ := takes_iff.1 h
  exact place_free d q hready hlo hhi hlink hfree hmin hmax

/-- A row whose packet is taken goes through the checks of that packet at once (R371). -/
theorem runRow_of_takes (sp : CmdSpec) {d : Dev} {q : Packet} (h : d.takes q = true) :
    runRow sp q d = Dev.process (some sp) q ((d.place q).clearSend q.chan) := by
  obtain ⟨hready, -, -, -, hfree, hroom, -, -⟩ := takes_iff.1 h
  have hnew : (d.mbox q.chan).send ≠ some q := by simp [hfree]
  have hsend : ((d.place q).mbox q.chan).send = some q := by rw [place_of_takes h, setMbox_mbox]
  have hcan : (d.place q).canTake q.chan = true := by
    rw [place_of_takes h]
    simp only [Dev.canTake, Dev.undelivered, setMbox_mbox, Option.isSome_some, Bool.and_true, Bool.and_eq_true, decide_eq_true_eq]
    exact ⟨hready, hroom⟩
  simp only [runRow, if_neg hnew, hsend, hcan, decide_true, Bool.and_self, if_true]

/-- Taking a packet begins no assembly. -/
theorem takenBy_asm {d : Dev} {q : Packet} (h : d.takes q = true) : ((Dev.takenBy q d).mbox q.chan).asm = (d.mbox q.chan).asm := by
  rw [Dev.takenBy, count_mbox, clearSend_asm, place_of_takes h, setMbox_mbox]

/-- A packet whose form is wrong, on a channel that joins no fragments, is refused with the status and the offset of its form. -/
theorem runRow_refused {sp : CmdSpec} {d : Dev} {q : Packet} {st ofs : Nat} (h : d.takes q = true) (hasm : (d.mbox q.chan).asm = none)
    (hform : formStatus q (some sp) = (st, ofs)) (hst : st ≠ stOk) : runRow sp q d = d.refusedWith q st ofs := by
  have hnone : ((((d.place q).clearSend q.chan).count .cmdTaken q.chan).mbox q.chan).asm = none := (takenBy_asm h).trans hasm
  rw [runRow_of_takes sp h]
  simp only [Dev.process, hform, hst, ne_eq, not_false_eq_true, if_true, hnone, Option.any_none, Dev.refuse, Bool.false_eq_true, if_false]
  rfl

theorem takenBy_talks (q : Packet) (d : Dev) : Talks d (Dev.takenBy q d) :=
  ((place_talks d q).trans (clearSend_talks _ _)).trans (count_talks _ _ _ _)

/-- A refusal before the trailer is verified is a reply and nothing more: no sender changes (R388). -/
theorem refusedWith_talks (d : Dev) (q : Packet) (st ofs : Nat) : Talks d (d.refusedWith q st ofs) :=
  (takenBy_talks q d).trans (answer_talks _ _ _ _ _ _)

/-- A packet without the critical flag is of the wrong form for a critical opcode. -/
theorem formStatus_notCritical {q : Packet} {sp : CmdSpec} (hmagic : q.magic = 0x7A5C#16) (hver : q.version = 1) (hsp : sp.crit = true)
    (hcrit : q.crit = false) : formStatus q (some sp) = (stAuthFail, 3) := by
  simp [formStatus, hmagic, hver, hsp, hcrit]

/-- A row whose opcode is critical refuses a packet without the critical flag (R388). -/
theorem needsCritical_row {i : Packet → Instr} {sp : CmdSpec} (hi : ∀ p s, exec (i p) s = live (Dev.runCommand sp p) s)
    (hsp : sp.crit = true) : NeedsCritical i sp := by
  intro p d htaken hcrit
  simp only [Dev.wellTaken, Bool.and_eq_true, decide_eq_true_eq, Option.isNone_iff_eq_none] at htaken
  obtain ⟨⟨⟨htakes, hasm⟩, hmagic⟩, hver⟩ := htaken
  have hform := formStatus_notCritical hmagic hver hsp (q := rowPacket sp p) hcrit
  refine ⟨becomes_of (hi p) ?_, fun ch => ?_⟩
  · rw [runCommand_row]
    exact runRow_refused htakes hasm hform (by decide)
  · rw [Dev.sender, (refusedWith_talks d _ _ _).senders, Dev.sender]

/-! ## Resets by command (R64) -/

theorem nTiles_pos (d : Dev) : 0 < d.nTiles := by
  unfold Dev.nTiles
  cases d.variant <;> decide

/-- A tile reset of the lead tile is the package warm reset. -/
theorem bodySysTileReset_lead {c : Cmd} (h : c.tgt = 0) (d : Dev) : bodySysTileReset c d = bodySysWarmReset c d := by
  have hin : ¬ d.nTiles ≤ c.tgt := by
    have := nTiles_pos d
    omega
  rw [bodySysTileReset, if_neg hin, if_pos h]

/-- Settles O43: a tile reset of tile 0 has the body of a warm reset, and the form of both commands wants the critical flag. -/
theorem resetCommandsAreCritical : Obligations.ResetCommandsAreCritical := by
  unfold Obligations.ResetCommandsAreCritical
  refine ⟨?tileAnswers, ?warmAnswers, ?tileCritical, ?warmCritical, ?funcAnswers⟩
  case tileAnswers => exact then_row _ _ _ _ _ (fun _ _ => rfl) fun _ d _ htgt => bodySysTileReset_lead htgt d
  case warmAnswers => exact then_row _ _ _ _ _ (fun _ _ => rfl) fun _ _ _ _ => rfl
  case tileCritical => exact needsCritical_row (fun _ _ => rfl) rfl
  case warmCritical => exact needsCritical_row (fun _ _ => rfl) rfl
  case funcAnswers => exact answers_row _ _ _ _ _ (fun _ _ => rfl) fun _ _ _ ⟨_, hadmits⟩ => hadmits

end Sys2Proof.Machine

/-! PROOFS. The scramblers, bit by bit (O54). -/

namespace Sys2Proof.Machine

/-! ## One bit (R89) -/

/-- A payload bit with the two taps of the scrambler's state added. -/
def tapped (s : BitVec 58) (b : Bool) : Bool := (b ^^ s.getLsbD 38) ^^ s.getLsbD 57

/-- A payload to which bit `i` is added. -/
def withBit (a : BitVec 64) (i : Nat) (b : Bool) : BitVec 64 := if b then a ||| (1#64 <<< i) else a

/-- The state once a bit of the line has been shifted into it. -/
def shiftIn (s : BitVec 58) (b : Bool) : BitVec 58 := (s <<< 1) ||| (if b then 1#58 else 0#58)

/-- The taps cancel when they are added twice: this is why a descrambler undoes a scrambler in the same state. -/
theorem tapped_tapped (s : BitVec 58) (b : Bool) : tapped s (tapped s b) = b := by
  unfold tapped
  cases b <;> cases s.getLsbD 38 <;> cases s.getLsbD 57 <;> rfl

theorem getLsbD_withBit (a : BitVec 64) {i : Nat} (hi : i < 64) (b : Bool) (j : Nat) :
    (withBit a i b).getLsbD j = (a.getLsbD j || (b && decide (j = i))) := by
  cases b with
  | false => simp [withBit]
  | true =>
    have hone : (1#64 <<< i).getLsbD j = decide (j = i) := by
      rw [← BitVec.twoPow_eq, BitVec.getLsbD_twoPow, decide_eq_true hi, Bool.true_and]
      exact decide_eq_decide.2 eq_comm
    simp [withBit, hone]

theorem getLsbD_shiftIn_zero (s : BitVec 58) (b : Bool) : (shiftIn s b).getLsbD 0 = b := by
  cases b <;> simp [shiftIn]

theorem getLsbD_shiftIn_succ (s : BitVec 58) (b : Bool) {j : Nat} (hj : j + 1 < 58) : (shiftIn s b).getLsbD (j + 1) = s.getLsbD j := by
  have hlt : j < 58 := by omega
  cases b <;> simp [shiftIn, hj, BitVec.getLsbD_eq_getElem hlt]

/-! ## The first bits of a block -/

/-- What `scramble` holds after the first `n` bits of a payload. -/
def scrambleBits (s : BitVec 58) (p : BitVec 64) (n : Nat) : BitVec 64 × BitVec 58 :=
  (List.range n).foldl (fun acc i =>
    (withBit acc.1 i (tapped acc.2 (p.getLsbD i)), shiftIn acc.2 (tapped acc.2 (p.getLsbD i)))) (0, s)

/-- What `descramble` holds after the first `n` bits of a block. -/
def descrambleBits (s : BitVec 58) (r : BitVec 64) (n : Nat) : BitVec 64 × BitVec 58 :=
  (List.range n).foldl (fun acc i => (withBit acc.1 i (tapped acc.2 (r.getLsbD i)), shiftIn acc.2 (r.getLsbD i))) (0, s)

theorem scramble_eq_bits (s : BitVec 58) (p : BitVec 64) : scramble s p = scrambleBits s p 64 := rfl
theorem descramble_eq_bits (s : BitVec 58) (r : BitVec 64) : descramble s r = descrambleBits s r 64 := rfl

theorem scrambleBits_succ (s : BitVec 58) (p : BitVec 64) (n : Nat) :
    scrambleBits s p (n + 1) =
      (withBit (scrambleBits s p n).1 n (tapped (scrambleBits s p n).2 (p.getLsbD n)),
        shiftIn (scrambleBits s p n).2 (tapped (scrambleBits s p n).2 (p.getLsbD n))) := by
  simp [scrambleBits, List.range_succ, List.foldl_append]

theorem descrambleBits_succ (s : BitVec 58) (r : BitVec 64) (n : Nat) :
    descrambleBits s r (n + 1) =
      (withBit (descrambleBits s r n).1 n (tapped (descrambleBits s r n).2 (r.getLsbD n)),
        shiftIn (descrambleBits s r n).2 (r.getLsbD n)) := by
  simp [descrambleBits, List.range_succ, List.foldl_append]

/-- Bits not yet sent are clear. -/
theorem scrambleBits_clear (s : BitVec 58) (p : BitVec 64) {n i : Nat} (hn : n ≤ 64) (hi : n ≤ i) :
    (scrambleBits s p n).1.getLsbD i = false := by
  induction n with
  | zero => simp [scrambleBits]
  | succ n ih =>
    rw [scrambleBits_succ, getLsbD_withBit _ hn, ih (by omega) (by omega), decide_eq_false (by omega), Bool.and_false, Bool.or_false]

/-- A bit once sent stays: it is the payload's bit under the taps of the state it found. -/
theorem scrambleBits_sent (s : BitVec 58) (p : BitVec 64) {n m : Nat} (hnm : n < m) (hm : m ≤ 64) :
    (scrambleBits s p m).1.getLsbD n = tapped (scrambleBits s p n).2 (p.getLsbD n) := by
  induction m with
  | zero => omega
  | succ m ih =>
    rw [scrambleBits_succ, getLsbD_withBit _ hm]
    by_cases heq : n = m
    · rw [heq, scrambleBits_clear s p (by omega) (Nat.le_refl m), decide_eq_true rfl, Bool.and_true, Bool.false_or]
    · rw [ih (by omega) (by omega), decide_eq_false heq, Bool.and_false, Bool.or_false]

/-! ## Descrambling what was scrambled -/

/-- When the bits of a block are those that a scrambler sent, a descrambler that began in its state holds, after `n` of them, the scrambler's
state and the payload's first `n` bits. -/
theorem descrambleBits_of_sent {s : BitVec 58} {p r : BitVec 64}
    (hr : ∀ n < 64, r.getLsbD n = tapped (scrambleBits s p n).2 (p.getLsbD n)) {n : Nat} (hn : n ≤ 64) :
    (descrambleBits s r n).2 = (scrambleBits s p n).2 ∧
      ∀ i, (descrambleBits s r n).1.getLsbD i = (p.getLsbD i && decide (i < n)) := by
  induction n with
  | zero => simp [descrambleBits, scrambleBits]
  | succ n ih =>
    obtain ⟨hstate, hbits⟩ := ih (by omega)
    rw [descrambleBits_succ, scrambleBits_succ, hstate, hr n hn, tapped_tapped]
    refine ⟨rfl, fun i => ?_⟩
    rw [getLsbD_withBit _ hn, hbits]
    by_cases hi : i = n
    · simp [hi]
    · have hlt : i < n + 1 ↔ i < n := by omega
      simp [hi, hlt]

theorem descramble_scramble (s : BitVec 58) (p : BitVec 64) : descramble s (scramble s p).1 = (p, (scramble s p).2) := by
  obtain ⟨hstate, hbits⟩ := descrambleBits_of_sent (fun n hn => scrambleBits_sent s p hn (Nat.le_refl 64)) (Nat.le_refl 64)
  rw [descramble_eq_bits, scramble_eq_bits]
  refine Prod.ext (BitVec.eq_of_getLsbD_eq fun i hi => ?_) hstate
  rw [hbits i]
  simp [hi]

/-! ## Self-synchronisation -/

/-- The bits shifted in are the block's own, so after `n` of them two descramblers agree in their lowest `n` bits. -/
theorem descrambleBits_agree (s t : BitVec 58) (r : BitVec 64) {n j : Nat} (hj : j < n) (hw : j < 58) :
    (descrambleBits s r n).2.getLsbD j = (descrambleBits t r n).2.getLsbD j := by
  induction n generalizing j with
  | zero => omega
  | succ n ih =>
    rw [descrambleBits_succ, descrambleBits_succ]
    cases j with
    | zero => rw [getLsbD_shiftIn_zero, getLsbD_shiftIn_zero]
    | succ j => rw [getLsbD_shiftIn_succ _ _ hw, getLsbD_shiftIn_succ _ _ hw, ih (by omega) (by omega)]

/-- A block is longer than the state, so after one of them nothing of the old state is left. -/
theorem descramble_state_eq (s t : BitVec 58) (r : BitVec 64) : (descramble s r).2 = (descramble t r).2 := by
  rw [descramble_eq_bits, descramble_eq_bits]
  exact BitVec.eq_of_getLsbD_eq fun j hj => descrambleBits_agree s t r (by omega) hj

/-- Settles O54: the taps cancel bit by bit, and the state takes in line bits only. -/
theorem scramblersSynchronise : Obligations.ScramblersSynchronise :=
  ⟨descramble_scramble, descramble_state_eq⟩

end Sys2Proof.Machine

/-! PROOFS. Derbex lanes: received blocks, block lock, generation steps, slips and retraining (O9). -/

namespace Sys2Proof.Machine

/-! ## The record of a lane -/

section
variable {d e : Dev} {t l : Nat}

@[simp] theorem Dev.updLane_lane (d : Dev) (t l : Nat) (f : Lane → Lane) : (d.updLane t l f).lane t l = f (d.lane t l) := d.setLane_lane t l _

@[simp] theorem Dev.emit_lane (d : Dev) (o : Output) (t l : Nat) : (d.emit o).lane t l = d.lane t l := rfl

theorem Talks.lane (h : Talks d e) (t l : Nat) : e.lane t l = d.lane t l := by simp only [Dev.lane, h.lanes]
theorem Talks.now (h : Talks d e) : e.now = d.now := congrArg TimeState.raw h.time

/-- What is written to a lane leaves every other field of the package, so a change that says nothing else may follow it. -/
theorem Talks.updLane (h : Talks { d with lanes := e.lanes } e) (f : Lane → Lane) :
    Talks { d with lanes := (e.updLane t l f).lanes } (e.updLane t l f) := by
  unfold Talks at *
  refine (congrArg (fun e' : Dev => e'.setLane t l (f (e.lane t l))) h).trans ?_
  rfl

/-- A lane in use stays so whatever is written to it, its role excepted (R54, R86). -/
theorem laneUsed_updLane {f : Lane → Lane} (hrole : (f (d.lane t l)).role = (d.lane t l).role) :
    (d.updLane t l f).laneUsed t l = d.laneUsed t l := by
  have hrole' : (d.updLane t l f).laneRole t l = d.laneRole t l := by
    unfold Dev.laneRole
    rw [Dev.updLane_lane, hrole]
    rfl
  unfold Dev.laneUsed Dev.laneFn
  rw [hrole']
  rfl

/-! ## Blocks sent (R88, R93) -/

/-- Everything of a lane but its transmit scrambler, the blocks under way in a near-end loop and the age of its last ABIL is as it was: what
sending a block can change. -/
def Lane.Sends (x y : Lane) : Prop := y = { x with abilAge := y.abilAge, txScr := y.txScr, loopQ := y.loopQ }

theorem Lane.Sends.trans {x y z : Lane} (h : x.Sends y) (g : y.Sends z) : x.Sends z := by
  unfold Lane.Sends at *; rw [g]; rw [h]

theorem sendBlock_sends (d : Dev) (t l typ body : Nat) (at_ : Option Nat) : (d.lane t l).Sends ((d.sendBlock t l typ body at_).lane t l) := by
  unfold Dev.sendBlock
  dsimp only
  repeat' split
  case isTrue => exact rfl
  all_goals
    simp only [Dev.emit_lane, Dev.updLane_lane]
    exact rfl

theorem sendAbil_sends (d : Dev) (t l req : Nat) (ack nack : Bool) : (d.lane t l).Sends ((d.sendAbil t l req ack nack).lane t l) := by
  have hage : (d.lane t l).Sends ((d.updLane t l (fun x => { x with abilAge := 0 })).lane t l) := by
    rw [Dev.updLane_lane]
    rfl
  exact hage.trans (sendBlock_sends _ t l _ _ none)

/-! ## Received blocks (R87, R89, R99) -/

/-- An open receiver's lane is live, out of receive lull and in no near-end loop. -/
theorem rxOpen_iff : d.rxOpen t l = true ↔
    d.laneLive t l = true ∧ (d.lane t l).rxLull = false ∧ (decide (d.laneLoop t l = 1) || decide (d.laneLoop t l = 2)) = false := by
  unfold Dev.rxOpen
  rw [Bool.and_eq_true, Bool.and_eq_true, Bool.not_eq_true', Bool.not_eq_true', and_assoc]

/-- Whether the clocks behind a lane are stopped: no framer of its tree is on (R82). -/
theorem framersOff_eq_false (h : 8 ≤ l ∨ (treeChans (8 * t + l)).all (fun ch => !d.framerOn ch) = false) :
    (decide (l < 8) && (treeChans (8 * t + l)).all (fun ch => !d.framerOn ch)) = false := by
  rcases h with h | h
  · rw [decide_eq_false (by omega), Bool.false_and]
  · rw [h, Bool.and_false]

/-- The device once an open receiver has descrambled a block (R89). -/
def Dev.descrambled (d : Dev) (t l : Nat) (payload : BitVec 64) : Dev :=
  d.updLane t l (fun x => { x with rxScr := (descramble (d.lane t l).rxScr payload).2, sd := true })

/-- A block with an invalid header: nothing of it is used (R87). -/
theorem opBlockReceived_invalid {header : BitVec 2} (payload : BitVec 64) (hopen : d.rxOpen t l = true)
    (hclk : 8 ≤ l ∨ (treeChans (8 * t + l)).all (fun ch => !d.framerOn ch) = false) (hbad : header = 0#2 ∨ header = 3#2) :
    d.opBlockReceived t l header payload = ((d.descrambled t l payload).headerIn t l false).abilTick t l := by
  obtain ⟨-, -, hloop⟩ := rxOpen_iff.1 hopen
  have hok : (decide (header = 1#2) || decide (header = 2#2)) = false := by rcases hbad with rfl | rfl <;> rfl
  simp only [Dev.opBlockReceived, hloop, hopen, framersOff_eq_false hclk, hok, Bool.and_false, Bool.false_and, Bool.not_true,
    Bool.false_eq_true, if_false]
  rfl

/-- A control block on a locked lane outside a far-end loop takes its effect (R90). -/
theorem opBlockReceived_control (payload : BitVec 64) (hopen : d.rxOpen t l = true)
    (hclk : 8 ≤ l ∨ (treeChans (8 * t + l)).all (fun ch => !d.framerOn ch) = false) (hlock : (d.lane t l).locked = true)
    (hfar : (d.lane t l).farLoop = false) :
    d.opBlockReceived t l 2#2 payload =
      ((((d.descrambled t l payload).msgBlock t l true (descramble (d.lane t l).rxScr payload).1).ctrlIn t l
        (descramble (d.lane t l).rxScr payload).1).headerIn t l true).abilTick t l := by
  obtain ⟨-, -, hloop⟩ := rxOpen_iff.1 hopen
  simp only [Dev.opBlockReceived, hloop, hopen, framersOff_eq_false hclk, Dev.updLane_lane, hlock, hfar, Bool.and_false,
    Bool.not_true, Bool.false_eq_true, if_false, decide_true, Bool.or_true, Bool.and_true, if_true]
  rfl

/-! ## Block lock (R96, R98) -/

/-- A lane that is in no step has not switched rate. -/
theorem switched_of_no_step {x : Lane} (h : x.stepTo = none) : x.switched = false := by simp [Lane.switched, h]

/-- The record of a lane that holds lock and awaits ABIL (R93, R96). -/
def Lane.lockedAtD1 (x : Lane) : Lane :=
  { x with
    locked := true, hdrRun := max 64 x.hdrRun, hdrHist := 0, relockAt := none, partnerLull := false, sd := true, neg := .abil }

/-- Lock gained at D1 by a lane that is in no step: it goes on with ABIL. -/
theorem lockGained_of_d1 (hstep : (d.lane t l).stepTo = none) (hgen : (d.lane t l).gen ≤ 1) :
    (d.lane t l).lockedAtD1.Sends ((d.lockGained t l).lane t l) := by
  have hgen' : ¬ 1 < (d.lane t l).gen := by omega
  simp only [Dev.lockGained, switched_of_no_step hstep, hgen', Bool.false_eq_true, if_false]
  refine Lane.Sends.trans ?_ (sendAbil_sends _ t l 0 false false)
  rw [Dev.updLane_lane, Dev.updLane_lane]
  rfl

theorem opBlockLockAcquired_open (hopen : d.rxOpen t l = true) (hlock : (d.lane t l).locked = false) (hslip : (d.lane t l).slipPend = false) :
    d.opBlockLockAcquired t l = d.lockGained t l := by
  simp [Dev.opBlockLockAcquired, hopen, hlock, hslip]

theorem opBlockLockLost_locked (hlive : d.laneLive t l = true) (hlock : (d.lane t l).locked = true) :
    d.opBlockLockLost t l = d.lockLost t l := by
  simp [Dev.opBlockLockLost, hlive, hlock]

/-- A tree lane above D1 that has not switched loses lock: the loss is counted and the lane searches for 1 ms (R98). -/
theorem lockLost_above_d1 (htree : l < 8) (hgen : 1 < (d.lane t l).gen) (hswitched : (d.lane t l).switched = false)
    (hlull : (d.lane t l).partnerLull = false) :
    d.lockLost t l =
      ((d.count .lockLoss (laneObj t l)).updLane t l (fun x => { x with locked := false, hdrRun := 0, hdrHist := 0, msgBuf := none })).updLane t l
        (fun x => { x with neg := .locking, reqGen := none, stepTo := none, relockAt := some (d.now + rawMs 1) }) := by
  have hnow := (count_talks d .lockLoss (laneObj t l) 1).now
  simp only [Dev.lockLost, hlull, htree, hswitched, hgen, Bool.false_eq_true, if_false, if_true]
  rw [← hnow]
  rfl

theorem opRelockTimeout_live {r : Raw} (hrelock : (d.lane t l).relockAt = some r) (hlive : d.laneLive t l = true) :
    d.opRelockTimeout t l = (d.advanceTo r).laneRestart t l := by
  simp [Dev.opRelockTimeout, hrelock, hlive]

/-! ## Generation steps (R93, R94) -/

theorem typedIn_tree {typ : Nat} {p : BitVec 64} (hopen : d.rxOpen t l = true) (hlock : (d.lane t l).locked = true) (htree : l < 8)
    (htyp : blkByte p 0 = typ) : d.typedIn typ t l p = d.ctrlIn t l p := by
  simp [Dev.typedIn, Dev.msgBlock, hopen, hlock, htree, htyp]

/-- A valid ABIL shows that the partner is out of lull, and its fields are taken (R90, R93). -/
theorem ctrlIn_abil {p : BitVec 64} (htyp : blkByte p 0 = 0x2D) (hcrc : blkByte p 7 = blkCrc p) :
    d.ctrlIn t l p = (d.updLane t l (fun x => { x with partnerLull := false })).abilIn t l p := by
  simp [Dev.ctrlIn, htyp, hcrc, blkKnown]

/-- An ABIL whose ack answers the request of a lane on a tree sets the step (R94). -/
theorem abilIn_ack {p : BitVec 64} (htree : l < 8) (hreq : (d.lane t l).reqGen = some (blkByte p 5 % 16)) (hstep : (d.lane t l).stepTo = none)
    (hack : bitN (blkByte p 5) 4 = true) :
    d.abilIn t l p =
      (d.updLane t l (fun x =>
        { x with partnerGens := BitVec.ofNat 4 (blkByte p 1 % 16), leader := decide (blkByte p 6 < x.nonce.toNat) })).updLane t l
          (fun x => { x with stepTo := some (blkByte p 5 % 16), neg := .step }) := by
  have htree' : ¬ 8 ≤ l := by omega
  simp [Dev.abilIn, Lane.switched, htree', hreq, hstep, hack]

theorem opGenStepSwitch_acked {g : Nat} (hstep : (d.lane t l).stepTo = some g) (hlive : d.laneLive t l = true)
    (hreq : (d.lane t l).reqGen.isSome = true) :
    d.opGenStepSwitch t l = (d.emit (.idles t l 256)).updLane t l (fun x => { x with
      stepFrom := x.gen, gen := g, reqGen := none, locked := false, hdrRun := 0, hdrHist := 0, ackSeen := false, neg := .step,
      stepEnd := d.now + rawMs 2 }) := by
  obtain ⟨r, hr⟩ := Option.isSome_iff_exists.1 hreq
  simp only [Dev.opGenStepSwitch, hstep, hlive, hr, Option.isNone_some, Bool.not_true, Bool.or_self, Bool.false_eq_true, if_false]
  rfl

theorem opGenStepConfirm_inTime (hlive : d.laneLive t l = true) (hswitched : (d.lane t l).switched = true)
    (htime : reached d.now (d.lane t l).stepEnd = false) :
    d.opGenStepConfirm t l = (d.updLane t l (fun x => { x with locked := true, hdrRun := 1024, ackSeen := true })).stepConfirm t l := by
  simp [Dev.opGenStepConfirm, hlive, hswitched, htime]

/-- The lane once a step has failed at an instant: it holds the generation before the step again and, above D1, has 1 ms to find lock (R98). -/
def Lane.stepBack (x : Lane) (now : Raw) : Lane :=
  { x with
    failedGens := x.failedGens ||| (1#4 <<< (x.gen - 1)), gen := x.stepFrom, stepTo := none, ackSeen := false, locked := false, hdrRun := 0,
    hdrHist := 0, neg := .locking, relockAt := if 1 < x.stepFrom then some (now + rawMs 1) else none }

theorem opGenStepTimeout_switched (hlive : d.laneLive t l = true) (hswitched : (d.lane t l).switched = true) :
    d.opGenStepTimeout t l =
      ((d.advanceTo (d.lane t l).stepEnd).count .stepFail (laneKey t l)).updLane t l
        (fun x => x.stepBack (d.advanceTo (d.lane t l).stepEnd).now) := by
  have hnow := (count_talks (d.advanceTo (d.lane t l).stepEnd) .stepFail (laneKey t l) 1).now
  simp only [Dev.opGenStepTimeout, hlive, hswitched, Bool.not_true, Bool.or_self, Bool.false_eq_true, if_false]
  rw [← hnow]
  rfl

/-! ## Slips and retraining (R92, R96, R97) -/

theorem opLaneSlipWrite_manual (hlive : d.laneLive t l = true) (hman : d.laneManual t l = true) :
    d.opLaneSlipWrite t l = d.updLane t l (fun x => { x with slipPend := true }) := by
  simp [Dev.opLaneSlipWrite, hlive, hman]

theorem opLaneRetrain_used (hlive : d.laneLive t l = true) (hused : d.laneUsed t l = true) :
    d.opLaneRetrain t l = (d.updLane t l (fun x => { x with failedGens := 0 })).laneRestart t l := by
  have hused' : (d.updLane t l (fun x => { x with failedGens := 0 })).laneUsed t l = true := (laneUsed_updLane rfl).trans hused
  simp only [Dev.opLaneRetrain, hlive, hused', Bool.not_true, Bool.false_eq_true, if_false, Bool.true_or, if_true]

end

/-! ## The obligation -/

theorem blockLockAcquired_leadsToAbil {d : Dev} {t l : Nat} (hopen : d.rxOpen t l = true) (hlock : (d.lane t l).locked = false)
    (hslip : (d.lane t l).slipPend = false) (hstep : (d.lane t l).stepTo = none) (hgen : (d.lane t l).gen ≤ 1) :
    Leaves (.blockLockAcquired t l) d fun e =>
      (e.lane t l).locked = true ∧ (e.lane t l).neg = .abil ∧ (e.lane t l).sd = true ∧ (e.lane t l).relockAt = none ∧
        64 ≤ (e.lane t l).hdrRun := by
  have hlane : (d.lockGained t l).lane t l = _ := lockGained_of_d1 hstep hgen
  refine ⟨_, becomes_of (f := fun d => d.opBlockLockAcquired t l) (fun _ => rfl) (opBlockLockAcquired_open hopen hlock hslip), ?_⟩
  change _ ∧ _
  rw [hlane]
  exact ⟨rfl, rfl, rfl, rfl, Nat.le_max_left _ _⟩

theorem blockLockLost_searches {d : Dev} {t l : Nat} (hlive : d.laneLive t l = true) (htree : l < 8) (hlock : (d.lane t l).locked = true)
    (hgen : 1 < (d.lane t l).gen) (hswitched : (d.lane t l).switched = false) (hlull : (d.lane t l).partnerLull = false) :
    Leaves (.blockLockLost t l) d fun e =>
      (e.lane t l).locked = false ∧ (e.lane t l).neg = .locking ∧ (e.lane t l).relockAt = some (d.now + rawMs 1) ∧
        (e.lane t l).gen = (d.lane t l).gen ∧ Talks { d with lanes := e.lanes } e := by
  have hcount := count_talks d .lockLoss (laneObj t l) 1
  have hframe : Talks { d with lanes := (d.count .lockLoss (laneObj t l)).lanes } (d.count .lockLoss (laneObj t l)) := by
    rw [hcount.lanes]
    exact hcount
  refine ⟨_, becomes_of (f := fun d => d.opBlockLockLost t l) (fun _ => rfl)
    ((opBlockLockLost_locked hlive hlock).trans (lockLost_above_d1 htree hgen hswitched hlull)), ?_⟩
  refine ⟨?_, ?_, ?_, ?_, (hframe.updLane _).updLane _⟩
  all_goals simp only [Dev.updLane_lane, hcount.lane]

theorem abil_ackSetsStep {d : Dev} {t l : Nat} {p : BitVec 64} (hopen : d.rxOpen t l = true) (htree : l < 8) (hlock : (d.lane t l).locked = true)
    (htyp : blkByte p 0 = 0x2D) (hcrc : blkByte p 7 = blkCrc p) (hreq : (d.lane t l).reqGen = some (blkByte p 5 % 16))
    (hstep : (d.lane t l).stepTo = none) (hack : bitN (blkByte p 5) 4 = true) :
    Leaves (.abil t l p) d fun e =>
      (e.lane t l).stepTo = some (blkByte p 5 % 16) ∧ (e.lane t l).neg = .step ∧
        (e.lane t l).partnerGens = BitVec.ofNat 4 (blkByte p 1 % 16) ∧ e = { d with lanes := e.lanes } := by
  have hreq' : ((d.updLane t l (fun x => { x with partnerLull := false })).lane t l).reqGen = some (blkByte p 5 % 16) := by
    rw [Dev.updLane_lane]
    exact hreq
  have hstep' : ((d.updLane t l (fun x => { x with partnerLull := false })).lane t l).stepTo = none := by
    rw [Dev.updLane_lane]
    exact hstep
  refine ⟨_, becomes_of (f := fun d => d.opAbil t l p) (fun _ => rfl)
    ((typedIn_tree hopen hlock htree htyp).trans ((ctrlIn_abil htyp hcrc).trans (abilIn_ack htree hreq' hstep' hack))), ?_⟩
  refine ⟨?_, ?_, ?_, rfl⟩
  all_goals simp only [Dev.updLane_lane]

theorem genStepSwitch_goesToNew {d : Dev} {t l g : Nat} (hstep : (d.lane t l).stepTo = some g) (hlive : d.laneLive t l = true)
    (hreq : (d.lane t l).reqGen.isSome = true) :
    Leaves (.genStepSwitch t l) d fun e =>
      (e.lane t l).gen = g ∧ (e.lane t l).stepFrom = (d.lane t l).gen ∧ (e.lane t l).locked = false ∧ (e.lane t l).reqGen = none ∧
        (e.lane t l).ackSeen = false ∧ (e.lane t l).neg = .step ∧ (e.lane t l).stepEnd = d.now + rawMs 2 ∧
          e = { d with lanes := e.lanes, out := e.out } := by
  refine ⟨_, becomes_of (f := fun d => d.opGenStepSwitch t l) (fun _ => rfl) (opGenStepSwitch_acked hstep hlive hreq), ?_⟩
  change _ ∧ _
  rw [Dev.updLane_lane, Dev.emit_lane]
  exact ⟨rfl, rfl, rfl, rfl, rfl, rfl, rfl, rfl⟩

/-- Settles O9: each clause by the rule of its operation. -/
theorem lanesLockStepAndRestart : Obligations.LanesLockStepAndRestart := by
  unfold Obligations.LanesLockStepAndRestart
  refine ⟨?invalid, ?control, ?acquired, ?lost, ?relock, ?abil, ?switch, ?confirm, ?timeout, ?slip, ?retrain⟩
  case invalid =>
    rintro d t l header payload ⟨hopen, hclk, hbad⟩
    exact becomes_of (f := fun d => d.opBlockReceived t l header payload) (fun _ => rfl) (opBlockReceived_invalid payload hopen hclk hbad)
  case control =>
    rintro d t l header payload p ⟨hopen, hclk, rfl, hlock, hfar, rfl⟩
    exact becomes_of (f := fun d => d.opBlockReceived t l 2#2 payload) (fun _ => rfl) (opBlockReceived_control payload hopen hclk hlock hfar)
  case acquired =>
    rintro d t l ⟨hopen, hlock, hslip, hstep, hgen⟩
    exact blockLockAcquired_leadsToAbil hopen hlock hslip hstep hgen
  case lost =>
    rintro d t l ⟨hlive, htree, hlock, hgen, hswitched, hlull⟩
    exact blockLockLost_searches hlive htree hlock hgen hswitched hlull
  case relock =>
    rintro d t l r ⟨hrelock, hlive⟩
    exact becomes_of (f := fun d => d.opRelockTimeout t l) (fun _ => rfl) (opRelockTimeout_live hrelock hlive)
  case abil =>
    rintro d t l p ⟨hopen, htree, hlock, htyp, hcrc, hreq, hstep, hack⟩
    exact abil_ackSetsStep hopen htree hlock htyp hcrc hreq hstep hack
  case switch =>
    rintro d t l g ⟨hstep, hlive, hreq⟩
    exact genStepSwitch_goesToNew hstep hlive hreq
  case confirm =>
    rintro d t l ⟨hlive, hswitched, htime⟩
    exact becomes_of (f := fun d => d.opGenStepConfirm t l) (fun _ => rfl) (opGenStepConfirm_inTime hlive hswitched htime)
  case timeout =>
    rintro d t l ⟨hlive, hswitched⟩
    exact becomes_of (f := fun d => d.opGenStepTimeout t l) (fun _ => rfl) (opGenStepTimeout_switched hlive hswitched)
  case slip =>
    rintro d t l ⟨hlive, hman⟩
    exact becomes_of (f := fun d => d.opLaneSlipWrite t l) (fun _ => rfl) (opLaneSlipWrite_manual hlive hman)
  case retrain =>
    rintro d t l ⟨hlive, hused⟩
    exact becomes_of (f := fun d => d.opLaneRetrain t l) (fun _ => rfl) (opLaneRetrain_used hlive hused)

end Sys2Proof.Machine

/-! PROOFS. A step on an empty queue (O48). -/

namespace Sys2Proof.Machine

/-- A channel whose request can be taken has its packet processed by the row of its opcode (R371). -/
theorem takeFrom_waiting {d : Dev} {ch : Nat} {p : Packet} (hsend : (d.mbox ch).send = some p) (htake : d.canTake ch = true)
    (f : Packet → Option CmdSpec) : d.takeFrom ch f = (d.clearSend ch).process (f p) p := by
  simp only [Dev.takeFrom, hsend, htake, if_true]

theorem serve_none {d : Dev} (h : d.nextServed = none) : d.serve = d := by
  simp only [Dev.serve, h]

theorem serve_some {d : Dev} {ch : Nat} (h : d.nextServed = some ch) : d.serve = d.takeFrom ch (fun p => specOf p.op) := by
  simp only [Dev.serve, h]

/-- Settles O48: the interpreter's turn by what the rotation finds. -/
theorem emptyQueueServesARequest : Obligations.EmptyQueueServesARequest := by
  unfold Obligations.EmptyQueueServesARequest
  refine ⟨?step, ?idle, ?served⟩
  case step => exact fun _ => rfl
  case idle => exact fun _ _ h => serve_none h
  case served =>
    intro d ch p sp hnext hsend htake hspec
    rw [serve_some hnext, takeFrom_waiting hsend htake, hspec]

end Sys2Proof.Machine

/-! PROOFS. Network time: rate writes, steps and the commands of the time class (O32). -/

namespace Sys2Proof.Machine

/-! ## Network time at an anchor (R116, R117) -/

/-- At its anchor network time is the offset, whatever the rate. -/
theorem netU_at_anchor {d : Dev} (h : d.time.rawA = d.now) :
    d.netU = ((d.time.offS : Int) * 1000000000 + d.time.offNs) * 65536 + d.time.offFrac := by
  simp [Dev.netU, Dev.netUAt, h]

/-- An anchor holds every network time from the epoch up to the 48 bits of its seconds. -/
theorem netU_anchorAt (d : Dev) {u : Int} (h0 : 0 ≤ u) (h1 : u < 2 ^ 48 * 1000000000 * 65536) : (d.anchorAt u).netU = u := by
  refine (netU_at_anchor rfl).trans ?_
  simp only [Dev.anchorAt]
  omega

theorem reg_setReg_ne (d : Dev) {a b : Nat} (h : b ≠ a) (v : Nat) : (d.setReg a v).reg b = d.reg b :=
  congrArg BitVec.toNat (mgetD_mput_ne d.regs a b _ _ h)

/-! ## The rate (R117, R118) -/

/-- The rate bends network time from a new anchor and moves it by nothing. -/
theorem netU_setRate (d : Dev) (r : Int) (h0 : 0 ≤ d.netU) (h1 : d.netU < 2 ^ 48 * 1000000000 * 65536) : (d.setRate r).netU = d.netU := by
  have hanchor : (d.setRate r).netU = d.reanchor.netU := (netU_at_anchor rfl).trans (netU_at_anchor (d := d.reanchor) rfl).symm
  exact hanchor.trans (netU_anchorAt d h0 h1)

/-- A rate of 32 bits is set as it is. -/
theorem setRate_rate (d : Dev) (v : BitVec 32) : (d.setRate v.toInt).time.rate = v := by
  have hlo := v.le_two_mul_toInt
  have hhi := v.two_mul_toInt_lt
  have hfit : max (-2147483648) (min 2147483647 v.toInt) = v.toInt := by omega
  simp only [Dev.setRate, hfit, BitVec.ofInt_toInt]

/-! ## Steps (R118, R135) -/

theorem netU_timeStep (d : Dev) {u : Int} (h0 : 0 ≤ d.netU + u) (h1 : d.netU + u < 2 ^ 48 * 1000000000 * 65536) :
    (d.timeStep u).netU = d.netU + u := by
  have hanchor : (d.timeStep u).netU = (d.anchorAt (d.netU + u)).netU := by
    unfold Dev.timeStep
    cases d.anyEnabled <;> rfl
  exact hanchor.trans (netU_anchorAt d h0 h1)

/-- The device in which the host has stepped network time: its time of day is set. -/
def Dev.hostStepped (d : Dev) (u : Int) : Dev :=
  let r := d.timeStep u
  { r with time := { r.time with todSet := true } }

theorem hostStep_allowed {d : Dev} {ns : Nat} (h : d.stepAllowed ns = true) (s : Int) :
    d.hostStep s ns = d.hostStepped ((s * 1000000000 + ns) * 65536) := by
  simp only [Dev.hostStep, h, if_true, Dev.hostStepped]

theorem hostStep_refused {d : Dev} {ns : Nat} (h : d.stepAllowed ns = false) (s : Int) :
    d.hostStep s ns = { d with time := { d.time with stepRefused := true } } := by
  simp only [Dev.hostStep, h, Bool.false_eq_true, if_false]

theorem hostStepped_marks (d : Dev) (u : Int) : (d.hostStepped u).time.stepped = true ∧ (d.hostStepped u).time.todSet = true := ⟨rfl, rfl⟩

theorem hostStepped_netU (d : Dev) {u : Int} (h0 : 0 ≤ d.netU + u) (h1 : d.netU + u < 2 ^ 48 * 1000000000 * 65536) :
    (d.hostStepped u).netU = d.netU + u := netU_timeStep d h0 h1

/-- CMD_TIME_STEP with a nanosecond part in range, where R118 honours it. -/
theorem bodyTimeStep_allowed {c : Cmd} {d : Dev} (hns : c.u32 4 ≤ 999999999) (hallow : d.stepAllowed (c.u32 4) = true) :
    specTimeStep.body c d = (d.hostStepped ((c.i32 0 * 1000000000 + c.u32 4) * 65536)).ok := by
  unfold specTimeStep bodyTimeStep
  dsimp only
  rw [if_neg (by omega), hostStep_allowed hallow, if_pos hallow]
  rfl

/-- A write of TIME_STEP_NS stores its 30 bits and, with its top bit, steps by them and by TIME_STEP_S. -/
theorem opTimeStepGo_hostOk {d : Dev} (hok : d.hostOk = true) (value : BitVec 32) :
    d.opTimeStepGo value =
      if value.getLsbD 31 then
        (d.setReg 0x320 (value.toNat % 2 ^ 30)).hostStep (signedOf 32 (d.reg 0x31C)) (min 999999999 (value.toNat % 2 ^ 30))
      else d.setReg 0x320 (value.toNat % 2 ^ 30) := by
  have hsec : (d.setReg 0x320 (value.toNat % 2 ^ 30)).reg 0x31C = d.reg 0x31C := reg_setReg_ne d (by decide) _
  simp only [Dev.opTimeStepGo, hok, Bool.not_true, Bool.false_eq_true, if_false, hsec]

theorem stepAllowed_setReg_stepNs (d : Dev) (v ns : Nat) : (d.setReg 0x320 v).stepAllowed ns = d.stepAllowed ns := by
  have hcfg : (d.setReg 0x320 v).reg 0x324 = d.reg 0x324 := reg_setReg_ne d (by decide) v
  simp only [Dev.stepAllowed, Dev.hostServo, hcfg]
  rfl

/-! ## Handles -/

/-- A command that may act on a sub-port goes on with it. -/
theorem onSub_running {d : Dev} {p : Nat} (hp : p < d.nSubs) (hrun : d.tileRun (tileOfSub p) = true) (ofs : Nat) (k : Unit → Res) :
    d.onSub p ofs k = k () := by
  rw [Dev.onSub, if_neg (by omega), if_neg (by simp [Dev.notRun, hrun])]

/-- A command that may act on a channel goes on with it. -/
theorem onChan_running {d : Dev} {ch : Nat} (hch : d.chanOk ch = true) (hrun : d.tileRun (tileOfChan ch) = true) (ofs : Nat) (k : Unit → Res) :
    d.onChan ch ofs k = k () := by
  rw [Dev.onChan, if_neg (by simp [hch]), if_neg (by simp [Dev.notRun, hrun])]

/-! ## The time of day (R137) -/

/-- The answer of CMD_TIME_TOD on a superframe that lies `n` frames ahead: its counter and its instant. -/
def Dev.todAnswer (d : Dev) (ch : Nat) (n : Nat) : List Byte :=
  let t := d.frameNetNs (d.frameI + n) + Config.todRefNs (ch % 4)
  leBytes 8 (superframe (ch % 4) (lowBits 48 (d.frameI + n))) ++ leBytes 8 (lowBits 48 (t / 1000000000)) ++ leBytes 4 (t % 1000000000).toNat

/-- CMD_TIME_TOD answers for any superframe from the next one up to 2 s ahead, named or not. -/
theorem bodyTimeTod_ahead {c : Cmd} {d : Dev} {n : Nat} (hch : d.chanOk c.tgt = true) (hrun : d.tileRun (tileOfChan c.tgt) = true)
    (hst : (d.chan c.tgt).st ≠ .disabled) (hn : (if c.params.length = 0 then 1 else d.superAhead (c.tgt % 4) (c.u64 0)) = n)
    (hlo : 1 ≤ n) (hhi : n ≤ 16000) : bodyTimeTod c d = d.ok (d.todAnswer c.tgt n) := by
  rw [bodyTimeTod, hn, onChan_running hch hrun, if_neg hst, if_neg (by simp; omega)]
  rfl

/-- CMD_TIME_PTP_PORT sets a port of a type that may be set, T-GM only where PPS_IN and the time of day are there (R126). -/
theorem bodyTimePtpPort_valid {c : Cmd} {d : Dev} (htgt : c.tgt < d.nSubs) (hrun : d.tileRun (tileOfSub c.tgt) = true) (hlo : 24 ≤ c.u8 1)
    (hhi : c.u8 1 ≤ 43) (htyp : c.u8 0 ≤ 1 ∨ c.u8 0 = 2 ∧ d.time.ppsOk = true ∧ d.time.todSet = true) :
    bodyTimePtpPort c d =
      Dev.ok ((d.setPtp c.tgt { enabled := c.bit 2 0, domain := c.u8 1, clockType := c.u8 0, twoStep := c.bit 2 1 }).ptpSlave c.tgt false) := by
  have htwo : ¬ 2 < c.u8 0 := by omega
  have hgm : (decide (c.u8 0 = 2) && !(d.time.ppsOk && d.time.todSet)) = false := by
    rcases htyp with h1 | ⟨-, hpps, htod⟩
    · rw [decide_eq_false (by omega), Bool.false_and]
    · rw [hpps, htod, Bool.and_self, Bool.not_true, Bool.and_false]
  rw [bodyTimePtpPort, onSub_running htgt hrun, if_neg htwo, if_neg (by simp; omega), if_neg (Bool.not_eq_true _ ▸ hgm)]

/-- Settles O32: what a rate write, an allowed or a refused step and each command of the class leave. -/
theorem timeMovesOnlyByRateAndStep : Obligations.TimeMovesOnlyByRateAndStep := by
  unfold Obligations.TimeMovesOnlyByRateAndStep
  refine ⟨?rate, ?rateRefused, ?stepGo, ?stepGoRefused, ?stepStored, ?step, ?ptpPort, ?latency, ?todNext, ?todNamed, ?status⟩
  case rate =>
    rintro d value ⟨hok, hservo, h0, h1⟩
    have hop : d.opTimeRateWrite value = d.setRate value.toInt := by
      simp only [Dev.opTimeRateWrite, hok, hservo, Bool.not_true, Bool.false_eq_true, if_false, if_true]
    exact ⟨_, becomes_of (f := fun d => d.opTimeRateWrite value) (fun _ => rfl) hop, setRate_rate d value, netU_setRate d _ h0 h1, rfl⟩
  case rateRefused =>
    rintro d value ⟨hok, hservo⟩
    refine becomes_of (f := fun d => d.opTimeRateWrite value) (fun _ => rfl) ?_
    simp only [Dev.opTimeRateWrite, hok, hservo, Bool.not_true, Bool.false_eq_true, if_false]
  case stepGo =>
    rintro d value ⟨hok, hgo, hallow⟩
    have hop := opTimeStepGo_hostOk hok value
    rw [if_pos hgo, hostStep_allowed ((stepAllowed_setReg_stepNs d _ _).trans hallow)] at hop
    obtain ⟨hstepped, htod⟩ := hostStepped_marks (d.setReg 0x320 (value.toNat % 2 ^ 30)) _
    have hnet : (d.setReg 0x320 (value.toNat % 2 ^ 30)).netU = d.netU := rfl
    refine ⟨_, becomes_of (f := fun d => d.opTimeStepGo value) (fun _ => rfl) hop, hstepped, htod, fun h0 h1 => ?_⟩
    rw [← hnet] at h0 h1 ⊢
    exact hostStepped_netU _ h0 h1
  case stepGoRefused =>
    rintro d value ⟨hok, hgo, hrefuse⟩
    refine becomes_of (f := fun d => d.opTimeStepGo value) (fun _ => rfl) ?_
    exact (opTimeStepGo_hostOk hok value).trans ((if_pos hgo).trans (hostStep_refused ((stepAllowed_setReg_stepNs d _ _).trans hrefuse) _))
  case stepStored =>
    rintro d value ⟨hok, hgo⟩
    refine becomes_of (f := fun d => d.opTimeStepGo value) (fun _ => rfl) ?_
    exact (opTimeStepGo_hostOk hok value).trans (if_neg (Bool.not_eq_true _ ▸ hgo))
  case step =>
    exact with_row _ _ _ _ _ (fun _ _ => rfl) fun c d _ ⟨hns, hallow⟩ =>
      ⟨d.hostStepped ((c.i32 0 * 1000000000 + c.u32 4) * 65536), ⟨rfl, hostStepped_netU d⟩, bodyTimeStep_allowed hns hallow⟩
  case ptpPort =>
    exact answers_row _ _ _ _ _ (fun _ _ => rfl) fun c d _ ⟨htgt, hrun, hlo, hhi, htyp⟩ => bodyTimePtpPort_valid htgt hrun hlo hhi htyp
  case latency =>
    refine answers_row _ _ _ _ _ (fun _ _ => rfl) fun c d _ ⟨htgt, hrun⟩ => ?_
    show bodyTimePhyLatency c d = _
    rw [bodyTimePhyLatency, onSub_running htgt hrun]
  case todNext =>
    exact answers_row _ _ _ _ _ (fun _ _ => rfl) fun c d _ ⟨hch, hrun, hst, hlen⟩ =>
      bodyTimeTod_ahead hch hrun hst (if_pos hlen) (by decide) (by decide)
  case todNamed =>
    exact answers_row _ _ _ _ _ (fun _ _ => rfl) fun c d _ ⟨hch, hrun, hst, hlen, hlo, hhi⟩ =>
      bodyTimeTod_ahead hch hrun hst (if_neg (by omega)) hlo hhi
  case status => exact answers_row _ _ _ _ _ (fun _ _ => rfl) fun _ _ _ _ => rfl

end Sys2Proof.Machine

/-! PROOFS. Time sources: references, PPS, PTP, the servo's states and the alignment of tiles (O33). -/

namespace Sys2Proof.Machine

/-! ## References (R122, R123) -/

section
variable (d : Dev) (b g : Bool)

@[simp] theorem refGood_setRef_same : (d.setRef b g).refGood b = g := by cases b <;> rfl
@[simp] theorem refGood_setRef_other : (d.setRef b g).refGood (!b) = d.refGood (!b) := by cases b <;> rfl
@[simp] theorem setRef_useB : (d.setRef b g).time.useB = d.time.useB := by cases b <;> rfl
@[simp] theorem setRef_refclkCfg : (d.setRef b g).refclkCfg = d.refclkCfg := by cases b <;> rfl

/-- Whether both references are lost, read from either side. -/
theorem bothLost_eq : (!d.time.goodA && !d.time.goodB) = (!d.refGood b && !d.refGood (!b)) := by
  cases b
  · rfl
  · exact Bool.and_comm _ _

end

theorem refGood_congr {d e : Dev} (h : e.time = d.time) (b : Bool) : e.refGood b = d.refGood b := by simp only [Dev.refGood, h]

/-- The selection stays where it may not switch, is good itself, or has no good one to switch to. -/
theorem refSwitch_stays {d : Dev} (h : d.refclkCfg ≠ 0 ∨ d.refGood d.time.useB = true ∨ d.refGood (!d.time.useB) = false) : d.refSwitch = d := by
  unfold Dev.refSwitch
  refine if_neg ?_
  rcases h with h | h | h <;> simp [h]

/-- In the automatic setting a lost selection passes to the other reference, and the switch is raised. -/
theorem refSwitch_switches {d : Dev} (hcfg : d.refclkCfg = 0) (hlost : d.refGood d.time.useB = false) (hgood : d.refGood (!d.time.useB) = true) :
    d.refSwitch = Dev.raise { d with time := { d.time with useB := !d.time.useB } } 0x05 0x02 1 0xFF 0xFFFFFFFF (b2n (!d.time.useB)) false := by
  unfold Dev.refSwitch
  exact if_pos (by simp [hcfg, hlost, hgood])

/-- A good reference that is lost: the selection is settled, and the holdover of the PLL begins where neither is good any more. -/
theorem opRefclkLoss_good {d : Dev} {b : Bool} (h : d.refGood b = true) :
    d.opRefclkLoss b =
      let r := (d.setRef b false).refSwitch
      if !r.refGood b && !r.refGood (!b) then { r with time := { r.time with bothLostAt := some r.now } } else r := by
  simp only [Dev.opRefclkLoss, h, Bool.not_true, Bool.false_eq_true, if_false, bothLost_eq _ b]

/-- The loss of the selected reference switches to the other, which is good. -/
theorem opRefclkLoss_selected {d : Dev} {b : Bool} (h : d.refGood b = true) (huse : d.time.useB = b) (hother : d.refGood (!b) = true)
    (hcfg : d.refclkCfg = 0) :
    (d.opRefclkLoss b).refGood b = false ∧ (d.opRefclkLoss b).refGood (!b) = true ∧ (d.opRefclkLoss b).time.useB = !b ∧
      Raised (d.opRefclkLoss b) 0x05 0x02 0xFF 0xFFFFFFFF := by
  subst huse
  have hswitch := refSwitch_switches (d := d.setRef d.time.useB false) (by simpa using hcfg) (by simp) (by simpa using hother)
  rw [setRef_useB] at hswitch
  have htime := (raise_raises { d.setRef d.time.useB false with time := { (d.setRef d.time.useB false).time with useB := !d.time.useB } }
    0x05 0x02 1 0xFF 0xFFFFFFFF (b2n (!d.time.useB)) false false).time
  have hlost : (d.setRef d.time.useB false).refSwitch.refGood d.time.useB = false := by
    rw [hswitch, refGood_congr htime]
    exact refGood_setRef_same d d.time.useB false
  have hgood : (d.setRef d.time.useB false).refSwitch.refGood (!d.time.useB) = true := by
    rw [hswitch, refGood_congr htime]
    exact (refGood_setRef_other d d.time.useB false).trans hother
  have hop : d.opRefclkLoss d.time.useB = (d.setRef d.time.useB false).refSwitch := by
    rw [opRefclkLoss_good h]
    exact if_neg (by simp [hgood])
  rw [hop]
  refine ⟨hlost, hgood, ?_, ?_⟩
  · rw [hswitch, htime]
  · rw [hswitch]; exact raise_raised _ _ _ _ _ _ _ _ _

/-- A loss that brings no switch leaves the reference lost, and nothing more while the other one is good. -/
theorem opRefclkLoss_unswitched {d : Dev} {b : Bool} (h : d.refGood b = true) (hother : d.refGood (!b) = true)
    (hkeep : d.time.useB ≠ b ∨ d.refclkCfg ≠ 0) : d.opRefclkLoss b = d.setRef b false := by
  have hstays : (d.setRef b false).refSwitch = d.setRef b false := by
    refine refSwitch_stays ?_
    rw [setRef_refclkCfg, setRef_useB]
    rcases hkeep with huse | hcfg
    · rw [Bool.eq_not_of_ne huse]
      exact .inr (.inl ((refGood_setRef_other d b false).trans hother))
    · exact .inl hcfg
  rw [opRefclkLoss_good h, hstays]
  exact if_neg (by simp [hother])

/-- The loss of the last good reference begins the holdover of the PLL. -/
theorem opRefclkLoss_last {d : Dev} {b : Bool} (h : d.refGood b = true) (hother : d.refGood (!b) = false) :
    d.opRefclkLoss b = { d.setRef b false with time := { (d.setRef b false).time with bothLostAt := some d.now } } := by
  have hnone (c : Bool) : (d.setRef b false).refGood c = false := by
    by_cases hc : c = b
    · rw [hc, refGood_setRef_same]
    · rw [Bool.eq_not_of_ne hc, refGood_setRef_other, hother]
  have hnow : (d.setRef b false).now = d.now := by cases b <;> rfl
  rw [opRefclkLoss_good h, refSwitch_stays (.inr (.inr (hnone _)))]
  simp only [hnone, Bool.not_false, Bool.and_self, if_true, hnow]

/-! ## PPS (R130) -/

/-- Whether the last accepted edge lies less than 0.5 s back. -/
def Dev.ppsNear (d : Dev) : Bool := d.time.ppsLast.any (fun t => (d.now - t).toNat < (rawMs 500).toNat)

theorem ppsNear_eq_false {d : Dev} (h : d.time.ppsLast.all (fun t => (rawMs 500).toNat ≤ (d.now - t).toNat) = true) : d.ppsNear = false := by
  unfold Dev.ppsNear
  cases hlast : d.time.ppsLast with
  | none => rfl
  | some t =>
    rw [hlast] at h
    simpa using h

/-- Distance of an edge of PPS_IN from the nearest second, its cable delay taken off. -/
def Dev.ppsOff (d : Dev) : Int := offSecond (stamp100 d.netU - 10 * d.ppsInDelay)

/-- An edge uses up a free value, the width of its pulse; one that is neither near nor short is rejected or timed. -/
theorem opPpsInEdge_eq (d : Dev) :
    d.opPpsInEdge =
      let e := d.fresh.2
      if !d.ready || d.ppsNear || Config.freeNat d.fresh.1 < 20 then e
      else if d.time.st = .locked && d.time.source = 3 && 10000 < d.ppsOff.natAbs then
        { e with time := { e.time with ppsRejected := min 0xFF (e.time.ppsRejected + 1) } }
      else (Dev.retime { e with time := { e.time with ppsLast := some d.now, ppsOk := true } }).measure 3 d.ppsOff := by
  unfold Dev.opPpsInEdge Dev.ppsNear
  cases hlast : d.time.ppsLast with
  | none => simp only [Dev.fresh, hlast]; rfl
  | some t => simp only [Dev.fresh, hlast]; rfl

/-- An edge more than 1 µs off the second while the servo holds LOCKED on PPS (R130). -/
def Dev.ppsFar (d : Dev) : Prop := d.time.st = .locked ∧ d.time.source = 3 ∧ 10000 < d.ppsOff.natAbs

section
variable {d : Dev} (hready : d.ready = true) (hnear : d.ppsNear = false)
include hready hnear

/-- An edge that is not near and not far is timed, unless its pulse is shorter than 20 ns. -/
theorem opPpsInEdge_timed (hfar : ¬ d.ppsFar) :
    d.opPpsInEdge =
      let e := d.fresh.2
      if Config.freeNat d.fresh.1 < 20 then e
      else (Dev.retime { e with time := { e.time with ppsLast := some d.now, ppsOk := true } }).measure 3 d.ppsOff := by
  have hnotFar : (decide (d.time.st = .locked) && decide (d.time.source = 3) && decide (10000 < d.ppsOff.natAbs)) = false := by
    simpa [Dev.ppsFar, and_assoc] using hfar
  rw [opPpsInEdge_eq]
  simp only [hready, hnear, hnotFar, Bool.not_true, Bool.or_self, Bool.false_or, decide_eq_true_eq, Bool.false_eq_true, if_false]

/-- An edge that is not near but far is counted as rejected, unless its pulse is shorter than 20 ns. -/
theorem opPpsInEdge_rejected (hfar : d.ppsFar) :
    d.opPpsInEdge =
      let e := d.fresh.2
      if Config.freeNat d.fresh.1 < 20 then e else { e with time := { e.time with ppsRejected := min 0xFF (e.time.ppsRejected + 1) } } := by
  obtain ⟨hst, hsrc, hoff⟩ := hfar
  rw [opPpsInEdge_eq]
  simp only [hready, hnear, hst, hsrc, hoff, Bool.not_true, Bool.or_self, Bool.false_or, decide_eq_true_eq, decide_true, Bool.and_self, if_true]

end

theorem opPpsInEdge_ignored {d : Dev} (h : d.ready = false ∨ d.ppsNear = true) : d.opPpsInEdge = d.fresh.2 := by
  rw [opPpsInEdge_eq]
  refine if_pos ?_
  rcases h with h | h <;> simp [h]

/-! ## The alignment of tiles (R131, R132) -/

/-- The device in which a tile's measurement is taken: error, correction and the instant since which it is off. -/
def Dev.tileMeasured (d : Dev) (t : Nat) (err : Int) : Dev :=
  d.updTile t (fun x => { x with
    timeErr := err
    corr := (d.tile t).corr + max (-corrStep) (min corrStep (Config.servoRate err (d.tile t).corr))
    timeErrAt := if err.natAbs ≤ 800 then none else some ((d.tile t).timeErrAt.getD d.now) })

/-- A measurement of a running tile outside the cycle of a re-anchor, then its condition. -/
theorem opTileTimeCheck_running {d : Dev} {t : Nat} (h0 : t ≠ 0) (hrun : d.tileRun t = true) (hcyc : d.thisCycle d.time.rawA = false)
    (err : Int) :
    d.opTileTimeCheck t err =
      if err.natAbs ≤ 64 then (d.tileMeasured t err).endCond 0x05 0x05 t t
      else if d.condHolds 0x05 0x05 t t then d.tileMeasured t err
      else (d.tileMeasured t err).raise 0x05 0x05 2 t t (lowBits 32 err) true := by
  simp only [Dev.opTileTimeCheck, h0, hrun, hcyc, decide_false, Bool.not_true, Bool.or_self, Bool.false_eq_true, if_false]
  rfl

/-- The condition that follows a measurement changes no tile. -/
theorem opTileTimeCheck_tile {d : Dev} {t : Nat} (h0 : t ≠ 0) (hrun : d.tileRun t = true) (hcyc : d.thisCycle d.time.rawA = false) (err : Int) :
    (d.opTileTimeCheck t err).tile t = (d.tileMeasured t err).tile t := by
  refine tile_congr ?_ t
  rw [opTileTimeCheck_running h0 hrun hcyc]
  split
  · exact (endCond_raises _ _ _ _ _).tiles
  · split
    · rfl
    · exact (raise_raises _ _ _ _ _ _ _ _ _).tiles

/-- An error beyond 4 ns raises its fault unless the fault's condition already holds. -/
theorem opTileTimeCheck_raised {d : Dev} {t : Nat} (h0 : t ≠ 0) (hrun : d.tileRun t = true) (hcyc : d.thisCycle d.time.rawA = false) {err : Int}
    (herr : 64 < err.natAbs) (hcond : d.condHolds 0x05 0x05 t t = false) : Raised (d.opTileTimeCheck t err) 0x05 0x05 t t := by
  rw [opTileTimeCheck_running h0 hrun hcyc, if_neg (Nat.not_le.mpr herr), if_neg (by simp [hcond])]
  exact raise_raised _ _ _ _ _ _ _ _ _

theorem opTileTimeCheck_thisCycle {d : Dev} (h : d.thisCycle d.time.rawA = true) (t : Nat) (err : Int) : d.opTileTimeCheck t err = d := by
  simp only [Dev.opTileTimeCheck, h, Bool.or_true, if_true]

/-- A move of at most one step in either direction. -/
theorem corrStep_bounds (c x : Int) :
    c + max (-corrStep) (min corrStep x) - c ≤ 65536 ∧ -65536 ≤ c + max (-corrStep) (min corrStep x) - c := by
  unfold corrStep
  omega

/-! ## The obligation -/

/-- Settles O33: each clause by the rule of its source, or by its operation on the port, tile or instant that the clause names. -/
theorem sourcesAndReferencesHold : Obligations.SourcesAndReferencesHold := by
  unfold Obligations.SourcesAndReferencesHold
  refine ⟨?lossSelected, ?lossOther, ?lossLast, ?refReturn, ?disagree, ?expiry, ?ppsTimed, ?ppsRejected, ?ppsIgnored, ?ppsLost, ?delayReq, ?sync,
    ?followUp, ?announce, ?sent, ?ptpTimeout, ?locked, ?alarm, ?tileCheck, ?tileCheckCycle, ?tileIsolate⟩
  case lossSelected =>
    rintro d b ⟨hgood, huse, hother, hcfg⟩
    exact leaves_of (f := fun d => d.opRefclkLoss b) (fun _ => rfl) (opRefclkLoss_selected hgood huse hother hcfg)
  case lossOther =>
    rintro d b ⟨hgood, hother, hkeep⟩
    exact becomes_of (f := fun d => d.opRefclkLoss b) (fun _ => rfl) (opRefclkLoss_unswitched hgood hother hkeep)
  case lossLast =>
    rintro d b ⟨hgood, hother⟩
    exact becomes_of (f := fun d => d.opRefclkLoss b) (fun _ => rfl) (opRefclkLoss_last hgood hother)
  case refReturn =>
    intro d b hlost
    refine becomes_of (f := fun d => d.opRefclkReturn b) (fun _ => rfl) ?_
    simp only [Dev.opRefclkReturn, hlost, Bool.false_eq_true, if_false]
  case disagree =>
    rintro d ppm ⟨ha, hb, hppm⟩
    refine becomes_of (f := fun d => d.opRefclkDisagree ppm) (fun _ => rfl) ?_
    simp only [Dev.opRefclkDisagree, ha, hb, hppm, decide_true, Bool.and_self, if_true]
  case expiry =>
    intro d t hlost
    have hop : d.opRefclkHoldoverExpiry = Dev.raise { d.advanceTo (t + rawMs 10) with
        time := { (d.advanceTo (t + rawMs 10)).time with bothLostAt := none } } 0x05 0x03 4 0xFF 0xFFFFFFFF 0 false := by
      simp only [Dev.opRefclkHoldoverExpiry, hlost]
    refine ⟨_, becomes_of (f := fun d => d.opRefclkHoldoverExpiry) (fun _ => rfl) hop, ?_, raise_raised _ _ _ _ _ _ _ _ _⟩
    rw [(raise_raises _ _ _ _ _ _ _ _ _).time]
  case ppsTimed =>
    rintro d ⟨hr, hapart, hfar⟩
    exact becomes_of (f := Dev.opPpsInEdge) (fun _ => rfl) (opPpsInEdge_timed hr (ppsNear_eq_false hapart) hfar)
  case ppsRejected =>
    rintro d ⟨hr, hapart, hfar⟩
    exact becomes_of (f := Dev.opPpsInEdge) (fun _ => rfl) (opPpsInEdge_rejected hr (ppsNear_eq_false hapart) hfar)
  case ppsIgnored =>
    intro d h
    exact becomes_of (f := Dev.opPpsInEdge) (fun _ => rfl) (opPpsInEdge_ignored h)
  case ppsLost =>
    rintro d t ⟨hok, hlast⟩
    refine becomes_of (f := fun d => d.opPpsSourceLoss) (fun _ => rfl) ?_
    simp only [Dev.opPpsSourceLoss, hok, hlast]
  case delayReq =>
    rintro d sub f p ⟨hport, hdom, hkind, hslave, htype⟩
    refine becomes_of (f := fun d => d.opPtpFrameRx sub f) (fun _ => rfl) ?_
    simp [Dev.opPtpFrameRx, hport, hdom, hkind, PtpPort.master, hslave, htype]
  case sync =>
    rintro d sub f p ⟨hport, hdom, hkind⟩
    refine becomes_of (f := fun d => d.opPtpFrameRx sub f) (fun _ => rfl) ?_
    simp [Dev.opPtpFrameRx, hport, hdom, hkind]
  case followUp =>
    rintro d sub f p ⟨hport, hdom, hkind⟩
    refine becomes_of (f := fun d => d.opPtpFrameRx sub f) (fun _ => rfl) ?_
    simp [Dev.opPtpFrameRx, hport, hdom, hkind]
  case announce =>
    rintro d sub f p ⟨hport, hdom, hkind⟩
    refine becomes_of (f := fun d => d.opPtpFrameRx sub f) (fun _ => rfl) ?_
    simp [Dev.opPtpFrameRx, hport, hdom, hkind]
  case sent =>
    rintro d sub kind p ⟨hport, hkind⟩
    refine becomes_of (f := fun d => d.opPtpMessageTx sub kind) (fun _ => rfl) ?_
    have hsends : p.sends kind = true := by
      rcases hkind with ⟨rfl, hs⟩ | ⟨rfl | rfl | ⟨rfl, htwo⟩, hs, htype⟩ <;> simp [PtpPort.sends, PtpPort.master, *]
    simp [Dev.opPtpMessageTx, hport, hsends, ptpEvent]
  case ptpTimeout =>
    rintro d sub p ⟨hport, hslave⟩
    refine becomes_of (f := fun d => d.opPtpSourceTimeout sub) (fun _ => rfl) ?_
    simp only [Dev.opPtpSourceTimeout, hport, hslave, if_true]
  case locked =>
    rintro d t _ ⟨hst, hgood, hr, rfl⟩
    refine becomes_of (f := fun d => d.opServoLocked) (fun _ => rfl) ?_
    simp only [Dev.opServoLocked, hgood, hst, hr, decide_true, Bool.and_self, if_true]
  case alarm =>
    rintro d t ⟨hst, hat, hcond⟩
    refine becomes_of (f := fun d => d.opHoldoverAlarm) (fun _ => rfl) ?_
    simp only [Dev.opHoldoverAlarm, hst, hat, hcond, Bool.false_eq_true, if_false]
  case tileCheck =>
    rintro d t err ⟨h0, hrun, hcyc⟩
    refine leaves_of (f := fun d => d.opTileTimeCheck t err) (fun _ => rfl) ?_
    obtain ⟨hup, hdown⟩ := corrStep_bounds (d.tile t).corr (Config.servoRate err (d.tile t).corr)
    rw [opTileTimeCheck_tile h0 hrun hcyc, Dev.tileMeasured, tile_updTile]
    exact ⟨rfl, hup, hdown, rfl, opTileTimeCheck_raised h0 hrun hcyc⟩
  case tileCheckCycle =>
    intro d t err hcyc
    exact becomes_of (f := fun d => d.opTileTimeCheck t err) (fun _ => rfl) (opTileTimeCheck_thisCycle hcyc t err)
  case tileIsolate =>
    rintro d tile t ⟨h0, hrun, hat⟩
    refine becomes_of (f := fun d => d.opTileTimeIsolate tile) (fun _ => rfl) ?_
    simp only [Dev.opTileTimeIsolate, h0, hrun, hat, decide_false, Bool.not_true, Bool.or_self, Bool.false_eq_true, if_false]

end Sys2Proof.Machine

/-! PROOFS. The frame boundary, the second boundary and the fast SES interval (O6). -/

namespace Sys2Proof.Machine

/-! ## The frame clock at a boundary (R133) -/

/-- A frame whose boundary is reached needs no more raw time. -/
theorem reachFrame_reached {d : Dev} {f : Int} (h : f * frameU ≤ d.frameClockU) (n : Nat) : d.reachFrame f n = d := by
  cases n with
  | zero => rfl
  | succ n => exact if_pos (by omega)

/-! ## The second of line quality (R162 to R166) -/

/-- Everything but the records of trees and terminals, outputs and the host attachment is as it was: what closing a second of line quality can
change. -/
def ClosesLine (d e : Dev) : Prop := e = { d with trees := e.trees, terms := e.terms, out := e.out, host := e.host }

theorem ClosesLine.refl (d : Dev) : ClosesLine d d := rfl
theorem ClosesLine.trans {d e f : Dev} (h : ClosesLine d e) (g : ClosesLine e f) : ClosesLine d f := by
  unfold ClosesLine at *; rw [g]; rw [h]
theorem ClosesLine.foldl {α : Type} (f : Dev → α → Dev) (h : ∀ d x, ClosesLine d (f d x)) (l : List α) (d : Dev) : ClosesLine d (l.foldl f d) := by
  induction l generalizing d with
  | nil => exact ClosesLine.refl d
  | cons a l ih => exact (h d a).trans (ih (f d a))

theorem vector_closesLine (d : Dev) (n : Nat) : ClosesLine d (d.vector n) := by
  rw [vector_same]; rfl

theorem deliver_closesLine (d : Dev) (ch : Nat) : ClosesLine d (d.deliver ch) := by
  have hset (m : MboxChan) : ClosesLine d (d.setMbox ch m) := rfl
  unfold Dev.deliver
  dsimp only
  split
  · split
    · split
      · exact (hset _).trans (vector_closesLine _ _)
      · exact hset _
    · exact ClosesLine.refl d
  · exact ClosesLine.refl d

theorem sendTo_closesLine (d : Dev) (ch : Nat) (b : List Byte) : ClosesLine d (d.sendTo ch b) := by
  simp only [Dev.sendTo]
  generalize (d.mbox ch).queue.length + (if (d.mbox ch).recv.isSome then 1 else 0) = held
  split
  · rfl
  · split
    · rfl
    · exact ClosesLine.trans (e := d.setMbox ch _) rfl (deliver_closesLine _ ch)

theorem notify_closesLine (d : Dev) (op tgt : Nat) (b : List Byte) : ClosesLine d (d.notify op tgt b) :=
  ClosesLine.trans (e := { d with host := _ }) rfl (sendTo_closesLine _ 0 _)

theorem pmNotices_closesLine (d : Dev) (obj : Nat) (old new : PmObj) : ClosesLine d (d.pmNotices obj old new) :=
  (ClosesLine.foldl _ (fun d _ => notify_closesLine d _ _ _) _ d).trans (ClosesLine.foldl _ (fun d _ => notify_closesLine d _ _ _) _ _)

theorem standingDefects_closesLine (d : Dev) : ClosesLine d d.standingDefects := by
  have htrees := ClosesLine.foldl (fun d (x : Nat × Tree) => d.treeDefect x.1) (fun _ _ => rfl) (d.trees.filter (fun e => e.2.lost || e.2.lfs || e.2.lsf)) d
  exact htrees.trans rfl

theorem pmSecond_closesLine (d : Dev) (s : Nat) : ClosesLine d (d.pmSecond s) := by
  unfold Dev.pmSecond
  dsimp only
  refine ClosesLine.trans ?_ (standingDefects_closesLine _)
  refine ClosesLine.trans ?_ (ClosesLine.foldl _ (fun d k => pmNotices_closesLine d _ _ _) _ _)
  refine ClosesLine.trans ?_ (ClosesLine.foldl _ (fun d (x : Nat × Terminal) => pmNotices_closesLine d _ _ _) _ _)
  exact (standingDefects_closesLine d).trans rfl

/-! ## SECOND_BOUNDARY (R117, R129, R135, R471) -/

/-- The device in which a second is closed: reached, its line quality closed, re-anchored, the rate kept. -/
def Dev.secondClosed (d : Dev) (s : Nat) : Dev :=
  (Dev.pmSecond { d with time := { d.time with topSecond := s, rateHist := (d.time.rate.toInt :: d.time.rateHist).take 60 } } s).reanchor.slewDone

/-- Whether PPS_OUT has a pulse at a second: always, or while the time is LOCKED or in HOLDOVER (R129). -/
def Dev.pulses (d : Dev) : Bool := d.ppsOutMode = 1 || (d.ppsOutMode = 2 && (d.time.st = .locked || d.time.st = .holdover))

/-- The device that has emitted the pulse and set its end. -/
def Dev.pulsed (d : Dev) : Dev := Dev.emit { d with time := { d.time with ppsOutEnd := d.now + rawUs d.ppsWidthUs } } .pps

/-- The margins of the grant schedulers that the second measured are noted. -/
def Dev.marginsNoted (d : Dev) : Dev :=
  { d with tiles := d.tiles.map (fun e => (e.1, { e.2 with marginUs := e.2.marginCur.getD 0, marginCur := none })) }

theorem marginsNoted_rest (d : Dev) : d.marginsNoted.time = d.time ∧ d.marginsNoted.terms = d.terms ∧ d.marginsNoted.trees = d.trees :=
  ⟨rfl, rfl, rfl⟩

/-- The device at the end of a second, before its periodic snapshot. -/
def Dev.secondEnds (d : Dev) (s : Nat) : Dev :=
  (if (d.secondClosed s).pulses then (d.secondClosed s).pulsed else d.secondClosed s).marginsNoted

/-- Whether network time stands at the boundary of a second not reached before. -/
def Dev.atSecond (d : Dev) : Bool := d.netU % secU < 65536 && d.time.topSecond < d.netSec

/-- The second that ends: the one network time has reached, or the next one. -/
def Dev.secondDue (d : Dev) : Nat := if d.atSecond then d.netSec else max d.time.topSecond d.netSec + 1

/-- The device at the boundary of that second. -/
def Dev.secondReached (d : Dev) : Dev := if d.atSecond then d else d.advanceTo (d.rawReach ((d.secondDue : Int) * secU))

theorem opSecondBoundary_ready {d : Dev} (hr : d.ready = true) :
    d.opSecondBoundary = (d.secondReached.secondEnds d.secondDue).periodicSnap d.secondDue := by
  unfold Dev.opSecondBoundary
  rw [if_neg (by simp [hr])]
  extract_lets here s r rTime entered closed pulse closedTime emitted ended
  have hs : s = d.secondDue := rfl
  have hr' : r = d.secondReached := rfl
  have hclosed : closed = r.secondClosed s := rfl
  have hemitted : emitted = if closed.pulses then closed.pulsed else closed := rfl
  have hended : ended = emitted.marginsNoted := rfl
  rw [hended, hemitted, hclosed, hr', hs]
  rfl

/-- A boundary not processed yet ends the second that network time has reached. -/
theorem opSecondBoundary_here {d : Dev} (hr : d.ready = true) (hnet : d.netU % secU = 0) (htop : d.time.topSecond < d.netSec) :
    d.opSecondBoundary = (d.secondEnds d.netSec).periodicSnap d.netSec := by
  have hhere : d.atSecond = true := by rw [Dev.atSecond, hnet, decide_eq_true htop]; rfl
  rw [opSecondBoundary_ready hr, Dev.secondReached, if_pos hhere, Dev.secondDue, if_pos hhere]

theorem advanceTo_regs (d : Dev) (t : Raw) : (d.advanceTo t).variant = d.variant ∧ (d.advanceTo t).regs = d.regs := by
  unfold Dev.advanceTo
  split
  · exact ⟨rfl, rfl⟩
  · exact ⟨rfl, rfl⟩

/-- Reaching the boundary of a second changes no register. -/
theorem secondReached_regs (d : Dev) : d.secondReached.variant = d.variant ∧ d.secondReached.regs = d.regs := by
  unfold Dev.secondReached
  split
  · exact ⟨rfl, rfl⟩
  · exact advanceTo_regs d _

theorem slewDone_same (d : Dev) : ∃ p, d.slewDone = { d with time := { d.time with frPhi := p } } := by
  unfold Dev.slewDone
  split
  · exact ⟨_, rfl⟩
  · exact ⟨d.time.frPhi, rfl⟩

/-- What the pulse and the periodic snapshot depend on is as it was before the second closed. -/
theorem secondClosed_keeps (d : Dev) (s : Nat) :
    (d.secondClosed s).variant = d.variant ∧ (d.secondClosed s).regs = d.regs ∧ (d.secondClosed s).time.st = d.time.st ∧
      (d.secondClosed s).join = d.join ∧ (d.secondClosed s).cnt = d.cnt := by
  obtain ⟨p, hslew⟩ := slewDone_same
    (Dev.pmSecond { d with time := { d.time with topSecond := s, rateHist := (d.time.rate.toInt :: d.time.rateHist).take 60 } } s).reanchor
  have hline := pmSecond_closesLine { d with time := { d.time with topSecond := s, rateHist := (d.time.rate.toInt :: d.time.rateHist).take 60 } } s
  unfold ClosesLine at hline
  unfold Dev.secondClosed
  rw [hslew, hline]
  exact ⟨rfl, rfl, rfl, rfl, rfl⟩

theorem reg_congr {d e : Dev} (hv : e.variant = d.variant) (hr : e.regs = d.regs) (a : Nat) : e.reg a = d.reg a := by
  simp only [Dev.reg, hv, hr]

theorem secondClosed_reg (d : Dev) (s a : Nat) : (d.secondClosed s).reg a = d.reg a := by
  obtain ⟨hv, hr, -⟩ := secondClosed_keeps d s
  exact reg_congr hv hr a

theorem marginsNoted_keeps (d : Dev) :
    (∀ a, d.marginsNoted.reg a = d.reg a) ∧ d.marginsNoted.join = d.join ∧ d.marginsNoted.cnt = d.cnt := ⟨reg_congr rfl rfl, rfl, rfl⟩

theorem emit_time_keeps (d : Dev) (t : TimeState) (o : Output) :
    let e := Dev.emit { d with time := t } o
    (∀ a, e.reg a = d.reg a) ∧ e.join = d.join ∧ e.cnt = d.cnt := ⟨reg_congr rfl rfl, rfl, rfl⟩

theorem pulsed_keeps (d : Dev) : (∀ a, d.pulsed.reg a = d.reg a) ∧ d.pulsed.join = d.join ∧ d.pulsed.cnt = d.cnt := emit_time_keeps d _ _

theorem emit_time_marginsNoted (d : Dev) (t : TimeState) (o : Output) :
    let e := (Dev.emit { d with time := t } o).marginsNoted
    e.out.head? = some o ∧ e.time = t := ⟨rfl, rfl⟩

/-- The pulse is the newest output, and its end is set. -/
theorem pulsed_marginsNoted_pps (d : Dev) :
    let e := d.pulsed.marginsNoted
    e.out.head? = some .pps ∧ e.time.ppsOutEnd = e.now + rawUs e.ppsWidthUs := by
  obtain ⟨hout, htime⟩ := emit_time_marginsNoted d { d.time with ppsOutEnd := d.now + rawUs d.ppsWidthUs } .pps
  have hwidth : d.pulsed.marginsNoted.ppsWidthUs = d.ppsWidthUs := by
    simp only [Dev.ppsWidthUs, (marginsNoted_keeps _).1, (pulsed_keeps d).1]
  refine ⟨hout, ?_⟩
  rw [hwidth, Dev.now, Dev.pulsed, htime]
  rfl

/-- The end of a second leaves registers, joined system and counters as they were. -/
theorem secondEnds_keeps (d : Dev) (s : Nat) :
    (∀ a, (d.secondEnds s).reg a = d.reg a) ∧ (d.secondEnds s).join = d.join ∧ (d.secondEnds s).cnt = d.cnt := by
  obtain ⟨-, -, -, hjoin, hcnt⟩ := secondClosed_keeps d s
  obtain ⟨hreg₁, hjoin₁, hcnt₁⟩ := pulsed_keeps (d.secondClosed s)
  unfold Dev.secondEnds
  obtain ⟨hreg₂, hjoin₂, hcnt₂⟩ := marginsNoted_keeps (if (d.secondClosed s).pulses then (d.secondClosed s).pulsed else d.secondClosed s)
  simp only [hreg₂, hjoin₂, hcnt₂]
  split
  · exact ⟨fun a => (hreg₁ a).trans (secondClosed_reg d s a), hjoin₁.trans hjoin, hcnt₁.trans hcnt⟩
  · exact ⟨secondClosed_reg d s, hjoin, hcnt⟩

theorem secondEnds_snapPeriodS (d : Dev) (s : Nat) : (d.secondEnds s).snapPeriodS = d.snapPeriodS := by
  obtain ⟨hreg, -⟩ := secondEnds_keeps d s
  simp only [Dev.snapPeriodS, hreg]

/-- PPS_OUT in mode 2 has no pulse while the time runs free. -/
theorem secondClosed_silent {d : Dev} (hmode : d.ppsOutMode = 2) (hst : d.time.st = .freerun) (s : Nat) : (d.secondClosed s).pulses = false := by
  obtain ⟨-, -, htime, -⟩ := secondClosed_keeps d s
  have hmode' : (d.secondClosed s).ppsOutMode = 2 := by simpa only [Dev.ppsOutMode, secondClosed_reg] using hmode
  simp [Dev.pulses, hmode', htime, hst]

/-- PPS_OUT in mode 1 has a pulse at every second. -/
theorem secondClosed_always {d : Dev} (hmode : d.ppsOutMode = 1) (s : Nat) : (d.secondClosed s).pulses = true := by
  have hmode' : (d.secondClosed s).ppsOutMode = 1 := by simpa only [Dev.ppsOutMode, secondClosed_reg] using hmode
  simp [Dev.pulses, hmode']

theorem periodicSnap_off {d : Dev} (h : d.snapPeriodS = 0) (s : Nat) : d.periodicSnap s = d := by
  simp [Dev.periodicSnap, h]

/-- At a multiple of the period, with no snapshot asked for and none being written, the periodic one is taken. -/
theorem periodicSnap_taken {d : Dev} {s : Nat} (hp : d.snapPeriodS ≠ 0) (hs : s % d.snapPeriodS = 0) (hsnaps : d.join.snaps = [])
    (hw : d.cnt.writing = none) :
    (d.periodicSnap s).cnt.writing = some (d.snapCopy { id := 0, atT := (s : Int) * 1000000000, periodic := true } false) := by
  simp [Dev.periodicSnap, Dev.capture, hp, hs, hsnaps, hw]

/-! ## FAST_SES_INTERVAL (R167) -/

/-- Everything but protection groups, lease numbers, outputs, the host attachment, counters and message sequences is as it was: what bringing a
group up to date or raising a cause for it can change. -/
def Regroups (d e : Dev) : Prop :=
  e = { d with
    out := e.out
    host := e.host
    cnt := e.cnt
    groups := e.groups
    leaseSeen := e.leaseSeen
    join := { d.join with seqs := e.join.seqs } }

theorem Regroups.refl (d : Dev) : Regroups d d := rfl
theorem Regroups.trans {d e f : Dev} (h : Regroups d e) (g : Regroups e f) : Regroups d f := by
  unfold Regroups at *; rw [g]; rw [h]
theorem Regroups.ite {d a b : Dev} (c : Prop) [Decidable c] (ha : Regroups d a) (hb : Regroups d b) : Regroups d (if c then a else b) := by
  split
  · exact ha
  · exact hb
theorem Talks.regroups {d e : Dev} (h : Talks d e) : Regroups d e := by
  unfold Talks Regroups at *; rw [h]
theorem Regroups.time {d e : Dev} (h : Regroups d e) : e.time = d.time := by unfold Regroups at h; rw [h]
theorem Regroups.trees {d e : Dev} (h : Regroups d e) : e.trees = d.trees := by unfold Regroups at h; rw [h]
theorem updGroup_regroups (d : Dev) (t : Nat) (f : Group → Group) : Regroups d (d.updGroup t f) := rfl

/-- The first lease of side A moves no upstream reference and no terminal. -/
theorem takeLease_first_regroups (d : Dev) (t : Nat) : Regroups d (d.takeLease t 0) := by
  unfold Dev.takeLease
  dsimp only
  split
  · exact Regroups.refl d
  · split
    · exact Regroups.refl d
    · rw [if_pos rfl]
      exact Regroups.trans (e := d.leaseNote t _) rfl (updGroup_regroups _ t _)

theorem groupRefresh_regroups (d : Dev) (t : Nat) : Regroups d (d.groupRefresh t) := by
  unfold Dev.groupRefresh
  dsimp only
  split
  · exact Regroups.refl d
  · have htake (f : Group → Group) (e : Dev) : Regroups e ((e.updGroup t f).takeLease t 0) :=
      (updGroup_regroups e t f).trans (takeLease_first_regroups _ t)
    refine (updGroup_regroups d t _).trans (Regroups.ite _ (updGroup_regroups _ t _) (Regroups.ite _ (Regroups.refl _) ?_))
    exact Regroups.ite _ (htake _ _) (updGroup_regroups _ t _)

theorem planSwitch_regroups (d : Dev) (t : Nat) : Regroups d (d.planSwitch t) := by
  unfold Dev.planSwitch
  split
  · exact Regroups.refl d
  · split
    · exact (leaseSend_talks d t 2 _).regroups.trans (updGroup_regroups _ t _)
    · exact ((leaseSend_talks d t 1 _).regroups.trans (updGroup_regroups _ t _)).trans (groupRefresh_regroups _ t)

theorem raiseCause_regroups (d : Dev) (t cause : Nat) : Regroups d (d.raiseCause t cause) := by
  have hrefused (b : List Byte) : Regroups d ((d.count .requestsRefused t).notify 0x8C80 t b) :=
    ((count_talks d _ t 1).trans (notify_talks _ _ t b)).regroups
  unfold Dev.raiseCause
  dsimp only
  split
  · exact hrefused _
  · split
    · exact Regroups.refl d
    · split
      · exact hrefused _
      · exact planSwitch_regroups d t

theorem tree_congr {d e : Dev} (h : e.trees = d.trees) (t : Nat) : e.tree t = d.tree t := by unfold Dev.tree; rw [h]

/-- The fast SES condition of a tree: errored blocks of the interval beyond three tenths, or a defect present in it. -/
def Tree.fastBad (x : Tree) : Bool := (0 < x.ivBlocks && 3 * x.ivBlocks ≤ 10 * x.ivErr) || x.ivDefect || x.lost || x.lfs || x.lsf

/-- One tree is judged and its counts start anew; then its group is brought up to date. -/
theorem fastSes_regroups (d : Dev) (t : Nat) :
    ∃ x : Tree, Regroups (d.setTree t x) (d.fastSes t) ∧ x.ivErr = 0 ∧ x.ivBlocks = 0 ∧ x.fastSes = (d.tree t).fastBad := by
  have hraise (e : Dev) : Regroups e ((e.count .protRequests t).raiseCause t 6) :=
    (count_talks e .protRequests t 1).regroups.trans (raiseCause_regroups _ t 6)
  unfold Dev.fastSes
  exact ⟨_, (groupRefresh_regroups (d.updTree t _) t).trans (Regroups.ite _ (hraise _) (Regroups.refl _)), rfl, rfl, rfl⟩

theorem fastSes_time (d : Dev) (t : Nat) : (d.fastSes t).time = d.time := by
  obtain ⟨x, hgroups, -⟩ := fastSes_regroups d t
  exact hgroups.time

theorem fastSes_tree_same (d : Dev) (t : Nat) :
    ((d.fastSes t).tree t).ivErr = 0 ∧ ((d.fastSes t).tree t).ivBlocks = 0 ∧ ((d.fastSes t).tree t).fastSes = (d.tree t).fastBad := by
  obtain ⟨x, hgroups, hx⟩ := fastSes_regroups d t
  rw [tree_congr hgroups.trees, Dev.setTree_tree]
  exact hx

theorem fastSes_tree_ne (d : Dev) {t u : Nat} (h : u ≠ t) : (d.fastSes t).tree u = d.tree u := by
  obtain ⟨x, hgroups, -⟩ := fastSes_regroups d t
  exact (tree_congr hgroups.trees u).trans (mgetD_mput_ne _ _ _ _ _ h)

theorem foldl_fastSes_time (l : List Nat) (d : Dev) : (l.foldl Dev.fastSes d).time = d.time := by
  induction l generalizing d with
  | nil => rfl
  | cons t l ih => exact (ih (d.fastSes t)).trans (fastSes_time d t)

theorem foldl_fastSes_tree_notMem {l : List Nat} {u : Nat} (h : u ∉ l) (d : Dev) : (l.foldl Dev.fastSes d).tree u = d.tree u := by
  induction l generalizing d with
  | nil => rfl
  | cons t l ih =>
    have hne : u ≠ t := fun hu => h (hu ▸ List.mem_cons_self)
    exact (ih (fun hu => h (List.mem_cons_of_mem t hu)) (d.fastSes t)).trans (fastSes_tree_ne d hne)

/-- Each tree of a list without repetition is judged once, by what it was before. -/
theorem foldl_fastSes_tree_mem {l : List Nat} (hl : l.Nodup) {u : Nat} (h : u ∈ l) (d : Dev) :
    ((l.foldl Dev.fastSes d).tree u).ivErr = 0 ∧ ((l.foldl Dev.fastSes d).tree u).ivBlocks = 0 ∧
      ((l.foldl Dev.fastSes d).tree u).fastSes = (d.tree u).fastBad := by
  induction l generalizing d with
  | nil => cases h
  | cons t l ih =>
    obtain ⟨hnew, hnodup⟩ := List.nodup_cons.1 hl
    rw [List.foldl_cons]
    by_cases hu : u = t
    · subst hu
      rw [foldl_fastSes_tree_notMem hnew]
      exact fastSes_tree_same d u
    · rw [← fastSes_tree_ne d hu]
      exact ih hnodup (List.mem_of_ne_of_mem hu h) (d.fastSes t)

/-- At the boundary of an interval not closed yet no time passes: it is noted, and every tree of a running tile is judged. -/
theorem opFastSesInterval_here {d : Dev} (hr : d.ready = true) (hclk : d.frameClockU % (8 * frameU) = 0)
    (hiv : d.time.lastIv ≠ some (lowBits 45 (d.frameI / 8))) :
    d.opFastSesInterval =
      ((List.range d.nTrees).filter (fun t => d.tileRun (tileOfTree t))).foldl Dev.fastSes
        { d with time := { d.time with lastIv := some (lowBits 45 (d.frameI / 8)) } } := by
  have hhere : (decide (d.frameClockU % (8 * frameU) < 65536) && decide (d.time.lastIv ≠ some (lowBits 45 (d.frameI / 8)))) = true := by
    rw [hclk, decide_eq_true hiv]; rfl
  have hreach : d.reachFrame (8 * (d.frameI / 8)) 8 = d := by
    refine reachFrame_reached ?_ 8
    unfold Dev.frameI frameU
    omega
  simp only [Dev.opFastSesInterval, hr, hhere, hreach, Bool.not_true, Bool.false_eq_true, if_false, if_true]
  rfl

/-! ## The obligation -/

/-- Settles O6: the frame boundary is its parts in order; the second boundary and the interval by what each of their parts can change. -/
theorem boundariesAdvanceTheFrameAndTheSecond : Obligations.BoundariesAdvanceTheFrameAndTheSecond := by
  unfold Obligations.BoundariesAdvanceTheFrameAndTheSecond
  refine ⟨?frame, ?second, ?pulse, ?snapshot, ?interval⟩
  case frame =>
    rintro d n a b ⟨hr, hn, ha, hb⟩
    refine becomes_of (f := fun d => d.opFrameBoundary) (fun _ => rfl) ?_
    rw [hb, ha, hn]
    exact if_neg (by simp [hr])
  case second =>
    rintro d a ⟨hr, hmode, hst, hperiod, hnet, htop, ha⟩
    have hclosed : a = d.secondClosed d.netSec := ha
    refine leaves_of (f := fun d => d.opSecondBoundary) (fun _ => rfl) ?_
    rw [hclosed, opSecondBoundary_here hr hnet htop, periodicSnap_off ((secondEnds_snapPeriodS d _).trans hperiod), Dev.secondEnds,
      secondClosed_silent hmode hst, if_neg Bool.false_ne_true]
    exact marginsNoted_rest _
  case pulse =>
    rintro d ⟨hr, hmode, hperiod⟩
    refine leaves_of (f := fun d => d.opSecondBoundary) (fun _ => rfl) ?_
    obtain ⟨hvariant, hregs⟩ := secondReached_regs d
    have hreg : ∀ a, d.secondReached.reg a = d.reg a := reg_congr hvariant hregs
    have hmode' : d.secondReached.ppsOutMode = 1 := by simpa only [Dev.ppsOutMode, hreg] using hmode
    have hperiod' : d.secondReached.snapPeriodS = 0 := by simpa only [Dev.snapPeriodS, hreg] using hperiod
    rw [opSecondBoundary_ready hr, periodicSnap_off ((secondEnds_snapPeriodS _ _).trans hperiod'), Dev.secondEnds,
      if_pos (secondClosed_always hmode' _)]
    exact pulsed_marginsNoted_pps _
  case snapshot =>
    rintro d ⟨hr, hperiod, hnet, htop, hmult, hsnaps, hwriting⟩
    refine leaves_of (f := fun d => d.opSecondBoundary) (fun _ => rfl) ?_
    obtain ⟨-, hjoin, hcnt⟩ := secondEnds_keeps d d.netSec
    have hp := secondEnds_snapPeriodS d d.netSec
    rw [opSecondBoundary_here hr hnet htop, periodicSnap_taken (by rwa [hp]) (by rwa [hp]) (by rwa [hjoin]) (by rwa [hcnt])]
    rfl
  case interval =>
    rintro d _ ⟨hr, hclk, hiv, rfl⟩
    refine leaves_of (f := fun d => d.opFastSesInterval) (fun _ => rfl) ?_
    rw [opFastSesInterval_here hr hclk hiv]
    refine ⟨?_, ?_, fun t ht hrun => ?_⟩
    · rw [foldl_fastSes_time]
    · rw [foldl_fastSes_time]
    · exact foldl_fastSes_tree_mem (List.nodup_range.filter _) (List.mem_filter.2 ⟨ht, hrun⟩) _

end Sys2Proof.Machine

/-! PROOFS. Line quality: reading a record, setting thresholds, final bins (O7). -/

namespace Sys2Proof.Machine

/-! ## The object of a performance command (R483) -/

theorem tileOfTerm_listed {d : Dev} {tid : Nat} (h : mhas d.terms tid = true) : d.tileOfTerm tid = tileOfChan (d.term tid).ch := by
  rw [Dev.tileOfTerm, get_term h]

/-- A performance command on a tree of a running tile goes on with its record. -/
theorem onPm_tree {d : Dev} {o : Nat} (hlo : 16384 ≤ o) (hhi : o < 16384 + d.nTrees) (hrun : d.tileRun (tileOfTree (o - 16384)) = true)
    (k : PmObj → Res) : d.onPm o k = k (d.tree (o - 16384)).pm := by
  have hnotTerm : ¬ o < 16384 := by omega
  have hin : ¬ 16384 + d.nTrees ≤ o := by omega
  have htree : o - 16384 < d.nTrees := by omega
  simp [Dev.onPm, Dev.pmObj, Dev.notRun, hnotTerm, hin, htree, hrun]

/-- A performance command on a listed terminal of a running tile goes on with its record. -/
theorem onPm_term {d : Dev} {o : Nat} (hin : o < d.nTerms) (ho : o < 16384) (hterm : mhas d.terms o = true)
    (hrun : d.tileRun (d.tileOfTerm o) = true) (k : PmObj → Res) : d.onPm o k = k (d.term o).pm := by
  have hlisted : ¬ d.nTerms ≤ o := by omega
  have hnotTree : ¬ 16384 ≤ o := by omega
  have hinTrees : ¬ 16384 + d.nTrees ≤ o := by omega
  simp [Dev.onPm, Dev.pmObj, Dev.notRun, ho, hlisted, hnotTree, hinTrees, hrun, get_term hterm]

/-! ## Records and thresholds (R166) -/

/-- CMD_PM_READ answers a slot of the record it finds. -/
theorem bodyPmRead_slot {c : Cmd} {d : Dev} {p : PmObj} (hobj : ∀ k, d.onPm c.tgt k = k p) (hslot : c.u8 0 < 35) :
    bodyPmRead c d = d.ok (p.slot (c.u8 0)) := by
  rw [bodyPmRead, hobj, if_neg (by omega), if_neg (by omega)]

/-- The record with the thresholds that a CMD_PM_CONFIG carries, those of its 15-minute or of its 24-hour bins. -/
def Cmd.pmThresholds (c : Cmd) (p : PmObj) : PmObj :=
  if c.u8 0 = 0 then { p with thr15 := [c.u32 4, c.u32 8, c.u32 12, c.u64 16] } else { p with thr24 := [c.u32 4, c.u32 8, c.u32 12, c.u64 16] }

/-- CMD_PM_CONFIG of a bin that there is changes the record of its terminal or tree by the thresholds it carries. -/
theorem bodyPmConfig_set {c : Cmd} {d : Dev} {p : PmObj} (hobj : ∀ k, d.onPm c.tgt k = k p) (hbin : c.u8 0 ≤ 1) :
    bodyPmConfig c d =
      Dev.ok (if c.tgt < 16384 then d.updTerm c.tgt (fun t => { t with pm := c.pmThresholds t.pm })
        else d.updTree (c.tgt - 16384) (fun x => { x with pm := c.pmThresholds x.pm })) := by
  rw [bodyPmConfig, hobj, if_neg (by omega)]
  rfl

/-! ## Final bins (R165) -/

theorem advanceTo_lines (d : Dev) (t : Raw) : (d.advanceTo t).terms = d.terms ∧ (d.advanceTo t).trees = d.trees := by
  unfold Dev.advanceTo
  split <;> exact ⟨rfl, rfl⟩

/-- BIN_FINAL goes to the earliest instant at which a provisional bin becomes final; the bins are those before it. -/
theorem opBinFinal_provisional {d : Dev} {x : Raw} {xs : List Raw}
    (h : d.terms.flatMap (fun e => e.2.pm.provisional) ++ d.trees.flatMap (fun e => e.2.pm.provisional) = x :: xs) :
    d.opBinFinal =
      let a := d.advanceTo (xs.foldl earlier x)
      Dev.areaMade { a with
        terms := d.terms.map (fun e => (e.1, { e.2 with pm := e.2.pm.finalize a.now })),
        trees := d.trees.map (fun e => (e.1, { e.2 with pm := e.2.pm.finalize a.now })) } 0 := by
  obtain ⟨hterms, htrees⟩ := advanceTo_lines d (xs.foldl earlier x)
  simp only [Dev.opBinFinal, h, hterms, htrees]

/-! ## The obligation -/

/-- Settles O7: a performance command by the record its object has, and the final bins by the earliest instant among the provisional ones. -/
theorem lineQualityIsReadConfiguredAndFinal : Obligations.LineQualityIsReadConfiguredAndFinal := by
  unfold Obligations.LineQualityIsReadConfiguredAndFinal
  refine ⟨?readTree, ?readTerm, ?configTree, ?configTerm, ?final⟩
  case readTree =>
    refine answers_row _ _ _ _ _ (fun _ _ => rfl) fun c d _ ⟨hlo, hhi, hrun, hslot⟩ => ?_
    exact bodyPmRead_slot (onPm_tree hlo hhi hrun) hslot
  case readTerm =>
    refine answers_row _ _ _ _ _ (fun _ _ => rfl) fun c d _ ⟨hin, ho, hterm, hrun, hslot⟩ => ?_
    exact bodyPmRead_slot (onPm_term hin ho hterm hrun) hslot
  case configTree =>
    refine answers_row _ _ _ _ _ (fun _ _ => rfl) fun c d _ ⟨hlo, hhi, hrun, hbin⟩ => ?_
    refine (bodyPmConfig_set (onPm_tree hlo hhi hrun) hbin).trans ?_
    rw [if_neg (by omega)]
    rfl
  case configTerm =>
    refine answers_row _ _ _ _ _ (fun _ _ => rfl) fun c d _ ⟨hin, ho, hterm, hrun, hbin⟩ => ?_
    refine (bodyPmConfig_set (onPm_term hin ho hterm hrun) hbin).trans ?_
    rw [if_pos ho]
    rfl
  case final =>
    intro d x xs h
    exact becomes_of (f := fun d => d.opBinFinal) (fun _ => rfl) (opBinFinal_provisional h)

end Sys2Proof.Machine

/-! PROOFS. The plan's commit and deadline; the search, the acceptance and the decoding of a burst (O14). -/

namespace Sys2Proof.Machine

section
variable {d : Dev} {ch : Nat}

/-! ## Plans (R215, R218 to R220) -/

section
variable {p : Plan} (hnext : (d.chan ch).nextPlan = some p) (hlive : d.chanLive ch = true)
include hnext hlive

/-- A commit before the deadline marks the plan and keeps the smallest margin of its tile. -/
theorem opPlanCommit_inTime (hengine : (d.engineOf ch).isSome = true) (htime : reached (d.planDeadline p.frame) d.now = true) :
    d.opPlanCommit ch =
      let margin := (d.planDeadline p.frame - d.now).toNat / 65536000
      (d.updTile (tileOfChan ch) (fun x => { x with
        marginCur := some (match x.marginCur with | some y => min y margin | none => margin) })).updChan ch (fun c =>
          { c with plans := c.plans.map (fun x => if x.frame = p.frame then { x with committed := true } else x) }) := by
  have hguard : ¬ (!d.chanLive ch || (d.engineOf ch).isNone || !reached (d.planDeadline p.frame) d.now) = true := by
    simp [hlive, htime, Option.isSome_iff_ne_none.1 hengine]
  simp only [Dev.opPlanCommit, hnext]
  exact if_neg hguard

/-- On a live channel the assembler acts on the next plan at its deadline. -/
theorem opPlanCommitDeadline_live : d.opPlanCommitDeadline ch = (d.advanceTo (d.planDeadline p.frame)).assemble ch p := by
  simp only [Dev.opPlanCommitDeadline, hnext, hlive, if_true]

end

/-- A plan committed in time takes effect and is issued. -/
theorem assemble_committed {p : Plan} (hcommit : p.committed = true) :
    d.assemble ch p =
      (d.updChan ch (fun c => { c with
        standingValid := (d.chan ch).carryFrom.any (fun x => frameGe p.frame (plusF x 2)) && !p.changed,
        plans := c.plans.map (fun x => if x.frame = p.frame then { p with done := true } else x) })).issuePlan ch { p with done := true } := by
  simp only [Dev.assemble, hcommit, if_true]

/-- Without a commit and without a standing plan there is no plan for the frame. -/
theorem assemble_none {p : Plan} (hcommit : p.committed = false) (hcarry : (d.chan ch).carryFrom = none) :
    d.assemble ch p =
      d.updChan ch (fun c => { c with
        standingValid := false, standingRun := 0, fullRun := 0, plans := c.plans.filter (fun x => x.frame ≠ p.frame) }) := by
  simp only [Dev.assemble, hcommit, hcarry, Option.any_none, Bool.false_and, Bool.false_eq_true, if_false]

/-! ## The delimiter search (R147, R148) -/

/-- An open window stays the one that is searched. -/
theorem openWin_open {w : BurstWin} (hwin : (d.chan ch).win = some w) : d.openWin ch = some (w, d) := by
  simp only [Dev.openWin, hwin]

section
variable (hch : d.chanOk ch = true) (hrun : d.tileRun (tileOfChan ch) = true)
include hch hrun

/-- A channel that is searched: the variant has it, its tile runs and it is not DISABLED. -/
theorem search_on (hst : (d.chan ch).st ≠ .disabled) : (!d.chanOk ch || !d.tileRun (tileOfChan ch) || decide ((d.chan ch).st = .disabled)) = false := by
  simp [hch, hrun, hst]

/-- A match that the search accepts in the window of a granted burst (R148 to R150). -/
theorem opBurstFound_granted {b : BurstFound} {w : BurstWin} (hst : (d.chan ch).st ≠ .disabled) (hwin : (d.chan ch).win = some w)
    (hkind : w.kind = none) (hholds : w.holds b.offset = true) (hham : b.hamming ≤ w.maxHam)
    (hpos : (d.chan ch).winNotBefore ≤ d.absBit ch w.frame (w.expect + b.offset)) (hheader : d.headerOk w b = true) :
    d.opBurstFound ch b =
      ((if 1 ≤ b.hamming then d.count .delimInexact ch else d).updChan ch (fun c => { c with
        win := none, winNotBefore := (d.absBit ch w.frame (w.expect + b.offset) + w.lenBits).toNat,
        accepted := c.accepted ++ [(w.tid, w.frame)] })).acceptGranted ch w b.offset := by
  have hmatch : (!w.holds b.offset || decide (w.maxHam < b.hamming)
      || decide (d.absBit ch w.frame (w.expect + b.offset) < (d.chan ch).winNotBefore)) = false := by
    simp [hholds, hham, hpos]
  simp only [Dev.opBurstFound, search_on hch hrun hst, openWin_open hwin, hmatch, hheader, hkind, Bool.not_true, Bool.false_eq_true, if_false]

/-- The window of a granted burst that ends without one (R148, R162). -/
theorem opBurstWindowClose_granted {w : BurstWin} (hst : (d.chan ch).st ≠ .disabled) (hwin : (d.chan ch).win = some w) (hkind : w.kind = none) :
    d.opBurstWindowClose ch =
      (Dev.updChan (d.advanceTo (d.frameRaw w.frame + rawNs ((d.chan ch).teqd * 16)
        + (d.rate ch).rawOfBytes (ceilDiv (w.expect + (w.half + w.dlen)) 8))) ch (fun c => { c with win := none })).burstMissed ch w := by
  simp only [Dev.opBurstWindowClose, search_on hch hrun hst, openWin_open hwin, hkind, Bool.false_eq_true, if_false]

/-! ## Decoding (R151, R203, R204) -/

/-- The counters of a decoded burst's codewords (Table 6-7), once it is off the accepted list. -/
def Dev.codewordsCounted (d : Dev) (ch : Nat) (b : BurstInfo) : Dev :=
  ((((d.updChan ch (fun c => { c with accepted := c.accepted.erase (b.tid, b.frame) })).countCT .fecCw ch b.tid b.codewords).countCT
    .fecCorrected ch b.tid b.corrected).countCT .fecUncorrectable ch b.tid b.uncorrectable).countCT .fecBits ch b.tid b.bitsCorrected

/-- The rest of what a decoded burst adds: line errors, key indices, reports, uses of grants and the frames it carried. -/
def Dev.burstTaken (x : Dev) (ch : Nat) (b : BurstInfo) : Dev :=
  let line := ((if ch % 4 = 0 then x.countCT .bipErr ch b.tid b.bipErr else x).count .delinLost ch b.lostBytes).pmCount b.tid
    (b.codewords + b.bipBlocks) (b.uncorrectable + b.bipErr)
  let keys := b.keyIndices.foldl (fun d i => d.ponIndex b.tid i) line
  let reports := b.reports.foldl (fun d r => d.noteReport b.tid b.frame r) keys
  let uses := b.used.foldl (fun d u => d.noteUsed b.tid b.frame u) reports
  (uses.winAdd 1 ch 0 b.gemBytes b.gemFrames).winAdd 2 b.tid 0 b.gemBytes b.gemFrames

theorem opBurstDecoded_accepted {b : BurstInfo} (hacc : (d.chan ch).accepted.contains (b.tid, b.frame) = true) :
    d.opBurstDecoded ch b = (d.codewordsCounted ch b).burstTaken ch b := by
  have hguard : ¬ (!d.chanOk ch || !d.tileRun (tileOfChan ch) || !(d.chan ch).accepted.contains (b.tid, b.frame)) = true := by
    simp only [hch, hrun, hacc, Bool.not_true, Bool.or_self, Bool.false_eq_true, not_false_eq_true]
  exact if_neg hguard

end

end

/-! ## The obligation -/

/-- Settles O14: each clause is what its event does past the guards that its hypotheses meet. -/
theorem plansAreCommittedAndBurstsFound : Obligations.PlansAreCommittedAndBurstsFound := by
  unfold Obligations.PlansAreCommittedAndBurstsFound
  refine ⟨?commit, ?deadline, ?noPlan, ?found, ?windowClose, ?decoded⟩
  case commit =>
    rintro d ch p ⟨hnext, hlive, hengine, htime⟩
    exact becomes_of (f := fun d => d.opPlanCommit ch) (fun _ => rfl) (opPlanCommit_inTime hnext hlive hengine htime)
  case deadline =>
    rintro d ch p ⟨hnext, hlive, hcommit⟩
    exact becomes_of (f := fun d => d.opPlanCommitDeadline ch) (fun _ => rfl)
      ((opPlanCommitDeadline_live hnext hlive).trans (assemble_committed hcommit))
  case noPlan =>
    rintro d ch p ⟨hnext, hlive, hcommit, hcarry⟩
    exact becomes_of (f := fun d => d.opPlanCommitDeadline ch) (fun _ => rfl)
      ((opPlanCommitDeadline_live hnext hlive).trans (assemble_none hcommit hcarry))
  case found =>
    rintro d ch b w ⟨hch, hrun, hst, hwin, hkind, hholds, hham, hpos, hheader⟩
    exact becomes_of (f := fun d => d.opBurstFound ch b) (fun _ => rfl)
      (opBurstFound_granted hch hrun hst hwin hkind hholds hham hpos hheader)
  case windowClose =>
    rintro d ch w ⟨hch, hrun, hst, hwin, hkind⟩
    exact becomes_of (f := fun d => d.opBurstWindowClose ch) (fun _ => rfl) (opBurstWindowClose_granted hch hrun hst hwin hkind)
  case decoded =>
    rintro d ch b _ ⟨hch, hrun, hacc, rfl⟩
    exact becomes_of (f := fun d => d.opBurstDecoded ch b) (fun _ => rfl) (opBurstDecoded_accepted hch hrun hacc)

end Sys2Proof.Machine

/-! PROOFS. Legacy circuits and OMCI: create, delete, containers, SAToP packets, messages (O8). -/

namespace Sys2Proof.Machine

/-! ## Containers (R153 to R155) -/

section
variable {d : Dev} {k : Nat} {bytes : List Byte} {x : Circuit} (hx : mget d.circuits k = some x) (hlive : d.chanLive (d.chanOfTerm x.tid) = true)
include hx hlive

/-- A container whose number is not the circuit's is counted and dropped. -/
theorem opCircuitContainerRx_misrouted (hnum : natAt bytes 0 1 * 16 + natAt bytes 1 1 / 16 ≠ k) :
    d.opCircuitContainerRx k bytes = d.count .contMisrouted k := by
  simp only [Dev.opCircuitContainerRx, hx, hlive, hnum, ne_eq, not_false_eq_true, Bool.not_true, Bool.false_eq_true, if_false, if_true]

/-- A container in sequence without justification adds its 256 data bits, or with AIS as many bits without valid input. -/
theorem opCircuitContainerRx_inSequence {seq : Nat} (hnum : natAt bytes 0 1 * 16 + natAt bytes 1 1 / 16 = k) (hseq : seq = natAt bytes 1 1 % 16)
    (hlast : x.rxSeq = some ((seq + 15) % 16)) (hvote : justVote (bytes.getD 2 0) = some 0) :
    d.opCircuitContainerRx k bytes =
      let e : Dev := { d with circuits := mput d.circuits k { x with rxSeq := some seq } }
      if bitN (natAt bytes 2 1) 1 then (e.count .aisRxUp k).circuitIn k (lostBits 256) else e.circuitIn k ((containerBits bytes 0).map some) := by
  have hgap : (seq + 16 - (seq + 15) % 16 - 1) % 16 = 0 := by omega
  have hbits : justBits 0 = 256 := rfl
  have hnotPos : ¬ 0 = 1 := by decide
  have hnotNeg : ¬ 0 = 2 := by decide
  simp only [Dev.opCircuitContainerRx, hx, hlive, hnum, ← hseq, hlast, hgap, hvote, hbits, hnotPos, hnotNeg, ne_eq, not_true_eq_false,
    Bool.not_true, Bool.false_eq_true, if_false, if_true, Option.isNone_some, Option.getD_some, Nat.reduceLeDiff]

end

/-! ## SAToP packets (R158, R159) -/

section
variable {d : Dev} {k : Nat} {s : SatopPacket} {x : Circuit} (hx : mget d.circuits k = some x) (hrun : d.tileRun (d.tileOfTerm x.tid) = true)
  (hpsn : s.psn = x.psn) (hpw : s.pw = x.pw) (hcw : s.cw = true)
include hx hrun hpsn hpw hcw

/-- A packet with an RTP header is counted and dropped. -/
theorem opSatopPacketRx_rtp (hrtp : s.rtp = true) : d.opSatopPacketRx k s = d.count .pwRtpDrop k := by
  simp only [Dev.opSatopPacketRx, hx, hrun, hpsn, hpw, hcw, hrtp, ne_eq, not_true_eq_false, decide_false, Bool.not_true, Bool.or_self,
    Bool.false_eq_true, if_false, if_true]

/-- The first packet, or one in sequence, adds its payload to the jitter buffer. -/
theorem opSatopPacketRx_next (hrtp : s.rtp = false) (hseq : x.pwSeqRx = none ∨ x.pwSeqRx = some ((s.seq + 65535) % 65536)) (hl : s.lBit = false) :
    d.opSatopPacketRx k s =
      Dev.jbPut { d with circuits := mput d.circuits k { x with pwSeqRx := some (s.seq % 65536), pwLoss := false } } k
        (((bitsOf s.payload).map some ++ lostBits (8 * x.payload)).take (8 * x.payload)) := by
  have hgap : (s.seq + 65536 - (s.seq + 65535) % 65536 - 1) % 65536 = 0 := by omega
  rcases hseq with hlast | hlast <;>
    simp only [Dev.opSatopPacketRx, hx, hrun, hpsn, hpw, hcw, hrtp, hl, hlast, hgap, ne_eq, not_true_eq_false, decide_false, Bool.not_true,
      Bool.or_self, Bool.false_eq_true, if_false, if_true, Nat.reduceLeDiff, Nat.lt_irrefl]

end

/-! ## Circuits by command (R157) -/

/-- A pseudowire payload of R157, or 0 for the default, is in range. -/
theorem circuitPayload_inRange {n : Nat} (h : n = 0 ∨ (32 ≤ n ∧ n ≤ 1024 ∧ n % 32 = 0)) :
    ¬ (decide ((if n = 0 then 256 else n) < 32) || decide (1024 < (if n = 0 then 256 else n)) || decide ((if n = 0 then 256 else n) % 32 ≠ 0)) = true := by
  rcases h with rfl | ⟨hlo, hhi, hmult⟩
  · decide
  · have hn : n ≠ 0 := by omega
    simp only [if_neg hn, Bool.or_eq_true, decide_eq_true_eq]
    omega

/-- Marks the circuit of a CMD_CIRCUIT_DELETE for the next frame boundary. -/
theorem bodyCircuitDelete_listed {c : Cmd} {d : Dev} (hin : c.tgt < d.nCircuits) (hlisted : mhas d.circuits c.tgt = true)
    (hdel : (mgetD d.circuits c.tgt {}).delAt = none) (hrun : d.tileRun (d.tileOfTerm (mgetD d.circuits c.tgt {}).tid) = true) :
    bodyCircuitDelete c d =
      Dev.ok { d with circuits := mput d.circuits c.tgt { mgetD d.circuits c.tgt {} with delAt := some (plusF d.frame 1) } } := by
  obtain ⟨x, hx⟩ := get_of_has hlisted
  rw [mgetD_of_get hx] at hdel hrun ⊢
  rw [bodyCircuitDelete, if_neg (by omega), hx]
  exact if_neg (by simp [hdel, Dev.notRun, hrun])

/-! ## OMCI (R160, R161) -/

/-- A listed terminal that is not on its way out, on a running tile, is one that a command may act on. -/
theorem termNamed_listed {d : Dev} {tid : Nat} (hin : tid < d.nTerms) (hterm : mhas d.terms tid = true) (hdel : (d.term tid).delAt = none)
    (hrun : d.tileRun (d.tileOfTerm tid) = true) : d.termNamed tid = true := by
  rw [tileOfTerm_listed hterm] at hrun
  simp [Dev.termNamed, hin, hterm, hdel, hrun]

/-- The device with an OMCI message queued on the tile of its terminal. -/
def Dev.omciQueued (d : Dev) (tid : Nat) (bytes : List Byte) : Dev :=
  d.updTile (d.tileOfTerm tid) (fun x => { x with omciQ := x.omciQ ++ [{ tid := tid, bytes := bytes }] })

section
variable {c : Cmd} {d : Dev} (hterm : d.termNamed c.tgt = true) (hlen : c.params.length = pad4 (4 + c.u16 2))
  (hroom : (d.tile (d.tileOfTerm c.tgt)).omciQ.length < 256)
include hterm hlen hroom

/-- CMD_OMCI_SEND with room queues the message as given, or with the trailer that the device computes. -/
theorem bodyOmciSend_room :
    bodyOmciSend c d =
      if !c.bit 0 0 then Dev.ok (d.omciQueued c.tgt (c.bs 4 (c.u16 2)))
      else match d.omciTrailer c.tgt (c.bs 4 (c.u16 2)) with
        | some trailer => Dev.ok (d.omciQueued c.tgt (c.bs 4 (c.u16 2) ++ trailer))
        | none => d.fail stState := by
  have htile : d.tileOfTerm c.tgt = tileOfChan (d.term c.tgt).ch := by rw [Dev.tileOfTerm, termNamed_get hterm]
  rw [htile] at hroom
  rw [bodyOmciSend, withTerm_named hterm]
  dsimp only
  rw [if_neg (fun hne => hne hlen), if_neg (Nat.not_le.2 hroom), ← htile]
  rfl

end

/-! ## The obligation -/

/-- Settles O8: commands by their guards in the order of the body, containers and packets by their place in their sequence. -/
theorem circuitsAndOmciPassTheirTraffic : Obligations.CircuitsAndOmciPassTheirTraffic := by
  unfold Obligations.CircuitsAndOmciPassTheirTraffic
  refine ⟨?create, ?misrouted, ?inSequence, ?ais, ?rtp, ?satop, ?delete, ?omciPlain, ?omciTrailed, ?omciRx⟩
  case create =>
    refine answers_row _ _ _ _ _ (fun _ _ => rfl) fun c d _ ⟨hcircuit, htid, haid, hpay, hbuf, hpsn, hnew, hterm, halloc, htdel, hadel, hrun,
      hown, hfixed, hperiod, hfew, htile, hfit⟩ => ?_
    have hbuffer : ¬ 32 < (if c.u8 14 = 0 then 4 else c.u8 14) := by split <;> omega
    simp only [specCircuitCreate, bodyCircuitCreate]
    rw [if_neg (by omega), if_neg (by omega), if_neg (by omega), if_neg (circuitPayload_inRange hpay), if_neg hbuffer, if_neg (by omega),
      get_term hterm, get_alloc halloc]
    dsimp only
    rw [if_neg (by simp [hnew, htdel, hadel, Dev.notRun, hrun]), if_neg (by simp [hown, hfixed, hperiod]),
      if_neg (by simp only [Bool.or_eq_true, decide_eq_true_eq]; omega)]
  case misrouted =>
    rintro d k bytes x ⟨hx, hlive, hnum⟩
    exact becomes_of (f := fun d => d.opCircuitContainerRx k bytes) (fun _ => rfl) (opCircuitContainerRx_misrouted hx hlive hnum)
  case inSequence =>
    rintro d k bytes x seq ⟨hx, hlive, hnum, hseq, hlast, hvote, hais⟩
    exact becomes_of (f := fun d => d.opCircuitContainerRx k bytes) (fun _ => rfl)
      ((opCircuitContainerRx_inSequence hx hlive hnum hseq hlast hvote).trans (if_neg (ne_true_of_eq_false hais)))
  case ais =>
    rintro d k bytes x seq ⟨hx, hlive, hnum, hseq, hlast, hvote, hais⟩
    exact becomes_of (f := fun d => d.opCircuitContainerRx k bytes) (fun _ => rfl)
      ((opCircuitContainerRx_inSequence hx hlive hnum hseq hlast hvote).trans (if_pos hais))
  case rtp =>
    rintro d k s x ⟨hx, hrun, hpsn, hpw, hcw, hrtp⟩
    exact becomes_of (f := fun d => d.opSatopPacketRx k s) (fun _ => rfl) (opSatopPacketRx_rtp hx hrun hpsn hpw hcw hrtp)
  case satop =>
    rintro d k s x ⟨hx, hrun, hpsn, hpw, hcw, hrtp, hseq, hl⟩
    exact becomes_of (f := fun d => d.opSatopPacketRx k s) (fun _ => rfl) (opSatopPacketRx_next hx hrun hpsn hpw hcw hrtp hseq hl)
  case delete =>
    exact answers_row _ _ _ _ _ (fun _ _ => rfl) fun _ _ _ ⟨hin, hlisted, hdel, hrun⟩ => bodyCircuitDelete_listed hin hlisted hdel hrun
  case omciPlain =>
    refine answers_row _ _ _ _ _ (fun _ _ => rfl) fun c d _ ⟨hin, hterm, hdel, hrun, hlen, hroom, hflag⟩ => ?_
    exact (bodyOmciSend_room (termNamed_listed hin hterm hdel hrun) hlen hroom).trans (if_pos (by rw [hflag]; rfl))
  case omciTrailed =>
    refine answers_row _ _ _ _ _ (fun _ _ => rfl) fun c d _ ⟨hin, hterm, hdel, hrun, hlen, hroom, hflag, htrailer⟩ => ?_
    obtain ⟨trailer, htr⟩ := Option.isSome_iff_exists.1 htrailer
    refine (bodyOmciSend_room (termNamed_listed hin hterm hdel hrun) hlen hroom).trans ?_
    rw [if_neg (by simp [hflag]), htr]
    rfl
  case omciRx =>
    rintro d tid msg trailer t ⟨ht, hlive⟩
    refine becomes_of (f := fun d => d.opOmciFrameRx tid msg trailer) (fun _ => rfl) ?_
    simp only [Dev.opOmciFrameRx, ht, hlive, Bool.not_true, Bool.false_eq_true, if_false]

end Sys2Proof.Machine

/-! PROOFS. The commands of class 0x03: create, delete, map, reach, rerange, power, transmitter, status of a terminal (O11). -/

namespace Sys2Proof.Machine

/-! ## Terminals and reach (R169, R170) -/

/-- CMD_TERM_CREATE lists a terminal of an own serial number where its channel, its tree and the tiles that hold it have room. A G channel takes
128 terminals, the others more. -/
theorem bodyTermCreate_room {c : Cmd} {d : Dev} (hin : c.tgt < d.nTerms) (hch : d.chanOk (c.u32 0) = true)
    (hrun : d.tileRun (tileOfChan (c.u32 0)) = true) (hlo : 10 ≤ c.u32 52) (hhi : c.u32 52 ≤ 40000)
    (hmap : d.mapOk (c.u32 0) (c.u32 48) (c.u32 52) = true) (hnew : mhas d.terms c.tgt = false)
    (hserial : d.terms.any (fun e => e.2.serial = c.bs 4 8 && e.1 ≠ c.tgt) = false) (hchan : (d.termsOf (c.u32 0)).length < 128)
    (htree : (d.terms.filter (fun e => e.2.ch / 4 = c.u32 0 / 4)).length < 512)
    (htile : (d.placesOf (c.u32 0)).any (fun t => 2048 ≤ d.termsCount t) = false) :
    bodyTermCreate c d =
      Dev.ok (Dev.giveSlot { d with terms := mput d.terms c.tgt {
        ch := c.u32 0, serial := c.bs 4 8, cred := if c.u32 0 % 4 = 0 then c.bs 12 10 else c.bs 12 36, dist := c.u32 48, tol := c.u32 52,
        fec := c.u32 0 % 4 = 2 || c.bit 56 0, pm := { cur15 := { key := d.netSec }, cur24 := { key := d.netSec } } } } 3 c.tgt) := by
  have hroom : ¬ (if c.u32 0 % 4 = 0 then 128 else 256) ≤ (d.termsOf (c.u32 0)).length := by split <;> omega
  rw [bodyTermCreate, if_neg (by omega), onChan_running hch hrun, if_neg (by simp; omega), if_neg (by simp [hmap]),
    if_neg (ne_true_of_eq_false hserial), if_neg (ne_true_of_eq_false hnew), if_neg hroom, if_neg (by omega), if_neg (ne_true_of_eq_false htile)]

/-- CMD_RNG_CHAN_CONFIG sets the reach of a disabled channel, at most 40 km wide within 60 km. -/
theorem bodyRngChanConfig_disabled {c : Cmd} {d : Dev} (hch : d.chanOk c.tgt = true) (hrun : d.tileRun (tileOfChan c.tgt) = true)
    (hmax : c.u32 4 ≤ 60000) (hord : c.u32 0 ≤ c.u32 4) (hwide : c.u32 4 - c.u32 0 ≤ 40000) (hst : (d.chan c.tgt).st = .disabled) :
    bodyRngChanConfig c d = Dev.ok (d.updChan c.tgt (fun x => { x with reachMin := c.u32 0, reachMax := c.u32 4 })) := by
  rw [bodyRngChanConfig, onChan_running hch hrun, if_neg (by omega), if_neg (by simp; omega), if_neg (not_not_intro hst)]

section
variable {c : Cmd} {d : Dev} (hterm : d.termNamed c.tgt = true)
include hterm

/-- CMD_TERM_MAP moves a terminal to an interval within its channel's reach. -/
theorem bodyTermMap_inReach (hmap : d.mapOk (d.term c.tgt).ch (c.u32 0) (c.u32 4) = true) (hlo : 10 ≤ c.u32 4) (hhi : c.u32 4 ≤ 40000) :
    bodyTermMap c d = Dev.ok (d.updTerm c.tgt (fun t => { t with dist := c.u32 0, tol := c.u32 4 })) := by
  rw [bodyTermMap, withTerm_named hterm, if_neg (by simp; omega), if_neg (by simp [hmap])]

/-! ## Ranging again, power saving and the transmitter (R184, R186, R192, R194) -/

theorem bodyTermRerange_inService (hst : (d.term c.tgt).st = .inService) : bodyTermRerange c d = Dev.ok (d.toReacquire c.tgt) := by
  rw [bodyTermRerange, withTerm_named hterm]
  exact if_pos (by simp [hst])

/-- CMD_TERM_POWER without the wake action sets a mode of power saving and its interval. -/
theorem bodyTermPower_mode (haction : c.u8 0 = 0) (hlo : 1 ≤ c.u8 1) (hhi : c.u8 1 ≤ 2) (hmin : 8 ≤ c.u16 2) (hmax : c.u16 2 ≤ 4096) :
    bodyTermPower c d = Dev.ok (d.updTerm c.tgt (fun t => { t with mode := c.u8 1, interval := c.u16 2 })) := by
  have hon : c.u8 1 ≠ 0 := by omega
  rw [bodyTermPower, withTerm_named hterm, if_neg (by omega), if_neg (by omega), if_neg (by simp; omega), if_neg (by simp; omega)]
  simp only [if_neg hon]

/-- CMD_TERM_TXCTRL disables a transmitter that is not disabled; its terminal keeps the ONU-ID. -/
theorem bodyTermTxctrl_disable (haction : c.u8 0 = 0) (hst : (d.term c.tgt).st ≠ .disabled) :
    bodyTermTxctrl c d =
      Dev.ok (((d.svcBreak c.tgt).updTerm c.tgt (fun t => { t.toAbsent with st := .disabled, onu := t.onu })).ploam (d.term c.tgt).ch
        .disableSn c.tgt 1) := by
  rw [bodyTermTxctrl, withTerm_named hterm, if_neg (by omega), if_pos haction, if_neg hst]

/-- CMD_TERM_TXCTRL enables a transmitter that the host or a hold-off disabled, and forgets what led to a hold-off. -/
theorem bodyTermTxctrl_enable (haction : c.u8 0 = 1) (hst : (d.term c.tgt).st = .disabled ∨ (d.term c.tgt).st = .heldOff) :
    bodyTermTxctrl c d = Dev.ok ((d.enableSn c.tgt).updTerm c.tgt (fun t => { t with holdS := 1, everHeld := false, losses := [] })) := by
  rw [bodyTermTxctrl, withTerm_named hterm, if_neg (by omega), if_neg (by omega)]
  rcases hst with hst | hst
  · rw [hst]
  · rw [hst]

end

/-! ## The obligation -/

/-- Settles O11: each body past the guards that its clause meets, on the terminal or the channel that the handle names. -/
theorem terminalCommandsChangeTheTerminalNamed : Obligations.TerminalCommandsChangeTheTerminalNamed := by
  unfold Obligations.TerminalCommandsChangeTheTerminalNamed
  refine ⟨?create, ?delete, ?map, ?reach, ?rerange, ?power, ?disable, ?enable, ?status⟩
  case create =>
    exact answers_row _ _ _ _ _ (fun _ _ => rfl) fun _ _ _ ⟨hin, hch, hrun, hlo, hhi, hmap, hnew, hserial, hchan, htree, htile⟩ =>
      bodyTermCreate_room hin hch hrun hlo hhi hmap hnew hserial hchan htree htile
  case delete => exact answers_row _ _ _ _ _ (fun _ _ => rfl) fun _ _ _ hterm => withTerm_named hterm _
  case map =>
    exact answers_row _ _ _ _ _ (fun _ _ => rfl) fun _ _ _ ⟨hterm, hmap, hlo, hhi⟩ => bodyTermMap_inReach hterm hmap hlo hhi
  case reach =>
    exact answers_row _ _ _ _ _ (fun _ _ => rfl) fun _ _ _ ⟨hch, hrun, hmax, hord, hwide, hst⟩ =>
      bodyRngChanConfig_disabled hch hrun hmax hord hwide hst
  case rerange => exact answers_row _ _ _ _ _ (fun _ _ => rfl) fun _ _ _ ⟨hterm, hst⟩ => bodyTermRerange_inService hterm hst
  case power =>
    exact answers_row _ _ _ _ _ (fun _ _ => rfl) fun _ _ _ ⟨hterm, haction, hlo, hhi, hmin, hmax⟩ =>
      bodyTermPower_mode hterm haction hlo hhi hmin hmax
  case disable =>
    exact answers_row _ _ _ _ _ (fun _ _ => rfl) fun _ _ _ ⟨hterm, haction, hst⟩ => bodyTermTxctrl_disable hterm haction hst
  case enable =>
    exact answers_row _ _ _ _ _ (fun _ _ => rfl) fun _ _ _ ⟨hterm, haction, hst⟩ => bodyTermTxctrl_enable hterm haction hst
  case status => exact answers_row _ _ _ _ _ (fun _ _ => rfl) fun _ _ _ hterm => withTerm_named hterm _

end Sys2Proof.Machine

/-! PROOFS. Registration, losses of registration and power saving of terminals (O12). -/

namespace Sys2Proof.Machine

/-! ## Registration by serial number (R180, R181) -/

theorem freeOnu_congr {d e : Dev} (h : e.terms = d.terms) (ch : Nat) : e.freeOnu ch = d.freeOnu ch := by
  simp only [Dev.freeOnu, Dev.termsOf, h]

/-- The serial number of an ABSENT terminal of the channel gives it an ONU-ID and asks for its credential. -/
theorem opSerialNumberOnu_absent {d : Dev} {ch tid o : Nat} {serial : List Byte} (offsetNs : Int) (hlive : d.chanLive ch = true)
    (hfind : d.terms.find? (fun e => e.2.serial = serial) = some (tid, d.term tid)) (hch : (d.term tid).ch = ch)
    (hst : (d.term tid).st = .absent) (hdel : (d.term tid).delAt = none) (hfree : d.freeOnu ch = some o) :
    d.opSerialNumberOnu ch serial offsetNs =
      (((d.count .snReceived ch).updTerm tid (fun t =>
        { t with st := .ranging, onu := some o, omccPort := o, rngLeft := 4, rngFrom := none })).ploam ch .assignOnuId tid o).ploam ch
          .requestCred tid := by
  have hterms : (d.count .snReceived ch).terms = d.terms := (count_talks d _ ch 1).terms
  simp only [Dev.opSerialNumberOnu, hlive, hterms, hfind, hch, hst, hdel, freeOnu_congr hterms, hfree, ne_eq, not_true_eq_false, decide_false,
    Option.isSome_none, Bool.or_self, Bool.not_true, Bool.false_eq_true, if_false]

section
variable {d : Dev} {tid : Nat} (hterm : mhas d.terms tid = true)
include hterm

/-! ## Terminals of a channel that ranges (R181, R184, R193) -/

section
variable (hlive : d.chanLive (d.term tid).ch = true)
include hlive

theorem opPassword_wrong {cred : List Byte} (rtt : Int) (hst : (d.term tid).st = .ranging) (hcred : cred ≠ (d.term tid).cred) :
    d.opPassword tid cred rtt = (d.countCT .authFail (d.term tid).ch tid).deactivate tid := by
  simp only [Dev.opPassword, get_term hterm, hlive, hst, if_neg hcred, Bool.not_true, Bool.false_eq_true, if_false, if_true]

theorem opRangingWindowsExhausted_spent (hst : (d.term tid).st = .ranging) (hleft : (d.term tid).rngLeft = 0) :
    d.opRangingWindowsExhausted tid = (d.countCT .rngFail (d.term tid).ch tid).deactivate tid := by
  simp only [Dev.opRangingWindowsExhausted, get_term hterm]
  exact if_pos (by simp [hlive, hst, hleft])

theorem opReacquireTimeout_reacquire (hst : (d.term tid).st = .reacquire) :
    d.opReacquireTimeout tid = (d.advanceTo (d.term tid).reacqEnd).deactivate tid := by
  simp only [Dev.opReacquireTimeout, get_term hterm]
  exact if_pos (by simp [hlive, hst])

theorem opSleepRequest_awake : d.opSleepRequest tid true = (d.wake tid).2 := by
  simp only [Dev.opSleepRequest, get_term hterm, hlive, Bool.not_true, Bool.false_eq_true, if_false, if_true]

/-- A request to sleep is granted to a terminal in service that was told that it may sleep and still may. -/
theorem opSleepRequest_allowed (hst : (d.term tid).st = .inService) (hon : (d.term tid).allowOn = true)
    (hmay : d.maySleep tid (d.term tid) = true) :
    d.opSleepRequest tid false =
      d.updTerm tid (fun t => { t with st := .lowPower, sleptAt := d.frame, wakeFrame := none, wakeReq := decide (t.wokeAt = some d.frame) }) := by
  simp only [Dev.opSleepRequest, get_term hterm, hlive, hst, hon, hmay, decide_true, Bool.and_self, Bool.not_true, Bool.false_eq_true, if_false,
    if_true]

end

/-! ## Terminals of a running tile (R185, R191) -/

section
variable (hrun : d.tileRun (tileOfChan (d.term tid).ch) = true)
include hrun

theorem opHoldOffEnd_heldOff (hst : (d.term tid).st = .heldOff) : d.opHoldOffEnd tid = (d.advanceTo (d.term tid).holdEnd).enableSn tid := by
  simp only [Dev.opHoldOffEnd, get_term hterm]
  exact if_pos (by simp [hrun, hst])

/-- A dying gasp is a message of G channels. -/
theorem opDyingGasp_inService (hkind : (d.term tid).ch % 4 = 0) (hst : (d.term tid).st = .inService) :
    d.opDyingGasp tid = (d.svcBreak tid).goAbsent tid := by
  have hon : (d.term tid).st.live = true := by rw [hst]; rfl
  simp only [Dev.opDyingGasp, get_term hterm, hrun, hkind, hon, ne_eq, not_true_eq_false, Bool.not_true, Bool.false_eq_true, if_false, if_true]

end

end

/-! ## Messages that no row lists (R191) -/

/-- Table 7-3 lists dying gasp and both error messages for G channels only, and nothing beyond its own messages. -/
theorem ploamAccepted_eq_false {kind : Nat} {m : PloamUp}
    (h : m = .other ∨ kind ≠ 0 ∧ (m = .dyingGasp ∨ m = .remoteError ∨ m = .physicalError)) : ploamAccepted kind m = false := by
  rcases h with rfl | ⟨hkind, rfl | rfl | rfl⟩
  · rfl
  all_goals exact decide_eq_false hkind

theorem opPloamUnexpected_unlisted {d : Dev} {ch : Nat} {m : PloamUp} (hlive : d.chanLive ch = true) (hm : ploamAccepted (ch % 4) m = false) :
    d.opPloamUnexpected ch m = d.count .ploamUnexpected ch :=
  if_pos (by simp [hlive, hm])

/-! ## The obligation -/

/-- Settles O12: each event past the guards on the state of its terminal and channel. -/
theorem terminalsRegisterAndLeave : Obligations.TerminalsRegisterAndLeave := by
  unfold Obligations.TerminalsRegisterAndLeave
  refine ⟨?serial, ?password, ?exhausted, ?reacquire, ?holdOff, ?gasp, ?unlisted, ?sleep, ?awake⟩
  case serial =>
    rintro d ch serial offsetNs tid o ⟨hlive, hfind, hch, hst, hdel, hfree⟩
    exact becomes_of (f := fun d => d.opSerialNumberOnu ch serial offsetNs) (fun _ => rfl)
      (opSerialNumberOnu_absent offsetNs hlive hfind hch hst hdel hfree)
  case password =>
    rintro d tid cred rtt ⟨hterm, hlive, hst, hcred⟩
    exact becomes_of (f := fun d => d.opPassword tid cred rtt) (fun _ => rfl) (opPassword_wrong hterm hlive rtt hst hcred)
  case exhausted =>
    rintro d tid ⟨hterm, hlive, hst, hleft⟩
    exact becomes_of (f := fun d => d.opRangingWindowsExhausted tid) (fun _ => rfl) (opRangingWindowsExhausted_spent hterm hlive hst hleft)
  case reacquire =>
    rintro d tid ⟨hterm, hlive, hst⟩
    exact becomes_of (f := fun d => d.opReacquireTimeout tid) (fun _ => rfl) (opReacquireTimeout_reacquire hterm hlive hst)
  case holdOff =>
    rintro d tid ⟨hterm, hrun, hst⟩
    exact becomes_of (f := fun d => d.opHoldOffEnd tid) (fun _ => rfl) (opHoldOffEnd_heldOff hterm hrun hst)
  case gasp =>
    rintro d tid ⟨hterm, hrun, hkind, hst⟩
    exact becomes_of (f := fun d => d.opDyingGasp tid) (fun _ => rfl) (opDyingGasp_inService hterm hrun hkind hst)
  case unlisted =>
    rintro d p ⟨hlive, hmsg⟩
    exact becomes_of (f := fun d => d.opPloamUnexpected p.ch p.msg) (fun _ => rfl)
      (opPloamUnexpected_unlisted hlive (ploamAccepted_eq_false hmsg))
  case sleep =>
    rintro d tid _ ⟨hterm, rfl, hlive, hst, hon, hmay⟩
    exact becomes_of (f := fun d => d.opSleepRequest tid false) (fun _ => rfl) (opSleepRequest_allowed hterm hlive hst hon hmay)
  case awake =>
    rintro d tid _ ⟨hterm, rfl, hlive⟩
    exact becomes_of (f := fun d => d.opSleepRequest tid true) (fun _ => rfl) (opSleepRequest_awake hterm hlive)

end Sys2Proof.Machine

/-! PROOFS. Discovery and dark periods, void dark windows and the dark window of a hunt step (O13). -/

namespace Sys2Proof.Machine

/-- Reaching an instant leaves the channels and the free values as they were. -/
theorem advanceTo_chans (d : Dev) (t : Raw) : (d.advanceTo t).chans = d.chans ∧ (d.advanceTo t).freeCtr = d.freeCtr := by
  unfold Dev.advanceTo
  split
  · exact ⟨rfl, rfl⟩
  · exact ⟨rfl, rfl⟩

theorem chan_congr {d e : Dev} (h : e.chans = d.chans) (ch : Nat) : e.chan ch = d.chan ch := by unfold Dev.chan; rw [h]

/-! ## Discovery periods (R175) -/

section
variable {d e : Dev} {ch f : Nat} (hlive : d.chanLive ch = true)
include hlive

/-- A map-guided period groups the ABSENT terminals, nearest first, and spreads the groups' windows over the period. -/
theorem opDiscMapPeriodStart_due {gs : List (List Nat)} (hperiod : d.periodAt (d.chan ch).mapNext (d.discMapMs ch * 8) = some (f, e))
    (hgs : gs = (sortBy (fun (x : Nat × Terminal) => x.2.dist)
      ((e.termsOf ch).filter (fun x => x.2.st = .absent && x.2.delAt.isNone))).foldl (fun gs x => e.groupAdd ch gs x.1) []) :
    d.opDiscMapPeriodStart ch =
      e.updChan ch (fun c => { c with
        groups := gs.map (fun g => { kind := .map, members := g }), groupGap := e.discMapMs ch * 8 / max 1 gs.length, groupNext := f,
        mapNext := some (plusF f (e.discMapMs ch * 8)) }) := by
  simp only [Dev.opDiscMapPeriodStart, hlive, hperiod, hgs, Bool.not_true, Bool.false_eq_true, if_false]

/-- A broad period submits one broad window where none waits. -/
theorem opDiscBroadPeriodStart_due (hperiod : d.periodAt (d.chan ch).broadNext (d.discBroadS ch * 8000) = some (f, e))
    (hnone : (e.chan ch).winReq.any (fun w => w.kind = .broad) = false) :
    d.opDiscBroadPeriodStart ch =
      e.updChan ch (fun c => { c with
        winReq := c.winReq ++ [{ kind := .broad }], broadNext := some (plusF f (e.discBroadS ch * 8000)) }) := by
  simp only [Dev.opDiscBroadPeriodStart, hlive, hperiod, Dev.updChan, hnone, Bool.not_true, Bool.false_eq_true, if_false]

end

/-! ## Dark periods and void dark windows (R187) -/

/-- A period whose start is not more than its length ago begins at its frame. -/
theorem periodAt_due {d : Dev} {f len : Nat} (hlen : len ≠ 0) (hahead : frameGe d.frame (plusF f len) = false) :
    d.periodAt (some f) len = some (f, d.toFrame f) := by
  simp only [Dev.periodAt, if_neg hlen, hahead, Bool.false_eq_true, if_false]

@[simp] theorem toFrame_freeCtr (d : Dev) (f : Nat) : (d.toFrame f).freeCtr = d.freeCtr := (advanceTo_chans d _).2

theorem toFrame_darkCfg (d : Dev) (f ch : Nat) : (d.toFrame f).darkCfg ch = d.darkCfg ch := by
  obtain ⟨hvariant, hregs⟩ := advanceTo_regs d (d.rawReach (d.frameNetNs (d.frameIx f) * 65536))
  exact reg_congr hvariant hregs _

@[simp] theorem toFrame_darkMs (d : Dev) (f ch : Nat) : (d.toFrame f).darkMs ch = d.darkMs ch := by
  rw [Dev.darkMs, toFrame_darkCfg, Dev.darkMs]
@[simp] theorem toFrame_darkLenUs (d : Dev) (f ch : Nat) : (d.toFrame f).darkLenUs ch = d.darkLenUs ch := by
  rw [Dev.darkLenUs, toFrame_darkCfg, Dev.darkLenUs]

@[simp] theorem fresh_fst (d : Dev) : d.fresh.1 = d.freeCtr := rfl
@[simp] theorem fresh_freeCtr (d : Dev) : d.fresh.2.freeCtr = d.freeCtr + 1 := rfl
@[simp] theorem fresh_darkMs (d : Dev) (ch : Nat) : d.fresh.2.darkMs ch = d.darkMs ch := rfl
@[simp] theorem fresh_darkLenUs (d : Dev) (ch : Nat) : d.fresh.2.darkLenUs ch = d.darkLenUs ch := rfl

/-- The channel of a dark period: frame and offset are the draws `i` and `i + 1`. -/
def Chan.darkDrawn (c : Chan) (f len lenUs i : Nat) : Chan :=
  { c with
    darkFrame := some (plusF f (Config.freeNat i % len)), darkOfs := Config.freeNat (i + 1) % (125000 - lenUs * 1000 + 1),
    darkNext := some (plusF f len) }

/-- A dark period draws its frame and its offset from two free values. -/
theorem opDarkPeriodStart_due {d : Dev} {ch f : Nat} (hlive : d.chanLive ch = true) (hnext : (d.chan ch).darkNext = some f)
    (hon : d.darkMs ch ≠ 0) (hahead : frameGe d.frame (plusF f (d.darkMs ch * 8)) = false) :
    d.opDarkPeriodStart ch =
      (d.toFrame f).fresh.2.fresh.2.updChan ch (fun c => c.darkDrawn f (d.darkMs ch * 8) (d.darkLenUs ch) d.freeCtr) := by
  have hlen : d.darkMs ch * 8 ≠ 0 := by omega
  simp only [Dev.opDarkPeriodStart, hlive, hnext, periodAt_due hlen hahead, fresh_fst, fresh_freeCtr, fresh_darkMs, fresh_darkLenUs,
    toFrame_freeCtr, toFrame_darkMs, toFrame_darkLenUs, Chan.darkDrawn, Bool.not_true, Bool.false_eq_true, if_false]

/-- One of the first seven void dark windows in a row, outside a hunt and a confirmation, is closed and counted. -/
theorem opDarkWindowVoid_counted {d : Dev} {ch : Nat} (hopen : (d.chan ch).darkOpen = true) (hch : d.chanOk ch = true)
    (hhunt : (d.chan ch).hunt = none) (hconfirm : (d.chan ch).darkConfirm = false) (hrow : (d.chan ch).darkVoidRun < 7) :
    d.opDarkWindowVoid ch =
      ((d.advanceTo ((d.chan ch).darkEnd + rawUs 20)).count .darkVoid ch).updChan ch (fun c =>
        { c with darkOpen := false, darkVoidRun := c.darkVoidRun + 1 }) := by
  have hchan : ((d.advanceTo ((d.chan ch).darkEnd + rawUs 20)).count .darkVoid ch).chan ch = d.chan ch :=
    chan_congr ((count_talks _ _ ch 1).chans.trans (advanceTo_chans d _).1) ch
  have hmod : ((d.chan ch).darkVoidRun + 1) % 8 = (d.chan ch).darkVoidRun + 1 := Nat.mod_eq_of_lt (by omega)
  have hnot : (d.chan ch).darkVoidRun ≠ 7 := by omega
  simp only [Dev.opDarkWindowVoid, Dev.updChan, hopen, hch, hchan, hhunt, hconfirm, hmod, if_neg hnot, Option.map_none, Bool.not_true,
    Bool.or_self, Bool.false_eq_true, if_false]

/-! ## Hunts (R188) -/

/-- The end of a hunt step's settle time opens the dark window of its plan. -/
theorem opHuntSettleExpiry_planned {d : Dev} {ch f : Nat} {x : Hunt} {q : Plan} (hlive : d.chanLive ch = true) (hhunt : (d.chan ch).hunt = some x)
    (hframe : x.darkFrame = some f) (hclosed : x.darkOpen = false) (hplan : ((d.toFrame f).chan ch).plans.find? (fun p => p.frame = f) = some q) :
    d.opHuntSettleExpiry ch = (d.toFrame f).openDark ch q := by
  simp only [Dev.opHuntSettleExpiry, hhunt, hframe, hclosed, hlive, hplan, Bool.not_true, Bool.or_self, Bool.false_eq_true, if_false]

/-! ## The obligation -/

/-- Settles O13: each period from the frame at which it begins, a void window and the end of a settle time past their guards. -/
theorem windowPeriodsAndDarkWindowsRun : Obligations.WindowPeriodsAndDarkWindowsRun := by
  unfold Obligations.WindowPeriodsAndDarkWindowsRun
  refine ⟨?map, ?broad, ?dark, ?void, ?hunt⟩
  case map =>
    rintro d ch f e gs ⟨hlive, hperiod, hgs⟩
    exact becomes_of (f := fun d => d.opDiscMapPeriodStart ch) (fun _ => rfl) (opDiscMapPeriodStart_due hlive hperiod hgs)
  case broad =>
    rintro d ch f e ⟨hlive, hperiod, hnone⟩
    exact becomes_of (f := fun d => d.opDiscBroadPeriodStart ch) (fun _ => rfl) (opDiscBroadPeriodStart_due hlive hperiod hnone)
  case dark =>
    rintro d ch f ⟨hlive, hnext, hon, hahead⟩
    refine leaves_of (f := fun d => d.opDarkPeriodStart ch) (fun _ => rfl) ?_
    rw [opDarkPeriodStart_due hlive hnext hon hahead]
    simp [Dev.updChan, Chan.darkDrawn]
  case void =>
    rintro d ch ⟨hopen, hch, hhunt, hconfirm, hrow⟩
    exact becomes_of (f := fun d => d.opDarkWindowVoid ch) (fun _ => rfl) (opDarkWindowVoid_counted hopen hch hhunt hconfirm hrow)
  case hunt =>
    rintro d ch x f q ⟨hlive, hhunt, hframe, hclosed, hplan⟩
    exact becomes_of (f := fun d => d.opHuntSettleExpiry ch) (fun _ => rfl) (opHuntSettleExpiry_planned hlive hhunt hframe hclosed hplan)

end Sys2Proof.Machine

/-! PROOFS. The commands of class 0x04: allocations, weights of domains and terminals, status (O15). -/

namespace Sys2Proof.Machine

/-! ## Allocations (R197, R216, R217) -/

/-- The allocation that an admitted CMD_ALLOC_CREATE lists: a new phase, the lowest free Alloc-ID, served from the frame of the change on. -/
def Dev.allocGranted (d : Dev) (c : Cmd) (ch : Nat) : Alloc :=
  { tid := c.u32 0, p := paramsOf c (d.rate ch).fb, phase := d.choosePhase ch c.tgt (c.u8 25),
    allocId := (lowestFree ((d.allocsOf ch).map (fun e => e.2.allocId)) (Config.allocIdLow (ch % 4)) 16384).getD 0, startAt := d.effFrame }

/-- The device that lists it, with its counters' slot. -/
def Dev.allocListed (d : Dev) (c : Cmd) (ch : Nat) : Dev :=
  Dev.giveSlot { d with allocs := mput d.allocs c.tgt (d.allocGranted c ch) } 2 c.tgt

/-- CMD_ALLOC_CREATE of legal parameters where terminal, tiles, standing plan and channel have room lists the allocation, and tells a terminal
that listens its Alloc-ID. -/
theorem bodyAllocCreate_admitted {c : Cmd} {d : Dev} (hin : c.tgt < d.nAllocs) (htid : c.u32 0 < d.nTerms)
    (hterm : mhas d.terms (c.u32 0) = true) (hdel : (d.term (c.u32 0)).delAt = none) (hnew : mhas d.allocs c.tgt = false)
    (hrun : d.tileRun (tileOfChan (d.term (c.u32 0)).ch) = true)
    (hrange : paramsRange c (paramsOf c (d.rate (d.term (c.u32 0)).ch).fb) (d.rate (d.term (c.u32 0)).ch).fb = none)
    (hbad : paramsBad (paramsOf c (d.rate (d.term (c.u32 0)).ch).fb) (d.term (c.u32 0)).ch = false)
    (hfew : (d.allocs.filter (fun e => e.2.tid = c.u32 0)).length < 32)
    (htile : (d.placesOf (d.term (c.u32 0)).ch).any (fun t => 8192 ≤ d.allocsCount t) = false)
    (hadmit : d.admits (d.term (c.u32 0)).ch c.tgt (c.u32 0) (paramsOf c (d.rate (d.term (c.u32 0)).ch).fb) = true)
    (hstanding : d.standingFull (d.term (c.u32 0)).ch (paramsOf c (d.rate (d.term (c.u32 0)).ch).fb) = false) :
    bodyAllocCreate c d =
      Dev.ok (if (d.term (c.u32 0)).st = .inService ∨ (d.term (c.u32 0)).st = .lowPower then
        (d.allocListed c (d.term (c.u32 0)).ch).ploam (d.term (c.u32 0)).ch .assignAlloc (c.u32 0) (d.allocGranted c (d.term (c.u32 0)).ch).allocId
      else d.allocListed c (d.term (c.u32 0)).ch) := by
  rw [bodyAllocCreate, if_neg (by omega), if_neg (by omega), get_term hterm]
  dsimp only
  rw [if_neg (by simp [hdel, hnew, Dev.notRun, hrun]), hrange]
  dsimp only
  rw [if_neg (ne_true_of_eq_false hbad), if_neg (by omega), if_neg (ne_true_of_eq_false htile), if_neg (ne_true_of_eq_false hstanding),
    if_neg (by simp [hadmit])]
  simp only [Bool.or_eq_true, decide_eq_true_eq]
  rfl

/-- CMD_ALLOC_MODIFY keeps terminal, domain, type, safety and follow-me of the allocation; it queues the new parameters, with a new phase only
where the period is not the last one queued. -/
theorem bodyAllocModify_admitted {c : Cmd} {d : Dev} {p : AllocParams} {ch : Nat} (halloc : d.allocNamed c.tgt = true)
    (hch : d.chanOfTerm (d.alloc c.tgt).tid = ch) (hp : paramsOf c (d.rate ch).fb = p) (hrange : paramsRange c p (d.rate ch).fb = none)
    (htid : c.u32 0 = (d.alloc c.tgt).tid) (hsdom : p.sdom = (d.alloc c.tgt).p.sdom) (htyp : p.typ = (d.alloc c.tgt).p.typ)
    (hsafety : p.safety = (d.alloc c.tgt).p.safety) (hfm : p.fm = (d.alloc c.tgt).p.fm) (hbad : paramsBad p ch = false)
    (hadmit : d.admits ch c.tgt (d.alloc c.tgt).tid p = true) :
    bodyAllocModify c d =
      Dev.ok (d.updAlloc c.tgt (fun a => { a with
        next := a.next ++ [(d.effFrame, p, if p.period = (d.alloc c.tgt).latest.1.period then (d.alloc c.tgt).latest.2
          else d.choosePhase ch c.tgt p.period)] })) := by
  rw [bodyAllocModify, withAlloc_named halloc]
  dsimp only
  rw [hch, hp, hrange]
  dsimp only
  rw [if_neg (by simp [htid, hsdom, htyp, hsafety, hfm, hbad]), if_neg (by simp [hadmit])]

/-! ## Weights (R200, R201) -/

section
variable {c : Cmd} {d : Dev} (hdom : c.tgt < 256) (hweight : c.u16 4 ≤ 1023) (hprio : c.u8 6 ≤ 7)
include hdom hweight hprio

/-- CMD_DOM_CONFIG of one channel queues the weight there and the priority, each where its flag asks for it. -/
theorem bodyDomConfig_channel (hch : d.chanOk (c.u32 0) = true) (hone : c.u32 0 ≠ 0xFFFFFFFF) (hflag : c.bit 7 0 = true ∨ c.bit 7 1 = true)
    (hrun : d.tileRun (tileOfChan (c.u32 0)) = true) :
    bodyDomConfig c d =
      Dev.ok { d with domNext := d.domNext ++ (if c.bit 7 0 then [(d.effFrame, 0, 256 * c.u32 0 + c.tgt, c.u16 4)] else [])
        ++ (if c.bit 7 1 then [(d.effFrame, 1, c.tgt, c.u8 6)] else []) } := by
  have hasked : ¬ (!c.bit 7 0 && !c.bit 7 1) = true := by rcases hflag with h | h <;> simp [h]
  rw [bodyDomConfig, if_neg (by omega), if_neg (by simp [hch]), if_neg (by omega), if_neg (by omega), if_neg hasked,
    if_neg (by simp [Dev.notRun, hrun])]
  simp [hone]

/-- CMD_DOM_CONFIG of all channels queues the weight for each. -/
theorem bodyDomConfig_all (hall : c.u32 0 = 0xFFFFFFFF) (hset : c.bit 7 0 = true) (hkeep : c.bit 7 1 = false) :
    bodyDomConfig c d =
      Dev.ok { d with domNext := d.domNext ++ d.chanList.map (fun x => (d.effFrame, 0, 256 * x + c.tgt, c.u16 4)) } := by
  rw [bodyDomConfig, if_neg (by omega), if_neg (by simp [hall]), if_neg (by omega), if_neg (by omega), if_neg (by simp [hset]),
    if_neg (by simp [hall])]
  simp [hall, hset, hkeep]

end

/-- CMD_TDOM_CONFIG queues a terminal's weight in a domain in which it has an allocation. -/
theorem bodyTdomConfig_allocated {c : Cmd} {d : Dev} (hterm : d.termNamed c.tgt = true) (hlo : 1 ≤ c.u16 2) (hhi : c.u16 2 ≤ 1023)
    (hin : d.allocs.any (fun e => e.2.tid = c.tgt && e.2.p.sdom = c.u8 0) = true) :
    bodyTdomConfig c d = Dev.ok { d with domNext := d.domNext ++ [(d.effFrame, 2, 256 * c.tgt + c.u8 0, c.u16 2)] } := by
  rw [bodyTdomConfig, withTerm_named hterm, if_neg (by simp; omega), if_neg (by simp only [hin]; decide)]

/-! ## The obligation -/

/-- Settles O15: each body past the guards that its clause meets, on the allocation, the domain, the terminal or the channel that it names. -/
theorem allocationCommandsSetWhatIsGranted : Obligations.AllocationCommandsSetWhatIsGranted := by
  unfold Obligations.AllocationCommandsSetWhatIsGranted
  refine ⟨?create, ?modify, ?delete, ?status, ?domain, ?domainAll, ?terminal, ?engine⟩
  case create =>
    exact answers_row _ _ _ _ _ (fun _ _ => rfl) fun _ _ _ ⟨hin, htid, hterm, hdel, hnew, hrun, hrange, hbad, hfew, htile, hadmit, hstanding⟩ =>
      bodyAllocCreate_admitted hin htid hterm hdel hnew hrun hrange hbad hfew htile hadmit hstanding
  case modify =>
    exact answers_row _ _ _ _ _ (fun _ _ => rfl) fun _ _ _ ⟨halloc, hrange, htid, hsdom, htyp, hsafety, hfm, hbad, hadmit⟩ =>
      bodyAllocModify_admitted halloc rfl rfl hrange htid hsdom htyp hsafety hfm hbad hadmit
  case delete => exact answers_row _ _ _ _ _ (fun _ _ => rfl) fun _ _ _ halloc => withAlloc_named halloc _
  case status => exact answers_row _ _ _ _ _ (fun _ _ => rfl) fun _ _ _ halloc => withAlloc_named halloc _
  case domain =>
    exact answers_row _ _ _ _ _ (fun _ _ => rfl) fun _ _ _ ⟨hdom, hch, hone, hweight, hprio, hflag, hrun⟩ =>
      bodyDomConfig_channel hdom hweight hprio hch hone hflag hrun
  case domainAll =>
    exact answers_row _ _ _ _ _ (fun _ _ => rfl) fun _ _ _ ⟨hdom, hall, hweight, hprio, hset, hkeep⟩ =>
      bodyDomConfig_all hdom hweight hprio hall hset hkeep
  case terminal =>
    exact answers_row _ _ _ _ _ (fun _ _ => rfl) fun _ _ _ ⟨hterm, hlo, hhi, hin⟩ => bodyTdomConfig_allocated hterm hlo hhi hin
  case engine =>
    refine answers_row _ _ _ _ _ (fun _ _ => rfl) fun c d _ ⟨hch, hrun⟩ => ?_
    change bodyGsStatus c d = _
    rw [bodyGsStatus, onChan_running hch hrun]

end Sys2Proof.Machine

/-! PROOFS. The commands of class 0x05: routes, cells, profiles, events, trains, positions, sources and the trains of a cell (O17). -/

namespace Sys2Proof.Machine

/-! ## Routes, cells, profiles and events (R225 to R227, R246, R250) -/

/-- The route of a CMD_FM_ROUTE (Table 15-21). -/
def Cmd.fmRoute (c : Cmd) : FmRoute :=
  { len := c.u32 4
    links := (List.range (c.u8 1)).map (fun i =>
      { high := c.u8 (8 + 8 * i) = 1, route := c.u8 (9 + 8 * i), rev := c.u8 (10 + 8 * i) = 1, atT := c.u32 (12 + 8 * i) }) }

/-- The terminals and the cell of a CMD_FM_CELL (Table 15-22). -/
def Cmd.fmTids (c : Cmd) : List Nat := (List.range (c.u8 3)).map (fun i => c.u16 (12 + 2 * i))
def Cmd.fmCell (c : Cmd) : FmCell := { route := c.u8 1, lo := c.u32 4, hi := c.u32 8, floor := c.u8 2, tids := c.fmTids }

/-- The profile of a CMD_FM_PROFILE (Table 15-23). -/
def Cmd.fmProfile (c : Cmd) : FmProfile :=
  { vMax := c.u16 0, vRev := c.u16 2, lead := c.u16 4
    entries := (List.range (c.u8 6)).map (fun i =>
      { sdom := c.u8 (8 + 20 * i), upA := c.u32 (12 + 20 * i), upP := c.u32 (16 + 20 * i), dnA := c.u32 (20 + 20 * i), dnP := c.u32 (24 + 20 * i) }) }

/-- The event of a CMD_FM_EVENT; a hold of 0 is one of 60 s. -/
def Cmd.fmEvent (c : Cmd) : FmEvent :=
  { route := c.u8 1, c := c.u32 4, dir := c.u8 8, act := c.u8 9, arg := c.u16 10, hold := if c.u16 12 = 0 then 60 else c.u16 12 }

section
variable {c : Cmd} {d : Dev} (htgt : c.tgt ≤ 255) (hclear : d.fm.trains.any (fun e => e.2.last.any (fun r => r.route = c.tgt)) = false)
include htgt hclear

/-- CMD_FM_ROUTE removes a listed route on which no train is. -/
theorem bodyFmRoute_removed (hact : c.u8 0 = 1) (hlisted : mhas d.fm.routes c.tgt = true) :
    bodyFmRoute c d = Dev.ok { d with fm := { d.fm with routes := mdel d.fm.routes c.tgt } } := by
  rw [bodyFmRoute, if_neg (by omega), if_neg (by omega), if_neg (ne_true_of_eq_false hclear), if_pos hact, if_pos hlisted]

/-- CMD_FM_ROUTE lists a route of some length and at most four links. -/
theorem bodyFmRoute_listed (hact : c.u8 0 = 0) (hfew : c.u8 1 ≤ 4) (hlen : c.u32 4 ≠ 0)
    (hlinks : (List.range (c.u8 1)).any (fun i => 1 < c.u8 (8 + 8 * i) || 1 < c.u8 (10 + 8 * i)) = false) :
    bodyFmRoute c d = Dev.ok { d with fm := { d.fm with routes := mput d.fm.routes c.tgt c.fmRoute } } := by
  rw [bodyFmRoute, if_neg (by omega), if_neg (by omega), if_neg (ne_true_of_eq_false hclear), if_neg (by omega)]
  dsimp only
  rw [if_neg (by omega), if_neg hlen, if_neg (ne_true_of_eq_false hlinks)]
  rfl

end

/-- CMD_FM_CELL queues a cell of 1 to 16 terminals on running tiles that have room for its parts. -/
theorem bodyFmCell_created {c : Cmd} {d : Dev} (htgt : c.tgt ≤ 16383) (hact : c.u8 0 = 0) (hsome : 1 ≤ c.u8 3) (hfew : c.u8 3 ≤ 16)
    (hfloor : c.u8 2 ≤ 63) (hord : c.u32 4 < c.u32 8) (hroute : mhas d.fm.routes (c.u8 1) = true)
    (hrange : c.fmTids.any (fun t => d.nTerms ≤ t) = false) (hterms : c.fmTids.any (fun t => !mhas d.terms t || d.notRun (d.tileOfTerm t)) = false)
    (hroom : (d.cellTiles c.fmCell).any (fun t => 2048 ≤ d.partsOn c.tgt t) = false) :
    bodyFmCell c d = Dev.ok { d with fm := { d.fm with cellNext := d.fm.cellNext ++ [(d.effFrame, c.tgt, some c.fmCell)] } } := by
  have husable : ¬ (!mhas d.fm.routes (c.u8 1) || c.fmTids.any (fun t => !mhas d.terms t || d.notRun (d.tileOfTerm t))) = true := by
    rw [hroute, hterms]; decide
  rw [bodyFmCell, if_neg (by omega), if_neg (by omega), if_neg (by omega)]
  dsimp only
  rw [if_neg (by omega), if_neg (by omega), if_neg (by omega), if_neg (by omega)]
  exact (if_neg (ne_true_of_eq_false hrange)).trans ((if_neg husable).trans (if_neg (ne_true_of_eq_false hroom)))

/-- CMD_FM_CELL queues the end of a cell that is there once the changes before it have come. -/
theorem bodyFmCell_deleted {c : Cmd} {d : Dev} (htgt : c.tgt ≤ 16383) (hact : c.u8 0 = 1) (hthere : (d.cellLatest c.tgt).isSome = true) :
    bodyFmCell c d = Dev.ok { d with fm := { d.fm with cellNext := d.fm.cellNext ++ [(d.effFrame, c.tgt, none)] } } := by
  rw [bodyFmCell, if_neg (by omega), if_neg (by omega), if_pos hact, if_neg (by simpa [Option.isSome_iff_ne_none] using hthere)]

/-- CMD_FM_PROFILE queues a profile of speeds within range and at most eight entries, none with a peak below its assured rate. -/
theorem bodyFmProfile_legal {c : Cmd} {d : Dev} (htgt : c.tgt ≤ 63) (hlo : 100 ≤ c.u16 0) (hhi : c.u16 0 ≤ 15000) (hrev : c.u16 2 ≤ 15000)
    (hlead : c.u16 4 ≤ 60000) (hfew : c.u8 6 ≤ 8)
    (hpeaks : (List.range (c.u8 6)).any (fun i => c.u32 (16 + 20 * i) < c.u32 (12 + 20 * i) || c.u32 (24 + 20 * i) < c.u32 (20 + 20 * i)) = false) :
    bodyFmProfile c d = Dev.ok { d with fm := { d.fm with profNext := d.fm.profNext ++ [(d.effFrame, c.tgt, c.fmProfile)] } } := by
  rw [bodyFmProfile]
  dsimp only
  rw [if_neg (by omega), if_neg (by simp; omega), if_neg (by omega), if_neg (by omega), if_neg (by omega), List.any_map]
  exact if_neg (ne_true_of_eq_false hpeaks)

/-- CMD_FM_EVENT queues an event on a listed route; one that wakes a terminal needs the terminal on a running tile, one that engages a cell
the cell and a hold of at most an hour. -/
theorem bodyFmEvent_created {c : Cmd} {d : Dev} (htgt : c.tgt ≤ 8191) (hact : c.u8 0 = 0) (hdir : c.u8 8 ≤ 2) (hkind : c.u8 9 ≤ 2)
    (hroute : mhas d.fm.routes (c.u8 1) = true)
    (hwake : c.u8 9 = 0 → c.u16 10 < d.nTerms ∧ mhas d.terms (c.u16 10) = true ∧ d.tileRun (d.tileOfTerm (c.u16 10)) = true)
    (hcell : c.u8 9 = 1 → c.u16 10 ≤ 16383 ∧ c.u16 12 ≤ 3600 ∧ (d.cellLatest (c.u16 10)).isSome = true) :
    bodyFmEvent c d = Dev.ok { d with fm := { d.fm with evNext := d.fm.evNext ++ [(d.effFrame, c.tgt, some c.fmEvent)] } } := by
  rw [bodyFmEvent, if_neg (by omega), if_neg (by omega), if_neg (by omega), if_neg (by omega), if_neg (by omega)]
  dsimp only
  rw [if_neg, if_neg, if_neg]
  · rfl
  · simp only [Bool.or_eq_true, Bool.and_eq_true, decide_eq_true_eq, hroute, Dev.notRun]
    rintro ((hno | ⟨h, hno⟩) | ⟨h, hno⟩)
    · exact absurd hno (by decide)
    · obtain ⟨_, hterm, hrun⟩ := hwake h
      simp [hterm, hrun] at hno
    · obtain ⟨_, _, hthere⟩ := hcell h
      simp [Option.isNone_iff_eq_none.mp hno] at hthere
  · simp only [Bool.and_eq_true, decide_eq_true_eq]
    rintro ⟨h, hlong⟩
    have := (hcell h).2.1
    split at hlong <;> omega
  · simp only [Bool.or_eq_true, Bool.and_eq_true, decide_eq_true_eq]
    rintro (⟨h, hout⟩ | ⟨h, hout⟩)
    · exact absurd (hwake h).1 (by omega)
    · exact absurd (hcell h).1 (by omega)

/-- CMD_FM_EVENT queues the end of an event that is there once the changes before it have come. -/
theorem bodyFmEvent_deleted {c : Cmd} {d : Dev} (htgt : c.tgt ≤ 8191) (hact : c.u8 0 = 1) (hthere : (d.eventLatest c.tgt).isSome = true) :
    bodyFmEvent c d = Dev.ok { d with fm := { d.fm with evNext := d.fm.evNext ++ [(d.effFrame, c.tgt, none)] } } := by
  rw [bodyFmEvent, if_neg (by omega), if_neg (by omega), if_pos hact, if_neg (by simpa [Option.isSome_iff_ne_none] using hthere)]

/-! ## Train slots and sources (R228, R230, R239) -/

theorem get_train {d : Dev} {t : Nat} (h : mhas d.fm.trains t = true) : mget d.fm.trains t = some (d.fmTrain t) := by
  obtain ⟨x, hx⟩ := get_of_has h
  rw [hx, Dev.fmTrain, mgetD_of_get hx]

section
variable {c : Cmd} {d : Dev} (htgt : c.tgt ≤ 1023) (hrun : d.tileRun (c.tgt % d.nTiles) = true)
include htgt hrun

/-- CMD_FM_TRAIN_BIND binds a free slot to a train that no other slot holds. -/
theorem bodyFmTrainBind_free (hprof : c.u8 3 ≤ 63) (hfree : mget d.fm.trains c.tgt = none)
    (hnew : d.fm.trains.any (fun e => e.2.train = c.u24 0) = false) :
    bodyFmTrainBind c d = Dev.ok (d.setTrain c.tgt { train := c.u24 0, profile := c.u8 3, st := .bound }) := by
  rw [bodyFmTrainBind, if_neg (by omega), if_neg (by omega), if_neg (by simp [Dev.notRun, hrun]), hfree]
  exact if_neg (ne_true_of_eq_false hnew)

/-- CMD_FM_TRAIN_BIND gives a train in its own slot its next profile. -/
theorem bodyFmTrainBind_bound (hprof : c.u8 3 ≤ 63) (hlisted : mhas d.fm.trains c.tgt = true) (hsame : (d.fmTrain c.tgt).train = c.u24 0) :
    bodyFmTrainBind c d = Dev.ok (d.setTrain c.tgt { d.fmTrain c.tgt with profNext := some (c.u8 3) }) := by
  rw [bodyFmTrainBind, if_neg (by omega), if_neg (by omega), if_neg (by simp [Dev.notRun, hrun]), get_train hlisted]
  exact if_neg (not_not_intro hsame)

/-- CMD_FM_TRAIN_CLEAR counts the release of each engaged part, removes the slot and evaluates the contributions again. -/
theorem bodyFmTrainClear_listed {e : Dev} (hlisted : mhas d.fm.trains c.tgt = true)
    (he : (d.fmTrain c.tgt).engaged.foldl (fun d e => d.count .releases (e.1 / 8)) d = e) :
    bodyFmTrainClear c d = Dev.ok (Dev.fmApply { e with fm := { e.fm with trains := mdel e.fm.trains c.tgt } }) := by
  rw [bodyFmTrainClear, if_neg (by omega), if_neg (by simp [Dev.notRun, hrun]), get_train hlisted, ← he]

end

/-- The source of a CMD_FM_SOURCE: the last number accepted of it stays. -/
def Dev.fmSourceBound (d : Dev) (c : Cmd) : FmSource :=
  { mgetD d.fm.sources c.tgt {} with slot := c.u8 0, slotW := (d.pslot (c.u8 0)).wcount, port := c.u16 2, enabled := c.bit 4 0 }

/-- CMD_FM_SOURCE binds a source to a usable slot of kind 3 as it is now written. -/
theorem bodyFmSource_usable {c : Cmd} {d : Dev} (htgt : c.tgt ≤ 63) (hslot : d.slotUsable (c.u8 0) 3 = true) :
    bodyFmSource c d = Dev.ok { d with fm := { d.fm with sources := mput d.fm.sources c.tgt (d.fmSourceBound c) } } := by
  rw [bodyFmSource, if_neg (by omega), slotFor_usable hslot]
  rfl

/-! ## The trains of a cell (R503) -/

/-- Bytes withheld by the clips of a train in a cell. -/
def Dev.clippedIn (d : Dev) (cell trn : Nat) : Nat :=
  ((d.fm.clips.filter (fun y => y.2.1 = trn && y.2.2.1 = cell)).map (fun y => y.2.2.2)).foldl (· + ·) 0

/-- CMD_FM_STATUS of a cell answers how many trains it has and, of the first 400, their flags and clips (Table 15-25). -/
theorem bodyFmStatus_cell {c : Cmd} {d : Dev} (hkind : c.u8 0 = 1) (htgt : c.tgt ≤ 16383) (hlisted : mhas d.fm.cells c.tgt = true) :
    bodyFmStatus c d =
      d.ok (leBytes 1 (b2n (!(d.cellTrains c.tgt).isEmpty)) ++ zeroBytes 1 ++ leBytes 2 (d.cellTrains c.tgt).length
        ++ ((d.cellTrains c.tgt).take 400).flatMap (fun x =>
          leBytes 2 x.1 ++ leBytes 1 (b2n x.2.1 + 2 * b2n x.2.2) ++ zeroBytes 1 ++ leBytes 4 (d.clippedIn c.tgt x.1))) := by
  rw [bodyFmStatus, if_neg (by omega), if_pos hkind, if_neg (by omega), if_neg (by simp [hlisted])]
  rfl

/-! ## The obligation -/

/-- Settles O17: each body past the guards that its clause meets; CMD_FM_POSITION has none. -/
theorem followMeCommandsSetTheCorridor : Obligations.FollowMeCommandsSetTheCorridor := by
  unfold Obligations.FollowMeCommandsSetTheCorridor
  refine ⟨?route, ?cell, ?cellEnd, ?profile, ?bind, ?rebind, ?clear, ?position, ?event, ?eventEnd, ?source, ?status⟩
  case route =>
    refine answers_row _ _ _ _ _ (fun _ _ => rfl) fun c _ _ ⟨htgt, hclear, hact⟩ => ?_
    rcases hact with ⟨hact, hlisted⟩ | ⟨hact, hfew, hlen, hlinks⟩
    · rw [if_pos hact]
      exact bodyFmRoute_removed htgt hclear hact hlisted
    · have hcreate : ¬ c.u8 0 = 1 := by omega
      rw [if_neg hcreate]
      exact bodyFmRoute_listed htgt hclear hact hfew hlen hlinks
  case cell =>
    exact answers_row _ _ _ _ _ (fun _ _ => rfl) fun _ _ _ ⟨htgt, hact, hsome, hfew, hfloor, hord, hroute, hrange, hterms, hroom⟩ =>
      bodyFmCell_created htgt hact hsome hfew hfloor hord hroute hrange hterms hroom
  case cellEnd =>
    exact answers_row _ _ _ _ _ (fun _ _ => rfl) fun _ _ _ ⟨htgt, hact, hthere⟩ => bodyFmCell_deleted htgt hact hthere
  case profile =>
    exact answers_row _ _ _ _ _ (fun _ _ => rfl) fun _ _ _ ⟨htgt, hlo, hhi, hrev, hlead, hfew, hpeaks⟩ =>
      bodyFmProfile_legal htgt hlo hhi hrev hlead hfew hpeaks
  case bind =>
    exact answers_row _ _ _ _ _ (fun _ _ => rfl) fun _ _ _ ⟨htgt, hprof, hrun, hfree, hnew⟩ =>
      bodyFmTrainBind_free htgt hrun hprof hfree hnew
  case rebind =>
    exact answers_row _ _ _ _ _ (fun _ _ => rfl) fun _ _ _ ⟨htgt, hprof, hrun, hlisted, hsame⟩ =>
      bodyFmTrainBind_bound htgt hrun hprof hlisted hsame
  case clear =>
    exact answers_row _ _ _ _ _ (fun _ _ => rfl) fun _ _ _ ⟨htgt, hrun, hlisted⟩ => bodyFmTrainClear_listed htgt hrun hlisted rfl
  case position => exact answers_row _ _ _ _ _ (fun _ _ => rfl) fun _ _ _ _ => rfl
  case event =>
    exact answers_row _ _ _ _ _ (fun _ _ => rfl) fun _ _ _ ⟨htgt, hact, hdir, hkind, hroute, hwake, hcell⟩ =>
      bodyFmEvent_created htgt hact hdir hkind hroute hwake hcell
  case eventEnd =>
    exact answers_row _ _ _ _ _ (fun _ _ => rfl) fun _ _ _ ⟨htgt, hact, hthere⟩ => bodyFmEvent_deleted htgt hact hthere
  case source => exact answers_row _ _ _ _ _ (fun _ _ => rfl) fun _ _ _ ⟨htgt, hslot⟩ => bodyFmSource_usable htgt hslot
  case status =>
    exact answers_row _ _ _ _ _ (fun _ _ => rfl) fun _ _ _ ⟨hkind, htgt, hlisted⟩ => bodyFmStatus_cell hkind htgt hlisted

end Sys2Proof.Machine

/-! PROOFS. Position telegrams, remote and held reports, the publication of bands, stale and lost trains and the ends of their holds (O18). -/

namespace Sys2Proof.Machine

/-! ## Telegrams (R230) -/

/-- The key of a source is in its slot as it was when the source was bound, and the telegram's CMAC is under it. -/
def Dev.telegramVerifies (d : Dev) (s : FmSource) (payload : List Byte) : Bool :=
  ((d.pslot s.slot).kind = 3 && !(d.pslot s.slot).stale && s.slotW = (d.pslot s.slot).wcount && d.cru.ready) && 16 ≤ payload.length
    && payload.drop (payload.length - 16) = cmac (d.pslot s.slot).key (payload.take (payload.length - 16))

/-- Magic, version, count and length of a telegram (Table 9-3). -/
def telegramForm (payload : List Byte) : Bool :=
  natAt payload 0 2 = 0x5F3A && natAt payload 2 1 = 1 && 1 ≤ natAt payload 3 1 && natAt payload 3 1 ≤ 40
    && payload.length = 32 + 32 * natAt payload 3 1

section
variable {d : Dev} {port : Nat} {payload : List Byte} {s : FmSource} (hsource : mget d.fm.sources (natAt payload 4 1) = some s)
  (hon : s.enabled = true) (hport : s.port = port) (hready : d.ready = true) (hmac : d.telegramVerifies s payload = true)
include hsource hon hport hready hmac

/-- A verified telegram whose number is not above the last one accepted is a replay. -/
theorem opPositionTelegramRx_replayed (hseq : s.seq.any (fun q => natAt payload 8 8 ≤ q) = true) :
    d.opPositionTelegramRx port payload = d.count .telegramReplay (natAt payload 4 1) := by
  simp only [Dev.telegramVerifies, Bool.and_eq_true, decide_eq_true_eq] at hmac
  obtain ⟨⟨hkey, hlen⟩, hcmac⟩ := hmac
  rw [Dev.opPositionTelegramRx, hsource]
  dsimp only
  rw [if_neg (by simp [hon, hport, hready]), if_neg (by simp [hkey, hlen, hcmac]), if_pos hseq]

/-- A verified telegram of a fresh number and a right form has its number kept and its records taken in order. -/
theorem opPositionTelegramRx_accepted (hseq : s.seq.any (fun q => natAt payload 8 8 ≤ q) = false) (hform : telegramForm payload = true) :
    d.opPositionTelegramRx port payload =
      (Dev.fmTakeAll { d with fm := { d.fm with sources := mput d.fm.sources (natAt payload 4 1) { s with seq := some (natAt payload 8 8) } } }
        (records payload 16 (natAt payload 3 1)) true).2 := by
  simp only [Dev.telegramVerifies, telegramForm, Bool.and_eq_true, decide_eq_true_eq] at hmac hform
  obtain ⟨⟨hkey, hlen⟩, hcmac⟩ := hmac
  obtain ⟨⟨⟨⟨hmagic, hversion⟩, hsome⟩, hfew⟩, hlong⟩ := hform
  rw [Dev.opPositionTelegramRx, hsource]
  dsimp only
  rw [if_neg (by simp [hon, hport, hready]), if_neg (by simp [hkey, hlen, hcmac]), if_neg (ne_true_of_eq_false hseq),
    if_neg (by simp [hmagic, hversion, hlong]; omega)]

end

/-! ## Remote and held reports (R231, R249) -/

/-- A remote report on a route that is not known is counted and dropped. -/
theorem opRemoteReportRx_offRoute {d : Dev} {record : List Byte} (hready : d.ready = true)
    (hroute : mhas d.fm.routes (reportOf record).route = false) (profile : Nat) :
    d.opRemoteReportRx record profile = (d.count .remoteReceived fmDevice).count .remoteOffroute fmDevice := by
  simp only [Dev.opRemoteReportRx, hready, (count_talks d .remoteReceived fmDevice 1).fm, hroute, Bool.not_true, Bool.not_false, Bool.false_eq_true,
    if_false, if_true]

/-- A remote report of a right place that finds its slot on a running tile goes into the checks that concern it. -/
theorem opRemoteReportRx_slotted {d e : Dev} {record : List Byte} {profile trn : Nat} (hready : d.ready = true)
    (hroute : mhas d.fm.routes (reportOf record).route = true) (hplace : (d.count .remoteReceived fmDevice).fmPlace (reportOf record) = 0)
    (hslot : (d.count .remoteReceived fmDevice).fmSlot (reportOf record).train profile = some (trn, e)) (hrun : e.tileRun (e.fmHome trn) = true) :
    d.opRemoteReportRx record profile = (e.fmProcess trn (reportOf record) true).2 := by
  simp only [Dev.opRemoteReportRx, hready, (count_talks d .remoteReceived fmDevice 1).fm, hroute, hplace, hslot, hrun, ne_eq, not_true_eq_false,
    Bool.not_true, Bool.false_eq_true, if_false]

/-- A held report is processed 10 ms after the last one. -/
theorem opHeldReportRelease_held {d : Dev} {trn : Nat} {r : FmReport} {t : Raw} (hheld : (d.fmTrain trn).held = some r)
    (hlast : (d.fmTrain trn).procAt = some t) (hrun : d.tileRun (d.fmHome trn) = true) :
    d.opHeldReportRelease trn = (d.advanceTo (t + rawMs 10)).fmDue trn := by
  rw [Dev.opHeldReportRelease, hheld, hlast]
  exact if_pos hrun

/-! ## Publication, stale and lost trains (R236, R243, R244) -/

/-- Bands are published at the next whole millisecond of network time. -/
theorem opBandPublish_ready {d : Dev} (hready : d.ready = true) :
    d.opBandPublish = (d.advanceTo (d.rawReach ((d.netU / 65536000000 + 1) * 65536000000))).fmLoad.fmPublishAll :=
  if_neg (by simp [hready])

/-- A train in tracking goes stale, and the host is told. -/
theorem opTrainStale_tracking {d : Dev} {trn : Nat} (hst : (d.fmTrain trn).st = .tracking) (hready : d.ready = true) :
    d.opTrainStale trn =
      ((d.advanceTo ((d.fmTrain trn).lastAt + rawMs d.tStaleMs)).setTrain trn { d.fmTrain trn with st := .stale }).notify 0x8580 trn
        (d.fmTrain trn).note :=
  if_pos (by simp [hst, hready])

theorem banded_iff {x : FmTrain} : x.banded = true ↔ x.st = .tracking ∨ x.st = .stale := by
  simp [FmTrain.banded]

/-- A train once it is lost: it has no band and engages nothing, and its parts are under floor hold. -/
def FmTrain.lostFrom (x : FmTrain) (now : Raw) : FmTrain :=
  { x with
    st := .lost, band := [], engaged := [], pre := [], headPrev := [], fired := [], floor := x.engaged.map (fun e => e.1), lostAt := now, firstRep := true }

/-- A train with a band is lost: its parts are released, `a`, the entries that its floor holds do not find are counted, `b`, and the host is told. -/
theorem opTrainLost_banded {d a b : Dev} {trn : Nat} {x : FmTrain} (hx : d.fmTrain trn = x) (hband : x.banded = true) (hready : d.ready = true)
    (hrun : d.tileRun (d.fmHome trn) = true)
    (ha : (x.engaged.map (fun e => e.1)).foldl (fun d p => d.count .releases (p / 8)) (d.advanceTo (x.lastAt + rawS d.tLostS)) = a)
    (hb : a.floorMissed a.fmHolds (x.engaged.map (fun e => e.1)) = b) :
    d.opTrainLost trn = (((b.setTrain trn (x.lostFrom b.now)).count .trainsLost fmDevice).notify 0x8581 trn x.note).fmApply := by
  subst hx ha hb
  exact if_pos (by simp [hband, hready, hrun])

/-! ## The ends of holds (R244, R246) -/

/-- The floor hold of a lost train ends after its time, where it has one. -/
theorem opFloorHoldEnd_lost {d : Dev} {trn : Nat} (hst : (d.fmTrain trn).st = .lost) (hfloor : (d.fmTrain trn).floor ≠ [])
    (hends : d.lostHoldS ≠ 0) (hready : d.ready = true) :
    d.opFloorHoldEnd trn =
      ((d.advanceTo ((d.fmTrain trn).lostAt + rawS d.lostHoldS)).setTrain trn { d.fmTrain trn with floor := [] }).fmApply :=
  if_pos (by simp [hst, hfloor, hends, hready])

/-- The pre-engaged parts of a cell are released at the instant of the first of them. -/
theorem opPreEngageHoldEnd_engaged {d : Dev} {trn cell : Nat} {p : Nat × Raw} {ps : List (Nat × Raw)}
    (hpre : (d.fmTrain trn).pre.filter (fun e => e.1 / 8 = cell) = p :: ps) (hready : d.ready = true) (hrun : d.tileRun (d.fmHome trn) = true) :
    d.opPreEngageHoldEnd trn cell = ((p :: ps).foldl (fun d e => d.fmRelease trn e.1) (d.advanceTo p.2)).fmApply := by
  rw [Dev.opPreEngageHoldEnd, hpre]
  exact if_pos (by simp [hready, hrun])

/-! ## The obligation -/

/-- Settles O18: each event past the guards on its source, its report or its train. -/
theorem trainsAreFollowedAndLost : Obligations.TrainsAreFollowedAndLost := by
  unfold Obligations.TrainsAreFollowedAndLost
  refine ⟨?telegram, ?replay, ?offRoute, ?remote, ?held, ?publish, ?stale, ?lost, ?floor, ?pre⟩
  case telegram =>
    rintro d port payload s ⟨hsource, hon, hport, hready, hkind, hfresh, hwritten, hcru, hlong, hsome, hfew, hcmac, hseq, hmagic, hversion⟩
    have hmac : d.telegramVerifies s payload = true := by
      have hlen : 16 ≤ payload.length := by omega
      simp [Dev.telegramVerifies, hkind, hfresh, hwritten, hcru, hlen, hcmac]
    have hform : telegramForm payload = true := by simp [telegramForm, hmagic, hversion, hsome, hfew, hlong]
    exact becomes_of (f := fun d => d.opPositionTelegramRx port payload) (fun _ => rfl)
      (opPositionTelegramRx_accepted hsource hon hport hready hmac hseq hform)
  case replay =>
    rintro d port payload s ⟨hsource, hon, hport, hready, hkind, hfresh, hwritten, hcru, hlen, hcmac, hseq⟩
    have hmac : d.telegramVerifies s payload = true := by simp [Dev.telegramVerifies, hkind, hfresh, hwritten, hcru, hlen, hcmac]
    exact becomes_of (f := fun d => d.opPositionTelegramRx port payload) (fun _ => rfl)
      (opPositionTelegramRx_replayed hsource hon hport hready hmac hseq)
  case offRoute =>
    rintro d record profile ⟨hready, hroute⟩
    exact becomes_of (f := fun d => d.opRemoteReportRx record profile) (fun _ => rfl) (opRemoteReportRx_offRoute hready hroute profile)
  case remote =>
    rintro d record profile trn e ⟨hready, hroute, hplace, hslot, hrun⟩
    exact becomes_of (f := fun d => d.opRemoteReportRx record profile) (fun _ => rfl) (opRemoteReportRx_slotted hready hroute hplace hslot hrun)
  case held =>
    rintro d trn r t ⟨hheld, hlast, hrun⟩
    exact becomes_of (f := fun d => d.opHeldReportRelease trn) (fun _ => rfl) (opHeldReportRelease_held hheld hlast hrun)
  case publish =>
    intro d hready
    exact becomes_of (f := fun d => d.opBandPublish) (fun _ => rfl) (opBandPublish_ready hready)
  case stale =>
    rintro d trn ⟨hst, hready⟩
    exact becomes_of (f := fun d => d.opTrainStale trn) (fun _ => rfl) (opTrainStale_tracking hst hready)
  case lost =>
    rintro d trn x a b ⟨hx, hst, hready, hrun, ha, hb⟩
    exact becomes_of (f := fun d => d.opTrainLost trn) (fun _ => rfl)
      (opTrainLost_banded hx.symm (banded_iff.mpr hst) hready hrun ha.symm hb.symm)
  case floor =>
    rintro d trn ⟨hst, hfloor, hends, hready⟩
    exact becomes_of (f := fun d => d.opFloorHoldEnd trn) (fun _ => rfl) (opFloorHoldEnd_lost hst hfloor hends hready)
  case pre =>
    rintro d trn cell p ps ⟨hpre, hready, hrun⟩
    exact becomes_of (f := fun d => d.opPreEngageHoldEnd trn cell) (fun _ => rfl) (opPreEngageHoldEnd_engaged hpre hready hrun)

end Sys2Proof.Machine

/-! PROOFS. The commands of class 0x06: searches, flushes, tables, profiles, lists, groups, sessions and bindings (O19). -/

namespace Sys2Proof.Machine

/-! ## Searches (R281, R282) -/

/-- The cursor with which a search begins. -/
def Dev.searchCursor (d : Dev) (c : Cmd) : Cursor := { table := c.tgt, value := c.bs 0 32, mask := c.bs 32 32, lastAt := d.now }

/-- CMD_TABLE_SEARCH keeps the lowest free cursor where more follow than it answers. -/
theorem bodyTableSearch_free {c : Cmd} {d : Dev} {k : Nat} {ms : List (Nat × TEntry)} {more : Bool} (htab : d.tabNamed c.tgt = true)
    (hfree : lowestFree (d.cursors.map (fun e => e.1)) 0 4 = some k) (hms : d.matches56 (d.searchCursor c) = (ms, more)) :
    bodyTableSearch c d =
      Dev.ok
        (if more then
          { d with cursors := mput d.cursors k { d.searchCursor c with pos := (ms.getLast?.map (fun x => x.1 + 1)).getD 0 } }
        else d) (matchBody k c.tgt ms more) := by
  rw [Dev.searchCursor] at hms
  rw [bodyTableSearch, onTable_named htab]
  dsimp only
  rw [hfree]
  dsimp only
  rw [hms]
  cases ms.getLast? with
  | none => rfl
  | some x => rfl

/-- CMD_TABLE_NEXT frees its cursor where no more follow than it answers. -/
theorem bodyTableNext_open {c : Cmd} {d : Dev} {cur : Cursor} {ms : List (Nat × TEntry)} {more : Bool} (htgt : c.tgt < 4)
    (hopen : mget d.cursors c.tgt = some cur) (htab : d.tabNamed cur.table = true) (hms : d.matches56 cur = (ms, more)) :
    bodyTableNext c d =
      Dev.ok
        { d with
          cursors :=
            if more then mput d.cursors c.tgt { cur with pos := (ms.getLast?.map (fun x => x.1 + 1)).getD cur.pos, lastAt := d.now }
            else mdel d.cursors c.tgt }
        (matchBody c.tgt cur.table ms more) := by
  rw [bodyTableNext, if_neg (by omega), hopen]
  dsimp only
  rw [onTable_named htab, hms]
  cases ms.getLast? with
  | none => rfl
  | some x => rfl

/-! ## Flushes (R276) -/

section
variable {c : Cmd} {d : Dev} (hkind : c.u8 0 ≤ 3) (howner : d.ownerBad (c.u8 0) (c.u16 2) = stOk)
include hkind howner

/-- CMD_TABLE_FLUSH_PORT of one table. -/
theorem bodyTableFlushPort_one (htab : d.tabNamed c.tgt = true) (hone : c.tgt ≠ 0xFFFFFFFF) :
    bodyTableFlushPort c d = (d.flushOwner c.tgt (c.u8 0) (c.u16 2)).accepted stAccepted .flushPort 0 := by
  rw [bodyTableFlushPort, if_neg (by omega), if_neg (not_not_intro howner)]
  exact (if_neg hone).trans (onTable_named htab _)

/-- CMD_TABLE_FLUSH_PORT of every table. -/
theorem bodyTableFlushPort_all (hall : c.tgt = 0xFFFFFFFF) (hrun : d.tables.any (fun e => !d.tabRun e.2) = false) :
    bodyTableFlushPort c d =
      ((d.tables.map (fun e => e.1)).foldl (fun d t => d.flushOwner t (c.u8 0) (c.u16 2)) d).accepted stAccepted .flushPort 0 := by
  rw [bodyTableFlushPort, if_neg (by omega), if_neg (not_not_intro howner)]
  exact (if_pos hall).trans (if_neg (ne_true_of_eq_false hrun))

end

/-! ## Tables (R264, R281) -/

/-- The table that a CMD_TABLE_CONFIG describes, with the seed as given. -/
def Dev.tableMade (d : Dev) (c : Cmd) : Table :=
  { tiles := c.u8 1, n := c.u8 2, seed := BitVec.ofNat 32 (c.u32 4), owner := c.u16 8, sweepAt := d.now,
    cfg := BitVec.ofNat 32 (d.reg (0x600 + 4 * c.tgt)) }

/-- CMD_TABLE_CONFIG creates a table on running tiles that have the buckets free; a seed of 0 is replaced by a drawn one. -/
theorem bodyTableConfig_create {c : Cmd} {d : Dev} (htgt : c.tgt < 64) (hact : c.u8 0 = 0) (hset : c.u8 1 ≠ 0) (htiles : c.u8 1 < 2 ^ d.nTiles)
    (hlo : 4 ≤ c.u8 2) (hhi : c.u8 2 ≤ 16) (howner : c.u16 8 ≤ 255 ∨ c.u16 8 = 0xFFFF) (hnew : mhas d.tables c.tgt = false)
    (hrun : d.tabRun (d.tableMade c) = true) (hfree : (d.tableMade c).tileList.any (fun i => d.bucketsFree i < (d.tableMade c).buckets) = false) :
    bodyTableConfig c d =
      Dev.ok
        (if c.u32 4 = 0 then
          { d.fresh.2 with
            tables := mput d.tables c.tgt { d.tableMade c with seed := BitVec.ofNat 32 (Config.freeNat d.freeCtr) } }
        else { d with tables := mput d.tables c.tgt (d.tableMade c) }) := by
  rw [Dev.tableMade] at hrun hfree
  rw [bodyTableConfig]
  dsimp only
  rw [if_neg (by omega), if_neg (by omega), if_neg (by omega), if_neg (by omega),
    if_neg (by simp only [Bool.or_eq_true, decide_eq_true_eq]; omega), if_neg (by simp only [Bool.or_eq_true, decide_eq_true_eq]; omega),
    if_neg (by simp only [Bool.and_eq_true, decide_eq_true_eq]; omega), if_neg (by simp [hnew, hrun]), if_neg (ne_true_of_eq_false hfree)]
  split
  · rfl
  · rfl

theorem tabNamed_lt {d : Dev} {t : Nat} (h : d.tabNamed t = true) : t < 64 := by
  simp only [Dev.tabNamed, Bool.and_eq_true, decide_eq_true_eq] at h
  obtain ⟨⟨hlt, _⟩, _⟩ := h
  exact hlt

section
variable {c : Cmd} {d : Dev} (htab : d.tabNamed c.tgt = true)
include htab

/-- CMD_TABLE_CONFIG sets the age of a table. -/
theorem bodyTableConfig_age (hact : c.u8 0 = 1) : bodyTableConfig c d = Dev.ok (d.setAge c.tgt (c.u32 12)) := by
  have hlt := tabNamed_lt htab
  rw [bodyTableConfig, if_neg (by omega), if_neg (by omega), if_pos hact, onTable_named htab]

/-- CMD_TABLE_CONFIG destroys a table that no profile uses, with its cursors, overflow entries and waiting learns. -/
theorem bodyTableConfig_destroy (hact : c.u8 0 = 2) (hunused : d.profiles.any (fun e => e.2.table = c.tgt) = false) :
    bodyTableConfig c d =
      Dev.ok
        { d with
          tables := mdel d.tables c.tgt, cursors := d.cursors.filter (fun e => e.2.table ≠ c.tgt),
          cls :=
            d.cls.map (fun (k, x) => (k,
              { x with overflow := x.overflow.filter (fun e => e.2.1 ≠ c.tgt), learns := x.learns.filter (fun l => l.table ≠ c.tgt) })) } := by
  have hlt := tabNamed_lt htab
  rw [bodyTableConfig, if_neg (by omega), if_neg (by omega), if_neg (by omega), if_pos hact, onTable_named htab]
  exact if_neg (ne_true_of_eq_false hunused)

end

/-! ## Profiles and lookup lists (R255, R256) -/

/-- The key profile that a command describes. -/
def Cmd.keyProfile (c : Cmd) : KeyProfile :=
  { table := c.u8 0,
    exts := (List.range (c.u8 1)).map (fun i => extOf (c.u8 (4 + 4 * i)) (c.u8 (5 + 4 * i)) (c.u8 (6 + 4 * i)) (c.u8 (7 + 4 * i))),
    learn := c.bit (4 + 4 * c.u8 1) 0, tmpl := c.bs (8 + 4 * c.u8 1) 24 }

/-- CMD_KEY_PROFILE lists a profile of at most 16 extractors that fit, with a legal template where it learns. -/
theorem bodyKeyProfile_legal {c : Cmd} {d : Dev} (htgt : c.tgt < 64) (hfew : c.u8 1 ≤ 16) (hexts : extsOk c.keyProfile.exts = true)
    (htmpl : c.keyProfile.learn = true → d.actBad c.keyProfile.tmpl true = stOk) (htab : d.tabNamed (c.u8 0) = true) :
    bodyKeyProfile c d = Dev.ok { d with profiles := mput d.profiles c.tgt c.keyProfile } := by
  rw [Cmd.keyProfile] at hexts htmpl
  have hlt := tabNamed_lt htab
  rw [bodyKeyProfile]
  dsimp only
  rw [if_neg (by omega), if_neg (by omega), if_neg (by omega), if_neg (by simp [hexts]),
    if_neg (by simp only [Bool.and_eq_true, decide_eq_true_eq]; exact fun ⟨hlearn, hbad⟩ => hbad (htmpl hlearn))]
  exact onTable_named htab _

/-- The profiles that a lookup list names. -/
def Cmd.listProfiles (c : Cmd) : List Nat := (List.range (c.u8 0)).map (fun i => c.u8 (1 + i))

/-- CMD_LOOKUP_LIST lists 1 to 8 profiles that are there, with a legal default action. -/
theorem bodyLookupList_legal {c : Cmd} {d : Dev} (htgt : c.tgt < 256) (hsome : 1 ≤ c.u8 0) (hfew : c.u8 0 ≤ 8)
    (hrange : c.listProfiles.any (fun p => 64 ≤ p) = false) (hdflt : d.actBad (c.bs 12 24) = stOk)
    (hthere : c.listProfiles.any (fun p => !mhas d.profiles p) = false) :
    bodyLookupList c d = Dev.ok { d with lookups := mput d.lookups c.tgt { profiles := c.listProfiles, dflt := c.bs 12 24 } } := by
  rw [bodyLookupList, if_neg (by omega), if_neg (by simp only [Bool.or_eq_true, decide_eq_true_eq]; omega)]
  exact (if_neg (ne_true_of_eq_false hrange)).trans ((if_neg (not_not_intro hdflt)).trans (if_neg (ne_true_of_eq_false hthere)))

/-! ## Spread groups and mirror sessions (R263, R277) -/

/-- The members and the indirection table of the spread group that a command describes. -/
def Cmd.spreadMembers (c : Cmd) : List (Nat × Nat) := (List.range (c.u8 0)).map (fun i => (c.u8 (2 + 2 * i), c.u8 (3 + 2 * i)))
def Cmd.spreadIndir (c : Cmd) : List Nat := (c.bs (pad4 (2 + 2 * c.u8 0)) 512).map (fun b => b.toNat)

/-- Its field set. -/
def Cmd.spreadFields (c : Cmd) : Nat := c.u16 (pad4 (2 + 2 * c.u8 0) + 512)

/-- The group with a live table. -/
def Cmd.spreadGroup (c : Cmd) (live : List Nat) : SpreadGroup :=
  { members := c.spreadMembers, indir := c.spreadIndir, live := live, fields := c.spreadFields, key := c.bs (pad4 (2 + 2 * c.u8 0) + 514) 40 }

/-- Whether a member's handle lies outside the range of its kind. -/
def Dev.memberOut (d : Dev) (x : Nat × Nat) : Bool :=
  if x.1 = 0 then d.nSubs ≤ x.2 else match memberTile x.2 with
    | none => 15 < x.2
    | some t => d.nTiles ≤ t

/-- Whether a member lies on a tile that is not in RUN. -/
def Dev.memberHalted (d : Dev) (x : Nat × Nat) : Bool := if x.1 = 0 then d.notRun (tileOfSub x.2) else (memberTile x.2).any d.notRun

/-- Bytes that a field set selects. -/
def spreadKeyLen (fields : Nat) : Nat := ((spreadLens.zipIdx).map (fun (l, i) => if fields.testBit i then l else 0)).foldl (· + ·) 0

/-- CMD_SPREAD_GROUP lists a group of 1 to 64 members on running tiles, pointed at those that are up. -/
theorem bodySpreadGroup_legal {c : Cmd} {d : Dev} (htgt : c.tgt < 128) (hsome : 1 ≤ c.u8 0) (hfew : c.u8 0 ≤ 64)
    (hkinds : c.spreadMembers.any (fun x => 1 < x.1) = false) (hrange : c.spreadMembers.any d.memberOut = false)
    (hrun : c.spreadMembers.any d.memberHalted = false) (hindir : c.spreadIndir.any (fun i => c.u8 0 ≤ i) = false)
    (hlen : spreadKeyLen c.spreadFields ≤ 36) :
    bodySpreadGroup c d = Dev.ok { d with spreads := mput d.spreads c.tgt (c.spreadGroup (d.liveTable (c.spreadGroup []))) } := by
  rw [bodySpreadGroup, if_neg (by omega), if_neg (by simp only [Bool.or_eq_true, decide_eq_true_eq]; omega)]
  refine (if_neg (ne_true_of_eq_false hkinds)).trans ?_
  refine (if_neg (ne_true_of_eq_false hrange)).trans ?_
  refine (if_neg (ne_true_of_eq_false hindir)).trans ?_
  refine (if_neg (Nat.not_lt.2 hlen)).trans ?_
  refine (if_neg (ne_true_of_eq_false hrun)).trans ?_
  simp only [Cmd.spreadGroup, Cmd.spreadMembers, Cmd.spreadIndir, Cmd.spreadFields]

/-- CMD_MIRROR_SESSION lists a session to a queue, an uplink or an exception queue that exists. -/
theorem bodyMirrorSession_legal {c : Cmd} {d : Dev} (hlo : 1 ≤ c.tgt) (hhi : c.tgt ≤ 15) (hkind : c.u8 0 = 0 ∨ c.u8 0 = 2 ∨ c.u8 0 = 6)
    (hrange : d.fwdOut (c.u8 0) (c.u32 4) = false) (hrun : (d.fwdTile (c.u8 0) (c.u32 4)).any d.notRun = false)
    (htrunc : c.u16 8 = 0 ∨ 64 ≤ c.u16 8 ∧ c.u16 8 ≤ 16000) :
    bodyMirrorSession c d = Dev.ok { d with mirrors := mput d.mirrors c.tgt { kind := c.u8 0, target := c.u32 4, trunc := c.u16 8 } } := by
  rw [bodyMirrorSession, if_neg (by simp only [Bool.or_eq_true, decide_eq_true_eq]; omega),
    if_neg (by simp only [Bool.and_eq_true, decide_eq_true_eq]; omega), if_neg (ne_true_of_eq_false hrange), if_neg (ne_true_of_eq_false hrun),
    if_neg (by simp only [Bool.and_eq_true, Bool.or_eq_true, decide_eq_true_eq]; omega)]

/-! ## Bindings of ingress ports (R254) -/

section
variable {c : Cmd} {d : Dev} (hmirror : c.u8 2 ≤ 15) (hlist : mhas d.lookups (c.u8 1) = true)
include hmirror hlist

/-- CMD_CLS_PORT binds a list, a mirror session and a domain to a sub-port. -/
theorem bodyClsPort_sub (hkind : c.u8 0 = 0) (hin : c.tgt < d.nSubs) (hrun : d.tileRun (tileOfSub c.tgt) = true) :
    bodyClsPort c d = Dev.ok { d with binds := mput d.binds c.tgt { lookup := some (c.u8 1), mirror := c.u8 2, sdom := c.u8 3 } } := by
  rw [bodyClsPort, if_neg (by omega), if_neg (by omega), if_pos hkind, onSub_running hin hrun, if_neg (by simp [hlist])]

/-- CMD_CLS_PORT binds a list and a mirror session to a channel. -/
theorem bodyClsPort_chan (hkind : c.u8 0 = 1) (hch : d.chanOk c.tgt = true) (hrun : d.tileRun (tileOfChan c.tgt) = true) :
    bodyClsPort c d = Dev.ok (d.updChan c.tgt (fun x => { x with lookup := some (c.u8 1), mirror := c.u8 2 })) := by
  rw [bodyClsPort, if_neg (by omega), if_neg (by omega), if_neg (by omega), onChan_running hch hrun, if_neg (by simp [hlist])]

end

/-! ## The obligation -/

/-- Settles O19: each body past the guards that its clause meets; the record commands by `records_all`. -/
theorem tableCommandsActOnTables : Obligations.TableCommandsActOnTables := by
  unfold Obligations.TableCommandsActOnTables
  refine ⟨?insert, ?delete, ?lookup, ?search, ?next, ?flushOne, ?flushAll, ?create, ?age, ?destroy, ?status, ?profile, ?list, ?spread, ?mirror,
    ?bind⟩
  case insert => exact answers_row _ _ _ _ _ (fun _ _ => rfl) fun _ _ _ ⟨htab, hrecs⟩ => records_all htab hrecs
  case delete => exact answers_row _ _ _ _ _ (fun _ _ => rfl) fun _ _ _ ⟨htab, hrecs⟩ => records_all htab hrecs
  case lookup => exact answers_row _ _ _ _ _ (fun _ _ => rfl) fun _ _ _ ⟨htab, hrecs⟩ => records_all htab hrecs
  case search =>
    refine answers_row _ _ _ _ _ (fun _ _ => rfl) fun c d _ ⟨htab, hfree⟩ => ?_
    obtain ⟨k, hk⟩ := Option.isSome_iff_exists.1 hfree
    rw [hk]
    exact bodyTableSearch_free htab hk rfl
  case next =>
    refine answers_row _ _ _ _ _ (fun _ _ => rfl) fun c d _ ⟨htgt, hopen, htab⟩ => ?_
    obtain ⟨cur, hcur⟩ := get_of_has hopen
    rw [mgetD_of_get hcur] at htab ⊢
    exact bodyTableNext_open htgt hcur htab rfl
  case flushOne =>
    exact starts_row _ _ _ _ _ _ _ (fun _ _ => rfl) fun _ _ _ ⟨htab, hone, hkind, howner⟩ => bodyTableFlushPort_one hkind howner htab hone
  case flushAll =>
    exact starts_row _ _ _ _ _ _ _ (fun _ _ => rfl) fun _ _ _ ⟨hall, hkind, howner, hrun⟩ => bodyTableFlushPort_all hkind howner hall hrun
  case create =>
    refine answers_row _ _ _ _ _ (fun _ _ => rfl) fun _ _ _ ⟨htgt, hact, hset, htiles, hlo, hhi, howner, hnew, hrun, hfree⟩ => ?_
    exact bodyTableConfig_create htgt hact hset htiles hlo hhi howner hnew hrun hfree
  case age => exact answers_row _ _ _ _ _ (fun _ _ => rfl) fun _ _ _ ⟨htab, hact⟩ => bodyTableConfig_age htab hact
  case destroy =>
    exact answers_row _ _ _ _ _ (fun _ _ => rfl) fun _ _ _ ⟨htab, hact, hunused⟩ => bodyTableConfig_destroy htab hact hunused
  case status => exact answers_row _ _ _ _ _ (fun _ _ => rfl) fun _ _ _ htab => onTable_named htab _
  case profile =>
    exact answers_row _ _ _ _ _ (fun _ _ => rfl) fun _ _ _ ⟨htgt, hfew, hexts, htmpl, htab⟩ =>
      bodyKeyProfile_legal htgt hfew hexts htmpl htab
  case list =>
    exact answers_row _ _ _ _ _ (fun _ _ => rfl) fun _ _ _ ⟨htgt, hsome, hfew, hrange, hdflt, hthere⟩ =>
      bodyLookupList_legal htgt hsome hfew hrange hdflt hthere
  case spread =>
    exact answers_row _ _ _ _ _ (fun _ _ => rfl) fun _ _ _ ⟨htgt, hsome, hfew, hkinds, hrange, hrun, hindir, hlen⟩ =>
      bodySpreadGroup_legal htgt hsome hfew hkinds hrange hrun hindir hlen
  case mirror =>
    exact answers_row _ _ _ _ _ (fun _ _ => rfl) fun _ _ _ ⟨hlo, hhi, hkind, hrange, hrun, htrunc⟩ =>
      bodyMirrorSession_legal hlo hhi hkind hrange hrun htrunc
  case bind =>
    refine answers_row _ _ _ _ _ (fun _ _ => rfl) fun c d _ ⟨hkind, hmirror, hlist, hsub, hchan⟩ => ?_
    split
    · next hzero =>
      obtain ⟨hin, hrun⟩ := hsub hzero
      exact bodyClsPort_sub hmirror hlist hzero hin hrun
    · next hnonzero =>
      have hone : c.u8 0 = 1 := by omega
      obtain ⟨hch, hrun⟩ := hchan hone
      exact bodyClsPort_chan hmirror hlist hone hch hrun

end Sys2Proof.Machine

/-! PROOFS. The table-access window, learns, updates of other tiles, ageing, cursors and lines (O20). -/

namespace Sys2Proof.Machine

theorem get_tab {d : Dev} {t : Nat} (h : mhas d.tables t = true) : mget d.tables t = some (d.tab t) := by
  obtain ⟨x, hx⟩ := get_of_has h
  rw [hx, Dev.tab, mgetD_of_get hx]

/-! ## The table-access window (R283) -/

/-- The window as an operation finds it: its flags are clear. -/
def Dev.tacFresh (d : Dev) : Tac := { d.tac with found := false, replaced := false, evicted := false, result := stOk }

section
variable {d : Dev} {table : Nat} (hvar : d.variant ≠ .thz8) (hready : d.ready = true)
include hvar hready

/-- Any operation on a busy window sets the collision flag only. -/
theorem tacGo_busy (hbusy : d.tac.busy = true) (f : Dev → Table → Tac → Tac × Dev) :
    d.tacGo table f = { d with tac := { d.tac with collision := true } } := by
  rw [Dev.tacGo, if_neg (by simp [hvar, hready]), if_pos hbusy]

section
variable (hidle : d.tac.busy = false) (htab : mhas d.tables table = true) (hrun : d.tabRun (d.tab table) = true)
include hidle htab hrun

/-- An operation on an idle window starts it busy: what its function answers is shown when it is done. -/
theorem tacGo_idle (f : Dev → Table → Tac → Tac × Dev) :
    d.tacGo table f =
      { (f d (d.tab table) d.tacFresh).2 with
        tac := { (f d (d.tab table) d.tacFresh).2.tac with busy := true }, tacDone := (f d (d.tab table) d.tacFresh).1 } := by
  rw [Dev.tacGo, if_neg (by simp [hvar, hready]), if_neg (ne_true_of_eq_false hidle), get_tab htab]
  simp only [hrun, Bool.not_true, Bool.false_eq_true, if_false]
  rfl

/-- DELETE of a key that some copy of the table holds. -/
theorem opDelete_held {e : TEntry} (hheld : d.tabAny table (d.tab table) d.tac.key = some e) :
    d.opDelete table =
      { (d.tabDel table d.tac.key).hostChange table d.tac.key with
        tac := { d.tac with busy := true }, tacDone := { d.tacFresh with found := true } } := by
  have hkey : d.tabAny table (d.tab table) d.tacFresh.key = some e := hheld
  rw [Dev.opDelete, tacGo_idle hvar hready hidle htab hrun, hkey]
  rfl

/-- LOOKUP of a key that its home tile holds. -/
theorem opLookup_held {e : TEntry} (hheld : d.tabHome table (d.tab table) d.tac.key = some e) :
    d.opLookup table =
      { d with
        tac := { d.tac with busy := true },
        tacDone :=
          { d.tacFresh with
            found := true, act := e.act, metad := e.metaBytes table, index := BitVec.ofNat 32 (d.tabIndex table d.tac.key) } } := by
  have hkey : d.tabHome table (d.tab table) d.tacFresh.key = some e := hheld
  rw [Dev.opLookup, tacGo_idle hvar hready hidle htab hrun, hkey]
  rfl

section
variable {e : TEntry} (hslot : d.tacSlot table (d.tab table) d.tac = some e)
include hslot

/-- READ_INDEX of a slot that is not empty. -/
theorem opReadIndex_filled :
    d.opReadIndex table =
      { d with
        tac := { d.tac with busy := true },
        tacDone := { d.tacFresh with found := true, key := e.key, act := e.act, metad := e.metaBytes table } } := by
  have hindex : d.tacSlot table (d.tab table) d.tacFresh = some e := hslot
  rw [Dev.opReadIndex, tacGo_idle hvar hready hidle htab hrun, hindex]

/-- WRITE_INDEX of a slot that is not empty writes the window's entry under the key that stands there. -/
theorem opWriteIndex_filled :
    d.opWriteIndex table =
      { (d.tacPut table e.key true false d.tacFresh).2 with
        tac := { (d.tacPut table e.key true false d.tacFresh).2.tac with busy := true },
        tacDone := (d.tacPut table e.key true false d.tacFresh).1 } := by
  have hindex : d.tacSlot table (d.tab table) d.tacFresh = some e := hslot
  rw [Dev.opWriteIndex, tacGo_idle hvar hready hidle htab hrun, hindex]

end

end

end

/-! ## Learns and updates of other tiles (R270, R274, R275) -/

/-- The entry that a learn inserts. -/
def Learn.entry (l : Learn) : TEntry := { key := l.key, act := l.act, learned := true, okind := l.okind, owner := l.owner, seq := l.atT }

/-- The oldest learn of a running tile leaves its queue, `e`, and is inserted where no change of the host and no entry stands against it. -/
theorem opLearnApply_free {d e : Dev} {tile : Nat} {l : Learn} {ls : List Learn} (hlearn : (d.clsTile tile).learns = l :: ls)
    (hrun : d.tileRun tile = true) (he : e = d.updCls tile (fun c => { c with learns := ls })) (htab : mhas e.tables l.table = true)
    (hhost : (e.tab l.table).hostKeys.any (fun x => x.1 = l.key && x.2 = e.frame) = false)
    (hfree : (e.tabAny l.table (e.tab l.table) l.key).any (fun x => e.learnStands (e.tab l.table) x l.atT tile) = false) :
    d.opLearnApply tile =
      match e.tabInsert l.table l.entry false with
      | (.failed, e) => e.count .learnDrop l.table
      | (_, e) => e.count .learned l.table := by
  subst he
  rw [Dev.opLearnApply, hlearn]
  dsimp only
  rw [if_neg (by simp [hrun]), get_tab htab]
  exact if_neg (by simp only [hhost, hfree]; decide)

/-- The entry that an update of another tile brings. -/
def updateEntry (u : TableUpdate) : TEntry :=
  { key := u.key, act := u.act, learned := true, okind := u.okind, owner := u.owner, seq := u.stamp }

/-- An update that reaches a running tile of the table's set is inserted where no entry stands against it. -/
theorem opTableUpdateRx_free {d : Dev} {tile : Nat} {u : TableUpdate} (htab : mhas d.tables u.table = true) (hrun : d.tileRun tile = true)
    (hset : (d.tab u.table).tiles.testBit tile = true)
    (hfree : (d.tabAny u.table (d.tab u.table) u.key).any (fun x => d.learnStands (d.tab u.table) x u.stamp u.tileFrom) = false) :
    d.opTableUpdateRx tile u = (d.tabInsert u.table (updateEntry u) false).2 := by
  rw [Dev.opTableUpdateRx, get_tab htab]
  dsimp only
  rw [if_neg (by simp [hrun, hset])]
  exact if_neg (ne_true_of_eq_false hfree)

/-! ## Ageing and cursors (R269, R272, R282) -/

/-- A table at the end of a tick of the device as it then is: its epoch moves on and it takes the age written. -/
def Table.ticked (t : Table) (a : Dev) (table : Nat) : Table :=
  { t with epoch := (t.epoch + 1) % 256, sweepAt := a.now, cfg := BitVec.ofNat 32 (a.reg (0x600 + 4 * table)) }

/-- How many entries of a table are too old. -/
def Dev.oldCount (d : Dev) (table : Nat) (t : Table) : Nat :=
  (t.slots.filter (fun s => d.tooOld t s.2)).length + ((d.ovfEntries table t).filter (fun x => d.tooOld t x)).length

/-- The device with the entries of a table that are too old removed, from the slots and from the overflow stores. -/
def Dev.sweptOf (d : Dev) (table : Nat) (t : Table) : Dev :=
  { d with
    tables := mput d.tables table { t with slots := t.slots.filter (fun s => !d.tooOld t s.2) },
    cls := d.cls.map (fun (k, c) => (k, { c with overflow := c.overflow.filter (fun e => !(e.2.1 = table && d.tooOld t e.2.2)) })) }

/-- A sweep of a table that ages runs at the end of the tick: what is too old is removed and counted, then overflow entries come back. -/
theorem opAgeingSweep_ageing {d a : Dev} {table : Nat} {t : Table} (htab : mhas d.tables table = true) (htick : d.ageTickMs table ≠ 0)
    (hready : d.ready = true) (ha : a = d.advanceTo ((d.tab table).sweepAt + rawMs (d.ageTickMs table)))
    (ht : t = (d.tab table).ticked a table) :
    d.opAgeingSweep table =
      (if a.oldCount table t = 0 then a.sweptOf table t else (a.sweptOf table t).count .aged table (a.oldCount table t)).ovfReturn table := by
  subst ht ha
  rw [Dev.opAgeingSweep, get_tab htab]
  exact if_neg (by simp [htick, hready])

/-- A cursor that is open is freed 10 s after its last use. -/
theorem opCursorTimeout_open {d : Dev} {cursor : Nat} (hopen : mhas d.cursors cursor = true) :
    d.opCursorTimeout cursor =
      let e := d.advanceTo ((mgetD d.cursors cursor {}).lastAt + rawS 10)
      { e with cursors := mdel e.cursors cursor } := by
  obtain ⟨x, hx⟩ := get_of_has hopen
  rw [Dev.opCursorTimeout, hx, mgetD_of_get hx]

/-! ## Lines of sub-ports (R276, R278) -/

/-- A line that was up goes down: the spread groups are repointed, then the tables that ask for it are flushed. -/
theorem opSubportDown_up {d : Dev} {sub : Nat} (hin : sub < d.nSubs) (hup : (d.sub sub).up = true) :
    d.opSubportDown sub =
      (d.tables.map (fun e => e.1)).foldl (fun d t => if d.flushOnDown t then d.flushOwner t 2 sub else d)
        (d.updSub sub (fun x => { x with up := false })).respread := by
  rw [Dev.opSubportDown, if_pos hin, Dev.subDown, if_neg (by simp [hup])]
  rfl

/-- The line of an enabled sub-port on a running tile comes up. -/
theorem opSubportUp_enabled {d : Dev} {sub : Nat} (hin : sub < d.nSubs) (hon : (d.sub sub).enabled = true)
    (hrun : d.tileRun (tileOfSub sub) = true) : d.opSubportUp sub = (d.updSub sub (fun x => { x with up := true })).respread :=
  if_pos (by simp [hin, hon, hrun])

/-! ## The obligation -/

/-- Settles O20: a window operation by the entry that it finds, the other events past the guards that their clauses meet. -/
theorem tablesAreAccessedLearnedAndAged : Obligations.TablesAreAccessedLearnedAndAged := by
  unfold Obligations.TablesAreAccessedLearnedAndAged
  refine ⟨?insert, ?busy, ?delete, ?lookup, ?read, ?write, ?done, ?learn, ?update, ?sweep, ?cursor, ?flush, ?down, ?up⟩
  case insert =>
    rintro d table noEvict ⟨hvar, hready, hidle, htab, hrun⟩
    exact becomes_of (f := fun d => d.opInsert table noEvict) (fun _ => rfl) (tacGo_idle hvar hready hidle htab hrun _)
  case busy =>
    rintro d table noEvict ⟨hvar, hready, hbusy⟩
    exact becomes_of (f := fun d => d.opInsert table noEvict) (fun _ => rfl) (tacGo_busy hvar hready hbusy _)
  case delete =>
    rintro d table e ⟨hvar, hready, hidle, htab, hrun, hheld⟩
    exact becomes_of (f := fun d => d.opDelete table) (fun _ => rfl) (opDelete_held hvar hready hidle htab hrun hheld)
  case lookup =>
    rintro d table e ⟨hvar, hready, hidle, htab, hrun, hheld⟩
    exact becomes_of (f := fun d => d.opLookup table) (fun _ => rfl) (opLookup_held hvar hready hidle htab hrun hheld)
  case read =>
    rintro d table e ⟨hvar, hready, hidle, htab, hrun, hslot⟩
    exact becomes_of (f := fun d => d.opReadIndex table) (fun _ => rfl) (opReadIndex_filled hvar hready hidle htab hrun hslot)
  case write =>
    rintro d table e ⟨hvar, hready, hidle, htab, hrun, hslot⟩
    exact becomes_of (f := fun d => d.opWriteIndex table) (fun _ => rfl) (opWriteIndex_filled hvar hready hidle htab hrun hslot)
  case done =>
    intro d hbusy
    exact becomes_of (f := fun d => d.opTacOpDone) (fun _ => rfl) (if_pos hbusy)
  case learn =>
    rintro d tile l ls e ⟨hlearn, hrun, he, htab, hhost, hfree⟩
    exact becomes_of (f := fun d => d.opLearnApply tile) (fun _ => rfl) (opLearnApply_free hlearn hrun he htab hhost hfree)
  case update =>
    rintro d tile u ⟨htab, hrun, hset, hfree⟩
    exact becomes_of (f := fun d => d.opTableUpdateRx tile u) (fun _ => rfl) (opTableUpdateRx_free htab hrun hset hfree)
  case sweep =>
    rintro d table a t _ ⟨htab, htick, hready, ha, ht, rfl⟩
    exact becomes_of (f := fun d => d.opAgeingSweep table) (fun _ => rfl) (opAgeingSweep_ageing htab htick hready ha ht)
  case cursor =>
    intro d cursor hopen
    exact becomes_of (f := fun d => d.opCursorTimeout cursor) (fun _ => rfl) (opCursorTimeout_open hopen)
  case flush =>
    intro d
    exact becomes_of (f := fun d => d.opFlushPortDone) (fun _ => rfl) rfl
  case down =>
    rintro d sub ⟨hin, hup⟩
    exact becomes_of (f := fun d => d.opSubportDown sub) (fun _ => rfl) (opSubportDown_up hin hup)
  case up =>
    rintro d sub ⟨hin, hon, hrun⟩
    exact becomes_of (f := fun d => d.opSubportUp sub) (fun _ => rfl) (opSubportUp_enabled hin hon hrun)

end Sys2Proof.Machine

/-! PROOFS. The passes of a frame through the classifier (O21). -/

namespace Sys2Proof.Machine

/-! ## Frames of a sub-port (R252, R254, R257) -/

section
variable {d : Dev} {g : Ingress} (hsub : g.channel = false) (hin : g.handle < d.nSubs) (hon : (d.sub g.handle).enabled = true)
  (hrun : d.tileRun (tileOfSub g.handle) = true)
include hsub hin hon hrun

/-- A frame of an enabled sub-port has its parse flags counted, then makes one pass through the list that is bound, if one is. -/
theorem opFrameClassify_sub (frame : List Byte) :
    d.opFrameClassify g frame =
      let e := d.parseCounts (tileOfSub g.handle) (d.parse frame)
      match (mgetD d.binds g.handle {}).lookup with
      | none => e.count .noForward (tileOfSub g.handle)
      | some l =>
        e.pass
          { tile := tileOfSub g.handle, pipe := g.pipe % 2, handle := g.handle, gem := g.gem, tid := g.tid, aid := g.aid,
            sdom := (mgetD d.binds g.handle {}).sdom } l frame none (mgetD d.binds g.handle {}).mirror := by
  obtain ⟨pipe, channel, handle, gem, tid, aid⟩ := g
  subst hsub
  exact if_neg (by simp [hin, hon, hrun])

end

/-! ## Second passes (R259) -/

/-- The frame that waits, as its second pass knows it. -/
def Waiting.ctx (w : Waiting) (tile pipe : Nat) : Ctx :=
  { tile := tile, pipe := pipe, channel := w.ingKind = 1, handle := w.ing, gem := w.gem, tid := w.tid, aid := w.aid, sdom := w.sdom, second := true,
    hits := w.hits }

section
variable {d : Dev} {tile pipe : Nat} {w : Waiting} {ws : List Waiting} (hrun : d.tileRun tile = true)
include hrun

/-- The oldest frame that waits in the even pipe leaves it. -/
theorem opSecondPass_even (hpipe : pipe % 2 = 0) (hwait : (d.clsTile tile).recirc0 = w :: ws) :
    d.opSecondPass tile pipe =
      ((d.updCls tile (fun c => { c with recirc0 := ws })).count .recirc tile).pass (w.ctx tile 0) w.list w.frame (some w.acts) 0 := by
  simp only [Dev.opSecondPass, hpipe, hwait, hrun, if_true, Bool.not_true, Bool.false_eq_true, if_false]
  rfl

/-- The oldest frame that waits in the odd pipe leaves it. -/
theorem opSecondPass_odd (hpipe : pipe % 2 = 1) (hwait : (d.clsTile tile).recirc1 = w :: ws) :
    d.opSecondPass tile pipe =
      ((d.updCls tile (fun c => { c with recirc1 := ws })).count .recirc tile).pass (w.ctx tile 1) w.list w.frame (some w.acts) 0 := by
  simp only [Dev.opSecondPass, hpipe, hwait, hrun, Nat.one_ne_zero, Bool.not_true, Bool.false_eq_true, if_false]
  rfl

end

/-! ## The obligation -/

/-- Settles O21: a frame that enters by the list bound to its sub-port, a frame that waits by the pipe in which it does. -/
theorem framesAreClassified : Obligations.FramesAreClassified := by
  unfold Obligations.FramesAreClassified
  refine ⟨?bound, ?unbound, ?even, ?odd⟩
  case bound =>
    rintro d g frame l ⟨hsub, hin, hon, hrun, hlist⟩
    refine becomes_of (f := fun d => d.opFrameClassify g frame) (fun _ => rfl) ?_
    rw [opFrameClassify_sub hsub hin hon hrun, hlist]
  case unbound =>
    rintro d g frame ⟨hsub, hin, hon, hrun, hlist⟩
    refine becomes_of (f := fun d => d.opFrameClassify g frame) (fun _ => rfl) ?_
    rw [opFrameClassify_sub hsub hin hon hrun, hlist]
  case even =>
    rintro d tile pipe w ws ⟨hpipe, hwait, hrun⟩
    exact becomes_of (f := fun d => d.opSecondPass tile pipe) (fun _ => rfl) (opSecondPass_even hrun hpipe hwait)
  case odd =>
    rintro d tile pipe w ws ⟨hpipe, hwait, hrun⟩
    exact becomes_of (f := fun d => d.opSecondPass tile pipe) (fun _ => rfl) (opSecondPass_odd hrun hpipe hwait)

end Sys2Proof.Machine

/-! PROOFS. The guards of a command's body, passed: shared by the commands of the classes that follow. -/

namespace Sys2Proof.Machine

section
variable {α : Type} {x y : α}

/-- A guard that refuses on a flag which is clear. -/
theorem if_clear {b : Bool} (h : b = false) : (if b then x else y) = y := if_neg (ne_true_of_eq_false h)

/-- A guard that refuses where a flag is not set. -/
theorem if_set {b : Bool} (h : b = true) : (if !b then x else y) = y := if_clear (by rw [h]; rfl)

/-- A guard that refuses values outside a range. -/
theorem if_within {lo hi v : Nat} (hlo : lo ≤ v) (hhi : v ≤ hi) : (if v < lo || hi < v then x else y) = y :=
  if_clear (by simp [hlo, hhi])

/-- A guard of two conditions that both fail. -/
theorem if_neither {a b : Bool} (ha : a = false) (hb : b = false) : (if a || b then x else y) = y := if_clear (by rw [ha, hb]; rfl)

end

/-- A value found in a map is one of its entries. -/
theorem mem_of_mget {α : Type} {m : List (Nat × α)} {k : Nat} {v : α} (h : mget m k = some v) : (k, v) ∈ m := by
  obtain ⟨l, r, hm, -⟩ := List.lookup_eq_some_iff.1 h
  rw [hm]
  simp

end Sys2Proof.Machine

/-! PROOFS. What a packet without authority can change (O45): along the whole path of a packet that is refused. -/

namespace Sys2Proof.Machine

/-! ## Messages leave keys, locks and bindings alone -/

/-- Everything but outputs, counters, mailboxes with their rotation, pending vectors and the sequences of messages is as it was: what
counting and messages can change. -/
def Posts (d e : Dev) : Prop :=
  e = { d with
    out := e.out
    cnt := e.cnt
    host := { d.host with mbox := e.host.mbox, msix := e.host.msix, rrNext := e.host.rrNext, notifSeq := e.host.notifSeq }
    join := { d.join with seqs := e.join.seqs } }

theorem Posts.refl (d : Dev) : Posts d d := rfl
theorem Posts.trans {d e f : Dev} (h : Posts d e) (g : Posts e f) : Posts d f := by
  unfold Posts at *; rw [g]; rw [h]
theorem Posts.foldl {α : Type} (f : Dev → α → Dev) (h : ∀ d x, Posts d (f d x)) (l : List α) (d : Dev) : Posts d (l.foldl f d) := by
  induction l generalizing d with
  | nil => exact Posts.refl d
  | cons a l ih => exact (h d a).trans (ih (f d a))
theorem Posts.talks {d e : Dev} (h : Posts d e) : Talks d e := by
  unfold Posts Talks at *; rw [h]
theorem Posts.host {d e : Dev} (h : Posts d e) :
    e.host = { d.host with mbox := e.host.mbox, msix := e.host.msix, rrNext := e.host.rrNext, notifSeq := e.host.notifSeq } := by
  unfold Posts at h; rw [h]
theorem Posts.join {d e : Dev} (h : Posts d e) : e.join = { d.join with seqs := e.join.seqs } := by
  unfold Posts at h; rw [h]
theorem Posts.sender {d e : Dev} (h : Posts d e) (ch : Nat) : e.sender ch = d.sender ch := by
  rw [Dev.sender, h.talks.senders, Dev.sender]

theorem setMbox_posts (d : Dev) (ch : Nat) (m : MboxChan) : Posts d (d.setMbox ch m) := rfl
theorem vector_posts (d : Dev) (n : Nat) : Posts d (d.vector n) := by
  rw [vector_same]; rfl
theorem count_posts (d : Dev) (c : Cnt) (obj n : Nat) : Posts d (d.count c obj n) := by
  obtain ⟨o, x, v, h⟩ := count_same d c obj n
  rw [h]; rfl

/-- The next message goes from its queue to the receive area, where it can. -/
theorem deliver_posts (d : Dev) (ch : Nat) : Posts d (d.deliver ch) := by
  have hset (m : MboxChan) : Posts d (d.setMbox ch m) := rfl
  unfold Dev.deliver
  dsimp only
  split
  · split
    · split
      · exact (hset _).trans (vector_posts _ _)
      · exact hset _
    · exact Posts.refl d
  · exact Posts.refl d

theorem sendTo_posts (d : Dev) (ch : Nat) (b : List Byte) : Posts d (d.sendTo ch b) := by
  simp only [Dev.sendTo]
  generalize (d.mbox ch).queue.length + (if (d.mbox ch).recv.isSome then 1 else 0) = held
  split
  · rfl
  split
  · exact setMbox_posts d 0 _
  · exact (setMbox_posts d ch _).trans (deliver_posts _ ch)

theorem sysBytesTo_posts (d : Dev) (ps : List Nat) (typ dst seq : Nat) (b : List Byte) : Posts d (d.sysBytesTo ps typ dst seq b) :=
  Posts.foldl _ (fun d _ => Posts.trans (e := d.emit _) rfl (count_posts _ _ _ _)) _ d

theorem toSender_posts (d : Dev) (ch : Nat) (b : List Byte) : Posts d (d.toSender ch b) := by
  unfold Dev.toSender
  split
  · rfl
  · split
    · exact Posts.trans (e := (d.nextSeq 0x21).2) rfl (sysBytesTo_posts _ _ _ _ _ _)
    · exact sendTo_posts _ _ _

theorem noteStatus_posts (d : Dev) (ch st : Nat) : Posts d (d.noteStatus ch st) := by
  unfold Dev.noteStatus
  split
  · exact count_posts _ _ _ _
  split
  · exact count_posts _ _ _ _
  split
  · exact count_posts _ _ _ _
  split
  · exact count_posts _ _ _ _
  · exact Posts.refl d

theorem answer_posts (d : Dev) (c : Cmd) (st ofs n : Nat) (b : List Byte) : Posts d (d.answer c st ofs n b) := by
  unfold Dev.answer
  dsimp only
  split
  · exact (noteStatus_posts _ _ _).trans (toSender_posts _ _ _)
  · exact noteStatus_posts _ _ _

theorem abandonAsm_posts (d : Dev) (ch st : Nat) : Posts d (d.abandonAsm ch st) := by
  unfold Dev.abandonAsm
  split
  · exact Posts.refl d
  · exact ((setMbox_posts d ch _).trans (count_posts _ _ _ _)).trans (answer_posts _ _ _ _ _ _)

theorem refuse_posts (d : Dev) (c : Cmd) (same : Bool) (st ofs : Nat) : Posts d (d.refuse c same st ofs) := by
  unfold Dev.refuse
  cases same
  · exact answer_posts _ _ _ _ _ _
  · exact ((setMbox_posts d _ _).trans (count_posts _ _ _ _)).trans (answer_posts _ _ _ _ _ _)

theorem place_posts (d : Dev) (q : Packet) : Posts d (d.place q) := by
  unfold Dev.place
  dsimp only
  split
  · exact Posts.refl d
  split
  · split
    · exact Posts.refl d
    split
    · exact setMbox_posts _ _ _
    split
    · exact setMbox_posts _ _ _
    · exact setMbox_posts _ _ _
  split
  · exact count_posts _ _ _ _
  · exact setMbox_posts _ _ _

theorem clearSend_posts (d : Dev) (ch : Nat) : Posts d (d.clearSend ch) := by
  unfold Dev.clearSend
  dsimp only
  split
  · exact Posts.trans (by rfl) (vector_posts _ _)
  · rfl

/-! ## Authority is of the device before the packet -/

/-- The key of a trailer hangs on the crucible, the channel's slot and the first binding alone (Table 15-4). -/
theorem trailerKey_congr {d e : Dev} {ch : Nat} (hcru : e.cru = d.cru) (hslot : (e.sender ch).slot = (d.sender ch).slot)
    (hw : (e.sender ch).slotW = (d.sender ch).slotW) (hbound : e.host.boundOnce = d.host.boundOnce) : e.trailerKey ch = d.trailerKey ch := by
  simp only [Dev.trailerKey, Dev.pslot, hcru, hslot, hw, hbound]
  rfl

theorem Posts.trailerKey {d e : Dev} (h : Posts d e) (ch : Nat) : e.trailerKey ch = d.trailerKey ch :=
  trailerKey_congr h.talks.cru (by rw [h.sender]) (by rw [h.sender]) (by rw [h.host])

theorem Posts.senderId {d e : Dev} (h : Posts d e) (ch : Nat) : e.senderId ch = d.senderId ch := by
  rw [Dev.senderId, h.join, Dev.senderId]

theorem Posts.signs {d e : Dev} (h : Posts d e) (q : Packet) : e.signs q = d.signs q := by
  rw [Dev.signs, h.trailerKey, h.senderId, Dev.signs]

theorem Posts.freshCounter {d e : Dev} (h : Posts d e) (q : Packet) : e.freshCounter q = d.freshCounter q := by
  rw [Dev.freshCounter, h.sender, Dev.freshCounter]

theorem Posts.authorised {d e : Dev} (h : Posts d e) (sp : CmdSpec) (q : Packet) : e.authorised sp q = d.authorised sp q := by
  simp only [Dev.authorised, Dev.capable, h.signs, h.freshCounter, h.sender]

/-! ## What a refusal spares -/

/-- A refusal keeps what `Withheld` keeps, and no channel's counter is consumed. -/
def Spares (d e : Dev) : Prop := Withheld d e ∧ ∀ ch, (e.sender ch).consumed = (d.sender ch).consumed

theorem Withheld.trans {d e f : Dev} (h : Withheld d e) (g : Withheld e f) : Withheld d f := by
  unfold Withheld at *; rw [g]; rw [h]
theorem Talks.withheld {d e : Dev} (h : Talks d e) : Withheld d e := by
  unfold Talks Withheld at *; rw [h]
theorem setSender_withheld (d : Dev) (ch : Nat) (x : Sender) : Withheld d (d.setSender ch x) := rfl
theorem Spares.trans {d e f : Dev} (h : Spares d e) (g : Spares e f) : Spares d f :=
  ⟨h.1.trans g.1, fun ch => (g.2 ch).trans (h.2 ch)⟩
theorem Talks.spares {d e : Dev} (h : Talks d e) : Spares d e :=
  ⟨h.withheld, fun ch => by rw [Dev.sender, h.senders, Dev.sender]⟩
theorem Posts.spares {d e : Dev} (h : Posts d e) : Spares d e := h.talks.spares

theorem sender_setSender_ne (d : Dev) {ch ch' : Nat} (x : Sender) (h : ch' ≠ ch) : (d.setSender ch x).sender ch' = d.sender ch' := by
  rw [Dev.sender, Dev.setSender, mgetD_mput_ne _ _ _ _ _ h, Dev.sender]

/-- A sender's bookkeeping beside its consumed counter. -/
theorem setSender_spares (d : Dev) (ch : Nat) {x : Sender} (h : x.consumed = (d.sender ch).consumed) : Spares d (d.setSender ch x) := by
  refine ⟨setSender_withheld d ch x, fun ch' => ?_⟩
  by_cases hch : ch' = ch
  · rw [hch, setSender_sender, h]
  · rw [sender_setSender_ne d x hch]

/-- A fault of a class below F4 starts no quench. -/
theorem recordFault_spares (d : Dev) {r : FltRec} (h : r.cls ≠ 4) : Spares d (d.recordFault r) := by
  have hset : Spares d (d.setFlt (d.flt.enter r (d.now + rawS d.quietS) (!d.pwr.pfw))) := ⟨rfl, fun _ => rfl⟩
  unfold Dev.recordFault
  dsimp only
  rw [if_neg h]
  split
  · exact (hset.trans (notify_talks _ _ _ _).spares).trans (notify_talks _ _ _ _).spares
  · exact hset.trans (notify_talks _ _ _ _).spares

theorem raise_f0_spares (d : Dev) (block event tile inst detail : Nat) (cond iso : Bool) :
    Spares d (d.raise block event 0 tile inst detail cond iso) :=
  recordFault_spares d (by simp [Dev.faultRec])

/-- The fault that the sixteenth refusal records is an F0 (R392). -/
theorem authFailed_spares (d : Dev) (ch : Nat) : Spares d (d.authFailed ch) := by
  unfold Dev.authFailed
  dsimp only
  split
  · refine Spares.trans (setSender_spares d ch ?_) (raise_f0_spares _ _ _ _ _ _ _ _)
    rfl
  · exact setSender_spares d ch (by rfl)

/-- Verification touches the ceilings of the sender and, where it fails, the faults (R392). -/
theorem verify_spares (d : Dev) (c : Cmd) : Spares d (d.verify c).2.2.2 := by
  have hrate : Spares d (d.setSender c.p.chan
      { d.sender c.p.chan with rate := d.now :: (d.sender c.p.chan).rate.filter (fun t => (d.now - t).toNat < (rawS 1).toNat) }) :=
    setSender_spares d _ rfl
  unfold Dev.verify
  dsimp only
  split
  · refine Spares.trans (setSender_spares d c.p.chan ?_) (count_posts _ _ _ _).spares
    rfl
  split
  · exact hrate
  split
  · split
    · exact hrate.trans (authFailed_spares _ _)
    · exact hrate
  · split
    · exact hrate.trans (authFailed_spares _ _)
    · exact hrate.trans (setSender_spares _ _ (by rfl))

/-- A packet that verifies is signed under its channel's key. -/
theorem signs_of_verify {d : Dev} {c : Cmd} (hbody : c.params = c.p.body) (h : (d.verify c).1 = stOk) : d.signs c.p = true := by
  have hkey (r : List Raw) : (d.setSender c.p.chan { d.sender c.p.chan with rate := r }).trailerKey c.p.chan = d.trailerKey c.p.chan :=
    trailerKey_congr rfl (by rw [setSender_sender]) (by rw [setSender_sender]) rfl
  have hid (r : List Raw) : (d.setSender c.p.chan { d.sender c.p.chan with rate := r }).senderId c.p.chan = d.senderId c.p.chan := rfl
  unfold Dev.verify at h
  dsimp only at h
  split at h
  · cases h
  split at h
  · cases h
  rw [hkey, hid] at h
  unfold Dev.signs
  cases htrail : d.trailerKey c.p.chan with
  | error st =>
    rw [htrail] at h
    exact absurd h (trailerKey_error d _ st htrail)
  | ok k =>
    rw [htrail, hbody] at h
    dsimp only at h ⊢
    split at h
    · cases h
    · next heq => exact decide_eq_true (not_not.1 heq)

/-! ## The path of a packet -/

/-- A command whose sender the masks do not allow is refused. -/
theorem execute_incapable {sp : CmdSpec} {c : Cmd}
    (h : (sp.anyone || (c.snd.caps.getLsbD (sp.op / 256) && (!sp.pkg || c.snd.pkg))) = false) (d : Dev) :
    Dev.execute sp c d = d.answer c stNotPermitted 4 0 [] := by
  simp only [Dev.execute, Dev.unpermitted, h, Bool.not_false, if_true]

theorem persist_withheld (d : Dev) (ch n : Nat) : Withheld d (d.persist ch n) :=
  (setSender_withheld d ch _).trans (count_posts _ _ _ _).talks.withheld

/-- A verified command whose sender the masks do not allow is refused or joins its assembly; its counter is consumed where it is critical. -/
theorem accept_incapable {sp : CmdSpec} {c : Cmd}
    (h : (sp.anyone || (c.snd.caps.getLsbD (sp.op / 256) && (!sp.pkg || c.snd.pkg))) = false) (asm : Option Assembly) (d : Dev) :
    Withheld d (Dev.accept sp c asm d) ∧ (c.p.crit = false → Spares d (Dev.accept sp c asm d)) := by
  have hposts {e : Dev} (hp : Posts d e) : Withheld d e ∧ (c.p.crit = false → Spares d e) := ⟨hp.talks.withheld, fun _ => hp.spares⟩
  have hclosed : Posts d (if asm.isSome then d.updMbox c.p.chan (fun m => { m with asm := none }) else d) := by
    split
    · exact setMbox_posts d _ _
    · exact Posts.refl d
  unfold Dev.accept
  dsimp only
  generalize (if asm.isSome then d.updMbox c.p.chan (fun m => { m with asm := none }) else d) = e at hclosed ⊢
  split
  · exact hposts (refuse_posts _ _ _ _ _)
  split
  · exact hposts (setMbox_posts d _ _)
  split
  · exact hposts ((hclosed.trans (count_posts _ _ _ _)).trans (answer_posts _ _ _ _ _ _))
  · rw [execute_incapable (c := { c with params := (asm.map (fun a => a.params)).getD [] ++ c.params }) h]
    split
    · next hcrit =>
      refine ⟨?_, fun hno => absurd hcrit (ne_true_of_eq_false hno)⟩
      exact (hclosed.talks.withheld.trans (persist_withheld _ _ _)).trans (answer_posts _ _ _ _ _ _).talks.withheld
    · exact hposts (hclosed.trans (answer_posts _ _ _ _ _ _))

/-- A critical packet that is signed, but whose counter is not fresh, is refused. -/
theorem accept_stale {sp : CmdSpec} {c : Cmd} {d : Dev} (hcrit : c.p.crit = true) (h : d.freshCounter c.p = false) (asm : Option Assembly) :
    Dev.accept sp c asm d = d.refuse c asm.isSome stReplay 16 := by
  have hle : c.p.counter.toNat ≤ (d.sender c.p.chan).consumed := Nat.not_lt.1 (of_decide_eq_false h)
  unfold Dev.accept
  dsimp only
  rw [if_pos (by simp only [hcrit, Bool.true_and, decide_eq_true_eq]; omega)]

/-- What a packet without authority leaves. -/
def Unheeded (q : Packet) (d e : Dev) : Prop :=
  Withheld d e ∧ ((q.crit && d.signs q && d.freshCounter q) = false → ∀ ch, (e.sender ch).consumed = (d.sender ch).consumed)

theorem Spares.unheeded {q : Packet} {d e : Dev} (h : Spares d e) : Unheeded q d e := ⟨h.1, fun _ => h.2⟩

/-- What comes before with messages alone does not matter. -/
theorem Posts.unheeded {q : Packet} {d e f : Dev} (h : Posts d e) (g : Unheeded q e f) : Unheeded q d f := by
  refine ⟨h.talks.withheld.trans g.1, fun hno ch => ?_⟩
  rw [← h.signs, ← h.freshCounter] at hno
  rw [g.2 hno ch, h.sender]

/-- A critical packet that lacks signature, fresh counter or capability is refused, or joins its assembly. -/
theorem authenticate_unheeded {sp : CmdSpec} {c : Cmd} {d : Dev} (hbody : c.params = c.p.body) (hsnd : c.snd = d.sender c.p.chan)
    (hcrit : c.p.crit = true) (h : d.authorised sp c.p = false) (asm : Option Assembly) : Unheeded c.p d (Dev.authenticate sp c asm d) := by
  have hsp := verify_spares d c
  unfold Dev.authenticate
  rcases hv : d.verify c with ⟨st, ofs, k, e⟩
  rw [hv] at hsp
  dsimp only at hsp ⊢
  split
  · next hst =>
    have hsigns : d.signs c.p = true := signs_of_verify hbody (by rw [hv]; exact hst)
    cases hfresh : d.freshCounter c.p with
    | false =>
      have hstale : e.freshCounter c.p = false := by rw [Dev.freshCounter, hsp.2, ← Dev.freshCounter, hfresh]
      rw [accept_stale (c := { c with trailed := true, key := k }) hcrit hstale]
      exact (hsp.trans (refuse_posts _ _ _ _ _).spares).unheeded
    | true =>
      have hcap : (sp.anyone || (c.snd.caps.getLsbD (sp.op / 256) && (!sp.pkg || c.snd.pkg))) = false := by
        simpa [Dev.authorised, Dev.capable, hcrit, hsigns, hfresh, hsnd] using h
      have hacc := accept_incapable (c := { c with trailed := true, key := k }) hcap asm e
      refine ⟨hsp.1.trans hacc.1, fun hno => ?_⟩
      simp [hcrit, hsigns, hfresh] at hno
  · exact (hsp.trans (refuse_posts _ _ _ _ _).spares).unheeded

/-- A packet of the right form is critical where its opcode is. -/
theorem crit_of_formStatus {q : Packet} {sp : CmdSpec} {ofs : Nat} (h : formStatus q (some sp) = (stOk, ofs)) : (!sp.crit || q.crit) = true := by
  cases hno : (sp.crit && !q.crit) with
  | false => cases hs : sp.crit <;> simp_all
  | true =>
    exfalso
    simp only [formStatus, hno, if_true] at h
    split at h
    · exact absurd (Prod.mk.inj h).1 (by decide)
    split at h
    · exact absurd (Prod.mk.inj h).1 (by decide)
    · exact absurd (Prod.mk.inj h).1 (by decide)

/-- The interpreter's path of a packet without authority. -/
theorem process_unheeded {sp : CmdSpec} {q : Packet} {d : Dev} (h : d.authorised sp q = false) : Unheeded q d (Dev.process (some sp) q d) := by
  have htaken := count_posts d .cmdTaken q.chan 1
  unfold Dev.process
  rcases hform : formStatus q (some sp) with ⟨st, ofs⟩
  dsimp only
  split
  · exact (htaken.trans (refuse_posts _ _ _ _ _)).spares.unheeded
  · next hst =>
    have hcrit := crit_of_formStatus (hform.trans (by rw [not_not.1 hst]))
    have hasm : Posts d
        (if ((d.count .cmdTaken q.chan).mbox q.chan).asm.isSome && !((d.count .cmdTaken q.chan).mbox q.chan).asm.any (fun a => a.sameAs q) then
          (d.count .cmdTaken q.chan).abandonAsm q.chan stBadParam
        else d.count .cmdTaken q.chan) := by
      split
      · exact htaken.trans (abandonAsm_posts _ _ _)
      · exact htaken
    generalize (if ((d.count .cmdTaken q.chan).mbox q.chan).asm.isSome && !((d.count .cmdTaken q.chan).mbox q.chan).asm.any (fun a => a.sameAs q) then
      (d.count .cmdTaken q.chan).abandonAsm q.chan stBadParam else d.count .cmdTaken q.chan) = e at hasm ⊢
    generalize (if q.bulkFlag then decide (16 ≤ q.plen) else sp.lenOk q q.body) = fits
    split
    · exact (hasm.trans (refuse_posts _ _ _ _ _)).spares.unheeded
    split
    · exact (hasm.trans (refuse_posts _ _ _ _ _)).spares.unheeded
    split
    · next hc =>
      refine hasm.unheeded (authenticate_unheeded rfl ?_ hc ?_ _)
      · exact (htaken.sender _).trans (hasm.sender _).symm
      · exact (hasm.authorised sp q).trans h
    · next hc =>
      have hc : q.crit = false := Bool.eq_false_iff.2 hc
      have hcap : (sp.anyone || (((d.count .cmdTaken q.chan).sender q.chan).caps.getLsbD (sp.op / 256)
          && (!sp.pkg || ((d.count .cmdTaken q.chan).sender q.chan).pkg))) = false := by
        rw [Dev.authorised, hcrit, hc] at h
        rw [htaken.sender]
        simpa [Dev.capable] using h
      let c : Cmd := { p := q, params := q.body, snd := (d.count .cmdTaken q.chan).sender q.chan }
      exact hasm.unheeded ((accept_incapable (c := c) hcap (e.mbox q.chan).asm e).2 hc).unheeded

/-- A row's packet without authority: what of it is placed and taken is not heeded. -/
theorem runRow_unheeded {sp : CmdSpec} {q : Packet} {d : Dev} (h : d.authorised sp q = false) : Unheeded q d (runRow sp q d) := by
  have hplaced : Posts d (if (d.mbox q.chan).send = some q then d else d.place q) := by
    split
    · exact Posts.refl d
    · exact place_posts d q
  unfold runRow
  dsimp only
  generalize (if (d.mbox q.chan).send = some q then d else d.place q) = e at hplaced ⊢
  split
  · have hcleared := hplaced.trans (clearSend_posts _ q.chan)
    exact hcleared.unheeded (process_unheeded ((hcleared.authorised sp q).trans h))
  · exact hplaced.spares.unheeded

/-- Settles O45: each refusal on the path of a packet changes messages and the sender's bookkeeping at most, and none starts a quench. -/
theorem nothingWithoutAuthority : Obligations.NothingWithoutAuthority := by
  unfold Obligations.NothingWithoutAuthority
  intro r hr p d hno
  exact leaves_of (rows_exec r hr p) (runRow_unheeded hno)

end Sys2Proof.Machine

/-! PROOFS. A step and its command (O47, O49, O50). -/

namespace Sys2Proof.Machine

/-- Settles O47: a step on a queue that is not empty is its front command. -/
theorem stepRunsTheFrontCommand : Obligations.StepRunsTheFrontCommand := by
  unfold Obligations.StepRunsTheFrontCommand
  intro c cs d
  rfl

/-- Every meaning is an operation on the package alone: it answers a next state and keeps the queue. -/
theorem exec_keeps_pending (c : Instr) (s : State) : ∃ d : Dev, exec c s = .next { dev := d, pending := s.pending } := by
  cases c <;> exact ⟨_, rfl⟩

/-- Settles O49: every arm of `exec` is an operation on the package. -/
theorem everyCommandAnswersANextState : Obligations.EveryCommandAnswersANextState :=
  exec_keeps_pending

/-- A step takes the front command off the queue and leaves the rest as it was. -/
theorem step_pending {s t : State} (h : step s = .next t) : t.pending = s.pending.tail := by
  unfold step at h
  split at h
  · next hnil =>
    injection h with ht
    rw [← ht, hnil]
    rfl
  · next c cs hcons =>
    obtain ⟨e, he⟩ := exec_keeps_pending c { s with pending := cs }
    rw [he] at h
    injection h with ht
    rw [← ht, hcons]
    rfl

/-- Settles O50: what is left of the queue is its tail, and every command of the tail was in the queue. -/
theorem queueKeepsItsOrderAndForm : Obligations.QueueKeepsItsOrderAndForm := by
  unfold Obligations.QueueKeepsItsOrderAndForm
  intro s t hwf hstep
  have htail := step_pending hstep
  refine ⟨fun i hi => hwf i ?_, htail⟩
  rw [htail] at hi
  exact List.mem_of_mem_tail hi

end Sys2Proof.Machine

/-! PROOFS. Form, authentication and opcodes of packets (O44, O46, O56). -/

namespace Sys2Proof.Machine

/-! ## Non-critical opcodes sent critical (R388) -/

/-- The form of a critical packet does not ask whether its opcode is critical. -/
theorem formStatus_crit {q : Packet} (hcrit : q.crit = true) (sp : CmdSpec) (b : Bool) :
    formStatus q (some { sp with crit := b }) = formStatus q (some sp) := by
  simp [formStatus, hcrit]

/-- A critical packet goes the same path whether its opcode is critical or not. -/
theorem process_crit {q : Packet} (hcrit : q.crit = true) (sp : CmdSpec) (b : Bool) (d : Dev) :
    Dev.process (some { sp with crit := b }) q d = Dev.process (some sp) q d := by
  unfold Dev.process
  rw [formStatus_crit hcrit sp b]
  rfl

theorem runRow_crit {q : Packet} (hcrit : q.crit = true) (sp : CmdSpec) (b : Bool) (d : Dev) :
    runRow { sp with crit := b } q d = runRow sp q d := by
  unfold runRow
  dsimp only
  rw [process_crit hcrit sp b]

/-- Settles O44: a critical packet's path does not ask for the opcode's flag; one without the flag is of the wrong form. -/
theorem criticalFlagDecidesAuthentication : Obligations.CriticalFlagDecidesAuthentication := by
  unfold Obligations.CriticalFlagDecidesAuthentication
  intro r hr
  refine ⟨fun _ p d hcrit => ?_, fun hsp => needsCritical_row (rows_exec r hr) hsp⟩
  refine becomes_of (rows_exec r hr p) ?_
  rw [runCommand_row, runCommand_row]
  exact (runRow_crit (q := rowPacket r.2 p) hcrit r.2 true d).symm

/-! ## The checks in their order (R396, R389) -/

/-- A magic number that is wrong is found first, a version that is wrong next. -/
theorem formStatus_badMagic {q : Packet} (h : q.magic ≠ 0x7A5C#16) (sp : Option CmdSpec) : formStatus q sp = (stBadParam, 0) := by
  simp [formStatus, h]

section
variable {q : Packet} (hmagic : q.magic = 0x7A5C#16)
include hmagic

theorem formStatus_badVersion (hver : q.version ≠ 1) (sp : Option CmdSpec) : formStatus q sp = (stBadParam, 2) := by
  simp [formStatus, hmagic, show ¬ q.version = 1#8 from hver]

variable (hver : q.version = 1)
include hver

theorem formStatus_badOpcode : formStatus q none = (stBadOpcode, 4) := by
  simp [formStatus, hmagic, hver]

theorem formStatus_badLength {sp : CmdSpec} (hflag : (sp.crit && !q.crit) = false)
    (hlen : q.sendLen ≠ 32 + q.plen + 16 * b2n q.crit ∨ (if q.crit then 3792 else 3808) < q.plen) :
    formStatus q (some sp) = (stBadLength, 10) := by
  rw [formStatus, if_neg (not_not_intro hmagic), if_neg (not_not_intro (show q.version = 1#8 from hver))]
  exact (if_neg (ne_true_of_eq_false hflag)).trans (if_pos (by simpa using hlen))

end

section
variable {sp : CmdSpec} {d : Dev} {q : Packet} (htakes : d.takes q = true) (hasm : (d.mbox q.chan).asm = none)
  (hform : (formStatus q (some sp)).1 = stOk) (hwhole : q.more = false)
include htakes hasm hform hwhole

/-- A whole packet of the right form, on a channel that joins no fragments, has its parameter length checked, then its trailer. -/
theorem runRow_whole :
    runRow sp q d =
      if !(if q.bulkFlag then decide (16 ≤ q.plen) else sp.lenOk q q.body) then d.refusedWith q stBadLength 10
      else if q.crit then Dev.authenticate sp (Dev.takenCmd q d) none (Dev.takenBy q d)
      else Dev.accept sp (Dev.takenCmd q d) none (Dev.takenBy q d) := by
  have hnone : ((((d.place q).clearSend q.chan).count .cmdTaken q.chan).mbox q.chan).asm = none := (takenBy_asm htakes).trans hasm
  obtain ⟨ofs, hok⟩ : ∃ ofs, formStatus q (some sp) = (stOk, ofs) := ⟨_, Prod.ext hform rfl⟩
  rw [runRow_of_takes sp htakes]
  simp only [Dev.process, hok, ne_eq, not_true_eq_false, if_false, hnone, Option.any_none, Option.isSome_none, Bool.false_and,
    Bool.false_eq_true, Option.isNone_none, hwhole, Bool.not_false, Bool.true_and]
  rfl

/-- One whose parameters have a length that the opcode does not allow is refused. -/
theorem runRow_badParams (hbulk : q.bulkFlag = false) (hlen : sp.lenOk q q.body = false) :
    runRow sp q d = d.refusedWith q stBadLength 10 := by
  rw [runRow_whole htakes hasm hform hwhole]
  simp only [hbulk, hlen, Bool.false_eq_true, if_false, Bool.not_false, if_true]

/-- A critical one that verifies, with a counter that is not above the consumed one, is refused with its counter untouched. -/
theorem runRow_replayed (hlen : (if q.bulkFlag then decide (16 ≤ q.plen) else sp.lenOk q q.body) = true) (hcrit : q.crit = true)
    (hv : ((Dev.takenBy q d).verify (Dev.takenCmd q d)).1 = stOk) (hold : q.counter.toNat ≤ (d.sender q.chan).consumed) :
    runRow sp q d =
        ((Dev.takenBy q d).verify (Dev.takenCmd q d)).2.2.2.answer
          { Dev.takenCmd q d with trailed := true, key := ((Dev.takenBy q d).verify (Dev.takenCmd q d)).2.2.1 } stReplay 16 0 [] ∧
      (((Dev.takenBy q d).verify (Dev.takenCmd q d)).2.2.2.sender q.chan).consumed = (d.sender q.chan).consumed := by
  have htaken : ((Dev.takenBy q d).sender q.chan).consumed = (d.sender q.chan).consumed := (takenBy_talks q d).spares.2 q.chan
  have hkept := (verify_spares (Dev.takenBy q d) (Dev.takenCmd q d)).2 q.chan
  rw [runRow_whole htakes hasm hform hwhole, hlen]
  simp only [Bool.not_true, Bool.false_eq_true, if_false, hcrit, if_true, Dev.authenticate]
  rcases hver : (Dev.takenBy q d).verify (Dev.takenCmd q d) with ⟨st, ofs, k, e⟩
  rw [hver] at hv hkept
  dsimp only at hv hkept ⊢
  have hstale : e.freshCounter q = false := by
    rw [Dev.freshCounter, hkept, htaken]
    exact decide_eq_false (Nat.not_lt.2 hold)
  rw [if_pos hv, accept_stale (c := { Dev.takenCmd q d with trailed := true, key := k }) hcrit hstale]
  exact ⟨rfl, hkept.trans htaken⟩

end

/-- A packet that enters and is not permitted is refused where its permission fails. -/
theorem execute_unpermitted {sp : CmdSpec} {c : Cmd} {d : Dev} {ofs : Nat} (h : d.unpermitted sp c = some ofs) :
    Dev.execute sp c d = d.answer c stNotPermitted ofs 0 [] := by
  simp only [Dev.execute, h]

/-- The counter of a critical packet is consumed before its permission is looked at. -/
theorem entryOf_consumed {q : Packet} (hcrit : q.crit = true) (d : Dev) :
    ((Dev.entryOf q d).2.sender q.chan).consumed = q.counter.toNat := by
  simp only [Dev.entryOf, hcrit, if_true, Dev.persist, Dev.updSender, count_sender, setSender_sender]

/-- Settles O46: what the form finds first, then the length of the parameters, the counter and the permission. -/
theorem packetsAreRefusedInOrder : Obligations.PacketsAreRefusedInOrder := by
  unfold Obligations.PacketsAreRefusedInOrder
  refine ⟨?form, ?replay, ?permission⟩
  case form =>
    intro r hr p d q htakes hasm
    have hrow {e : Dev} (h : runRow r.2 q d = e) : Becomes (r.1 p) d e := becomes_of (rows_exec r hr p) h
    refine ⟨fun hmagic => hrow ?_, fun hmagic hver => hrow ?_, fun hmagic hver hflag => hrow ?_, fun hmagic hver hflag hlen => hrow ?_,
      fun hform hwhole hbulk hlen => hrow (runRow_badParams htakes hasm hform hwhole hbulk hlen)⟩
    · exact runRow_refused htakes hasm (formStatus_badMagic hmagic _) (by decide)
    · exact runRow_refused htakes hasm (formStatus_badVersion hmagic hver _) (by decide)
    · simp only [Bool.and_eq_true, Bool.not_eq_true'] at hflag
      exact runRow_refused htakes hasm (formStatus_notCritical hmagic hver hflag.1 hflag.2) (by decide)
    · exact runRow_refused htakes hasm (formStatus_badLength hmagic hver hflag hlen) (by decide)
  case replay =>
    intro r hr p d q v htakes hasm hform hwhole hlen hcrit hv hold
    obtain ⟨hrun, hkept⟩ := runRow_replayed htakes hasm hform hwhole hlen hcrit hv hold
    exact ⟨becomes_of (rows_exec r hr p) hrun, hkept⟩
  case permission =>
    intro r hr p d ofs q henters hno
    refine ⟨becomes_of (rows_exec r hr p) ?_, fun hcrit => entryOf_consumed hcrit d⟩
    exact (runRow_enters r.2 q.bulkFlag q d henters).trans (execute_unpermitted hno)

/-! ## The catalogue (R399) -/

/-- The rows' opcodes, class by class. -/
theorem commandRows_ops :
    commandRows.map (fun r => r.2.op) = (List.range 9).map (0x0101 + ·) ++ ((List.range 5).map (0x0201 + ·) ++ [0x0210, 0x0211, 0x0220, 0x0230,
      0x0231]) ++ (List.range 8).map (0x0301 + ·) ++ (List.range 7).map (0x0401 + ·) ++ (List.range 9).map (0x0501 + ·)
      ++ (List.range 13).map (0x0601 + ·) ++ (List.range 9).map (0x0701 + ·) ++ ((List.range 9).map (0x0801 + ·) ++ (List.range 4).map (0x0811 + ·))
      ++ (List.range 8).map (0x0901 + ·) ++ (List.range 5).map (0x0A01 + ·) ++ (List.range 6).map (0x0B01 + ·) ++ (List.range 3).map (0x0C01 + ·)
      ++ (List.range 4).map (0x0D01 + ·) ++ (List.range 3).map (0x0E01 + ·) ++ (List.range 5).map (0x0F01 + ·) := by
  decide

/-- The interpreter finds every row's opcode. -/
theorem specOf_row : ∀ r ∈ commandRows, specOf r.2.op = some r.2 := by
  have hall : commandRows.map (fun r => specOf r.2.op) = commandRows.map (fun r => some r.2) := rfl
  exact List.map_inj_left.1 hall

/-- Every opcode that the interpreter finds is a row's. -/
theorem spec_ops_are_rows : ∀ sp ∈ plainSpecs ++ [specJoinBarrier], sp.op ∈ commandRows.map (fun r => r.2.op) := by
  decide +kernel

theorem specOf_none_iff (op : Nat) : specOf op = none ↔ op ∉ commandRows.map (fun r => r.2.op) := by
  constructor
  · intro hnone hmem
    obtain ⟨r, hr, rfl⟩ := List.mem_map.1 hmem
    rw [specOf_row r hr] at hnone
    cases hnone
  · intro hno
    refine List.find?_eq_none.2 fun sp hsp hop => hno ?_
    rw [← of_decide_eq_true hop]
    exact spec_ops_are_rows sp hsp

/-- A packet of an unknown opcode that is taken is refused (R399). -/
theorem runPacket_unknown {d : Dev} {p : Packet} (htaken : d.wellTaken p = true) (hop : specOf p.op = none) :
    d.runPacket (fun q => specOf q.op) p = d.refusedWith p stBadOpcode 4 := by
  simp only [Dev.wellTaken, Bool.and_eq_true, decide_eq_true_eq, Option.isNone_iff_eq_none] at htaken
  obtain ⟨⟨⟨htakes, hasm⟩, hmagic⟩, hver⟩ := htaken
  have hnone : ((((d.place p).clearSend p.chan).count .cmdTaken p.chan).mbox p.chan).asm = none := (takenBy_asm htakes).trans hasm
  obtain ⟨hready, -, -, -, hfree, hroom, -, -⟩ := takes_iff.1 htakes
  have hnew : (d.mbox p.chan).send ≠ some p := by simp [hfree]
  have hsend : ((d.place p).mbox p.chan).send = some p := by rw [place_of_takes htakes, setMbox_mbox]
  have hcan : (d.place p).canTake p.chan = true := by
    rw [place_of_takes htakes]
    simp only [Dev.canTake, Dev.undelivered, setMbox_mbox, Option.isSome_some, Bool.and_true, Bool.and_eq_true, decide_eq_true_eq]
    exact ⟨hready, hroom⟩
  rw [Dev.runPacket, if_neg hnew, if_pos hsend, takeFrom_waiting hsend hcan, hop]
  simp only [Dev.process, formStatus_badOpcode hmagic hver, hnone, Option.any_none, Dev.refuse, Bool.false_eq_true, if_false]
  rfl

/-- Settles O56: the lists are compared as they stand; an opcode that no row has is found in no list of the interpreter. -/
theorem catalogueOfOpcodes : Obligations.CatalogueOfOpcodes := by
  unfold Obligations.CatalogueOfOpcodes
  refine ⟨commandRows_ops, ?critical, ⟨specOf_row, specOf_none_iff⟩, ?unknown⟩
  case critical => decide +kernel
  case unknown =>
    intro p d hop htaken
    have hrun := runPacket_unknown htaken hop
    exact ⟨becomes_of (f := fun d => d.opFragmentRx p) (fun _ => rfl) hrun, becomes_of (f := fun d => d.opTileForwardDone p) (fun _ => rfl) hrun⟩

end Sys2Proof.Machine

/-! PROOFS. Locks, the CXL link and the ends of bulk transfers (O40, O52). -/

namespace Sys2Proof.Machine

/-! ## Locks (R374 to R376) -/

theorem masterOk_range {d : Dev} {master : Nat} (h : d.masterOk master = true) (hno : hostMaster master = false) :
    master < 0x100 ∨ 0x400 ≤ master := by
  simp only [Dev.masterOk, hno, Bool.false_eq_true, if_false] at h
  split at h
  · next hcore =>
    simp only [Bool.and_eq_true, decide_eq_true_eq] at hcore
    omega
  · simp only [Bool.and_eq_true, decide_eq_true_eq] at h
    omega

/-- A firmware lock always reads held through the window of a host. -/
theorem lockWord_firmware {lock master : Nat} (h : fwLock lock master = true) (d : Dev) : d.lockWord lock master = 2 ^ 31 := by
  simp only [fwLock, hostMaster, Bool.and_eq_true, decide_eq_true_eq] at h
  simp [Dev.lockWord, h]

theorem lockWord_plain {lock master : Nat} (h : fwLock lock master = false) (d : Dev) :
    d.lockWord lock master = match mget d.host.locks lock with
      | some o => 2 ^ 31 + o
      | none => 0 := by
  have hcond : (decide (240 ≤ lock) && decide (0x100 ≤ master) && decide (master < 0x110)) = false := by
    rw [Bool.and_assoc]
    exact h
  rw [Dev.lockWord, hcond]
  rfl

section
variable {d : Dev} {lock master : Nat} (hlock : lock < 256) (hmaster : d.masterOk master = true)
include hlock hmaster

theorem opLckLockRead_present :
    d.opLckLockRead lock master =
      if d.lockWord lock master = 0 then { d with host := { d.host with locks := mput d.host.locks lock master }, lastRead := 0 }
      else { d with lastRead := d.lockWord lock master } := by
  rw [Dev.opLckLockRead, if_neg (by simp [hmaster, hlock])]

/-- A lock that reads other than 0 is held: the reader learns the word and changes nothing. -/
theorem opLckLockRead_held {w : Nat} (hw : d.lockWord lock master = w) (hheld : w ≠ 0) : d.opLckLockRead lock master = { d with lastRead := w } := by
  subst hw
  rw [opLckLockRead_present hlock hmaster, if_neg hheld]

theorem opLckLockWrite_present (value : BitVec 32) :
    d.opLckLockWrite lock master value =
      if mget d.host.locks lock = some master ∧ value.toNat = master ∧ fwLock lock master = false then
        { d with host := { d.host with locks := mdel d.host.locks lock } }
      else if d.host.lckBad then d
      else { d with host := { d.host with lckBad := true, lckNum := lock, lckWriter := master } } := by
  rw [Dev.opLckLockWrite, if_neg (by simp [hmaster, hlock])]
  simp only [Bool.and_eq_true, decide_eq_true_eq, Bool.not_eq_true', and_assoc]

end

/-! ## Pages that a link-down aborts (R358, R365) -/

/-- Everything but the pages of the check engine, outputs and pending vectors is as it was. -/
def Aborts (d e : Dev) : Prop := e = { d with chk := e.chk, out := e.out, host := { d.host with msix := e.host.msix } }

theorem Aborts.refl (d : Dev) : Aborts d d := rfl
theorem Aborts.trans {d e f : Dev} (h : Aborts d e) (g : Aborts e f) : Aborts d f := by
  unfold Aborts at *; rw [g]; rw [h]
theorem Aborts.foldl {α : Type} (f : Dev → α → Dev) (h : ∀ d x, Aborts d (f d x)) (l : List α) (d : Dev) : Aborts d (l.foldl f d) := by
  induction l generalizing d with
  | nil => exact Aborts.refl d
  | cons a l ih => exact (h d a).trans (ih (f d a))

theorem setChk_aborts (d : Dev) (page : Nat) (x : ChkPage) : Aborts d (d.setChk page x) := rfl
theorem vector_aborts (d : Dev) (n : Nat) : Aborts d (d.vector n) := by
  rw [vector_same]; rfl
theorem chkEnd_aborts (d : Dev) (page : Nat) (x : ChkPage) : Aborts d (d.chkEnd page x) := by
  unfold Dev.chkEnd
  dsimp only
  split
  · exact (setChk_aborts d page x).trans (vector_aborts _ _)
  · exact setChk_aborts d page x
theorem chkScheduleAt_aborts (d : Dev) (t : Raw) : Aborts d (d.chkScheduleAt t) := by
  unfold Dev.chkScheduleAt
  split
  · exact Aborts.refl d
  split
  · exact setChk_aborts d _ _
  split
  · exact (setChk_aborts d _ _).trans (setChk_aborts _ _ _)
  · exact Aborts.refl d
theorem chkAbort_aborts (d : Dev) (page : Nat) : Aborts d (d.chkAbort page) := by
  unfold Dev.chkAbort
  dsimp only
  split
  · exact (chkEnd_aborts d page _).trans (chkScheduleAt_aborts _ _)
  · exact Aborts.refl d

/-- The device of a link that is lost, before its pages are aborted. -/
def Dev.linkLost (d : Dev) : Dev :=
  { d with host := { d.host with
      linkUp := false, irq := 0, msix := [], msixOn := false, bulk := none,
      mbox := d.host.mbox.map (fun (k, m) => (k,
        if 32 ≤ k then m
        else { m with send := none, area := [], recv := none, recvOld := [], stall := false, queue := if k = 0 then m.queue else [] })),
      locks := d.host.locks.filter (fun e => !hostMaster e.2),
      jobs := d.host.jobs.map (fun j => if 1 ≤ j.chan && j.chan < 32 then { j with chan := 0 } else j) } }

theorem opCxlLinkDown_aborts (d : Dev) : Aborts d.linkLost d.opCxlLinkDown :=
  Aborts.foldl _ (fun d i => chkAbort_aborts d (4 + i)) _ _

/-- What the loss of the link leaves of the host attachment. -/
theorem opCxlLinkDown_host (d : Dev) : d.opCxlLinkDown.host = { d.linkLost.host with msix := d.opCxlLinkDown.host.msix } := by
  have h := opCxlLinkDown_aborts d
  unfold Aborts at h
  rw [h]

/-! ## Bulk transfers that fail (R378) -/

/-- Time that moves on changes the clocks of the package and of the fault collector alone. -/
theorem advanceTo_same (d : Dev) (t : Raw) : ∃ time flt, d.advanceTo t = { d with time := time, flt := flt } := by
  unfold Dev.advanceTo
  split
  · exact ⟨d.time, d.flt, rfl⟩
  · exact ⟨_, _, rfl⟩

/-- The descriptors' write-backs of a transfer that fails at one of them with a code: those before are done, those after not begun. -/
def failedBacks (ds : List (BitVec 64 × Desc)) (desc code : Nat) : List Output :=
  ds.zipIdx.map (fun x => if x.2 < desc then writeBack x.1 x.1.2.len 1 else if x.2 = desc then writeBack x.1 0 code else writeBack x.1 0 4)

/-- The device once a transfer has ended with write-backs. -/
def Dev.bulkEnded (d : Dev) (backs : List Output) : Dev := { d with host := { d.host with bulk := none }, out := backs.reverse ++ d.out }

/-- The command of a transfer, as its reply needs it. -/
def Dev.bulkCmd (d : Dev) (b : Bulk) : Cmd :=
  { p := b.job, params := b.job.params, snd := { d.sender b.chan with caps := b.caps, doms := b.doms }, trailed := b.trailed, key := b.key }

theorem bulkFail_descriptor {d : Dev} {b : Bulk} {ds : List (BitVec 64 × Desc)} {desc : Nat} (hbulk : d.host.bulk = some b)
    (hds : bulkDescs b.job.bulk b.job.params = some ds) (hin : desc < ds.length) (code st : Nat) :
    d.bulkFail desc code st =
      (d.bulkEnded (failedBacks ds desc code)).answer ((d.bulkEnded (failedBacks ds desc code)).bulkCmd b) st 0xFFFF (desc % 65536) [] := by
  rw [Dev.bulkFail, hbulk]
  dsimp only
  rw [hds, Option.getD_some, if_neg (Nat.not_le.2 hin)]
  rfl

/-- A transfer whose host does not answer fails 10 ms later. -/
theorem opDmaHostReadTimeout_descriptor {d : Dev} {b : Bulk} {ds : List (BitVec 64 × Desc)} {desc : Nat} (hbulk : d.host.bulk = some b)
    (hds : bulkDescs b.job.bulk b.job.params = some ds) (hin : desc < ds.length) :
    d.opDmaHostReadTimeout desc =
      let e := (d.advanceTo (d.now + rawMs 10)).bulkEnded (failedBacks ds desc 3)
      e.answer (e.bulkCmd b) stTimeout 0xFFFF (desc % 65536) [] := by
  obtain ⟨time, flt, h⟩ := advanceTo_same d (d.now + rawMs 10)
  rw [Dev.opDmaHostReadTimeout, if_neg (by simp [hbulk])]
  exact bulkFail_descriptor (by rw [h, hbulk]) hds hin 3 stTimeout

/-! ## The locks stay safe (R374) -/

theorem mem_mput {α : Type} {m : List (Nat × α)} {k : Nat} {v : α} {e : Nat × α} (h : e ∈ mput m k v) : e = (k, v) ∨ e ∈ m := by
  induction m with
  | nil => exact .inl (List.mem_singleton.1 h)
  | cons x m ih =>
    obtain ⟨j, w⟩ := x
    simp only [mput] at h
    split at h
    · exact List.mem_cons.1 h
    split at h
    · rcases List.mem_cons.1 h with rfl | hm
      · exact .inl rfl
      · exact .inr (List.mem_cons_of_mem _ hm)
    · rcases List.mem_cons.1 h with rfl | hm
      · exact .inr List.mem_cons_self
      · exact (ih hm).imp id (List.mem_cons_of_mem _)

/-- Fewer locks held are as safe. -/
theorem locksSafe_subset {d e : Dev} (hsafe : d.locksSafe) (hsub : e.host.locks ⊆ d.host.locks) : e.locksSafe :=
  fun x hx => hsafe x (hsub hx)

theorem Posts.locksSafe {d e : Dev} (h : Posts d e) (hsafe : d.locksSafe) : e.locksSafe :=
  locksSafe_subset hsafe (by rw [h.host]; exact List.Subset.refl _)

theorem opLckLockRead_locksSafe {d : Dev} (hsafe : d.locksSafe) (lock master : Nat) : (d.opLckLockRead lock master).locksSafe := by
  by_cases hgo : lock < 256 ∧ d.masterOk master = true
  · obtain ⟨hlock, hmaster⟩ := hgo
    rw [opLckLockRead_present hlock hmaster]
    split
    · next hfree =>
      intro e he hfirm
      rcases mem_mput he with rfl | hm
      · refine masterOk_range hmaster (Bool.eq_false_iff.2 fun hhost => ?_)
        rw [lockWord_firmware (by simp only [fwLock, hhost, Bool.and_true, decide_eq_true_eq]; exact hfirm)] at hfree
        exact absurd hfree (by decide)
      · exact hsafe e hm hfirm
    · exact hsafe
  · rw [Dev.opLckLockRead, if_pos (by simp only [Bool.or_eq_true, decide_eq_true_eq, Bool.not_eq_true']; by_contra h; simp_all)]
    exact hsafe

theorem opLckLockWrite_locksSafe {d : Dev} (hsafe : d.locksSafe) (lock master : Nat) (value : BitVec 32) :
    (d.opLckLockWrite lock master value).locksSafe := by
  unfold Dev.opLckLockWrite
  split
  · exact hsafe
  split
  · exact locksSafe_subset hsafe (List.filter_subset_self _)
  split
  · exact hsafe
  · exact hsafe

theorem opLckBreakWrite_locksSafe {d : Dev} (hsafe : d.locksSafe) (als : Nat) (value : BitVec 32) : (d.opLckBreakWrite als value).locksSafe := by
  unfold Dev.opLckBreakWrite
  dsimp only
  split
  · exact locksSafe_subset hsafe (List.filter_subset_self _)
  · exact hsafe

theorem opCxlLinkDown_locksSafe {d : Dev} (hsafe : d.locksSafe) : d.opCxlLinkDown.locksSafe :=
  locksSafe_subset hsafe (by rw [opCxlLinkDown_host]; exact List.filter_subset_self _)

theorem opCxlLinkUp_locksSafe {d : Dev} (hsafe : d.locksSafe) (cxl : Bool) : (d.opCxlLinkUp cxl).locksSafe := by
  unfold Dev.opCxlLinkUp
  split
  · exact hsafe
  · exact (deliver_posts _ 0).locksSafe hsafe

theorem opMbxTakeRead_locksSafe {d : Dev} (hsafe : d.locksSafe) (ch : Nat) : (d.opMbxTakeRead ch).locksSafe := by
  unfold Dev.opMbxTakeRead
  split
  · exact hsafe
  split
  · exact hsafe
  · exact ((setMbox_posts _ ch _).trans (deliver_posts _ ch)).locksSafe hsafe

theorem opMsiXEnable_locksSafe {d : Dev} (hsafe : d.locksSafe) : d.opMsiXEnable.locksSafe := by
  unfold Dev.opMsiXEnable
  split
  · exact hsafe
  · exact (Posts.foldl _ (fun d n => (rfl : Posts d (d.emit (.vector n)))) _ _).locksSafe hsafe

/-- Settles O52: only a read of a free lock makes an owner, and a host never reads a firmware lock as free. -/
theorem locksOfFirmwareStayFirmwares : Obligations.LocksOfFirmwareStayFirmwares := by
  unfold Obligations.LocksOfFirmwareStayFirmwares
  intro d e lock master als ch value cxl hsafe hrow
  rcases hrow with h | h | h | h | h | h | h
  · exact (becomes_iff_of_live (f := fun d => d.opLckLockRead lock master) fun _ => rfl).1 h ▸ opLckLockRead_locksSafe hsafe lock master
  · exact becomes_lckLockWrite_iff.1 h ▸ opLckLockWrite_locksSafe hsafe lock master value
  · exact (becomes_iff_of_live (f := fun d => d.opLckBreakWrite als value) fun _ => rfl).1 h ▸ opLckBreakWrite_locksSafe hsafe als value
  · exact (becomes_iff_of_live (f := fun d => d.opCxlLinkDown) fun _ => rfl).1 h ▸ opCxlLinkDown_locksSafe hsafe
  · exact (becomes_iff_of_live (f := fun d => d.opCxlLinkUp cxl) fun _ => rfl).1 h ▸ opCxlLinkUp_locksSafe hsafe cxl
  · exact (becomes_iff_of_live (f := fun d => d.opMbxTakeRead ch) fun _ => rfl).1 h ▸ opMbxTakeRead_locksSafe hsafe ch
  · exact (becomes_iff_of_live (f := fun d => d.opMsiXEnable) fun _ => rfl).1 h ▸ opMsiXEnable_locksSafe hsafe

/-- Settles O40: a lock by what it reads and who holds it; the link by what its loss leaves; a transfer by its descriptors. -/
theorem locksLinkAndBulkTransfers : Obligations.LocksLinkAndBulkTransfers := by
  unfold Obligations.LocksLinkAndBulkTransfers
  refine ⟨?free, ?held, ?firmware, ?release, ?ignored, ?broken, ?unbroken, ?linkDown, ?linkUp, ?msix, ?memory, ?done, ?timeout, ?error⟩
  case free =>
    rintro d lock master ⟨hlock, hmaster, hplain, hfree⟩
    refine becomes_of (f := fun d => d.opLckLockRead lock master) (fun _ => rfl) ?_
    rw [opLckLockRead_present hlock hmaster, lockWord_plain hplain, hfree]
    rfl
  case held =>
    rintro d lock master o ⟨hlock, hmaster, hplain, hheld⟩
    refine becomes_of (f := fun d => d.opLckLockRead lock master) (fun _ => rfl) ?_
    exact opLckLockRead_held hlock hmaster (by rw [lockWord_plain hplain, hheld]) (by omega)
  case firmware =>
    rintro d lock master ⟨hlock, hmaster, hfirm⟩
    refine becomes_of (f := fun d => d.opLckLockRead lock master) (fun _ => rfl) ?_
    exact opLckLockRead_held hlock hmaster (lockWord_firmware hfirm d) (by decide)
  case release =>
    rintro d lock master value ⟨hlock, hmaster, hplain, hheld, hvalue⟩
    refine becomes_of (f := fun d => d.opLckLockWrite lock master value) (fun _ => rfl) ?_
    rw [opLckLockWrite_present hlock hmaster, if_pos ⟨hheld, hvalue, hplain⟩]
  case ignored =>
    rintro d lock master value ⟨hlock, hmaster, hwrong⟩
    refine becomes_of (f := fun d => d.opLckLockWrite lock master value) (fun _ => rfl) ?_
    rw [opLckLockWrite_present hlock hmaster, if_neg]
    rintro ⟨hheld, hvalue, hplain⟩
    rcases hwrong with h | h | h
    · exact h hheld
    · exact h hvalue
    · exact ne_true_of_eq_false hplain h
  case broken =>
    rintro d als value ⟨hok, hals, hhost⟩
    exact becomes_of (f := fun d => d.opLckBreakWrite als value) (fun _ => rfl) (if_pos (by simp [hok, hals, hhost]))
  case unbroken =>
    rintro d als value hno
    refine becomes_of (f := fun d => d.opLckBreakWrite als value) (fun _ => rfl) (if_neg ?_)
    rcases hno with h | h <;> simp [h]
  case linkDown =>
    intro d
    refine leaves_of (f := fun d => d.opCxlLinkDown) (fun _ => rfl) ?_
    have h := opCxlLinkDown_aborts d
    unfold Aborts at h
    rw [h]
    exact ⟨rfl, rfl, rfl, rfl, rfl, rfl, rfl, rfl, rfl, rfl⟩
  case linkUp =>
    intro d cxl hdown
    exact becomes_of (f := fun d => d.opCxlLinkUp cxl) (fun _ => rfl) (if_neg (ne_true_of_eq_false hdown))
  case msix =>
    intro d hup
    exact becomes_of (f := fun d => d.opMsiXEnable) (fun _ => rfl) (if_neg (by simp [hup]))
  case memory =>
    rintro d addr value ⟨hok, hcxl, haddr⟩
    exact becomes_of (f := fun d => d.opMemWriteDrop addr value) (fun _ => rfl)
      (if_pos (by simp only [hok, hcxl, haddr, decide_true, Bool.and_self]))
  case done =>
    rintro d b ds sp ⟨hbulk, hsp, hds⟩
    refine becomes_of (f := fun d => d.opDmaTransferDone) (fun _ => rfl) ?_
    rw [Dev.opDmaTransferDone, hbulk]
    dsimp only
    rw [hsp, hds]
    rfl
  case timeout =>
    rintro d desc b ds ⟨hbulk, hds, hin⟩
    refine becomes_of (f := fun d => d.opDmaHostReadTimeout desc) (fun _ => rfl) ?_
    exact opDmaHostReadTimeout_descriptor hbulk hds hin
  case error =>
    rintro d desc b ds ⟨hbulk, hds, hin⟩
    exact becomes_of (f := fun d => d.opDmaHostError desc) (fun _ => rfl) (bulkFail_descriptor hbulk hds hin 2 stBadParam)

end Sys2Proof.Machine

/-! PROOFS. A packet and its bytes (O53). -/

namespace Sys2Proof.Machine

/-! ## Numbers and their bytes -/

theorem leBytes_length (n v : Nat) : (leBytes n v).length = n := by simp [leBytes]

/-- The lowest byte, and the bytes of the rest. -/
theorem leBytes_succ (n v : Nat) : leBytes (n + 1) v = BitVec.ofNat 8 v :: leBytes n (v / 256) := by
  simp only [leBytes, List.range_succ_eq_map, List.map_cons, List.map_map, Nat.mul_zero, Nat.pow_zero, Nat.div_one]
  refine congrArg _ (List.map_congr_left fun i _ => ?_)
  have hpow : 2 ^ (8 * (i + 1)) = 256 * 2 ^ (8 * i) := by rw [Nat.mul_add, Nat.pow_add, Nat.mul_comm]
  simp only [Function.comp_apply, Nat.succ_eq_add_one, hpow, Nat.div_div_eq_div_mul]

theorem leNat_leBytes (n v : Nat) : leNat (leBytes n v) = v % 256 ^ n := by
  induction n generalizing v with
  | zero => simp [leBytes, leNat, Nat.mod_one]
  | succ n ih =>
    rw [leBytes_succ, leNat, ih, Nat.pow_succ', Nat.mod_mul, BitVec.toNat_ofNat]

/-! ## Bytes at an offset -/

theorem bytesAt_append_right (a b : List Byte) (ofs k : Nat) : bytesAt (a ++ b) (a.length + ofs) k = bytesAt b ofs k := by
  refine List.map_congr_left fun i _ => ?_
  rw [List.getD_append_right _ _ _ _ (by omega)]
  congr 1
  omega

theorem bytesAt_append (a b : List Byte) : bytesAt (a ++ b) 0 a.length = a := by
  rw [bytesAt_inside (by simp), List.drop_zero, List.take_left]

theorem bytesAt_all (a : List Byte) : bytesAt a 0 a.length = a := by
  rw [bytesAt_inside (by simp), List.drop_zero, List.take_length]

theorem natAt_skip {n ofs : Nat} (h : n ≤ ofs) (v k : Nat) (b : List Byte) : natAt (leBytes n v ++ b) ofs k = natAt b (ofs - n) k := by
  have hat := bytesAt_append_right (leBytes n v) b (ofs - n) k
  rw [leBytes_length, Nat.add_sub_cancel' h] at hat
  rw [natAt, hat, natAt]

theorem natAt_head (n v : Nat) (b : List Byte) : natAt (leBytes n v ++ b) 0 n = v % 256 ^ n := by
  have h := bytesAt_append (leBytes n v) b
  rw [leBytes_length] at h
  rw [natAt, h, leNat_leBytes]

/-- A word is read back whole from its bytes. -/
theorem natAt_word {n w : Nat} (hw : w = 8 * n) (x : BitVec w) (b : List Byte) : natAt (leBytes n x.toNat ++ b) 0 n = x.toNat := by
  subst hw
  have hlt := x.isLt
  rw [Nat.pow_mul] at hlt
  rw [natAt_head, Nat.mod_eq_of_lt hlt]

/-! ## The packet (Table 15-1) -/

section
variable (p : Packet) (sid : Nat) (b : List Byte)

theorem header_length : (p.header sid).length = 32 := by
  simp only [Packet.header, List.length_append, leBytes_length]

theorem header_magic : natAt (p.header sid ++ b) 0 2 = p.magic.toNat := by
  simp [Packet.header, natAt_word]
theorem header_version : natAt (p.header sid ++ b) 2 1 = p.version.toNat := by
  simp [Packet.header, natAt_skip, natAt_word]
theorem header_flags : natAt (p.header sid ++ b) 3 1 = p.flags.toNat := by
  simp [Packet.header, natAt_skip, natAt_word]
theorem header_op : natAt (p.header sid ++ b) 4 2 = p.op % 2 ^ 16 := by
  simp [Packet.header, natAt_skip, natAt_head]
theorem header_tag : natAt (p.header sid ++ b) 6 2 = p.tag.toNat := by
  simp [Packet.header, natAt_skip, natAt_word]
theorem header_plen : natAt (p.header sid ++ b) 10 2 = p.plen % 2 ^ 16 := by
  simp [Packet.header, natAt_skip, natAt_head]
theorem header_target : natAt (p.header sid ++ b) 12 4 = p.target.toNat := by
  simp [Packet.header, natAt_skip, natAt_word]
theorem header_counter : natAt (p.header sid ++ b) 16 8 = p.counter.toNat := by
  simp [Packet.header, natAt_skip, natAt_word]
theorem header_reserved : natAt (p.header sid ++ b) 24 8 = p.reserved.toNat := by
  simp [Packet.header, natAt_skip, natAt_word]

end

section
variable {p : Packet} (h : wholePacket p)
include h

theorem body_of_whole : p.body = p.params := by
  obtain ⟨-, -, hlen, -⟩ := h
  rw [Packet.body, ← hlen, bytesAt_all]

theorem bytes_of_whole (sid : Nat) : p.bytes sid = p.header sid ++ (p.params ++ p.trailer) := by
  rw [Packet.bytes, body_of_whole h, List.append_assoc]

/-- What is read behind the header is the parameters and then the trailer. -/
theorem bytesAt_behind_header (sid ofs k : Nat) : bytesAt (p.bytes sid) (32 + ofs) k = bytesAt (p.params ++ p.trailer) ofs k := by
  rw [bytes_of_whole h, ← header_length p sid, bytesAt_append_right]

theorem bytes_length_of_whole (sid : Nat) : (p.bytes sid).length = p.sendLen := by
  obtain ⟨-, -, hlen, htrail, hsend, -⟩ := id h
  rw [bytes_of_whole h, List.length_append, List.length_append, header_length, hlen, htrail, hsend]
  omega

theorem trailer_of_whole (sid : Nat) : (if p.crit then bytesAt (p.bytes sid) (32 + p.plen) 16 else []) = p.trailer := by
  rw [bytesAt_behind_header h]
  obtain ⟨-, -, hlen, htrail, -⟩ := h
  have hat := bytesAt_append_right p.params p.trailer 0 16
  rw [Nat.add_zero, hlen] at hat
  rw [hat]
  split
  · next hcrit =>
    have h16 : p.trailer.length = 16 := by rw [htrail, hcrit]; rfl
    rw [← h16, bytesAt_all]
  · next hcrit =>
    rw [Bool.eq_false_iff.2 hcrit] at htrail
    exact (List.length_eq_zero_iff.1 htrail).symm

/-- The packet read from its bytes is the packet, field by field. -/
theorem ofBytes_bytes (sid : Nat) : Packet.ofBytes p.chan (p.bytes sid) = p := by
  obtain ⟨hop, hplen, hlen, -, -, hbulk⟩ := id h
  have hfield (ofs n : Nat) : natAt (p.bytes sid) ofs n = natAt (p.header sid ++ (p.params ++ p.trailer)) ofs n := by rw [bytes_of_whole h]
  have hcrit : bitN (natAt (p.bytes sid) 3 1) 0 = p.crit := by
    rw [hfield, header_flags]
    rfl
  have hparams : bytesAt (p.bytes sid) 32 p.plen = p.params := by
    have hat := bytesAt_behind_header h sid 0 p.plen
    rw [← hlen, bytesAt_append] at hat
    rw [← hlen]
    exact hat
  have hlen10 : natAt (p.bytes sid) 10 2 = p.plen := by
    rw [hfield, header_plen]
    exact Nat.mod_eq_of_lt hplen
  rw [Packet.ofBytes, hlen10, hcrit, hparams, trailer_of_whole h, bytes_length_of_whole h]
  simp only [hfield, header_magic, header_version, header_flags, header_op, header_tag, header_target, header_counter, header_reserved,
    BitVec.ofNat_toNat, BitVec.setWidth_eq, Nat.mod_eq_of_lt hop]
  rw [← hbulk]

end

/-- Settles O53: each field lies behind those before it and holds its value whole. -/
theorem packetBytesRoundTrip : Obligations.PacketBytesRoundTrip :=
  fun _ sid h => ofBytes_bytes h sid

end Sys2Proof.Machine

/-! PROOFS. Class 0x07: queues, nodes, shapers, meters, gates, injection and status (O22). -/

namespace Sys2Proof.Machine

/-! ## Queues (R292, R293, R309, R310) -/

/-- The uplink-side queue that a CMD_QUEUE_CREATE describes. -/
def Dev.upQueueMade (d : Dev) (c : Cmd) : Queue :=
  { down := false, subport := c.u16 0, group := c.u8 2, cls := c.u8 3, maxCells := c.u32 4, yellow := c.u8 8, red := c.u8 9,
    strict := bitN (c.u8 10) 0, priv := bitN (c.u8 10) 1, gated := bitN (c.u8 10) 2, weight := c.u16 12, launch := c.u8 14,
    launchOfs := c.u32 16, lateTol := c.u32 20, startAt := d.qFrame }

/-- The downstream queue that one describes. -/
def Dev.downQueueMade (d : Dev) (c : Cmd) : Queue :=
  { down := true, tid := c.u16 0, sdom := c.u8 2, cls := c.u8 3, maxCells := c.u32 4, yellow := c.u8 8, red := c.u8 9,
    strict := bitN (c.u8 10) 0, priv := bitN (c.u8 10) 1, gated := false, weight := c.u16 12, launch := 0, launchOfs := c.u32 16,
    lateTol := c.u32 20, startAt := d.qFrame }

section
variable {c : Cmd} {d : Dev} (hok : d.queueOk c.tgt = true) (hcells : 1 ≤ c.u32 4) (hmax : c.u32 4 ≤ 262144) (hyellow : c.u8 8 ≤ 100)
  (hred : c.u8 9 ≤ 100) (hweight : 1 ≤ c.u16 12) (hheavy : c.u16 12 ≤ 1023) (hofs : c.u32 16 ≤ 1000000) (htol : c.u32 20 ≤ 1000000)
  (hnew : mhas d.queues c.tgt = false)
include hok hcells hmax hyellow hred hweight hheavy hofs htol hnew

/-- CMD_QUEUE_CREATE of an uplink-side queue whose place is free, on a running tile that has room. -/
theorem bodyQueueCreate_up (hup : upBase ≤ c.tgt) (hsub : c.u16 0 < d.nSubs) (hgroup : c.u8 2 < 64) (hcls : c.u8 3 < 64) (hlaunch : c.u8 14 ≤ 2)
    (hplace : d.queues.any (fun e => !e.2.down && e.2.tid = 0 && e.2.sdom = 0 && e.2.subport = c.u16 0 && e.2.group = c.u8 2
      && e.2.cls = c.u8 3) = false)
    (hrun : d.tileRun (tileOfSub (c.u16 0)) = true) (hroom : d.upQueuesOn (tileOfSub (c.u16 0)) < 4096) :
    bodyQueueCreate c d = Dev.ok (Dev.syncNodes (Dev.giveSlot { d with queues := mput d.queues c.tgt (d.upQueueMade c) } 1 c.tgt)) := by
  have hside : (c.tgt < upBase) = False := eq_false (Nat.not_lt.2 hup)
  rw [bodyQueueCreate]
  simp only [hside, if_false]
  rw [if_set hok, if_neg (by simp; omega), if_neg (by omega), if_within hcells hmax, if_neg (by omega), if_neg (by omega),
    if_within hweight hheavy, if_neg (by omega), if_neg (by omega), if_neg (by omega), if_clear (by simp), if_clear (by simp [hnew]),
    if_clear (by simpa using hplace), if_clear (by simp [Dev.notRun, hrun]), if_neg (by omega)]
  rfl

/-- CMD_QUEUE_CREATE of a downstream queue of a terminal. -/
theorem bodyQueueCreate_down (hdown : c.tgt < upBase) (htid : c.u16 0 < d.nTerms) (hcls : c.u8 3 < 8) (hlaunch : c.u8 14 = 0)
    (hgate : bitN (c.u8 10) 2 = false) (hterm : mhas d.terms (c.u16 0) = true)
    (hplace : d.queues.any (fun e => e.2.down && e.2.tid = c.u16 0 && e.2.sdom = c.u8 2 && e.2.subport = 0 && e.2.group = 0
      && e.2.cls = c.u8 3) = false)
    (hrun : d.tileRun (d.tileOfTerm (c.u16 0)) = true) (hroom : d.downQueuesOn (d.tileOfTerm (c.u16 0)) < 16384) :
    bodyQueueCreate c d = Dev.ok (Dev.syncNodes (Dev.giveSlot { d with queues := mput d.queues c.tgt (d.downQueueMade c) } 1 c.tgt)) := by
  have hside : (c.tgt < upBase) = True := eq_true hdown
  rw [bodyQueueCreate]
  simp only [hside, if_true]
  rw [if_set hok, if_neg (by omega), if_neg (by omega), if_within hcells hmax, if_neg (by omega), if_neg (by omega),
    if_within hweight hheavy, if_neg (by omega), if_neg (by omega), if_neg (by omega), if_clear (by simp [hlaunch, hgate]),
    if_clear (by simp [hnew, hterm]), if_clear (by simpa using hplace), if_clear (by simp [Dev.notRun, hrun]), if_neg (by omega), hlaunch, hgate]
  rfl

end

/-- CMD_QUEUE_MODIFY: the parameters wait for the frame of the change. -/
theorem bodyQueueModify_legal {c : Cmd} {d : Dev} (hnamed : d.queueNamed c.tgt = true) (hcells : 1 ≤ c.u32 0) (hmax : c.u32 0 ≤ 262144)
    (hyellow : c.u8 4 ≤ 100) (hred : c.u8 5 ≤ 100) (hweight : 1 ≤ c.u16 8) (hheavy : c.u16 8 ≤ 1023) (hlaunch : c.u8 10 ≤ 2)
    (hdown : (d.queue c.tgt).down = true → c.u8 10 = 0) (hofs : c.u32 12 ≤ 1000000) (htol : c.u32 16 ≤ 1000000) :
    bodyQueueModify c d =
      Dev.ok
        { d with
          queues :=
            mput d.queues c.tgt
              { d.queue c.tgt with
                next := (d.queue c.tgt).next ++ [(d.qFrame, [c.u32 0, c.u8 4, c.u8 5, c.u8 6 % 2, c.u16 8, c.u8 10, c.u32 12, c.u32 16])] } } := by
  have hside : ((d.queue c.tgt).down && decide (c.u8 10 ≠ 0)) = false := by
    cases hd : (d.queue c.tgt).down with
    | false => rfl
    | true => simp [hdown hd]
  rw [bodyQueueModify, withQueue_named hnamed]
  change (if c.u32 0 < 1 || 262144 < c.u32 0 then _ else if 100 < c.u8 4 then _ else if 100 < c.u8 5 then _
    else if c.u16 8 < 1 || 1023 < c.u16 8 then _ else if 2 < c.u8 10 || ((d.queue c.tgt).down && c.u8 10 ≠ 0) then _
    else if 1000000 < c.u32 12 then _ else if 1000000 < c.u32 16 then _ else _) = _
  rw [if_within hcells hmax, if_neg (by omega), if_neg (by omega), if_within hweight hheavy,
    if_neither (decide_eq_false (by omega)) hside, if_neg (by omega), if_neg (by omega)]

/-! ## Nodes and shapers (R295, R296, R299, R300) -/

/-- CMD_NODE_CONFIG of a domain or terminal-within-domain node that is there. -/
theorem bodyNodeConfig_legal {c : Cmd} {d : Dev} (hkind : c.u8 0 = 2 ∨ c.u8 0 = 3) (hin : d.nodeOut (c.u8 0) c.tgt 0 = false)
    (hweight : 1 ≤ c.u16 2) (hheavy : c.u16 2 ≤ 1023) (hhere : mhas d.nodes (nodeOf (c.u8 0) c.tgt (c.u8 1)) = true)
    (hrun : d.tileRun (d.tileOfNode (c.u8 0) c.tgt) = true) :
    bodyNodeConfig c d =
      Dev.ok
        { d with
          nodes :=
            mput d.nodes (nodeOf (c.u8 0) c.tgt (c.u8 1))
              { mgetD d.nodes (nodeOf (c.u8 0) c.tgt (c.u8 1)) {} with
                next := (mgetD d.nodes (nodeOf (c.u8 0) c.tgt (c.u8 1)) {}).next ++ [(d.qFrame, c.u16 2)] } } := by
  obtain ⟨n, hn⟩ := get_of_has hhere
  rw [bodyNodeConfig]
  dsimp only
  rw [if_clear (by simp; omega), if_clear hin, if_within hweight hheavy, hn, mgetD_of_get hn]
  exact if_clear (by simp [Dev.notRun, hrun])

/-- The shaper that a CMD_SHAPER_SET describes. -/
def Dev.shaperMade (d : Dev) (c : Cmd) : Shaper :=
  { pkt := c.bit 21 0, cir := c.u32 4, cbs := c.u32 8, pir := c.u32 12, pbs := c.u32 16, overhead := c.i8 20, full := c.bit 21 1,
    tile := d.tileOfNode (c.u8 0) c.tgt }

/-- The node or queue that it names. -/
def Cmd.shapedNode (c : Cmd) : Nat := nodeOf (c.u8 0) c.tgt (c.u8 1)

section
variable {c : Cmd} {d : Dev} (hkind : c.u8 0 ≤ 5) (hin : d.nodeOut (c.u8 0) c.tgt (c.u8 1) = false)
  (hhere : d.nodeHere (c.u8 0) c.shapedNode = true) (hrun : d.tileRun (d.tileOfNode (c.u8 0) c.tgt) = true)
include hkind hin hhere hrun

/-- CMD_SHAPER_SET of a legal setting; packet mode on a queue of one sender alone, while the tile has room. -/
theorem bodyShaperSet_set (hact : c.u8 2 = 0)
    (hlegal : bucketBad (c.bit 21 0) (c.u32 4) (c.u32 8) (c.u32 12) (c.u32 16) (c.i8 20) = stOk)
    (hpkt : c.bit 21 0 = true → c.u8 0 = 0 ∧ mhas d.queues c.tgt = true ∧ (d.queue c.tgt).priv = true ∧
      ((mget d.shapers c.shapedNode).any (fun s => s.pkt) = true ∨ d.pktModeOn (d.tileOfNode (c.u8 0) c.tgt) < 1024))
    (hroom : mhas d.shapers c.shapedNode = true ∨ d.shapersOn (d.tileOfNode (c.u8 0) c.tgt) < 24576) :
    bodyShaperSet c d =
      Dev.ok { d with shaperNext := d.shaperNext ++ [{ atT := d.qFrame, target := c.shapedNode, cfg := d.shaperMade c }] } := by
  rw [Cmd.shapedNode] at *
  have hpriv : (c.bit 21 0 && !(decide (c.u8 0 = 0) && match mget d.queues c.tgt with | some q => q.priv | none => false)) = false := by
    cases hb : c.bit 21 0 with
    | false => rfl
    | true =>
      obtain ⟨hzero, hqueue, hprivate, -⟩ := hpkt hb
      rw [get_queue hqueue]
      simp [hzero, hprivate]
  have hmode : (c.bit 21 0 && !(mget d.shapers (nodeOf (c.u8 0) c.tgt (c.u8 1))).any (fun s => s.pkt)
      && decide (1024 ≤ d.pktModeOn (d.tileOfNode (c.u8 0) c.tgt))) = false := by
    cases hb : c.bit 21 0 with
    | false => rfl
    | true =>
      obtain ⟨-, -, -, hany | hfew⟩ := hpkt hb
      · simp [hany]
      · simp [Nat.not_le.2 hfew]
  have hfull : (!mhas d.shapers (nodeOf (c.u8 0) c.tgt (c.u8 1)) && decide (24576 ≤ d.shapersOn (d.tileOfNode (c.u8 0) c.tgt))) = false := by
    rcases hroom with hthere | hfew
    · simp [hthere]
    · simp [Nat.not_le.2 hfew]
  rw [bodyShaperSet]
  dsimp only
  rw [if_neg (by omega), if_neg (by omega), if_clear hin, if_clear (by simp [hhere, Dev.notRun, hrun]), if_neg (by omega),
    if_neg (not_not_intro hlegal)]
  exact (if_clear hpriv).trans ((if_clear hmode).trans (if_clear hfull))

/-- CMD_SHAPER_SET that detaches a shaper. -/
theorem bodyShaperSet_detach (hact : c.u8 2 = 1) (hthere : mhas d.shapers c.shapedNode = true) :
    bodyShaperSet c d =
      Dev.ok
        { d with shaperNext := d.shaperNext ++ [{ atT := d.qFrame, target := c.shapedNode, detach := true, cfg := d.shaperMade c }] } := by
  rw [Cmd.shapedNode] at *
  rw [bodyShaperSet]
  dsimp only
  rw [if_neg (by omega), if_neg (by omega), if_clear hin, if_clear (by simp [hhere, Dev.notRun, hrun]), if_pos hact, if_set hthere]
  rfl

end

/-! ## Meters (R301, R302) -/

/-- The meter that a CMD_METER_SET describes. -/
def Cmd.meterMade (c : Cmd) : Meter :=
  { pkt := c.bit 21 0, cir := c.u32 4, cbs := c.u32 8, pir := c.u32 12, pbs := c.u32 16, overhead := c.i8 20, aware := c.bit 21 1,
    mark := c.bit 21 2, dei := c.bit 21 3, tile := c.tgt / 32768 }

section
variable {c : Cmd} {d : Dev} (hin : c.tgt / 32768 < d.nTiles) (hrun : d.tileRun (c.tgt / 32768) = true)
include hin hrun

/-- CMD_METER_SET of a legal meter; packet mode where each queue that uses it is of one sender, while the tile has room. -/
theorem bodyMeterSet_set (hact : c.u8 0 = 0)
    (hlegal : bucketBad (c.bit 21 0) (c.u32 4) (c.u32 8) (c.u32 12) (c.u32 16) (c.i8 20) = stOk)
    (hpkt : c.bit 21 0 = true → d.meterPriv c.tgt = true ∧ d.pktModeOn (c.tgt / 32768) < 1024) :
    bodyMeterSet c d = Dev.ok { d with meterNext := d.meterNext ++ [(d.qFrame, c.tgt, some c.meterMade)] } := by
  have hpriv : (c.bit 21 0 && !d.meterPriv c.tgt) = false := by
    cases hb : c.bit 21 0 with
    | false => rfl
    | true => simp [(hpkt hb).1]
  have hmode : (c.bit 21 0 && decide (1024 ≤ d.pktModeOn (c.tgt / 32768))) = false := by
    cases hb : c.bit 21 0 with
    | false => rfl
    | true => simp [Nat.not_le.2 (hpkt hb).2]
  rw [bodyMeterSet]
  dsimp only
  rw [if_neg (by omega), if_neg (by omega), if_clear (by simp [Dev.notRun, hrun]), if_neg (by omega), if_neg (not_not_intro hlegal),
    if_clear hpriv, if_clear hmode]
  rfl

/-- CMD_METER_SET that deletes a meter. -/
theorem bodyMeterSet_delete (hact : c.u8 0 = 1) (hthere : mhas d.meters c.tgt = true) :
    bodyMeterSet c d = Dev.ok { d with meterNext := d.meterNext ++ [(d.qFrame, c.tgt, none)] } := by
  rw [bodyMeterSet]
  dsimp only
  rw [if_neg (by omega), if_neg (by omega), if_clear (by simp [Dev.notRun, hrun]), if_pos hact, if_pos hthere]

end

/-! ## Gates (R307) -/

/-- When a schedule given now takes effect: at the boundary of the one in force, or at once. -/
def Dev.gateDue (d : Dev) (sub : Nat) : Raw := match mget d.gates sub with | some old => old.boundary (d.now + rawMs 1) | none => d.now

/-- The entries and the base time of the schedule that a CMD_GATE_SET describes. -/
def Cmd.gateEntries (c : Cmd) : List (Nat × Nat) := (List.range (c.u8 1)).map (fun i => (c.u32 (20 + 8 * i), c.u8 (24 + 8 * i)))
def Cmd.gateBase (c : Cmd) : Int := (c.u64 8 : Int) * 1000000000 + c.u32 16

section
variable {c : Cmd} {d : Dev} (hin : c.tgt < d.nSubs) (hrun : d.tileRun (tileOfSub c.tgt) = true)
include hin hrun

theorem bodyGateSet_set (hact : c.u8 0 = 0) (hsome : 1 ≤ c.u8 1) (hfew : c.u8 1 ≤ 64) (hlong : 10000 ≤ c.u32 4) (hshort : c.u32 4 ≤ 1000000000)
    (hns : c.u32 16 ≤ 999999999) (hnear : (c.gateBase - d.netNs).natAbs ≤ 140000 * 1000000000)
    (hsum : (c.gateEntries.map (fun e => e.1)).foldl (· + ·) 0 = c.u32 4) :
    bodyGateSet c d =
      Dev.ok
        { d with
          gateNext :=
            d.gateNext ++ [(c.tgt, some { cycle := c.u32 4, anchor := d.rawOfNs c.gateBase, entries := c.gateEntries }, d.gateDue c.tgt)] } := by
  rw [bodyGateSet, onSub_running hin hrun]
  dsimp only
  rw [if_neg (by omega), if_neg (by omega), if_within hsome hfew, if_within hlong hshort, if_neg (by omega)]
  exact (if_neg (Nat.not_lt.2 hnear)).trans (if_neg (not_not_intro hsum))

theorem bodyGateSet_clear (hact : c.u8 0 = 1) :
    bodyGateSet c d = Dev.ok { d with gateNext := d.gateNext ++ [(c.tgt, none, d.gateDue c.tgt)] } := by
  rw [bodyGateSet, onSub_running hin hrun]
  dsimp only
  rw [if_neg (by omega), if_pos hact]
  rfl

end

/-! ## Injection and status (R309, R310) -/

/-- CMD_QUEUE_INJECT into a queue without launch times of its own. -/
theorem bodyQueueInject_plain {c : Cmd} {d : Dev} {fs : List (Nat × Nat × List Byte)} (hnamed : d.queueNamed c.tgt = true) (hsome : 1 ≤ c.u8 0)
    (hfew : c.u8 0 ≤ 64) (hlive : d.queueLive (d.queue c.tgt) = true) (hframes : injectFrames c.params (c.u8 0) 4 = some fs)
    (hlaunch : (d.queue c.tgt).launch ≠ 2) :
    bodyQueueInject c d =
      { dev := (Dev.inject c.tgt false fs 0 d).2.2, st := if (Dev.inject c.tgt false fs 0 d).2.1 then stNoResource else stOk,
        applied := (Dev.inject c.tgt false fs 0 d).1 } := by
  rw [bodyQueueInject, withQueue_named hnamed, if_within hsome hfew, if_set hlive, hframes]
  simp only [decide_eq_false hlaunch, Bool.false_and, Bool.false_eq_true, if_false]

section
variable {c : Cmd} {d : Dev} (hin : d.nodeOut (c.u8 1) c.tgt (c.u8 2) = false)
  (hhere : d.nodeHere (c.u8 1) (nodeOf (c.u8 1) c.tgt (c.u8 2)) = true) (hrun : d.tileRun (d.tileOfNode (c.u8 1) c.tgt) = true)
include hin hhere hrun

theorem bodyQmStatus_occupancy (hwhat : c.u8 0 = 0) (hkind : c.u8 1 = 0) (hqueue : mhas d.queues c.tgt = true) :
    bodyQmStatus c d = d.ok (leBytes 4 (d.queue c.tgt).occ) := by
  have hnode : nodeOf (c.u8 1) c.tgt (c.u8 2) = c.tgt := by rw [hkind]; rfl
  rw [bodyQmStatus]
  dsimp only
  rw [if_neg (by omega), if_clear (by simp [hwhat, hkind]), if_clear hin, if_clear (by simp [hhere, Dev.notRun, hrun]), if_pos hwhat, hnode,
    get_queue hqueue]

theorem bodyQmStatus_levels (hwhat : c.u8 0 = 1) (hkind : c.u8 1 ≤ 5) {s : Shaper}
    (hs : d.shaperNow (nodeOf (c.u8 1) c.tgt (c.u8 2)) = some s) : bodyQmStatus c d = d.ok (lvlBytes s.cLvl ++ lvlBytes s.pLvl) := by
  rw [bodyQmStatus]
  dsimp only
  rw [if_neg (by omega), if_clear (by simp [hwhat, hkind]), if_clear hin, if_clear (by simp [hhere, Dev.notRun, hrun]), if_neg (by omega),
    if_pos hwhat, hs]

theorem bodyQmStatus_children (hwhat : c.u8 0 = 2) (hnode : 1 ≤ c.u8 1) (hkind : c.u8 1 ≤ 5) :
    bodyQmStatus c d =
      d.ok (leBytes 4 ((d.childrenOf (c.u8 1) c.tgt (c.u8 2)).take 900).length
        ++ ((d.childrenOf (c.u8 1) c.tgt (c.u8 2)).take 900).flatMap (leBytes 4)) := by
  have hnode' : c.u8 1 ≠ 0 := by omega
  rw [bodyQmStatus]
  dsimp only
  rw [if_neg (by omega), if_clear (by simp [hwhat, hkind, hnode']), if_clear hin, if_clear (by simp [hhere, Dev.notRun, hrun]),
    if_neg (by omega), if_neg (by omega)]

end

/-! ## The obligation -/

/-- Settles O22: each body past the guards that its clause meets. -/
theorem trafficCommandsTakeEffectAtTheirFrame : Obligations.TrafficCommandsTakeEffectAtTheirFrame := by
  unfold Obligations.TrafficCommandsTakeEffectAtTheirFrame
  refine ⟨?createUp, ?createDown, ?modify, ?delete, ?node, ?shape, ?detach, ?meter, ?unmeter, ?gate, ?ungate, ?inject, ?occupancy, ?levels,
    ?children⟩
  case createUp =>
    refine answers_row _ _ _ _ _ (fun _ _ => rfl) fun _ _ _
      ⟨hup, hok, hsub, hgroup, hcls, hcells, hmax, hyellow, hred, hweight, hheavy, hlaunch, hofs, htol, hnew, hplace, hrun, hroom⟩ => ?_
    exact bodyQueueCreate_up hok hcells hmax hyellow hred hweight hheavy hofs htol hnew hup hsub hgroup hcls hlaunch hplace hrun hroom
  case createDown =>
    refine answers_row _ _ _ _ _ (fun _ _ => rfl) fun _ _ _
      ⟨hdown, hok, htid, hcls, hcells, hmax, hyellow, hred, hweight, hheavy, hlaunch, hgate, hofs, htol, hnew, hterm, hplace, hrun, hroom⟩ => ?_
    exact bodyQueueCreate_down hok hcells hmax hyellow hred hweight hheavy hofs htol hnew hdown htid hcls hlaunch hgate hterm hplace hrun hroom
  case modify =>
    exact answers_row _ _ _ _ _ (fun _ _ => rfl) fun _ _ _
      ⟨hnamed, hcells, hmax, hyellow, hred, hweight, hheavy, hlaunch, hdown, hofs, htol⟩ =>
        bodyQueueModify_legal hnamed hcells hmax hyellow hred hweight hheavy hlaunch hdown hofs htol
  case delete => exact answers_row _ _ _ _ _ (fun _ _ => rfl) fun _ _ _ hnamed => withQueue_named hnamed _
  case node =>
    exact answers_row _ _ _ _ _ (fun _ _ => rfl) fun _ _ _ ⟨hkind, hin, hweight, hheavy, hhere, hrun⟩ =>
      bodyNodeConfig_legal hkind hin hweight hheavy hhere hrun
  case shape =>
    exact answers_row _ _ _ _ _ (fun _ _ => rfl) fun _ _ _ ⟨hkind, hact, hin, hhere, hrun, hlegal, hpkt, hroom⟩ =>
      bodyShaperSet_set hkind hin hhere hrun hact hlegal hpkt hroom
  case detach =>
    exact answers_row _ _ _ _ _ (fun _ _ => rfl) fun _ _ _ ⟨hkind, hact, hin, hhere, hrun, hthere⟩ =>
      bodyShaperSet_detach hkind hin hhere hrun hact hthere
  case meter =>
    exact answers_row _ _ _ _ _ (fun _ _ => rfl) fun _ _ _ ⟨hin, hact, hrun, hlegal, hpkt⟩ => bodyMeterSet_set hin hrun hact hlegal hpkt
  case unmeter =>
    exact answers_row _ _ _ _ _ (fun _ _ => rfl) fun _ _ _ ⟨hin, hact, hrun, hthere⟩ => bodyMeterSet_delete hin hrun hact hthere
  case gate =>
    exact answers_row _ _ _ _ _ (fun _ _ => rfl) fun _ _ _ ⟨hin, hrun, hact, hsome, hfew, hlong, hshort, hns, hnear, hsum⟩ =>
      bodyGateSet_set hin hrun hact hsome hfew hlong hshort hns hnear hsum
  case ungate => exact answers_row _ _ _ _ _ (fun _ _ => rfl) fun _ _ _ ⟨hin, hrun, hact⟩ => bodyGateSet_clear hin hrun hact
  case inject =>
    refine runs_row _ _ _ _ (fun _ _ => rfl) fun c d _ ⟨hnamed, hsome, hfew, hlive, hframes, hlaunch⟩ => ?_
    obtain ⟨fs, hfs⟩ := Option.isSome_iff_exists.1 hframes
    rw [hfs]
    exact bodyQueueInject_plain hnamed hsome hfew hlive hfs hlaunch
  case occupancy =>
    refine answers_row _ _ _ _ _ (fun _ _ => rfl) fun c d _ ⟨hwhat, hkind, hok, hqueue, hrun⟩ => ?_
    refine bodyQmStatus_occupancy ?_ ?_ ?_ hwhat hkind hqueue <;> rw [hkind]
    · simp [Dev.nodeOut, hok]
    · exact hqueue
    · exact hrun
  case levels =>
    refine answers_row _ _ _ _ _ (fun _ _ => rfl) fun c d _ ⟨hwhat, hkind, hin, hhere, hrun, hsome⟩ => ?_
    obtain ⟨s, hs⟩ := Option.isSome_iff_exists.1 hsome
    rw [hs]
    exact bodyQmStatus_levels hin hhere hrun hwhat hkind hs
  case children =>
    exact answers_row _ _ _ _ _ (fun _ _ => rfl) fun _ _ _ ⟨hwhat, hnode, hkind, hin, hhere, hrun⟩ =>
      bodyQmStatus_children hin hhere hrun hwhat hnode hkind

end Sys2Proof.Machine

/-! PROOFS. Queues at work: admission, release, refill, dequeue, launch and gates (O23). -/

namespace Sys2Proof.Machine

/-! ## What a waiting frame's way into its queue leaves (R82, R193) -/

/-- The time, the variant, the supply and the state of every tile are as they were: a tile that takes frames goes on to. -/
structure KeepsRunning (d e : Dev) : Prop where
  variant : e.variant = d.variant
  time : e.time = d.time
  pfw : e.pwr.pfw = d.pwr.pfw
  st (u : Nat) : (e.tile u).st = (d.tile u).st

theorem KeepsRunning.refl (d : Dev) : KeepsRunning d d := ⟨rfl, rfl, rfl, fun _ => rfl⟩
theorem KeepsRunning.trans {d e f : Dev} (h : KeepsRunning d e) (g : KeepsRunning e f) : KeepsRunning d f :=
  ⟨g.variant.trans h.variant, g.time.trans h.time, g.pfw.trans h.pfw, fun u => (g.st u).trans (h.st u)⟩
theorem Raises.keepsRunning {d e : Dev} (h : Raises d e) : KeepsRunning d e :=
  ⟨h.variant, h.time, by rw [h.pwr], fun u => congrArg Tile.st (tile_congr h.tiles u)⟩
theorem OnlyTiles.keepsRunning {d e : Dev} (h : OnlyTiles Tile.st d e) : KeepsRunning d e :=
  ⟨by rw [h.same], by rw [h.same], by rw [h.same], h.tile⟩

theorem KeepsRunning.tileRun {d e : Dev} (h : KeepsRunning d e) (t : Nat) : e.tileRun t = d.tileRun t := by
  unfold Dev.tileRun Dev.nTiles; rw [h.variant, h.st, h.pfw]

theorem KeepsRunning.queueLive {d e : Dev} (h : KeepsRunning d e) (q : Queue) : e.queueLive q = d.queueLive q := by
  have hnow : e.netU = d.netU := by simp only [Dev.netU, Dev.netUAt, Dev.now, h.time]
  have hframe : e.frame = d.frame := by simp only [Dev.frame, Dev.frameI, Dev.frameClockU, Dev.phiU, hnow, Dev.now, h.time]
  unfold Dev.queueLive; rw [hframe]

theorem crossHold_keepsRunning (d : Dev) (t group k : Nat) : KeepsRunning d (d.crossHold t group k) := by
  have hst (e : Dev) (f : Tile → Tile) (hf : ∀ x, (f x).st = x.st) : KeepsRunning e (e.updTile t f) := (updTile_onlyTiles hf e t).keepsRunning
  unfold Dev.crossHold
  dsimp only
  split
  · exact KeepsRunning.refl d
  · split
    · exact hst d _ fun _ => rfl
    · refine ((hst d _ ?_).trans (hst _ _ ?_)).trans (raise_raises _ _ _ _ _ _ _ _ _).keepsRunning
      all_goals exact fun _ => rfl

theorem wake_keepsRunning (d : Dev) (tid : Nat) : KeepsRunning d (d.wake tid).2 := by
  have hterm (f : Terminal → Terminal) : KeepsRunning d (d.updTerm tid f) := ⟨rfl, rfl, rfl, fun _ => rfl⟩
  unfold Dev.wake
  split
  · exact KeepsRunning.refl d
  · split
    · dsimp only
      split
      · exact hterm _
      · exact KeepsRunning.refl d
    · exact hterm _
    · exact KeepsRunning.refl d
    · exact KeepsRunning.refl d
    · exact (count_talks d _ _ _).raises.keepsRunning

/-! ## Admission (R294) -/

/-- The device in which the admission of a frame for a queue is decided: a downstream queue's terminal woken, or the frame held at the
crossing of a sub-port whose clock is off. -/
def Dev.reachedQueue (d : Dev) (k : Nat) (x : Queue) : Dev :=
  if x.down then (d.wake x.tid).2 else if d.macOn x.subport then d else d.crossHold (d.tileOfQueue k) 2 (x.subport % 8)

theorem reachedQueue_keepsRunning (d : Dev) (k : Nat) (x : Queue) : KeepsRunning d (d.reachedQueue k x) := by
  unfold Dev.reachedQueue
  split
  · exact wake_keepsRunning d _
  · split
    · exact KeepsRunning.refl d
    · exact crossHold_keepsRunning d _ _ _

/-- A frame stored for a queue joins its end and is counted. -/
def Dev.joinQueue (d : Dev) (q : EnqueueReq) (x : Queue) (f : QFrame) : Dev :=
  let e : Dev := { d with queues := mput d.queues q.queue { x with frames := x.frames ++ [f] } }
  ((if x.down then e.updTerm x.tid (fun t => { t with lastDsFrame := e.frame }) else e).count .enqFrames q.queue).count .enqBytes q.queue
    q.frame.length

/-- What the tile's pool gives a frame of a queue: its cells, with which it joins the queue, or none. -/
def Dev.stored (q : EnqueueReq) (x : Queue) (launch : Option Raw) : Option Nat × Dev → Dev
  | (none, e) => e.count .poolEmpty q.queue
  | (some ptr, e) => e.joinQueue q x { ptr := ptr, bytes := q.frame, len := q.frame.length, color := colorOf q.color, launch := launch }

section
variable {d : Dev} {q : EnqueueReq} {x : Queue} (hq : mget d.queues q.queue = some x) (hrun : d.tileRun (d.tileOfQueue q.queue) = true)
  (hlive : d.queueLive x = true) (hlen : q.frame.length ≤ 16384) (hgate : d.gateNever x (q.frame.length + d.growOf q.queue) = false)
include hq hrun hlive hlen hgate

/-- A frame that its queue may take meets the queue's limit, then the tile's pool. -/
theorem opFrameEnqueue_live :
    d.opFrameEnqueue q =
      if x.limit (colorOf q.color) < x.occ + cellsOf q.frame.length then (d.reachedQueue q.queue x).count (dropCnt (colorOf q.color)) q.queue
      else Dev.stored q x (d.launchOf x none)
        ((d.reachedQueue q.queue x).takeCells (d.tileOfQueue q.queue) (cellsOf q.frame.length) q.count q.last x.priv) := by
  have hreach : (if x.down && (if !x.down && !d.macOn x.subport then d.crossHold (d.tileOfQueue q.queue) 2 (x.subport % 8)
        else d).tileRun (d.tileOfQueue q.queue) && (if !x.down && !d.macOn x.subport then d.crossHold (d.tileOfQueue q.queue) 2 (x.subport % 8)
        else d).queueLive x then ((if !x.down && !d.macOn x.subport then d.crossHold (d.tileOfQueue q.queue) 2 (x.subport % 8)
        else d).wake x.tid).2 else (if !x.down && !d.macOn x.subport then d.crossHold (d.tileOfQueue q.queue) 2 (x.subport % 8) else d))
        = d.reachedQueue q.queue x := by
    unfold Dev.reachedQueue
    cases x.down <;> cases d.macOn x.subport <;> simp [hrun, hlive]
  have hlate : (decide (x.launch = 2) && (d.launchOf x none).any (fun l => decide ((x.lateTol : Int) < d.lateness l))) = false := by
    by_cases h : x.launch = 2
    · simp [Dev.launchOf, h]
    · simp [h]
  have hkeep := reachedQueue_keepsRunning d q.queue x
  unfold Dev.opFrameEnqueue Dev.enqueue
  simp only [hq, hreach]
  rw [if_set (by rw [hkeep.tileRun, hrun]), if_set (by rw [hkeep.queueLive, hlive]), if_neg (by omega), if_clear hlate, if_clear hgate]
  split
  · rfl
  · generalize (d.reachedQueue q.queue x).takeCells (d.tileOfQueue q.queue) (cellsOf q.frame.length) q.count q.last x.priv = got
    obtain ⟨_ | ptr, e⟩ := got <;> rfl

end

/-! ## Release (R291) -/

/-- A pool keeps the details of its first refused release. -/
def Pool.refused (p : Pool) (ptr : BitVec 32) (party : Nat) : Pool :=
  if p.badValid then p
  else { p with badValid := true, badPtr := BitVec.ofNat 32 ptr.toNat, badParty := party, badReason := p.badRelease ptr.toNat party }

section
variable {d : Dev} {tile : Nat} {ptr : BitVec 32} {party : Nat} (hrun : d.tileRun tile = true)
include hrun

theorem opFrameRelease_stored (hgood : (d.pool tile).badRelease ptr.toNat party = 0) :
    d.opFrameRelease tile ptr party =
      (if party = 3 then d.updCls tile (fun c => { c with excQ := dropExc ptr.toNat c.excQ }) else d).setPool tile
        ((d.pool tile).release ptr.toNat party) := by
  have hpool (f : ClsTile → ClsTile) (p : Prop) [Decidable p] : (if p then d.updCls tile f else d).pool tile = d.pool tile := by
    split <;> rfl
  unfold Dev.opFrameRelease
  rw [if_set hrun]
  unfold Dev.release
  simp only [hgood, decide_true, Bool.and_true, decide_eq_true_eq, hpool, if_true]

/-- A release that is refused is counted and raises F2 (R291). -/
theorem opFrameRelease_refused (hbad : (d.pool tile).badRelease ptr.toNat party ≠ 0) :
    ∃ e : Dev, Talks ((if (d.pool tile).badValid then d else d.setPool tile ((d.pool tile).refused ptr party))) e ∧
      d.opFrameRelease tile ptr party = e.raise 0x09 0x01 2 tile tile ptr.toNat false := by
  unfold Dev.opFrameRelease Dev.release Pool.refused
  rw [if_set hrun]
  simp only [hbad, decide_false, Bool.and_false, Bool.false_eq_true, if_false]
  cases (d.pool tile).badValid
  all_goals exact ⟨_, count_talks _ _ _ _, rfl⟩

theorem opFrameRelease_raises (hbad : (d.pool tile).badRelease ptr.toNat party ≠ 0) :
    Raised (d.opFrameRelease tile ptr party) 0x09 0x01 tile tile ∧
      (d.opFrameRelease tile ptr party).pool tile = (d.pool tile).refused ptr party ∧
      Raises { d with pools := (d.opFrameRelease tile ptr party).pools } (d.opFrameRelease tile ptr party) := by
  obtain ⟨e, htalks, heq⟩ := opFrameRelease_refused hrun hbad
  have hraise := raise_raises e 0x09 0x01 2 tile tile ptr.toNat false false
  rw [heq]
  have hpools := hraise.pools.trans htalks.pools
  refine ⟨raise_raised _ _ _ _ _ _ _ _ _, ?pool, ?rest⟩
  case pool =>
    unfold Dev.pool
    rw [hpools]
    unfold Pool.refused
    cases h : (d.pool tile).badValid <;> simp [Dev.setPool, Dev.pool] at *
    all_goals simp [h]
  case rest =>
    rw [hpools]
    refine Raises.trans ?_ hraise
    cases h : (d.pool tile).badValid <;> simp only [h, Bool.false_eq_true, if_false, if_true] at htalks ⊢
    all_goals exact htalks.raises

end

/-! ## Dequeue and launch (R295, R304, R306) -/

theorem opLaunchTimeReached_due {d : Dev} {queue : Nat} {q : Queue} {x : QFrame} {xs : List QFrame} {t : Raw}
    (hq : mget d.queues queue = some q) (hhead : q.frames = x :: xs) (hlaunch : q.launch ≠ 0) (hopen : d.txOpen q.subport = true)
    (hdue : x.launch = some t) (hidle : reached (d.advanceTo t).now ((d.advanceTo t).sub q.subport).busyUntil = true) :
    d.opLaunchTimeReached queue = (Dev.launchServe (q.frames.length + 1) queue (d.advanceTo t)).2 := by
  unfold Dev.opLaunchTimeReached
  simp only [hq, hhead, hdue]
  rw [if_neg (by simp [hlaunch, hopen]), if_pos hidle]

/-- Settles O23: the admission of a frame through the lemma that says which device decides it, the release through the pool's refusal, the
other events by their equations. -/
theorem framesEnterAndLeaveQueues : Obligations.FramesEnterAndLeaveQueues := by
  unfold Obligations.FramesEnterAndLeaveQueues
  refine ⟨?admitted, ?dropped, ?released, ?refused, ?refill, ?sub, ?chan, ?launch, ?gate⟩
  case admitted =>
    rintro d q x y z ptr e ⟨hq, hrun, hlive, hlen, hgate, rfl, hroom, hcells, rfl⟩
    refine becomes_of (f := fun d => d.opFrameEnqueue q) (fun _ => rfl) ?_
    change (d.reachedQueue q.queue x).takeCells _ _ _ _ _ = _ at hcells
    rw [opFrameEnqueue_live hq hrun hlive hlen hgate, if_neg (by omega), hcells]
    rfl
  case dropped =>
    rintro d q x y ⟨hq, hrun, hlive, hlen, hgate, rfl, hfull⟩
    refine becomes_of (f := fun d => d.opFrameEnqueue q) (fun _ => rfl) ?_
    rw [opFrameEnqueue_live hq hrun hlive hlen hgate, if_pos hfull]
    rfl
  case released =>
    rintro d tile ptr party ⟨hrun, hgood⟩
    exact becomes_of (f := fun d => d.opFrameRelease tile ptr party) (fun _ => rfl) (opFrameRelease_stored hrun hgood)
  case refused =>
    rintro d tile ptr party ⟨hrun, hbad⟩
    exact leaves_of (f := fun d => d.opFrameRelease tile ptr party) (fun _ => rfl) (opFrameRelease_raises hrun hbad)
  case refill => exact fun d => becomes_of (f := fun d => d.opShaperRefill) (fun _ => rfl) rfl
  case sub =>
    rintro d sub node ⟨rfl, hopen⟩
    exact becomes_of (f := fun d => d.opFrameDequeue true node) (fun _ => rfl) (if_set hopen)
  case chan =>
    rintro d sub node ⟨rfl, hopen⟩
    exact becomes_of (f := fun d => d.opFrameDequeue false node) (fun _ => rfl) (if_pos hopen)
  case launch =>
    rintro d queue q x xs t ⟨hq, hhead, hlaunch, hopen, hdue, hidle⟩
    exact becomes_of (f := fun d => d.opLaunchTimeReached queue) (fun _ => rfl) (opLaunchTimeReached_due hq hhead hlaunch hopen hdue hidle)
  case gate =>
    rintro d sub g a ⟨hg, rfl⟩
    refine becomes_of (f := fun d => d.opGateBoundary sub) (fun _ => rfl) ?_
    unfold Dev.opGateBoundary
    simp only [hg]

end Sys2Proof.Machine

/-! PROOFS. PON encryption: the MSK, the key exchange, its renewal and its end (O16). -/

namespace Sys2Proof.Machine

/-- The OLT's side of an authentication accepted: a terminal's MSK, OMCI key and KEK (R335). -/
def Dev.ponAuthed (d : Dev) (tid slot : Nat) (msk : List Byte) : Dev :=
  (d.setPon tid { d.ponKey tid with
     mskKey := some msk
     omciKey := some (bytesAt (Config.ponOmciKey msk) 0 16)
     kek := some (bytesAt (Config.ponKek msk) 0 16)
     mskSlot := slot }).updTerm tid (fun t => { t with msk := some slot })

theorem ponAuthed_inService (d : Dev) (tid slot : Nat) (msk : List Byte) : (d.ponAuthed tid slot msk).inService tid = d.inService tid := by
  simp only [Dev.inService, Dev.ponAuthed, Dev.updTerm, Dev.setPon, mget_mmod]
  cases mget d.terms tid <;> rfl

/-- CMD_PON_MSK with the right result. -/
theorem bodyPonMsk_right {c : Cmd} {d : Dev} (hterm : d.termNamed c.tgt = true) (hkind : (d.term c.tgt).ch % 4 ≠ 0)
    (hslot : d.slotUsable (c.u8 0) 4 = true)
    (hresult : c.bs 33 16 = bytesAt (Config.ponOnuResult (d.pslot (c.u8 0)).key (c.bs 1 16) (c.bs 17 16) (d.term c.tgt).serial) 0 16) :
    bodyPonMsk c d =
      (((fun (e : Dev) => if d.inService c.tgt && (d.ponKey c.tgt).use.isNone then e.ponStart c.tgt else e)
        (d.ponAuthed c.tgt (c.u8 0) (bytesAt (Config.ponMsk (d.pslot (c.u8 0)).key (c.bs 1 16 ++ c.bs 17 16) (d.term c.tgt).serial) 0 16))).ok
        (padBytes (bytesAt (Config.ponOltResult (d.pslot (c.u8 0)).key (c.bs 1 16) (c.bs 17 16) (d.term c.tgt).serial) 0 16))) := by
  have hlive := ponAuthed_inService d c.tgt (c.u8 0)
  rw [bodyPonMsk, withTerm_named hterm, if_neg hkind, slotFor_usable hslot]
  dsimp only
  rw [if_neg (not_not_intro hresult)]
  rw [← hlive]
  rfl

/-- CMD_PON_KEY_CFG of a channel or of a terminal. -/
theorem bodyPonKeyCfg_legal {c : Cmd} {d : Dev}
    (hform : c.u8 0 = 0 ∧ d.chanOk c.tgt = true ∧ d.tileRun (tileOfChan c.tgt) = true ∨ c.u8 0 = 1 ∧ d.termNamed c.tgt = true)
    (hs : c.u32 4 = 0 ∨ 60 ≤ c.u32 4 ∧ c.u32 4 ≤ 86400) :
    bodyPonKeyCfg c d = Dev.ok (if c.u8 0 = 0 then { d with msec := { d.msec with ponRekey := mput d.msec.ponRekey c.tgt (c.u32 4) } }
      else d.setPon c.tgt { d.ponKey c.tgt with rekeyS := some (c.u32 4) }) := by
  rw [bodyPonKeyCfg]
  dsimp only
  rw [if_neg (by omega), if_clear (by simp; omega)]
  rcases hform with ⟨hchan, hch, hrun⟩ | ⟨hone, hterm⟩
  · rw [if_pos hchan, if_pos hchan, onChan_running hch hrun]
  · rw [if_neg (by omega), if_neg (by omega), withTerm_named hterm]

/-- CMD_PON_KEY_ROLL of a terminal in service whose MSK is there. -/
theorem bodyPonKeyRoll_ready {c : Cmd} {d : Dev} (hterm : d.termNamed c.tgt = true) (hserv : d.inService c.tgt = true)
    (hkek : (d.term c.tgt).ch % 4 = 0 ∨ (d.ponKey c.tgt).kek.isSome = true) : bodyPonKeyRoll c d = Dev.ok (d.ponStart c.tgt) := by
  rw [bodyPonKeyRoll, withTerm_named hterm]
  refine if_clear ?_
  rcases hkek with h | h
  · simp [hserv, h]
  · simp [hserv, h]

section
variable {d : Dev} {tid : Nat} {k : KeyMsg} (hserv : d.inService tid = true) (hrun : d.tileRun (d.tileOfTerm tid) = true)
include hserv hrun

section
variable (hreq : (d.ponKey tid).req ≠ 0) (hok : k.ok = true) (hfrags : (d.ponKey tid).frags = [])
include hreq hok hfrags

/-- A key message of a terminal whose exchange has no fragment yet (R334). -/
theorem opEncryptionKey_first :
    d.opEncryptionKey tid k =
      if 1 < k.frags then d.setPon tid { d.ponKey tid with frags := [(k.frag, k.key)], fragFrame := d.frame }
      else if d.termKind tid = 0 then d.ponWrite tid k.key
      else match (d.ponKey tid).kek with
        | some kek => d.ponWrite tid (bytesAt (Config.ponKeyUnwrap kek k.key) 0 16)
        | none => (d.setPon tid { d.ponKey tid with frags := [] }).countCT .ponKeyFail (d.chanOfTerm tid) tid := by
  unfold Dev.opEncryptionKey
  dsimp only
  rw [if_clear (by simp [hserv, hrun]), if_neg hreq, if_set hok, hfrags]
  simp [mput] <;> rfl

end

theorem opAcknowledge_pending (hkind : d.termKind tid ≠ 0) (hpend : (d.ponKey tid).pendSlot.isSome = true)
    (hswitch : (d.ponKey tid).switchAt = none) :
    d.opAcknowledge tid = d.setPon tid { d.ponKey tid with switchAt := some (lowBits 48 (d.frameI + 1)) } :=
  if_pos (by simp [hserv, hrun, hkind, hpend, hswitch])

theorem opPonRekeyTimer_due (hperiod : 0 < d.rekeyPeriod tid) (huse : (d.ponKey tid).use.isSome = true) :
    d.opPonRekeyTimer tid = (d.advanceTo (d.ponKey tid).nextRoll).ponStart tid :=
  if_pos (by simp [hserv, hrun, hperiod, huse])

end

section
variable {d : Dev} {tid : Nat} (hrun : d.tileRun (d.tileOfTerm tid) = true)
  (hserv : (d.advanceTo ((d.ponKey tid).reqAt + rawS 1)).inService tid = true)
include hrun hserv

/-- An unanswered request is repeated or, the third time, given up (R336). -/
theorem opPonKeyRetry_unanswered (hreq : (d.ponKey tid).req ≠ 0) :
    d.opPonKeyRetry tid =
      if (d.ponKey tid).req < 3 then
        Dev.ponAsk ((d.advanceTo ((d.ponKey tid).reqAt + rawS 1)).setPon tid
          { d.ponKey tid with req := (d.ponKey tid).req + 1, reqAt := (d.advanceTo ((d.ponKey tid).reqAt + rawS 1)).now }) tid
      else (d.advanceTo ((d.ponKey tid).reqAt + rawS 1)).ponFailed tid := by
  unfold Dev.opPonKeyRetry
  dsimp only
  rw [if_clear (by simp [hreq, hrun]), if_set hserv]

end

/-- Settles O16: the bodies under their premises, and one equation for a key message, an acknowledgement and each timer. -/
theorem ponKeysAreExchangedAndRolled : Obligations.PonKeysAreExchangedAndRolled := by
  unfold Obligations.PonKeysAreExchangedAndRolled
  refine ⟨?msk, ?cfg, ?roll, ?status, ?keyG, ?keyX, ?fragment, ?ack, ?rekey, ?retry, ?failed, ?old⟩
  case msk =>
    refine answers_row _ _ _ _ _ (fun _ _ => rfl) fun c d _ ⟨hterm, hkind, hready, hlife, hslot, hstale, hresult⟩ => ?_
    refine bodyPonMsk_right hterm hkind ?_ hresult
    rcases hlife with h | h <;> simp [Dev.slotUsable, hready, h, hslot, hstale]
  case cfg => exact answers_row _ _ _ _ _ (fun _ _ => rfl) fun _ _ _ ⟨hform, hs⟩ => bodyPonKeyCfg_legal hform hs
  case roll => exact answers_row _ _ _ _ _ (fun _ _ => rfl) fun _ _ _ ⟨hterm, hserv, hkek⟩ => bodyPonKeyRoll_ready hterm hserv hkek
  case status => exact answers_row _ _ _ _ _ (fun _ _ => rfl) fun _ _ _ hterm => withTerm_named hterm _
  case keyG =>
    rintro d tid k ⟨hserv, hrun, hreq, hkind, hok, hwhole, hfrags⟩
    refine becomes_of (f := fun d => d.opEncryptionKey tid k) (fun _ => rfl) ((opEncryptionKey_first hserv hrun hreq hok hfrags).trans ?_)
    rw [if_neg (by omega), if_pos hkind]
  case keyX =>
    rintro d tid k kek ⟨hserv, hrun, hreq, hkind, hkek, hok, hwhole, hfrags⟩
    refine becomes_of (f := fun d => d.opEncryptionKey tid k) (fun _ => rfl) ((opEncryptionKey_first hserv hrun hreq hok hfrags).trans ?_)
    rw [if_neg (by omega), if_neg hkind, hkek]
  case fragment =>
    rintro d tid k ⟨hserv, hrun, hreq, hok, hpart, hfrags⟩
    exact becomes_of (f := fun d => d.opEncryptionKey tid k) (fun _ => rfl)
      ((opEncryptionKey_first hserv hrun hreq hok hfrags).trans (if_pos hpart))
  case ack =>
    rintro d tid ⟨hserv, hrun, hkind, hpend, hswitch⟩
    exact becomes_of (f := fun d => d.opAcknowledge tid) (fun _ => rfl) (opAcknowledge_pending hserv hrun hkind hpend hswitch)
  case rekey =>
    rintro d tid ⟨hserv, hrun, hperiod, huse⟩
    exact becomes_of (f := fun d => d.opPonRekeyTimer tid) (fun _ => rfl) (opPonRekeyTimer_due hserv hrun hperiod huse)
  case retry =>
    rintro d tid ⟨hreq, hfew, hrun, hserv⟩
    exact becomes_of (f := fun d => d.opPonKeyRetry tid) (fun _ => rfl) ((opPonKeyRetry_unanswered hrun hserv hreq).trans (if_pos hfew))
  case failed =>
    rintro d tid ⟨hthird, hrun, hserv⟩
    exact becomes_of (f := fun d => d.opPonKeyRetry tid) (fun _ => rfl)
      ((opPonKeyRetry_unanswered hrun hserv (by omega)).trans (if_neg (by omega)))
  case old =>
    rintro d tid s t ⟨hold, hzero⟩
    refine becomes_of (f := fun d => d.opPonOldKeyZeroise tid) (fun _ => rfl) ?_
    unfold Dev.opPonOldKeyZeroise
    simp only [hold, hzero]

end Sys2Proof.Machine

/-! PROOFS. CMD_MSEC_SECY of a handle beyond the package's (refutes O24). -/

namespace Sys2Proof.Machine

/-- A SecY whose handle lies beyond those of the variant, on a tile that runs. -/
def strayDev : Dev :=
  { rst := { stage := .ready }
    pwr := { pstate := .operating }
    tiles := [(0, { st := .run })]
    senders := [(1, { caps := 0xFFFF#16 })]
    msec := { secys := [(1024, {})] } }

/-- CMD_MSEC_SECY of that handle, with the action that deletes. -/
def strayDelete : Packet := sg specMsecSecy 1024 ([1] ++ zeroBytes 27)

theorem strayDelete_passes : WitOk specMsecSecy strayDelete strayDev
    (fun (c : Cmd) (d : Dev) => (d.secyNamed c.tgt = true ∧ c.u8 0 = 1) ∧ 256 * d.nTiles ≤ c.tgt) :=
  wit_signed _ _ _ _ (by decide +kernel) (by decide +kernel)

theorem mget_mdel {α : Type} (m : List (Nat × α)) (k : Nat) : mget (mdel m k) k = none := by
  simp only [mget, mdel, List.lookup_eq_none_iff, List.mem_filter, bne_iff_ne]
  rintro ⟨a, v⟩ ⟨-, hne⟩
  exact Ne.symm hne

/-- CMD_MSEC_SECY of a handle beyond those of the variant is refused with ST_RANGE: every SecY stays. -/
theorem runBody_msecSecy_beyond {c : Cmd} {d : Dev} (hbeyond : 256 * d.nTiles ≤ c.tgt) :
    (Dev.runBody specMsecSecy c d).msec = d.msec := by
  have hrange : specMsecSecy.body c d = d.fail stRange ofsTgt := if_pos hbeyond
  simp only [Dev.runBody, Dev.bodyResult, hrange, Dev.fail, Bool.false_eq_true, if_false]
  exact (answer_talks _ _ _ _ _ _).msec

theorem transitFallback_secys (d : Dev) : d.transitFallback.msec.secys = d.msec.secys := by
  unfold Dev.transitFallback
  dsimp only
  split <;> rfl

/-- Refutes O24, in its clause on the deletion of a SecY, which says of every SecY listed that CMD_MSEC_SECY deletes it. A device may list one
beyond the handles 0 to 256 per tile less 1; the command refuses such a handle with ST_RANGE, and the SecY stays. -/
theorem not_msecCommandsSetSecuredLinks : ¬ Obligations.MsecCommandsSetSecuredLinks := by
  unfold Obligations.MsecCommandsSetSecuredLinks
  rintro ⟨-, -, -, hdelete, -⟩
  obtain ⟨hpass, hpre, hbeyond⟩ := strayDelete_passes
  have hdev := (becomes_iff_of_live (f := Dev.runCommand specMsecSecy strayDelete) fun _ => rfl).1 (hdelete strayDelete strayDev hpass hpre)
  rw [runCommand_passed specMsecSecy _ _ hpass] at hdev
  generalize Dev.cmdIn specMsecSecy strayDelete strayDev = c at hpre hbeyond hdev
  generalize Dev.devIn specMsecSecy strayDelete strayDev = d at hpre hbeyond hdev
  have hmodel : mget (Dev.runBody specMsecSecy c d).msec.secys c.tgt ≠ none := by
    rw [runBody_msecSecy_beyond hbeyond, (get_secy hpre.1).1]
    simp
  rw [hdev, (answer_talks _ _ _ _ _ _).msec, transitFallback_secys] at hmodel
  exact hmodel (mget_mdel _ _)

end Sys2Proof.Machine

/-! PROOFS. Secure associations: retiring slots, PN bounds, frames received and in transit, MKA (O25). -/

namespace Sys2Proof.Machine

theorem get_secy_listed {d : Dev} {h : Nat} (hlisted : mhas d.msec.secys h = true) : mget d.msec.secys h = some (d.secy h) := by
  obtain ⟨v, hv⟩ := get_of_has hlisted
  rw [hv]
  unfold Dev.secy
  rw [mgetD_of_get hv]

theorem get_sc_listed {d : Dev} {n : Nat} (hlisted : mhas d.msec.scs n = true) : d.scOf n = some (mgetD d.msec.scs n {}) := by
  obtain ⟨v, hv⟩ := get_of_has hlisted
  unfold Dev.scOf
  rw [mgetD_of_get hv, hv]

/-! ## PN bounds and reports (R319) -/

section
variable {d : Dev} {sa : Nat} (hlisted : mhas d.msec.scs (sa / 2) = true)
include hlisted

theorem opPnBoundRaise_near (htx : (mgetD d.msec.scs (sa / 2) {}).tx = true) (hst : (d.sa sa).st = .tx)
    (hnear : (d.sa sa).bound ≤ (d.sa sa).pn + 2 ^ 19) : d.opPnBoundRaise sa = d.raiseBound sa := by
  unfold Dev.opPnBoundRaise
  simp only [get_sc_listed hlisted]
  exact if_pos (by simpa [htx, hst] using hnear)

theorem opRxPnReport_receive (hrx : (mgetD d.msec.scs (sa / 2) {}).tx = false) (hst : (d.sa sa).st = .ready) :
    d.opRxPnReport sa = d.setSa sa { d.sa sa with top := max (d.sa sa).top (d.sa sa).best } := by
  unfold Dev.opRxPnReport
  simp only [get_sc_listed hlisted]
  exact if_pos (by simp [hrx, hst])

end

/-! ## Frames received (R313 to R315, R322) -/

/-- The SA slot of a receive SC that takes a frame's AN. -/
def Dev.rxSlot (d : Dev) (sc : Nat) (f : UplinkFrame) : Option Nat :=
  [2 * sc, 2 * sc + 1].find? (fun n => ((d.sa n).st = .ready || (d.sa n).st = .retiring) && (d.sa n).an = f.an && (d.sa n).loaded)

/-- The receive SC of a sub-port that a frame's SCI names. -/
def Dev.rxChan (d : Dev) (f : UplinkFrame) : Option (Nat × SecChan) :=
  d.msec.scs.find? (fun e => !e.2.tx && e.2.sci = Sys2Proof.Machine.UplinkFrame.sciOf f
    && (match mget d.msec.secys e.2.secy with | some y => y.subport = f.sub | none => false))

/-- A secure frame counted for its sub-port's bandwidth window. -/
def Dev.rxCounted (d : Dev) (f : UplinkFrame) : Dev := d.winAdd 0 f.sub 0 (f.frame.length + (if f.sci.isSome then 32 else 24)) 1

section
variable {d : Dev} {f : UplinkFrame} {sc n : Nat} {y : SecY}

theorem rxSa_noSlot (hslot : d.rxSlot sc f = none) :
    d.rxSa sc y f = d.count (if y.validate = .strict ∨ f.enc = true then .inNotUsingSa else .inUnusedSa) sc := by
  unfold Dev.rxSlot at hslot
  unfold Dev.rxSa
  simp only [hslot, Bool.or_eq_true, decide_eq_true_eq]

theorem rxSa_late (hslot : d.rxSlot sc f = some n) (hreplay : y.replay = true) (hlate : f.pn < (d.sa n).low) :
    d.rxSa sc y f = d.count .inLate n := by
  unfold Dev.rxSlot at hslot
  unfold Dev.rxSa
  simp only [hslot]
  exact if_pos (by simp [hreplay, hlate])

/-- A frame that replay protection does not hold back, on a SecY that validates. -/
theorem rxSa_validated (hslot : d.rxSlot sc f = some n) (htime : y.replay = false ∨ (d.sa n).low ≤ f.pn) (hval : y.validate ≠ .disabled) :
    d.rxSa sc y f =
      if f.icvOk then Dev.rxAccept (d.count (if f.pn < (d.sa n).low then .inDelayed else .inOk) n) n f.pn y.window
      else d.count (if y.validate = .strict ∨ f.enc = true then .inNotValid else .inInvalid) n := by
  unfold Dev.rxSlot at hslot
  unfold Dev.rxSa
  simp only [hslot]
  rw [if_clear (by rcases htime with h | h <;> simp [h]), if_neg hval]
  cases f.icvOk <;> simp only [Bool.not_true, Bool.not_false, if_true, if_false, Bool.false_eq_true, Bool.or_eq_true, decide_eq_true_eq]

end

section
variable {d : Dev} {f : UplinkFrame} (hrun : d.tileRun (tileOfSub f.sub) = true) (hen : (d.sub f.sub).enabled = true)
  (hup : (d.sub f.sub).up = true)
include hrun hen hup

section
variable (htag : f.secTag = true)
include htag

/-- A frame with a bad SecTAG is counted for SecY 0. -/
theorem opUplinkFrameRx_badTag {y : Nat} {z : SecY} (hbad : f.badTag = true ∨ (f.sci.isSome = true ∧ (f.es = true ∨ f.scb = true)))
    (hsecy : d.secyOf f.sub 0 = some (y, z)) : d.opUplinkFrameRx f = (d.rxCounted f).count .inBadTag y := by
  have hflag : (f.badTag || f.sci.isSome && (f.es || f.scb)) = true := by simpa using hbad
  have hzero : ∀ b, (d.winAdd 0 f.sub 0 b 1).secyOf f.sub 0 = some (y, z) := fun _ => hsecy
  unfold Dev.opUplinkFrameRx
  rw [if_clear (by simp [hrun, hen, hup])]
  simp only [htag, hflag, hzero, Bool.not_true, Bool.false_eq_true, if_true, if_false]
  rfl

variable (hgood : f.badTag = false) (hsci : f.sci = none ∨ (f.es = false ∧ f.scb = false))
include hgood hsci

/-- A frame with a good SecTAG is matched to the receive SC that its SCI names. -/
theorem opUplinkFrameRx_tagged :
    d.opUplinkFrameRx f =
      match d.rxChan f with
      | some (sc, c) => (match mget d.msec.secys c.secy with | some y => (d.rxCounted f).rxSa sc y f | none => d.rxCounted f)
      | none => match d.secyOf f.sub 0 with
        | some (y, z) =>
          (fun (e : Dev) => if z.validate = .strict ∨ f.enc = true then e.count .inNoSci y else e) ((d.rxCounted f).count .inUnknownSci y)
        | none => d.rxCounted f := by
  have hflag : (f.badTag || f.sci.isSome && (f.es || f.scb)) = false := by rcases hsci with h | ⟨h, g⟩ <;> simp [*]
  unfold Dev.opUplinkFrameRx
  rw [if_clear (by simp [hrun, hen, hup])]
  simp only [htag, hflag, Bool.not_true, Bool.false_eq_true, if_true, if_false, Bool.or_eq_true, decide_eq_true_eq] <;> rfl

theorem opUplinkFrameRx_known {sc : Nat} {c : SecChan} (hchan : d.rxChan f = some (sc, c)) (hsecy : mhas d.msec.secys c.secy = true) :
    d.opUplinkFrameRx f = (d.rxCounted f).rxSa sc (d.secy c.secy) f := by
  simp only [opUplinkFrameRx_tagged hrun hen hup htag hgood hsci, hchan, get_secy_listed hsecy]

end

/-- A frame without a SecTAG on the controlled port is counted for SecY 0. -/
theorem opUplinkFrameRx_untagged {y : Nat} {z : SecY} (htag : f.secTag = false) (hport : uncontrolled f.etherType = false)
    (hsecy : d.secyOf f.sub 0 = some (y, z)) (hextra : f.etherType ∉ z.extra) :
    d.opUplinkFrameRx f = (d.winAdd 0 f.sub 0 f.frame.length 1).count (if z.validate = .strict then .inNoTag else .inUntagged) y := by
  have hzero : ∀ b, (d.winAdd 0 f.sub 0 b 1).secyOf f.sub 0 = some (y, z) := fun _ => hsecy
  unfold Dev.opUplinkFrameRx
  rw [if_clear (by simp [hrun, hen, hup])]
  simp only [htag, hport, hzero, Bool.not_false, Bool.false_eq_true, if_true, if_false, Nat.add_zero]
  exact if_neg (by simpa using hextra)

end

/-! ## Frames in transit (R330 to R332) -/

/-- What MACsec adds to a frame of a queue depends on the queues, the SecYs and their groups alone. -/
theorem growOf_congr {d e : Dev} (hqueues : e.queues = d.queues) (hsecys : e.msec.secys = d.msec.secys)
    (hgroups : e.msec.groupSecy = d.msec.groupSecy) (k : Nat) : e.growOf k = d.growOf k := by
  simp only [Dev.growOf, Dev.msecGrow, Dev.groupSecyOf, Dev.secyOf, hqueues, hsecys, hgroups]

theorem growOf_rxAccept (d : Dev) (n pn window k : Nat) : (d.rxAccept n pn window).growOf k = d.growOf k := by
  unfold Dev.rxAccept
  dsimp only
  split
  all_goals exact growOf_congr rfl rfl rfl k

theorem growOf_count (d : Dev) (c : Cnt) (obj n k : Nat) : (d.count c obj n).growOf k = d.growOf k :=
  growOf_congr (count_talks d c obj n).queues (congrArg MsecState.secys (count_talks d c obj n).msec)
    (congrArg MsecState.groupSecy (count_talks d c obj n).msec) k

section
variable {d : Dev} {sa queue pn : Nat} {ok : Bool} {frame : List Byte} {c : SecChan} {q : Queue}
  (hsc : d.scOf (sa / 2) = some c) (hq : mget d.queues queue = some q) (hrx : c.tx = false) (hup : q.down = false)
  (hrun : d.tileRun (d.tileOfSa sa) = true) (hout : d.tileRun (tileOfSub q.subport) = true)
  (hst : (d.sa sa).st = .ready ∨ (d.sa sa).st = .retiring) (htime : (d.secy c.secy).replay = false ∨ (d.sa sa).low ≤ pn)
include hsc hq hrx hup hrun hout hst htime

/-- A frame in transit that is stored: it is enqueued where its ICV is right. -/
theorem opTransitVerdict_stored
    (hcut : d.cutOk (d.subOfSc (sa / 2)) q ((d.groupSecyOf q.subport q.group).bind (fun e => d.txSc e.1)) = false) :
    d.opTransitVerdict sa queue ok pn frame =
      (fun (e : Dev) =>
        if ok then
          (fun (e : Dev) => (e.enqueue
            { port := if tileOfSub q.subport = tileOfSub (d.subOfSc (sa / 2)) then 0 else 2, src := tileOfSub (d.subOfSc (sa / 2)),
              queue := queue, frame := frame, last := 1 } none (e.growOf queue)).2) ((e.count .inOk sa).rxAccept sa pn (d.secy c.secy).window)
        else e.count .inNotValid sa)
      (if d.safPath (d.subOfSc (sa / 2)) q.subport then d else d.count .transitSfFallback (128 * d.subOfSc (sa / 2) + q.subport)) := by
  have hlate : ((d.secy c.secy).replay && decide (pn < (d.sa sa).low)) = false := by rcases htime with h | h <;> simp [h]
  have hheld : ¬ ((decide ((d.sa sa).st ≠ .ready) && decide ((d.sa sa).st ≠ .retiring)) = true) := by rcases hst with h | h <;> simp [h]
  have hsecy : (mget d.msec.secys c.secy).getD {} = d.secy c.secy := rfl
  unfold Dev.opTransitVerdict
  simp only [hsc, hq, hsecy, hcut]
  rw [if_clear (by simp [hrx, hup, hrun]), if_set hout, if_neg hheld, if_clear hlate]
  simp only [Bool.false_eq_true, if_false, growOf_rxAccept, growOf_count]

/-- A frame in transit that cuts through: it takes a PN of the egress channel, and leaves poisoned where its ICV fails. -/
theorem opTransitVerdict_cut {n : Nat} {a : Dev} {u : Option (Nat × Nat)}
    (hegress : (d.groupSecyOf q.subport q.group).bind (fun e => d.txSc e.1) = some n)
    (hcut : d.cutOk (d.subOfSc (sa / 2)) q (some n) = true)
    (hpn : (u, a) = d.pnUse n frame.length ((d.groupSecyOf q.subport q.group).any (fun e => e.2.conf))) :
    d.opTransitVerdict sa queue ok pn frame =
      (fun (b : Dev) =>
        if ok then ((b.count .inOk sa).rxAccept sa pn (d.secy c.secy).window).emit
          (.frame q.subport (u.map (fun x => x.1)) ((u.map (fun x => x.2)).getD 0) frame)
        else (((b.count .inNotValid sa).count .transitPoisoned sa).count .txPoisoned n).emit (.poisoned q.subport))
      (a.onLine q.subport (frame.length + a.msecGrow q.subport q.group)) := by
  have hlate : ((d.secy c.secy).replay && decide (pn < (d.sa sa).low)) = false := by rcases htime with h | h <;> simp [h]
  have hheld : ¬ ((decide ((d.sa sa).st ≠ .ready) && decide ((d.sa sa).st ≠ .retiring)) = true) := by rcases hst with h | h <;> simp [h]
  have hsecy : (mget d.msec.secys c.secy).getD {} = d.secy c.secy := rfl
  unfold Dev.opTransitVerdict
  simp only [hsc, hq, hsecy, hegress, hcut, Option.getD_some, ← hpn]
  rw [if_clear (by simp [hrx, hup, hrun]), if_set hout, if_neg hheld, if_clear hlate]
  rfl

end

/-! ## MKA (R326 to R328) -/

section
variable {d : Dev} {secy : Nat} (hnamed : d.secyNamed secy = true)
include hnamed

section
variable {m : Mkpdu} (hmka : (d.secy secy).mka = true)
include hmka

theorem opMkpduRx_badIcv (hicv : m.icvOk = false) : d.opMkpduRx secy m = (d.count .mkaRx secy).count .mkaIcvFail secy := by
  obtain ⟨hget, hrun⟩ := get_secy hnamed
  unfold Dev.opMkpduRx
  simp only [hget, hicv]
  exact if_clear (by simp [hmka, hrun])

/-- A right MKPDU of a live peer that wins the election and distributes nothing: its peer is renewed and this SecY is not key server. -/
theorem opMkpduRx_outranked {ick kek : List Byte} (hicv : m.icvOk = true) (hick : (d.secy secy).ick = some ick)
    (hkek : (d.secy secy).kek = some kek) (hpeer : mhas (d.secy secy).peers m.sci = true) (hprio : m.prio < (d.secy secy).prio)
    (hsak : m.serverAn = none) (hall : m.allPeersReceive = false) :
    d.opMkpduRx secy m =
      (d.count .mkaRx secy).setSecy secy
        { d.secy secy with
          peers := mput (d.secy secy).peers m.sci (d.count .mkaRx secy).now, prios := mput (d.secy secy).prios m.sci m.prio, server := false } := by
  obtain ⟨hget, hrun⟩ := get_secy hnamed
  have hmem : (m.sci, m.prio) ∈ mput (d.secy secy).prios m.sci m.prio := mem_of_mget (mget_mput _ _ _)
  have hlost (sci : Nat) : (mput (d.secy secy).prios m.sci m.prio).all (fun e => electsBefore (d.secy secy).prio sci e.2 e.1) = false :=
    List.all_eq_false.2 ⟨_, hmem, by simp [electsBefore]; omega⟩
  unfold Dev.opMkpduRx SecY.isServer SecY.elected
  simp only [hget, hicv, hick, hkek, hpeer, hsak, hall, hlost]
  rw [if_clear (by simp [hmka, hrun])]
  rfl

theorem opMkaHelloTx_client (hick : (d.secy secy).ick.isSome = true) (hserver : (d.secy secy).server = false) :
    d.opMkaHelloTx secy =
      ((d.setSecy secy { d.secy secy with mn := (d.secy secy).mn + 1 }).count .mkaTx secy).emit (.mkpdu secy ((d.secy secy).mn + 1) []) := by
  obtain ⟨hget, hrun⟩ := get_secy hnamed
  unfold Dev.opMkaHelloTx
  simp only [hget, hserver]
  exact if_pos (by simp [hmka, hick, hrun])

end

end

/-- A SecY whose last peer is gone: no peer, and key server. -/
def SecY.alone (y : SecY) : SecY := { y with peers := [], prios := [], server := true }

theorem opMkaPeerExpire_last {d : Dev} {secy sci : Nat} {t : Raw} (hlisted : mhas d.msec.secys secy = true)
    (hpeer : mget (d.secy secy).peers sci = some t) (hpeers : mdel (d.secy secy).peers sci = []) (hprios : mdel (d.secy secy).prios sci = []) :
    d.opMkaPeerExpire secy sci =
      ((((d.advanceTo (t + rawS 6)).setSecy secy (d.secy secy).alone).scsOf secy).foldl (fun d sc => (d.saDisable (2 * sc)).saDisable (2 * sc + 1))
        ((d.advanceTo (t + rawS 6)).setSecy secy (d.secy secy).alone)).notify 0x8881 secy [] := by
  unfold Dev.opMkaPeerExpire
  simp only [get_secy_listed hlisted, hpeer, hpeers, hprios, SecY.isServer, SecY.elected, List.all_nil, List.isEmpty_nil, if_true, SecY.alone]

/-- Settles O25: a frame received through the channel and the slot that take it, a frame in transit stored or cut through, and the MKA events
under their premises. -/
theorem secureAssociationsLiveAndRetire : Obligations.SecureAssociationsLiveAndRetire := by
  unfold Obligations.SecureAssociationsLiveAndRetire
  refine ⟨?retireEnd, ?bound, ?report, ?valid, ?invalid, ?late, ?noSa, ?untagged, ?badTag, ?noSci, ?stored, ?failed, ?cut, ?poisoned, ?badIcv,
    ?peer, ?hello, ?expire⟩
  case retireEnd => exact fun d sa hst => becomes_of (f := fun d => d.opSaRetireEnd sa) (fun _ => rfl) (if_pos hst)
  case bound =>
    rintro d sa ⟨hlisted, htx, hst, hnear⟩
    exact becomes_of (f := fun d => d.opPnBoundRaise sa) (fun _ => rfl) (opPnBoundRaise_near hlisted htx hst hnear)
  case report =>
    rintro d sa ⟨hlisted, hrx, hst⟩
    exact becomes_of (f := fun d => d.opRxPnReport sa) (fun _ => rfl) (opRxPnReport_receive hlisted hrx hst)
  case valid =>
    rintro d f sc c n ⟨hrun, hen, hup, htag, hgood, hsci, hchan, hsecy, hslot, hval, hicv, htime⟩
    exact becomes_of (f := fun d => d.opUplinkFrameRx f) (fun _ => rfl)
      ((opUplinkFrameRx_known hrun hen hup htag hgood hsci hchan hsecy).trans
        ((rxSa_validated (d := d.rxCounted f) hslot htime hval).trans (if_pos hicv)))
  case invalid =>
    rintro d f sc c n ⟨hrun, hen, hup, htag, hgood, hsci, hchan, hsecy, hslot, hval, hicv, htime⟩
    exact becomes_of (f := fun d => d.opUplinkFrameRx f) (fun _ => rfl)
      ((opUplinkFrameRx_known hrun hen hup htag hgood hsci hchan hsecy).trans
        ((rxSa_validated (d := d.rxCounted f) hslot htime hval).trans (if_clear hicv)))
  case late =>
    rintro d f sc c n ⟨hrun, hen, hup, htag, hgood, hsci, hchan, hsecy, hslot, hreplay, hlate⟩
    exact becomes_of (f := fun d => d.opUplinkFrameRx f) (fun _ => rfl)
      ((opUplinkFrameRx_known hrun hen hup htag hgood hsci hchan hsecy).trans (rxSa_late (d := d.rxCounted f) hslot hreplay hlate))
  case noSa =>
    rintro d f sc c ⟨hrun, hen, hup, htag, hgood, hsci, hchan, hsecy, hslot⟩
    exact becomes_of (f := fun d => d.opUplinkFrameRx f) (fun _ => rfl)
      ((opUplinkFrameRx_known hrun hen hup htag hgood hsci hchan hsecy).trans (rxSa_noSlot (d := d.rxCounted f) hslot))
  case untagged =>
    rintro d f y z ⟨hrun, hen, hup, htag, hport, hsecy, hextra⟩
    exact becomes_of (f := fun d => d.opUplinkFrameRx f) (fun _ => rfl) (opUplinkFrameRx_untagged hrun hen hup htag hport hsecy hextra)
  case badTag =>
    rintro d f y z ⟨hrun, hen, hup, htag, hbad, hsecy⟩
    exact becomes_of (f := fun d => d.opUplinkFrameRx f) (fun _ => rfl) (opUplinkFrameRx_badTag hrun hen hup htag hbad hsecy)
  case noSci =>
    rintro d f y z ⟨hrun, hen, hup, htag, hgood, hsci, hchan, hsecy⟩
    refine becomes_of (f := fun d => d.opUplinkFrameRx f) (fun _ => rfl) ((opUplinkFrameRx_tagged hrun hen hup htag hgood hsci).trans ?_)
    change d.rxChan f = none at hchan
    rw [hchan, hsecy]
    rfl
  case stored =>
    rintro d sa queue ok pn head tail c q ⟨hsc, hq, hrx, hup, hrun, hout, hst, htime, hcut, hok⟩
    exact becomes_of (f := fun d => d.opTransitVerdict sa queue ok pn (head ++ tail)) (fun _ => rfl)
      ((opTransitVerdict_stored hsc hq hrx hup hrun hout hst htime hcut).trans (if_pos hok))
  case failed =>
    rintro d sa queue ok pn head tail c q ⟨hsc, hq, hrx, hup, hrun, hout, hst, htime, hcut, hbad⟩
    exact becomes_of (f := fun d => d.opTransitVerdict sa queue ok pn (head ++ tail)) (fun _ => rfl)
      ((opTransitVerdict_stored hsc hq hrx hup hrun hout hst htime hcut).trans (if_clear hbad))
  case cut =>
    rintro d sa queue ok pn head tail c q n a b u ⟨hsc, hq, hrx, hup, hrun, hout, hst, htime, hegress, hcut, hpn, rfl, hok⟩
    exact becomes_of (f := fun d => d.opTransitVerdict sa queue ok pn (head ++ tail)) (fun _ => rfl)
      ((opTransitVerdict_cut hsc hq hrx hup hrun hout hst htime hegress hcut hpn).trans (if_pos hok))
  case poisoned =>
    rintro d sa queue ok pn head tail c q n a b u ⟨hsc, hq, hrx, hup, hrun, hout, hst, htime, hegress, hcut, hpn, rfl, hbad⟩
    exact becomes_of (f := fun d => d.opTransitVerdict sa queue ok pn (head ++ tail)) (fun _ => rfl)
      ((opTransitVerdict_cut hsc hq hrx hup hrun hout hst htime hegress hcut hpn).trans (if_clear hbad))
  case badIcv =>
    rintro d secy m ⟨hnamed, hmka, hicv⟩
    exact becomes_of (f := fun d => d.opMkpduRx secy m) (fun _ => rfl) (opMkpduRx_badIcv hnamed hmka hicv)
  case peer =>
    rintro d secy m ick kek ⟨hnamed, hmka, hicv, hick, hkek, hpeer, hprio, hsak, hall⟩
    exact becomes_of (f := fun d => d.opMkpduRx secy m) (fun _ => rfl)
      (opMkpduRx_outranked hnamed hmka hicv hick hkek hpeer hprio hsak hall)
  case hello =>
    rintro d secy ⟨hnamed, hmka, hick, hserver⟩
    exact becomes_of (f := fun d => d.opMkaHelloTx secy) (fun _ => rfl) (opMkaHelloTx_client hnamed hmka hick hserver)
  case expire =>
    rintro d secy sci t ⟨hlisted, hpeer, hpeers, hprios⟩
    exact becomes_of (f := fun d => d.opMkaPeerExpire secy sci) (fun _ => rfl) (opMkaPeerExpire_last hlisted hpeer hpeers hprios)

end Sys2Proof.Machine

/-! PROOFS. Class 0x09: the crucible's information, challenges, transitions, slots and firmware (O26). -/

namespace Sys2Proof.Machine

/-! ## Transported keys (R345) -/

theorem transportKek_length (d : Dev) (scheme : Bool) (part : List Byte) (slot gen : Nat) :
    (d.transportKek scheme part slot gen).length = 32 := by
  unfold Dev.transportKek
  rw [List.length_take, sha384_length]
  rfl

/-- A key wrapped for a slot and generation, with its known answer, is unwrapped again. -/
theorem transportKey_wrapped (d : Dev) (scheme : Bool) {part wrapped kat key : List Byte} {slot gen : Nat} (hlen : key.length = 16 ∨ key.length = 32)
    (hwrap : wrapped = keyWrap (d.transportKek scheme part slot gen) key)
    (hkat : kat = cmac key (ascii "LNST-KAT" ++ leBytes 2 slot ++ leBytes 4 gen ++ [0, 0])) :
    d.transportKey scheme part wrapped kat slot gen = some key := by
  have hunwrap : keyUnwrap (d.transportKek scheme part slot gen) wrapped = some key := by
    rw [hwrap]
    rcases hlen with h | h
    · exact keyUnwrap_keyWrap (transportKek_length ..) (n := 2) h (by omega)
    · exact keyUnwrap_keyWrap (transportKek_length ..) (n := 4) h (by omega)
  unfold Dev.transportKey
  simp only [hunwrap]
  rw [if_pos hkat.symm]

/-! ## Challenges and transitions (R351, R352) -/

/-- CMD_CRU_CHALLENGE: a fresh challenge that lives 60 s. -/
theorem bodyCruChallenge_open {c : Cmd} {d : Dev} (hready : d.cru.ready = true) (hlife : d.cru.life ≠ .scrapped) (hlock : d.cru.lockEnd = none)
    (hentropy : d.cru.entropyOk = true) :
    bodyCruChallenge c d =
      Dev.ok { (d.freshBytes 16).2 with
        cru := { (d.freshBytes 16).2.cru with challenge := some ((d.freshBytes 16).1, (d.freshBytes 16).2.now + rawS 60) } } (d.freshBytes 16).1 := by
  rw [bodyCruChallenge, if_set (by simp [Dev.cruToken, hready, hlife]), if_clear (by rw [hlock]; rfl), if_set hentropy]

/-- Where the challenge outstanding has been used up and a transition has begun. -/
def Dev.inTransition (d : Dev) (life : Life) (fails : Nat) : Dev :=
  { d with cru := { d.cru with challenge := none, transition := some life, tokenFails := fails } }

theorem ofCode_named {c : Cmd} (hcode : c.u8 0 ≤ 4) : Life.ofCode (c.u8 0) = some c.lifeNamed := by
  unfold Cmd.lifeNamed Life.ofCode
  have hcases : c.u8 0 = 0 ∨ c.u8 0 = 1 ∨ c.u8 0 = 2 ∨ c.u8 0 = 3 ∨ c.u8 0 = 4 := by omega
  rcases hcases with h | h | h | h | h <;> rw [h] <;> rfl

section
variable {c : Cmd} {d : Dev} (hready : d.cru.ready = true)
include hready

/-- CMD_CRU_LIFECYCLE without an anchor: the transition of Table 13-6 that its token allows runs under the anchor and scheme held. -/
theorem bodyCruLifecycle_held (hlife : d.cru.life ≠ .scrapped) (hlen : c.params.length = 20) (hplain : c.bit 2 0 = false) (hscheme : c.u8 1 ≤ 1)
    (hcode : c.u8 0 ≤ 4) (hfirst : ¬(d.cru.life = .blank ∧ c.u8 0 = 1)) (hentropy : d.cru.entropyOk = true)
    (hallowed : transitionOk d.cru.life c.lifeNamed = some false ∨ transitionOk d.cru.life c.lifeNamed = some true ∧
      (d.tokenRight c d.cru.anchor = true ∨ d.cru.life = .returned ∧ d.tokenRight c vendorAnchor = true)) :
    bodyCruLifecycle c d =
      { (d.inTransition c.lifeNamed (if transitionOk d.cru.life c.lifeNamed = some true then 0 else d.cru.tokenFails)).ok with
        after := fun e => e.runTransition c.lifeNamed d.cru.anchor d.cru.scheme } := by
  have hanchor : decide (20 < c.params.length) = false := by rw [hlen]; rfl
  have hreturned : (decide (d.cru.life = .returned) && decide (c.lifeNamed = .returned)) = false := by
    by_contra hboth
    simp only [Bool.not_eq_false, Bool.and_eq_true, decide_eq_true_eq] at hboth
    rw [hboth.1, hboth.2] at hallowed
    simp [transitionOk] at hallowed
  have hnamed : ¬(d.cru.life = .blank ∧ c.lifeNamed = .provisioned) := by
    rintro ⟨hblank, hprov⟩
    have hone : c.u8 0 ≠ 1 := fun h => hfirst ⟨hblank, h⟩
    unfold Cmd.lifeNamed Life.ofCode at hprov
    have hcases : c.u8 0 = 0 ∨ c.u8 0 = 2 ∨ c.u8 0 = 3 ∨ c.u8 0 = 4 := by omega
    rcases hcases with h | h | h | h <;> rw [h] at hprov <;> simp at hprov
  obtain ⟨need, hneed, htoken⟩ : ∃ need, transitionOk d.cru.life c.lifeNamed = some need ∧
      (need && !(d.tokenOk c d.cru.anchor c.lifeNamed || d.tokenOk c vendorAnchor c.lifeNamed && decide (d.cru.life = .returned))) = false := by
    rcases hallowed with h | ⟨h, howner | ⟨hret, hvendor⟩⟩
    · exact ⟨false, h, rfl⟩
    · unfold Dev.tokenRight at howner
      exact ⟨true, h, by simp [howner]⟩
    · unfold Dev.tokenRight at hvendor
      exact ⟨true, h, by simp [hvendor, hret]⟩
  unfold bodyCruLifecycle
  simp only [hanchor, hplain, ofCode_named hcode, hneed]
  rw [if_set (by simp [Dev.cruToken, hready, hlife]), if_clear hreturned, if_neg (by omega),
    if_clear (by simpa using fun h g => hnamed ⟨h, g⟩), if_clear htoken, if_clear rfl, if_set hentropy]
  cases need <;> rfl

/-- CMD_CRU_LIFECYCLE that carries an anchor: a device is provisioned, or provisioned anew, under it. -/
theorem bodyCruLifecycle_provision {sch : Bool} {key : List Byte} (hkey : key.length = 32)
    (hlen : c.params.length = pad4 (80 + partLen sch)) (hcode : c.u8 0 = 1) (hform : c.u8 1 ≤ 1) (hnamed : d.cru.life = .blank → c.bit 2 0 = true)
    (hscheme : (if c.bit 2 0 = true then decide (c.u8 1 = 1) else d.cru.scheme) = sch) (hentropy : d.cru.entropyOk = true)
    (hallowed : d.cru.life = .blank ∨ d.cru.life = .provisioned ∧ d.tokenRight c d.cru.anchor = true)
    (hwrap : c.bs (24 + partLen sch) 40 = keyWrap (d.transportKek sch (c.bs 24 (partLen sch)) 0xFFFF (c.u32 20)) key)
    (hkat : c.bs (64 + partLen sch) 16 = cmac key (ascii "LNST-KAT" ++ leBytes 2 0xFFFF ++ leBytes 4 (c.u32 20) ++ [0, 0])) :
    bodyCruLifecycle c d =
      { (d.inTransition .provisioned (if d.cru.life = .provisioned then 0 else d.cru.tokenFails)).ok with
        after := fun e => e.runTransition .provisioned key sch } := by
  have hlife : d.cru.life ≠ .scrapped := by rcases hallowed with h | ⟨h, -⟩ <;> rw [h] <;> simp
  have hto : Life.ofCode (c.u8 0) = some .provisioned := by rw [hcode]; rfl
  have hright : d.tokenRight c d.cru.anchor = d.tokenOk c d.cru.anchor .provisioned := by
    unfold Dev.tokenRight Cmd.lifeNamed
    rw [hto]
    rfl
  rw [hright] at hallowed
  have hanchor : decide (20 < c.params.length) = true := by rw [hlen]; cases sch <;> rfl
  have hpart : (if c.params.length = 1648 then 1568 else 97) = partLen sch := by rw [hlen]; cases sch <;> rfl
  have hpartScheme : decide (partLen sch = 1568) = sch := by cases sch <;> rfl
  have hunwrap := transportKey_wrapped d sch (Or.inr hkey) hwrap hkat
  obtain ⟨need, hneed, htoken, hfails⟩ : ∃ need, transitionOk d.cru.life .provisioned = some need ∧
      (need && !(d.tokenOk c d.cru.anchor .provisioned || d.tokenOk c vendorAnchor .provisioned && decide (d.cru.life = .returned))) = false ∧
      need = decide (d.cru.life = .provisioned) := by
    rcases hallowed with h | ⟨h, howner⟩
    · exact ⟨false, by rw [h]; rfl, rfl, by rw [h]; rfl⟩
    · exact ⟨true, by rw [h]; rfl, by simp [howner], by rw [h]; rfl⟩
  unfold bodyCruLifecycle
  simp only [hanchor, hto, hpart, hscheme, hpartScheme, hunwrap, hneed]
  rw [if_set (by simp [Dev.cruToken, hready, hlife]), if_clear (by simp), if_neg (by omega), if_clear (by simpa using hnamed), if_clear htoken,
    if_clear (by simp), if_set hentropy, if_pos trivial, hfails]
  simp only [decide_eq_true_eq]
  rfl

/-- CMD_CRU_LIFECYCLE of a returned device with the vendor's token: JTAG opens. -/
theorem bodyCruLifecycle_returned (hlife : d.cru.life = .returned) (hto : Life.ofCode (c.u8 0) = some .returned)
    (hright : d.tokenRight c vendorAnchor = true) :
    bodyCruLifecycle c d = Dev.ok { d with cru := { d.cru with challenge := none, jtag := true, tokenFails := 0 } } := by
  have hvendor : d.tokenOk c vendorAnchor .returned = true := by
    unfold Dev.tokenRight Cmd.lifeNamed at hright
    rw [hto] at hright
    exact hright
  unfold bodyCruLifecycle
  simp only [hto, hvendor, hlife]
  rw [if_set (by simp [Dev.cruToken, hready, hlife]), if_pos (by simp), if_pos trivial]

end

/-! ## Slots and firmware (R345, R346, R354) -/

/-- A persistent slot holds a key newly written and sealed; the counters of the senders bound to it start anew. -/
def Dev.slotWritten (d : Dev) (slot kind gen : Nat) (key : List Byte) : Dev :=
  { d.setPslot slot { kind := kind, key := key, gen := gen, written := true, sealed := keyWrap (d.sealKey kind) key, wcount := (d.pslot slot).wcount } with
    senders := d.senders.map (fun (n, s) => (n, if s.slot = some slot then { s with consumed := 0, ring := [] } else s)) }

section
variable {c : Cmd} {d : Dev} (hopen : d.cruOpen = true)
include hopen

theorem bodyCruSlotWrite_right {sch : Bool} {key : List Byte} (hkey : key.length = 16 ∨ key.length = 32) (htgt : c.tgt < 256) (hkind : 1 ≤ c.u8 0)
    (hlast : c.u8 0 ≤ 6) (hshort : c.u8 0 = 4 → key.length = 16) (hlong : c.u8 0 ≠ 4 ∧ c.u8 0 ≠ 5 → key.length = 32)
    (hlen : c.params.length = pad4 (32 + partLen sch + key.length)) (hscheme : d.cru.scheme = sch)
    (hgen : (d.pslot c.tgt).written = true → (d.pslot c.tgt).gen < c.u32 4)
    (hwrap : c.bs (8 + partLen sch) (8 + key.length) = keyWrap (d.transportKek sch (c.bs 8 (partLen sch)) c.tgt (c.u32 4)) key)
    (hkat : c.bs (16 + partLen sch + key.length) 16 = cmac key (ascii "LNST-KAT" ++ leBytes 2 c.tgt ++ leBytes 4 (c.u32 4) ++ [0, 0])) :
    bodyCruSlotWrite c d = Dev.ok (Dev.zeroCak (d.slotWritten c.tgt (c.u8 0) (c.u32 4) key) c.tgt) := by
  have hpart : (if 1000 < c.params.length then 1568 else 97) = partLen sch := by
    rw [hlen]
    rcases hkey with h | h <;> rw [h] <;> cases sch <;> rfl
  have hpartScheme : decide (partLen sch = 1568) = sch := by cases sch <;> rfl
  have hwl : (if c.params.length = pad4 (8 + partLen sch + 24 + 16) then 24 else 40) = 8 + key.length := by
    rw [hlen]
    rcases hkey with h | h <;> rw [h] <;> cases sch <;> rfl
  have hend : 8 + partLen sch + (8 + key.length) = 16 + partLen sch + key.length := by omega
  have hunwrap := transportKey_wrapped d sch hkey hwrap hkat
  unfold bodyCruSlotWrite
  simp only [hpart, hpartScheme, hwl, hend, hunwrap]
  rw [if_set hopen, if_neg (by omega), if_clear (by simp; omega), if_neg (not_not_intro hscheme.symm), if_clear (by simp; omega),
    if_clear (by simpa using hgen)]
  rfl

theorem bodyCruSlotErase_legal (htgt : c.tgt < 256) :
    bodyCruSlotErase c d = Dev.ok (Dev.zeroCak (d.setPslot c.tgt
      { gen := (d.pslot c.tgt).gen, written := (d.pslot c.tgt).written, wcount := (d.pslot c.tgt).wcount + 1 }) c.tgt) := by
  rw [bodyCruSlotErase, if_set hopen, if_neg (by omega)]

theorem bodyCruSlotStatus_legal (hsome : 1 ≤ c.u8 0) (hfew : c.u8 0 ≤ 64) (hin : c.tgt + c.u8 0 ≤ 256) :
    bodyCruSlotStatus c d = d.ok ((List.range (c.u8 0)).flatMap (fun i => d.slotRecord (c.tgt + i))) := by
  rw [bodyCruSlotStatus, if_set hopen, if_clear (by simp; omega), if_neg (by omega)]

theorem bodyCruFwActivate_staged (hstrap : d.rst.strap = 0) (hstaged : d.cru.staged.isSome = true) :
    bodyCruFwActivate c d =
      { Dev.ok { d with cru := { d.cru with flashFirst := d.cru.staged.getD 0, flashCopy := d.cru.staged.getD 0 } } with
        after := if c.bit 0 0 then (fun e => e.warmReset 3) else id } := by
  obtain ⟨sl, hsl⟩ := Option.isSome_iff_exists.1 hstaged
  rw [bodyCruFwActivate, if_clear (by simp [hopen, hstrap])]
  simp only [hsl]
  rfl

end

/-- Settles O26: each body under its premises; the keys transported by unwrapping what was wrapped. -/
theorem crucibleCommandsKeepKeys : Obligations.CrucibleCommandsKeepKeys := by
  unfold Obligations.CrucibleCommandsKeepKeys
  refine ⟨?info, ?challenge, ?held, ?provision, ?returned, ?erase, ?status, ?activate, ?write, ?stage⟩
  case info => exact answers_row _ _ _ _ _ (fun _ _ => rfl) fun _ _ _ _ => rfl
  case challenge =>
    exact answers_row _ _ _ _ _ (fun _ _ => rfl) fun c _ _ ⟨hready, hlife, hlock, hentropy⟩ => bodyCruChallenge_open (c := c) hready hlife hlock hentropy
  case held =>
    exact then_row _ _ _ _ _ (fun _ _ => rfl) fun _ _ _ ⟨hready, hlife, hlen, hplain, hscheme, hcode, hfirst, hentropy, hallowed⟩ =>
      bodyCruLifecycle_held hready hlife hlen hplain hscheme hcode hfirst hentropy hallowed
  case provision =>
    exact fun sch key hkey => then_row _ _ _ _ _ (fun _ _ => rfl)
      fun _ _ _ ⟨hready, _, hlen, hcode, hform, hnamed, hscheme, hentropy, hallowed, hwrap, hkat⟩ =>
        bodyCruLifecycle_provision hready hkey hlen hcode hform hnamed hscheme hentropy hallowed hwrap hkat
  case returned =>
    exact answers_row _ _ _ _ _ (fun _ _ => rfl) fun _ _ _ ⟨hready, hlife, hto, hright⟩ => bodyCruLifecycle_returned hready hlife hto hright
  case erase => exact answers_row _ _ _ _ _ (fun _ _ => rfl) fun _ _ _ ⟨hopen, htgt⟩ => bodyCruSlotErase_legal hopen htgt
  case status => exact answers_row _ _ _ _ _ (fun _ _ => rfl) fun _ _ _ ⟨hopen, hsome, hfew, hin⟩ => bodyCruSlotStatus_legal hopen hsome hfew hin
  case activate => exact then_row _ _ _ _ _ (fun _ _ => rfl) fun _ _ _ ⟨hopen, hstrap, hstaged⟩ => bodyCruFwActivate_staged hopen hstrap hstaged
  case write =>
    exact fun sch key hkey => answers_row _ _ _ _ _ (fun _ _ => rfl)
      fun _ _ _ ⟨hopen, htgt, hkind, hlast, hshort, hlong, hlen, hscheme, hgen, hwrap, hkat⟩ =>
        bodyCruSlotWrite_right hopen hkey htgt hkind hlast hshort hlong hlen hscheme hgen hwrap hkat
  case stage => exact transfers_row _ _ rfl fun _ _ => rfl

end Sys2Proof.Machine

/-! PROOFS. Crucible timers, entropy, key loads and the check pages (O27). -/

namespace Sys2Proof.Machine

/-! ## Key loads (R348) -/

section
variable {d : Dev} {slot : Nat} {ack : BitVec 32} (hheld : d.volatileHeld slot = true)
include hheld

theorem opKeyLoadAck_right (hack : ack = loadAck (d.volatileKey slot)) :
    d.opKeyLoadAck slot ack = Dev.markLoaded { d with cru := { d.cru with loadFails := mdel d.cru.loadFails slot } } slot := by
  rw [Dev.opKeyLoadAck, if_set hheld]
  exact if_pos hack

theorem opKeyLoadAck_wrong (hack : ack ≠ loadAck (d.volatileKey slot)) :
    d.opKeyLoadAck slot ack =
      if mgetD d.cru.loadFails slot 0 < 3 then
        Dev.emit { d with cru := { d.cru with loadFails := mput d.cru.loadFails slot (mgetD d.cru.loadFails slot 0 + 1) } }
          (.keyBus 0 (d.tileOfVolatile slot) slot)
      else Dev.raise { d with cru := { d.cru with loadFails := mdel d.cru.loadFails slot } } 0x0B 0x03 3 (d.tileOfVolatile slot)
        (d.tileOfVolatile slot) slot false := by
  rw [Dev.opKeyLoadAck, if_set hheld]
  simp only [if_neg hack, show (mgetD d.cru.loadFails slot 0 + 1 < 4) = (mgetD d.cru.loadFails slot 0 < 3) from propext (by omega)]

end

/-! ## The check engine's pages (R355 to R358) -/

/-- A chunk of a page is queued behind those that wait. -/
def Dev.chkQueue (d : Dev) (page : Nat) (x : ChkPage) (key : List Byte) : Dev :=
  Dev.chkSchedule { d.setChk page { x with st := .queued, key := some key, order := d.chkNo } with chkNo := d.chkNo + 1 }

/-- A page starts a message anew. -/
def ChkPage.fresh (x : ChkPage) : ChkPage := { x with msg := [], bytes := 0, doneLen := 0, mtch := false, error := 0 }

/-- A page whose last chunk has passed the engine: no key, no message, the bytes counted. -/
def ChkPage.finished (x : ChkPage) (n : Nat) : ChkPage := { x with st := .done, key := none, msg := [], bytes := n % 2 ^ 24, doneLen := n }

/-- What a GO makes of a page that is not busy, its control word taken: refused without a key or for its length, else queued. -/
def Dev.chkStart (d : Dev) (page : Nat) (x : ChkPage) (key : Option (List Byte)) : Dev :=
  if key.isNone then d.chkEnd page { x with st := .error, error := 1 }
  else if x.len = 0 || 3840 < x.len || (!x.last && x.len % 16 ≠ 0) then d.chkEnd page { x with st := .error, error := 2, key := none, msg := [] }
  else Dev.chkSchedule { d.setChk page { x with st := .queued, key := key, order := d.chkNo } with chkNo := d.chkNo + 1 }

/-- A chunk's length may be taken: not 0, at most the data area, and whole blocks but for the last. -/
theorem chunk_legal {len : Nat} {value : BitVec 32} (hsome : 0 < len) (hfit : len ≤ 3840) (hlast : value.getLsbD 30 = true ∨ len % 16 = 0) :
    (len = 0 || 3840 < len || !bitN value.toNat 30 && len % 16 ≠ 0) = false := by
  have hbit : bitN value.toNat 30 = value.getLsbD 30 := rfl
  rcases hlast with h | h <;> simp [hbit, h] <;> omega

/-- A chunk of a legal length is queued under its key. -/
theorem chkStart_legal (d : Dev) (page : Nat) {x : ChkPage} {value : BitVec 32} (key : List Byte) (hsome : 0 < x.len) (hfit : x.len ≤ 3840)
    (hlast : value.getLsbD 30 = true ∨ x.len % 16 = 0) :
    d.chkStart page (x.ctrl value.toNat) (some key) = d.chkQueue page (x.ctrl value.toNat) key := by
  rw [Dev.chkStart, Option.isNone_some, if_neg Bool.false_ne_true]
  exact if_clear (chunk_legal (len := x.len) hsome hfit hlast)

section
variable {d : Dev} {page : Nat} (hhost : d.hostOk = true) (hlo : 4 ≤ page) (hhi : page < 16)
include hhost hlo hhi

section
variable {value : BitVec 32}

theorem opCheckPageGo_busy (hbusy : (d.chkPage page).st.busy = true) :
    d.opCheckPageGo page value = d.setChk page { d.chkPage page with collision := true } := by
  rw [Dev.opCheckPageGo, if_clear (by simp [hhost]; omega)]
  exact if_pos hbusy

theorem opCheckPageGo_idle (hidle : (d.chkPage page).st.busy = false) :
    d.opCheckPageGo page value =
      d.chkStart page ((if (d.chkPage page).st ≠ .waitData then (d.chkPage page).fresh else d.chkPage page).ctrl value.toNat)
        (if (d.chkPage page).st ≠ .waitData then d.chkKey ((d.chkPage page).fresh.ctrl value.toNat).slot else (d.chkPage page).key) := by
  rw [Dev.opCheckPageGo, if_clear (by simp [hhost]; omega)]
  refine (if_clear hidle).trans ?_
  by_cases hfirst : (d.chkPage page).st ≠ .waitData
  · simp only [hfirst, ne_eq, not_false_eq_true, if_true]
    rfl
  · simp only [hfirst, if_false]
    rfl

section
variable {key : List Byte} (hsome : 0 < (d.chkPage page).len) (hfit : (d.chkPage page).len ≤ 3840)
  (hlast : value.getLsbD 30 = true ∨ (d.chkPage page).len % 16 = 0)
include hsome hfit hlast

/-- CHECK_PAGE_GO of the first chunk of a message, under the key of the page's slot. -/
theorem opCheckPageGo_first (hidle : (d.chkPage page).st.busy = false) (hfirst : (d.chkPage page).st ≠ .waitData)
    (hkey : d.chkKey (value.toNat % 256) = some key) :
    d.opCheckPageGo page value = d.chkQueue page ((d.chkPage page).fresh.ctrl value.toNat) key := by
  have hslot : d.chkKey ((d.chkPage page).fresh.ctrl value.toNat).slot = some key := by
    simpa [ChkPage.ctrl, fieldN] using hkey
  rw [opCheckPageGo_idle hhost hlo hhi hidle, if_pos hfirst, if_pos hfirst, hslot]
  exact chkStart_legal d page key hsome hfit hlast

/-- CHECK_PAGE_GO of a later chunk, under the key that the message has. -/
theorem opCheckPageGo_next (hwait : (d.chkPage page).st = .waitData) (hkey : (d.chkPage page).key = some key) :
    d.opCheckPageGo page value = d.chkQueue page ((d.chkPage page).ctrl value.toNat) key := by
  rw [opCheckPageGo_idle hhost hlo hhi (by rw [hwait]; rfl), if_neg (not_not_intro hwait), if_neg (not_not_intro hwait), hkey]
  exact chkStart_legal d page key hsome hfit hlast

end

end

theorem opCheckPageAbort_under (hunder : (d.chkPage page).st.busy = true ∨ (d.chkPage page).st = .waitData) :
    d.opCheckPageAbort page =
      Dev.chkScheduleAt (d.chkEnd page { d.chkPage page with st := .error, error := 3, key := none, msg := [] })
        (if (d.chkPage page).st = .running then (Sys2Proof.Machine.ChkPage.boundary (d.chkPage page) d.now).2 else d.now) := by
  rw [Dev.opCheckPageAbort, if_pos (by simp [hhost]; omega)]
  exact if_pos (by simpa using hunder)

end

section
variable {d : Dev} {page : Nat} (hrunning : (d.chkPage page).st = .running)
include hrunning

theorem opCheckChunkDone_part (hlast : (d.chkPage page).last = false) :
    d.opCheckChunkDone page =
      Dev.chkSchedule ((d.advanceTo (Sys2Proof.Machine.ChkPage.endAt (d.chkPage page))).setChk page
        { d.chkPage page with
          st := .waitData, msg := (d.chkPage page).msg ++ (d.chkPage page).data.take (d.chkPage page).len,
          bytes := ((d.chkPage page).msg ++ (d.chkPage page).data.take (d.chkPage page).len).length % 2 ^ 24,
          doneLen := ((d.chkPage page).msg ++ (d.chkPage page).data.take (d.chkPage page).len).length }) := by
  rw [Dev.opCheckChunkDone, if_neg (not_not_intro hrunning)]
  simp only [hlast, Bool.not_false, if_true]

/-- The last chunk of a message leaves its tag, or whether the tag given matches. -/
theorem opCheckChunkDone_last {key msg : List Byte} (hlast : (d.chkPage page).last = true) (hkey : (d.chkPage page).key = some key)
    (hmsg : msg = (d.chkPage page).msg ++ (d.chkPage page).data.take (d.chkPage page).len) :
    d.opCheckChunkDone page =
      Dev.chkSchedule (if (d.chkPage page).verify then
        (d.advanceTo (Sys2Proof.Machine.ChkPage.endAt (d.chkPage page))).chkEnd page
          { (d.chkPage page).finished msg.length with
            mtch := decide ((cmac key msg).take (d.chkPage page).tagLen = (d.chkPage page).mac.take (d.chkPage page).tagLen) }
        else (d.advanceTo (Sys2Proof.Machine.ChkPage.endAt (d.chkPage page))).chkEnd page
          { (d.chkPage page).finished msg.length with mac := cmac key msg }) := by
  rw [Dev.opCheckChunkDone, if_neg (not_not_intro hrunning)]
  simp only [hlast, hkey, ← hmsg, Bool.not_true, Bool.false_eq_true, if_false, Option.getD_some, ChkPage.finished]

end

/-- Settles O27: the timers by their equations, a key load by its acknowledgement, and the pages by the state they are in. -/
theorem keysLoadAndCheckPagesRun : Obligations.KeysLoadAndCheckPagesRun := by
  unfold Obligations.KeysLoadAndCheckPagesRun
  refine ⟨?challenge, ?lockout, ?unhealthy, ?healthy, ?load, ?loadFailed, ?first, ?next, ?busy, ?abort, ?part, ?last⟩
  case challenge =>
    intro d ch t h
    refine becomes_of (f := fun d => d.opChallengeExpiry) (fun _ => rfl) ?_
    unfold Dev.opChallengeExpiry
    simp only [h]
  case lockout =>
    intro d t h
    refine becomes_of (f := fun d => d.opTokenLockoutEnd) (fun _ => rfl) ?_
    unfold Dev.opTokenLockoutEnd
    simp only [h]
  case unhealthy =>
    intro d h
    refine leaves_of (f := fun d => d.opEntropyHealthFail) (fun _ => rfl) ?_
    dsimp only
    rw [Dev.opEntropyHealthFail, if_pos h]
    exact ⟨raise_raised _ _ _ _ _ _ _ _ _, raise_raises _ _ _ _ _ _ _ _ _⟩
  case healthy => exact fun d h => becomes_of (f := fun d => d.opEntropyHealthRestored) (fun _ => rfl) (if_clear h)
  case load =>
    rintro d slot ack ⟨hheld, hfew⟩
    refine becomes_of (f := fun d => d.opKeyLoadAck slot ack) (fun _ => rfl) ?_
    by_cases hack : ack = loadAck (d.volatileKey slot)
    · rw [if_pos hack]
      exact opKeyLoadAck_right hheld hack
    · rw [if_neg hack]
      exact (opKeyLoadAck_wrong hheld hack).trans (if_pos (hfew hack))
  case loadFailed =>
    rintro d slot ack ⟨hheld, hack, hmany⟩
    refine leaves_of (f := fun d => d.opKeyLoadAck slot ack) (fun _ => rfl) ?_
    dsimp only
    rw [opKeyLoadAck_wrong hheld hack, if_neg (by omega)]
    exact ⟨raise_raised _ _ _ _ _ _ _ _ _, raise_raises _ _ _ _ _ _ _ _ _⟩
  case first =>
    rintro d page value key ⟨hhost, hlo, hhi, hidle, hfirst, hkey, hsome, hfit, hlast⟩
    exact becomes_of (f := fun d => d.opCheckPageGo page value) (fun _ => rfl)
      (opCheckPageGo_first hhost hlo hhi hsome hfit hlast hidle hfirst hkey)
  case next =>
    rintro d page value key ⟨hhost, hlo, hhi, hwait, hkey, hsome, hfit, hlast⟩
    exact becomes_of (f := fun d => d.opCheckPageGo page value) (fun _ => rfl) (opCheckPageGo_next hhost hlo hhi hsome hfit hlast hwait hkey)
  case busy =>
    rintro d page value ⟨hhost, hlo, hhi, hbusy⟩
    exact becomes_of (f := fun d => d.opCheckPageGo page value) (fun _ => rfl) (opCheckPageGo_busy hhost hlo hhi hbusy)
  case abort =>
    rintro d page ⟨hhost, hlo, hhi, hunder⟩
    exact becomes_of (f := fun d => d.opCheckPageAbort page) (fun _ => rfl) (opCheckPageAbort_under hhost hlo hhi hunder)
  case part =>
    rintro d page ⟨hrunning, hlast⟩
    exact becomes_of (f := fun d => d.opCheckChunkDone page) (fun _ => rfl) (opCheckChunkDone_part hrunning hlast)
  case last =>
    rintro d page key msg ⟨hrunning, hlast, hkey, hmsg⟩
    exact becomes_of (f := fun d => d.opCheckChunkDone page) (fun _ => rfl) (opCheckChunkDone_last hrunning hlast hkey hmsg)

end Sys2Proof.Machine

/-! PROOFS. The reads that change state, and the commands of the board management SPI (O41). -/

namespace Sys2Proof.Machine

/-! ## Reads with an effect (R480) -/

section
variable {d : Dev} {a : Nat} (f : Dev → Dev)

/-- A read of the global window returns the word that stood there and leaves its effect. -/
theorem readFx_global (hup : d.endpointUp = true) (ha : a < 0x10000) : d.readFx a f = { f d with lastRead := d.globalWord a } := by
  simp only [Dev.readFx, Dev.regRead, ha, if_true, hup]

/-- A read of a tile's window returns the word that stood there and leaves its effect. -/
theorem readFx_tile {t o : Nat} (hhost : d.hostOk = true) (ht : t < d.nTiles) (ho : o < 0x100000) :
    d.readFx (tileWin t + o) f = { f d with lastRead := d.tileWord t o } := by
  have hfar (n : Nat) (hn : n ≤ 0x100000) : ¬ tileWin t + o < n := by unfold tileWin; omega
  have htile : (tileWin t + o) / 0x100000 - 1 = t := by unfold tileWin; omega
  have hofs : (tileWin t + o) % 0x100000 = o := by unfold tileWin; omega
  simp only [Dev.readFx, Dev.regRead, hfar 0x10000 (by omega), hfar 0x20000 (by omega), hfar 0x60000 (by omega), hfar 0x70000 (by omega),
    hfar 0x80000 (by omega), hfar 0x100000 (by omega), if_false, hhost, Bool.not_true, Bool.false_eq_true, if_true, htile, hofs, ht]

end

theorem nTiles_le (d : Dev) : d.nTiles ≤ 8 := by
  unfold Dev.nTiles
  cases d.variant <;> decide

theorem globalWord_cntLost (d : Dev) : d.globalWord 0x100C = word [(d.cnt.evtLost, 16), (d.cnt.smpLost, 0)] := by
  have hassay : ¬ (0x100C < 0xD20 + 0x20 * d.nTiles) := by have := nTiles_le d; omega
  simp only [Dev.globalWord, hassay, decide_false, Bool.and_false]
  rfl

theorem tileWord_temp (d : Dev) (t : Nat) :
    d.tileWord t 0x1004 = word [(lowBits 8 (d.tile t).peakC, 24), (lowBits 8 (d.tile t).nowC, 16), ((d.tile t).level, 0)] := rfl

theorem tileWord_minFree {d : Dev} {t : Nat} (hrun : d.tileRun t = true) : d.tileWord t 0x9004 = (d.pool t).minFree := by
  simp [Dev.tileWord, hrun]

/-! ## RESET_REQ (R379, R380) -/

/-- A package warm reset has begun: nothing is ready, and its cause is recorded. -/
theorem packageReset_warm (d : Dev) : (d.packageReset true 4).inReset = true ∧ (d.packageReset true 4).rst.cause.getLsbD 4 = true ∧
    (d.packageReset true 4).ready = false := by
  refine ⟨by simp [Dev.packageReset, Dev.inReset], ?_, by simp [Dev.packageReset, Dev.ready]⟩
  simp [Dev.packageReset]

/-- Settles O41: each read by the word of its register, the SPI commands by their equations. -/
theorem readsWithEffectsAndBoardManagement : Obligations.ReadsWithEffectsAndBoardManagement := by
  unfold Obligations.ReadsWithEffectsAndBoardManagement
  refine ⟨?rawLo, ?nowFrac, ?timeStatus, ?discStatus, ?tileTemp, ?minFree, ?cntLost, ?status, ?id, ?reset, ?noReset, ?unknown⟩
  case rawLo => exact fun d h => becomes_of (f := fun d => d.opTimeRawLoRead) (fun _ => rfl) (readFx_global _ h (by decide))
  case nowFrac => exact fun d h => becomes_of (f := fun d => d.opTimeNowFracRead) (fun _ => rfl) (readFx_global _ h (by decide))
  case timeStatus => exact fun d h => becomes_of (f := fun d => d.opTimeStatusRead) (fun _ => rfl) (readFx_global _ h (by decide))
  case discStatus => exact fun d h => becomes_of (f := fun d => d.opPwrDiscStatusRead) (fun _ => rfl) (readFx_global _ h (by decide))
  case tileTemp =>
    rintro d tile ⟨ht, hhost⟩
    refine becomes_of (f := fun d => d.opPwrTileTempRead tile) (fun _ => rfl) ?_
    rw [Dev.opPwrTileTempRead, if_neg (by omega), readFx_tile _ hhost ht (by decide), tileWord_temp]
  case minFree =>
    rintro d tile ⟨ht, hhost, hrun⟩
    refine becomes_of (f := fun d => d.opBpmMinFreeRead tile) (fun _ => rfl) ?_
    rw [Dev.opBpmMinFreeRead, if_set hrun, readFx_tile _ hhost ht (by decide), tileWord_minFree hrun]
  case cntLost =>
    intro d h
    refine becomes_of (f := fun d => d.opCntLostRead) (fun _ => rfl) ?_
    rw [Dev.opCntLostRead, readFx_global _ h (by decide), globalWord_cntLost]
  case status =>
    intro d start n h
    refine becomes_of (f := fun d => d.opReadStatus start n) (fun _ => rfl) ?_
    rw [Dev.opReadStatus, if_pos h]
    rfl
  case id =>
    intro d h
    refine becomes_of (f := fun d => d.opReadId) (fun _ => rfl) ?_
    rw [Dev.opReadId, if_pos h]
  case reset =>
    rintro d b1 b2 ⟨hup, h1, h2, hidle⟩
    refine leaves_of (f := fun d => d.opResetReq b1 b2) (fun _ => rfl) ?_
    rw [Dev.opResetReq, if_pos (by simp [hup, h1, h2, hidle]), Dev.warmReset, if_clear (by simp [Dev.inWarm, hidle]), if_clear hidle]
    exact packageReset_warm d
  case noReset =>
    intro d b1 b2 h
    refine becomes_of (f := fun d => d.opResetReq b1 b2) (fun _ => rfl) (if_clear ?_)
    rcases h with h | h | h | h <;> simp [h]
  case unknown => exact fun d b => becomes_of (f := fun d => d.opBmsUnknownCommand b) (fun _ => rfl) rfl

end Sys2Proof.Machine

/-! PROOFS. The system class: information, senders, resets and uplinks (O3). -/

namespace Sys2Proof.Machine

/-! ## The end of a drain (R400) -/

/-- A sub-port drains no more and its line is down. -/
def LineDown (p : Nat) (d : Dev) : Prop := (d.sub p).drainEnd = none ∧ (d.sub p).up = false

theorem LineDown.congr {p : Nat} {d e : Dev} (h : LineDown p d) (hsubs : e.subs = d.subs) : LineDown p e := by
  unfold LineDown Dev.sub
  rw [hsubs]
  exact h

/-- A change of any sub-port that sets no drain and brings no line up leaves a line down. -/
theorem LineDown.updSub {p : Nat} {d : Dev} (h : LineDown p d) (q : Nat) {f : SubPort → SubPort}
    (hdrain : ∀ x, x.drainEnd = none → (f x).drainEnd = none) (hup : ∀ x, (f x).up = x.up) : LineDown p (d.updSub q f) := by
  obtain ⟨hnone, hdown⟩ := h
  unfold LineDown Dev.updSub Dev.setSub Dev.sub at *
  by_cases hq : p = q
  · subst hq
    simp only [mgetD_mput]
    exact ⟨hdrain _ hnone, (hup _).trans hdown⟩
  · simp only [mgetD_mput_ne _ _ _ _ _ hq]
    exact ⟨hnone, hdown⟩

theorem LineDown.foldl {α : Type} {p : Nat} {f : Dev → α → Dev} (hf : ∀ d x, LineDown p d → LineDown p (f d x)) (l : List α) {d : Dev}
    (h : LineDown p d) : LineDown p (l.foldl f d) := by
  induction l generalizing d with
  | nil => exact h
  | cons a l ih => exact ih (hf d a h)

theorem foldl_subs {α : Type} {f : Dev → α → Dev} (hf : ∀ d x, (f d x).subs = d.subs) (l : List α) (d : Dev) : (l.foldl f d).subs = d.subs := by
  induction l generalizing d with
  | nil => rfl
  | cons a l ih => rw [List.foldl_cons, ih, hf]

theorem subDown_sub (d : Dev) (p : Nat) : (d.subDown p).sub p = { d.sub p with up := false } := by
  unfold Dev.subDown
  cases hup : (d.sub p).up
  · rw [if_pos (by rfl), ← hup]
  · rw [if_neg (by simp)]
    unfold Dev.sub
    rw [foldl_subs (fun e t => by split <;> rfl)]
    exact mgetD_mput _ _ _ _

theorem giveSlot_subs (d : Dev) (k h : Nat) : (d.giveSlot k h).subs = d.subs := by
  unfold Dev.giveSlot
  dsimp only
  split <;> rfl

theorem defaultQueues_subs (d : Dev) (p : Nat) : (d.defaultQueues p).subs = d.subs := by
  have hsync (e : Dev) : e.syncNodes.subs = e.subs := rfl
  unfold Dev.defaultQueues
  dsimp only
  rw [hsync]
  refine foldl_subs (fun e c => ?_) _ d
  split
  · exact giveSlot_subs _ _ _
  · rfl

theorem LineDown.uplinkOn {p : Nat} {d : Dev} (h : LineDown p d) : LineDown p (d.uplinkOn p) := by
  have hcross (e : Dev) (t g k : Nat) : (e.crossTake t g k).subs = e.subs := by unfold Dev.crossTake; split <;> rfl
  have hon : LineDown p (d.subOn p) := by
    unfold Dev.subOn
    dsimp only
    refine LineDown.updSub ?_ p (fun _ _ => rfl) (fun _ => rfl)
    refine LineDown.congr ?_ (hcross _ _ _ _)
    split
    · exact h
    · refine LineDown.foldl (fun d q hd => ?_) _ h
      exact hd.updSub q (fun _ hx => hx) (fun _ => rfl)
  unfold Dev.uplinkOn
  dsimp only
  split
  · exact hon
  · exact (hon.congr (defaultQueues_subs _ p)).updSub p (fun _ hx => hx) (fun _ => rfl)

theorem LineDown.queuedSub {p : Nat} {d : Dev} (h : LineDown p d) : LineDown p (d.queuedSub p) := by
  have hen : LineDown p (d.subEnable p).2 := by
    unfold Dev.subEnable
    split
    · exact h
    · split
      · exact h
      · exact h.uplinkOn
  unfold Dev.queuedSub
  split
  · exact h
  · exact hen.congr (complete_talks _ _ _ _ _).subs

/-- Where a drain ends, the line goes down, whatever enables were queued. -/
theorem opUplinkDrainEnd_down {d : Dev} {sub : Nat} {t : Raw} (hsub : sub < d.nSubs) (hdrain : (d.sub sub).drainEnd = some t) :
    LineDown sub (d.opUplinkDrainEnd sub) := by
  unfold Dev.opUplinkDrainEnd
  simp only [hdrain]
  rw [if_neg (by omega)]
  refine LineDown.queuedSub ?_
  unfold LineDown Dev.updSub Dev.setSub
  simp only [Dev.sub, mgetD_mput]
  exact ⟨trivial, congrArg SubPort.up (subDown_sub _ sub)⟩

/-! ## The commands (R394, R400, R500, R503) -/

section
variable {c : Cmd} {d : Dev}

theorem bodySysSender_bind (hlo : 1 ≤ c.tgt) (hhi : c.tgt ≤ 63) (hbind : c.bit 3 0 = true) (hkeep : c.bit 3 1 = false)
    (hkind : (d.pslot (c.u8 2)).kind = 1) (hfresh : (d.pslot (c.u8 2)).stale = false) :
    bodySysSender c d =
      Dev.ok (Dev.updSender { d with host := { d.host with boundOnce := true } } c.tgt (fun s =>
        { s with
          caps := BitVec.ofNat 16 (c.u16 0), doms := BitVec.ofNat 256 (natAt c.params 8 32), slot := some (c.u8 2),
          slotW := (d.pslot (c.u8 2)).wcount })) := by
  rw [bodySysSender]
  simp only [hbind, hkeep]
  rw [if_within hlo hhi, if_clear (Bool.and_false _), if_clear (by simp [hkind]), if_clear (by simp [hfresh])]
  rfl

theorem bodySysRemote_bind (hlo : 32 ≤ c.tgt) (hhi : c.tgt ≤ 47) (hact : c.u8 0 = 0) (hsub : c.u8 1 < d.nSubs)
    (hrun : d.tileRun (tileOfSub (c.u8 1)) = true) (hvlan : 1 ≤ c.u16 2) (hlast : c.u16 2 ≤ 4094) :
    bodySysRemote c d = Dev.ok (d.updSender c.tgt (fun s => { s with remote := some (c.u8 1, c.u16 2, c.u48 8), caps := 0, doms := 0 })) := by
  rw [bodySysRemote]
  dsimp only
  rw [if_within hlo hhi, if_neg (by omega), if_neg (by omega), onSub_running hsub hrun, if_within hvlan hlast]

theorem bodySysTileReset_run (hpos : 0 < c.tgt) (hin : c.tgt < d.nTiles) (hrun : (d.tile c.tgt).st = .run) :
    bodySysTileReset c d = (d.startTileReset c.tgt 1).accepted stAccepted .tileReset c.tgt := by
  rw [bodySysTileReset, if_neg (by omega), if_neg (by omega), if_set (by simp [Dev.tileResetOk, hrun])]

/-- CMD_SYS_FUNC_RESET of a tree, a channel, a sub-port or a system port whose tile runs. -/
theorem bodySysFuncReset_legal
    (hobj : (c.u8 0 = 0 ∧ c.tgt < d.nTrees ∧ d.tileRun (tileOfTree c.tgt) = true) ∨ (c.u8 0 = 1 ∧ d.chanOk c.tgt = true ∧
        d.tileRun (tileOfChan c.tgt) = true ∧ (d.chan c.tgt).st ≠ .disabled) ∨ (c.u8 0 = 2 ∧ c.tgt < d.nSubs ∧
        d.tileRun (tileOfSub c.tgt) = true) ∨ (c.u8 0 = 3 ∧ c.tgt < 4 ∧ d.tileRun (d.sysPortTile c.tgt) = true)) :
    bodySysFuncReset c d = Dev.ok (if c.u8 0 = 0 then d.resetTree c.tgt else if c.u8 0 = 1 then d.resetChan c.tgt
      else if c.u8 0 = 2 then d.resetSub c.tgt else d.resetPort c.tgt) := by
  rw [bodySysFuncReset]
  rcases hobj with ⟨hkind, hin, hrun⟩ | ⟨hkind, hin, hrun, hon⟩ | ⟨hkind, hin, hrun⟩ | ⟨hkind, hin, hrun⟩
  · simp [hkind, Dev.onTree, Dev.notRun, hrun, Nat.not_le.2 hin]
  · simp [hkind, onChan_running hin hrun, hon]
  · simp [hkind, onSub_running hin hrun]
  · simp [hkind, Dev.notRun, hrun, Nat.not_le.2 hin]

theorem bodySysUplink_enable (hin : c.tgt < d.nSubs) (hrun : d.tileRun (tileOfSub c.tgt) = true) (hact : c.u8 0 = 0)
    (hoff : (d.sub c.tgt).enabled = false) (hidle : (d.sub c.tgt).drainEnd = none) (hmode : d.uplRefused c.tgt = false)
    (hroom : d.subRoom c.tgt = true) : bodySysUplink c d = Dev.ok (d.uplinkOn c.tgt) := by
  have henable : d.subEnable c.tgt = (stOk, d.uplinkOn c.tgt) := by
    rw [Dev.subEnable, if_clear hmode, if_set hroom]
  rw [bodySysUplink, onSub_running hin hrun]
  simp only [henable]
  rw [if_pos hact, if_clear hoff, if_clear (by rw [hidle]; rfl), if_pos trivial]

end

/-- Settles O3: the bodies under their premises, and the end of a drain by what stays of the sub-port through every later step of it. -/
theorem systemCommandsAnswerAndReset : Obligations.SystemCommandsAnswerAndReset := by
  unfold Obligations.SystemCommandsAnswerAndReset
  refine ⟨?info, ?echo, ?counter, ?sender, ?remote, ?warm, ?tile, ?func, ?uplink, ?drain⟩
  case info => exact answers_row _ _ _ _ _ (fun _ _ => rfl) fun _ _ _ _ => rfl
  case echo => exact answers_row _ _ _ _ _ (fun _ _ => rfl) fun _ _ _ _ => rfl
  case counter => exact answers_row _ _ _ _ _ (fun _ _ => rfl) fun _ _ _ htgt => if_neg (Nat.not_lt.2 htgt)
  case sender =>
    exact answers_row _ _ _ _ _ (fun _ _ => rfl) fun _ _ _ ⟨hlo, hhi, hbind, hkeep, hkind, hfresh⟩ =>
      bodySysSender_bind hlo hhi hbind hkeep hkind hfresh
  case remote =>
    exact answers_row _ _ _ _ _ (fun _ _ => rfl) fun _ _ _ ⟨hlo, hhi, hact, hsub, hrun, hvlan, hlast⟩ =>
      bodySysRemote_bind hlo hhi hact hsub hrun hvlan hlast
  case warm => exact then_row _ _ _ _ _ (fun _ _ => rfl) fun _ _ _ _ => rfl
  case tile => exact starts_row _ _ _ _ _ _ _ (fun _ _ => rfl) fun _ _ _ ⟨hpos, hin, hrun⟩ => bodySysTileReset_run hpos hin hrun
  case func => exact answers_row _ _ _ _ _ (fun _ _ => rfl) fun _ _ _ hobj => bodySysFuncReset_legal hobj
  case uplink =>
    exact answers_row _ _ _ _ _ (fun _ _ => rfl) fun _ _ _ ⟨hin, hrun, hact, hoff, hidle, hmode, hroom⟩ =>
      bodySysUplink_enable hin hrun hact hoff hidle hmode hroom
  case drain =>
    rintro d sub t ⟨hsub, hdrain, -, -⟩
    exact leaves_of (f := fun d => d.opUplinkDrainEnd sub) (fun _ => rfl) (opUplinkDrainEnd_down hsub hdrain)

end Sys2Proof.Machine

/-! PROOFS. Class 0x0B: joining devices by command (O34). -/

namespace Sys2Proof.Machine

/-! ## CMD_JOIN_CONFIG (R404, R406, R416) -/

/-- The members that a CMD_JOIN_CONFIG lists, and the peers of channels 48 to 63. -/
def Cmd.joinMembers (c : Cmd) : Option (List Nat) := if (c.bitmap 3 64).isEmpty then none else some (c.bitmap 3 64)
def Cmd.joinPeers (c : Cmd) : List (Nat × Nat) :=
  (List.range 16).filterMap (fun i => if c.u16 (76 + 2 * i) = 0xFFFF then none else some (48 + i, c.u16 (76 + 2 * i)))

/-- The enables and asymmetries of the system ports, applied. -/
def Dev.enablePorts (d : Dev) (c : Cmd) : Dev := sysPorts.foldl (fun e p => e.enablePort p (c.bit 2 p) (signedOf 16 (c.u16 (68 + 2 * p)))) d

/-- The tree with the ID, the members and the peers of a command: one whose ID or members change is detached first. -/
def Dev.joinSet (d : Dev) (c : Cmd) (changed : Bool) : Dev :=
  let d := if changed then d.detach none false else d
  let st : JoinSt := if c.joinMembers.isNone then .alone else if changed || d.join.st = .alone then .detached else d.join.st
  let begun := st = .detached && changed
  { d with join := { d.join with
    ownId := c.u16 0, members := c.joinMembers, peers := c.joinPeers, st := st, low := if begun then c.u16 0 else d.join.low,
    detachedAt := if begun then d.now else d.join.detachedAt } }

section
variable {c : Cmd} {d : Dev}

/-- CMD_JOIN_CONFIG whose ID, asymmetries and peers are legal. -/
theorem bodyJoinConfig_legal (hown : c.u16 0 ≤ 511)
    (hasym : sysPorts.all (fun p => -1000 ≤ signedOf 16 (c.u16 (68 + 2 * p)) && signedOf 16 (c.u16 (68 + 2 * p)) ≤ 1000) = true)
    (hpeers : (List.range 16).all (fun i => c.u16 (76 + 2 * i) = 0xFFFF || c.u16 (76 + 2 * i) ≤ 511) = true)
    (hrun : sysPorts.all (fun p => d.tileRun (d.sysPortTile p)) = true) :
    bodyJoinConfig c d = Dev.ok ((d.joinSet c (c.u16 0 ≠ d.join.ownId || c.joinMembers ≠ d.join.members)).enablePorts c) := by
  have hnear : sysPorts.any (fun p => signedOf 16 (c.u16 (68 + 2 * p)) < -1000 || 1000 < signedOf 16 (c.u16 (68 + 2 * p))) = false := by
    rw [List.any_eq_false]
    intro p hp
    have h := List.all_eq_true.1 hasym p hp
    simp only [Bool.and_eq_true, decide_eq_true_eq] at h
    simp only [Bool.or_eq_true, decide_eq_true_eq]
    omega
  have hfar : c.joinPeers.any (fun e => 511 < e.2) = false := by
    rw [List.any_eq_false]
    intro e he
    obtain ⟨i, hi, hsome⟩ := List.mem_filterMap.1 he
    have h := List.all_eq_true.1 hpeers i hi
    simp only [Bool.or_eq_true, decide_eq_true_eq] at h
    split at hsome
    · cases hsome
    · obtain rfl := Option.some.inj hsome
      simp only [decide_eq_true_eq]
      omega
  have hready : sysPorts.any (fun p => (decide ((d.sysPort p).en ≠ c.bit 2 p) || decide ((d.sysPort p).asym ≠ signedOf 16 (c.u16 (68 + 2 * p))))
      && d.notRun (d.sysPortTile p)) = false := by
    rw [List.any_eq_false]
    intro p hp
    simp [Dev.notRun, List.all_eq_true.1 hrun p hp]
  unfold bodyJoinConfig
  refine (if_neg (by omega)).trans ((if_clear hnear).trans ((if_clear hfar).trans ((if_clear hready).trans ?_)))
  rfl

/-- One of peers and ports alone keeps the device's place in the tree. -/
theorem joinSet_kept (hown : c.u16 0 = d.join.ownId) (hmembers : c.joinMembers = d.join.members) (hsome : d.join.members.isSome = true)
    (hst : d.join.st ≠ .alone) : d.joinSet c false = { d with join := { d.join with peers := c.joinPeers } } := by
  have hnone : d.join.members.isNone = false := by simpa using hsome
  simp [Dev.joinSet, hown, hmembers, hnone, hst]

/-- One of ID or members detaches the device. -/
theorem joinSet_changed :
    d.joinSet c true =
      { d.detach none false with
        join :=
          { (d.detach none false).join with
            ownId := c.u16 0, members := c.joinMembers, peers := c.joinPeers,
            st := if (c.bitmap 3 64).isEmpty then .alone else .detached,
            low := if (c.bitmap 3 64).isEmpty then (d.detach none false).join.low else c.u16 0,
            detachedAt := if (c.bitmap 3 64).isEmpty then (d.detach none false).join.detachedAt else (d.detach none false).now } } := by
  unfold Dev.joinSet Cmd.joinMembers
  cases (c.bitmap 3 64).isEmpty <;> simp

/-! ## Barriers and snapshots (R410 to R412) -/

section
variable (hn : c.u8 0 ≤ 63) (htime : c.u16 66 ≤ 60000) (hjoined : d.joined = true)
  (hfree : (mget d.join.barriers (c.u8 0)).any (fun b => b.job ≠ 0 || b.release.isSome) = false)
include hn htime hjoined hfree

/-- CMD_JOIN_BARRIER without an enclosed packet. -/
theorem bodyJoinBarrier_bare (hlen : c.params.length = 68) :
    bodyJoinBarrier c d =
      (d.barrierEnter (c.u8 0)
        { job := d.host.jobNo, set := if c.bit 1 0 then none else some (c.bitmap 2 64),
          timeoutMs := if c.u16 66 = 0 then 1000 else c.u16 66 }).accepted stAccepted .barrier (c.u8 0) := by
  rw [bodyJoinBarrier, if_neg (by omega), if_neg (by omega), if_set hjoined, if_clear hfree]
  exact if_pos hlen

/-- One whose enclosed packet passes every check. -/
theorem bodyJoinBarrier_enclosed (hlen : c.params.length ≠ 68) (hok : (d.takeEnclosed c.enclosed).1 = stOk) :
    bodyJoinBarrier c d =
      (Dev.barrierEnter (d.takeEnclosed c.enclosed).2.2.2 (c.u8 0)
        { job := d.host.jobNo, set := if c.bit 1 0 then none else some (c.bitmap 2 64),
          timeoutMs := if c.u16 66 = 0 then 1000 else c.u16 66,
          pkt := some (d.takeEnclosed c.enclosed).2.2.1.p, caps := (d.takeEnclosed c.enclosed).2.2.1.snd.caps,
          doms := (d.takeEnclosed c.enclosed).2.2.1.snd.doms, trailed := (d.takeEnclosed c.enclosed).2.2.1.trailed,
          key := (d.takeEnclosed c.enclosed).2.2.1.key }).accepted stAccepted .barrier (c.u8 0) := by
  rw [bodyJoinBarrier, if_neg (by omega), if_neg (by omega), if_set hjoined, if_clear hfree]
  refine (if_neg hlen).trans ?_
  generalize d.takeEnclosed c.enclosed = taken at hok ⊢
  obtain ⟨st, ofs, e, d'⟩ := taken
  exact if_neg (not_not_intro hok)

end

/-- A snapshot asked for by command is noted before it is asked of the tree. -/
def Dev.snapNoted (d : Dev) (t : Int) : Dev :=
  { d with
    join :=
      { d.join with
        snaps :=
          d.join.snaps ++
            [{ id := 0, atT := t, raw := d.rawOfNs t, job := localSnap + d.join.snapNo,
               deadline := d.rawOfNs t + rawNs (d.join.tOp + 100000000), join := true }], snapNo := d.join.snapNo + 1 } }

theorem bodyJoinSnapshot_legal {t : Int} (hjoined : d.joined = true) (ht : d.snapInstant (c.u64 0 % 2 ^ 48) (c.u32 8) = .ok t) :
    bodyJoinSnapshot c d =
      Dev.accepted (if d.join.st = .root then (d.snapNoted t).snapAsk t
        else (d.snapNoted t).sysSend (d.snapNoted t).parents 0x14 0xFFFF true false [0, t]) stAccepted .snapshot (localSnap + d.join.snapNo) := by
  rw [bodyJoinSnapshot, if_set hjoined]
  simp only [ht]
  rfl

theorem bodyJoinGroupReset_free (hfree : d.join.resets.any (fun r => r.group = c.u16 0) = false) :
    bodyJoinGroupReset c d =
      ((d.sysSend d.treeLinks 0x16 0xFFFF true true [(c.u16 0 : Int), d.boundaryAt (d.netNs + d.join.tOp)]).groupSchedule (c.u16 0)
        (d.boundaryAt (d.netNs + d.join.tOp)) 1 d.join.ownId).accepted stAccepted .groupReset (c.u16 0) := by
  have hown {e : Dev} (h : Talks d e) : e.join.ownId = d.join.ownId := by
    unfold Talks at h
    rw [h]
  rw [bodyJoinGroupReset, if_clear hfree]
  dsimp only
  rw [hown (sysSend_talks _ _ _ _ _ _ _)]

end

/-- Settles O34: each body under its premises; a configuration by whether it changes the ID or the members. -/
theorem joinCommandsActOnTheTree : Obligations.JoinCommandsActOnTheTree := by
  unfold Obligations.JoinCommandsActOnTheTree
  refine ⟨?kept, ?changed, ?status, ?broadcast, ?reset, ?barrier, ?enclosed, ?snapshot⟩
  case kept =>
    refine answers_row _ _ _ _ _ (fun _ _ => rfl) fun c d _ ⟨hown, hasym, hpeers, hrun, hsame, hmembers, hsome, hst⟩ => ?_
    have hunchanged : (decide (c.u16 0 ≠ d.join.ownId) || decide (c.joinMembers ≠ d.join.members)) = false := by
      simpa using ⟨hsame, hmembers⟩
    refine (bodyJoinConfig_legal hown hasym hpeers hrun).trans ?_
    rw [hunchanged, joinSet_kept hsame hmembers hsome hst]
    rfl
  case changed =>
    refine answers_row _ _ _ _ _ (fun _ _ => rfl) fun c d _ ⟨hown, hasym, hpeers, hrun, hdiff⟩ => ?_
    have hchanged : (decide (c.u16 0 ≠ d.join.ownId) || decide (c.joinMembers ≠ d.join.members)) = true := by
      rw [Bool.or_eq_true, decide_eq_true_eq, decide_eq_true_eq]
      exact hdiff
    refine (bodyJoinConfig_legal hown hasym hpeers hrun).trans ?_
    rw [hchanged, joinSet_changed]
    rfl
  case status => exact answers_row _ _ _ _ _ (fun _ _ => rfl) fun _ _ _ _ => rfl
  case broadcast =>
    exact answers_row _ _ _ _ _ (fun _ _ => rfl) fun _ _ _ ⟨hlen, hjoined⟩ => (if_neg (Nat.not_lt.2 hlen)).trans (if_set hjoined)
  case reset => exact starts_row _ _ _ _ _ _ _ (fun _ _ => rfl) fun _ _ _ hnone => bodyJoinGroupReset_free hnone
  case barrier =>
    exact starts_row _ _ _ _ _ _ _ (fun _ _ => rfl) fun _ _ _ ⟨hn, htime, hjoined, hfree, hlen⟩ => bodyJoinBarrier_bare hn htime hjoined hfree hlen
  case enclosed =>
    exact starts_row _ _ _ _ _ _ _ (fun _ _ => rfl) fun _ _ _ ⟨hn, htime, hjoined, hfree, hlen, hok⟩ =>
      bodyJoinBarrier_enclosed hn htime hjoined hfree hlen hok
  case snapshot =>
    exact fun t => starts_row _ _ _ _ _ _ _ (fun _ _ => rfl) fun _ _ _ ⟨hjoined, ht⟩ => bodyJoinSnapshot_legal hjoined ht

end Sys2Proof.Machine

/-! PROOFS. The tree of joined devices: HELLO, delay, attaching, the root, time and T_op (O35). -/

namespace Sys2Proof.Machine

/-! ## A message of another device is counted -/

section
variable (d : Dev) (m : SysHdr)

theorem hearing_join : (d.hearing m).join = d.join := (hearing_enters d m).join
theorem hearing_flt : (d.hearing m).flt = d.flt := (hearing_enters d m).flt
theorem hearing_now : (d.hearing m).now = d.now := congrArg TimeState.raw (hearing_enters d m).time
theorem hearing_sysPort (p : Nat) : (d.hearing m).sysPort p = d.sysPort p := by unfold Dev.sysPort; rw [hearing_join]
theorem hearing_sysPortTile (p : Nat) : (d.hearing m).sysPortTile p = d.sysPortTile p := by
  unfold Dev.sysPortTile; rw [(hearing_enters d m).variant]
theorem hearing_portsIn (r : PortRole) : (d.hearing m).portsIn r = d.portsIn r := by unfold Dev.portsIn; simp only [hearing_sysPort]
theorem hearing_children : (d.hearing m).children = d.children := hearing_portsIn d m .child
theorem hearing_joined : (d.hearing m).joined = d.joined := by unfold Dev.joined; rw [hearing_join]

end

theorem condHolds_congr {d e : Dev} (h : e.flt = d.flt) (b ev t i : Nat) : e.condHolds b ev t i = d.condHolds b ev t i := by
  unfold Dev.condHolds; rw [h]

theorem Talks.sysPort {d e : Dev} (h : Talks d e) (p : Nat) : e.sysPort p = d.sysPort p := by
  unfold Talks at h; rw [h]; rfl
theorem Talks.join {d e : Dev} (h : Talks d e) : e.join = { d.join with seqs := e.join.seqs } := by
  unfold Talks at h; rw [h]
theorem Raises.sysPort {d e : Dev} (h : Raises d e) (p : Nat) : e.sysPort p = d.sysPort p := by
  unfold Raises at h; rw [h]; rfl

/-- Two changes of a port that agree on what it holds. -/
theorem updSysPort_congr {d : Dev} {p : Nat} {x : SysPort} {f g : SysPort → SysPort} (hport : d.sysPort p = x) (h : f x = g x) :
    d.updSysPort p f = d.updSysPort p g := by
  subst hport
  unfold Dev.updSysPort
  rw [h]

theorem sysPort_updSysPort (d : Dev) (p : Nat) (f : SysPort → SysPort) : (d.updSysPort p f).sysPort p = f (d.sysPort p) := mgetD_mput _ _ _ _

/-! ## What the loss of a link changes (R404, R414) -/

/-- Everything but outputs, the host attachment, counters, the joined system and time is as it was. -/
def Relinks (d e : Dev) : Prop := e = { d with out := e.out, host := e.host, cnt := e.cnt, join := e.join, time := e.time }

theorem Relinks.refl (d : Dev) : Relinks d d := rfl
theorem Relinks.trans {d e f : Dev} (h : Relinks d e) (g : Relinks e f) : Relinks d f := by unfold Relinks at *; rw [g, h]
theorem Relinks.flt {d e : Dev} (h : Relinks d e) : e.flt = d.flt := by unfold Relinks at h; rw [h]
theorem Talks.relinks {d e : Dev} (h : Talks d e) : Relinks d e := by unfold Talks at h; unfold Relinks; rw [h]
theorem relinks_join (d : Dev) (j : JoinState) : Relinks d { d with join := j } := rfl
theorem relinks_time (d : Dev) (t : TimeState) : Relinks d { d with time := t } := rfl
theorem Relinks.foldl {α : Type} {f : Dev → α → Dev} (hf : ∀ d x, Relinks d (f d x)) (l : List α) (d : Dev) : Relinks d (l.foldl f d) := by
  induction l generalizing d with
  | nil => exact Relinks.refl d
  | cons a l ih => exact (hf d a).trans (ih (f d a))

theorem Relinks.ite {d a b : Dev} (c : Prop) [Decidable c] (ha : Relinks d a) (hb : Relinks d b) : Relinks d (if c then a else b) := by
  split
  · exact ha
  · exact hb

/-- A change of source is a change of time alone. -/
theorem retime_same (d : Dev) : ∃ time, d.retime = { d with time := time } := by
  unfold Dev.retime
  dsimp only
  repeat' split
  all_goals exact ⟨_, rfl⟩

theorem retime_relinks (d : Dev) : Relinks d d.retime := by
  obtain ⟨time, h⟩ := retime_same d
  rw [h]
  exact relinks_time d time

theorem barrierDrop_relinks (d : Dev) (n st : Nat) : Relinks d (d.barrierDrop n st) := by
  unfold Dev.barrierDrop
  split
  · exact ((relinks_join d _).trans (count_talks _ _ _ _).relinks).trans (complete_talks _ _ _ _ _).relinks
  · exact Relinks.refl d

theorem opTimeFresh_relinks (d : Dev) (changed : Bool) : Relinks d (d.opTimeFresh changed) := by
  have habort (e : Dev) (n : Nat) : Relinks e (e.barrierAbortDown n stState) :=
    (sysSend_talks _ _ _ _ _ _ _).relinks.trans (barrierDrop_relinks _ _ _)
  unfold Dev.opTimeFresh
  dsimp only
  refine Relinks.ite _ (Relinks.refl d) (Relinks.trans (Relinks.ite _ (Relinks.foldl habort _ d) (Relinks.refl d)) (Relinks.ite _ ?_ (Relinks.refl _)))
  exact (relinks_join _ _).trans (sysSend_talks _ _ _ _ _ _ _).relinks

theorem detach_relinks (d : Dev) (from_ : Option Nat) (whole : Bool) : Relinks d (d.detach from_ whole) := by
  unfold Dev.detach
  split
  · exact Relinks.refl d
  · refine Relinks.trans ?_ (retime_relinks _)
    refine Relinks.trans ?_ (relinks_time _ _)
    refine Relinks.trans ?_ (relinks_join _ _)
    refine Relinks.trans ?_ (Relinks.foldl (fun e n => barrierDrop_relinks e n stState) _ _)
    refine Relinks.trans ?_ (Relinks.foldl (fun e p => relinks_join e _) _ _)
    exact (sysSend_talks _ _ _ _ _ _ _).relinks

theorem dropLink_relinks (d : Dev) (p : Nat) : Relinks d (d.dropLink p) := by
  unfold Dev.dropLink
  split
  · exact detach_relinks d none false
  · refine Relinks.trans ?_ (opTimeFresh_relinks _ true)
    exact relinks_join d _
  · exact Relinks.refl d

theorem refuseLink_relinks (d : Dev) (p src : Nat) : Relinks d (d.refuseLink p src) := by
  have hrefused : Relinks d ((d.dropLink p).updSysPort p (fun x => { x with role := .refused, partner := src, pJoined := false, asked := false })) :=
    (dropLink_relinks d p).trans (relinks_join _ _)
  unfold Dev.refuseLink
  dsimp only
  split
  · exact hrefused
  · exact hrefused.trans (count_talks _ _ _ _).relinks

theorem refuseLink_role (d : Dev) (p src : Nat) : ((d.refuseLink p src).sysPort p).role = .refused := by
  unfold Dev.refuseLink
  dsimp only
  split
  · rw [sysPort_updSysPort]
  · rw [(count_talks _ _ _ _).sysPort, sysPort_updSysPort]

/-! ## HELLO (R403 to R405, R414) -/

section
variable {d : Dev} {m : SysHdr} (hheard : d.heard m = true)
include hheard

section
variable (h : HelloBody) (hcond : d.condHolds 0x0D 0x01 (d.sysPortTile m.port) m.port = false)
include hcond

/-- A HELLO that names this device refuses the link and raises F2. -/
theorem opHello_own (hmembers : d.join.members.isSome = true) (hown : m.src = d.join.ownId) :
    ((d.opHello m h).sysPort m.port).role = .refused ∧ Raised (d.opHello m h) 0x0D 0x01 (d.sysPortTile m.port) m.port := by
  obtain ⟨l, hl⟩ := Option.isSome_iff_exists.1 hmembers
  have hclear : ((d.hearing m).refuseLink m.port m.src).condHolds 0x0D 0x01 (d.sysPortTile m.port) m.port = false := by
    rw [condHolds_congr (refuseLink_relinks _ _ _).flt, condHolds_congr (hearing_flt d m), hcond]
  unfold Dev.opHello
  rw [sysIn_heard hheard]
  simp only [hearing_join, hearing_sysPortTile, hl]
  rw [if_pos hown, if_clear hclear]
  refine ⟨?_, raise_raised _ _ _ _ _ _ _ _ _⟩
  rw [(raise_raises _ _ _ _ _ _ _ _ _).sysPort, refuseLink_role]

/-- Another's HELLO refuses the link or is used, as the member list says. -/
theorem opHello_other {l : List Nat} (hmembers : d.join.members = some l) (hother : m.src ≠ d.join.ownId) :
    d.opHello m h =
      if !(l.contains m.src && l.contains d.join.ownId && h.bothListed) || 1000000 < (d.sysPort m.port).delay then
        (d.hearing m).refuseLink m.port m.src
      else (d.hearing m).helloOn m h := by
  have hclear : (d.hearing m).condHolds 0x0D 0x01 (d.sysPortTile m.port) m.port = false := by
    rw [condHolds_congr (hearing_flt d m), hcond]
  unfold Dev.opHello
  rw [sysIn_heard hheard]
  simp only [hearing_join, hearing_sysPortTile, hmembers]
  rw [if_neg hother, if_clear hclear, hearing_sysPort, hearing_join]

end

end

/-- A port with what a HELLO says. -/
def SysPort.hello (x : SysPort) (m : SysHdr) (h : HelloBody) (now : Raw) : SysPort :=
  { x with
    role := if x.role = .down || x.role = .refused then .standby else x.role, partner := m.src, pJoined := h.attached,
    pRoot := m.root, pHops := m.hops, pSum := h.sum, pLow := h.low, pDeep := h.deepest, helloAt := now, miss := 0 }

/-- A HELLO of the parent: depth, root and path sum are its own and the link's. -/
theorem helloOn_parent {d : Dev} {m : SysHdr} {h : HelloBody} (hst : d.join.st = .attached) (hrole : (d.sysPort m.port).role = .parent)
    (hatt : h.attached = true) :
    d.helloOn m h =
      { d.updSysPort m.port (fun x => x.hello m h d.now) with
        join := { (d.updSysPort m.port (fun x => x.hello m h d.now)).join with
          depth := min 12 (m.hops + 1), root := m.root, sum := h.sum + (d.sysPort m.port).delay + 600 } } := by
  have hattached : d.join.st ≠ .detached := by
    rw [hst]
    exact nofun
  obtain ⟨attached, low, sum, both, below, deepest⟩ := h
  obtain rfl : attached = true := hatt
  unfold Dev.helloOn
  simp only [sysPort_updSysPort, hrole, reduceCtorEq, decide_false, Bool.or_self, Bool.false_eq_true, if_false, Bool.not_true]
  exact (if_pos hattached).trans rfl

/-- A HELLO of a listed partner within the bound of the delay is used. -/
theorem opHello_parent {d : Dev} {m : SysHdr} {h : HelloBody} {l : List Nat} (hheard : d.heard m = true) (hmembers : d.join.members = some l)
    (hother : m.src ≠ d.join.ownId) (hsrc : l.contains m.src = true) (hown : l.contains d.join.ownId = true) (hboth : h.bothListed = true)
    (hdelay : (d.sysPort m.port).delay ≤ 1000000) (hcond : d.condHolds 0x0D 0x01 (d.sysPortTile m.port) m.port = false) :
    d.opHello m h = (d.hearing m).helloOn m h := by
  rw [opHello_other hheard h hcond hmembers hother, hsrc, hown, hboth]
  exact if_neg (by simpa using hdelay)

/-! ## Link delay (R406) -/

section
variable {d : Dev} {m : SysHdr} {t1 : BitVec 64} (t2 t3 : BitVec 64)

theorem opDelayResp_waits (hheard : d.heard m = true) (ht1 : (d.sysPort m.port).t1 = some t1) (hlen : (d.sysPort m.port).delays.length < 15) :
    d.opDelayResp m t1 t2 t3 =
      Dev.sendDelayReq ((d.hearing m).updSysPort m.port (fun x =>
        { x with delays := x.delays ++ [((d.now - t1).toInt - (t3 - t2).toInt) / 131072 + x.asym] })) m.port := by
  have hroom : ((d.sysPort m.port).delays ++ [((d.now - t1).toInt - (t3 - t2).toInt) / 131072 + (d.sysPort m.port).asym]).length < 16 := by
    rw [List.length_append, List.length_singleton]
    omega
  unfold Dev.opDelayResp
  rw [sysIn_heard hheard]
  simp only [hearing_sysPort, hearing_now, ht1, ne_eq, not_true_eq_false, if_false]
  exact (if_pos hroom).trans (congrArg (fun e => Dev.sendDelayReq e m.port) (updSysPort_congr (hearing_sysPort d m m.port) rfl))

theorem opDelayResp_measured (hheard : d.heard m = true) (ht1 : (d.sysPort m.port).t1 = some t1)
    (hlen : (d.sysPort m.port).delays.length = 15) :
    d.opDelayResp m t1 t2 t3 =
      (let ds := (d.sysPort m.port).delays ++ [((d.now - t1).toInt - (t3 - t2).toInt) / 131072 + (d.sysPort m.port).asym]
       Dev.delayMeasured ((d.hearing m).updSysPort m.port (fun x => { x with delays := ds })) m.port (median16 ds)) := by
  have hfull : ¬ ((d.sysPort m.port).delays ++ [((d.now - t1).toInt - (t3 - t2).toInt) / 131072 + (d.sysPort m.port).asym]).length < 16 := by
    rw [List.length_append, hlen, List.length_singleton]
    omega
  unfold Dev.opDelayResp
  rw [sysIn_heard hheard]
  simp only [hearing_sysPort, hearing_now, ht1, ne_eq, not_true_eq_false, if_false]
  exact if_neg hfull

end

/-! ## Attaching and the root (R405, R407, R408, R414) -/

theorem opAttach_taken {d : Dev} {m : SysHdr} (hheard : d.heard m = true) (hjoined : d.joined = true)
    (hrole : (d.sysPort m.port).role = .standby ∨ (d.sysPort m.port).role = .child) (hdepth : d.join.depth < 12)
    (hroom : (d.children.filter (· ≠ m.port)).length < 3) :
    d.opAttach m =
      (let r := (d.hearing m).updSysPort m.port (fun x => { x with role := .child, pJoined := false })
       let r : Dev := { r with join := { r.join with below := mput r.join.below m.port [m.src] } }
       (r.sysSend [m.port] 0x05 m.src false true []).opTimeFresh true) := by
  have hok : (!d.joined || !(decide ((d.sysPort m.port).role = .standby) || decide ((d.sysPort m.port).role = .child)) ||
      decide (12 ≤ d.join.depth) || decide (3 ≤ (d.children.filter (· ≠ m.port)).length)) = false := by
    simp only [hjoined, Bool.or_eq_false_iff, Bool.not_eq_false', Bool.or_eq_true, decide_eq_true_eq, decide_eq_false_iff_not]
    exact ⟨⟨⟨trivial, hrole⟩, by omega⟩, by omega⟩
  unfold Dev.opAttach
  rw [sysIn_heard hheard]
  simp only [hearing_sysPort, hearing_joined, hearing_join, hearing_children]
  exact if_clear hok

theorem formed_join (d : Dev) : ∃ seqs, d.formed.join = { d.join with inflight := [], seqs := seqs } := by
  have hcounted : ((d.count .reforms 0).count .bcastLost 0 d.join.inflight.length).join = d.join :=
    ((count_enters _ _ _ _).trans (count_enters _ _ _ _)).join
  refine ⟨d.formed.join.seqs, ?_⟩
  unfold Dev.formed
  generalize (d.count .reforms 0).count .bcastLost 0 d.join.inflight.length = counted at hcounted ⊢
  rw [← hcounted]
  exact (notify_talks _ _ _ _).join

theorem formed_sysPort (d : Dev) (p : Nat) : d.formed.sysPort p = d.sysPort p := by
  obtain ⟨seqs, h⟩ := formed_join d
  unfold Dev.sysPort
  rw [h]

theorem opDetach_parent {d : Dev} {m : SysHdr} (hheard : d.heardOnTree m = true) (hrole : (d.sysPort m.port).role = .parent) :
    d.opDetach m = ((d.hearing m).detach (some m.port) false).chooseParent := by
  unfold Dev.opDetach
  rw [treeIn_heard hheard, hearing_sysPort]
  exact if_pos hrole

theorem opDetach_child {d : Dev} {m : SysHdr} (hheard : d.heardOnTree m = true) (hrole : (d.sysPort m.port).role ≠ .parent) :
    d.opDetach m = ((d.hearing m).detach (some m.port) true).chooseParent := by
  unfold Dev.opDetach
  rw [treeIn_heard hheard, hearing_sysPort]
  exact if_neg hrole

theorem opTime_parent {d : Dev} {m : SysHdr} (departNs : Int) (hheard : d.heard m = true) (hst : d.join.st = .attached)
    (hrole : (d.sysPort m.port).role = .parent) :
    d.opTime m departNs =
      Dev.measure (Dev.retime { d.hearing m with time := { (d.hearing m).time with sysOk := true } }) 2
        (stamp100 (d.hearing m).netU - 10 * (departNs + (d.sysPort m.port).delay)) := by
  unfold Dev.opTime
  rw [sysIn_heard hheard]
  simp only [hearing_sysPort, hearing_join]
  exact if_neg (by simp [hst, hrole])

theorem opOpTime_parent {d : Dev} {m : SysHdr} (tOp members : Nat) (hheard : d.heardOnTree m = true)
    (hrole : (d.sysPort m.port).role = .parent) :
    d.opOpTime m tOp members =
      Dev.sysPass { d.hearing m with join := { (d.hearing m).join with tOp := tOp, nMembers := members } } d.children 0x08 m
        [(tOp : Int), (members : Int)] := by
  unfold Dev.opOpTime
  rw [treeIn_heard hheard]
  simp only [hearing_sysPort]
  rw [if_neg (not_not_intro hrole)]
  rw [← hearing_children d m]
  rfl

/-- An acknowledged ATTACH: the link is the parent's. -/
theorem opAttachAck_asked {d : Dev} {m : SysHdr} (hheard : d.heard m = true) (hst : d.join.st = .detached)
    (hasked : (d.sysPort m.port).asked = true) (hrole : (d.sysPort m.port).role = .standby) :
    d.opAttachAck m =
      Dev.formed { (d.hearing m).updSysPort m.port (fun x => { x with role := .parent, asked := false }) with
        join := { ((d.hearing m).updSysPort m.port (fun x => { x with role := .parent, asked := false })).join with
          st := .attached, parent := m.port, depth := min 12 (m.hops + 1), root := m.root % 512, sum := (d.sysPort m.port).pathSum,
          low := 0xFFFF } } := by
  unfold Dev.opAttachAck
  rw [sysIn_heard hheard]
  simp only [hearing_sysPort, hearing_join]
  exact if_neg (by simp [hst, hasked, hrole])

/-- The device as the root of its region. -/
def Dev.regionRoot (d : Dev) : Dev :=
  let r : Dev := { d with join := { d.join with st := .root, depth := 0, root := d.join.ownId, sum := 0, low := 0xFFFF, nMembers := 1, tOp := tOpOf 0 } }
  (Dev.retime { r with time := { r.time with sysOk := false } }).formed

theorem regionRoot_join (d : Dev) :
    ∃ seqs, d.regionRoot.join =
      { d.join with
        st := .root, depth := 0, root := d.join.ownId, sum := 0, low := 0xFFFF, nMembers := 1, tOp := 2000, inflight := [], seqs := seqs } := by
  unfold Dev.regionRoot
  dsimp only
  obtain ⟨time, h⟩ := retime_same _
  rw [h]
  exact formed_join _

theorem advanceTo_join (d : Dev) (t : Raw) : (d.advanceTo t).join = d.join := by
  obtain ⟨time, flt, h⟩ := advanceTo_same d t
  rw [h]

/-- The lowest detached ID of a region without an attached neighbour becomes its root. -/
theorem opRegionRootTimeout_alone {d : Dev} (hready : d.ready = true) (hst : d.join.st = .detached)
    (halone : sysPorts.any (fun p => d.portUsable p && (d.sysPort p).role = .standby && (d.sysPort p).pJoined) = false)
    (hlow : d.lowKnown = d.join.ownId) :
    d.opRegionRootTimeout = (d.advanceTo (d.join.detachedAt + rawMs 2)).regionRoot := by
  have hrun : (!d.ready || decide (d.join.st ≠ .detached)) = false := by simp [hready, hst]
  have hseen : (sysPorts.any (fun p => d.portUsable p && (d.sysPort p).role = .standby && (d.sysPort p).pJoined) ||
      decide (d.lowKnown ≠ d.join.ownId)) = false := by rw [halone, hlow]; simp
  rw [Dev.opRegionRootTimeout, if_clear hrun]
  exact if_clear hseen

/-- Settles O35: each event under its premises; a HELLO by its sender, a DETACH by the link it comes on. -/
theorem treesFormAndKeepTime : Obligations.TreesFormAndKeepTime := by
  unfold Obligations.TreesFormAndKeepTime
  refine ⟨?own, ?stranger, ?parent, ?tx, ?miss, ?delayReq, ?delayResp, ?measured, ?tick, ?attach, ?ack, ?detachParent, ?detachChild, ?root,
    ?time, ?timeTx, ?opTime⟩
  case own =>
    intro d m h ⟨hheard, hmembers, hown, hcond⟩
    exact leaves_of (f := fun d => d.opHello m h) (fun _ => rfl) (opHello_own hheard h hcond hmembers hown)
  case stranger =>
    intro d m h l ⟨hheard, hmembers, hother, hsrc, hcond⟩
    refine becomes_of (f := fun d => d.opHello m h) (fun _ => rfl) ?_
    refine (opHello_other hheard h hcond hmembers hother).trans ?_
    rw [hsrc]
    rfl
  case parent =>
    intro d m h l ⟨hheard, hmembers, hother, hsrc, hown, hboth, hdelay, hcond, hst, hrole, hatt⟩
    have hused : d.opHello m h = _ := (opHello_parent hheard hmembers hother hsrc hown hboth hdelay hcond).trans
      (helloOn_parent (by rw [hearing_join, hst]) (by rw [hearing_sysPort, hrole]) hatt)
    have hport : (((d.hearing m).updSysPort m.port (fun x => x.hello m h (d.hearing m).now)).sysPort m.port) =
        ((d.hearing m).sysPort m.port).hello m h (d.hearing m).now := sysPort_updSysPort _ _ _
    refine ⟨_, becomes_of (f := fun d => d.opHello m h) (fun _ => rfl) hused, ?_, rfl, rfl, ?_, ?_, ?_⟩
    · exact (congrArg JoinState.st (hearing_join d m)).trans hst
    · rw [hearing_sysPort]
    · exact congrArg SysPort.partner hport
    · exact (congrArg SysPort.helloAt hport).trans (hearing_now d m)
  case tx =>
    intro d port l ⟨hmembers, hready⟩
    refine becomes_of (f := fun d => d.opHelloTx port) (fun _ => rfl) ?_
    simp only [Dev.opHelloTx, hmembers]
    exact if_set hready
  case miss =>
    intro d port ⟨hready, hrole⟩
    refine becomes_of (f := fun d => d.opHelloMiss port) (fun _ => rfl) ?_
    exact if_clear (by simp [hready, hrole])
  case delayReq =>
    intro d m t1 hheard
    exact becomes_of (f := fun d => d.opDelayReq m t1) (fun _ => rfl) (sysIn_heard hheard _)
  case delayResp =>
    intro d m t1 t2 t3 ⟨hheard, ht1, hlen⟩
    exact becomes_of (f := fun d => d.opDelayResp m t1 t2 t3) (fun _ => rfl) (opDelayResp_waits t2 t3 hheard ht1 hlen)
  case measured =>
    intro d m t1 t2 t3 ⟨hheard, ht1, hlen⟩
    exact becomes_of (f := fun d => d.opDelayResp m t1 t2 t3) (fun _ => rfl) (opDelayResp_measured t2 t3 hheard ht1 hlen)
  case tick =>
    intro d port ⟨hready, husable⟩
    exact becomes_of (f := fun d => d.opDelayMeasureTick port) (fun _ => rfl) (if_pos (by rw [hready, husable]; rfl))
  case attach =>
    intro d m ⟨hheard, hjoined, hrole, hdepth, hroom⟩
    exact becomes_of (f := fun d => d.opAttach m) (fun _ => rfl) (opAttach_taken hheard hjoined hrole hdepth hroom)
  case ack =>
    intro d m ⟨hheard, hst, hasked, hrole⟩
    obtain ⟨seqs, hjoin⟩ := formed_join _
    refine leaves_of (f := fun d => d.opAttachAck m) (fun _ => rfl) ?_
    rw [opAttachAck_asked hheard hst hasked hrole, formed_sysPort, hjoin]
    refine ⟨rfl, rfl, rfl, rfl, rfl, ?_, rfl⟩
    exact congrArg SysPort.role (sysPort_updSysPort (d.hearing m) m.port (fun x => { x with role := .parent, asked := false }))
  case detachParent =>
    intro d m ⟨hheard, hrole⟩
    exact becomes_of (f := fun d => d.opDetach m) (fun _ => rfl) (opDetach_parent hheard hrole)
  case detachChild =>
    intro d m ⟨hheard, hrole⟩
    exact becomes_of (f := fun d => d.opDetach m) (fun _ => rfl) (opDetach_child hheard hrole)
  case root =>
    intro d ⟨hready, hst, halone, hlow⟩
    obtain ⟨seqs, hjoin⟩ := regionRoot_join (d.advanceTo (d.join.detachedAt + rawMs 2))
    refine leaves_of (f := Dev.opRegionRootTimeout) (fun _ => rfl) ?_
    rw [opRegionRootTimeout_alone hready hst halone hlow, hjoin, advanceTo_join]
    exact ⟨rfl, rfl, rfl, rfl, rfl, rfl⟩
  case time =>
    intro d m departNs ⟨hheard, hst, hrole⟩
    exact becomes_of (f := fun d => d.opTime m departNs) (fun _ => rfl) (opTime_parent departNs hheard hst hrole)
  case timeTx =>
    intro d port ⟨hready, hjoined, hrole⟩
    exact becomes_of (f := fun d => d.opTimeMsgTx port) (fun _ => rfl) (if_clear (by simp [hready, hjoined, hrole]))
  case opTime =>
    intro d m tOp members ⟨hheard, hrole⟩
    exact becomes_of (f := fun d => d.opOpTime m tOp members) (fun _ => rfl) (opOpTime_parent tOp members hheard hrole)

end Sys2Proof.Machine

/-! PROOFS. Broadcasts, barriers, snapshots, group resets and packets of peers (O36). -/

namespace Sys2Proof.Machine

/-! ## The snapshot areas are left by what is sent (R471) -/

/-- The copy being written, those that wait, the newest area and the generations are as they were. -/
structure KeepsAreas (d e : Dev) : Prop where
  newest : e.cnt.newest = d.cnt.newest
  writing : e.cnt.writing = d.cnt.writing
  queued : e.cnt.queued = d.cnt.queued
  gens : e.host.gens = d.host.gens

theorem KeepsAreas.refl (d : Dev) : KeepsAreas d d := ⟨rfl, rfl, rfl, rfl⟩

theorem KeepsAreas.trans {d e f : Dev} (h : KeepsAreas d e) (g : KeepsAreas e f) : KeepsAreas d f :=
  ⟨g.newest.trans h.newest, g.writing.trans h.writing, g.queued.trans h.queued, g.gens.trans h.gens⟩

/-- What keeps the areas of a device keeps those of one with the same areas. -/
theorem KeepsAreas.after {d e f : Dev} (g : KeepsAreas e f) (h : KeepsAreas d e) : KeepsAreas d f := h.trans g

theorem KeepsAreas.foldl {α : Type} {f : Dev → α → Dev} (hf : ∀ d x, KeepsAreas d (f d x)) (l : List α) (d : Dev) : KeepsAreas d (l.foldl f d) := by
  induction l generalizing d with
  | nil => exact KeepsAreas.refl d
  | cons a l ih => exact (hf d a).trans (ih (f d a))

theorem vector_keepsAreas (d : Dev) (n : Nat) : KeepsAreas d (d.vector n) := by
  rw [vector_same]
  exact ⟨rfl, rfl, rfl, rfl⟩

theorem crossEvent_keepsAreas (d : Dev) (key v n : Nat) (same : Bool) : KeepsAreas d (d.crossEvent key v n same) := by
  have hover (t : Threshold) (k : Nat) (w : Bool) (x : Nat) : KeepsAreas d (d.overflowEvent key t k w same x) := by
    unfold Dev.overflowEvent
    dsimp only
    split
    · exact KeepsAreas.after (vector_keepsAreas _ _) ⟨rfl, rfl, rfl, rfl⟩
    · exact ⟨rfl, rfl, rfl, rfl⟩
  unfold Dev.crossEvent
  split
  · exact KeepsAreas.refl d
  dsimp only
  split
  · exact hover _ _ _ _
  split
  · exact hover _ _ _ _
  · exact KeepsAreas.refl d

theorem count_keepsAreas (d : Dev) (c : Cnt) (obj n : Nat) : KeepsAreas d (d.count c obj n) := by
  unfold Dev.count Dev.addKey
  split
  · exact KeepsAreas.after (crossEvent_keepsAreas _ _ _ _ _) ⟨rfl, rfl, rfl, rfl⟩
  · exact KeepsAreas.after (crossEvent_keepsAreas _ _ _ _ _) ⟨rfl, rfl, rfl, rfl⟩

theorem sendTo_keepsAreas (d : Dev) (ch : Nat) (b : List Byte) : KeepsAreas d (d.sendTo ch b) := by
  have hdeliver (e : Dev) : KeepsAreas e (e.deliver ch) := by
    have hset (m : MboxChan) : KeepsAreas e (e.setMbox ch m) := ⟨rfl, rfl, rfl, rfl⟩
    unfold Dev.deliver
    dsimp only
    repeat' split
    · exact (hset _).trans (vector_keepsAreas _ _)
    · exact hset _
    · exact KeepsAreas.refl e
    · exact KeepsAreas.refl e
  unfold Dev.sendTo
  dsimp only
  generalize (d.mbox ch).queue.length + (if (d.mbox ch).recv.isSome then 1 else 0) = held
  repeat' split
  · exact ⟨rfl, rfl, rfl, rfl⟩
  · exact ⟨rfl, rfl, rfl, rfl⟩
  · exact KeepsAreas.after (hdeliver _) ⟨rfl, rfl, rfl, rfl⟩

theorem sent_keepsAreas (d : Dev) (o : Output) (c : Cnt) (obj : Nat) : KeepsAreas d ((d.emit o).count c obj) :=
  KeepsAreas.after (count_keepsAreas _ _ _ _) ⟨rfl, rfl, rfl, rfl⟩

theorem sysSend_keepsAreas (d : Dev) (ps : List Nat) (typ dst : Nat) (u w : Bool) (v : List Int) : KeepsAreas d (d.sysSend ps typ dst u w v) :=
  KeepsAreas.after (e := (d.nextSeq typ).2) (KeepsAreas.foldl (fun e _ => sent_keepsAreas e _ _ _) _ _) ⟨rfl, rfl, rfl, rfl⟩

theorem sysBytesTo_keepsAreas (d : Dev) (ps : List Nat) (typ dst seq : Nat) (b : List Byte) : KeepsAreas d (d.sysBytesTo ps typ dst seq b) :=
  KeepsAreas.foldl (fun e _ => sent_keepsAreas e _ _ _) _ d

theorem toSender_keepsAreas (d : Dev) (ch : Nat) (b : List Byte) : KeepsAreas d (d.toSender ch b) := by
  unfold Dev.toSender
  split
  · exact KeepsAreas.refl d
  split
  · exact KeepsAreas.after (e := (d.nextSeq 0x21).2) (sysBytesTo_keepsAreas _ _ _ _ _ _) ⟨rfl, rfl, rfl, rfl⟩
  · exact sendTo_keepsAreas _ _ _

theorem completeJob_keepsAreas (d : Dev) (j : Job) (st : Nat) (b : List Byte) (n : Nat) : KeepsAreas d (d.completeJob j st b n) := by
  unfold Dev.completeJob
  split
  · exact KeepsAreas.refl d
  · exact toSender_keepsAreas _ _ _

theorem complete_keepsAreas (d : Dev) (k : JobKind) (obj st : Nat) (b : List Byte) : KeepsAreas d (d.complete k obj st b) :=
  KeepsAreas.after (KeepsAreas.foldl (fun e j => completeJob_keepsAreas e j st b 0) _ _) ⟨rfl, rfl, rfl, rfl⟩

theorem snapDone_keepsAreas (d : Dev) (id src : Nat) : KeepsAreas d (d.snapDone id src) := by
  have hcheck (e : Dev) : KeepsAreas e (e.snapCheck id) := by
    unfold Dev.snapCheck
    repeat' split
    · exact KeepsAreas.refl e
    · exact ⟨rfl, rfl, rfl, rfl⟩
    · exact KeepsAreas.refl e
    · exact KeepsAreas.after (complete_keepsAreas _ _ _ _ _) ⟨rfl, rfl, rfl, rfl⟩
    · exact KeepsAreas.refl e
  exact KeepsAreas.after (hcheck _) ⟨rfl, rfl, rfl, rfl⟩

/-- The device whose area is written in full. -/
def Dev.areaWritten (d : Dev) (a : SnapArea) : Dev :=
  { d with
    cnt := { (if d.cnt.nextArea = 2 then { d.cnt with areaB := a } else { d.cnt with areaA := a }) with newest := d.cnt.nextArea, writing := none },
    host := { d.host with gens := addNth d.host.gens d.cnt.nextArea 1, areaAt := mput d.host.areaAt d.cnt.nextArea (d.frame, d.netNs) } }

theorem areaWritten_queued (d : Dev) (a : SnapArea) : (d.areaWritten a).cnt.queued = d.cnt.queued := by
  unfold Dev.areaWritten
  dsimp only
  split <;> rfl

/-- A written area is reported where it was asked for. -/
def Dev.areaReported (d : Dev) (a : SnapArea) : Dev :=
  if a.join then (d.sysSend d.treeLinks 0x15 0xFFFF true true [(a.id : Int)]).snapDone a.id d.join.ownId
  else if localSnap ≤ a.id then
    Dev.complete { d with join := { d.join with snaps := d.join.snaps.filter (fun j => j.id ≠ a.id) } } .cntSnapshot a.id stOk (leBytes 4 a.id)
  else d

theorem areaReported_keepsAreas (d : Dev) (a : SnapArea) : KeepsAreas d (d.areaReported a) := by
  unfold Dev.areaReported
  split
  · exact (sysSend_keepsAreas _ _ _ _ _ _ _).trans (snapDone_keepsAreas _ _ _)
  split
  · exact KeepsAreas.after (complete_keepsAreas _ _ _ _ _) ⟨rfl, rfl, rfl, rfl⟩
  · exact KeepsAreas.refl d

/-- The copy that has waited longest is taken. -/
def Dev.waitingCopy (d : Dev) : Dev :=
  match d.cnt.queued with
  | [] => d
  | j :: js => Dev.capture { d with cnt := { d.cnt with queued := js } } j true

theorem waitingCopy_none {d : Dev} (h : d.cnt.queued = []) : d.waitingCopy = d := by
  unfold Dev.waitingCopy
  rw [h]

/-- The end of a write: the area, its report, then the copy that waits. -/
theorem opSnapshotWriteDone_writing {d : Dev} {a : SnapArea} (hwriting : d.cnt.writing = some a) :
    d.opSnapshotWriteDone = ((d.areaWritten a).areaReported a).waitingCopy := by
  unfold Dev.opSnapshotWriteDone
  split
  · next hnone => rw [hwriting] at hnone; cases hnone
  · next b hb =>
    obtain rfl : a = b := Option.some.inj (hwriting.symm.trans hb)
    rfl

/-- With no copy that waits, the written area is the newest and its generation is even. -/
theorem opSnapshotWriteDone_newest {d : Dev} (hwriting : d.cnt.writing.isSome = true) (hqueued : d.cnt.queued = [])
    (harea : d.cnt.nextArea < d.host.gens.length) :
    d.opSnapshotWriteDone.cnt.newest = d.cnt.nextArea ∧ d.opSnapshotWriteDone.cnt.writing = none ∧
      nth d.opSnapshotWriteDone.host.gens d.cnt.nextArea = nth d.host.gens d.cnt.nextArea + 1 := by
  obtain ⟨a, ha⟩ := Option.isSome_iff_exists.1 hwriting
  have hkeeps := areaReported_keepsAreas (d.areaWritten a) a
  rw [opSnapshotWriteDone_writing ha, waitingCopy_none (by rw [hkeeps.queued, areaWritten_queued, hqueued]), hkeeps.newest, hkeeps.writing,
    hkeeps.gens]
  exact ⟨rfl, rfl, addNth_same harea 1⟩

/-! ## A group reset keeps the groups of the trees (R413, R438) -/

/-- The trees and the numbers of their groups are as they were. -/
def KeepsGids (d e : Dev) : Prop := e.groups.map (fun g => (g.1, g.2.gid)) = d.groups.map (fun g => (g.1, g.2.gid))

theorem KeepsGids.refl (d : Dev) : KeepsGids d d := rfl
theorem KeepsGids.trans {d e f : Dev} (h : KeepsGids d e) (g : KeepsGids e f) : KeepsGids d f := Eq.trans g h
theorem KeepsGids.of_groups {d e : Dev} (h : e.groups = d.groups) : KeepsGids d e := by unfold KeepsGids; rw [h]
theorem KeepsGids.foldl {α : Type} {f : Dev → α → Dev} (hf : ∀ d x, KeepsGids d (f d x)) (l : List α) (d : Dev) : KeepsGids d (l.foldl f d) := by
  induction l generalizing d with
  | nil => exact KeepsGids.refl d
  | cons a l ih => exact (hf d a).trans (ih (f d a))

/-- The trees of a group can be read from the numbers alone. -/
theorem KeepsGids.groupTrees {d e : Dev} (h : KeepsGids d e) (g : Nat) : e.groupTrees g = d.groupTrees g := by
  have hread (x : Dev) : x.groupTrees g = ((x.groups.map (fun g => (g.1, g.2.gid))).filter (fun e => e.2 = g)).map (fun e => e.1) := by
    rw [List.filter_map, List.map_map]
    rfl
  rw [hread, hread, h]

theorem updGroup_keepsGids (d : Dev) (t : Nat) {f : Group → Group} (hf : ∀ g, (f g).gid = g.gid) : KeepsGids d (d.updGroup t f) := by
  unfold KeepsGids Dev.updGroup mmod
  rw [List.map_map]
  refine List.map_congr_left fun e _ => ?_
  by_cases he : e.1 = t
  · simp [he, hf]
  · simp [he]

theorem releaseTree_keepsGids (d : Dev) (t : Nat) : KeepsGids d (d.releaseTree t) := by
  unfold Dev.releaseTree
  split
  · exact KeepsGids.refl d
  split
  · exact (KeepsGids.of_groups (leaseSend_talks _ _ _ _).groups).trans (updGroup_keepsGids _ _ fun _ => rfl)
  split
  · exact updGroup_keepsGids _ _ fun _ => rfl
  · exact KeepsGids.refl d

theorem advanceTo_keepsGids (d : Dev) (t : Raw) : KeepsGids d (d.advanceTo t) := by
  obtain ⟨time, flt, h⟩ := advanceTo_same d t
  rw [h]
  exact KeepsGids.of_groups rfl

theorem resetChan_keepsGids (d : Dev) (ch : Nat) : KeepsGids d (d.resetChan ch) := by
  have habsent (e : Dev) (tid : Nat) : KeepsGids e (e.termAbsent tid) := by
    unfold Dev.termAbsent Dev.zeroDerived
    split <;> exact KeepsGids.of_groups rfl
  unfold Dev.resetChan
  dsimp only
  refine KeepsGids.trans ?_ (KeepsGids.foldl (f := fun e t => e.ploam ch .enableSn t 0) (fun _ _ => KeepsGids.of_groups rfl) _ _)
  refine KeepsGids.trans ?_ (KeepsGids.of_groups rfl)
  refine KeepsGids.trans ?_ (KeepsGids.foldl (f := fun e (x : Nat × Terminal) => e.termAbsent x.1) (fun e x => habsent e x.1) _ _)
  split
  · exact KeepsGids.of_groups rfl
  · exact KeepsGids.refl d

theorem laneRestart_tree_keepsGids (d : Dev) (t : Nat) {l : Nat} (hl : l < 8) : KeepsGids d (d.laneRestart t l) := by
  unfold Dev.laneRestart
  simp only [hl, if_true]
  exact KeepsGids.of_groups rfl

theorem chanEnabling_keepsGids (d : Dev) (ch : Nat) : KeepsGids d (d.chanEnabling ch) := by
  have hwake (e : Dev) (t : Nat) {l : Nat} (hl : l < 8) : KeepsGids e (e.laneWake t l) := by
    unfold Dev.laneWake
    dsimp only
    split
    · exact laneRestart_tree_keepsGids _ _ hl
    split
    · exact KeepsGids.of_groups rfl
    · exact KeepsGids.refl e
  have htake (e : Dev) (t g k : Nat) : KeepsGids e (e.crossTake t g k) := by
    unfold Dev.crossTake
    split
    · exact KeepsGids.of_groups rfl
    · exact KeepsGids.refl e
  exact ((hwake d _ (Nat.mod_lt _ (by decide))).trans (htake _ _ _ _)).trans (KeepsGids.of_groups rfl)

theorem groupResetTree_keepsGids (d : Dev) (t : Nat) : KeepsGids d (d.groupResetTree t) := by
  unfold Dev.groupResetTree
  dsimp only
  generalize hleft : (d.releaseTree t).updGroup t _ = left
  have hheld : KeepsGids d left := by
    rw [← hleft]
    exact (releaseTree_keepsGids d t).trans (updGroup_keepsGids _ _ fun _ => rfl)
  generalize hreset : (treeChans t).foldl _ left = reset
  have hreset' : KeepsGids left reset := by
    rw [← hreset]
    refine KeepsGids.foldl (fun e c => ?_) _ _
    split
    · exact KeepsGids.refl e
    · exact resetChan_keepsGids e c
  generalize hon : List.foldl _ reset _ = on
  have hon' : KeepsGids reset on := by
    rw [← hon]
    refine KeepsGids.foldl (fun e c => ?_) _ _
    exact (chanEnabling_keepsGids e c).trans (KeepsGids.of_groups rfl)
  refine (hheld.trans hreset').trans (hon'.trans ?_)
  split
  · exact laneRestart_tree_keepsGids _ _ (Nat.mod_lt _ (by decide))
  · exact KeepsGids.refl on

/-! ## The messages (R409 to R413, R416) -/

theorem hearing_samePart (d : Dev) (m : SysHdr) (a b : Option (List Nat)) : (d.hearing m).samePart a b = d.samePart a b := by
  unfold Dev.samePart Dev.partSet Dev.memberList
  rw [hearing_join]

theorem hearing_routeTo (d : Dev) (m : SysHdr) (id : Nat) : (d.hearing m).routeTo id = d.routeTo id := by
  unfold Dev.routeTo Dev.parents
  rw [hearing_join, hearing_portsIn]

section
variable {d : Dev} {m : SysHdr} (hheard : d.heardOnTree m = true)
include hheard

theorem opBroadcast_seen (b : BroadcastBody) (hseen : m.src = d.join.ownId ∨ d.join.seen.contains (m.src, m.seq) = true) :
    d.opBroadcast m b = (d.hearing m).count .bcastDup 0 := by
  unfold Dev.opBroadcast
  rw [treeIn_heard hheard]
  simp only [hearing_join]
  exact if_pos (by simpa using hseen)

theorem opBroadcast_new (b : BroadcastBody) (hother : m.src ≠ d.join.ownId) (hnew : d.join.seen.contains (m.src, m.seq) = false) :
    d.opBroadcast m b =
      (let r : Dev := { d.hearing m with join := { (d.hearing m).join with seen := (m.src, m.seq) :: (d.hearing m).join.seen } }
       let r :=
         ((r.treeLinks.filter (fun p => p ≠ m.port && r.portUsable p)).foldl (fun d p => (d.emit (.sysBytes p 0x10 m.dst m.seq (bcastBytes b))).count
           .msgTx p) r).count .bcastRx 0
       r.bcastDeliver m.src b) := by
  have hfirst : (decide (m.src = (d.hearing m).join.ownId) || (d.hearing m).join.seen.contains (m.src, m.seq)) = false := by
    rw [hearing_join, hnew, decide_eq_false hother]
    rfl
  unfold Dev.opBroadcast
  rw [treeIn_heard hheard]
  exact if_clear hfirst

/-- An arrival from a child opens a barrier, merges into it, or is at odds with it. -/
theorem opBarrierArrive_child {b : BarrierBody} (hrole : (d.sysPort m.port).role = .child) (hn : b.n < 64) (e : Dev)
    (hnone : mget d.join.barriers b.n = none → (d.hearing m).barrierMerge b.n b.parts b.timeoutMs b.arrived = e)
    (hsome : ∀ x, mget d.join.barriers b.n = some x →
      (if (d.hearing m).samePart x.set b.parts then (d.hearing m).barrierMerge b.n b.parts b.timeoutMs b.arrived
        else if (d.hearing m).join.st = .root then (d.hearing m).barrierAbortDown b.n stBadParam
        else (d.hearing m).sysPass (d.hearing m).parents 0x11 m (barrierVals b)) = e) :
    d.opBarrierArrive m b = e := by
  have hchild : (decide (((d.hearing m).sysPort m.port).role ≠ .child) || decide (64 ≤ b.n)) = false := by
    rw [hearing_sysPort, hrole]
    simpa using hn
  rw [← hearing_join d m] at hnone hsome
  unfold Dev.opBarrierArrive
  rw [treeIn_heard hheard, if_clear hchild]
  split
  · exact hsome _ ‹_›
  · exact hnone ‹_›

theorem opBarrierRelease_parent (b : BarrierBody) (hrole : (d.sysPort m.port).role = .parent) :
    d.opBarrierRelease m b = ((d.hearing m).sysPass d.children 0x12 m (barrierVals b)).barrierReleased b.n b.release := by
  unfold Dev.opBarrierRelease
  rw [treeIn_heard hheard, if_neg (by rw [hearing_sysPort]; exact not_not_intro hrole), hearing_children]

theorem opBarrierAbort_parent (n status : Nat) (hrole : (d.sysPort m.port).role = .parent) :
    d.opBarrierAbort m n status = ((d.hearing m).sysPass d.children 0x13 m [(n : Int), (status : Int)]).barrierDrop n status := by
  unfold Dev.opBarrierAbort
  rw [treeIn_heard hheard, if_neg (by rw [hearing_sysPort]; exact not_not_intro hrole), hearing_children]

end

/-! ## Their ends and instants -/

theorem opBarrierTimeout_open {d : Dev} {n : Nat} {b : Barrier} (hopen : mget d.join.barriers n = some b) (hready : d.ready = true)
    (hroot : d.join.st = .root) (hfree : b.release = none) :
    d.opBarrierTimeout n = (d.advanceTo (b.firstAt + rawMs b.timeoutMs)).barrierAbortDown n stTimeout := by
  have hwaits : (!d.ready || decide (d.join.st ≠ .root) || b.release.isSome) = false := by
    rw [hready, hroot, hfree]
    rfl
  unfold Dev.opBarrierTimeout
  simp only [hopen]
  exact if_clear hwaits

theorem opPositionBatchFlush_joined {d : Dev} (hready : d.ready = true) (hjoined : d.joined = true) (hbatch : d.join.batch ≠ []) :
    d.opPositionBatchFlush =
      (fun (x : Dev) =>
        (fun (e : Dev) => e.bcastSend { kind := 1, records := (d.join.batch.take 112).map (fun r => (e.profileOf r.train, r.bytes)) })
          { x with join := { x.join with batch := d.join.batch.drop 112, batchAt := x.now } })
        (if 112 ≤ d.join.batch.length then d else d.advanceTo (d.join.batchAt + rawMs 1)) := by
  have hruns : (!d.ready || d.join.batch.isEmpty) = false := by
    rw [hready, List.isEmpty_eq_false_iff.2 hbatch]
    rfl
  have hjoin : (if 112 ≤ d.join.batch.length then d else d.advanceTo (d.join.batchAt + rawMs 1)).join = d.join := by
    split
    · rfl
    · exact advanceTo_join _ _
  have hstays : (if 112 ≤ d.join.batch.length then d else d.advanceTo (d.join.batchAt + rawMs 1)).joined = true := by
    unfold Dev.joined
    rw [hjoin]
    exact hjoined
  unfold Dev.opPositionBatchFlush
  rw [if_clear hruns]
  generalize (if 112 ≤ d.join.batch.length then d else d.advanceTo (d.join.batchAt + rawMs 1)) = x at hjoin hstays ⊢
  rw [← hjoin]
  exact if_pos hstays

/-- The instant of a group reset: every tree of the group in RUN is reset, and the reset is reported. -/
theorem opGroupResetInstant_applies {d : Dev} {group : Nat} {r : GroupReset} (hready : d.ready = true)
    (hfound : d.join.resets.find? (fun r => r.group = group) = some r) (hwaits : r.applied = false) (htrees : d.groupTrees group ≠ []) :
    d.opGroupResetInstant group =
      (let x := d.advanceTo r.raw
       let x := ((x.groupTrees group).filter (fun t => x.tileRun (tileOfTree t))).foldl Dev.groupResetTree x
       let x : Dev :=
         { x with join := { x.join with resets := x.join.resets.map (fun y => if y.group = group then { y with applied := true } else y) } }
       (x.sysSend x.treeLinks 0x17 0xFFFF true true [(group : Int)]).groupDone group x.join.ownId) := by
  have hkeeps : KeepsGids d (((((d.advanceTo r.raw).groupTrees group).filter (fun t => (d.advanceTo r.raw).tileRun (tileOfTree t))).foldl
      Dev.groupResetTree (d.advanceTo r.raw))) :=
    (advanceTo_keepsGids d r.raw).trans (KeepsGids.foldl groupResetTree_keepsGids _ _)
  unfold Dev.opGroupResetInstant
  simp only [hfound]
  rw [if_set hready, if_clear hwaits]
  generalize (((d.advanceTo r.raw).groupTrees group).filter (fun t => (d.advanceTo r.raw).tileRun (tileOfTree t))).foldl
      Dev.groupResetTree (d.advanceTo r.raw) = x at hkeeps ⊢
  have hlisted : (x.groupTrees group).isEmpty = false := by
    rw [hkeeps.groupTrees]
    exact List.isEmpty_eq_false_iff.2 htrees
  exact if_clear hlisted

theorem opCommand_own {d : Dev} {m : SysHdr} (p : Packet) {ch : Nat} (hheard : d.heardOnTree m = true) (hdst : m.dst = d.join.ownId)
    (hpeer : d.join.peers.find? (fun e => e.2 = m.src) = some (ch, m.src)) :
    d.opCommand m p = (d.hearing m).place { p with chan := ch } := by
  unfold Dev.opCommand
  rw [treeIn_heard hheard]
  simp only [hearing_join, hpeer]
  exact if_neg (not_not_intro hdst)

/-- Settles O36: each event under its premises. -/
theorem messagesCoordinateMembers : Obligations.MessagesCoordinateMembers := by
  unfold Obligations.MessagesCoordinateMembers
  refine ⟨?seen, ?new, ?flush, ?opens, ?odds, ?merges, ?release, ?abort, ?timeout, ?bare, ?enclosed, ?snapReq, ?instant, ?written, ?snapDone,
    ?snapTimeout, ?groupReset, ?applies, ?groupTimeout, ?groupDone, ?command, ?passed, ?reply⟩
  case seen =>
    intro d m b ⟨hheard, hseen⟩
    exact becomes_of (f := fun d => d.opBroadcast m b) (fun _ => rfl) (opBroadcast_seen hheard b hseen)
  case new =>
    intro d m b ⟨hheard, hother, hnew⟩
    exact becomes_of (f := fun d => d.opBroadcast m b) (fun _ => rfl) (opBroadcast_new hheard b hother hnew)
  case flush =>
    intro d x ⟨hready, hjoined, hbatch, hx⟩
    subst hx
    exact becomes_of (f := Dev.opPositionBatchFlush) (fun _ => rfl) (opPositionBatchFlush_joined hready hjoined hbatch)
  case opens =>
    intro d m b ⟨hheard, hrole, hn, hnone⟩
    refine becomes_of (f := fun d => d.opBarrierArrive m b) (fun _ => rfl) ?_
    refine opBarrierArrive_child hheard hrole hn _ (fun _ => rfl) fun x hx => ?_
    rw [hnone] at hx
    cases hx
  case odds =>
    intro d m b x ⟨hheard, hrole, hn, hsome, hodd, hroot⟩
    refine becomes_of (f := fun d => d.opBarrierArrive m b) (fun _ => rfl) ?_
    refine opBarrierArrive_child hheard hrole hn _ (fun hnone => ?_) fun y hy => ?_
    · rw [hnone] at hsome
      cases hsome
    · obtain rfl : x = y := Option.some.inj (hsome.symm.trans hy)
      rw [hearing_samePart, if_clear hodd, hearing_join, if_pos hroot]
  case merges =>
    intro d m b x ⟨hheard, hrole, hn, hsome, heven⟩
    refine becomes_of (f := fun d => d.opBarrierArrive m b) (fun _ => rfl) ?_
    refine opBarrierArrive_child hheard hrole hn _ (fun _ => rfl) fun y hy => ?_
    obtain rfl : x = y := Option.some.inj (hsome.symm.trans hy)
    rw [hearing_samePart, if_pos heven]
  case release =>
    intro d m b ⟨hheard, hrole⟩
    exact becomes_of (f := fun d => d.opBarrierRelease m b) (fun _ => rfl) (opBarrierRelease_parent hheard b hrole)
  case abort =>
    intro d m n status ⟨hheard, hrole⟩
    exact becomes_of (f := fun d => d.opBarrierAbort m n status) (fun _ => rfl) (opBarrierAbort_parent hheard n status hrole)
  case timeout =>
    intro d n b ⟨hopen, hready, hroot, hfree⟩
    exact becomes_of (f := fun d => d.opBarrierTimeout n) (fun _ => rfl) (opBarrierTimeout_open hopen hready hroot hfree)
  case bare =>
    intro d n b t ⟨hopen, hrel, hready, hpkt⟩
    refine becomes_of (f := fun d => d.opBarrierExecute n) (fun _ => rfl) ?_
    simp only [Dev.opBarrierExecute, hopen, hrel, hpkt]
    exact if_set hready
  case enclosed =>
    intro d n b t p ⟨hopen, hrel, hready, hpkt⟩
    refine becomes_of (f := fun d => d.opBarrierExecute n) (fun _ => rfl) ?_
    simp only [Dev.opBarrierExecute, hopen, hrel, hpkt]
    exact if_set hready
  case snapReq =>
    intro d m id instant hheard
    refine becomes_of (f := fun d => d.opSnapshotReq m id instant) (fun _ => rfl) ((treeIn_heard hheard _).trans ?_)
    rw [hearing_sysPort, hearing_join, hearing_children, Dev.parents, hearing_portsIn]
    rfl
  case instant =>
    intro d id j ⟨hready, hfound⟩
    refine becomes_of (f := fun d => d.opSnapshotInstant id) (fun _ => rfl) ?_
    simp only [Dev.opSnapshotInstant, hfound]
    exact if_set hready
  case written =>
    intro d ⟨hwriting, hqueued, harea⟩
    exact leaves_of (f := Dev.opSnapshotWriteDone) (fun _ => rfl) (opSnapshotWriteDone_newest hwriting hqueued harea)
  case snapDone =>
    intro d m id hheard
    exact becomes_of (f := fun d => d.opSnapshotDone m id) (fun _ => rfl) (treeIn_heard hheard _)
  case snapTimeout =>
    intro d id j ⟨hready, hfound⟩
    refine becomes_of (f := fun d => d.opSnapshotTimeout id) (fun _ => rfl) ?_
    simp only [Dev.opSnapshotTimeout, hfound]
    exact if_set hready
  case groupReset =>
    intro d m group instant hheard
    exact becomes_of (f := fun d => d.opGroupReset m group instant) (fun _ => rfl) (treeIn_heard hheard _)
  case applies =>
    intro d group r ⟨hready, hfound, hwaits, htrees⟩
    exact becomes_of (f := fun d => d.opGroupResetInstant group) (fun _ => rfl) (opGroupResetInstant_applies hready hfound hwaits htrees)
  case groupTimeout =>
    intro d group r x ⟨hready, hfound, happlied, hjob, hx⟩
    subst hx
    refine becomes_of (f := fun d => d.opGroupResetInstant group) (fun _ => rfl) ?_
    simp only [Dev.opGroupResetInstant, hfound]
    exact (if_set hready).trans ((if_pos happlied).trans (if_neg hjob))
  case groupDone =>
    intro d m group hheard
    exact becomes_of (f := fun d => d.opGroupResetDone m group) (fun _ => rfl) (treeIn_heard hheard _)
  case command =>
    intro d m p ch ⟨hheard, hdst, hpeer⟩
    exact becomes_of (f := fun d => d.opCommand m p) (fun _ => rfl) (opCommand_own p hheard hdst hpeer)
  case passed =>
    intro d m p ⟨hheard, hdst⟩
    refine becomes_of (f := fun d => d.opCommand m p) (fun _ => rfl) ((treeIn_heard hheard _).trans ?_)
    rw [hearing_join, if_pos hdst, hearing_routeTo]
  case reply =>
    intro d m body hheard
    refine becomes_of (f := fun d => d.opReply m body) (fun _ => rfl) ((treeIn_heard hheard _).trans ?_)
    rw [hearing_join, hearing_routeTo]

end Sys2Proof.Machine

/-! PROOFS. Protection groups and the LEASE messages (O37). -/

namespace Sys2Proof.Machine

/-- A command that may act on a tree goes on with it. -/
theorem onTree_running {d : Dev} {t : Nat} (ht : t < d.nTrees) (hrun : d.tileRun (tileOfTree t) = true) (ofs : Nat) (k : Unit → Res) :
    d.onTree t ofs k = k () := by
  rw [Dev.onTree, if_neg (by omega), if_neg (by simp [Dev.notRun, hrun])]

theorem group_listed {d : Dev} {t : Nat} (h : mhas d.groups t = true) : mget d.groups t = some (d.group t) := by
  obtain ⟨g, hg⟩ := get_of_has h
  rw [hg, Dev.group, mgetD_of_get hg]

/-! ## The commands (R418, R434) -/

section
variable {c : Cmd} {d : Dev} (htree : c.tgt < d.nTrees) (hrun : d.tileRun (tileOfTree c.tgt) = true)
include htree hrun

theorem bodyProtGroup_deletes (hdark : d.treeOn c.tgt = []) (hact : c.u8 0 = 1) (hlisted : mhas d.groups c.tgt = true) :
    bodyProtGroup c d = Dev.ok { d with groups := mdel d.groups c.tgt } := by
  have hfree : (!(d.treeOn c.tgt).isEmpty || !mhas d.groups c.tgt) = false := by
    rw [hdark, hlisted]
    rfl
  rw [bodyProtGroup, onTree_running htree hrun]
  exact (if_pos hact).trans (if_clear hfree)

/-- A dark tree enters a group whose description passes every check. -/
theorem bodyProtGroup_creates (hdark : d.treeOn c.tgt = []) (hact : c.u8 0 = 0) (hside : c.u8 4 ≤ 1) (hoptics : c.u8 9 ≤ 1) (hmode : c.u8 10 ≤ 1)
    (hpair : c.u16 6 = 0xFFFF → c.u8 8 < d.nTrees ∧ tileOfTree (c.u8 8) ≠ tileOfTree c.tgt ∧ c.u8 10 = 0 ∧
      (c.protGroupMade d).termsCount (tileOfTree (c.u8 8)) ≤ 2048 ∧ (c.protGroupMade d).allocsCount (tileOfTree (c.u8 8)) ≤ 8192)
    (hremote : c.u16 6 ≠ 0xFFFF → c.u16 6 < 512 ∧ c.u8 8 < 64) (hclaim : c.u8 10 = 1 → c.u8 11 ≠ 0 ∧ c.u8 9 = 1)
    (hsub : c.u8 12 ≠ 0xFF → c.u8 12 < d.nSubs ∧ 1 ≤ c.u16 14 ∧ c.u16 14 ≤ 4094)
    (hpath : c.u16 6 ≠ 0xFFFF ∧ c.u8 10 = 0 → c.u8 12 ≠ 0xFF) (hlo : -100000 ≤ c.i32 24) (hhi : c.i32 24 ≤ 100000) (hpins : c.u8 28 ≤ 15) :
    bodyProtGroup c d = Dev.ok (c.protGroupMade d) := by
  rw [bodyProtGroup, onTree_running htree hrun]
  refine (if_neg (by omega)).trans ?_
  refine (if_neg (by omega)).trans ((if_neg (by omega)).trans ((if_neg (by omega)).trans ((if_neg (by omega)).trans ?_)))
  refine (if_clear ?sys).trans ((if_neg ?partner).trans ((if_clear ?number).trans ((if_clear ?port).trans ((if_clear ?vlan).trans
    ((if_clear ?offset).trans ((if_neg (by omega)).trans ((if_clear ?optics).trans ((if_clear ?tile).trans ((if_clear ?inband).trans
    ((if_clear ?mode).trans ((if_set ?dark).trans (if_clear ?room))))))))))))
  case sys =>
    by_cases h : c.u16 6 = 0xFFFF
    · simp [h]
    · have := (hremote h).1
      simp [h, this]
  case partner =>
    by_cases h : c.u16 6 = 0xFFFF
    · have := (hpair h).1
      simpa [h] using this
    · have := (hremote h).2
      simpa [h] using this
  case number =>
    by_cases h : c.u8 10 = 1
    · simp [(hclaim h).1]
    · simp [h]
  case port =>
    by_cases h : c.u8 12 = 0xFF
    · simp [h]
    · simp [h, (hsub h).1]
  case vlan =>
    by_cases h : c.u8 12 = 0xFF
    · simp [h]
    · have := hsub h
      simp [h]
      omega
  case offset => simp [hlo, hhi]
  case optics =>
    by_cases h : c.u8 10 = 1
    · simp [(hclaim h).2]
    · simp [h]
  case tile =>
    by_cases h : c.u16 6 = 0xFFFF
    · simp [h, (hpair h).2.1]
    · simp [h]
  case inband =>
    by_cases h : c.u16 6 ≠ 0xFFFF ∧ c.u8 10 = 0
    · simp [hpath h]
    · simp
      omega
  case mode =>
    by_cases h : c.u16 6 = 0xFFFF
    · simp [(hpair h).2.2.1]
    · simp [h]
  case dark => rw [hdark]; rfl
  case room =>
    by_cases h : c.u16 6 = 0xFFFF
    · obtain ⟨-, -, -, hterms, hallocs⟩ := hpair h
      exact Bool.and_eq_false_iff.2 (.inr (Bool.or_eq_false_iff.2 ⟨decide_eq_false (Nat.not_lt.2 hterms), decide_eq_false (Nat.not_lt.2 hallocs)⟩))
    · simp [h]

/-- A force of this unit that is ready, or of a partner that can hold the lease, or none. -/
theorem bodyProtForce_legal (hlisted : mhas d.groups c.tgt = true) (hact : c.u8 0 ≤ 3)
    (hown : c.u8 0 = 1 → ((d.group c.tgt).holding || d.unitReady c.tgt (d.group c.tgt)) = true)
    (hother : c.u8 0 = 2 → ((d.group c.tgt).claim || (d.group c.tgt).pReady || (d.group c.tgt).pHolds) = true) :
    bodyProtForce c d =
      Dev.ok (Dev.actForce (Dev.groupRefresh (d.updGroup c.tgt (fun g =>
        { g with
          force :=
            if c.u8 0 = 0 then 0 else if c.u8 0 = 1 then (d.group c.tgt).own else if c.u8 0 = 2 then 3 - (d.group c.tgt).own else (d.group
              c.tgt).force, lockout := if c.u8 0 = 0 then false else decide (c.u8 0 = 3) || (d.group c.tgt).lockout, cmdSec := d.netSec % 2 ^ 32 }))
        c.tgt) c.tgt) := by
  have hready : (decide (c.u8 0 = 1) && !((d.group c.tgt).holding || d.unitReady c.tgt (d.group c.tgt))) = false := by
    by_cases h : c.u8 0 = 1
    · rw [hown h]
      exact Bool.and_false _
    · rw [decide_eq_false h]
      rfl
  have hpartner : (decide (c.u8 0 = 2) && !(d.group c.tgt).claim && !((d.group c.tgt).pReady || (d.group c.tgt).pHolds)) = false := by
    by_cases h : c.u8 0 = 2
    · have := hother h
      simp only [Bool.or_eq_true] at this
      simp only [Bool.and_eq_false_iff, Bool.not_eq_false', Bool.or_eq_true]
      tauto
    · rw [decide_eq_false h]
      rfl
  rw [bodyProtForce, onTree_running htree hrun]
  simp only [group_listed hlisted]
  exact (if_neg (by omega)).trans ((if_clear hready).trans (if_clear hpartner))

theorem bodyProtStatus_running :
    bodyProtStatus c d =
      d.ok (leBytes 1 (d.group c.tgt).st.code ++ leBytes 1 (d.holder c.tgt) ++ leBytes 2 (d.group c.tgt).number ++ leBytes 4 (lowBits 32 ((d.group
          c.tgt).delta.getD (d.group c.tgt).pathOfs)) ++ ((d.group c.tgt).runs.map (fun r => leBytes 1 r)).flatten ++ leBytes 1 (d.causes (d.group
          c.tgt) c.tgt)) := by
  rw [bodyProtStatus, onTree_running htree hrun]
  rfl

end

/-! ## The LEASE messages (R424 to R431, R436) -/

/-- What a merge takes over is the force, the lockout and their time. -/
theorem merge_cases (g : Group) (l : LeaseMsg) :
    g.merge l = { g with force := l.force, lockout := l.lockout, cmdSec := l.cmdSec } ∨ g.merge l = g := by
  have hchoice (b : Bool) (x y : Group) : (if b then x else y) = x ∨ (if b then x else y) = y := by
    cases b
    · exact .inr rfl
    · exact .inl rfl
  exact hchoice _ _ _

theorem merge_holding (g : Group) (l : LeaseMsg) : (g.merge l).holding = g.holding := by rcases merge_cases g l with h | h <;> rw [h]; rfl
theorem merge_syncSeq (g : Group) (l : LeaseMsg) : (g.merge l).syncSeq = g.syncSeq := by rcases merge_cases g l with h | h <;> rw [h]
theorem merge_syncLag (g : Group) (l : LeaseMsg) : (g.merge l).syncLag = g.syncLag := by rcases merge_cases g l with h | h <;> rw [h]

section
variable {d : Dev} {tree : Nat} {inband : Bool} {l : LeaseMsg} (hheard : d.leaseHeard tree inband l = true)
include hheard

/-- Of two holders of a SPLIT group this unit has the lower number. -/
theorem opRenew_yields (hyields : ((d.leaseGroup tree inband l).holding && l.holds && !(d.group tree).dual &&
      leaseHigher l.number (d.group tree).number) = true) :
    d.opRenew tree inband l =
      (let x := (d.leaseDev tree inband l).count (if inband then .renewRxInband else .renewRxSys) tree
       let g := (d.leaseGroup tree inband l).merge l
       let x :=
         (x.updGroup tree (fun _ =>
           { g with
             pReady := l.ready, pHolds := true, pSyncSent := l.sync, syncLag := none, st := .notReady,
             holdEnd := some (x.now + rawS x.protHoldS) })).count .yields tree
       (x.groupRefresh tree).actForce tree) := by
  have hparts := hyields
  simp only [Bool.and_eq_true] at hparts
  obtain ⟨⟨⟨hholding, hholds⟩, -⟩, -⟩ := hparts
  unfold Dev.opRenew
  rw [leaseIn_heard hheard]
  simp only [show ((d.leaseGroup tree inband l).holding && l.holds && !(d.leaseGroup tree inband l).dual &&
    leaseHigher l.number (d.leaseGroup tree inband l).number) = true from hyields, if_true]
  simp only [merge_holding, hholding, hholds, Bool.true_or, if_true]

/-- No two holders are at odds. -/
theorem opRenew_keeps (hstays : ((d.leaseGroup tree inband l).holding && l.holds && !(d.group tree).dual &&
      leaseHigher l.number (d.group tree).number) = false) :
    d.opRenew tree inband l =
      (let x := (d.leaseDev tree inband l).count (if inband then .renewRxInband else .renewRxSys) tree
       let g := (d.leaseGroup tree inband l).merge l
       ((x.updGroup tree (fun _ =>
          { g with
            pReady := l.ready, pHolds := l.holds, pSyncSent := l.sync,
            syncLag :=
              if (d.leaseGroup tree inband l).holding || !l.holds || l.sync = g.syncSeq then none else if g.syncLag.isSome then g.syncLag else some
                x.now })).groupRefresh tree).actForce tree) := by
  have hlag (a : Bool) (p : Prop) [Decidable p] (x y : Option Raw) : (if a then x else if ¬ p then y else x) = if a || decide p then x else y := by
    cases a
    · by_cases hp : p
      · simp [hp]
      · simp [hp]
    · rfl
  unfold Dev.opRenew
  rw [leaseIn_heard hheard]
  simp only [show ((d.leaseGroup tree inband l).holding && l.holds && !(d.leaseGroup tree inband l).dual &&
    leaseHigher l.number (d.leaseGroup tree inband l).number) = false from hstays, Bool.false_eq_true, if_false, merge_holding, ne_eq, hlag,
    merge_syncSeq, merge_syncLag]

end

/-- Silence on both paths: the active has lost its partner, another unit that may takes the lease. -/
theorem opLeaseFailureTimeout_silent {d x : Dev} {tree : Nat} {g : Group} (hlisted : mhas d.groups tree = true) (hready : d.ready = true)
    (hclaim : (d.group tree).claim = false) (hrun : d.tileRun (tileOfTree tree) = true)
    (hx : x = (d.advanceTo ((d.group tree).lastHeard + rawMs (20 + d.guardMs))).groupRefresh tree) (hg : mget x.groups tree = some g)
    (hcases : g.st = .active ∨
      (g.st = .standby ∨ g.st = .notReady ∧ (x.lane (tileOfTree tree) (tree % 8)).neg = .up ∧ x.chansReady tree = true) ∧ g.mayTake = true) :
    d.opLeaseFailureTimeout tree =
      if g.st = .active then x.updGroup tree (fun g => { g with st := .partnerLost, pReady := false, pHolds := false }) else x.takeLease tree 2 := by
  unfold Dev.opLeaseFailureTimeout
  simp only [group_listed hlisted]
  rw [← hx, if_clear (by rw [hready, hclaim, hrun]; rfl)]
  simp only [hg]
  rcases hcases with hactive | ⟨hstandby | ⟨hnot, hup, hchans⟩, htake⟩
  · rw [if_pos hactive, if_pos hactive]
  · rw [hstandby, htake]
    rfl
  · rw [hnot, hup, hchans, htake]
    rfl

/-- Settles O37: each command and message under its premises. -/
theorem protectionGroupsKeepTheLease : Obligations.ProtectionGroupsKeepTheLease := by
  unfold Obligations.ProtectionGroupsKeepTheLease
  refine ⟨?create, ?delete, ?force, ?status, ?tick, ?yields, ?renew, ?release, ?handover, ?failure, ?sync, ?digest, ?gap, ?counted⟩
  case create =>
    refine answers_row _ _ _ _ _ (fun _ _ => rfl) fun c d _ ⟨htree, hrun, hdark, hact, hside, hoptics, hmode, hpair, hremote, hclaim, hsub, hpath,
      hlo, hhi, hpins⟩ => ?_
    exact bodyProtGroup_creates htree hrun hdark hact hside hoptics hmode hpair hremote hclaim hsub hpath hlo hhi hpins
  case delete =>
    exact answers_row _ _ _ _ _ (fun _ _ => rfl) fun c d _ ⟨htree, hrun, hdark, hact, hlisted⟩ =>
      bodyProtGroup_deletes htree hrun hdark hact hlisted
  case force =>
    exact answers_row _ _ _ _ _ (fun _ _ => rfl) fun c d _ ⟨htree, hrun, hlisted, hact, hown, hother⟩ =>
      bodyProtForce_legal htree hrun hlisted hact hown hother
  case status => exact answers_row _ _ _ _ _ (fun _ _ => rfl) fun c d _ ⟨htree, hrun⟩ => bodyProtStatus_running htree hrun
  case tick =>
    intro d tree ⟨hlisted, hready, hclaim, hrun⟩
    refine becomes_of (f := fun d => d.opLeaseRenewTick tree) (fun _ => rfl) ?_
    simp only [Dev.opLeaseRenewTick, group_listed hlisted]
    exact if_clear (by rw [hready, hclaim, hrun]; rfl)
  case yields =>
    intro d tree inband l ⟨hheard, hyields⟩
    exact becomes_of (f := fun d => d.opRenew tree inband l) (fun _ => rfl) (opRenew_yields hheard hyields)
  case renew =>
    intro d tree inband l x g ⟨hheard, hstays, hx, hg⟩
    subst hx hg
    exact becomes_of (f := fun d => d.opRenew tree inband l) (fun _ => rfl) (opRenew_keeps hheard hstays)
  case release =>
    intro d tree inband l g ⟨hheard, hg, hst, htake⟩
    refine becomes_of (f := fun d => d.opRelease tree inband l) (fun _ => rfl) ((leaseIn_heard hheard _).trans ?_)
    simp only [hg]
    exact if_pos (by rw [hst, htake]; rfl)
  case handover =>
    intro d tree inband l g ⟨hheard, hg, hst, hdual, htake⟩
    refine becomes_of (f := fun d => d.opHandover tree inband l) (fun _ => rfl) ((leaseIn_heard hheard _).trans ?_)
    simp only [hg]
    exact if_pos (by rw [hst, hdual, htake]; rfl)
  case failure =>
    intro d tree x g ⟨hlisted, hready, hclaim, hrun, hx, hg, hcases⟩
    refine becomes_of (f := fun d => d.opLeaseFailureTimeout tree) (fun _ => rfl) ?_
    exact opLeaseFailureTimeout_silent hlisted hready hclaim hrun hx hg hcases
  case sync =>
    intro d tree l recs ⟨hheard, hholding, htiles⟩
    refine becomes_of (f := fun d => d.opSync tree l recs) (fun _ => rfl) ((leaseIn_heard hheard _).trans ?_)
    exact if_neither hholding htiles
  case digest =>
    intro d tree l g x f hheard
    exact becomes_of (f := fun d => d.opDigest tree l g x f) (fun _ => rfl) (leaseIn_heard hheard _)
  case gap =>
    intro d tree k frame v ⟨hv, hentered, hcompares⟩
    refine becomes_of (f := fun d => d.opDigestCompareGap tree k frame) (fun _ => rfl) ?_
    simp only [Dev.opDigestCompareGap, hv]
    exact (if_set hentered).trans (if_clear hcompares)
  case counted =>
    intro d tree k frame v ⟨hv, hentered, hcompares⟩
    refine becomes_of (f := fun d => d.opDigestCompareGap tree k frame) (fun _ => rfl) ?_
    simp only [Dev.opDigestCompareGap, hv]
    exact (if_set hentered).trans (if_pos hcompares)

end Sys2Proof.Machine

/-! PROOFS. Class 0x0D: acknowledgement, release of quench, configuration, the log, and the anneal of a fault (O4). -/

namespace Sys2Proof.Machine

/-! ## The anneal of one record (R445) -/

/-- Time that moves on changes of the fault collector its clock alone. -/
theorem advanceTo_aon (d : Dev) (t : Raw) : ∃ time aon, d.advanceTo t = { d with time := time, flt := { d.flt with aon := aon } } := by
  unfold Dev.advanceTo
  split
  · exact ⟨d.time, d.flt.aon, rfl⟩
  · exact ⟨_, _, rfl⟩

theorem ack_ring (f : FaultState) (p : FltRec → Bool) : (f.ack p).ring = f.ring.map (fun r => if p r then { r with acked := true } else r) := by
  unfold FaultState.ack
  dsimp only
  split
  · rfl
  · rfl

theorem ack_recov (f : FaultState) (p : FltRec → Bool) : (f.ack p).recov = f.recov := by
  unfold FaultState.ack
  dsimp only
  split
  · rfl
  · rfl

theorem annealFault_flt (d : Dev) (r : FltRec) :
    (d.annealFault r).flt.ring = (d.flt.ring.map (fun x => if decide (x.seq = r.seq) then { x with acked := true } else x)).map
        (fun x => if x.seq = r.seq then { r with acked := true, annealed := true, quietEnd := none } else x) ∧
      (d.annealFault r).flt.recov = d.flt.recov.set r.cls (min 0xFFFF (nth d.flt.recov r.cls + 1)) := by
  unfold Dev.annealFault
  dsimp only
  rw [(notify_talks _ _ _ _).flt]
  constructor
  · exact congrArg (List.map _) (ack_ring _ _)
  · exact congrArg (fun l => List.set l r.cls (min 0xFFFF (nth l r.cls + 1))) (ack_recov _ _)

/-- The record of an annealed fault is acknowledged and marked. -/
theorem annealFault_marked {d : Dev} {r : FltRec} (hr : r ∈ d.flt.ring) :
    ∃ x ∈ (d.annealFault r).flt.ring, x.seq = r.seq ∧ x.acked = true ∧ x.annealed = true ∧ x.quietEnd = none := by
  refine ⟨{ r with acked := true, annealed := true, quietEnd := none }, ?_, rfl, rfl, rfl, rfl⟩
  rw [(annealFault_flt d r).1, List.map_map]
  refine List.mem_map.2 ⟨r, hr, ?_⟩
  simp

/-- The anneal is counted. -/
theorem annealFault_counted {d : Dev} {r : FltRec} (hcls : r.cls < d.flt.recov.length) :
    nth (d.annealFault r).flt.recov r.cls = min 0xFFFF (nth d.flt.recov r.cls + 1) := by
  rw [(annealFault_flt d r).2]
  simp [nth, hcls]

/-- The device at the end of a quiet period, with the anneals of the last hour. -/
def Dev.atQuietEnd (d : Dev) (q : Raw) : Dev :=
  let x := d.advanceTo q
  { x with flt := { x.flt with
      f3At := x.flt.f3At.filter (fun e => (x.flt.aon - e.2).toNat < (rawS 3600).toNat), f4At := lastHour x.flt.aon x.flt.f4At } }

theorem atQuietEnd_same (d : Dev) (q : Raw) :
    ∃ time aon f3 f4, d.atQuietEnd q = { d with time := time, flt := { d.flt with aon := aon, f3At := f3, f4At := lastHour f4 d.flt.f4At } } := by
  obtain ⟨time, aon, h⟩ := advanceTo_aon d q
  unfold Dev.atQuietEnd
  rw [h]
  exact ⟨_, _, _, _, rfl⟩

section
variable {d : Dev} {seq : Nat} {r : FltRec} {q : Raw} (hfound : d.flt.ring.find? (fun x => x.seq = seq) = some r) (hquiet : r.quietEnd = some q)
  (hfresh : r.annealed = false) (hready : d.ready = true)
include hfound hquiet hfresh hready

/-- A fault of a class below F3 anneals without limit. -/
theorem opQuietPeriodExpiry_light (hcls : r.cls < 3) : d.opQuietPeriodExpiry seq = (d.atQuietEnd q).annealFault r := by
  unfold Dev.opQuietPeriodExpiry
  simp only [hfound, hquiet]
  rw [if_neither (by rw [hready]; rfl) hfresh]
  exact (if_neg (by omega)).trans (if_neg (by omega))

/-- An F4 within its limit anneals, and a package warm reset follows. -/
theorem opQuietPeriodExpiry_f4 (hcls : r.cls = 4) (hlimit : (d.atQuietEnd q).flt.f4At.length < (d.atQuietEnd q).f4Limit) :
    d.opQuietPeriodExpiry seq =
      (Dev.annealFault { d.atQuietEnd q with flt := { (d.atQuietEnd q).flt with
        f4At := (d.atQuietEnd q).flt.aon :: (d.atQuietEnd q).flt.f4At } } r).warmReset 5 := by
  unfold Dev.opQuietPeriodExpiry
  simp only [hfound, hquiet]
  rw [if_neither (by rw [hready]; rfl) hfresh]
  exact (if_neg (by omega)).trans ((if_pos hcls).trans (if_neg (Nat.not_le.2 hlimit)))

end

theorem annealFault_inReset (d : Dev) (r : FltRec) : (d.annealFault r).inReset = d.inReset := by
  unfold Dev.annealFault Dev.inReset
  dsimp only
  rw [(notify_talks _ _ _ _).pwr, (notify_talks _ _ _ _).rst]
  rfl

/-- A package warm reset ends quench, records its cause and keeps the recovery counters. -/
theorem warmReset_anneal {d : Dev} (hidle : d.inReset = false) :
    (d.warmReset 5).flt.quench = false ∧ (d.warmReset 5).rst.cause.getLsbD 5 = true ∧ (d.warmReset 5).rst.warmBoot = true ∧
      (d.warmReset 5).flt.recov = d.flt.recov := by
  rw [Dev.warmReset, if_clear (by simp [Dev.inWarm, hidle]), if_clear hidle]
  refine ⟨rfl, ?_, rfl, rfl⟩
  simp [Dev.packageReset]

/-! ## The commands (R446, R448, R452, R503) -/

section
variable {c : Cmd} {d : Dev}

theorem bodyFltAck_free (hfree : ∀ r ∈ d.flt.ring, r.latched = false) : bodyFltAck c d = Dev.ok { d with flt := d.flt.ackTo (c.u32 0) } := by
  have hnone : d.flt.ring.filter (fun r => r.seq ≤ c.u32 0 && r.latched && r.cls = 3) = [] := by
    refine List.filter_eq_nil_iff.2 fun r hr => ?_
    simp [hfree r hr]
  unfold bodyFltAck
  dsimp only
  rw [hnone]
  rfl

theorem bodyFltConfig_legal (hlo : 1 ≤ c.u16 0) (hhi : c.u16 0 ≤ 3600) (h3 : c.u8 2 ≤ 15) (h4 : c.u8 3 ≤ 15) (hclass : c.u8 4 ≤ 4) :
    bodyFltConfig c d = (d.setReg 0xC20 (c.u16 0 * 2 ^ 20 + c.u8 2 * 2 ^ 16 + c.u8 3 * 2 ^ 12 + c.u8 4 * 2 ^ 8)).ok :=
  (if_within hlo hhi).trans ((if_neg (by omega)).trans ((if_neg (by omega)).trans (if_neg (by omega))))

theorem bodyFltLog_volatile (hring : c.u8 4 = 0) (hlo : 1 ≤ c.u8 5) (hhi : c.u8 5 ≤ 112) :
    bodyFltLog c d =
      d.ok (leBytes 2 ((d.flt.ring.reverse.filter (fun r => c.u32 0 ≤ r.seq)).take (c.u8 5)).length ++ leBytes 2 0 ++ leBytes 4 d.flt.seq ++
        (((d.flt.ring.reverse.filter (fun r => c.u32 0 ≤ r.seq)).take (c.u8 5)).map FltRec.bytes).flatten) := by
  unfold bodyFltLog
  dsimp only
  rw [hring]
  exact (if_neg (by decide)).trans ((if_within hlo hhi).trans rfl)

end

/-- Settles O4: the commands under their premises, an anneal by the class of its fault. -/
theorem faultCommandsAcknowledgeAndAnneal : Obligations.FaultCommandsAcknowledgeAndAnneal := by
  unfold Obligations.FaultCommandsAcknowledgeAndAnneal
  refine ⟨?ack, ?release, ?config, ?log, ?light, ?f4⟩
  case ack => exact answers_row _ _ _ _ _ (fun _ _ => rfl) fun c d _ hfree => bodyFltAck_free hfree
  case release => exact then_row _ _ _ _ _ (fun _ _ => rfl) fun c d _ hgone => if_clear hgone
  case config =>
    exact answers_row _ _ _ _ _ (fun _ _ => rfl) fun c d _ ⟨hlo, hhi, h3, h4, hclass⟩ => bodyFltConfig_legal hlo hhi h3 h4 hclass
  case log => exact answers_row _ _ _ _ _ (fun _ _ => rfl) fun c d _ ⟨hring, hlo, hhi⟩ => bodyFltLog_volatile hring hlo hhi
  case light =>
    intro d seq r q ⟨hfound, hquiet, hfresh, hcls, hready, hlen⟩
    obtain ⟨time, aon, f3, f4, hend⟩ := atQuietEnd_same d q
    have hring : (d.atQuietEnd q).flt.ring = d.flt.ring := by rw [hend]
    have hrecov : (d.atQuietEnd q).flt.recov = d.flt.recov := by rw [hend]
    have hseq : r.seq = seq := by simpa using List.find?_some hfound
    refine leaves_of (f := fun d => d.opQuietPeriodExpiry seq) (fun _ => rfl) ?_
    rw [opQuietPeriodExpiry_light hfound hquiet hfresh hready hcls, annealFault_counted (by rw [hrecov]; omega), hrecov, ← hseq]
    exact ⟨annealFault_marked (by rw [hring]; exact List.mem_of_find?_eq_some hfound), rfl⟩
  case f4 =>
    intro d seq r q ⟨hfound, hquiet, hfresh, hcls, hready, hidle, hlen, hlimit⟩
    obtain ⟨time, aon, f3, f4, hend⟩ := atQuietEnd_same d q
    have hrecov : (d.atQuietEnd q).flt.recov = d.flt.recov := by rw [hend]
    have hshort : (d.atQuietEnd q).flt.f4At.length < (d.atQuietEnd q).f4Limit := by
      rw [hend]
      exact Nat.lt_of_le_of_lt (List.length_filter_le _ _) hlimit
    have hcounted : nth (Dev.annealFault { d.atQuietEnd q with flt := { (d.atQuietEnd q).flt with
        f4At := (d.atQuietEnd q).flt.aon :: (d.atQuietEnd q).flt.f4At } } r).flt.recov 4 = min 0xFFFF (nth d.flt.recov 4 + 1) := by
      rw [← hcls, annealFault_counted (by change r.cls < (d.atQuietEnd q).flt.recov.length; rw [hrecov]; omega)]
      exact congrArg (fun l => min 0xFFFF (nth l r.cls + 1)) hrecov
    refine leaves_of (f := fun d => d.opQuietPeriodExpiry seq) (fun _ => rfl) ?_
    rw [opQuietPeriodExpiry_f4 hfound hquiet hfresh hready hcls hshort]
    have hstill : (d.atQuietEnd q).inReset = false := by
      rw [hend]
      exact hidle
    obtain ⟨hquench, hcause, hwarm, hkept⟩ := warmReset_anneal ((annealFault_inReset { d.atQuietEnd q with flt := { (d.atQuietEnd q).flt with
      f4At := (d.atQuietEnd q).flt.aon :: (d.atQuietEnd q).flt.f4At } } r).trans hstill)
    exact ⟨hquench, hcause, hwarm, by rw [hkept, hcounted]⟩

end Sys2Proof.Machine

/-! PROOFS. Class 0x0E: assay runs by command, their results, and the end of a scan (O31). -/

namespace Sys2Proof.Machine

/-! ## A recorded fault is the newest (R441) -/

theorem recordFault_head (d : Dev) (r : FltRec) : (d.recordFault r).flt.ring.head? = some r := by
  have hentered (op t : Nat) (y : List Byte) : ((d.setFlt (d.flt.enter r (d.now + rawS d.quietS) (!d.pwr.pfw))).notify op t y).flt =
      d.flt.enter r (d.now + rawS d.quietS) (!d.pwr.pfw) := by
    rw [(notify_talks _ _ _ _).flt]
    rfl
  have hnotified : (if r.latched then ((d.setFlt (d.flt.enter r (d.now + rawS d.quietS) (!d.pwr.pfw))).notify 0x8D80 r.inst r.bytes).notify 0x8D83
      r.inst r.bytes else (d.setFlt (d.flt.enter r (d.now + rawS d.quietS) (!d.pwr.pfw))).notify 0x8D80 r.inst r.bytes).flt.ring.head? = some r := by
    split
    · rw [(notify_talks _ _ _ _).flt, hentered, enter_ring]
    · rw [hentered, enter_ring]
  unfold Dev.recordFault
  dsimp only
  split
  · rw [quenchNow_ring]
    exact hnotified
  · exact hnotified

theorem raiseAssay_raised (d : Dev) (ev cls tile detail : Nat) : Raised (d.raiseAssay ev cls tile detail) 0x10 ev tile tile := by
  unfold Raised Dev.raiseAssay
  dsimp only
  rw [recordFault_head, Option.any_some]
  split
  · simp [Dev.faultRec]
  · simp [Dev.faultRec]

/-! ## The end of a scan (R456, R457) -/

theorem assayExit_asy (d : Dev) (t : Nat) (st : TileState) : (d.assayExit t st).asy = d.asy := by
  have hcross : (d.crossReset t).asy = d.asy := by
    unfold Dev.crossReset
    rw [(crossMark_onlyTiles st_hidesCrossings _ t).same]
  obtain ⟨x, htalk⟩ := tileTo_talks (d.crossReset t) t st
  unfold Dev.assayExit
  dsimp only
  change ((d.crossReset t).tileTo t st).crossSettled.asy = d.asy
  rw [(crossSettled_onlyTiles st_hidesCrossings _).same]
  exact htalk.asy.trans hcross

theorem assayExit_st (d : Dev) (t : Nat) (st : TileState) : ((d.assayExit t st).tile t).st = st := by
  unfold Dev.assayExit
  dsimp only
  rw [tile_updTile]
  change (((d.crossReset t).tileTo t st).crossSettled.tile t).st = st
  rw [(crossSettled_onlyTiles st_hidesCrossings _).tile, tileTo_st]

theorem asyTile_setAsyTile (d : Dev) (t : Nat) (x : AssayTile) : (d.setAsyTile t x).asyTile t = x := mgetD_mput _ _ _ _

/-- The fault and the report of a scan leave the tile and its result. -/
theorem scanFails_keeps {d : Dev} {t : Nat} (hboot : d.asy.bootRun.contains t = false) (ev cls detail : Nat) :
    (((d.raiseAssay ev cls t detail).bootRunDone t true).assayComplete.tile t) = d.tile t ∧
      ((d.raiseAssay ev cls t detail).bootRunDone t true).assayComplete.asy = d.asy ∧
      Raised ((d.raiseAssay ev cls t detail).bootRunDone t true).assayComplete 0x10 ev t t := by
  have hraises : Raises d (d.raiseAssay ev cls t detail) := recordFault_raises d _
  rw [bootRunDone_absent (by rw [hraises.asy]; exact hboot)]
  have htalks := assayComplete_talks (d.raiseAssay ev cls t detail)
  refine ⟨tile_congr (htalks.tiles.trans hraises.tiles) t, htalks.asy.trans hraises.asy, ?_⟩
  unfold Raised
  rw [htalks.flt]
  exact raiseAssay_raised d ev cls t detail

/-- A tile whose scan did not pass is ISOLATED, with the result entered. -/
theorem scanFails_isolated {d : Dev} {t : Nat} (hboot : d.asy.bootRun.contains t = false) (ev cls detail : Nat) :
    ((((d.assayExit t .isolated).raiseAssay ev cls t detail).bootRunDone t true).assayComplete.tile t).st = .isolated ∧
      (((d.assayExit t .isolated).raiseAssay ev cls t detail).bootRunDone t true).assayComplete.asyTile t = d.asyTile t := by
  obtain ⟨htile, hasy, -⟩ := scanFails_keeps (d := d.assayExit t .isolated) (by rw [assayExit_asy]; exact hboot) ev cls detail
  exact ⟨by rw [htile, assayExit_st], asyTile_congr (hasy.trans (assayExit_asy d t .isolated)) t⟩

theorem advanceTo_asy (d : Dev) (t : Raw) : (d.advanceTo t).asy = d.asy := by
  obtain ⟨time, flt, h⟩ := advanceTo_same d t
  rw [h]

theorem advanceTo_tile (d : Dev) (t : Raw) (u : Nat) : (d.advanceTo t).tile u = d.tile u := by
  obtain ⟨time, flt, h⟩ := advanceTo_same d t
  rw [h]
  rfl

section
variable {d : Dev} {tile : Nat} (hrun : (d.asyTile tile).running = true)
include hrun

/-- A tile other than the lead that passes leaves through its exit reset. -/
theorem opAssayScanDone_passes {r : Dev} (h0 : tile ≠ 0) (sig : BitVec 128) (reason : Nat)
    (hr : r = d.advanceTo ((d.asyTile tile).since + rawMs (scanMs (d.asyTile tile).set))) :
    d.opAssayScanDone tile (patternsOf (d.asyTile tile).set) sig sig reason =
      Dev.assayComplete (Dev.bootRunDone ((((r.setAsyTile tile
        { d.asyTile tile with
          running := false, done := true, complete := true, pass := true, reason := 0, patterns := 0, sig := sig, abort := false }).endCond 0x10
        0x01 tile tile).endCond 0x10 0x02 tile tile |>.endCond 0x10 0x03 tile tile).assayExit tile (if r.flt.quench then .isolated else .reset))
        tile true) := by
  unfold Dev.opAssayScanDone
  rw [if_set hrun]
  simp only [decide_true, if_true, ← hr, Bool.and_self, h0, if_false, Bool.not_true, Bool.false_or]
  rfl

/-- One that fails enters its result, leaves into ISOLATED and raises its fault. -/
theorem opAssayScanDone_fails {r : Dev} (h0 : tile ≠ 0) {sig golden : BitVec 128} (reason : Nat) (hsig : sig ≠ golden)
    (hr : r = d.advanceTo ((d.asyTile tile).since + rawMs (scanMs (d.asyTile tile).set))) :
    d.opAssayScanDone tile (patternsOf (d.asyTile tile).set) sig golden reason =
      Dev.assayComplete (Dev.bootRunDone ((((r.setAsyTile tile
        { d.asyTile tile with
          running := false, done := true, complete := true, pass := false, reason := 0, patterns := 0, sig := sig, abort := false }).endCond 0x10
        0x03 tile tile).assayExit tile .isolated).raiseAssay 0x01 3 tile (d.asyTile tile).set) tile true) := by
  unfold Dev.opAssayScanDone
  rw [if_set hrun]
  simp only [decide_true, if_true, ← hr, hsig, decide_false, Bool.and_false, Bool.false_eq_true, if_false, h0, Bool.not_false, Bool.true_or]

/-- One that ends early enters the patterns applied. -/
theorem opAssayScanDone_stops (h0 : tile ≠ 0) {patterns : Nat} (sig golden : BitVec 128) (reason : Nat)
    (hshort : patterns ≠ patternsOf (d.asyTile tile).set) :
    d.opAssayScanDone tile patterns sig golden reason =
      Dev.assayComplete (Dev.bootRunDone (((d.setAsyTile tile
        { d.asyTile tile with
          running := false, done := true, complete := false, pass := false, reason := if (d.asyTile tile).abort then 1 else reason,
          patterns := patterns, sig := sig, abort := false }).assayExit tile .isolated).raiseAssay 0x03 2 tile
        (if (d.asyTile tile).abort then 1 else reason)) tile true) := by
  unfold Dev.opAssayScanDone
  rw [if_set hrun]
  simp only [hshort, decide_false, Bool.false_and, Bool.false_eq_true, if_false, h0, Bool.not_false, Bool.true_or, if_true]

end

/-- The lead tile with a result of its scan entered, back in BOOT with assay forced on it. -/
def Dev.leadScanned (d : Dev) (a : AssayTile) : Dev :=
  let e := (d.setAsyTile 0 a).endCond 0x10 0x03 0 0
  Dev.tileTo { e with asy := { e.asy with forced := true } } 0 .boot

theorem leadScanned_keeps (d : Dev) (a : AssayTile) :
    (d.leadScanned a).asy.forced = true ∧ (d.leadScanned a).asyTile 0 = a ∧ (d.leadScanned a).asy.bootRun = d.asy.bootRun ∧
      ((d.leadScanned a).tile 0).st = .boot := by
  obtain ⟨x, htalk⟩ := tileTo_talks { (d.setAsyTile 0 a).endCond 0x10 0x03 0 0 with asy := { (d.setAsyTile 0 a).asy with forced := true } } 0 .boot
  have hasy : (d.leadScanned a).asy = { (d.setAsyTile 0 a).asy with forced := true } := htalk.asy
  refine ⟨by rw [hasy], ?_, by rw [hasy]; rfl, tileTo_st _ _ _⟩
  rw [Dev.asyTile, hasy]
  exact asyTile_setAsyTile d 0 a

theorem opAssayScanDone_leadFails {d r : Dev} (hrun : (d.asyTile 0).running = true) {sig golden : BitVec 128} (reason : Nat) (hsig : sig ≠ golden)
    (hr : r = d.advanceTo ((d.asyTile 0).since + rawMs (scanMs (d.asyTile 0).set))) :
    d.opAssayScanDone 0 (patternsOf (d.asyTile 0).set) sig golden reason =
      Dev.assayComplete (Dev.bootRunDone ((r.leadScanned
        { d.asyTile 0 with
          running := false, done := true, complete := true, pass := false, reason := 0, patterns := 0, sig := sig, abort := false }).raiseAssay
        0x02 4 0 (d.asyTile 0).set) 0 true) := by
  unfold Dev.opAssayScanDone
  rw [if_set hrun]
  simp only [decide_true, if_true, ← hr, hsig, decide_false, Bool.and_false, Bool.false_eq_true, if_false, Bool.or_true]
  rfl

/-- A tile that has waited too long boots without assay. -/
theorem opAssayThermalWaitExpiry_waits {d r : Dev} {tile : Nat} (hwaits : (d.asyTile tile).waits = true)
    (hr : r = d.advanceTo ((d.asyTile tile).since + rawS 10)) :
    d.opAssayThermalWaitExpiry tile =
      Dev.bootRunDone (Dev.raise (r.setAsyTile tile { d.asyTile tile with waits := false }) 0x10 0x04
        0 tile tile (lowBits 8 (d.tile tile).nowC) false) tile false := by
  have htile : r.tile tile = d.tile tile := by rw [hr, advanceTo_tile]
  unfold Dev.opAssayThermalWaitExpiry
  rw [if_set hwaits]
  simp only [← hr, ← htile]
  rfl

/-! ## The commands (R460) -/

/-- The tiles of a mask. -/
def maskTiles (m : Nat) : List Nat := (List.range 8).filter (fun t => m.testBit t)

theorem any_of_all {l : List Nat} {p q : Nat → Bool} (h : l.all p = true) (hpq : ∀ t, p t = true → q t = false) : l.any q = false :=
  List.any_eq_false.2 fun t ht => ne_true_of_eq_false (hpq t (List.all_eq_true.1 h t ht))

section
variable {c : Cmd} {d : Dev}

theorem bodyAssayStart_free (hact : c.u8 1 = 0)
    (hok : (maskTiles (c.u8 0)).all (fun t => t < d.nTiles && d.tileRun t && (d.tile t).level < 2) = true) :
    bodyAssayStart c d =
      if (c.u8 0).testBit 0 then
        { dev := { d with asy := { d.asy with oneShot := some (c.u8 0) } }, after := fun d => d.warmReset 3 }
      else { ((maskTiles (c.u8 0)).foldl (fun d t => d.assayOrDefer t 1 d.asy.set) d).accepted stAccepted .assay (c.u8 0) with
        after := Dev.assayComplete } := by
  have hin : (maskTiles (c.u8 0)).any (fun t => decide (d.nTiles ≤ t)) = false := by
    refine any_of_all hok fun t ht => ?_
    simp only [Bool.and_eq_true, decide_eq_true_eq] at ht
    exact decide_eq_false (Nat.not_le.2 ht.1.1)
  have hrun : (maskTiles (c.u8 0)).any (fun t => d.notRun t || decide (2 ≤ (d.tile t).level)) = false := by
    refine any_of_all hok fun t ht => ?_
    simp only [Bool.and_eq_true, decide_eq_true_eq] at ht
    obtain ⟨⟨-, hrun⟩, hlevel⟩ := ht
    rw [Dev.notRun, hrun]
    exact decide_eq_false (Nat.not_le.2 hlevel)
  unfold bodyAssayStart
  exact (if_neg (by omega)).trans ((if_clear hin).trans ((if_neg (by omega)).trans (if_clear hrun)))

theorem bodyAssayStart_abort (hact : c.u8 1 = 1) (hok : (maskTiles (c.u8 0)).all (fun t => t < d.nTiles) = true) :
    bodyAssayStart c d =
      { ((maskTiles (c.u8 0)).foldl (fun d t => if (d.asyTile t).running then d.setAsyTile t
          { d.asyTile t with abort := true } else d.assayInterrupt t 1) d).ok with after := Dev.assayComplete } := by
  have hin : (maskTiles (c.u8 0)).any (fun t => decide (d.nTiles ≤ t)) = false := by
    refine any_of_all hok fun t ht => ?_
    exact decide_eq_false (Nat.not_le.2 (of_decide_eq_true ht))
  unfold bodyAssayStart
  exact (if_neg (by omega)).trans ((if_clear hin).trans (if_pos hact))

end

/-- Settles O31: the commands under their premises, the end of a scan by its tile and its outcome. -/
theorem assayTestsTiles : Obligations.AssayTestsTiles := by
  unfold Obligations.AssayTestsTiles
  refine ⟨?start, ?lead, ?abort, ?config, ?result, ?passes, ?fails, ?stops, ?leadFails, ?waits⟩
  case start =>
    refine startsThen_row _ _ _ _ _ _ _ _ (fun _ _ => rfl) fun c d _ ⟨hact, hlead, hok⟩ => ?_
    exact (bodyAssayStart_free hact hok).trans (if_clear hlead)
  case lead =>
    refine then_row _ _ _ _ _ (fun _ _ => rfl) fun c d _ ⟨hact, hlead, hok⟩ => ?_
    exact (bodyAssayStart_free hact hok).trans (if_pos hlead)
  case abort => exact then_row _ _ _ _ _ (fun _ _ => rfl) fun c d _ ⟨hact, hok⟩ => bodyAssayStart_abort hact hok
  case config =>
    exact answers_row _ _ _ _ _ (fun _ _ => rfl) fun c d _ ⟨hmode, hset⟩ => (if_neg (Nat.not_lt.2 hmode)).trans (if_neg (Nat.not_lt.2 hset))
  case result => exact answers_row _ _ _ _ _ (fun _ _ => rfl) fun _ _ _ _ => rfl
  case passes =>
    intro d tile patterns sig golden reason r ⟨hrun, h0, hall, hsig, hr⟩
    subst hall hsig
    exact becomes_of (f := fun d => d.opAssayScanDone tile _ sig sig reason) (fun _ => rfl) (opAssayScanDone_passes hrun h0 sig reason hr)
  case fails =>
    intro d tile patterns sig golden reason ⟨hrun, h0, hall, hsig, hboot⟩
    subst hall
    obtain ⟨r, hr⟩ : ∃ r, r = d.advanceTo ((d.asyTile tile).since + rawMs (scanMs (d.asyTile tile).set)) := ⟨_, rfl⟩
    have hnone : r.asy.bootRun.contains tile = false := by rw [hr, advanceTo_asy, hboot]
    have hdone := opAssayScanDone_fails hrun h0 reason hsig hr
    obtain ⟨hst, hasy⟩ := scanFails_isolated (d := (r.setAsyTile tile
      { d.asyTile tile with
        running := false, done := true, complete := true, pass := false, reason := 0, patterns := 0, sig := sig, abort := false }).endCond 0x10 0x03
      tile tile) hnone 0x01 3 (d.asyTile tile).set
    refine ⟨_, becomes_of (f := fun x => x.opAssayScanDone tile (patternsOf (d.asyTile tile).set) sig golden reason) (fun _ => rfl) hdone, hst, ?_⟩
    rw [hasy.trans (asyTile_setAsyTile r tile _)]
    exact ⟨rfl, rfl, rfl, rfl⟩
  case stops =>
    intro d tile patterns sig golden reason ⟨hrun, h0, hshort, hboot⟩
    have hdone := opAssayScanDone_stops hrun h0 sig golden reason hshort
    obtain ⟨hst, hasy⟩ := scanFails_isolated (d := d.setAsyTile tile
      { d.asyTile tile with
        running := false, done := true, complete := false, pass := false, reason := if (d.asyTile tile).abort then 1 else reason,
        patterns := patterns, sig := sig, abort := false }) hboot 0x03 2 (if (d.asyTile tile).abort then 1 else reason)
    refine ⟨_, becomes_of (f := fun d => d.opAssayScanDone tile patterns sig golden reason) (fun _ => rfl) hdone, hst, ?_⟩
    rw [hasy.trans (asyTile_setAsyTile d tile _)]
    exact ⟨rfl, rfl, rfl, rfl, rfl⟩
  case leadFails =>
    intro d tile patterns sig golden reason ⟨hrun, h0, hall, hsig, hboot⟩
    subst h0 hall
    obtain ⟨r, hr⟩ : ∃ r, r = d.advanceTo ((d.asyTile 0).since + rawMs (scanMs (d.asyTile 0).set)) := ⟨_, rfl⟩
    have hdone := opAssayScanDone_leadFails hrun reason hsig hr
    obtain ⟨hforced, hresult, hnone, hst⟩ := leadScanned_keeps r
      { d.asyTile 0 with
        running := false, done := true, complete := true, pass := false, reason := 0, patterns := 0, sig := sig, abort := false }
    obtain ⟨htile, hasy, hraised⟩ := scanFails_keeps (d := r.leadScanned _) (t := 0) (by rw [hnone, hr, advanceTo_asy, hboot]) 0x02 4
      (d.asyTile 0).set
    have hentered := (asyTile_congr hasy 0).trans hresult
    exact ⟨_, becomes_of (f := fun x => x.opAssayScanDone 0 (patternsOf (d.asyTile 0).set) sig golden reason) (fun _ => rfl) hdone,
      (congrArg Tile.st htile).trans hst, congrArg AssayTile.done hentered, congrArg AssayTile.complete hentered, congrArg AssayTile.pass hentered,
      (congrArg AssayState.forced hasy).trans hforced, hraised⟩
  case waits =>
    intro d tile hwaits
    exact becomes_of (f := fun d => d.opAssayThermalWaitExpiry tile) (fun _ => rfl) (opAssayThermalWaitExpiry_waits hwaits rfl)

end Sys2Proof.Machine

/-! PROOFS. Class 0x0F: counters read, written and watched, bandwidth windows and engine sampling (O38). -/

namespace Sys2Proof.Machine

/-! ## The commands (R463, R467 to R469, R472, R474) -/

/-- CMD_CNT_READ once its counters are found, or the first of them that is refused with its place. -/
def Cmd.cntRead (c : Cmd) (d : Dev) : Option (Nat × Nat) → Res
  | some (st, i) => d.fail st (ofsP (20 + 8 * i))
  | none =>
    if c.bit 0 0 then
      match d.snapInstant (c.u64 4 % 2 ^ 48) (c.u32 12) with
      | .error st => d.fail st (ofsP 4)
      | .ok t =>
        let id := localSnap + d.join.snapNo
        let j : SnapJob := { id := id, atT := t, raw := d.rawOfNs t, job := id }
        Dev.accepted { d with join := { d.join with snaps := d.join.snaps ++ [j], snapNo := d.join.snapNo + 1 } } stAccepted .cntSnapshot id
    else
      let body := (((List.range (c.u8 1)).map (fun i => c.cntAt (20 + 8 * i))).map d.cntReply).flatten
      if 3808 < body.length then d.fail stRange (ofsP 1) else Dev.ok d body

theorem bodyCntRead_eq (c : Cmd) (d : Dev) :
    bodyCntRead c d = c.cntRead d (d.cntsBad ((List.range (c.u8 1)).map (fun i => c.cntAt (20 + 8 * i)))) := rfl

section
variable {c : Cmd} {d : Dev}

theorem bodyCntRead_now (hnames : d.cntsBad ((List.range (c.u8 1)).map (fun i => c.cntAt (20 + 8 * i))) = none) (hnow : c.bit 0 0 = false)
    (hlen : (((List.range (c.u8 1)).map (fun i => c.cntAt (20 + 8 * i))).map d.cntReply).flatten.length ≤ 3808) :
    bodyCntRead c d = d.ok (((List.range (c.u8 1)).map (fun i => c.cntAt (20 + 8 * i))).map d.cntReply).flatten := by
  rw [bodyCntRead_eq, hnames]
  exact (if_clear hnow).trans (if_neg (Nat.not_lt.2 hlen))

theorem bodyCntRead_snapshot (hnames : d.cntsBad ((List.range (c.u8 1)).map (fun i => c.cntAt (20 + 8 * i))) = none) (hsnap : c.bit 0 0 = true)
    {t : Int} (ht : d.snapInstant (c.u64 4 % 2 ^ 48) (c.u32 12) = .ok t) :
    bodyCntRead c d =
      Dev.accepted
        { d with
          join :=
            { d.join with
              snaps := d.join.snaps ++ [{ id := localSnap + d.join.snapNo, atT := t, raw := d.rawOfNs t, job := localSnap + d.join.snapNo }],
              snapNo := d.join.snapNo + 1 } } stAccepted .cntSnapshot (localSnap + d.join.snapNo) := by
  rw [bodyCntRead_eq, hnames]
  refine (if_pos hsnap).trans ?_
  rw [ht]

theorem bodyCntWrite_legal
    (hnames : d.cntsBad (((List.range (c.u8 0)).map (fun i => (c.cntAt (8 + 16 * i), c.u64 (16 + 16 * i)))).map (fun x => x.1)) = none) :
    bodyCntWrite c d =
      Dev.ok (((List.range (c.u8 0)).map (fun i => (c.cntAt (8 + 16 * i), c.u64 (16 + 16 * i)))).foldl (fun d x =>
        (d.cntKeys x.1.1 x.1.2).foldl (fun d k => d.cntSet k x.2) d) d) := by
  unfold bodyCntWrite
  simp only [hnames]

theorem bodyCntThreshold_legal (hring : ringBad c 24 = none) (hname : d.cntBad (c.cntAt 0).1 (c.cntAt 0).2 = stOk) (hlo : 1 ≤ c.u64 8)
    (hhi : c.u64 8 ≤ 2 ^ 63) (hvec : 64 ≤ c.u8 16)
    (hroom : (d.cntKeys (c.cntAt 0).1 (c.cntAt 0).2).any (fun k => !mhas d.cnt.thr k && 4096 ≤ (d.cnt.thr.filter (fun e => d.cntTile e.1 =
      d.cntTile k)).length) = false) :
    bodyCntThreshold c d =
      Dev.ok
        { d with
          cnt :=
            { d.cnt with
              thr := (d.cntKeys (c.cntAt 0).1 (c.cntAt 0).2).foldl (fun m k => mput m k ({ period := c.u64 8, vec := c.u8 16 } : Threshold)) d.cnt.thr,
              evt := d.cnt.evt.setTo (BitVec.ofNat 64 (c.u64 24)) (c.u8 32) } } := by
  have hperiod : (decide (c.u64 8 = 0) || decide (2 ^ 63 < c.u64 8)) = false :=
    Bool.or_eq_false_iff.2 ⟨decide_eq_false (Nat.ne_of_gt hlo), decide_eq_false (Nat.not_lt.2 hhi)⟩
  unfold bodyCntThreshold
  simp only [hring]
  exact (if_neg (not_not_intro hname)).trans ((if_clear hperiod).trans ((if_neg (Nat.not_lt.2 hvec)).trans (if_clear hroom)))

/-- The object of a window: a sub-port, a channel or a terminal whose tile runs. -/
theorem bodyCntWindow_legal (hlen : c.u16 0 ≤ 60000) (hdir : c.u8 3 ≤ 1)
    (hobj : c.u8 2 = 0 ∧ c.tgt < d.nSubs ∧ d.tileRun (tileOfSub c.tgt) = true ∨
      c.u8 2 = 1 ∧ d.chanOk c.tgt = true ∧ d.tileRun (tileOfChan c.tgt) = true ∨
      c.u8 2 = 2 ∧ c.tgt < d.nTerms ∧ mhas d.terms c.tgt = true ∧ d.tileRun (d.tileOfTerm c.tgt) = true) :
    bodyCntWindow c d = (d.winSet (winKey (c.u8 2) c.tgt (c.u8 3)) (c.u16 0)).ok := by
  unfold bodyCntWindow
  refine (if_neg (Nat.not_lt.2 hlen)).trans ?_
  rcases hobj with ⟨hkind, hin, hrun⟩ | ⟨hkind, hin, hrun⟩ | ⟨hkind, hin, hlisted, hrun⟩
  · refine (if_neg (by omega)).trans ((if_neg (Nat.not_lt.2 hdir)).trans ((if_pos hkind).trans ?_))
    exact onSub_running hin hrun _ _
  · refine (if_neg (by omega)).trans ((if_neg (Nat.not_lt.2 hdir)).trans ((if_neg (by omega)).trans ((if_pos hkind).trans ?_)))
    exact onChan_running hin hrun _ _
  · refine (if_neg (by omega)).trans ((if_neg (Nat.not_lt.2 hdir)).trans ((if_neg (by omega)).trans ((if_neg (by omega)).trans ?_)))
    exact (if_neg (Nat.not_le.2 hin)).trans (if_neither (by rw [hlisted]; rfl) (by rw [Dev.notRun, hrun]; rfl))

/-- Sampling stops on the engines of a mask, or begins anew with a legal period and ring. -/
theorem bodyCntSample_legal (hin : c.engineMask.all (fun e => e < d.nEngines) = true)
    (hperiod : c.u8 0 = 0 ∨ 4 ≤ c.u8 0 ∧ c.u8 0 ≤ 24 ∧ ringBad c 40 = none) :
    bodyCntSample c d =
      Dev.ok (if c.u8 0 = 0 then { d with cnt := { d.cnt with samp := d.cnt.samp.filter (fun e => !c.engineMask.contains e.1) } } else
        c.engineMask.foldl (Dev.sampStart (c.u8 0)) { d with cnt := { d.cnt with smp := d.cnt.smp.setTo (BitVec.ofNat 64 (c.u64 40)) (c.u8 48) } })
      := by
  have hengines : c.engineMask.any (fun e => decide (d.nEngines ≤ e)) = false :=
    List.any_eq_false.2 fun e he => by
      have hlt := of_decide_eq_true (List.all_eq_true.1 hin e he)
      rw [decide_eq_false (Nat.not_le.2 hlt)]
      exact Bool.false_ne_true
  unfold bodyCntSample
  rcases hperiod with hstop | ⟨hlo, hhi, hring⟩
  · refine (if_clear (by rw [hstop]; rfl)).trans ((if_clear hengines).trans ((if_pos hstop).trans ?_))
    rw [if_pos hstop]
  · refine (if_clear ?_).trans ((if_clear hengines).trans ((if_neg (by omega)).trans ?_))
    · simp only [Bool.or_eq_false_iff, Bool.and_eq_false_iff, decide_eq_false_iff_not]
      omega
    · simp only [hring]
      rw [if_neg (by omega)]

end

/-! ## Sampling (R474, R475) and the reads of BAR2 (R464, R466) -/

theorem opSampleIntervalExpiry_running {d : Dev} {engine : Nat} {s : Sampling} (hrun : d.tileRun (engine / 32) = true)
    (hs : mget d.cnt.samp engine = some s) :
    mget (d.opSampleIntervalExpiry engine).cnt.samp engine =
        some (let x := Config.lfsrNext s.lfsr % 2 ^ 32
          if s.tag then { s with lfsr := x, left := sampInterval s.k x, deferred := true } else
            { s with lfsr := x, left := sampInterval s.k x, tag := true, curDef := false }) ∧
      d.opSampleIntervalExpiry engine = { d with cnt := (d.opSampleIntervalExpiry engine).cnt } := by
  unfold Dev.opSampleIntervalExpiry
  rw [if_set hrun]
  refine ⟨?_, rfl⟩
  unfold Dev.updSamp
  dsimp only
  rw [mget_mmod, hs]
  rfl

section
variable {d : Dev} {engine : Nat} {r : SampleRec} {s : Sampling} (hs : mget d.cnt.samp engine = some s) (htag : s.tag = true)
  (hrun : d.tileRun (engine / 32) = true)
include hs htag hrun

/-- A tagged instruction retires: its tag goes to a deferred one, its record to the ring. -/
theorem opSampleRetire_room {ring : Ring} {os : List Output}
    (hring : ringPut d.cnt.smp (d.reg 0x1008) (SampleRec.bytes r d.now engine s.curDef) = some (ring, os)) :
    d.opSampleRetire engine r =
      (let x := d.updSamp engine (fun s => { s with tag := s.deferred, curDef := s.deferred, deferred := false })
       { x with cnt := { x.cnt with smp := ring }, out := os.reverse ++ x.out }) := by
  have hput : ringPut (d.updSamp engine (fun s => { s with tag := s.deferred, curDef := s.deferred, deferred := false })).cnt.smp
      ((d.updSamp engine (fun s => { s with tag := s.deferred, curDef := s.deferred, deferred := false })).reg 0x1008)
      (SampleRec.bytes r (d.updSamp engine (fun s => { s with tag := s.deferred, curDef := s.deferred, deferred := false })).now engine s.curDef) =
      some (ring, os) := hring
  unfold Dev.opSampleRetire
  simp only [hs]
  rw [if_neither (by rw [htag]; rfl) (by rw [hrun]; rfl)]
  simp only [hput]

theorem opSampleRetire_full (hring : ringPut d.cnt.smp (d.reg 0x1008) (SampleRec.bytes r d.now engine s.curDef) = none) :
    d.opSampleRetire engine r =
      (let x := d.updSamp engine (fun s => { s with tag := s.deferred, curDef := s.deferred, deferred := false })
       { x with cnt := { x.cnt with smpLost := min 0xFFFF (x.cnt.smpLost + 1) } }) := by
  have hput : ringPut (d.updSamp engine (fun s => { s with tag := s.deferred, curDef := s.deferred, deferred := false })).cnt.smp
      ((d.updSamp engine (fun s => { s with tag := s.deferred, curDef := s.deferred, deferred := false })).reg 0x1008)
      (SampleRec.bytes r (d.updSamp engine (fun s => { s with tag := s.deferred, curDef := s.deferred, deferred := false })).now engine s.curDef) =
      none := hring
  unfold Dev.opSampleRetire
  simp only [hs]
  rw [if_neither (by rw [htag]; rfl) (by rw [hrun]; rfl)]
  simp only [hput]

end

/-- Where counter `512 q + r` of tile `t` lies in BAR2. -/
theorem bar2_place {t q r : Nat} (hq : q < 512) (hr : r < 512) :
    ((t * 512 + q) * 4096 + r * 8) / 4096 = t * 512 + q ∧ (t * 512 + q) / 512 = t ∧
      (t * 512 + q) % 512 * 512 + ((t * 512 + q) * 4096 + r * 8) % 4096 / 8 = q * 512 + r ∧ ((t * 512 + q) * 4096 + r * 8) % 8 = 0 := by
  refine ⟨?_, ?_, ?_, ?_⟩ <;> omega

theorem bar2Read_counter {d : Dev} {t n key : Nat} {v : BitVec 64} (hn : n < 262144) (ht : t < d.nTiles)
    (hpage : (d.reg (0x1100 + 4 * ((t * 512 + n / 512) / 32))).testBit ((t * 512 + n / 512) % 32) = true)
    (hfound : d.cnt.vals.find? (fun e => d.cntTile e.1 = t && d.cntNum e.1 = n) = some (key, v)) :
    d.bar2Read ((t * 512 + n / 512) * 4096 + n % 512 * 8) 8 = v := by
  obtain ⟨hp, htile, hnum, haligned⟩ := bar2_place (t := t) (Nat.div_lt_of_lt_mul (m := n) (n := 512) (k := 512) hn) (Nat.mod_lt n (by decide))
  rw [Nat.div_add_mod'] at hnum
  unfold Dev.bar2Read
  simp only [hp, htile, hnum, haligned, hpage, hfound]
  rw [decide_eq_false (Nat.not_le.2 ht)]
  rfl

theorem bar2Read_other {d : Dev} {ofs width : Nat}
    (hother : width ≠ 8 ∨ ofs % 8 ≠ 0 ∨ d.nTiles ≤ ofs / 4096 / 512 ∨ (d.reg (0x1100 + 4 * (ofs / 4096 / 32))).testBit (ofs / 4096 % 32) = false) :
    d.bar2Read ofs width = 0#64 := by
  unfold Dev.bar2Read
  refine if_pos ?_
  simp only [Bool.or_eq_true, decide_eq_true_eq, Bool.not_eq_true', or_assoc]
  exact hother

theorem specCntThreshold_body : specCntThreshold.body = bodyCntThreshold := by simp only [specCntThreshold]

/-- Settles O38: the commands under their premises, the events and the reads of BAR2 by their equations. -/
theorem countersAreReadAndWatched : Obligations.CountersAreReadAndWatched := by
  unfold Obligations.CountersAreReadAndWatched
  refine ⟨?read, ?snapshot, ?write, ?threshold, ?window, ?sample, ?closes, ?interval, ?retires, ?full, ?counter, ?other⟩
  case read => exact answers_row _ _ _ _ _ (fun _ _ => rfl) fun c d _ ⟨hnow, hnames, hlen⟩ => bodyCntRead_now hnames hnow hlen
  case snapshot =>
    exact fun t => starts_row _ _ _ _ _ _ _ (fun _ _ => rfl) fun c d _ ⟨hnames, hsnap, ht⟩ => bodyCntRead_snapshot hnames hsnap ht
  case write => exact answers_row _ _ _ _ _ (fun _ _ => rfl) fun c d _ hnames => bodyCntWrite_legal hnames
  case threshold =>
    refine answers_row _ _ _ _ _ (fun _ _ => rfl) fun c d _ ⟨hring, hname, hlo, hhi, hvec, hroom⟩ => ?_
    rw [specCntThreshold_body]
    exact bodyCntThreshold_legal hring hname hlo hhi hvec hroom
  case window => exact answers_row _ _ _ _ _ (fun _ _ => rfl) fun c d _ ⟨hlen, hdir, hobj⟩ => bodyCntWindow_legal hlen hdir hobj
  case sample => exact answers_row _ _ _ _ _ (fun _ _ => rfl) fun c d _ ⟨hin, hperiod⟩ => bodyCntSample_legal hin hperiod
  case closes =>
    intro d key w ⟨hw, hlen, hready⟩
    refine becomes_of (f := fun d => d.opBandwidthWindowClose key) (fun _ => rfl) ?_
    simp only [Dev.opBandwidthWindowClose, hw]
    exact if_neither (decide_eq_false hlen) (by rw [hready]; rfl)
  case interval =>
    intro d engine s ⟨hrun, hs⟩
    exact leaves_of (f := fun d => d.opSampleIntervalExpiry engine) (fun _ => rfl) (opSampleIntervalExpiry_running hrun hs)
  case retires =>
    intro d engine r s ring os ⟨hs, htag, hrun, hring⟩
    exact becomes_of (f := fun d => d.opSampleRetire engine r) (fun _ => rfl) (opSampleRetire_room hs htag hrun hring)
  case full =>
    intro d engine r s ⟨hs, htag, hrun, hring⟩
    exact becomes_of (f := fun d => d.opSampleRetire engine r) (fun _ => rfl) (opSampleRetire_full hs htag hrun hring)
  case counter => exact fun d t n key v hn ht hpage hfound => bar2Read_counter hn ht hpage hfound
  case other => exact fun d ofs width hother => bar2Read_other hother

end Sys2Proof.Machine

/-! PROOFS. Lockstep pairs, watchdogs, engines and the discrete inputs (O30). -/

namespace Sys2Proof.Machine

/-! ## Lockstep pairs (R17, R449) -/

/-- The two pairs of a tile, and what the loss of the second makes of its mask. -/
theorem pair_bits : ∀ pair < 2, (1#2 <<< pair) ≠ 3#2 ∧ (1#2 <<< (1 - pair)).getLsbD pair = false ∧ 1#2 <<< (1 - pair) ||| 1#2 <<< pair = 3#2 := by
  decide

section
variable {d : Dev} {tile pair : Nat} (hin : tile < d.nTiles) (hpair : pair < 2) (haon : d.pwr.pstate ≠ .aon) (hup : d.pwr.pstate ≠ .unpowered)
include hin hpair haon hup

/-- The first pair lost is an F3, and the tile goes on with the other. -/
theorem pairLost_first (hbad : (d.tile tile).pairBad = 0#2) (wd : Bool) :
    d.pairLost tile pair wd =
      (d.updTile tile (fun x => { x with pairBad := 0#2 ||| (1#2 <<< pair) })).raise 0x02 (if wd then 0x07 else 0x02) 3 tile tile pair false := by
  obtain ⟨hone, -, -⟩ := pair_bits pair hpair
  unfold Dev.pairLost
  simp [hbad, haon, hup, hone, Nat.not_le.2 hin, Nat.not_le.2 hpair]

/-- The second pair lost isolates the tile, the lead tile with an F4 and every other with an F3. -/
theorem pairLost_second (hbad : (d.tile tile).pairBad = 1#2 <<< (1 - pair)) (wd : Bool) :
    d.pairLost tile pair wd =
      if tile = 0 then (d.updTile tile (fun x => { x with pairBad := 3#2 })).leadFails.raise 0x02 (if wd then 0x07 else 0x03) 4 0 0 2 false
      else (((d.updTile tile (fun x => { x with pairBad := 3#2 })).takeOut tile).raise 0x02 (if wd then 0x07 else 0x02) 3 tile tile 2 false true).assayGone tile := by
  obtain ⟨-, hbit, hboth⟩ := pair_bits pair hpair
  unfold Dev.pairLost
  simp [hbad, haon, hup, hbit, hboth, Nat.not_le.2 hin, Nat.not_le.2 hpair]

end

/-! ## Engines (R19) -/

/-- The spares of a tile that hold no task and work. -/
def Tile.freeSpares (x : Tile) : List Nat := [30, 31].filter (fun s => !(x.engMove.map (fun m => m.2)).contains s && !x.engBad.contains s)

/-- The task of an engine that is no spare goes to the first free spare, where there is one. -/
theorem opEngineIsolate_task {d : Dev} {engine : Nat} (hrun : d.tileRun (engine / 32) = true) (hbad : engine % 32 ∉ (d.tile (engine / 32)).engBad)
    (htask : engine % 32 < 30) :
    d.opEngineIsolate engine =
      (d.updTile (engine / 32) (fun x => { x with
        engBad := insSorted x.engBad (engine % 32)
        engMove := x.engMove.filter (fun m => m.2 ≠ engine % 32)
          ++ ((d.tile (engine / 32)).freeSpares.head?.map (fun s => (engine % 32, s))).toList })).raise 0x02 0x04 2 (engine / 32) engine
        (((d.tile (engine / 32)).freeSpares.head?.map (fun s => 32 * (engine / 32) + s)).getD 0xFFFFFFFF) false := by
  have hspares : [30, 31].filter (fun s => s ≠ engine % 32 && !((d.tile (engine / 32)).engMove.map (fun m => m.2)).contains s &&
      !(d.tile (engine / 32)).engBad.contains s) = (d.tile (engine / 32)).freeSpares := by
    refine List.filter_congr fun s hs => ?_
    have hne : s ≠ engine % 32 := by simp only [List.mem_cons, List.not_mem_nil, or_false] at hs; omega
    rw [decide_eq_true hne, Bool.true_and]
  unfold Dev.opEngineIsolate
  dsimp only
  rw [hspares, if_neg (by simp [hrun, hbad]), if_pos htask]
  cases (d.tile (engine / 32)).freeSpares <;> rfl

/-! ## EXT_QUENCH_N (R447) -/

theorem quenchNow_extQuench (d : Dev) (r : FltRec) : (d.quenchNow r).flt.extQuench = d.flt.extQuench := by
  unfold Dev.quenchNow
  split
  · rfl
  · rw [(notify_talks _ _ _ _).flt, (irq_talks _ _).flt, (localFaults_talks _).flt, (lasersOff_talks _ _).flt, releaseAll_ring]

theorem enter_extQuench (f : FaultState) (r : FltRec) (qe : Raw) (mram : Bool) : (f.enter r qe mram).extQuench = f.extQuench := by
  unfold FaultState.enter
  dsimp only
  split
  · unfold FaultState.toEmram
    dsimp only
    split <;> rfl
  · rfl

/-- A fault recorded F4 leaves what EXT_QUENCH_N asks for as it was. -/
theorem raise_f4_extQuench (d : Dev) (b ev tile inst detail : Nat) (cond : Bool) :
    (d.raise b ev 4 tile inst detail cond).flt.extQuench = d.flt.extQuench := by
  obtain ⟨f, htalk, hrec⟩ := recordFault_f4 d (r := d.faultRec b ev 4 tile inst detail cond false) rfl
  unfold Dev.raise
  rw [hrec, quenchNow_extQuench, htalk.flt, Dev.setFlt_flt, enter_extQuench]

/-- Asserted on a package that is ready, the input is recorded with its instant and its F4 is raised. -/
theorem opExtQuenchAssert_ready {d : Dev} (hoff : d.pwr.pinQuench.asserted = false) (hready : d.ready = true) :
    let e := d.opExtQuenchAssert
    e.pwr.pinQuench = { asserted := true, since := d.now } ∧ e.flt.extQuench = true ∧ Raised e 0x0F 0x01 0xFF 0xFFFFFFFF := by
  let pinned : Dev := { d with pwr := { d.pwr with pinQuench := { asserted := true, since := d.now } }, flt := { d.flt with extQuench := true } }
  intro e
  have he : e = pinned.raise 0x0F 0x01 4 0xFF 0xFFFFFFFF 0 true :=
    (if_neg (ne_true_of_eq_false hoff)).trans (if_pos hready)
  rw [he]
  exact ⟨by rw [(raise_raises _ _ _ _ _ _ _ _ _).pwr], raise_f4_extQuench _ _ _ _ _ _ _, raise_raised _ _ _ _ _ _ _ _ _⟩

/-! ## Inputs held past their time (R58, Table 2-7) -/

theorem advanceTo_ready (d : Dev) (t : Raw) : (d.advanceTo t).ready = d.ready := by
  unfold Dev.advanceTo
  split <;> rfl

theorem advanceTo_supply (d : Dev) (t : Raw) : (d.advanceTo t).pwr = d.pwr ∧ (d.advanceTo t).rst = d.rst := by
  unfold Dev.advanceTo
  split <;> exact ⟨rfl, rfl⟩

section
variable {d r : Dev} {src : BitVec 2} {ref : Bool}

/-- A stuck PROT_REQ_N is ignored with an F2, and its trees take the withdrawn request up. -/
theorem opStuckTimeout_protReq {input : Nat} {p : Pin} (h2 : 2 ≤ input) (h5 : input ≤ 5) (hp : mget d.pwr.pinProt (input - 2) = some p)
    (hon : p.asserted = true) (harmed : p.ignored = false) (hready : d.ready = true) (hr : r = d.advanceTo (p.since + rawS 10)) :
    let e := Dev.raise { r with pwr := { r.pwr with
      pinProt := mput r.pwr.pinProt (input - 2) { p with ignored := true }, protStuck := r.pwr.protStuck ||| (1#4 <<< (input - 2)) } } 0x01 0x08 2 0 input 10 true
    d.opStuckTimeout input src ref = (e.pinTrees (input - 2)).foldl (fun d t => d.groupRefresh t) e := by
  intro e
  have h0 : input ≠ 0 := by omega
  have h1 : input ≠ 1 := by omega
  have hrun : r.ready = true := by rw [hr, advanceTo_ready, hready]
  unfold Dev.opStuckTimeout
  simp only [h0, h1, if_false, mgetD_of_get hp, ← hr]
  refine (if_neither (by rw [hon, decide_eq_false (Nat.not_lt.2 h5)]; rfl) harmed).trans ?_
  exact congrArg (fun e : Dev => (e.pinTrees (input - 2)).foldl (fun d t => d.groupRefresh t) e) (if_pos hrun)

/-- A stuck EXT_QUENCH_N is ignored with an F2, and the condition it raised ends. -/
theorem opStuckTimeout_extQuench (hon : d.pwr.pinQuench.asserted = true) (harmed : d.pwr.pinQuench.ignored = false) (hready : d.ready = true)
    (hr : r = d.advanceTo (d.pwr.pinQuench.since + rawS d.quenchStuckS)) :
    d.opStuckTimeout 1 src ref = (Dev.raise { r with pwr := { r.pwr with pinQuench := { d.pwr.pinQuench with ignored := true }, quenchStuck := true } }
      0x01 0x08 2 0 1 d.quenchStuckS true).endCond 0x0F 0x01 0xFF 0xFFFFFFFF := by
  have hrun : r.ready = true := by rw [hr, advanceTo_ready, hready]
  unfold Dev.opStuckTimeout
  simp only [Nat.one_ne_zero, if_false, if_true, ← hr]
  refine (if_neither (by rw [hon]; rfl) harmed).trans ?_
  exact congrArg (fun e : Dev => e.endCond 0x0F 0x01 0xFF 0xFFFFFFFF) (if_pos hrun)

/-- A stuck RESET_N that alone holds the package in cold reset lets it boot. -/
theorem opStuckTimeout_resetN (hon : d.pwr.pinReset.asserted = true) (harmed : d.pwr.pinReset.ignored = false) (haon : d.pwr.pstate = .aon)
    (hpfw : d.pwr.pfw = false) (hstage : d.rst.stage ≠ .ready) (hr : r = d.advanceTo (d.pwr.pinReset.since + rawS 10)) :
    d.opStuckTimeout 0 src ref =
      Dev.coldBoot { r with pwr := { r.pwr with pinReset := { d.pwr.pinReset with ignored := true }, resetStuck := true } } src ref := by
  obtain ⟨hpwr, -⟩ := advanceTo_supply d (d.pwr.pinReset.since + rawS 10)
  rw [← hr] at hpwr
  have hhalted : r.ready = false := by
    rw [hr, advanceTo_ready, Dev.ready, decide_eq_false hstage, Bool.false_and]
  unfold Dev.opStuckTimeout
  simp only [if_true, Nat.zero_ne_one, if_false, ← hr]
  refine (if_neither (by rw [hon]; rfl) harmed).trans ?_
  refine (congrArg (fun e : Dev => if e.pwr.pstate = .aon && !e.pwr.pfw then e.coldBoot src ref else e) (if_neg (ne_true_of_eq_false hhalted))).trans (if_pos ?_)
  simp [hpwr, haon, hpfw]

end

/-! ## The obligation -/

/-- Settles O30: the loss of a pair by its two causes, engines by their free spares, then the inputs one by one. -/
theorem lossesAreReported : Obligations.LossesAreReported := by
  unfold Obligations.LossesAreReported
  refine ⟨?lockFirst, ?lockSecond, ?lockLead, ?dogFirst, ?dogSecond, ?dogLead, ?spare, ?noSpare, ?quenchReady, ?quenchBoot, ?quenchEnd,
    ?protOn, ?protOff, ?pulse, ?stuckProt, ?stuckQuench, ?stuckReset⟩
  case lockFirst =>
    intro d tile pair ⟨hin, hpair, hbad, haon, hup⟩
    exact becomes_of (f := fun d => d.opLockstepDisagree tile pair) (fun _ => rfl) (pairLost_first hin hpair haon hup hbad false)
  case lockSecond =>
    intro d tile pair ⟨hpos, hin, hpair, hbad, haon, hup⟩
    exact becomes_of (f := fun d => d.opLockstepDisagree tile pair) (fun _ => rfl)
      ((pairLost_second hin hpair haon hup hbad false).trans (if_neg (Nat.ne_of_gt hpos)))
  case lockLead =>
    rintro d tile pair ⟨rfl, hpair, hbad, haon, hup⟩
    exact becomes_of (f := fun d => d.opLockstepDisagree 0 pair) (fun _ => rfl) (pairLost_second (nTiles_pos d) hpair haon hup hbad false)
  case dogFirst =>
    intro d tile pair ⟨hin, hpair, hbad, haon, hup⟩
    exact becomes_of (f := fun d => d.opWatchdogExpiry tile pair) (fun _ => rfl) (pairLost_first hin hpair haon hup hbad true)
  case dogSecond =>
    intro d tile pair ⟨hpos, hin, hpair, hbad, haon, hup⟩
    exact becomes_of (f := fun d => d.opWatchdogExpiry tile pair) (fun _ => rfl)
      ((pairLost_second hin hpair haon hup hbad true).trans (if_neg (Nat.ne_of_gt hpos)))
  case dogLead =>
    rintro d tile pair ⟨rfl, hpair, hbad, haon, hup⟩
    exact becomes_of (f := fun d => d.opWatchdogExpiry 0 pair) (fun _ => rfl) (pairLost_second (nTiles_pos d) hpair haon hup hbad true)
  case spare =>
    intro d engine s l ⟨hrun, hbad, htask, hfree⟩
    refine becomes_of (f := fun d => d.opEngineIsolate engine) (fun _ => rfl) ((opEngineIsolate_task hrun hbad htask).trans ?_)
    rw [Tile.freeSpares, hfree]
    rfl
  case noSpare =>
    intro d engine ⟨hrun, hbad, htask, hfree⟩
    refine becomes_of (f := fun d => d.opEngineIsolate engine) (fun _ => rfl) ((opEngineIsolate_task hrun hbad htask).trans ?_)
    rw [Tile.freeSpares, hfree]
    simp only [List.head?_nil, Option.map_none, Option.toList_none, List.append_nil, Option.getD_none]
  case quenchReady =>
    intro d ⟨hoff, hready⟩
    exact leaves_of (f := Dev.opExtQuenchAssert) (fun _ => rfl) (opExtQuenchAssert_ready hoff hready)
  case quenchBoot =>
    intro d ⟨hoff, hready⟩
    exact becomes_of (f := Dev.opExtQuenchAssert) (fun _ => rfl)
      ((if_neg (ne_true_of_eq_false hoff)).trans (if_neg (ne_true_of_eq_false hready)))
  case quenchEnd => exact fun d hon => becomes_of (f := Dev.opExtQuenchRelease) (fun _ => rfl) (if_set hon)
  case protOn =>
    intro d n ⟨hn, hoff⟩
    refine becomes_of (f := fun d => d.opProtReqAssert n) (fun _ => rfl) ?_
    simp only [Dev.opProtReqAssert, hoff, decide_eq_false (Nat.not_le.2 hn), Bool.or_self, Bool.false_eq_true, if_false]
    cases hready : d.ready
    · exact if_pos (congrArg (!·) hready)
    · exact if_set hready
  case protOff =>
    intro d n ⟨hn, hon⟩
    exact becomes_of (f := fun d => d.opProtReqRelease n) (fun _ => rfl) (if_neither (decide_eq_false (Nat.not_le.2 hn)) (by rw [hon]; rfl))
  case pulse =>
    exact fun d input hin => becomes_of (f := fun d => d.opDiscreteShortPulse input) (fun _ => rfl) (if_neg (Nat.not_lt.2 hin))
  case stuckProt =>
    intro d pin p r ⟨h2, h5, hp, hon, harmed, hready, hr⟩
    exact becomes_of (f := fun d => d.opStuckTimeout pin.input pin.straps.bootSrc pin.straps.refSel) (fun _ => rfl)
      (opStuckTimeout_protReq h2 h5 hp hon harmed hready hr)
  case stuckQuench =>
    intro d pin r ⟨hinput, hon, harmed, hready, hr⟩
    refine becomes_of (f := fun d => d.opStuckTimeout pin.input pin.straps.bootSrc pin.straps.refSel) (fun _ => rfl) ?_
    rw [hinput]
    exact opStuckTimeout_extQuench hon harmed hready hr
  case stuckReset =>
    intro d pin r ⟨hinput, hon, harmed, haon, hpfw, hstage, hr⟩
    refine becomes_of (f := fun d => d.opStuckTimeout pin.input pin.straps.bootSrc pin.straps.refSel) (fun _ => rfl) ?_
    rw [hinput]
    exact opStuckTimeout_resetN hon harmed haon hpfw hstage hr

end Sys2Proof.Machine

/-! PROOFS. Trees and channels: enable, disable, upstream rate, drain (O5). -/

namespace Sys2Proof.Machine

@[simp] theorem chan_updChan (d : Dev) (ch : Nat) (f : Chan → Chan) : (d.updChan ch f).chan ch = f (d.chan ch) := mgetD_mput _ _ _ _

theorem chan_updChan_ne (d : Dev) {ch k : Nat} (f : Chan → Chan) (h : k ≠ ch) : (d.updChan ch f).chan k = d.chan k := mgetD_mput_ne _ _ _ _ _ h

/-! ## Enabling (R141, R143) -/

/-- A tree lane that leaves lull leaves every channel as it was (R54, R101). -/
theorem laneWake_chans (d : Dev) (t : Nat) {l : Nat} (hl : l < 8) : (d.laneWake t l).chans = d.chans := by
  unfold Dev.laneWake
  dsimp only
  split
  · simp only [Dev.laneRestart, hl, if_true]
    rfl
  · split <;> rfl

theorem crossTake_chans (d : Dev) (t group k : Nat) : (d.crossTake t group k).chans = d.chans := by
  unfold Dev.crossTake
  split <;> rfl

/-- Where each step gives one object a value and leaves it to every other, each object of a list has it at the end. -/
theorem foldl_reaches {α : Type} {f : Dev → Nat → Dev} (of : Dev → Nat → α) {v : α} (hset : ∀ d k, of (f d k) k = v)
    (hne : ∀ d {k j}, j ≠ k → of (f d k) j = of d j) (l : List Nat) {d : Dev} {j : Nat} (h : j ∈ l ∨ of d j = v) : of (l.foldl f d) j = v := by
  induction l generalizing d with
  | nil => exact h.resolve_left List.not_mem_nil
  | cons k l ih =>
    refine ih ?_
    by_cases hk : j = k
    · exact .inr (hk ▸ hset d j)
    · rw [hne d hk]
      exact h.imp_left fun hin => (List.mem_cons.1 hin).resolve_left hk

/-- A channel enabled goes to ENABLING (R141). -/
theorem chanEnabling_st (d : Dev) (ch : Nat) : ((d.chanEnabling ch).chan ch).st = .enabling := by
  unfold Dev.chanEnabling
  rw [chan_updChan]

/-- No other channel changes. -/
theorem chanEnabling_chan_ne (d : Dev) {ch k : Nat} (h : k ≠ ch) : (d.chanEnabling ch).chan k = d.chan k := by
  unfold Dev.chanEnabling
  rw [chan_updChan_ne _ _ h, chan_congr (crossTake_chans _ _ _ _), chan_congr (laneWake_chans d _ (Nat.mod_lt _ (by decide)))]

/-- Of channels enabled one after the other, each is left ENABLING. -/
theorem foldl_chanEnabling_st {l : List Nat} (d : Dev) {ch : Nat} (h : ch ∈ l) : ((l.foldl Dev.chanEnabling d).chan ch).st = .enabling :=
  foldl_reaches (fun d ch => (d.chan ch).st) chanEnabling_st (fun d _ _ hne => congrArg Chan.st (chanEnabling_chan_ne d hne)) l (.inl h)

/-- A tree none of whose DISABLED channels its lane refuses has them all enabled (R27, R95). -/
theorem treeEnableNow_ok {d : Dev} {tree : Nat}
    (hlane : ∀ ch ∈ treeChans tree, (d.chan ch).st = .disabled → d.laneRefuses ch (d.chan ch).upRate = false) :
    d.treeEnableNow tree = (stOk, ((treeChans tree).filter (fun ch => (d.chan ch).st = .disabled)).foldl Dev.chanEnabling d) := by
  refine if_neg (ne_true_of_eq_false (List.any_eq_false.2 fun ch hch => ?_))
  obtain ⟨hin, hst⟩ := List.mem_filter.1 hch
  exact ne_true_of_eq_false (hlane ch hin (of_decide_eq_true hst))

section
variable {c : Cmd} {d : Dev}

theorem bodyChanEnable_disabled (hch : d.chanOk c.tgt = true) (hrun : d.tileRun (tileOfChan c.tgt) = true) (hst : (d.chan c.tgt).st = .disabled)
    (hat : (d.chan c.tgt).disableAt = none) (hlane : d.laneRefuses c.tgt (d.chan c.tgt).upRate = false) :
    bodyChanEnable c d = (d.chanEnabling c.tgt).ok := by
  rw [bodyChanEnable, onChan_running hch hrun]
  simp [Dev.shutting, hst, hat, hlane]

theorem bodyTreeEnable_now (ht : c.tgt < d.nTrees) (hrun : d.tileRun (tileOfTree c.tgt) = true) (hopen : (treeChans c.tgt).any d.shutting = false)
    (hlane : ∀ ch ∈ treeChans c.tgt, (d.chan ch).st = .disabled → d.laneRefuses ch (d.chan ch).upRate = false) :
    bodyTreeEnable c d = (((treeChans c.tgt).filter (fun ch => (d.chan ch).st = .disabled)).foldl Dev.chanEnabling d).ok := by
  rw [bodyTreeEnable, onTree_running ht hrun, hopen, treeEnableNow_ok hlane]
  rfl

theorem bodyTreeEnable_queued (ht : c.tgt < d.nTrees) (hrun : d.tileRun (tileOfTree c.tgt) = true) (hshut : (treeChans c.tgt).any d.shutting = true) :
    bodyTreeEnable c d = d.accepted stPending .treeEnable c.tgt := by
  rw [bodyTreeEnable, onTree_running ht hrun]
  exact if_pos hshut

theorem bodyChanConfig_disabled (hch : d.chanOk c.tgt = true) (hrun : d.tileRun (tileOfChan c.tgt) = true) (hrate : c.u8 0 ≤ c.tgt % 4)
    (hst : (d.chan c.tgt).st = .disabled) (hlane : d.laneRefuses c.tgt (c.u8 0) = false) :
    bodyChanConfig c d = Dev.ok (d.updChan c.tgt (fun x => { x with upRate := c.u8 0 })) := by
  rw [bodyChanConfig, onChan_running hch hrun, if_neg (Nat.not_lt.2 hrate)]
  exact if_neither (by simp [hst]) hlane

end

/-! ## Disabling (R142) -/

/-- The frame from which a change is seen follows from the clocks alone. -/
theorem effFrame_congr {d e : Dev} (h : e.time = d.time) : e.effFrame = d.effFrame := by
  have hclk : e.frameClockU = d.frameClockU := by
    unfold Dev.frameClockU Dev.netU Dev.netUAt Dev.phiU Dev.now
    rw [h]
  unfold Dev.effFrame Dev.frameI
  rw [hclk]

/-- A channel in service, no disable of which is accepted yet. -/
def Chan.inService (x : Chan) : Prop := (x.st = .enabled ∨ x.st = .enabling) ∧ x.disableAt = none

theorem disableChan_inService {d : Dev} {ch : Nat} (h : (d.chan ch).inService) :
    d.disableChan ch = (d.complete .chanEnable ch stState).updChan ch (fun x => { x with disableAt := some d.effFrame }) := by
  obtain ⟨hst, hat⟩ := h
  have htalk := complete_talks d .chanEnable ch stState []
  unfold Dev.disableChan
  rw [← effFrame_congr htalk.time]
  refine if_pos ?_
  rw [chan_congr htalk.chans, hat]
  rcases hst with hst | hst <;> rw [hst] <;> rfl

/-- Disabling one channel leaves the clocks and every other channel. -/
theorem disableChan_keeps (d : Dev) (ch : Nat) :
    (d.disableChan ch).time = d.time ∧ ∀ k ≠ ch, (d.disableChan ch).chan k = d.chan k := by
  have htalk := complete_talks d .chanEnable ch stState []
  unfold Dev.disableChan
  dsimp only
  split
  · exact ⟨htalk.time, fun k hk => (chan_updChan_ne _ _ hk).trans (chan_congr htalk.chans k)⟩
  · exact ⟨htalk.time, fun k _ => chan_congr htalk.chans k⟩

theorem foldl_disableChan_keeps (l : List Nat) (d : Dev) :
    (l.foldl Dev.disableChan d).time = d.time ∧ ∀ k ∉ l, (l.foldl Dev.disableChan d).chan k = d.chan k := by
  induction l generalizing d with
  | nil => exact ⟨rfl, fun _ _ => rfl⟩
  | cons ch l ih =>
    obtain ⟨htime, hchan⟩ := disableChan_keeps d ch
    obtain ⟨htimes, hchans⟩ := ih (d.disableChan ch)
    refine ⟨htimes.trans htime, fun k hk => ?_⟩
    rw [List.mem_cons, not_or] at hk
    exact (hchans k hk.2).trans (hchan k hk.1)

/-- Of channels disabled one after the other, each one in service is registered for the same frame. -/
theorem foldl_disableChan_inService {l : List Nat} (hl : l.Nodup) {d : Dev} {ch : Nat} (hin : ch ∈ l) (h : (d.chan ch).inService) :
    ((l.foldl Dev.disableChan d).chan ch).disableAt = some d.effFrame := by
  induction l generalizing d with
  | nil => exact absurd hin List.not_mem_nil
  | cons k l ih =>
    obtain ⟨hout, hnodup⟩ := List.nodup_cons.1 hl
    obtain ⟨htime, hchan⟩ := disableChan_keeps d k
    rw [List.foldl_cons]
    rcases List.mem_cons.1 hin with rfl | hrest
    · rw [(foldl_disableChan_keeps l _).2 ch hout, disableChan_inService h, chan_updChan]
    · have hne : ch ≠ k := fun heq => hout (heq ▸ hrest)
      rw [ih hnodup hrest (by rw [hchan ch hne]; exact h), effFrame_congr htime]

theorem treeChans_nodup (t : Nat) : (treeChans t).Nodup := by simp [treeChans]

theorem bodyTreeDisable_running {c : Cmd} {d : Dev} (ht : c.tgt < d.nTrees) (hrun : d.tileRun (tileOfTree c.tgt) = true) :
    bodyTreeDisable c d = ((treeChans c.tgt).foldl Dev.disableChan (d.complete .treeEnable c.tgt stState)).ok := by
  rw [bodyTreeDisable, onTree_running ht hrun]

theorem bodyChanDisable_inService {c : Cmd} {d : Dev} (hch : d.chanOk c.tgt = true) (hrun : d.tileRun (tileOfChan c.tgt) = true)
    (hserve : (d.chan c.tgt).inService) :
    bodyChanDisable c d = Dev.ok ((d.complete .chanEnable c.tgt stState).updChan c.tgt (fun x => { x with disableAt := some d.effFrame })) := by
  rw [bodyChanDisable, onChan_running hch hrun, disableChan_inService hserve]

/-! ## The end of a drain (R142) -/

theorem termAbsent_host (d : Dev) (tid : Nat) : (d.termAbsent tid).host = d.host := by
  unfold Dev.termAbsent Dev.zeroDerived
  split <;> rfl

/-- A channel that goes to DISABLED is DISABLED, and the commands that wait still wait. -/
theorem chanDisabled_spec (d : Dev) (ch : Nat) : ((d.chanDisabled ch).chan ch).st = .disabled ∧ (d.chanDisabled ch).host = d.host := by
  have hfold (l : List (Nat × Terminal)) (d : Dev) : (l.foldl (fun d e => d.termAbsent e.1) d).host = d.host := by
    induction l generalizing d with
    | nil => rfl
    | cons e l ih => exact (ih _).trans (termAbsent_host d e.1)
  have hst (e : Dev) (f : Chan → Chan) (hf : ∀ x, (f x).st = .disabled) :
      ((if (e.updChan ch f).anyEnabled then e.updChan ch f else (e.updChan ch f).setFrameError 0).chan ch).st = .disabled ∧
        (if (e.updChan ch f).anyEnabled then e.updChan ch f else (e.updChan ch f).setFrameError 0).host = e.host := by
    have hupd : ((e.updChan ch f).chan ch).st = .disabled := by rw [chan_updChan, hf]
    split <;> exact ⟨hupd, rfl⟩
  unfold Dev.chanDisabled
  dsimp only
  refine (hst _ _ ?off).imp_right fun hhost => hhost.trans ?_
  case off => exact fun _ => rfl
  split <;> exact hfold _ d

theorem queuedEnables_none {d : Dev} {ch : Nat} (h : d.jobsOf .chanEnable ch = []) : d.queuedEnables ch = d :=
  if_pos (by rw [h]; rfl)

theorem queuedTree_none {d : Dev} {tree : Nat} (h : d.jobsOf .treeEnable tree = []) : d.queuedTree tree = d :=
  if_pos (by rw [h]; simp)

/-- A drain that has ended with empty queues disables its channel and lets the queued enables follow. -/
theorem opChannelDrainEnd_empty {d : Dev} {ch : Nat} (hch : d.chanOk ch = true) (hst : (d.chan ch).st = .draining)
    (hrun : d.tileRun (tileOfChan ch) = true) (hq : d.chanQueues ch = []) (hend : reached d.now (d.chan ch).drainEnd = true) :
    d.opChannelDrainEnd ch = ((d.chanDisabled ch).queuedEnables ch).queuedTree (ch / 4) := by
  have hnow : d.advanceTo (d.chan ch).drainEnd = d := if_pos hend
  unfold Dev.opChannelDrainEnd
  refine (if_neg (by simp [hch, hst, hrun])).trans ?_
  dsimp only
  rw [hnow, hq, List.foldl_nil]

/-! ## The obligation -/

/-- Settles O5: the commands by what their bodies do under the premises, then the end of a drain. -/
theorem channelsEnableDisableAndDrain : Obligations.ChannelsEnableDisableAndDrain := by
  unfold Obligations.ChannelsEnableDisableAndDrain
  refine ⟨?chanEnable, ?treeEnable, ?treeQueued, ?chanDisable, ?treeDisable, ?rate, ?drainEnd⟩
  case chanEnable =>
    refine with_row _ _ _ _ _ (fun _ _ => rfl) fun c d _ ⟨hch, hrun, hst, hat, hlane⟩ => ?_
    exact ⟨_, ⟨rfl, chanEnabling_st d c.tgt⟩, bodyChanEnable_disabled hch hrun hst hat hlane⟩
  case treeEnable =>
    refine with_row _ _ _ _ _ (fun _ _ => rfl) fun c d _ ⟨ht, hrun, hopen, hlane⟩ => ?_
    refine ⟨_, ⟨rfl, fun ch hin hst => ?_⟩, bodyTreeEnable_now ht hrun hopen hlane⟩
    exact foldl_chanEnabling_st d (List.mem_filter.2 ⟨hin, decide_eq_true hst⟩)
  case treeQueued => exact starts_row _ _ _ _ _ _ _ (fun _ _ => rfl) fun c d _ ⟨ht, hrun, hshut⟩ => bodyTreeEnable_queued ht hrun hshut
  case chanDisable =>
    refine with_row _ _ _ _ _ (fun _ _ => rfl) fun c d _ ⟨hch, hrun, hst, hat⟩ => ?_
    exact ⟨_, ⟨rfl, by rw [chan_updChan]⟩, bodyChanDisable_inService hch hrun ⟨hst, hat⟩⟩
  case treeDisable =>
    refine with_row _ _ _ _ _ (fun _ _ => rfl) fun c d _ ⟨ht, hrun⟩ => ?_
    refine ⟨_, ⟨rfl, fun ch hin hst hat => ?_⟩, bodyTreeDisable_running ht hrun⟩
    have htalk := complete_talks d .treeEnable c.tgt stState []
    rw [foldl_disableChan_inService (treeChans_nodup c.tgt) hin (by rw [chan_congr htalk.chans]; exact ⟨hst, hat⟩), effFrame_congr htalk.time]
  case rate =>
    exact answers_row _ _ _ _ _ (fun _ _ => rfl) fun c d _ ⟨hch, hrun, hrate, hst, hlane⟩ => bodyChanConfig_disabled hch hrun hrate hst hlane
  case drainEnd =>
    intro d ch ⟨hch, hst, hrun, hq, hend⟩
    refine leaves_of (f := fun d => d.opChannelDrainEnd ch) (fun _ => rfl) ⟨opChannelDrainEnd_empty hch hst hrun hq hend, fun ⟨hjobs, htree⟩ => ?_⟩
    obtain ⟨hoff, hhost⟩ := chanDisabled_spec d ch
    have hwaits (k : JobKind) (obj : Nat) : (d.chanDisabled ch).jobsOf k obj = d.jobsOf k obj := by unfold Dev.jobsOf; rw [hhost]
    rw [opChannelDrainEnd_empty hch hst hrun hq hend, queuedEnables_none ((hwaits _ _).trans hjobs), queuedTree_none ((hwaits _ _).trans htree)]
    exact hoff

end Sys2Proof.Machine

/-! PROOFS. Mailboxes, fragments, forwarded commands, messages of remote managers and the interpreter's timers (O39). -/

namespace Sys2Proof.Machine

theorem setMbox_mbox_ne (d : Dev) {ch k : Nat} (m : MboxChan) (h : k ≠ ch) : (d.setMbox ch m).mbox k = d.mbox k := mgetD_mput_ne _ _ _ _ _ h

/-! ## Sending and taking (R369, R371) -/

/-- A host's packet that its area or its length does not allow is dropped, and the channel's status says why. -/
theorem place_refused {d : Dev} {p : Packet} (hready : d.ready = true) (hlink : d.host.linkUp = true) (h1 : 1 ≤ p.chan) (h32 : p.chan < 32)
    (hbad : (d.mbox p.chan).send.isSome = true ∨ p.sendLen < 32 ∨ 3840 < p.sendLen) :
    d.place p = d.setMbox p.chan
      (if (d.mbox p.chan).send.isSome then { d.mbox p.chan with collision := true } else { d.mbox p.chan with badLen := true }) := by
  unfold Dev.place
  refine (if_neg (by simp [hready]; omega)).trans ((if_pos h32).trans ((if_set hlink).trans ?_))
  cases hfull : (d.mbox p.chan).send.isSome
  · rw [hfull] at hbad
    exact (if_neg Bool.false_ne_true).trans (if_pos (by simpa using hbad))
  · rfl

theorem opMbxTakeRead_waiting {d : Dev} {ch : Nat} {x : Msg} (hch : ch < 32) (hok : d.hostOk = true) (hx : (d.mbox ch).recv = some x) :
    d.opMbxTakeRead ch =
      (Dev.setMbox { d with lastRead := x.bytes.length } ch { d.mbox ch with recv := none, stall := false }).deliver ch := by
  unfold Dev.opMbxTakeRead
  refine (if_neither (decide_eq_false (Nat.not_le.2 hch)) (by rw [hok]; rfl)).trans ?_
  rw [hx]
  rfl

theorem opMbxTakeRead_none {d : Dev} {ch : Nat} (h : 32 ≤ ch ∨ d.hostOk = false ∨ (d.mbox ch).recv = none) :
    d.opMbxTakeRead ch = { d with lastRead := 0 } := by
  unfold Dev.opMbxTakeRead
  split
  · rfl
  · next hguard =>
    have hnone : (d.mbox ch).recv = none := by
      rcases h with h | h | h
      · exact absurd (by simp [h]) hguard
      · exact absurd (by simp [h]) hguard
      · exact h
    rw [hnone]

/-- A management frame of a bound manager is placed in its channel. -/
theorem opInbandMessageRx_bound {d : Dev} {sub vlan mac i : Nat} {p : Packet} (hready : d.ready = true) (hrun : d.tileRun (tileOfSub sub) = true)
    (hon : (d.sub sub).enabled = true) (hi : (List.range 16).find? (fun i => (d.sender (32 + i)).remote = some (sub, vlan, mac)) = some i) :
    d.opInbandMessageRx sub vlan mac p = d.place { p with chan := 32 + i } := by
  unfold Dev.opInbandMessageRx
  refine (if_neg (by simp [hready, hrun, hon])).trans ?_
  rw [hi]

/-! ## Packets that name their own opcode (R26, R396, R398) -/

section
variable {sp : CmdSpec} {p : Packet} {d : Dev}

/-- A whole packet that passes every check runs its body, whichever event carries it. -/
theorem runRow_body (h : Dev.passesAs sp false p d = true) : runRow sp p d = Dev.runBody sp (Dev.entryOf p d).1 (Dev.entryOf p d).2 := by
  obtain ⟨hpermit, hplain⟩ := passesAs_parts sp false p d h
  rw [runRow_passed sp false p d h]
  simp only [Dev.execute, hpermit, hplain, Bool.false_eq_true, if_false]

/-- The opcode of a command that passes its checks, waits, and fails with nothing applied. -/
def CmdSpec.timesOut (wait : Dev → Dev) (sp : CmdSpec) : CmdSpec := { sp with body := fun _ d => (wait d).fail stTimeout }

/-- Which packets pass does not depend on the body. -/
theorem passesAs_timesOut (wait : Dev → Dev) (bulk : Bool) : Dev.passesAs (sp.timesOut wait) bulk p d = Dev.passesAs sp bulk p d := rfl

theorem runBody_timesOut (wait : Dev → Dev) (c : Cmd) : Dev.runBody (sp.timesOut wait) c d = (wait d).answer c stTimeout 0xFFFF 0 [] := rfl

theorem runPacket_timesOut (wait : Dev → Dev) (hop : specOf p.op = some sp) (h : Dev.passesAs sp false p d = true) :
    d.runPacket (fun q => (specOf q.op).map (CmdSpec.timesOut wait)) p =
      (wait (Dev.entryOf p d).2).answer (Dev.entryOf p d).1 stTimeout 0xFFFF 0 [] := by
  rw [runPacket_row d _ (sp.timesOut wait) p (by rw [hop]; rfl), runRow_body ((passesAs_timesOut wait false).trans h), runBody_timesOut]

end

/-! ## Messages that wait to be taken (R372) -/

/-- What the delivery timer of a channel reads: the message in the receive area, since when, and whether it has stalled. -/
def MboxChan.waiting (m : MboxChan) : Option Msg × Raw × Bool := (m.recv, m.placedAt, m.stall)

theorem deliver_mbox_ne (d : Dev) {ch k : Nat} (h : k ≠ ch) : (d.deliver ch).mbox k = d.mbox k := by
  unfold Dev.deliver
  dsimp only
  split
  · split
    · split
      · rw [vector_mbox, setMbox_mbox_ne _ _ h]
      · rw [setMbox_mbox_ne _ _ h]
    · rfl
  · rfl

/-- Nothing is delivered to a full receive area. -/
theorem deliver_full {d : Dev} {ch : Nat} (h : (d.mbox ch).recv.isSome = true) : d.deliver ch = d := by
  unfold Dev.deliver
  dsimp only
  split
  · next hnone _ => rw [hnone] at h; cases h
  · rfl

/-- A message sent leaves what waits in a receive area where it is. -/
theorem sendTo_waiting {d : Dev} {k : Nat} (h : (d.mbox k).recv.isSome = true) (ch : Nat) (b : List Byte) :
    ((d.sendTo ch b).mbox k).waiting = (d.mbox k).waiting := by
  have hset (c : Nat) (m : MboxChan) (hm : m.waiting = (d.mbox c).waiting) : ((d.setMbox c m).mbox k).waiting = (d.mbox k).waiting := by
    by_cases hk : k = c
    · rw [hk, setMbox_mbox, hm]
    · rw [setMbox_mbox_ne _ _ hk]
  simp only [Dev.sendTo]
  generalize (d.mbox ch).queue.length + (if (d.mbox ch).recv.isSome then 1 else 0) = held
  split
  · rfl
  · split
    · next hzero =>
      obtain ⟨hch, -⟩ := Bool.and_eq_true_iff.1 hzero
      rw [of_decide_eq_true hch]
      exact hset 0 _ rfl
    · by_cases hk : k = ch
      · subst hk
        rw [deliver_full (by rw [setMbox_mbox]; exact h)]
        exact hset k _ rfl
      · rw [deliver_mbox_ne _ hk]
        exact hset ch _ rfl

theorem notify_waiting {d : Dev} {k : Nat} (h : (d.mbox k).recv.isSome = true) (op tgt : Nat) (b : List Byte) :
    ((d.notify op tgt b).mbox k).waiting = (d.mbox k).waiting :=
  sendTo_waiting (d := { d with host := { d.host with notifSeq := d.host.notifSeq + 1 } }) h 0 _

/-- A fault raised F1 is recorded F1 or F2, and so neither latched nor quenching. -/
theorem faultRec_f1 (d : Dev) (b ev tile inst detail : Nat) (cond iso : Bool) :
    (d.faultRec b ev 1 tile inst detail cond iso).latched = false ∧ (d.faultRec b ev 1 tile inst detail cond iso).cls ≠ 4 := by
  unfold Dev.faultRec
  cases decide (0 < nth d.flt.unack 1) <;> simp

/-- A fault of class F1 is recorded and notified once, and leaves what waits to be taken. -/
theorem raise_f1_waiting {d : Dev} {k : Nat} (h : (d.mbox k).recv.isSome = true) (b ev tile inst detail : Nat) (cond : Bool) :
    ((d.raise b ev 1 tile inst detail cond).mbox k).waiting = (d.mbox k).waiting := by
  obtain ⟨hlatched, hcls⟩ := faultRec_f1 d b ev tile inst detail cond false
  unfold Dev.raise Dev.recordFault
  simp only [hlatched, hcls, Bool.false_eq_true, if_false]
  rw [notify_waiting (by exact h)]
  rfl

theorem advanceTo_mbox (d : Dev) (t : Raw) (ch : Nat) : (d.advanceTo t).mbox ch = d.mbox ch := by
  unfold Dev.advanceTo
  split <;> rfl

/-- The device in which a message's timer has run out: it is marked as stalled, and the timer starts anew (R372). -/
def Dev.stalledAt (d : Dev) (ch : Nat) (t : Raw) : Dev := (d.advanceTo t).updMbox ch (fun m => { m with placedAt := t, stall := true })

theorem stalledAt_mbox (d : Dev) (ch : Nat) (t : Raw) : (d.stalledAt ch t).mbox ch = { d.mbox ch with placedAt := t, stall := true } := by
  unfold Dev.stalledAt Dev.updMbox
  rw [setMbox_mbox, advanceTo_mbox]

section
variable {d : Dev} {ch : Nat} (hwait : (d.mbox ch).recv.isSome = true) (hready : d.ready = true)
include hwait hready

/-- A timeout stalls the message: the first raises F1, a further one is counted. -/
theorem opMbxDeliveryTimeout_waiting :
    d.opMbxDeliveryTimeout ch =
      if (d.mbox ch).stall then (d.stalledAt ch ((d.mbox ch).placedAt + rawMs d.mboxTimeoutMs)).count .mbxTimeouts ch
      else (d.stalledAt ch ((d.mbox ch).placedAt + rawMs d.mboxTimeoutMs)).raise 0x0C 0x01 1 0 ch 0 false := by
  unfold Dev.opMbxDeliveryTimeout
  generalize rawMs d.mboxTimeoutMs = wait
  exact if_neg (by simp [hready, Option.isSome_iff_ne_none.1 hwait])

theorem opMbxDeliveryTimeout_first (hfirst : (d.mbox ch).stall = false) :
    let e := d.opMbxDeliveryTimeout ch
    (e.mbox ch).stall = true ∧ (e.mbox ch).placedAt = (d.mbox ch).placedAt + rawMs d.mboxTimeoutMs ∧ Raised e 0x0C 0x01 0 ch := by
  intro e
  have he : e = _ := (opMbxDeliveryTimeout_waiting hwait hready).trans (if_neg (ne_true_of_eq_false hfirst))
  generalize (d.mbox ch).placedAt + rawMs d.mboxTimeoutMs = t at he ⊢
  have hmbox := stalledAt_mbox d ch t
  have hkept := raise_f1_waiting (d := d.stalledAt ch t) (k := ch) (by rw [hmbox]; exact hwait) 0x0C 0x01 0 ch 0 false
  rw [← he, hmbox] at hkept
  simp only [MboxChan.waiting, Prod.mk.injEq] at hkept
  obtain ⟨-, hplaced, hstall⟩ := hkept
  exact ⟨hstall, hplaced, he ▸ raise_raised _ _ _ _ _ _ _ _ _⟩

end

/-! ## The obligation -/

/-- Settles O39: placing and taking, packets by the checks they pass, then the timers. -/
theorem mailboxesCarryPacketsFragmentsAndMessages : Obligations.MailboxesCarryPacketsFragmentsAndMessages := by
  unfold Obligations.MailboxesCarryPacketsFragmentsAndMessages
  refine ⟨?write, ?writeRefused, ?take, ?takeNone, ?inband, ?fragment, ?forward, ?forwardTimeout, ?stall, ?stallAgain, ?assembly, ?refusals⟩
  case write =>
    intro d p ⟨hready, hlink, h1, h32, hfree, hmin, hmax⟩
    exact becomes_of (f := fun d => d.opMbxSendWrite p) (fun _ => rfl) (place_free d p hready h1 (by omega) (.inr hlink) hfree hmin hmax)
  case writeRefused =>
    intro d p ⟨hready, hlink, h1, h32, hbad⟩
    exact becomes_of (f := fun d => d.opMbxSendWrite p) (fun _ => rfl) (place_refused hready hlink h1 h32 hbad)
  case take =>
    intro d ch x ⟨hch, hok, hx⟩
    exact becomes_of (f := fun d => d.opMbxTakeRead ch) (fun _ => rfl) (opMbxTakeRead_waiting hch hok hx)
  case takeNone => exact fun d ch h => becomes_of (f := fun d => d.opMbxTakeRead ch) (fun _ => rfl) (opMbxTakeRead_none h)
  case inband =>
    intro d sub vlan mac p i ⟨hready, hrun, hon, hi, h16, hfree, hmin, hmax⟩
    refine becomes_of (f := fun d => d.opInbandMessageRx sub vlan mac p) (fun _ => rfl) ((opInbandMessageRx_bound hready hrun hon hi).trans ?_)
    exact place_free d { p with chan := 32 + i } hready (show 1 ≤ 32 + i by omega) (show 32 + i < 64 by omega) (.inl (Nat.le_add_right 32 i)) hfree hmin hmax
  case fragment =>
    intro d p sp ⟨hop, hpass⟩
    exact becomes_of (f := fun d => d.opFragmentRx p) (fun _ => rfl)
      ((runPacket_row d (fun q => specOf q.op) sp p hop).trans (runRow_fragment sp p d hpass))
  case forward =>
    intro d p sp ⟨hop, hpass⟩
    exact becomes_of (f := fun d => d.opTileForwardDone p) (fun _ => rfl)
      ((runPacket_row d (fun q => specOf q.op) sp p hop).trans (runRow_body hpass))
  case forwardTimeout =>
    intro d p sp ⟨hop, hpass⟩
    exact becomes_of (f := fun d => d.opTileForwardTimeout p) (fun _ => rfl)
      (runPacket_timesOut (fun d => d.advanceTo (d.now + rawMs 200)) hop hpass)
  case stall =>
    intro d ch ⟨hwait, hfirst, hready⟩
    exact leaves_of (f := fun d => d.opMbxDeliveryTimeout ch) (fun _ => rfl) (opMbxDeliveryTimeout_first hwait hready hfirst)
  case stallAgain =>
    intro d ch ⟨hwait, hagain, hready⟩
    exact becomes_of (f := fun d => d.opMbxDeliveryTimeout ch) (fun _ => rfl) ((opMbxDeliveryTimeout_waiting hwait hready).trans (if_pos hagain))
  case assembly =>
    intro d ch a ha
    refine becomes_of (f := fun d => d.opFragmentTimeout ch) (fun _ => rfl) ?_
    unfold Dev.opFragmentTimeout
    rw [ha]
  case refusals =>
    intro d ch t ht
    refine becomes_of (f := fun d => d.opAuthRefusalEnd ch) (fun _ => rfl) ?_
    unfold Dev.opAuthRefusalEnd
    rw [ht]

end Sys2Proof.Machine

/-! PROOFS. Die links, the boot image, memory, tiles and command-ready (O29). -/

namespace Sys2Proof.Machine

/-! ## Die links (R15, R76) -/

section
variable {d : Dev} {a b : Nat}

theorem opDieLinkTrained_live (hlink : d.linkExists a b = true) (htrain : d.linksTrain = true) :
    d.opDieLinkTrained a b = Dev.crossSettled (Dev.linksDone
      { d.fresh.2 with
        rst := { d.fresh.2.rst with links := mput d.fresh.2.rst.links (linkKey a b) true }
        cru := { d.fresh.2.cru with linkKeys := mput d.fresh.2.cru.linkKeys b d.fresh.1 } }) :=
  if_neither (by rw [hlink]; rfl) (by rw [htrain]; rfl)

/-- A link that does not train is failed with its F3; the boot goes on without it, or its tiles lose it. -/
theorem opDieLinkTrainTimeout_live (hlink : d.linkExists a b = true) (hdown : d.linkUpAB a b = false) (htrain : d.linksTrain = true) :
    let r := Dev.raise { d with rst := { d.rst with links := mput d.rst.links (linkKey a b) false } } 0x02 0x01 3 a a b false
    d.opDieLinkTrainTimeout a b = Dev.crossSettled (if d.rst.stage = .links then r.linksDone else r.dropUnreachable false) := by
  intro r
  have hstage : r.rst.stage = d.rst.stage := by rw [(raise_raises _ _ _ _ _ _ _ _ _).rst]
  rw [← hstage]
  exact if_clear (by rw [hlink, hdown, htrain]; rfl)

theorem opDieLinkLockLoss_up (hlink : d.linkExists a b = true) (hup : d.linkUpAB a b = true) :
    d.opDieLinkLockLoss a b =
      Dev.dropUnreachable (Dev.raise { d with rst := { d.rst with links := mput d.rst.links (linkKey a b) false } } 0x02 0x01 3 a a b false) false :=
  if_pos (by rw [hlink, hup]; rfl)

end

/-! ## Image stages (R68 to R74) -/

/-- A read of the flash waits for it and changes nothing of the boot (R494). -/
theorem flashAwake_rst (d : Dev) : d.flashAwake.rst = d.rst := by
  unfold Dev.flashAwake
  split
  · split
    · exact (advanceTo_supply _ _).2
    · rfl
  · rfl

/-- The directory decides the slot that is tried and not the stage of the boot (R69). -/
theorem directory_stage (d : Dev) (i : BootImage) : (d.directory i).rst.stage = d.rst.stage := by
  unfold Dev.directory
  split <;> rfl

theorem flashAwake_directory_stage (d : Dev) (i : BootImage) : (d.flashAwake.directory i).rst.stage = d.rst.stage := by
  rw [directory_stage, flashAwake_rst]

/-- A stage that is read from a slot that answers and that the directory names, no longer than a slot, signed under the scheme, is accepted. -/
theorem stageError_zero {d : Dev} {i : BootImage} (hread : d.rst.slotTry < 2 → i.answers = true ∧ (d.rst.strap = 0 → i.dirOk = true ∨ i.copyOk = true))
    (hsize : i.size ≤ 2 ^ 24) (hsigned : (if d.cru.scheme then i.mldsaOk else i.ecdsaOk) = true) : d.stageError i = 0 := by
  unfold Dev.stageError
  refine (if_clear ?_).trans ((if_clear ?_).trans ((if_neg (Nat.not_lt.2 hsize)).trans (if_set hsigned)))
  · by_cases hflash : d.rst.slotTry < 2
    · rw [(hread hflash).1]; simp
    · simp [hflash]
  · by_cases hflash : d.rst.slotTry < 2
    · by_cases hstrap : d.rst.strap = 0
      · rcases (hread hflash).2 hstrap with h | h <;> simp [h]
      · simp [hstrap]
    · simp [hflash]

section
variable {d : Dev} {i : BootImage} (hstage : d.rst.stage = .load) (hgo : d.rst.loadGo = false) (hpfw : d.pwr.pfw = false)
include hstage hgo hpfw

/-- What becomes of a stage read: its slot is rejected with its error, or it is extended in its order. -/
theorem opImageStageVerified_load : d.opImageStageVerified i =
    if (d.flashAwake.directory i).stageError i ≠ 0 then (d.flashAwake.directory i).slotRejected ((d.flashAwake.directory i).stageError i)
    else if i.stage ≠ (d.flashAwake.directory i).rst.stages + 1 || 4 < i.stage then d.flashAwake.directory i
    else (d.flashAwake.directory i).stageExtend i := by
  have hawake : d.flashAwake.rst.stage = .load := by rw [flashAwake_rst, hstage]
  unfold Dev.opImageStageVerified Dev.stageRead
  exact (if_clear (by simp [hstage, hgo, hpfw])).trans (if_neg (by simp [hawake]))

end

/-- A stage extended into the hallmark is measured; the last ends the load. -/
theorem stageExtend_spec (d : Dev) (i : BootImage) (hstage : d.rst.stage = .load) :
    let e := d.stageExtend i
    e.rst.hallmark = sha384 (d.rst.hallmark ++ [BitVec.ofNat 8 i.stage] ++ sha384 i.bytes) ∧ e.rst.mlog = d.rst.mlog ++ [sha384 i.bytes] ∧
      e.rst.stages = i.stage ∧ e.rst.stage = (if i.stage = 4 then .meminit else .load) ∧ (i.stage = 4 → e.rst.source = d.rst.slotTry) ∧
      (i.stage = 2 → e.rst.fwRelease = i.release) ∧ e = { d with rst := e.rst } := by
  intro e
  by_cases hlast : i.stage = 4
  · have he : e = _ := if_pos hlast
    rw [he, if_pos hlast]
    exact ⟨rfl, rfl, rfl, rfl, fun _ => rfl, fun h => absurd (h.symm.trans hlast) (by decide), rfl⟩
  · have he : e = _ := if_neg hlast
    rw [he, if_neg hlast]
    exact ⟨rfl, rfl, rfl, hstage, fun h => absurd h hlast, fun h => if_pos h, rfl⟩

/-- An error of the boot is reported and changes nothing else of it (R85). -/
theorem bootError_rst (d : Dev) (e : Nat) : (d.bootError e).rst = { d.rst with error := e } := by
  unfold Dev.bootError
  split
  · next h => rw [← h]
  · exact (irq_talks _ 2).rst

/-- A rejected slot starts the measurement anew; the other slot is tried where BOOT_SRC allows it and it is not bad itself, else the host. -/
theorem slotRejected_spec (d : Dev) {e : Nat} (hstage : d.rst.stage = .load) (he : e ≠ 0) :
    let r := d.slotRejected e
    r.rst.error = e ∧ r.rst.hallmark = zeroBytes 48 ∧ r.rst.mlog = [] ∧ r.rst.stages = 0 ∧ r.rst.slotBad = addUniq d.rst.slotBad d.rst.slotTry ∧
      (if d.rst.strap = 0 ∧ d.rst.slotTry < 2 ∧ 2 < e ∧ (1 - d.rst.slotTry) ∉ addUniq d.rst.slotBad d.rst.slotTry
        then r.rst.stage = .load ∧ r.rst.slotTry = 1 - d.rst.slotTry else r.rst.stage = .waitHost ∧ r.rst.slotTry = 2) := by
  intro r
  have hreported := bootError_rst d e
  have hother : (decide (d.rst.strap = 0) && decide (d.rst.slotTry < 2) && decide (e ≠ 1) && decide (e ≠ 2) &&
      !(addUniq d.rst.slotBad d.rst.slotTry).contains (1 - d.rst.slotTry)) = true ↔
      d.rst.strap = 0 ∧ d.rst.slotTry < 2 ∧ 2 < e ∧ (1 - d.rst.slotTry) ∉ addUniq d.rst.slotBad d.rst.slotTry := by
    simp only [Bool.and_eq_true, decide_eq_true_eq, Bool.not_eq_true', List.contains_eq_mem, decide_eq_false_iff_not]
    have : e ≠ 1 ∧ e ≠ 2 ↔ 2 < e := by omega
    tauto
  have hr : r = d.slotRejected e := rfl
  clear_value r
  unfold Dev.slotRejected at hr
  simp only [hreported] at hr
  by_cases htry : d.rst.strap = 0 ∧ d.rst.slotTry < 2 ∧ 2 < e ∧ (1 - d.rst.slotTry) ∉ addUniq d.rst.slotBad d.rst.slotTry
  · rw [if_pos (hother.2 htry)] at hr
    rw [hr, if_pos htry]
    exact ⟨rfl, rfl, rfl, rfl, rfl, hstage, rfl⟩
  · rw [if_neg (mt hother.1 htry)] at hr
    rw [hr, if_neg htry]
    exact ⟨rfl, rfl, rfl, rfl, rfl, rfl, rfl⟩

/-! ## The host load (R70) -/

theorem opRstBootDescGo_waiting {d : Dev} (hstage : d.rst.stage = .waitHost) (hlink : d.host.linkUp = true) (hpfw : d.pwr.pfw = false) (v : BitVec 32) :
    d.opRstBootDescGo v = (fun (r : Dev) => if v.getLsbD 0 then { r with rst := { r.rst with loadGo := true, stage := .load, slotTry := 2 } } else r)
      (d.setReg 0x208 (v.toNat / 64 * 64)) :=
  if_pos (by rw [decide_eq_true hstage, hlink, hpfw]; rfl)

theorem opRstBootDescGo_elsewhere {d : Dev} (hstage : d.rst.stage ≠ .waitHost) (hok : d.hostOk = true) (v : BitVec 32) :
    d.opRstBootDescGo v = d.setReg 0x208 (v.toNat / 64 * 64) :=
  (if_clear (by rw [decide_eq_false hstage]; rfl)).trans (if_pos hok)

theorem opHostImageLoaded_load {d : Dev} (hgo : d.rst.loadGo = true) (hstage : d.rst.stage = .load) (hpfw : d.pwr.pfw = false) (listOk : Bool)
    (images : List BootImage) :
    d.opHostImageLoaded listOk images = (fun (r : Dev) => if listOk then images.foldl Dev.stageRead r else r.slotRejected 7)
      { d with rst := { d.rst with loadGo := false } } :=
  if_clear (by simp [hgo, hstage, hpfw])

/-! ## Memory initialisation (R72, R73) -/

section
variable {d : Dev} {failed : List Nat} (hstage : d.rst.stage = .meminit) (hpfw : d.pwr.pfw = false)
include hstage hpfw

/-- A failed lead tile ends the boot. -/
theorem opMeminitDone_lead (hlead : 0 ∈ failed) :
    d.opMeminitDone failed = { d with rst := { d.rst with stage := .failed, loadGo := false }, pwr := { d.pwr with pstate := .boot } } := by
  have hboot : d.booted = false := by rw [Dev.booted, hstage]; rfl
  exact (if_clear (by simp [hstage, hpfw])).trans ((if_pos (by simpa using hlead)).trans (if_clear hboot))

/-- Other tiles that failed are isolated, and the boot goes on to its assay runs. -/
theorem opMeminitDone_others (hlead : 0 ∉ failed) :
    d.opMeminitDone failed =
      (fun (r : Dev) => Dev.bootRunTile { r with
        rst := { r.rst with stage := .tiles }
        asy := { r.asy with bootRun := r.tileList.filter (fun t => (r.tile t).st ≠ .isolated && r.bootAssay t) } } 0)
      ((failed.filter (fun t => t < d.nTiles)).foldl (fun d t => (d.takeOut t).raise 0x02 0x05 3 t t 0 false true) d) :=
  (if_clear (by simp [hstage, hpfw])).trans (if_neg (by simpa using hlead))

end

/-! ## The images of a tile (R75, R77) -/

/-- The device in which a tile's images are as measured and its time unit is aligned with the lead tile's (R131). -/
def Dev.tileAligned (d : Dev) (tile : Nat) (load : TileLoad) : Dev :=
  (d.updTile tile (fun x => { x with
    aligned := true, rawDiff := BitVec.ofInt 64 (((load.out + load.back) / 2 : Nat) - (load.out : Int)), corr := 0, timeErr := 0 })).endResync tile 0x80#9

section
variable {d : Dev} {tile : Nat} {load : TileLoad} (hpos : 0 < tile) (hin : tile < d.nTiles)
include hpos hin

/-- During a tile reset, images as measured bring the tile to BOOT. -/
theorem opTileImageLoaded_reset (hready : d.ready = true) (hst : (d.tile tile).st = .reset) (hassay : (d.tile tile).assayAfter = none)
    (hback : d.linksBack tile = true) (hsame : load.images.map sha384 = d.rst.mlog) :
    d.opTileImageLoaded tile load.images load.out load.back = (d.tileAligned tile load).tileTo tile .boot := by
  have hnoboot : ((d.tile tile).st == TileState.boot) = false := by rw [hst]; rfl
  unfold Dev.opTileImageLoaded
  simp only [hst, hassay, hback, hready, hsame]
  rw [if_clear (by simp [Nat.ne_of_gt hpos, hin]), if_neg (by simp), if_neg (by simp)]
  rfl

section
variable (hstage : d.rst.stage = .tiles) (hpfw : d.pwr.pfw = false) (hst : (d.tile tile).st = .boot) (haligned : (d.tile tile).aligned = false)
include hstage hpfw hst haligned

/-- During a package boot, images as measured let the tile run its boot assay. -/
theorem opTileImageLoaded_boot (hsame : load.images.map sha384 = d.rst.mlog) :
    d.opTileImageLoaded tile load.images load.out load.back = (d.tileAligned tile load).bootRunTile tile := by
  unfold Dev.opTileImageLoaded
  simp only [hst, hstage, hpfw, haligned, hsame]
  rw [if_clear (by simp [Nat.ne_of_gt hpos, hin]), if_neg (by simp), if_pos (by simp)]
  rfl

/-- Images that differ isolate the tile. -/
theorem opTileImageLoaded_differ (hdiffer : load.images.map sha384 ≠ d.rst.mlog) :
    d.opTileImageLoaded tile load.images load.out load.back =
      (((d.updTile tile (fun x => { x with lastCause := 4 })).takeOut tile).raise 0x02 0x06 3 tile tile 0 false true).assayGone tile := by
  unfold Dev.opTileImageLoaded
  simp only [hst, hstage, hpfw, haligned]
  rw [if_clear (by simp [Nat.ne_of_gt hpos, hin]), if_pos hdiffer]

end
end

/-! ## The end of a tile reset (R77, R457) -/

section
variable {d : Dev} {tile : Nat} (hready : d.ready = true) (hne : tile ≠ 0) (hin : tile < d.nTiles)
include hready hne hin

theorem opTileReset_boot (hst : (d.tile tile).st = .boot) (haligned : (d.tile tile).aligned = true) (hassay : (d.tile tile).assayAfter = none) :
    d.opTileReset tile = (d.finishTileReset tile).assayComplete := by
  unfold Dev.opTileReset
  refine (if_pos (by simp [hready, hne, hin])).trans ?_
  rw [hassay]
  exact if_pos (by rw [hst, haligned]; rfl)

theorem opTileReset_assay {set : Nat} (hst : (d.tile tile).st = .reset) (hassay : (d.tile tile).assayAfter = some set) :
    d.opTileReset tile = (d.updTile tile (fun x => { x with assayAfter := none })).assayOrDefer tile 2 set := by
  unfold Dev.opTileReset
  refine (if_pos (by simp [hready, hne, hin])).trans ?_
  rw [hassay]
  exact if_pos hst

end

/-! ## Faults raised anew at command-ready (R441) -/

/-- The package serves: it operates, or quench has halted it (Table 2-5). -/
def Dev.serving (d : Dev) : Prop := d.pwr.pstate = .operating ∨ d.pwr.pstate = .halted ∧ d.flt.quench = true

/-- Nothing but faults is raised, and a package that serves still does. -/
structure StillServes (d e : Dev) : Prop where
  raises : Raises d e
  serving : d.serving → e.serving

theorem StillServes.refl (d : Dev) : StillServes d d := ⟨Raises.refl d, id⟩
theorem StillServes.trans {d e f : Dev} (h : StillServes d e) (g : StillServes e f) : StillServes d f :=
  ⟨h.raises.trans g.raises, fun s => g.serving (h.serving s)⟩
theorem StillServes.foldl {α : Type} (f : Dev → α → Dev) (h : ∀ d x, StillServes d (f d x)) (l : List α) (d : Dev) : StillServes d (l.foldl f d) := by
  induction l generalizing d with
  | nil => exact StillServes.refl d
  | cons a l ih => exact (h d a).trans (ih (f d a))
theorem StillServes.ite {d e f : Dev} {b : Prop} [Decidable b] (h : StillServes d e) (g : StillServes d f) : StillServes d (if b then e else f) := by
  split
  · exact h
  · exact g
theorem Talks.stillServes {d e : Dev} (h : Talks d e) : StillServes d e :=
  ⟨h.raises, fun s => by unfold Dev.serving; rw [h.pwr, h.flt]; exact s⟩

/-- Quench halts a package that operates (R447). -/
theorem quenchNow_stillServes (d : Dev) (r : FltRec) : StillServes d (d.quenchNow r) := by
  refine ⟨quenchNow_raises d r, fun hserve => ?_⟩
  cases hq : d.flt.quench
  · have hop : d.pwr.pstate = .operating := hserve.resolve_right fun h => by rw [hq] at h; exact absurd h.2 (by decide)
    refine .inr ⟨?_, ?_⟩
    · rw [quenchNow_pwr, hq, hop]; rfl
    · unfold Dev.quenchNow
      rw [if_clear hq]
      dsimp only
      rw [(notify_talks _ _ _ _).flt, (irq_talks _ _).flt, (localFaults_talks _).flt, (lasersOff_talks _ _).flt, releaseAll_ring]
  · unfold Dev.quenchNow
    rw [if_pos hq]
    exact hserve

theorem recordFault_stillServes (d : Dev) (r : FltRec) : StillServes d (d.recordFault r) := by
  have henter : StillServes d (d.setFlt (d.flt.enter r (d.now + rawS d.quietS) (!d.pwr.pfw))) := by
    refine ⟨setFlt_raises _ _, fun hserve => ?_⟩
    unfold Dev.serving
    rw [Dev.setFlt_flt, (enter_unack _ _ _ _).2]
    exact hserve
  unfold Dev.recordFault
  dsimp only
  refine StillServes.trans ?_ (StillServes.ite (quenchNow_stillServes _ r) (StillServes.refl _))
  refine StillServes.trans ?_ (StillServes.ite (notify_talks _ _ _ _).stillServes (StillServes.refl _))
  exact henter.trans (notify_talks _ _ _ _).stillServes

theorem reRaised_stillServes (d : Dev) (b ev cls tile inst detail : Nat) : StillServes d (d.reRaised b ev cls tile inst detail) :=
  StillServes.ite (StillServes.refl d) (recordFault_stillServes d _)

theorem reRaisedAssay_stillServes (d : Dev) (t : Nat) : StillServes d (d.reRaisedAssay t) :=
  StillServes.ite (StillServes.refl d) (recordFault_stillServes d _)

/-- What is raised anew at command-ready is faults alone. -/
theorem reRaise_stillServes (d : Dev) : StillServes d d.reRaise := by
  have hmay {e : Dev} {b : Prop} [Decidable b] (bl ev cls tile inst detail : Nat) :
      StillServes e (if b then e.reRaised bl ev cls tile inst detail else e) :=
    StillServes.ite (reRaised_stillServes e _ _ _ _ _ _) (StillServes.refl e)
  have hquench (e : Dev) : StillServes e { e with flt := { e.flt with extQuench := true } } := ⟨rfl, id⟩
  unfold Dev.reRaise
  refine StillServes.trans ?_ (StillServes.ite ((hquench _).trans (reRaised_stillServes _ _ _ _ _ _ _)) (StillServes.refl _))
  refine StillServes.trans ?_ (StillServes.foldl _ reRaisedAssay_stillServes _ _)
  refine StillServes.trans ?_ (StillServes.foldl _ (fun e n => hmay _ _ _ _ _ _) _ _)
  refine StillServes.trans ?_ (hmay _ _ _ _ _ _)
  refine StillServes.trans ?_ (hmay _ _ _ _ _ _)
  refine StillServes.trans ?_ (hmay _ _ _ _ _ _)
  refine StillServes.trans ?_ (StillServes.foldl _ (fun e t => hmay _ _ _ _ _ _) _ _)
  exact (hmay _ _ _ _ _ _).trans (hmay _ _ _ _ _ _)

/-! ## Command-ready (R72, R343) -/

/-- Tiles other than the lead that are not isolated. -/
def Dev.tilesBooted (d : Dev) : List Nat := d.tileList.filter (fun t => t ≠ 0 && (d.tile t).st ≠ .isolated)

/-- A tile enters RUN aligned, its uplinks without fault. -/
def Dev.tileRuns (d : Dev) (t : Nat) : Dev := (d.updTile t (fun x => { x with aligned := true, uplinkFault := false })).tileTo t .run

/-- The device in which the crucible has started and every tile in service runs. -/
def Dev.tilesRunning (d : Dev) : Dev := (0 :: d.tilesBooted).foldl Dev.tileRuns d.crucibleStart

/-- The device that operates, before the faults whose conditions still hold are raised anew. -/
def Dev.operates (d : Dev) : Dev :=
  let r := d.tilesRunning
  Dev.irq { r with
    pwr := { r.pwr with pstate := .operating }
    rst := { r.rst with stage := .ready, readyUs := (r.now - r.rst.resetAt).toNat / 65536000, assayExit := false }
    asy := { r.asy with oneShot := none } } 0

/-- The boot waits for nothing more (R72). -/
structure Dev.Booted (d : Dev) : Prop where
  stage : d.rst.stage = .tiles
  pfw : d.pwr.pfw = false
  tiles : d.tilesBooted.all (fun t => (d.tile t).aligned && (d.tile t).st = .boot) = true
  runs : d.asy.bootRun = []
  exit : d.asy.exitPend = false

section
variable {d : Dev} (h : d.Booted)
include h

theorem Dev.Booted.guard : (d.rst.stage = .tiles && !d.pwr.pfw &&
    (d.tileList.filter (fun t => t ≠ 0 && (d.tile t).st ≠ .isolated)).all (fun t => (d.tile t).aligned && (d.tile t).st = .boot) &&
    d.asy.bootRun.isEmpty && !d.asy.exitPend) = true := by
  have htiles := h.tiles
  unfold Dev.tilesBooted at htiles
  rw [h.stage, h.pfw, htiles, h.runs, h.exit]
  rfl

/-- Command-ready with no transition pending: the device operates, and the faults that still hold are raised anew. -/
theorem opCommandReady_none (hnone : d.operates.reRaise.cru.transition = none) : d.opCommandReady = d.operates.reRaise := by
  unfold Dev.opCommandReady
  rw [if_pos h.guard]
  unfold Dev.operates Dev.tilesRunning Dev.tilesBooted Dev.tileRuns at *
  dsimp only at hnone ⊢
  rw [hnone]

/-- Command-ready with a transition pending: it is run again, under the anchor and the scheme held (R351). -/
theorem opCommandReady_some {life : Life} (hsome : d.operates.reRaise.cru.transition = some life) :
    ∃ anchor scheme, d.opCommandReady = d.operates.reRaise.runTransition life anchor scheme := by
  unfold Dev.opCommandReady
  rw [if_pos h.guard]
  unfold Dev.operates Dev.tilesRunning Dev.tilesBooted Dev.tileRuns at *
  dsimp only at hsome ⊢
  rw [hsome]
  exact ⟨_, _, rfl⟩

end

/-- The crucible's start changes the crucible and uses up free values. -/
theorem crucibleStart_same (d : Dev) : ∃ cru n, d.crucibleStart = { d with cru := cru, freeCtr := n } ∧ cru.transition = d.cru.transition := by
  unfold Dev.crucibleStart
  dsimp only
  split
  · exact ⟨_, _, rfl, rfl⟩
  · exact ⟨_, _, rfl, rfl⟩

/-- Nothing but tile records and what messages change is otherwise. -/
def MovesTiles (d e : Dev) : Prop := Talks { d with tiles := e.tiles } e

theorem MovesTiles.trans {d e f : Dev} (h : MovesTiles d e) (g : MovesTiles e f) : MovesTiles d f := by
  unfold MovesTiles Talks at *; rw [g]; rw [h]

theorem tileTo_movesTiles (d : Dev) (t : Nat) (s : TileState) : MovesTiles d (d.tileTo t s) := by
  unfold Dev.tileTo
  split
  · rfl
  · have htalk := irq_talks (d.updTile t (fun x => { x with st := s })) 1
    unfold MovesTiles
    rw [htalk.tiles]
    exact htalk

theorem tileRuns_movesTiles (d : Dev) (t : Nat) : MovesTiles d (d.tileRuns t) :=
  MovesTiles.trans (e := d.updTile t _) rfl (tileTo_movesTiles _ t .run)

theorem foldl_tileRuns_movesTiles (l : List Nat) (d : Dev) : MovesTiles d (l.foldl Dev.tileRuns d) := by
  induction l generalizing d with
  | nil => rfl
  | cons t l ih => exact (tileRuns_movesTiles d t).trans (ih _)

/-- A tile that another brings to RUN keeps its state. -/
theorem tileRuns_st_ne (d : Dev) {t u : Nat} (h : u ≠ t) : ((d.tileRuns t).tile u).st = (d.tile u).st := by
  unfold Dev.tileRuns Dev.tileTo
  split
  · rw [tile_updTile_ne _ _ h]
  · rw [tile_congr (irq_talks _ 1).tiles, tile_updTile_ne _ _ h, tile_updTile_ne _ _ h]

/-- Of tiles brought to RUN one after the other, each runs. -/
theorem foldl_tileRuns_st {l : List Nat} (d : Dev) {t : Nat} (h : t ∈ l) : ((l.foldl Dev.tileRuns d).tile t).st = .run :=
  foldl_reaches (fun d t => (d.tile t).st) (fun _ _ => tileTo_st _ _ _) tileRuns_st_ne l (.inl h)

/-- What holds of a device as it begins to operate: the interpreter starts, a one-shot assay is over, and the pending transition stays. -/
theorem operates_spec (d : Dev) :
    let e := d.operates
    e.rst.stage = .ready ∧ e.rst.readyUs = (d.now - d.rst.resetAt).toNat / 65536000 ∧ e.asy.oneShot = none ∧ e.cru.transition = d.cru.transition ∧
      e.pwr = { d.pwr with pstate := .operating } ∧ ∀ t ∈ 0 :: d.tilesBooted, (e.tile t).st = .run := by
  obtain ⟨cru, n, hcru, htrans⟩ := crucibleStart_same d
  have hmoved := foldl_tileRuns_movesTiles (0 :: d.tilesBooted) d.crucibleStart
  have hst (t : Nat) (ht : t ∈ 0 :: d.tilesBooted) := foldl_tileRuns_st d.crucibleStart ht
  have htime : d.tilesRunning.now = d.now := by unfold Dev.now Dev.tilesRunning; rw [hmoved.time, hcru]
  have hrst : d.tilesRunning.rst = d.rst := hmoved.rst.trans (by rw [hcru])
  have hpwr : d.tilesRunning.pwr = d.pwr := hmoved.pwr.trans (by rw [hcru])
  have hkeys : d.tilesRunning.cru.transition = d.cru.transition := by
    rw [show d.tilesRunning.cru = _ from hmoved.cru, hcru]
    exact htrans
  intro e
  have he := irq_talks { d.tilesRunning with
    pwr := { d.tilesRunning.pwr with pstate := .operating }
    rst := { d.tilesRunning.rst with stage := .ready, readyUs := (d.tilesRunning.now - d.tilesRunning.rst.resetAt).toNat / 65536000, assayExit := false }
    asy := { d.tilesRunning.asy with oneShot := none } } 0
  refine ⟨congrArg RstState.stage he.rst, (congrArg RstState.readyUs he.rst).trans ?_, congrArg AssayState.oneShot he.asy,
    (congrArg CrucibleState.transition he.cru).trans hkeys, he.pwr.trans ?_, fun t ht => (congrArg Tile.st (tile_congr he.tiles t)).trans (hst t ht)⟩
  · rw [htime, hrst]
  · rw [hpwr]

/-- A transition that runs while no reset is under way zeroises, takes its state and starts a package warm reset (R351). -/
theorem runTransition_spec {d : Dev} (h : d.inReset = false) (life : Life) (anchor : List Byte) (scheme : Bool) :
    let e := d.runTransition life anchor scheme
    e.cru.life = life ∧ e.cru.transition = none ∧ e.cru.slots = [] ∧ e.rst.stage = .links ∧ e.pwr.pstate = .boot := by
  have hbus : Talks d (d.tileList.foldl (fun d t => d.emit (.keyBus 2 t 0)) d) := Talks.foldl _ (fun d _ => emit_talks d _) _ d
  have hwarm (e : Dev) (hpwr : e.pwr = d.pwr) (hrst : e.rst = d.rst) : e.warmReset 3 = e.packageReset true 3 := by
    have hreset : e.inReset = false := by rw [← h]; unfold Dev.inReset; rw [hpwr, hrst]
    unfold Dev.warmReset
    rw [if_clear (inWarm_of_not_inReset hreset), if_clear hreset]
  unfold Dev.runTransition
  dsimp only
  rw [hwarm]
  · exact ⟨rfl, rfl, rfl, rfl, rfl⟩
  · exact hbus.pwr
  · exact hbus.rst

/-! ## The obligation -/

/-- Settles O29: die links, stages, memory and tiles by what each event does under its premises, then command-ready. -/
theorem imagesAndTilesBoot : Obligations.ImagesAndTilesBoot := by
  unfold Obligations.ImagesAndTilesBoot
  refine ⟨?trained, ?failed, ?lost, ?accepted, ?rejected, ?go, ?noGo, ?loaded, ?leadFailed, ?othersFailed, ?tileReloaded, ?tileLoaded, ?tileDiffers,
    ?ready, ?transition, ?tileRuns, ?tileAssay⟩
  case trained =>
    intro d a b ⟨hlink, htrain⟩
    exact becomes_of (f := fun d => d.opDieLinkTrained a b) (fun _ => rfl) (opDieLinkTrained_live hlink htrain)
  case failed =>
    intro d a b ⟨hlink, hdown, htrain⟩
    exact becomes_of (f := fun d => d.opDieLinkTrainTimeout a b) (fun _ => rfl) (opDieLinkTrainTimeout_live hlink hdown htrain)
  case lost =>
    intro d a b ⟨hlink, hup⟩
    exact becomes_of (f := fun d => d.opDieLinkLockLoss a b) (fun _ => rfl) (opDieLinkLockLoss_up hlink hup)
  case accepted =>
    rintro d image a ⟨hstage, hgo, hpfw, rfl, hread, hsize, hsigned, hnext, hlast⟩
    refine leaves_of (f := fun d => d.opImageStageVerified image) (fun _ => rfl) ?_
    rw [opImageStageVerified_load hstage hgo hpfw, if_neg (not_not.2 (stageError_zero hread hsize hsigned)), if_neg (by simp [hnext]; omega)]
    exact stageExtend_spec _ image ((flashAwake_directory_stage d image).trans hstage)
  case rejected =>
    rintro d image a ⟨hstage, hgo, hpfw, rfl, herror⟩
    refine leaves_of (f := fun d => d.opImageStageVerified image) (fun _ => rfl) ?_
    rw [opImageStageVerified_load hstage hgo hpfw, if_pos herror]
    exact slotRejected_spec _ ((flashAwake_directory_stage d image).trans hstage) herror
  case go =>
    intro d value ⟨hstage, hlink, hpfw⟩
    exact becomes_of (f := fun d => d.opRstBootDescGo value) (fun _ => rfl) (opRstBootDescGo_waiting hstage hlink hpfw value)
  case noGo =>
    intro d value ⟨hstage, hok⟩
    exact becomes_of (f := fun d => d.opRstBootDescGo value) (fun _ => rfl) (opRstBootDescGo_elsewhere hstage hok value)
  case loaded =>
    intro d load ⟨hgo, hstage, hpfw⟩
    exact becomes_of (f := fun d => d.opHostImageLoaded load.listOk load.images) (fun _ => rfl) (opHostImageLoaded_load hgo hstage hpfw _ _)
  case leadFailed =>
    intro d failed ⟨hstage, hpfw, hlead⟩
    exact becomes_of (f := fun d => d.opMeminitDone failed) (fun _ => rfl) (opMeminitDone_lead hstage hpfw hlead)
  case othersFailed =>
    rintro d failed r ⟨hstage, hpfw, hlead, rfl⟩
    exact becomes_of (f := fun d => d.opMeminitDone failed) (fun _ => rfl) (opMeminitDone_others hstage hpfw hlead)
  case tileReloaded =>
    intro d tile load ⟨hpos, hin, hready, hst, hassay, hback, hsame⟩
    exact becomes_of (f := fun d => d.opTileImageLoaded tile load.images load.out load.back) (fun _ => rfl)
      (opTileImageLoaded_reset hpos hin hready hst hassay hback hsame)
  case tileLoaded =>
    intro d tile load ⟨hpos, hin, hstage, hpfw, hst, haligned, hsame⟩
    exact becomes_of (f := fun d => d.opTileImageLoaded tile load.images load.out load.back) (fun _ => rfl)
      (opTileImageLoaded_boot hpos hin hstage hpfw hst haligned hsame)
  case tileDiffers =>
    intro d tile load ⟨hpos, hin, hstage, hpfw, hst, haligned, hdiffer⟩
    exact becomes_of (f := fun d => d.opTileImageLoaded tile load.images load.out load.back) (fun _ => rfl)
      (opTileImageLoaded_differ hpos hin hstage hpfw hst haligned hdiffer)
  case ready =>
    intro d ⟨hstage, hpfw, htiles, hruns, hexit, hnone⟩
    obtain ⟨hready, hus, hshot, htrans, hpwr, hrun⟩ := operates_spec d
    obtain ⟨hraises, hserves⟩ := reRaise_stillServes d.operates
    refine leaves_of (f := Dev.opCommandReady) (fun _ => rfl) ?_
    have hcru : d.operates.reRaise.cru.transition = none := by rw [hraises.cru, htrans, hnone]
    rw [opCommandReady_none ⟨hstage, hpfw, htiles, hruns, hexit⟩ hcru]
    refine ⟨by rw [hraises.rst, hready], fun hq => ?_, by rw [hraises.rst, hus], by rw [hraises.asy, hshot], hcru, ?_⟩
    · exact (hserves (.inl (by rw [hpwr]))).resolve_right fun h => by rw [hq] at h; exact absurd h.2 (by decide)
    · refine List.all_eq_true.2 fun t ht => decide_eq_true ?_
      rw [tile_congr hraises.tiles]
      refine hrun t ?_
      obtain ⟨hin, hserve⟩ := List.mem_filter.1 ht
      by_cases h0 : t = 0
      · exact h0 ▸ List.mem_cons_self
      · refine List.mem_cons_of_mem _ (List.mem_filter.2 ⟨hin, ?_⟩)
        simpa [h0] using hserve
  case transition =>
    intro d life ⟨hstage, hpfw, htiles, hruns, hexit, hsome⟩
    obtain ⟨hready, -, -, htrans, hpwr, -⟩ := operates_spec d
    obtain ⟨hraises, hserves⟩ := reRaise_stillServes d.operates
    obtain ⟨anchor, scheme, hagain⟩ := opCommandReady_some ⟨hstage, hpfw, htiles, hruns, hexit⟩ (life := life) (by rw [hraises.cru, htrans, hsome])
    refine leaves_of (f := Dev.opCommandReady) (fun _ => rfl) ?_
    rw [hagain]
    refine runTransition_spec ?_ life _ _
    have hclocks : d.operates.reRaise.pwr.pfw = false := by rw [hraises.pwr, hpwr]; exact hpfw
    unfold Dev.inReset
    rw [hclocks, hraises.rst, hready]
    rcases hserves (.inl (by rw [hpwr])) with h | ⟨h, -⟩ <;> rw [h] <;> rfl
  case tileRuns =>
    intro d tile ⟨hready, hne, hin, hst, haligned, hassay⟩
    exact becomes_of (f := fun d => d.opTileReset tile) (fun _ => rfl) (opTileReset_boot hready hne hin hst haligned hassay)
  case tileAssay =>
    intro d tile set ⟨hready, hne, hin, hst, hassay⟩
    exact becomes_of (f := fun d => d.opTileReset tile) (fun _ => rfl) (opTileReset_assay hready hne hin hst hassay)

end Sys2Proof.Machine
